-- ==== Sys2Proof/Word.lean ====
section
/-! DEFINITION. The words of the GX-192: 32-bit registers and bytes of host memory (R9, R10), and the
rounding that the manual names (R109, R180, R476). -/

namespace Sys2Proof

/-- A register or record word (R393). -/
abbrev Word := BitVec 32

/-- A byte of host memory or of a record (R9). -/
abbrev Byte := BitVec 8

/-- A frame number, the 64-bit count of ticks (R26). -/
abbrev FrameNo := BitVec 64

/-- `n / d` rounded to nearest with ties away from zero (R180, R476), for `d > 0`. -/
def roundDiv (n : Int) (d : Nat) : Int :=
  if n < 0 then -((2 * n.natAbs + d) / (2 * d) : Nat) else ((2 * n.natAbs + d) / (2 * d) : Nat)

/-- `⌊n / d⌋` toward −∞ (R299), for `d > 0`. -/
def floorDiv (n : Int) (d : Nat) : Int := Int.fdiv n d

/-- `n` held to the range `lo`–`hi` (R476). -/
def clampInt (lo hi n : Int) : Int := max lo (min hi n)

/-- `n` held to the range `lo`–`hi` (R476). -/
def clampNat (lo hi n : Nat) : Nat := max lo (min hi n)

/-- A counter that saturates at the top of its 32-bit field. -/
def satInc (w : Word) : Word := if w = BitVec.allOnes 32 then w else w + 1

/-- −1, 0 or +1. -/
def signInt (n : Int) : Int := if n < 0 then -1 else if n = 0 then 0 else 1

end Sys2Proof
end

