-- ==== Sys2Proof/Syntax.lean ====
section
/-! DEFINITION. The commands the block takes: one constructor of `Instr` for each row of
spec/opcode_table.json, in the table's order. The table gives no operands; each constructor carries what the
rows' rules say the event brings with it (a write's master and word, a read's data, an edge, a sample). -/

namespace Sys2Proof

/-- An axis, 0–199 (R5): 0–191 light, 192–199 heavy. -/
abbrev AxisId := Fin 200
/-- A submission ring and its completion ring, 0–15 (R49). -/
abbrev RingId := Fin 16
/-- A light bay, 0–23. -/
abbrev BayId := Fin 24
/-- A carrier unit: bays 0–23, and 24 for the heavy group (R20). -/
abbrev CarrierId := Fin 25
/-- A VM domain or chopper: tiles 0–5, 6 the heavy group (R326). -/
abbrev DomainId := Fin 7
/-- A heavy axis h = 0–7, axis 192 + h (R5). -/
abbrev HeavyId := Fin 8

/-- The masters of the register bus (R394). -/
inductive Master
  | pf0 | pf1 | spiAdmin | spiOpen | supervisor
  deriving DecidableEq, Repr

/-- What a DMA read of host memory brings: its bytes, or the OR of the error codes of R78 (1 Unsupported
Request, 2 Completer Abort, 4 timeout, 8 poisoned). -/
inductive HostRead
  | data (bytes : List Byte)
  | failed (err : BitVec 8)
  deriving DecidableEq, Repr

/-- What stands at the block's analogue inputs at a tick: the slow-clock time since the tick before
(R413), the control die's temperature in 1/16 °C (R328), the seven VM entries and the thirteen rails in mV
(R314, R327). -/
structure TickIn where
  usSinceTick : Nat
  dieTemp : Int
  vmMv : List Nat
  railMv : List Nat
  deriving DecidableEq, Repr

/-- One edge of a heavy leg in the frame before: its leg, fall or rise, the clock at which the node
comparator registered (none where it did not), and the clock g of the gate interlock (R247, R249). -/
structure HeavyEdge where
  leg : Fin 32
  fall : Bool
  node : Option Nat
  gate : Nat
  deriving DecidableEq, Repr

/-- The device's seven VM entries and thirteen rails in mV, at the device carrier's peak (R314, R316). -/
structure SupplyIn where
  vmMv : List Nat
  railMv : List Nat
  deriving DecidableEq, Repr

/-- The valley sample of a bay or of the heavy group (R193, R198): 16 current codes, the VM code and the
temperature code; for the heavy group also the bootstrap comparators (R251) and the edges of the frame
before (R247), with the falls of the bootstrap refreshes that begin there (R252). `device`: the supplies, where the device carrier has
peaked since the last command. -/
structure ValleyIn where
  cur : List Nat
  vm : Nat
  temp : Nat
  bootWarn : BitVec 32
  bootRel : BitVec 32
  edges : List HeavyEdge
  refreshed : List HeavyEdge
  device : Option SupplyIn
  deriving DecidableEq, Repr

/-- The peak sample (R193): 16 current codes, the VM code and the internal-reference code; `device` as in a valley sample. -/
structure PeakIn where
  cur : List Nat
  vm : Nat
  ref : Nat
  device : Option SupplyIn
  deriving DecidableEq, Repr

/-- What a detection of the heavy group brings, and whether it falls on the clock of the group's detection before it (R259). -/
structure Detected (α : Type) where
  val : α
  same : Bool
  deriving DecidableEq, Repr

/-- A trip of a coil window (R220): its clock, the heavy edges of the frame (R242), and whether it falls on the clock of the
unit's detection before it (R259). -/
structure TripIn where
  clk : Nat
  edges : List HeavyEdge
  same : Bool
  deriving DecidableEq, Repr

/-- A qualified edge of a channel's index input (R296): its level, and its clock. -/
structure IndexEdge where
  level : Bool
  clk : Nat
  deriving DecidableEq, Repr

/-- STATUS as it comes (R342, R346): the frame, and its sender's ring position, the hops that it lies east of station 0. -/
structure StatusIn where
  bytes : List Byte
  pos : Fin 8
  deriving DecidableEq, Repr

/-- RESET as it comes (R346, R351): the frame, the receiver's ring position, the stations on the ring, and station 0's rate. -/
structure ResetIn where
  bytes : List Byte
  pos : Fin 8
  size : Fin 9
  rate : Fin 4
  deriving DecidableEq, Repr

/-- What a PING measures (R348, R352): the delay in ns, and the clock of its arrival. -/
structure PingIn where
  delayNs : Nat
  clk : Nat
  deriving DecidableEq, Repr

/-- What a joining station finds on the line (R352, R353): the frame counter, and the stations by ring position. -/
structure JoinIn where
  count : FrameNo
  places : List (Option Nat)
  deriving DecidableEq, Repr

/-- The two checks of the frame watchdog (R38). -/
inductive WdCheck
  | references
  | duties (u : CarrierId)
  deriving DecidableEq, Repr

/-- Which line of a step input pair changed: step, direction, or both on one clock (R157). -/
inductive StepLine
  | step | dir | both
  deriving DecidableEq, Repr

/-- A filtered edge on a step input pair (R157, R158): the line, the levels after it, the length in ns of the
phase the edge ends, and how many ns before the edge the direction line last changed, and before that, as far
as the changes lie within 150 ns. -/
structure StepEdge where
  line : StepLine
  stepLevel : Bool
  dirLevel : Bool
  phaseNs : Nat
  dirAgo : List Nat
  deriving DecidableEq, Repr

/-- The outcome of a comparator's self-test (R321). -/
inductive TestOutcome
  | passed | failed | refErr
  deriving DecidableEq, Repr

/-- What an access of an SRAM word finds (R405, R407). -/
inductive EccResult
  | good
  | correctable (syndrome : Byte)
  | uncorrectable (syndrome : Byte)
  deriving DecidableEq, Repr

/-- What meets an SRAM word or an internal bus and checks it (R405, R407): the scrubber at its position, a functional access of a word, a
bus that carries a word of the SRAM, a bus that carries a write or a read of a register. -/
inductive EccFinder
  | scrubber | access | bus | registerWrite | registerRead
  deriving DecidableEq, Repr

/-- One item of a Consist image (R430): a parameter of an axis, a parameter of a card, a word of a card's
table, or a configuration register. -/
inductive ConsistItem
  | axisParam (axis : AxisId) (id : Nat) (value : Int)
  | cardParam (card : Fin 64) (id : Nat) (value : Nat)
  | cardTable (card : Fin 64) (m : Fin 256) (value : Nat)
  | register (addr : Nat) (value : Word)
  deriving DecidableEq, Repr

/-- How the write of an image to flash ended (R435, R438): good, with the version the image carries and the
cost figures it brings (R33, R34), a Consist's items and whether its CRC-32C holds (R431) where the target is a Consist slot, or a
reason, with the version of the image where one was read. -/
inductive UpdResult
  | image (version : Word) (costs : List Nat) (formats : List Nat)
  | consist (items : List ConsistItem) (crcGood : Bool)
  | staged (version : Word) (bytes : Nat) (isTable : Bool) (table : List Nat) (crc : Word)
  | failed (reason : Nat) (version : Word)
  deriving DecidableEq, Repr

/-- The commands, one for each row of spec/opcode_table.json. A descriptor's command names the descriptor by
its place `d` in the one acceptance sequence of R82. -/
inductive Instr
  | frameTick (t : TickIn)
  | clockLoss (sourceStopped : Bool)
  | pllRelock
  | bayShadowLoad (u : CarrierId) (v : ValleyIn)
  | bayPeakSample (u : CarrierId) (p : PeakIn)
  | watchdogCheck (w : WdCheck)
  | frmAdmitGo (m : Master) (w : Word)
  | admissionResult
  | wdogFiredClear (m : Master)
  | wdogTest (m : Master)
  | frmCountLoRead (m : Master)
  | captureRead (m : Master) (addr : Nat)
  | rcFieldRead (m : Master) (addr : Nat)
  | resultRegisterRead (m : Master) (addr : Nat)
  | registerWrite (m : Master) (addr : Nat) (be : BitVec 4) (w : Word)
  | wlWordWrite (m : Master) (addr : Nat) (be : BitVec 4) (w : Word)
  | sramApertureRead (m : Master) (off : Nat) (found : EccResult)
  | hostLinkDown
  | hostLinkUp
  | functionLevelReset (f : Fin 2)
  | perst
  | hifKick (m : Master)
  | doorbellBlockReadDone (r : HostRead)
  | returnBlockReadDone (r : HostRead)
  | descriptorReadDone (q : RingId) (r : HostRead)
  | descriptorRefetchDone (d : Nat) (r : HostRead)
  | sqEnable (m : Master) (q : RingId) (w : Word)
  | sqDisable (m : Master) (q : RingId) (w : Word)
  | sqDrainDone (q : RingId)
  | cqEnable (m : Master) (q : RingId) (w : Word)
  | cqDisable (m : Master) (q : RingId) (w : Word)
  | eqEnable (m : Master) (w : Word)
  | eqDisable (m : Master) (w : Word)
  | msixCoalesceTimeout (src : Fin 17)
  | enterOrdering (q : RingId)
  | nop (d : Nat)
  | moveAbs (d : Nat)
  | moveRel (d : Nat)
  | moveVel (d : Nat)
  | moveVelComplete (x : AxisId)
  | stop (d : Nat)
  | followStep (d : Nat)
  | followCam (d : Nat)
  | energize (d : Nat)
  | park (d : Nat)
  | fence (d : Nat)
  | fenceComplete (d : Nat)
  | barrier (d : Nat)
  | barrierArrive (d : Nat)
  | barrierRelease (id : Word)
  | snapshot (d : Nat)
  | snapshotComplete (d : Nat)
  | triggerArm (d : Nat)
  | maskSet (d : Nat)
  | identify (d : Nat)
  | identifyComplete (x : AxisId)
  | shaperIdentComplete (x : AxisId) (freq : Nat) (damp : Nat)
  | setParam (d : Nat)
  | posSet (d : Nat)
  | grpDef (d : Nat)
  | trgDisarm (d : Nat)
  | groupMove (d : Nat)
  | groupTargetListReadDone (d : Nat) (r : HostRead)
  | consistSelect (d : Nat)
  | consistSlotReadEnd (d : Nat)
  | moveComplete (x : AxisId)
  | energisingRampEnd (x : AxisId)
  | identREnd (x : AxisId)
  | identLEnd (x : AxisId)
  | energizeComplete (x : AxisId)
  | powerDownDelayEnd (x : AxisId)
  | powerDownRampEnd (x : AxisId)
  | standstillWindowEnd (x : AxisId)
  | bootstrapRelease (h : HeavyId)
  | bootstrapReleaseTimeout (h : HeavyId)
  | camLineReadDone (x : AxisId) (line : Nat) (r : HostRead)
  | stepInputEdge (p : Fin 16) (e : StepEdge)
  | stepPairOpen (p : Fin 16)
  | brSrcWrite (m : Master) (x : AxisId) (w : Word)
  | bayCommitWrite (m : Master) (b : BayId) (w : Word)
  | legLatchRelease (m : Master) (u : CarrierId) (w : Word)
  | coilWindowTrip (u : CarrierId) (c : Fin 16) (hi : Bool) (trip : TripIn)
  | debugHalt (core : Fin 14)
  | stoInputLow (a : Bool) (b : Bool) (us : Nat)
  | stoRelease (us : Nat)
  | stoDiscrepancy
  | fastOvercurrent (leg : Fin 768) (low : Bool)
  | openLoadCountEnd (x : AxisId)
  | parkedAxisProbe (x : AxisId) (code : Nat)
  | bootstrapUndervoltage (leg : Fin 32)
  | gateSupplyFall (r : Fin 2)
  | gateSupplyRelease (r : Fin 2)
  | vdsDetection (leg : Fin 32) (low : Bool) (clk : Detected Nat)
  | hardOvercurrent (c : Fin 16) (code : Detected Nat)
  | gateFeedbackMismatch (leg : Fin 32) (low : Bool) (kind : Detected (Fin 4))
  | fbStateChange (c : Fin 24) (a : Bool) (b : Bool) (clk : Nat)
  | fbSincosConversion (c : Fin 24) (codeA : Nat) (codeB : Nat) (clk : Nat)
  | fbWireCheckFail (c : Fin 24) (pair : Fin 3) (amplitude : Bool)
  | fbChannelValid (c : Fin 24)
  | indexQualified (c : Fin 24) (z : IndexEdge)
  | fbCfgWrite (m : Master) (c : Fin 24) (w : Word)
  | fbReval (m : Master) (c : Fin 24)
  | fbSetcnt (m : Master) (c : Fin 24)
  | fbSuspectClear (m : Master) (c : Fin 24)
  | fbIndexConfigWrite (m : Master) (addr : Nat) (w : Word)
  | fbSoftLimitWrite (m : Master) (addr : Nat) (w : Word)
  | probeEdge (q : Fin 16) (level : Bool) (clk : Nat)
  | emuCfgWrite (m : Master) (e : Fin 4) (w : Word)
  | comparatorSweepStart
  | cmpSweepWrite (m : Master)
  | comparatorTestEnd (o : TestOutcome)
  | cmpThresholdWrite (m : Master) (addr : Nat) (w : Word)
  | vmEntryLoTrip (d : DomainId)
  | vmEntryHiTrip (d : DomainId)
  | overvoltageMonitorTrip (u : CarrierId)
  | brakeChopperLimit (b : DomainId)
  | railLoTrip (r : Fin 13)
  | railHiTrip (r : Fin 13)
  | granaryDeratingUpdate
  | lineEnable (m : Master) (w : Word)
  | lineStatusReceive (port : Fin 2) (frame : StatusIn)
  | lineArriveReceive (port : Fin 2) (bytes : List Byte)
  | lineSnapCmdReceive (port : Fin 2) (bytes : List Byte)
  | lineSnapDoneReceive (port : Fin 2) (bytes : List Byte)
  | lineResetReceive (port : Fin 2) (frame : ResetIn)
  | linePingReceive (port : Fin 2) (bytes : List Byte) (ping : PingIn)
  | tickMarkerReceive (port : Fin 2) (clk : Nat)
  | estopMarkerReceive (port : Fin 2) (data : Byte) (inv : Byte)
  | lineCutOff
  | linePortDown (port : Fin 2) (checkFailures : Bool)
  | lineJoin (found : JoinIn)
  | lineCtlReset (m : Master)
  | lineEpoch
  | lineCtlEstop (m : Master)
  | lineCtlEstopClr (m : Master)
  | lineBarrierRelease (id : Word)
  | wbEnergySample (samples : List (Int × Nat))
  | wbRtcSecond
  | wbCheckpoint (finished : Bool)
  | wbStandbyCheck
  | wbRtcGo (m : Master)
  | tamperChange (input : Fin 2) (away : Bool)
  | sealPadChange (strapped : Bool)
  | wbTblCommit (m : Master)
  | wbInstall (m : Master)
  | wbInstallVerifyDone (signatureGood : Bool)
  | wbInstallWriteDone (good : Bool)
  | wbInstallCommitDone
  | wbInstallRestartDone
  | wbReqGo (m : Master)
  | wbRecordReady
  | wbSnap (m : Master)
  | wbSnapHoldEnd
  | spiWriteTransaction (bytes : List Byte)
  | spiReadTransaction (bytes : List Byte)
  | spiResponseWrite (m : Master) (w : Word)
  | spiLeave (m : Master)
  | spiIdleTimeout
  | spiBlockEnd
  | scrubRead (f : EccFinder) (off : Fin 0x100000) (found : EccResult)
  | coreRestart (u : Fin 7)
  | configParityFail (addr : Nat)
  | parErrClear (m : Master)
  | vauxRise (cfgsel : BitVec 2)
  | vauxFall
  | bootImageLoaded (goodA : Bool) (goodB : Bool)
  | softwareReset (m : Master) (w : Word)
  | bayCalibrationEnd (u : CarrierId) (zr : List (Nat × Nat)) (refGood : Bool)
  | calibrationPassStart
  | updCalGo (m : Master) (w : Word)
  | updCapture (m : Master) (w : Word)
  | updGo (m : Master) (w : Word)
  | updWriteDone (r : UpdResult)
  | updSwitchGo (m : Master) (w : Word)
  | updBankCopyDone (good : BitVec 7)
  | pwrPrep (m : Master)
  | pwrPrepWithdraw (m : Master)
  | pwrDone
  | linePortUp (port : Fin 2)
  | stepPairRestore (p : Fin 16)
  | perstRelease
  | debugHaltRelease (core : Fin 14)
  | wbSlowClockEdge
  | vbatFall
  | msixVectorUnmask (f : Fin 2) (v : Fin 16)
  deriving DecidableEq, Repr

end Sys2Proof
end

