-- ==== Sys2Proof/Decode.lean ====
section
/-! DEFINITION. The command that a word of spec/opcode_table.json's bits spells. No row of the table gives bits
(the block has no instruction words), so no word spells a command. -/

namespace Sys2Proof

/-- The command that the `nbits` bits `w` spell by the table's bits: none, because no row gives bits. -/
def decodeTableWord (_nbits _w : Nat) : Option Instr := none

end Sys2Proof
end

