-- ==== Sys2Proof/Config.lean ====
section
/-! DEFINITION. What an implementation of the GX-192 fixes, and the values that the spec leaves open: opaque
constants, so that nothing proved of the model rests on a number chosen for them. -/

namespace Sys2Proof.Config

/-- The module's serial number, bits 55:0 (R414, R481: "per device"; bits 63:56 are zero). -/
opaque serial : BitVec 56

/-- The n-th challenge of the service SPI port, a 64-bit random number (R398). -/
opaque challenge : Nat → BitVec 64

/-- The 64-byte signature that the Weighbridge forms over the bytes of a record (R387; its private key is the
device's own). -/
opaque sign : List Byte → List Byte

/-- The public key of the Weighbridge, 8 words (R390: "per device"). -/
opaque publicKey : Nat → Word

/-- The vendor's signature over that key, 64 bytes (R387, R389). -/
opaque vendorSignature : Nat → Byte

/-- A value of 32 bits that the spec does not state, by the number of the draw. -/
opaque freeWord : Nat → Word

end Sys2Proof.Config
end

