-- ==== Sys2Proof/Machine/RegMap.lean ====
section
/-! DEFINITION. The register map of BAR0 (R391, R392): the offsets by name, and one row for every array of registers
that holds bits of its own: its reset value, and which bits a write stores (RW), which are privileged (PRV), which
a read clears (RC) and which a written 1 clears (W1C). A register all of whose fields are computed from the typed
state (RO) has no row: a write to it changes nothing. -/

namespace Sys2Proof.Machine

/-- A register array of the map. -/
structure Reg where
  /-- BAR0 offset of the first. -/
  base : Nat
  /-- Distance and number along the outer index, then along the inner one. -/
  step : Nat := 4
  num : Nat := 1
  step2 : Nat := 4
  num2 : Nat := 1
  /-- The word at reset. -/
  reset : Nat := 0
  /-- The bits that a write stores. -/
  rw : Nat := 0
  /-- The bits of PRV fields (R396). -/
  prv : Nat := 0
  /-- The bits of RC fields (R399). -/
  rc : Nat := 0
  /-- The bits of W1C fields. -/
  w1c : Nat := 0
  /-- A configuration register, which carries parity (R408). -/
  cfg : Bool := false
  deriving DecidableEq, Repr

/-- The bits `hi` down to `lo`. -/
def bits (hi lo : Nat) : Nat := 2 ^ (hi + 1) - 2 ^ lo

/-! ### Offsets by name -/
namespace Adr

abbrev GCTL_SCRATCH : Nat := 0x20
abbrev GCTL_STO : Nat := 0x80
abbrev GCTL_PWR : Nat := 0x108
abbrev GCTL_RESET : Nat := 0x10C
abbrev FRM_CFG : Nat := 0x10000
abbrev FRM_CLK : Nat := 0x10004
abbrev FRM_COUNT_LO : Nat := 0x10010
abbrev FRM_COUNT_HI : Nat := 0x10014
abbrev FRM_BAYOFS (i : Nat) : Nat := 0x10020 + 4 * i
abbrev FRM_ADMIT_CTL : Nat := 0x10040
abbrev FRM_ADMIT_STAT : Nat := 0x10044
abbrev FRM_ADMIT_DEMAND : Nat := 0x10048
abbrev FRM_ADMIT_AVAIL : Nat := 0x1004C
abbrev FRM_ADMIT_LIMIT : Nat := 0x10050
abbrev FRM_ADMIT_SHORT : Nat := 0x10054
abbrev FRM_LOAD (n : Nat) : Nat := 0x10060 + 4 * n
abbrev FRM_WDOG : Nat := 0x100A0
abbrev HIF_CFG : Nat := 0x20000
abbrev HIF_STAT : Nat := 0x20004
abbrev HIF_DBA_LO : Nat := 0x20010
abbrev HIF_RBA_LO : Nat := 0x20018
abbrev HIF_EQ_BASE_LO : Nat := 0x20020
abbrev HIF_EQ_CFG : Nat := 0x20028
abbrev HIF_EQ_STAT : Nat := 0x2002C
abbrev HIF_SQ_BASE_LO (n : Nat) : Nat := 0x20100 + 0x40 * n
abbrev HIF_SQ_CFG (n : Nat) : Nat := 0x20108 + 0x40 * n
abbrev HIF_SQ_STAT (n : Nat) : Nat := 0x2010C + 0x40 * n
abbrev HIF_CQ_BASE_LO (n : Nat) : Nat := 0x20120 + 0x40 * n
abbrev HIF_CQ_CFG (n : Nat) : Nat := 0x20128 + 0x40 * n
abbrev HIF_CQ_STAT (n : Nat) : Nat := 0x2012C + 0x40 * n
abbrev EVT_EN_LO : Nat := 0x30000
abbrev EVT_EN_HI : Nat := 0x30004
abbrev EVT_PEND_LO : Nat := 0x30008
abbrev EVT_PEND_HI : Nat := 0x3000C
abbrev EVT_CNT (n : Nat) : Nat := 0x30100 + 4 * n
abbrev ACC_OPT : Nat := 0x40004
abbrev ACC_SPI_KEY (k : Nat) : Nat := 0x40010 + 4 * k
abbrev ACC_SPI_CHAL_LO : Nat := 0x40020
abbrev ACC_SPI_RESP_LO : Nat := 0x40028
abbrev ACC_SPI_RESP_HI : Nat := 0x4002C
abbrev ACC_SPI_ERR : Nat := 0x40038
abbrev ACC_PAR_STAT : Nat := 0x40040
abbrev ACC_PAR_ADDR : Nat := 0x40044
abbrev ACC_ECC_STAT : Nat := 0x40050
abbrev ACC_ECC_CECNT : Nat := 0x40054
abbrev ACC_ECC_UECNT : Nat := 0x40058
abbrev ACC_ECC_ADDR : Nat := 0x4005C
abbrev ACC_SCRUB_POS : Nat := 0x40060
abbrev ACC_LOCKV_INFO : Nat := 0x40070
abbrev ACC_LOCKV_ADDR : Nat := 0x40074
abbrev ACC_PRVV_INFO : Nat := 0x40080
abbrev ACC_PRVV_ADDR : Nat := 0x40084
abbrev ACC_BADACC : Nat := 0x40090
/-- The window of axis `n` (R391). -/
abbrev AX (n : Nat) : Nat := 0x80000 + 0x400 * n
abbrev AX_POS_INT (n : Nat) : Nat := 0x80008 + 0x400 * n
abbrev AX_IDSHP (n : Nat) : Nat := 0x800C0 + 0x400 * n
abbrev AX_CD_STAT (n : Nat) : Nat := 0x80108 + 0x400 * n
abbrev AX_CD_SATCNT (n : Nat) : Nat := 0x80128 + 0x400 * n
abbrev AX_ID_STAT (n : Nat) : Nat := 0x80130 + 0x400 * n
abbrev AX_ID_R (n : Nat) : Nat := 0x80134 + 0x400 * n
abbrev AX_ID_L (n : Nat) : Nat := 0x80138 + 0x400 * n
abbrev AX_BR_CFG (n : Nat) : Nat := 0x80140 + 0x400 * n
abbrev AX_BR_STAT (n : Nat) : Nat := 0x80148 + 0x400 * n
abbrev AX_BR_PROBE (n : Nat) : Nat := 0x80154 + 0x400 * n
abbrev AX_SG_STAT (n : Nat) : Nat := 0x80188 + 0x400 * n
abbrev AX_SG_STALLCNT (n : Nat) : Nat := 0x801A4 + 0x400 * n
abbrev AX_FB_STAT (n : Nat) : Nat := 0x801E0 + 0x400 * n
abbrev AX_FB_CORRCNT (n : Nat) : Nat := 0x801EC + 0x400 * n
/-- The block of bay `n` (R391). -/
abbrev BAY (n : Nat) : Nat := 0x100000 + 0x1000 * n
abbrev BAY_SMP_CFG (n : Nat) : Nat := 0x100000 + 0x1000 * n
abbrev BAY_SMP_STAT (n : Nat) : Nat := 0x100004 + 0x1000 * n
abbrev BAY_CAL (n c : Nat) : Nat := 0x100040 + 0x1000 * n + 4 * c
abbrev BAY_BR_CFG (n : Nat) : Nat := 0x100100 + 0x1000 * n
abbrev BAY_BR_STAT (n : Nat) : Nat := 0x100104 + 0x1000 * n
abbrev BAY_TRIP_CFG (n : Nat) : Nat := 0x100108 + 0x1000 * n
abbrev BAY_COMMIT (n : Nat) : Nat := 0x10010C + 0x1000 * n
abbrev BAY_TRIP_STICKY (n : Nat) : Nat := 0x100110 + 0x1000 * n
abbrev BAY_LATCH (n : Nat) : Nat := 0x100114 + 0x1000 * n
abbrev BAY_SHORT_SEEN (n : Nat) : Nat := 0x100118 + 0x1000 * n
abbrev BAY_ST_COUNT (n : Nat) : Nat := 0x10011C + 0x1000 * n
abbrev BAY_PROBE_CFG (n : Nat) : Nat := 0x100120 + 0x1000 * n
/-- The direct-mode shadow set of axis `j` of bay `n` (R216): PERIOD, ON01, ON23, CODE from here. -/
abbrev BAY_DS (n j : Nat) : Nat := 0x100200 + 0x1000 * n + 0x20 * j
abbrev BAY_WIN (n c : Nat) : Nat := 0x100300 + 0x1000 * n + 4 * c
abbrev BAY_OV (n : Nat) : Nat := 0x100340 + 0x1000 * n
abbrev BAY_WSIDE (n : Nat) : Nat := 0x100344 + 0x1000 * n
abbrev BAY_WSTAT (n : Nat) : Nat := 0x100348 + 0x1000 * n
/-- The block of heavy axis `h` (R391). -/
abbrev HVY (h : Nat) : Nat := 0x120000 + 0x1000 * h
abbrev HVY_GP_ON (h : Nat) : Nat := 0x120000 + 0x1000 * h
abbrev HVY_GP_OFF (h : Nat) : Nat := 0x120004 + 0x1000 * h
abbrev HVY_DT_CFG (h : Nat) : Nat := 0x120008 + 0x1000 * h
abbrev HVY_DT_BAND (h : Nat) : Nat := 0x12000C + 0x1000 * h
abbrev HVY_DT_FBCNT (h : Nat) : Nat := 0x120014 + 0x1000 * h
abbrev HVY_VDS_CFG (h : Nat) : Nat := 0x120018 + 0x1000 * h
abbrev HVY_BOOT_CFG (h : Nat) : Nat := 0x12001C + 0x1000 * h
abbrev HVY_SENSE (h : Nat) : Nat := 0x120020 + 0x1000 * h
abbrev HVY_HOC (h : Nat) : Nat := 0x120024 + 0x1000 * h
abbrev HVY_GFB_CFG (h : Nat) : Nat := 0x120028 + 0x1000 * h
abbrev HVY_STAT (h : Nat) : Nat := 0x120030 + 0x1000 * h
abbrev HVY_BOOT_RFCNT (h : Nat) : Nat := 0x120034 + 0x1000 * h
abbrev HVY_CAL (h c : Nat) : Nat := 0x120040 + 0x1000 * h + 4 * c
abbrev HVY_GRP_CFG : Nat := 0x120800
abbrev HVY_GRP_STAT : Nat := 0x120804
abbrev HVY_GRP_TRIP : Nat := 0x120808
abbrev HVY_GRP_LATCH : Nat := 0x12080C
abbrev HVY_GRP_ST_COUNT : Nat := 0x120818
/-- The block of feedback channel `c` (R391). -/
abbrev FB (c : Nat) : Nat := 0x140000 + 0x400 * c
abbrev FB_CFG (c : Nat) : Nat := 0x140000 + 0x400 * c
abbrev FB_WCHK (c : Nat) : Nat := 0x140004 + 0x400 * c
abbrev FB_AMPCFG (c : Nat) : Nat := 0x140008 + 0x400 * c
abbrev FB_ACAL (c : Nat) : Nat := 0x14000C + 0x400 * c
abbrev FB_IDX_CFG (c : Nat) : Nat := 0x140010 + 0x400 * c
abbrev FB_IDX_TOL (c : Nat) : Nat := 0x140014 + 0x400 * c
abbrev FB_IDX_PERIOD (c : Nat) : Nat := 0x140018 + 0x400 * c
abbrev FB_IDX_REF_LO (c : Nat) : Nat := 0x14001C + 0x400 * c
abbrev FB_SLMIN_LO (c : Nat) : Nat := 0x140024 + 0x400 * c
abbrev FB_SLMAX_LO (c : Nat) : Nat := 0x14002C + 0x400 * c
abbrev FB_STAT (c : Nat) : Nat := 0x140034 + 0x400 * c
abbrev FB_CTL (c : Nat) : Nat := 0x140038 + 0x400 * c
abbrev FB_COUNT_LO (c : Nat) : Nat := 0x14003C + 0x400 * c
abbrev FB_LATCH_LO (c : Nat) : Nat := 0x140044 + 0x400 * c
abbrev FB_ORG_LO (c : Nat) : Nat := 0x14004C + 0x400 * c
abbrev FB_ILLCNT (c : Nat) : Nat := 0x140058 + 0x400 * c
abbrev FB_IDXCNT (c : Nat) : Nat := 0x14005C + 0x400 * c
abbrev FB_SET_LO (c : Nat) : Nat := 0x140064 + 0x400 * c
abbrev SD_CFG (n : Nat) : Nat := 0x150000 + 0x20 * n
abbrev SD_STAT (n : Nat) : Nat := 0x150004 + 0x20 * n
abbrev SD_LOST (n : Nat) : Nat := 0x15000C + 0x20 * n
abbrev SD_DIRLATE (n : Nat) : Nat := 0x150010 + 0x20 * n
abbrev SD_TRG (m : Nat) : Nat := 0x150400 + 0x20 * m
abbrev SD_GRP (g : Nat) : Nat := 0x150C00 + 0x20 * g
abbrev SD_CAM_STAT : Nat := 0x151000
abbrev SD_FOL_STAT (n : Nat) : Nat := 0x152000 + 0x20 * n
abbrev SD_FOL_DROP (n : Nat) : Nat := 0x152008 + 0x20 * n
/-- The block of probe `q` (R310). -/
abbrev PRB_CFG (q : Nat) : Nat := 0x158000 + 0x80 * q
abbrev PRB_STAT (q : Nat) : Nat := 0x158004 + 0x80 * q
abbrev PRB_TS_FRAME (q : Nat) : Nat := 0x158008 + 0x80 * q
abbrev PRB_TS_CLK (q : Nat) : Nat := 0x15800C + 0x80 * q
abbrev PRB_SEL (q k : Nat) : Nat := 0x158010 + 0x80 * q + 4 * k
abbrev PRB_RES_LO (q s : Nat) : Nat := 0x158020 + 0x80 * q + 8 * s
abbrev PRB_RES_HI (q s : Nat) : Nat := 0x158024 + 0x80 * q + 8 * s
/-- The block of emulation output `e` (R313). -/
abbrev EMU_CFG (e : Nat) : Nat := 0x158800 + 0x40 * e
abbrev EMU_NUM (e : Nat) : Nat := 0x158804 + 0x40 * e
abbrev EMU_DEN (e : Nat) : Nat := 0x158808 + 0x40 * e
abbrev EMU_ZPER (e : Nat) : Nat := 0x15880C + 0x40 * e
abbrev EMU_ZREF (e : Nat) : Nat := 0x158810 + 0x40 * e
abbrev EMU_STAT (e : Nat) : Nat := 0x158814 + 0x40 * e
abbrev EMU_COUNT (e : Nat) : Nat := 0x158818 + 0x40 * e
abbrev EMU_BACKLOG (e : Nat) : Nat := 0x15881C + 0x40 * e
abbrev EMU_DROP (e : Nat) : Nat := 0x158820 + 0x40 * e
abbrev CMP_CFG : Nat := 0x160000
abbrev CMP_STAT : Nat := 0x160004
abbrev CMP_CTL : Nat := 0x160008
abbrev CMP_VM (d : Nat) : Nat := 0x160010 + 4 * d
abbrev CMP_HVOV : Nat := 0x16002C
abbrev CMP_HWIN (c : Nat) : Nat := 0x160040 + 4 * c
abbrev CMP_HWSIDE : Nat := 0x160080
abbrev CMP_RAIL (r : Nat) : Nat := 0x160090 + 4 * r
abbrev CMP_VSTAT : Nat := 0x1600D0
abbrev CMP_VSTICKY : Nat := 0x1600D4
abbrev CMP_RSTAT : Nat := 0x1600D8
abbrev CMP_RSTICKY : Nat := 0x1600DC
abbrev CMP_TEMP : Nat := 0x1600E0
abbrev CMP_BRK (b : Nat) : Nat := 0x160100 + 4 * b
abbrev CMP_BRKSTAT : Nat := 0x160120
abbrev CMP_FAIL (k : Nat) : Nat := 0x160140 + 4 * k
abbrev GRN_CFG : Nat := 0x168000
abbrev GRN_MOD_ALLOW : Nat := 0x168004
abbrev GRN_MOD_BASE : Nat := 0x168008
abbrev GRN_TILE_ALLOW : Nat := 0x16800C
abbrev GRN_HVY_ALLOW : Nat := 0x168010
abbrev GRN_MODEL : Nat := 0x168014
abbrev GRN_DER : Nat := 0x168018
abbrev GRN_HOLDCNT : Nat := 0x168024
abbrev GRN_REFCNT : Nat := 0x168028
abbrev LINE_CFG : Nat := 0x180000
abbrev LINE_CTL : Nat := 0x180004
abbrev LINE_SNAP_BASE_LO : Nat := 0x180020
abbrev LINE_PORT_ERR (p : Nat) : Nat := 0x180040 + 4 * p
abbrev WB_STAT : Nat := 0x1A0008
abbrev WB_CTL : Nat := 0x1A000C
abbrev WB_REQ : Nat := 0x1A0010
abbrev WB_REQ_ARG : Nat := 0x1A0014
abbrev WB_NONCE (n : Nat) : Nat := 0x1A0020 + 4 * n
abbrev WB_RTC_SET_LO : Nat := 0x1A0048
abbrev WB_RTC_SET_HI : Nat := 0x1A004C
abbrev WB_DOM_STAT : Nat := 0x1A0070
abbrev WB_TBL_RS (d : Nat) : Nat := 0x1A0080 + 4 * d
abbrev WB_TBL_MISC : Nat := 0x1A009C
abbrev WB_TBL_COMMIT : Nat := 0x1A00A0
abbrev WB_RECSTAT : Nat := 0x1A0100
abbrev UPD_CTL : Nat := 0x1C0000
abbrev UPD_STAT : Nat := 0x1C0004
abbrev UPD_SRC_LO : Nat := 0x1C0008
abbrev UPD_SRC_HI : Nat := 0x1C000C
abbrev UPD_LEN : Nat := 0x1C0010
abbrev UPD_SWITCH : Nat := 0x1C0030
abbrev UPD_CAL_CFG : Nat := 0x1C0080
/-- The SRAM aperture (R391, R406). -/
abbrev SRAM : Nat := 0x200000
end Adr

/-! ### The rows -/

/-- GCTL_, FRM_ (R414, R241, R441, R42). FRM_ADMIT_CTL, GCTL_PWR and the like hold a self-clearing or
hardware-updated field, so they carry no parity (DEDUCED, R408). -/
def mapFrm : List Reg :=
  [ { base := Adr.GCTL_SCRATCH, rw := bits 31 0, cfg := true },
    { base := Adr.GCTL_STO, reset := 0x6400, rw := bits 23 8, prv := bits 23 8, rc := bits 4 4 },
    { base := Adr.GCTL_PWR, rw := bits 0 0, prv := bits 0 0 },
    { base := Adr.GCTL_RESET, prv := bits 31 16 + bits 0 0 },
    { base := Adr.FRM_CFG, rw := bits 5 3 + bits 1 0, prv := bits 5 3 + bits 1 0 },
    { base := Adr.FRM_CLK, rw := bits 0 0, prv := bits 0 0, rc := bits 3 3 },
    { base := Adr.FRM_BAYOFS 0, num := 3, rw := bits 23 0, prv := bits 23 0, cfg := true },
    { base := Adr.FRM_ADMIT_CTL, reset := 0x800, rw := bits 13 8, prv := bits 13 8 },
    { base := Adr.FRM_ADMIT_STAT, rc := bits 3 3 },
    { base := Adr.FRM_ADMIT_DEMAND, num := 4 },
    { base := Adr.FRM_WDOG, prv := bits 1 1, w1c := bits 0 0 } ]

/-- HIF_ (R81), EVT_ (R414). -/
def mapHif : List Reg :=
  [ { base := Adr.HIF_CFG, reset := 0x30, rw := bits 11 10 + bits 6 4 + bits 0 0, prv := bits 11 10 + bits 6 4 + bits 0 0,
      cfg := true },
    { base := Adr.HIF_STAT, rc := bits 3 2 },
    { base := Adr.HIF_DBA_LO, step := 8, num := 2, rw := bits 31 6, prv := bits 31 6, cfg := true },
    { base := Adr.HIF_DBA_LO + 4, step := 8, num := 2, rw := bits 31 0, prv := bits 31 0, cfg := true },
    { base := Adr.HIF_EQ_BASE_LO, rw := bits 31 6, cfg := true },
    { base := Adr.HIF_EQ_BASE_LO + 4, rw := bits 31 0, cfg := true },
    { base := Adr.HIF_EQ_CFG, reset := 0x1F06, rw := bits 29 8 + bits 4 0, prv := bits 29 29, cfg := true },
    { base := Adr.HIF_EQ_STAT, rc := bits 7 7 },
    { base := Adr.HIF_SQ_BASE_LO 0, step := 0x40, num := 16, step2 := 0x20, num2 := 2, rw := bits 31 6, cfg := true },
    { base := Adr.HIF_SQ_BASE_LO 0 + 4, step := 0x40, num := 16, step2 := 0x20, num2 := 2, rw := bits 31 0, cfg := true },
    { base := Adr.HIF_SQ_CFG 0, step := 0x40, num := 2, reset := 6, rw := bits 29 28 + bits 15 8 + bits 4 0,
      prv := bits 29 29, cfg := true },
    { base := Adr.HIF_SQ_CFG 2, step := 0x40, num := 14, reset := 0x20000006, rw := bits 29 28 + bits 15 8 + bits 4 0,
      prv := bits 29 29, cfg := true },
    { base := Adr.HIF_SQ_STAT 0, step := 0x40, num := 16, rc := bits 7 7 },
    { base := Adr.HIF_CQ_STAT 0, step := 0x40, num := 16, rc := bits 7 7 },
    { base := Adr.EVT_EN_LO, num := 2, reset := 0xFFFFFFFF, rw := bits 31 0, cfg := true },
    { base := Adr.EVT_PEND_LO, num := 2, rc := bits 31 0 },
    { base := Adr.EVT_CNT 0, num := 64, rw := bits 31 0 } ]
  ++ (List.range 16).map fun n =>
    { base := Adr.HIF_CQ_CFG n, reset := 0x1006 + 0x100 * n, rw := bits 28 8 + bits 4 0, cfg := true }

/-- ACC_ (R414). -/
def mapAcc : List Reg :=
  [ { base := Adr.ACC_OPT, reset := 3, prv := bits 1 0 },
    { base := Adr.ACC_SPI_KEY 0, num := 4, prv := bits 31 0 },
    { base := Adr.ACC_SPI_ERR, rw := bits 31 0 },
    { base := Adr.ACC_PAR_STAT, prv := bits 0 0, w1c := bits 0 0 },
    { base := Adr.ACC_PAR_ADDR },
    { base := Adr.ACC_ECC_STAT, rc := bits 2 0 },
    { base := Adr.ACC_ECC_CECNT, num := 2, rw := bits 31 0 },
    { base := Adr.ACC_ECC_ADDR },
    { base := Adr.ACC_SCRUB_POS },
    { base := Adr.ACC_LOCKV_INFO, w1c := bits 31 31 },
    { base := Adr.ACC_LOCKV_ADDR },
    { base := Adr.ACC_PRVV_INFO, w1c := bits 31 31 },
    { base := Adr.ACC_PRVV_ADDR },
    { base := Adr.ACC_BADACC, rw := bits 31 0 } ]

/-- The axis windows (R146, R205, R239, R284, R311). -/
def mapAxis : List Reg :=
  [ { base := Adr.AX_IDSHP 0, step := 0x400, num := 200, rc := bits 31 31 },
    { base := Adr.AX_CD_STAT 0, step := 0x400, num := 200, rc := bits 19 16 },
    { base := Adr.AX_CD_SATCNT 0, step := 0x400, num := 200, rw := bits 31 0 },
    { base := Adr.AX_ID_STAT 0, step := 0x400, num := 200, rc := bits 31 31 },
    { base := Adr.AX_ID_R 0, step := 0x400, num := 200, num2 := 2 },
    { base := Adr.AX_BR_CFG 0, step := 0x400, num := 200, rw := bits 0 0, prv := bits 0 0, cfg := true },
    { base := Adr.AX_BR_STAT 0, step := 0x400, num := 200, rc := bits 18 18 },
    { base := Adr.AX_BR_PROBE 0, step := 0x400, num := 200 },
    { base := Adr.AX_SG_STAT 0, step := 0x400, num := 200, rc := bits 8 8 },
    { base := Adr.AX_SG_STALLCNT 0, step := 0x400, num := 200, rw := bits 31 0 },
    { base := Adr.AX_FB_STAT 0, step := 0x400, num := 200, rc := bits 3 3 },
    { base := Adr.AX_FB_CORRCNT 0, step := 0x400, num := 200, rw := bits 31 0 } ]

/-- The bay blocks (R206, R240, R339). -/
def mapBay : List Reg :=
  [ { base := Adr.BAY_SMP_CFG 0, step := 0x1000, num := 24, reset := 1, rw := bits 0 0, prv := bits 0 0, cfg := true },
    { base := Adr.BAY_SMP_STAT 0, step := 0x1000, num := 24, rc := bits 1 0 },
    { base := Adr.BAY_CAL 0 0, step := 0x1000, num := 24, num2 := 16, reset := 0x80000000,
      rw := bits 31 16 + bits 11 0, prv := bits 31 16 + bits 11 0 },
    { base := Adr.BAY_BR_CFG 0, step := 0x1000, num := 24, reset := 0x280C, rw := bits 16 8 + bits 5 0,
      prv := bits 16 8 + bits 5 0, cfg := true },
    { base := Adr.BAY_BR_STAT 0, step := 0x1000, num := 24, rc := bits 2 0 },
    { base := Adr.BAY_TRIP_CFG 0, step := 0x1000, num := 24, reset := 0x80028, rw := bits 23 0, prv := bits 23 0, cfg := true },
    { base := Adr.BAY_COMMIT 0, step := 0x1000, num := 24, prv := bits 7 0 },
    { base := Adr.BAY_TRIP_STICKY 0, step := 0x1000, num := 24, rc := bits 15 0 },
    { base := Adr.BAY_LATCH 0, step := 0x1000, num := 24, prv := bits 31 0, w1c := bits 31 0 },
    { base := Adr.BAY_SHORT_SEEN 0, step := 0x1000, num := 24, rc := bits 31 0 },
    { base := Adr.BAY_ST_COUNT 0, step := 0x1000, num := 24, rw := bits 31 0 },
    { base := Adr.BAY_PROBE_CFG 0, step := 0x1000, num := 24, reset := 0xFA0, rw := bits 15 0, prv := bits 15 0, cfg := true },
    { base := Adr.BAY_DS 0 0, step := 0x1000, num := 24, step2 := 0x20, num2 := 8, reset := 0x1388, rw := bits 15 0,
      prv := bits 15 0 },
    { base := Adr.BAY_DS 0 0 + 4, step := 0x1000, num := 24, step2 := 0x20, num2 := 8, rw := bits 31 0, prv := bits 31 0 },
    { base := Adr.BAY_DS 0 0 + 8, step := 0x1000, num := 24, step2 := 0x20, num2 := 8, rw := bits 31 0, prv := bits 31 0 },
    { base := Adr.BAY_DS 0 0 + 12, step := 0x1000, num := 24, step2 := 0x20, num2 := 8, rw := bits 7 0, prv := bits 7 0 },
    { base := Adr.BAY_WIN 0 0, step := 0x1000, num := 24, num2 := 16, reset := 0x3C2003E, rw := bits 25 16 + bits 9 0,
      prv := bits 25 16 + bits 9 0, cfg := true },
    { base := Adr.BAY_OV 0, step := 0x1000, num := 24, reset := 0x34C, rw := bits 9 0, prv := bits 9 0, cfg := true },
    { base := Adr.BAY_WSIDE 0, step := 0x1000, num := 24, rc := bits 31 0 },
    { base := Adr.BAY_WSTAT 0, step := 0x1000, num := 24, rc := bits 18 18 } ]

/-- The heavy blocks (R264, R265). -/
def mapHvy : List Reg :=
  [ { base := Adr.HVY_GP_ON 0, step := 0x1000, num := 8, num2 := 2, reset := 0xF14402F,
      rw := bits 27 24 + bits 21 16 + bits 15 12 + bits 9 4 + bits 3 0,
      prv := bits 27 24 + bits 21 16 + bits 15 12 + bits 9 4 + bits 3 0, cfg := true },
    { base := Adr.HVY_DT_CFG 0, step := 0x1000, num := 8, reset := 0x228784,
      rw := bits 28 28 + bits 23 20 + bits 17 0, prv := bits 28 28 + bits 23 20 + bits 17 0, cfg := true },
    { base := Adr.HVY_DT_BAND 0, step := 0x1000, num := 8, reset := 0x64, rw := bits 15 0, prv := bits 15 0, cfg := true },
    { base := Adr.HVY_DT_FBCNT 0, step := 0x1000, num := 8, rw := bits 31 0 },
    { base := Adr.HVY_VDS_CFG 0, step := 0x1000, num := 8, reset := 0x23C07, rw := bits 17 8 + bits 3 0,
      prv := bits 17 8 + bits 3 0, cfg := true },
    { base := Adr.HVY_BOOT_CFG 0, step := 0x1000, num := 8, reset := 6, rw := bits 3 0, prv := bits 3 0, cfg := true },
    { base := Adr.HVY_SENSE 0, step := 0x1000, num := 8, reset := 0x81388, rw := bits 19 18 + bits 16 0,
      prv := bits 19 18 + bits 16 0, cfg := true },
    { base := Adr.HVY_HOC 0, step := 0x1000, num := 8, reset := 0x76C, rw := bits 10 0, prv := bits 10 0, cfg := true },
    { base := Adr.HVY_GFB_CFG 0, step := 0x1000, num := 8, reset := 0x14, rw := bits 5 0, prv := bits 5 0, cfg := true },
    { base := Adr.HVY_STAT 0, step := 0x1000, num := 8, rc := bits 4 0 },
    { base := Adr.HVY_BOOT_RFCNT 0, step := 0x1000, num := 8, rw := bits 31 0 },
    { base := Adr.HVY_CAL 0 0, step := 0x1000, num := 8, num2 := 2, reset := 0x80000000,
      rw := bits 31 16 + bits 11 0, prv := bits 31 16 + bits 11 0 },
    { base := Adr.HVY_GRP_CFG, reset := 0x22800, rw := bits 17 8, prv := bits 17 8, cfg := true },
    { base := Adr.HVY_GRP_STAT, rc := bits 2 1 },
    { base := Adr.HVY_GRP_TRIP, reset := 0x80028, rw := bits 23 0, prv := bits 23 0, cfg := true },
    { base := Adr.HVY_GRP_LATCH, prv := bits 31 0, w1c := bits 31 0 },
    { base := Adr.HVY_GRP_ST_COUNT, rw := bits 31 0 } ]

/-- FBc_, SDn_, SD_, PRBq_, EMUe_ (R310, R170, R312, R313). -/
def mapFb : List Reg :=
  [ { base := Adr.FB_CFG 0, step := 0x400, num := 24, reset := 0x28, rw := bits 7 0, prv := bits 7 0, cfg := true },
    { base := Adr.FB_WCHK 0, step := 0x400, num := 24, reset := 0x40A, rw := bits 10 8 + bits 4 0,
      prv := bits 10 8 + bits 4 0, cfg := true },
    { base := Adr.FB_AMPCFG 0, step := 0x400, num := 24, reset := 0x6D60271, rw := bits 27 16 + bits 11 0,
      prv := bits 27 16 + bits 11 0, cfg := true },
    { base := Adr.FB_ACAL 0, step := 0x400, num := 24, reset := 0x8000000, rw := bits 27 16 + bits 15 0,
      prv := bits 27 16 + bits 15 0, cfg := true },
    { base := Adr.FB_IDX_CFG 0, step := 0x400, num := 24, reset := 0x40, rw := bits 6 0, prv := bits 6 0, cfg := true },
    { base := Adr.FB_IDX_TOL 0, step := 0x400, num := 24, reset := 0x10, rw := bits 15 0, prv := bits 15 0, cfg := true },
    { base := Adr.FB_IDX_PERIOD 0, step := 0x400, num := 24, rw := bits 31 0, prv := bits 31 0, cfg := true },
    { base := Adr.FB_IDX_REF_LO 0, step := 0x400, num := 24, rw := bits 31 0, prv := bits 31 0, cfg := true },
    { base := Adr.FB_IDX_REF_LO 0 + 4, step := 0x400, num := 24, rw := bits 15 0, prv := bits 15 0, cfg := true },
    { base := Adr.FB_SLMIN_LO 0, step := 0x400, num := 24, rw := bits 31 0, prv := bits 31 0, cfg := true },
    { base := Adr.FB_SLMIN_LO 0 + 4, step := 0x400, num := 24, reset := 0x8000, rw := bits 15 0, prv := bits 15 0, cfg := true },
    { base := Adr.FB_SLMAX_LO 0, step := 0x400, num := 24, reset := 0xFFFFFFFF, rw := bits 31 0, prv := bits 31 0, cfg := true },
    { base := Adr.FB_SLMAX_LO 0 + 4, step := 0x400, num := 24, reset := 0x7FFF, rw := bits 15 0, prv := bits 15 0, cfg := true },
    { base := Adr.FB_STAT 0, step := 0x400, num := 24, rc := bits 11 8, w1c := bits 4 3 },
    { base := Adr.FB_CTL 0, step := 0x400, num := 24, prv := bits 1 0 },
    { base := Adr.FB_ILLCNT 0, step := 0x400, num := 24, num2 := 2, rw := bits 31 0 },
    { base := Adr.FB_SET_LO 0, step := 0x400, num := 24, rw := bits 31 0, prv := bits 31 0, cfg := true },
    { base := Adr.FB_SET_LO 0 + 4, step := 0x400, num := 24, rw := bits 15 0, prv := bits 15 0, cfg := true },
    { base := Adr.SD_CFG 0, step := 0x20, num := 16, reset := 0x5400, rw := bits 15 8 + bits 3 0,
      prv := bits 15 8 + bits 3 0, cfg := true },
    { base := Adr.SD_STAT 0, step := 0x20, num := 16, rc := bits 1 1 },
    { base := Adr.SD_LOST 0, step := 0x20, num := 16, num2 := 2, rw := bits 31 0 },
    { base := Adr.SD_FOL_STAT 0, step := 0x20, num := 200, rc := bits 17 16 },
    { base := Adr.SD_FOL_DROP 0, step := 0x20, num := 200, rw := bits 31 0 },
    { base := Adr.PRB_CFG 0, step := 0x80, num := 16, rw := bits 23 16 + bits 6 2 + bits 0 0,
      prv := bits 23 16 + bits 6 6 },
    { base := Adr.PRB_STAT 0, step := 0x80, num := 16, rc := bits 31 31 + bits 2 2 },
    { base := Adr.PRB_TS_FRAME 0, step := 0x80, num := 16, num2 := 2 },
    { base := Adr.PRB_SEL 0 0, step := 0x80, num := 16, num2 := 4,
      rw := bits 31 31 + bits 24 15 + bits 8 0, cfg := true },
    { base := Adr.PRB_RES_LO 0 0, step := 0x80, num := 16, num2 := 16 },
    { base := Adr.EMU_CFG 0, step := 0x40, num := 4, reset := 0xA0000, rw := bits 23 8 + bits 4 4 + bits 1 0,
      prv := bits 23 8 + bits 4 4 + bits 1 0, cfg := true },
    { base := Adr.EMU_NUM 0, step := 0x40, num := 4, reset := 1, rw := bits 31 0, prv := bits 31 0, cfg := true },
    { base := Adr.EMU_DEN 0, step := 0x40, num := 4, reset := 1, rw := bits 30 0, prv := bits 30 0, cfg := true },
    { base := Adr.EMU_ZPER 0, step := 0x40, num := 4, num2 := 2, rw := bits 31 0, prv := bits 31 0, cfg := true },
    { base := Adr.EMU_STAT 0, step := 0x40, num := 4, rc := bits 2 1 },
    { base := Adr.EMU_DROP 0, step := 0x40, num := 4, rw := bits 31 0 } ]

/-- A window word of HI in [25:16] and LO in [9:0]. -/
def winWord (lo hi : Nat) : Nat := hi * 65536 + lo

/-- CMP_, GRN_ (R338, R340), with the rails' windows of R327. -/
def mapCmp : List Reg :=
  [ { base := Adr.CMP_CFG, reset := 0x3C0482, rw := bits 27 16 + bits 11 0, prv := bits 27 16 + bits 11 0, cfg := true },
    { base := Adr.CMP_STAT, rc := bits 30 30 },
    { base := Adr.CMP_CTL, prv := bits 0 0 },
    { base := Adr.CMP_VM 0, num := 6, reset := 0x37B008D, rw := bits 25 16 + bits 9 0, prv := bits 25 16 + bits 9 0, cfg := true },
    { base := Adr.CMP_VM 6, reset := 0x2EE0047, rw := bits 25 16 + bits 9 0, prv := bits 25 16 + bits 9 0, cfg := true },
    { base := Adr.CMP_HVOV, reset := 0x2C0, rw := bits 9 0, prv := bits 9 0, cfg := true },
    { base := Adr.CMP_HWIN 0, num := 16, reset := 0x3C00040, rw := bits 25 16 + bits 9 0, prv := bits 25 16 + bits 9 0, cfg := true },
    { base := Adr.CMP_HWSIDE, rc := bits 31 0 },
    { base := Adr.CMP_VSTICKY, rc := bits 16 16 + bits 14 8 + bits 6 0 },
    { base := Adr.CMP_RSTICKY, rc := bits 28 16 + bits 12 0 },
    { base := Adr.CMP_TEMP, reset := 0x6E8C73, rw := bits 23 0, prv := bits 23 0, cfg := true },
    { base := Adr.CMP_BRK 0, num := 7, reset := 0x84001000, rw := bits 31 31 + bits 27 0, prv := bits 31 31 + bits 27 0, cfg := true },
    { base := Adr.CMP_BRKSTAT, rc := bits 22 16 },
    { base := Adr.GRN_CFG, reset := 0xC080, rw := bits 22 16 + bits 15 0, prv := bits 22 16 + bits 15 0, cfg := true },
    { base := Adr.GRN_MOD_ALLOW, reset := 0xEA60, rw := bits 16 0, prv := bits 16 0, cfg := true },
    { base := Adr.GRN_MOD_BASE, reset := 0x1B58, rw := bits 15 0, prv := bits 15 0, cfg := true },
    { base := Adr.GRN_TILE_ALLOW, reset := 0x2EE0, rw := bits 15 0, prv := bits 15 0, cfg := true },
    { base := Adr.GRN_HVY_ALLOW, reset := 0x4E20, rw := bits 15 0, prv := bits 15 0, cfg := true },
    { base := Adr.GRN_MODEL, reset := 0x2800F1, rw := bits 31 0, prv := bits 31 0, cfg := true },
    { base := Adr.GRN_DER, reset := 0x40008264, rw := bits 31 24 + bits 15 0, prv := bits 31 24 + bits 15 0, cfg := true },
    { base := Adr.GRN_HOLDCNT, num := 2, rw := bits 31 0 } ]
  ++ [(0, 275, 800), (1, 425, 475), (2, 425, 475), (3, 392, 433), (4, 594, 656), (5, 500, 700), (6, 500, 700), (7, 500, 700),
      (8, 500, 700), (9, 500, 700), (10, 500, 700), (11, 650, 850), (12, 650, 850)].map fun (r, lo, hi) =>
    { base := Adr.CMP_RAIL r, reset := winWord lo hi, rw := bits 25 16 + bits 9 0, prv := bits 25 16 + bits 9 0, cfg := true }

/-- LINE_, WB_, UPD_ (R365, R390, R444). A WB_ register carries no parity of this kind (R408). -/
def mapLine : List Reg :=
  [ { base := Adr.LINE_CFG, reset := 0x2000, rw := bits 13 12 + bits 8 8 + bits 6 4 + bits 0 0,
      prv := bits 13 12 + bits 8 8 + bits 6 4 + bits 0 0, cfg := true },
    { base := Adr.LINE_CTL, prv := bits 0 0 },
    { base := Adr.LINE_SNAP_BASE_LO, rw := bits 31 6, prv := bits 31 6, cfg := true },
    { base := Adr.LINE_SNAP_BASE_LO + 4, rw := bits 31 0, prv := bits 31 0, cfg := true },
    { base := Adr.LINE_PORT_ERR 0, num := 2, rw := bits 31 0 },
    { base := Adr.WB_STAT, rc := bits 15 13 + bits 11 10 },
    { base := Adr.WB_CTL, prv := bits 3 2 },
    { base := Adr.WB_REQ, rw := bits 2 0 },
    { base := Adr.WB_REQ_ARG, rw := bits 31 0 },
    { base := Adr.WB_NONCE 0, num := 4, rw := bits 31 0 },
    { base := Adr.WB_RTC_SET_LO, num := 2, rw := bits 31 0, prv := bits 31 0 },
    { base := Adr.WB_DOM_STAT, rc := bits 22 16 },
    { base := Adr.WB_TBL_RS 0, num := 7, reset := 0x1388, rw := bits 16 0, prv := bits 16 0 },
    { base := Adr.WB_TBL_MISC, reset := 0x30100, rw := bits 19 0, prv := bits 19 0 },
    { base := Adr.WB_TBL_COMMIT, prv := bits 0 0 },
    { base := Adr.WB_RECSTAT, rc := bits 31 31 },
    { base := Adr.UPD_CTL, rw := bits 13 12 + bits 10 8, prv := bits 13 12 + bits 10 8 + bits 1 0 },
    { base := Adr.UPD_STAT, rc := bits 17 17 },
    { base := Adr.UPD_SRC_LO, rw := bits 31 6, prv := bits 31 6, cfg := true },
    { base := Adr.UPD_SRC_HI, rw := bits 31 0, prv := bits 31 0, cfg := true },
    { base := Adr.UPD_LEN, rw := bits 21 0, prv := bits 21 0, cfg := true },
    { base := Adr.UPD_SWITCH, reset := 0x7F, rw := bits 6 0, prv := bits 31 31 + bits 6 0 },
    { base := Adr.UPD_CAL_CFG, reset := 0x12C, rw := bits 15 0, prv := bits 31 31 + bits 15 0 } ]

/-- The map (R391). -/
def regMap : List Reg :=
  mapFrm ++ (mapHif ++ (mapAcc ++ (mapAxis ++ (mapBay ++ (mapHvy ++ (mapFb ++ (mapCmp ++ mapLine)))))))

/-- Does row `r` hold the register at `a`? -/
def rowHas (r : Reg) (a : Nat) : Bool :=
  decide (r.base ≤ a) &&
    (let o := a - r.base
     let i := if r.num = 1 then 0 else o / r.step
     let j := o - i * r.step
     decide (i < r.num) && decide (j / r.step2 < r.num2) && decide (j % r.step2 = 0))

/-- The row of the register at `a`, if it holds bits of its own. -/
def rowOf (a : Nat) : Option Reg := regMap.find? fun r => rowHas r a

/-- The stored word of the register at `a` at reset. -/
def resetWord (a : Nat) : Word :=
  match rowOf a with
  | some r => BitVec.ofNat 32 r.reset
  | none => 0

/-- Is the register at `a` a configuration register (R408)? -/
def isCfg (a : Nat) : Bool :=
  match rowOf a with
  | some r => r.cfg
  | none => false

/-- Is the register at `a` a WL word (R402, R414)? -/
def isWl (a : Nat) : Bool := a == Adr.ACC_OPT || (decide (Adr.ACC_SPI_KEY 0 ≤ a) && decide (a < 0x40020))

end Sys2Proof.Machine
end

