-- ==== Sys2Proof/Machine/State.lean ====
section
/-! DEFINITION. The state of one GX-192 module as plain data, its stops, and the state after reset. Each field's
docstring names the rule of spec/ that gives it and its reset value; the software-visible storage of registers
that no typed field holds lies in the sparse register file `regs`. Positions are in 2^-16 microstep, velocities in
2^-16 microstep per frame, accelerations and jerks in 2^-48 (R109); amplitudes and currents in 1/64 mA and
voltages in uV (R180). -/

namespace Sys2Proof.Machine

/-- The faults a command can end in. -/
inductive Fault
  /-- Raised by REGISTER_WRITE, WL_WORD_WRITE and the three commands of reads (CAPTURE_READ, RC_FIELD_READ, RESULT_REGISTER_READ) at an
  offset outside BAR0 and outside the BAR2 of the master's function (WL_WORD_WRITE: outside BAR0), or off a word (R44, R391, R393), and
  by SRAM_APERTURE_READ at an offset of 1 MiB or more (R405, R406). Safe: the block has no such register and no such word. -/
  | outsideBlock
  deriving DecidableEq, Repr

/-- The refusals a command can end in. -/
inductive Refusal
  /-- Raised by exec's arm for a command that has no meaning yet. Safe: the machine stops. -/
  | notModelled (mnemonic : String)
  deriving DecidableEq, Repr

/-! ### Axis parameters -/

/-- One Timetable parameter set of an axis (R127), in the per-second units of its table. -/
structure TtSet where
  /-- SPEED, microsteps/s (R127); reset 102,400. -/
  speed : Nat
  /-- ACC, microsteps/s² (R127); reset 1,024,000. -/
  acc : Nat
  /-- DEC (R127); reset 1,024,000. -/
  dec : Nat
  /-- JACC, microsteps/s³, 40 bits (R127); reset 102,400,000. -/
  jacc : Nat
  /-- JDEC (R127); reset 102,400,000. -/
  jdec : Nat
  /-- STOP_DEC (R127); reset 1,024,000. -/
  stopDec : Nat
  /-- QS_DEC (R127); reset 10,240,000. -/
  qsDec : Nat
  /-- LIM_LO, microsteps (R127); reset −2^31. -/
  limLo : Int
  /-- LIM_HI (R127); reset 2^31 − 1. -/
  limHi : Int
  /-- VMAX (R110, R127); reset the class ceiling. -/
  vmax : Nat
  /-- POLICY: 0 NEXT_MOVE, 1 NOW (R127); reset 0. -/
  policy : Nat
  /-- PROFILE: 0 trapezoidal, 1 S-curve (R127); reset 0. -/
  profile : Nat
  /-- SHP_FORM (R127, R140); reset 0. -/
  shpForm : Nat
  /-- SHP_FREQ, 0.1 Hz (R127); reset 1,000. -/
  shpFreq : Nat
  /-- SHP_DAMP, 0.001 (R127); reset 0. -/
  shpDamp : Nat
  /-- CAP, the capability set (R106); reset 0. -/
  cap : Nat
  deriving DecidableEq, Repr

/-- One coil parameter set of an axis (R203). -/
structure CoilSet where
  /-- CARD (R203); reset 0. -/
  card : Nat
  /-- ITRIM, 1/256 (R203); reset 256. -/
  itrim : Nat
  /-- PD_EN (R203); reset 1. -/
  pdEn : Nat
  /-- IDMODE (R203); reset 0. -/
  idMode : Nat
  deriving DecidableEq, Repr

/-- One stall parameter set of an axis (R282). -/
structure SgSet where
  /-- SG_MODE (R282); reset 1. -/
  mode : Nat
  /-- SG_RSEL (R282); reset 0. -/
  rsel : Nat
  deriving DecidableEq, Repr

/-- One feedback parameter set of an axis (R298). -/
structure FbSet where
  /-- FB_CHAN, 255 for none (R298); reset 255. -/
  chan : Nat
  /-- FB_CORR (R298); reset 0. -/
  corr : Nat
  /-- FB_NUM (R298); reset 1. -/
  num : Int
  /-- FB_DEN (R298); reset 1. -/
  den : Nat
  /-- FB_TOL (R298); reset 640. -/
  tol : Nat
  /-- FB_NC (R298); reset 4. -/
  nc : Nat
  deriving DecidableEq, Repr

/-- One half, active or staged, of a motor card (R199, R200, R281). -/
structure CardHalf where
  /-- CLASS: 0 light, 1 heavy (R200); reset 0. -/
  cls : Nat
  /-- RES25, mΩ (R200); reset 0. -/
  res25 : Nat
  /-- L, µH (R200); reset 0. -/
  ind : Nat
  /-- KE, mV per 1,000 full steps/s (R200); reset 0. -/
  ke : Nat
  /-- TCR, ppm/K (R200); reset 3,930. -/
  tcr : Nat
  /-- IRUN, mA rms (R200); reset 0. -/
  irun : Nat
  /-- HFRAC, 1/256 (R200); reset 128. -/
  hfrac : Nat
  /-- PDDELAY, ms (R200); reset 500. -/
  pddelay : Nat
  /-- PDRAMP, ms (R200); reset 100. -/
  pdramp : Nat
  /-- ERAMP, ms (R200); reset 1. -/
  eramp : Nat
  /-- FC_I, Hz (R200); reset 500. -/
  fcI : Nat
  /-- XMAX, mV (R200); reset 5,000. -/
  xmax : Nat
  /-- DTC_BAND, mA (R200); reset 20. -/
  dtcBand : Nat
  /-- FF_MODE (R200); reset 1. -/
  ffMode : Nat
  /-- FF_DELTA (R200); reset 0. -/
  ffDelta : Nat
  /-- IDFRAC, 1/256 (R200); reset 128. -/
  idfrac : Nat
  /-- RTOL, % (R200); reset 20. -/
  rtol : Nat
  /-- LTOL, % (R200); reset 30. -/
  ltol : Nat
  /-- TW_MAX, °C (R200); reset 120. -/
  twMax : Nat
  /-- ID_STILL, s (R200); reset 10. -/
  idStill : Nat
  /-- SHP_FORM default (R200); reset 0. -/
  shpForm : Nat
  /-- SHP_FREQ default (R200); reset 1,000. -/
  shpFreq : Nat
  /-- SHP_DAMP default (R200); reset 0. -/
  shpDamp : Nat
  /-- SG_VEMF (R281); reset 20. -/
  sgVemf : Nat
  /-- SG_VRIP (R281); reset 2. -/
  sgVrip : Nat
  /-- SG_ANGLE, 0.1° (R281); reset 800. -/
  sgAngle : Nat
  /-- SG_N (R281); reset 8. -/
  sgN : Nat
  /-- SG_NR (R281); reset 32. -/
  sgNr : Nat
  /-- SG_WARN (R281); reset 600. -/
  sgWarn : Nat
  /-- SG_COLLAPSE (R281); reset 64. -/
  sgCollapse : Nat
  /-- SG_NC (R281); reset 16. -/
  sgNc : Nat
  /-- SG_EMIN, mV (R281); reset 400. -/
  sgEmin : Nat
  /-- SG_DETACH (R281); reset 16. -/
  sgDetach : Nat
  /-- SG_ND (R281); reset 256. -/
  sgNd : Nat
  /-- SG_FILT (R281); reset 3. -/
  sgFilt : Nat
  /-- SG_KSAL, 0.1 % (R281); reset 60. -/
  sgKsal : Nat
  /-- SG_REACT (R281); reset 1. -/
  sgReact : Nat
  /-- The quarter-wave table where it differs from the reset table: pairs (m, Q[m]) with m rising
  (R172, R201); reset none. -/
  table : List (Nat × Nat)
  deriving DecidableEq, Repr

/-- A motor card: its active and its staged half (R199); reset both at the reset values. -/
structure Card where
  act : CardHalf
  stg : CardHalf
  deriving DecidableEq, Repr

/-! ### Axis state -/

/-- The modes of an axis (R105). -/
inductive Mode
  | parked | hold | position | velocity | step | cam | disabled
  deriving DecidableEq, Repr

/-- A reference state: position, velocity and acceleration (R112). -/
structure RefPt where
  p : Int
  v : Int
  a : Int
  deriving DecidableEq, Repr

/-- Limits in the internal forms of R109. -/
structure Limits where
  v : Nat
  a : Nat
  d : Nat
  ja : Nat
  jd : Nat
  deriving DecidableEq, Repr

/-- What an axis in POSITION or VELOCITY mode, or one that brakes, is planned toward (R113). -/
inductive Goal
  /-- At rest where it stands. -/
  | rest
  /-- The commanded target, at rest (R120). -/
  | target
  /-- A signed velocity (R125). -/
  | velocity (v : Int)
  /-- The fastest stop (R118, R119) at the deceleration of `lim.d`, to rest at the whole microstep `s`; `park` where the
  axis then parks (STOP kind 1, PARK). -/
  | stop (s : Int) (park : Bool)
  deriving DecidableEq, Repr

/-- What runs on an axis, for completion and for the NOW policy (R65, R132). -/
inductive Running
  | none
  /-- MOVE_ABS or MOVE_REL. -/
  | move (d : Nat)
  /-- MOVE_VEL: the descriptor while it has not completed, its speed operand and direction (R132). -/
  | vel (d : Option Nat) (speed : Nat) (neg : Bool)
  /-- STOP or PARK with its kind: 0 hold, 1 park, 2 quick (R67). -/
  | stop (d : Option Nat) (kind : Nat)
  /-- A member of GROUP_MOVE `d`. -/
  | group (d : Nat)
  /-- The test move of IDENTIFY kind 2 (R144). -/
  | ident (d : Nat)
  deriving DecidableEq, Repr

/-- The FAULTED condition (R103): the event and the frame of the fault. -/
structure FaultInfo where
  event : Nat
  frame : FrameNo
  deriving DecidableEq, Repr

/-- The observation of IDENTIFY kind 2 (R144, R280): the frame of the unshaped arrival, where reached, and the capture buffer. -/
structure RingDown where
  desc : Nat
  arrived : Option FrameNo
  /-- The rotor's deviation, 2^-16 of 0.1° electrical. -/
  dev : Int
  /-- The deviations of the run in progress: their sum, and their number. -/
  sum : Int
  n : Nat
  /-- The means of the runs that are complete, oldest first. -/
  ys : List Int
  deriving DecidableEq, Repr

/-- The Timetable's state of an axis (R105, R112). -/
structure TtState where
  /-- AXn_STAT.MODE (R105); reset DISABLED. -/
  mode : Mode
  /-- The mode that the next tick brings (R107); reset none. -/
  modeNext : Option Mode
  /-- AXn_STAT.FAULTED (R103, R104); reset none. -/
  faulted : Option FaultInfo
  /-- The unshaped reference for frame k + 1 (R112); reset all 0. -/
  uNext : RefPt
  /-- The unshaped reference for frame k; reset all 0. -/
  u0 : RefPt
  /-- The shaped reference for frame k + 1 (R112); reset all 0. -/
  oNext : RefPt
  /-- The shaped reference for frame k; reset all 0. -/
  o0 : RefPt
  /-- The shaped reference for frame k − 1; reset all 0. -/
  o1 : RefPt
  /-- The shaped reference for frame k − 2; reset all 0. -/
  o2 : RefPt
  /-- The shaper history (R140, R143): the unshaped references of frames k − 1, k − 2, …, newest first, back to where
  the older ones all equal `fill`; reset none. -/
  hist : List RefPt
  /-- The unshaped reference of every frame older than `hist` (R143); reset at 0. -/
  fill : RefPt
  /-- AXn_TARGET, the commanded target in microsteps (R123, R134); reset 0. -/
  target : Int
  /-- The goal of R113; reset at rest. -/
  goal : Goal
  /-- The limits in force on the running motion (R113, R131); reset all 0. -/
  lim : Limits
  /-- The running descriptor's own limits, which VMAX has not lowered (R131) and R137 has not raised; reset all 0. -/
  own : Limits
  /-- What runs; reset none. -/
  running : Running
  /-- The ring of the descriptor that set the running motion going, still after that descriptor has completed (R47); reset none. -/
  runRing : Option RingId
  /-- The braking leg of a reversal, with its reversal point, until the return leg is planned (R120); reset none. -/
  reversal : Option Int
  /-- AXn_STAT.REVERSAL: the braking leg as it stood at the last tick (R120, R146); reset false. -/
  reversing : Bool
  /-- 1: the running move passes unshaped (R143, operand 40); reset false. -/
  bypass : Bool
  /-- PROFILE in force on the motion (R130); reset 0. -/
  profile : Nat
  /-- The shaper in force: form, frequency, damping (R130, R140); reset 0, 1,000, 0. -/
  shaper : Nat × Nat × Nat
  /-- The frame in which the running motion took effect (R73); reset 0. -/
  effFrame : FrameNo
  /-- IDENTIFY kind 2's observation (R144); reset none. -/
  ring : Option RingDown
  /-- 1: the link was lost under LINKLOSS 1 while an ENERGIZE or IDENTIFY ran, after which the axis parks (R48); reset false. -/
  parkDue : Bool
  /-- The frames in which a POS_SET took or takes effect, while the tick after such a frame is to come: position triggers skip the
  comparison of that tick (R148); reset none. -/
  posSetAt : List FrameNo
  /-- The shaped position that the position triggers compared last (R148, R302); reset 0. -/
  seen : Int
  deriving DecidableEq, Repr

/-- What a following axis follows (R160). -/
inductive FollowKind
  | step | cam
  deriving DecidableEq, Repr

/-- The follower of an axis in STEP or CAM mode (R160, R161, R165). -/
structure FollowSt where
  kind : FollowKind
  /-- The descriptor, and the ring whose owner's requester ID the cam reads carry (R167). -/
  desc : Nat
  ring : RingId
  /-- The frame of effect j (R160). -/
  eff : FrameNo
  /-- b, the unshaped position at tick j (R160). -/
  base : Int
  /-- x.off (R161). -/
  off : Int
  /-- The clamp operand, microsteps/s, 0 for VMAX (R162). -/
  clamp : Nat
  /-- The input pair, or the master index (R162, R165). -/
  idx : Nat
  /-- The cam master kind (R165). -/
  mkind : Nat
  /-- N_0, or the master's baseline (R160, R165). -/
  base0 : Int
  /-- σ × MPP × RATIO in 2^-16 microstep per count (R162). -/
  gain : Int
  /-- The cam table: address and point count (R164). -/
  addr : Nat
  count : Nat
  /-- Points per master unit, 16.16 (R165). -/
  scale : Nat
  /-- The first point (R165). -/
  first : Nat
  cyclic : Bool
  /-- φ in 2^-16 point (R165). -/
  phase : Int
  /-- The master value before, for the direction of the window (R167). -/
  lastM : Int
  /-- 1: the master last moved forward (R167). -/
  fwd : Bool
  /-- The prefetch store: lines by number with their 16 points (R167). -/
  lines : List (Nat × List Int)
  /-- The lines that came since the last tick, which are in the store from the next one on (R167). -/
  late : List (Nat × List Int)
  /-- The lines whose reads are outstanding, at most 8 (R167). -/
  asked : List Nat
  /-- P[first], P[0] and P[count − 1] once seen (R165, R166). -/
  pFirst : Option Int
  pLow : Option Int
  pHigh : Option Int
  /-- Consecutive frames without points (R168). -/
  missed : Nat
  /-- u of the last frame, for the extrapolation of R168. -/
  lastU : Int
  /-- e, the backlog (R161). -/
  backlog : Int
  /-- 1: the end of a non-cyclic table is reached, so that the axis enters HOLD at the tick after next (R166). -/
  ended : Bool
  deriving DecidableEq, Repr

/-- The amplitude phases (R173). -/
inductive Phase
  | off | energising | identR | identL | run | pdWait | pdRamp | holdLow
  deriving DecidableEq, Repr

/-- An ENERGIZE or IDENTIFY sequence in progress (R182, R183, R190). -/
structure SeqSt where
  /-- The descriptor. -/
  desc : Nat
  /-- 1: IDENT runs. -/
  ident : Bool
  /-- 1: resistance only (IDENTIFY kind 1). -/
  rOnly : Bool
  /-- 1: an IDENTIFY; 0: an ENERGIZE. -/
  identify : Bool
  /-- 1: started from HOLD (R183, R190). -/
  fromHold : Bool
  /-- 1: the final ramp runs (step 4, or step 1 without IDENT). -/
  final : Bool
  /-- The frame in which the step in progress began. -/
  start : FrameNo
  /-- GR as it was when the ramp to RUN began, 1/256 (R173). -/
  gr : Nat
  /-- 1: the bootstraps have not released yet (R254). -/
  boot : Bool
  /-- θ of the current: the angle of R187 in 2^-16 microstep while IDENT runs. -/
  theta : Int
  deriving DecidableEq, Repr

/-- The coil drive's state of one coil (R174–R178, R187, R188, R266). -/
structure Coil where
  /-- R̂, mΩ (R175); reset 0. -/
  rhat : Nat
  /-- L̂, µH (R175); reset 0. -/
  lhat : Nat
  /-- x.int, µV (R178); reset 0. -/
  integ : Int
  /-- x.iexp of the frame whose duty was last computed, and of the frame before (R174); reset 0. -/
  iexp : Int
  iexp1 : Int
  /-- The last valley sample, the one before, and the last peak sample, 1/64 mA (R193); reset 0. -/
  iv : Int
  iv1 : Int
  ipk : Int
  /-- 1: the last valley or peak sample was substituted or saturated (R196, R197); reset false. -/
  badV : Bool
  badV1 : Bool
  badP : Bool
  /-- The duty last computed, and the duty in force (R174); reset 0. -/
  dNext : Int
  d0 : Int
  /-- 1: the duty last computed was clamped (R174); reset false. -/
  clampNext : Bool
  /-- The dead-time and back-EMF terms and the voltage of the duty computed, and of the one in force, µV; reset 0. -/
  dtcN : Int
  dtc0 : Int
  effN : Int
  eff0 : Int
  vN : Int
  v0 : Int
  /-- IDENT's sums: Σ(v − dtc), Σi over the frames kept, Σ L_k and their number (R187, R188, R191); reset 0. -/
  sumV : Int
  sumI : Int
  sumL : Int
  cntL : Nat
  /-- R_meas, mΩ, and L_meas, µH, of the last measurement, where formed (R480); reset none. -/
  rMeas : Option Nat
  lMeas : Option Nat
  /-- Qualifying frames of near-zero current in a row (R235); reset 0. -/
  openCnt : Nat
  deriving DecidableEq, Repr

/-- The coil drive's state of an axis (R173, R205). -/
structure CdState where
  /-- AXn_CD_STAT.PHASE (R173); reset OFF. -/
  phase : Phase
  /-- The phase that the next tick brings; reset none. -/
  phaseNext : Option Phase
  /-- The phase of the frame before (R267); reset OFF. -/
  phase1 : Phase
  /-- The amplitude of the frame in progress and of the one before, 1/64 mA (R173, R174); reset 0. -/
  amp0 : Int
  amp1 : Int
  /-- What POS_SET leaves between position and electrical angle, so that it does not move the motor (R130), for the
  reference of frame k + 1, of frame k and of frame k − 1, in 2^-16 microstep; reset 0. -/
  angNext : Int
  ang0 : Int
  ang1 : Int
  /-- θm and out[m].p − out[m − 1].p, in 2^-16 microstep, of the frame whose duty was last computed, and of the frame whose duty is
  in force (R174, R266); reset 0. -/
  thN : Int
  th0 : Int
  dpN : Int
  dp0 : Int
  /-- The frame in which the phase began, for the times of R184; reset 0. -/
  phaseAt : FrameNo
  /-- Coil A and coil B. -/
  ca : Coil
  cb : Coil
  /-- AXn_CD_STAT.RSRC and LSRC (R175); reset 0. -/
  rsrc : Nat
  lsrc : Nat
  /-- AXn_CD_TWIND, 0.1 °C (R192); reset 250. -/
  twind : Int
  /-- 1: TEMP_WARN of the winding stands (R192); reset false. -/
  twWarn : Bool
  /-- 1: the axis holds a valid IDENT result (R182); reset false. -/
  idValid : Bool
  /-- The sequence in progress; reset none. -/
  seq : Option SeqSt
  /-- Frames of the standstill window counted, and the frame of the last refresh (R191); reset 0. -/
  still : Nat
  stillAt : FrameNo
  /-- 1: the standstill window's phase was HOLD_LOW (R191); reset false. -/
  stillLow : Bool
  /-- 1: coil A, coil B, carried less than I / 4 in the last frame of the window (R191); reset false. -/
  smallA : Bool
  smallB : Bool
  /-- Frames for which PHASE has been OFF, at most 8 (R195); reset 8. -/
  offFor : Nat
  deriving DecidableEq, Repr

/-- The four on-times of a shadow set, A+, A−, B+, B− (R216). -/
structure Ons where
  ap : Nat
  am : Nat
  bp : Nat
  bm : Nat
  deriving DecidableEq, Repr

/-- What an output mask waits for (R226): its descriptor, and the trigger slot where one commutes it. -/
structure MaskWait where
  desc : Nat
  next : BitVec 8
  slot : Option Nat
  /-- The tick at which the slot fired (R152). -/
  fired : Option FrameNo
  /-- 1: no shadow load has come since the MASK_SET took effect (R226). -/
  fresh : Bool
  deriving DecidableEq, Repr

/-- One coil's probe history (R236, R237): the last determinate kind, how many agree, and Δi in 1/64 mA. -/
structure ProbeHist where
  present : Bool
  run : Nat
  delta : Int
  deriving DecidableEq, Repr

/-- What a leg is told at a clock: both switches off, the low side on, the high side on (R208). -/
inductive LegLevel
  | off | low | high
  deriving DecidableEq, Repr

/-- The bridges' state of an axis (R216, R225, R239). -/
structure BrState where
  /-- A heavy axis' shadow set (R216, R242): on-times and codes; reset 0. A light axis' set is its BAYn_DSj_ words. -/
  shOn : Ons
  shCode : BitVec 8
  /-- 1: the engine has committed the set (R216); reset false. -/
  shCommit : Bool
  /-- 1: the shadow set, the active set lies in the pattern of IDENT_L (R188); reset false. -/
  shIdent : Bool
  ident : Bool
  /-- The active copy (R216): the period, on-times and codes as the set held them; reset 5,000, 0, 0. -/
  per : Nat
  raw : Ons
  code : BitVec 8
  /-- The on-times in force, clocks (R211, R219); reset 0. -/
  on : Ons
  /-- Legs that were HIGH at the end of the frame before (R215); reset 0. -/
  hiEnd : BitVec 4
  /-- What each leg was told in the unit's frame before, and in the one in progress before its unit's BRAKE: the changes, with their clocks
  from the valley of the frame in progress (R212, R221); reset none. -/
  before : List (List (Int × LegLevel))
  /-- AXn_BR_MASK.ACTIVE (R225); reset 0. -/
  mask : BitVec 8
  /-- AXn_BR_MASK.PEND and NEXT (R226); reset none. -/
  wait : Option MaskWait
  /-- AXn_BR_STAT.PRESENT (R237); reset 0. -/
  present : Nat
  /-- The probe histories of coil A and coil B (R237); reset none. -/
  prA : ProbeHist
  prB : ProbeHist
  /-- 1: the bridge fault action acts, so every leg is off until the axis parks (R223); reset false. -/
  faultOff : Bool
  /-- 1: a debug halt brought that action, so that the watchdog's fire faults the axis (R228, R39); reset false. -/
  byHalt : Bool
  /-- 1: direct mode has ended, and the legs keep the active set until the next valley (R217); reset false. -/
  tail : Bool
  /-- Frames since the last masked leg returned to code 0, at most 16 (R267); reset 16. -/
  unmaskedFor : Nat
  deriving DecidableEq, Repr

/-- The estimator's states (R275). -/
inductive SgMode
  | off | unarmed | armed
  deriving DecidableEq, Repr

/-- The methods of an evaluation (R267). -/
inductive SgMethod
  | none | emf | ripple
  deriving DecidableEq, Repr

/-- The stall estimator of an axis (R266–R276, R284). -/
structure SgState where
  /-- AXn_SG_STAT.STATE (R275); reset UNARMED. -/
  state : SgMode
  /-- AXn_SG_STAT.METHOD, the method of the last judged frame; reset none. -/
  method : SgMethod
  /-- 1: the last evaluated frame used EMF (R267); reset false. -/
  lastEmf : Bool
  /-- 1: the filters hold a value (R272); reset false. -/
  loadedA : Bool
  loadedE : Bool
  /-- δ_f in 0.1° and Ê_f in mV, each with 8 fractional bits (R272); reset 0. -/
  filtA : Int
  filtE : Int
  /-- δraw, 0.1°, and Ê, mV, of the last evaluated frame (R268); reset 0. -/
  rawA : Int
  rawE : Int
  /-- ρ in 1/256 (R268); reset 0. -/
  rho : Nat
  /-- Eexp, mV (R268); reset 0. -/
  eexp : Nat
  /-- ACNT, CCNT, DCNT (R273, R276); reset 0. -/
  acnt : Nat
  ccnt : Nat
  dcnt : Nat
  /-- TRAVEL toward arming, 2^-16 microstep, and the EMF frames counted (R275, R283); reset 0. -/
  travel : Int
  emfFrames : Nat
  /-- κ's contributions (R271): their sum in 2^-16 of 0.1 %, and their number; reset 0. -/
  kSum : Int
  kCnt : Nat
  /-- κ learned, 0.1 % (R271); reset none, so that SG_KSAL is in force. -/
  kappa : Option Nat
  /-- AXn_SG_STAT.WARN (R274); reset false. -/
  warn : Bool
  /-- 1: LOAD_WARNING may be raised again (R274); reset true. -/
  warnRdy : Bool
  /-- 1: after a STALL under REPORT_ONLY, the next one waits for a good frame (R273); reset false. -/
  hush : Bool
  /-- The last STALL under REPORT_ONLY: its frame, and s_r, where another fault of the frame stops the axis (R277, R279); reset none. -/
  report : Option (FrameNo × Int)
  deriving DecidableEq, Repr

/-- The step-loss correction of an axis (R299–R302, R311). -/
structure FbState where
  /-- The association (P0, C0), P0 in 2^-16 microstep (R300); reset none. -/
  assoc : Option (Int × Int)
  /-- An association that a POS_SET makes at the next tick, with its value (R300); reset none. -/
  assocAt : Option Int
  /-- AXn_FB_STAT.NCNT (R301); reset 0. -/
  ncnt : Nat
  /-- AXn_FB_STAT.LASTN (R302); reset 0. -/
  lastN : Int
  /-- AXn_FB_STAT.SUSP (R301); reset false. -/
  susp : Bool
  /-- AXn_FB_ERR, 1/256 microstep (R311); reset 0. -/
  err : Int
  /-- fb_k, 2^-16 microstep (R299); reset 0. -/
  pos : Int
  /-- AXn_FB_LASTFR (R311); reset 0. -/
  lastFr : Word
  deriving DecidableEq, Repr

/-- An axis as a descriptor found it that takes effect in the next frame, for the time until that frame begins: what it set up is undone
where it is flushed before (R90, R103). The model's own record (log 198). -/
structure AxisBack where
  /-- The descriptor. -/
  desc : Nat
  act : TtSet
  stg : TtSet
  qlow : Nat
  lagmax : Nat
  coilA : CoilSet
  coilS : CoilSet
  sgA : SgSet
  sgS : SgSet
  fbA : FbSet
  fbS : FbSet
  tt : TtState
  fol : Option FollowSt
  ahead : Option FollowSt
  cd : CdState
  wait : Option MaskWait
  /-- The association (R300). -/
  assoc : Option (Int × Int)
  /-- The events, and the demand dropped, that the next tick was to tell (R145, R161). -/
  due : List (Nat × Word × Word)
  dropDue : Nat
  deriving DecidableEq, Repr

/-- One axis: its parameters of every chapter and its state. -/
structure Axis where
  /-- The active and the staged Timetable set (R126). -/
  act : TtSet
  stg : TtSet
  /-- QLOW, held once (R127); reset 0. -/
  qlow : Nat
  /-- FOL_LAGMAX, held once (R161); reset 65,536. -/
  lagmax : Nat
  /-- The active and the staged coil set (R203). -/
  coilA : CoilSet
  coilS : CoilSet
  /-- The active and the staged stall set (R282). -/
  sgA : SgSet
  sgS : SgSet
  /-- The active and the staged feedback set (R298). -/
  fbA : FbSet
  fbS : FbSet
  tt : TtState
  /-- The follower; reset none. -/
  fol : Option FollowSt
  /-- The prefetch store of a FOLLOW_CAM at the head of the queue (R167); reset none. -/
  ahead : Option FollowSt
  /-- The fraction of x.drop below SD_FOLn_DROP, 2^-16 microstep (R161); reset 0. -/
  dropFr : Nat
  cd : CdState
  br : BrState
  sg : SgState
  fb : FbState
  /-- The events that the next tick raises for the axis: number, D0, D1 (R120, R134–R137, R168); reset none. -/
  due : List (Nat × Word × Word)
  /-- The demand that the follower's step planned for the next frame drops (R161), 2^-16 microstep: counted at the tick; reset 0. -/
  dropDue : Nat
  /-- The axis as the descriptors found it that take effect in the next frame, the last one first (the model's own); reset none. -/
  back : List AxisBack
  /-- The axis as the timed and triggered descriptors found it that take effect in the frame in progress, the last one first: a fault of
  the frame takes back what they set (R91; the model's own); reset none. -/
  found : List AxisBack
  deriving DecidableEq, Repr

/-! ### Host interface and ordering -/

/-- The states of a submission ring (R60). -/
inductive SqState
  | disabled | running | stalledCheck | stalledGap | fetchWait | error | draining
  deriving DecidableEq, Repr

/-- A submission ring (R51, R60, R81). Its RCOUNT (R58) is computed from the descriptors in the device. -/
structure Sq where
  /-- HIF_SQn_STAT.STATE (R60); reset DISABLED. -/
  state : SqState
  /-- FCOUNT, PCOUNT (R51); reset 0. -/
  fcount : BitVec 24
  pcount : BitVec 24
  /-- The retry reference (R61, R63); reset 0. -/
  retryRef : Byte
  /-- Doorbell reads that end until PCOUNT and the retry reference are taken (R61): 1 for the next, one more for each read that was
  outstanding at the enable; 0 once they are taken; reset 0. -/
  fresh : Nat
  /-- HIF_SQn_STAT.STALL_SLOT; reset 0. -/
  stall : BitVec 16
  /-- HIF_SQn_STAT.LAST_AC; reset 0xFF. -/
  lastAc : Byte
  /-- Attempts at the stalled slot (R97); reset 0. -/
  attempts : Nat
  /-- Retries left in FETCH_WAIT (R60); reset 0. -/
  tries : Nat
  /-- Attempts made at the read that has failed (R78); reset 0. -/
  tried : Nat
  /-- 1: a retry of the failed read is to be issued at a tick (R60); reset false. -/
  wait : Bool
  /-- The descriptor read in flight, or to be retried while `wait` holds: the count of its first entry and its entries
  (R57, R62), 0 entries where its data will be dropped; reset none. -/
  flight : Option (BitVec 24 × Nat)
  /-- The invalid producer counts reported since the enable (R56); reset none. -/
  badP : List (BitVec 24)
  deriving DecidableEq, Repr

/-- A record that a completion ring is to receive (R71): its first 24 bytes' fields. -/
structure Rec where
  status : Byte
  axis : Byte
  alive : Byte
  opcode : Byte
  tag : Word
  frame : FrameNo
  d0 : Word
  d1 : Word
  /-- The descriptor whose move-queue entry the record keeps (R83), where there is one. -/
  desc : Option Nat
  /-- NOTIFY (R65). -/
  notify : Bool
  deriving DecidableEq, Repr

/-- A completion ring (R74, R81). -/
structure Cq where
  /-- 1: enabled (R50); reset false. -/
  enabled : Bool
  /-- WCOUNT and the head in force (R51, R56); reset 0. -/
  wcount : BitVec 24
  head : BitVec 24
  /-- The records waiting for a full ring, in production order (R102); reset none. -/
  waiting : List Rec
  /-- 1: the ring entered FULL in the frame in progress, so that COMPLETION_RING_FULL is due at its end
  (R74); reset false. -/
  fullDue : Bool
  /-- Unsignalled records, and the frame of the oldest (R80); reset 0, none. -/
  unsig : Nat
  oldest : Option FrameNo
  /-- The invalid head counts reported since the enable (R56); reset none. -/
  badH : List (BitVec 24)
  deriving DecidableEq, Repr

/-- An event record's fields (R75). -/
structure EvRec where
  event : Nat
  unit : Nat
  seq : Word
  frame : FrameNo
  d0 : Word
  d1 : Word
  deriving DecidableEq, Repr

/-- The event ring (R75, R77, R81). -/
structure EvRing where
  enabled : Bool
  wcount : BitVec 24
  head : BitVec 24
  /-- The sequence number of the next event (R75); reset 0. -/
  seq : Word
  /-- HIF_EQ_STAT.DROPPED (R77); reset 0. -/
  dropped : Nat
  /-- SEQ of the first dropped event (R77); reset 0. -/
  firstDrop : Word
  unsig : Nat
  oldest : Option FrameNo
  badH : List (BitVec 24)
  deriving DecidableEq, Repr

/-- A record held while the link is down (R48). -/
inductive HeldRec
  | completion (q : RingId) (r : Rec)
  | event (r : EvRec)
  deriving DecidableEq, Repr

/-- An outstanding read of the doorbell or of the return block: whether a kick issued it (R54), and which attempt it is (R78). -/
structure BlockRead where
  kick : Bool
  attempt : Nat
  deriving DecidableEq, Repr

/-- An entry of an MSI-X table (R44): the address and the data of its message. -/
structure MsixEntry where
  addr : BitVec 64
  data : Word
  deriving DecidableEq, Repr

/-- The host interface (R44–R81). -/
structure Hif where
  /-- HIF_STAT.LINK_UP (R81); reset false. -/
  linkUp : Bool
  /-- The frame in which the link was lost (R78); reset none. -/
  lostAt : Option FrameNo
  /-- 1: the function has MSI-X enabled (R79); reset true (DESIGN CHOICE). -/
  msixEn : BitVec 2
  /-- Mask bits of the vectors of PF0 and PF1 (R80); reset all masked (PRESUMED, PCI Express). -/
  mask0 : BitVec 16
  mask1 : BitVec 16
  /-- Pending bits (R80); reset 0. -/
  pend0 : BitVec 16
  pend1 : BitVec 16
  /-- The MSI-X tables of PF0 and PF1 (R44), by vector; reset addresses and data 0 (DESIGN CHOICE). -/
  table0 : List MsixEntry
  table1 : List MsixEntry
  /-- 1: PERST# holds the endpoint in reset (R419); reset false. -/
  perst : Bool
  /-- 1: configuration requests are answered with retry status until frame 0 (R419); reset true. -/
  retryStatus : Bool
  /-- The outstanding reads of the doorbell block, oldest first (R54); reset none. -/
  dbFlight : List BlockRead
  /-- The outstanding reads of the return block, oldest first (R54); reset none. -/
  rbFlight : List BlockRead
  /-- HIF_STAT.DB_PENDING (R54); reset false. -/
  dbPending : Bool
  /-- Attempts made at a read of the doorbell block, of the return block, that failed and is made again at the next tick (R55), 0 where
  none is; reset 0. -/
  dbAgain : Nat
  rbAgain : Nat
  /-- Records held while the link is down, oldest first, at most 2,048, and the number discarded (R48); reset none. -/
  held : List HeldRec
  discarded : Nat
  /-- The ring served first at the next tick (R57); reset 0. -/
  turn : Nat
  deriving DecidableEq, Repr

/-- Where an accepted descriptor stands (R83–R86). -/
inductive DStage
  /-- In its ring's staging (R84). -/
  | staged
  /-- In the move queue, waiting for its turn (R85). -/
  | queued
  /-- It has taken effect and has not completed (R86). -/
  | effect
  /-- It has completed, and its record waits for a full ring (R102). -/
  | recordWaits
  deriving DecidableEq, Repr

/-- An accepted descriptor (R64, R82, R83). -/
structure Desc where
  /-- Its place in the acceptance sequence (R82). -/
  acc : Nat
  ring : RingId
  /-- The ring position it was fetched from (R51). -/
  count : BitVec 24
  /-- The frame of acceptance (R87). -/
  accFrame : FrameNo
  /-- The 64 bytes of the entry (R64). -/
  bytes : List Byte
  /-- 1: a Function Level Reset left its action running to its end, without a record (R47). -/
  mute : Bool
  /-- Status, D0 and D1 of a rejection in step 3 or 4 of R69. -/
  rej : Option (Byte × Word × Word)
  stage : DStage
  /-- The frame of effect (R86), as its record reports it. -/
  eff : FrameNo
  /-- 1: the tick that began its frame of effect has come. -/
  begun : Bool
  /-- 1: it has still to end the descriptors that it replaces (R90). -/
  repl : Bool
  /-- The descriptor that replaces it in the frame at whose tick it comes to rest at its target (R122). -/
  arrives : Option Nat
  /-- Status, D0 and D1 with which it completes in its frame of effect; or, while queued, at the end of the frame in which the Granary
  refused it (R91). -/
  out : Option (Nat × Word × Word)
  /-- The frame in which it came to the head of its axis queue (R87), where it has. -/
  headAt : Option FrameNo
  /-- 1: BUDGET_HOLD was raised for it (R334). -/
  holdTold : Bool
  /-- A held move: the frame in which it would have taken effect (R101). -/
  held : Option FrameNo
  /-- The frame of effect for which the Granary granted it (R332), where it has. -/
  grantAt : Option FrameNo
  /-- GROUP_MOVE: its members (R154). -/
  members : List AxisId
  /-- GROUP_MOVE: its target list once read (R154), and the frame in which the read completed. -/
  targets : Option (List Int)
  readAt : FrameNo
  /-- Retries left of a refetch or of the target-list read (R100, R156); none while no read is due. -/
  tries : Option Nat
  /-- Attempts made at that read (R78). -/
  tried : Nat
  /-- 1: an uncorrectable error hit it, and its refetch is outstanding (R100). -/
  refetch : Bool
  /-- BARRIER: the frame in which it arrived (R94). -/
  arrived : Option FrameNo
  /-- SNAPSHOT: F and the entries captured so far (R359, R360). -/
  snapF : FrameNo
  snapN : Nat
  snapDone : Bool
  /-- SNAPSHOT: what the frame counter was moved by since its capture (R353). -/
  snapBy : FrameNo
  /-- 1: its result block was written (R362). -/
  snapW : Bool
  /-- The shaped positions of a GROUP_MOVE's members at the frame of effect (R366). -/
  starts : List Int
  /-- The frame in which the CONSIST_SELECT slot read ends, or 0 (R434). -/
  slotEnd : FrameNo
  deriving DecidableEq, Repr

/-- An open barrier id of the device (R95). -/
structure OpenBarrier where
  id : Word
  parts : Nat
  /-- The descriptors that have arrived, in order; as many as `parts` and the id is due for release. -/
  who : List Nat
  /-- The frame of the P-th arrival. -/
  full : Option FrameNo
  deriving DecidableEq, Repr

/-- Ordering (R82–R96). -/
structure OrdSt where
  /-- The next acceptance number (R82); reset 0. -/
  next : Nat
  /-- Every accepted descriptor that has not left the device, in acceptance order: ring staging and move queue
  (R83, R84); reset none. -/
  descs : List Desc
  /-- The open device barriers (R95); reset none. -/
  barriers : List OpenBarrier
  deriving DecidableEq, Repr

/-! ### Frame and admission -/

/-- What an admission request asks for (R30). -/
inductive AdmKind
  /-- GO: the staged RATE, HVY_OFS and offsets it copied (R31). -/
  | go (rate : Fin 4) (hvy : BitVec 3) (ofs : List (BitVec 3)) (slack : Nat)
  /-- A cost-bearing SET_PARAM commit of the Timetable set (R129), with the set that it copies. -/
  | commitTt (d : Nat) (tt : TtSet)
  /-- A cost-bearing SET_PARAM commit of the feedback set (R129), with the set that it copies. -/
  | commitFb (d : Nat) (fb : FbSet)
  /-- A CONSIST_SELECT (R434). -/
  | consist (d : Nat)
  /-- LINE_CFG.EN (R342). -/
  | line
  /-- A firmware switch (R436): the cores and the new costs. -/
  | firmware (mask : BitVec 7) (costs : List Nat)
  deriving DecidableEq, Repr

/-- Demand and available cycles of a resource in an interval (R35, R37), and its start and length in eighths of a frame. -/
structure Window where
  demand : Nat
  avail : Nat
  start : Nat
  len : Nat
  deriving DecidableEq, Repr

/-- Why a request is refused (R37): its reason code, and the resource with its window where the resource check failed. -/
structure AdmRefusal where
  reason : Nat
  res : Option (Nat × Window)
  deriving DecidableEq, Repr

/-- What frame j + 1 makes of a request (R30). -/
inductive AdmVerdict
  | accepted
  | refused (r : AdmRefusal)
  deriving DecidableEq, Repr

/-- An admission request in progress (R30): the frame j of the request, and its verdict once frame j + 1 has ended. -/
structure AdmReq where
  kind : AdmKind
  frame : FrameNo
  verdict : Option AdmVerdict
  deriving DecidableEq, Repr

/-- The frame and the timebase (R14–R43). -/
structure Frm where
  /-- FRM_COUNT (R26); reset 0. -/
  count : FrameNo
  /-- 1: the first tick has come (R18, R26); reset false. -/
  started : Bool
  /-- FRM_CLK.LOCK (R42); reset false. -/
  lock : Bool
  /-- The outage in progress (R19): its CLOCK_FAIL cause; reset none. -/
  outage : Option Nat
  /-- 1: the reference input is the source of the counter clock; 0: the crystal (R14). A reset takes it from FRM_CLK.SRC as that
  was written before (R42); reset false. -/
  src : Bool
  /-- FRM_CFG.RATE_ACT, the rate in force (R16, R42); reset 0. -/
  rate : Fin 4
  /-- Admissions in progress, in order of arrival (R30); reset none. -/
  adm : List AdmReq
  /-- Bit u: processor u (0–5 P0–P5, 6 PS) has finished its references for the next frame (R38); reset 0. -/
  refsOk : BitVec 7
  /-- The costs of the release in force, items 0–23 (R43). -/
  costs : List Nat
  /-- 1: a line participation is charged (R33, R342); reset false. -/
  lineCost : Bool
  deriving DecidableEq, Repr

/-! ### Carrier units: bays and the heavy group -/

/-- A carrier unit: a bay, or the heavy group (R20, R193, R228, R316). -/
structure CUnit where
  /-- The offset code in force, FRM_BAYACTn or FRM_CFG.HVY_OFS active (R20, R23); reset 0. -/
  ofs : BitVec 3
  /-- The valley that has no shadow load in this frame, as the number of valleys before it (R23); reset none. -/
  skipLoad : Option Nat
  /-- The frame whose valley came last (R21); reset 0. -/
  own : FrameNo
  /-- The clocks that the frame in progress is shortened by (R348); reset 0. -/
  trim : Int
  /-- The dead time and the trip blanking in force, clocks: BAYn_BR_CFG.DT and BLANK, or HVY_GRP_CFG.BLANK, as the last valley found
  them (R212, R221, R240); reset 12 and 40. The heavy group's dead times are those of R249. -/
  dt : Nat
  blank : Nat
  /-- The codes of the last valley and peak sample of its 16 channels (R206); reset 0. -/
  valley : List Nat
  peak : List Nat
  /-- VM codes at the last valley and peak sample (R194); reset 0. -/
  vmV : Nat
  vmP : Nat
  /-- The last 16 temperatures, 1/16 °C, newest first (R328); reset none. -/
  temps : List Int
  /-- 1: TEMP_WARN, TEMP_SHUTDOWN stand (R328); reset false. -/
  tWarn : Bool
  tShut : Bool
  /-- The causes of its safe state that stand (R228): clock, halt, watchdog, parity; reset none. -/
  cClock : Bool
  cHalt : Bool
  cWdog : Bool
  cParity : Bool
  /-- BAYn_BR_STAT.SAFE_ACTIVE (R229); reset false. -/
  safe : Bool
  /-- Coils tripped in the present half-period (R220); reset 0. -/
  tripped : BitVec 16
  /-- Legs that a trip holds out of HIGH (R220); reset 0. -/
  held : BitVec 32
  /-- The clock of the unit's frame from which a trip holds the legs of each coil out of HIGH, between valley and peak, and between
  peak and valley (R220); reset none. -/
  cutV : List (Option Nat)
  cutP : List (Option Nat)
  /-- The clocks of the frame in progress in which the legs of an axis were told HIGH, as they stood before the first of the detections of
  one clock, for the axes detected on it (R259); reset none. -/
  highs0 : List (AxisId × List (List (Nat × Nat)))
  /-- The clock of the frame in progress from which a safe state with BRAKE holds the legs low (R228); none from its first on; reset none. -/
  brakeAt : Option Nat
  /-- Trips of each leg in the present window (R222); reset 0. -/
  trips : List Nat
  /-- Legs whose LEG_TRIP was raised in the present window (R222); reset 0. -/
  tripSeen : BitVec 32
  /-- BAYn_LATCH, HVY_GRP_LATCH: legs latched off (R222, R233); reset 0. -/
  latch : BitVec 32
  /-- Latches to release at the next valley (R224); reset 0. -/
  relPend : BitVec 32
  /-- BAYn_COMMIT.PEND (R218); reset 0. -/
  commit : BitVec 8
  /-- Sides of the coil window comparators that are tripped (R316); reset all, the restrictive state of R317. -/
  cmpLo : BitVec 16
  cmpHi : BitVec 16
  /-- Coil windows not released since reset or test (R317); reset all. -/
  unset : BitVec 16
  /-- Coil windows that have not released since reset (R317); reset all. -/
  unsetRst : BitVec 16
  /-- The over-voltage monitor is tripped (R323), and has not released since reset (R317); reset true. -/
  ov : Bool
  ovUnset : Bool
  /-- BAYn_WSTAT.REGEN_BLK (R323, R325); reset true. -/
  regen : Bool
  /-- 1: VM_OV was raised in the present 4,096-frame window (R323); reset false. -/
  ovSeen : Bool
  /-- 1: the engine has written this unit's duties for the next load (R38); reset false. -/
  dutiesOk : Bool
  /-- 1: the last sample was the peak, so that the half-period in progress runs from peak to valley; reset false. -/
  afterPeak : Bool
  /-- The ready bit BAY or HEAVY's calibration part (R422, R426); reset false. -/
  calOk : Bool
  /-- 1: a calibration runs, begun in the frame (R426); reset none. -/
  cal : Option FrameNo
  /-- 1: REF_ERR stands since the last valley (R195, R321); reset false. -/
  refErr : Bool
  /-- 1: every sample counts as beyond both trip levels (R321); reset false. -/
  forced : Bool
  /-- The fractions of OFS that offset tracking keeps, in 1/256 step, by channel (R195); reset 0. -/
  ofsFr : List Int
  deriving DecidableEq, Repr

/-- A heavy axis' gate drive (R244–R258). -/
structure HvState where
  /-- HVYh_DT_EFF.IN_FORCE, clocks (R249); reset 0x28. -/
  dt : Nat
  /-- The last applied dead time of each leg (R249); reset 0. -/
  legs : List Nat
  /-- HVYh_STAT.BOOT_REL and BOOT_LOW (R251, R254); reset 0. -/
  rel : BitVec 4
  low : BitVec 4
  /-- Legs whose DEADTIME_ADAPT_LIMIT, BOOT_REFRESH, VDS_FAULT was raised in the present window; reset 0. -/
  fbSeen : BitVec 4
  rfSeen : BitVec 4
  vdsSeen : BitVec 4
  /-- Legs whose DEADTIME_ADAPT_LIMIT was raised in the window before, to which the last frame may belong (R248); reset 0. -/
  fbOld : BitVec 4
  /-- HVYh_GP_ON and HVYh_GP_OFF as the last valley found them (R244); reset the registers' values. -/
  gpOn : Word
  gpOff : Word
  /-- Legs that get a bootstrap refresh in the frame in progress (R252), and the dead times of the refreshes; reset 0. -/
  fresh : BitVec 4
  freshDt : List Nat
  /-- The edges of the frame before, each with its applied dead time (R247, R249); reset none. -/
  edges : List (HeavyEdge × Nat)
  deriving DecidableEq, Repr

/-! ### Feedback, step inputs, triggers, probes, emulation -/

/-- A change of a channel's count (R304): the frame and the clock, the count from then on, and for a conversion what it moved the count
by. -/
structure CountNote where
  frame : FrameNo
  clk : Nat
  count : Int
  moved : Option Int
  deriving DecidableEq, Repr

/-- A feedback channel (R286–R297). -/
structure FbChan where
  /-- FBc_COUNT, signed 48 bits (R286); reset 0. -/
  count : Int
  /-- FBc_LATCH (R291); reset 0. -/
  latch : Int
  /-- The state s of the lines (R287); reset 0. -/
  st : BitVec 2
  /-- φ (R289); reset 0. -/
  phi : Int
  /-- FBc_STAT: VALID, LOST, SUSPECT, REF, SAT_LO, SAT_HI; reset false. -/
  valid : Bool
  lost : Bool
  suspect : Bool
  refd : Bool
  satLo : Bool
  satHi : Bool
  /-- FBc_ORG (R296); reset 0. -/
  org : Int
  /-- FBc_IDX_DELTA (R296); reset 0. -/
  delta : Int
  /-- FBc_AMP (R293); reset 0. -/
  amp : Nat
  /-- 1: checking runs after MODE left 0 or a REVAL (R286, R294); reset false. -/
  check : Bool
  /-- 1: it was valid before and runs a revalidation (R294); reset false. -/
  reval : Bool
  /-- 1: FB_ILLEGAL_TRANSITION was raised in the present window (R288); reset false. -/
  illSeen : Bool
  /-- Consecutive conversions whose amplitude lay outside its window, at most 3 (R293); reset 0. -/
  ampOut : Nat
  /-- The level of the Z pair (R296, R306); reset low. -/
  z : Bool
  /-- The changes of the count that lie at most 2,048 clocks back, and the two before them, newest first (R304); reset none. -/
  past : List CountNote
  deriving DecidableEq, Repr

/-- A step input pair (R157–R159). -/
structure StepIn where
  /-- SDn_COUNT (R157); reset 0. -/
  count : BitVec 32
  /-- The latch of the last tick, unwrapped (R159); reset 0. -/
  latch : Int
  /-- The count unwrapped; reset 0. -/
  raw : Int
  /-- SDn_STAT.OPEN (R158); reset false. -/
  opened : Bool
  /-- The levels of the two lines; reset low. -/
  stepLv : Bool
  dirLv : Bool
  /-- The SDn_CFG in force since the last tick (R170); reset 0x0000_5400. -/
  cfg : Word
  deriving DecidableEq, Repr

/-- A trigger slot (R147–R150). -/
structure Trig where
  /-- SD_TRGm_STAT.STATE: 1 ARMED; reset false. -/
  armed : Bool
  kind : Nat
  edge : Nat
  source : Nat
  /-- The position, microsteps, or the frame. -/
  pos : Int
  frame : FrameNo
  auto : Bool
  /-- SD_TRGm_STAT.FIRES; reset 0. -/
  fires : BitVec 16
  /-- SD_TRGm_LAST; reset 0. -/
  last : Word
  /-- The tick of the last firing (R149); reset none. -/
  firedAt : Option FrameNo
  deriving DecidableEq, Repr

/-- A probe input (R303–R305). -/
structure Probe where
  /-- The filtered level (R303); reset low. -/
  level : Bool
  /-- The clock of the first rising and of the first falling edge registered since the last tick (R148); reset none. -/
  rise : Option Nat
  fall : Option Nat
  deriving DecidableEq, Repr

/-- An encoder-emulation output (R306–R308). -/
structure Emu where
  /-- EMUe_COUNT (R306); reset 0. -/
  count : Int
  /-- Input counts since enable (MODE 1), or S_0 (MODE 2). -/
  base : Int
  /-- b remaining (R307); reset 0. -/
  backlog : Int
  /-- The state that A and B drive, in the order of R287, and the level of Z (R306); reset state 0 and low. -/
  lines : BitVec 2
  z : Bool
  deriving DecidableEq, Repr

/-! ### Supervision and the Granary -/

/-- Window comparators, supplies and choppers (R314–R327). -/
structure Cmp where
  /-- VM entries: LO and HI sides tripped (R322, R324); reset all tripped. -/
  vmLo : BitVec 7
  vmHi : BitVec 7
  /-- VM entries whose LO side has not released since reset (R317); reset all. -/
  vmUnset : BitVec 7
  /-- VM entries whose HI side has not released since reset; reset all. -/
  vmHiUnset : BitVec 7
  /-- Monitor 407's part of CMP_VSTAT is the heavy group's `ov`. Rails: LO and HI sides tripped (R327); reset all. -/
  railLo : BitVec 13
  railHi : BitVec 13
  /-- Rails that have released since reset (R327); reset none. -/
  railRel : BitVec 13
  /-- Rails whose reset test failed (R418); reset none. -/
  railBad : BitVec 13
  /-- The sweep in progress: the comparator under test and the failures found (R319, R321); reset none. -/
  sweep : Option (Nat × Nat)
  /-- The frame in which the test in progress began (R319); reset 0. -/
  sweepAt : FrameNo
  /-- The frame from which the supervisor counts ST_INT seconds to its next sweep (R319); reset 0. -/
  sweepFrom : FrameNo
  /-- Comparators permanently on fallback (R321), ascending; reset none. -/
  failed : List Nat
  /-- A threshold write held during a test (R318): address and word; reset none. -/
  heldWr : Option (Nat × Word)
  /-- Comparators whose fallback runs since their test until both sides release (R319); reset none. -/
  fallback : List Nat
  /-- Choppers: requested, on, held off by LIMIT (R326); reset none. -/
  brkReq : BitVec 7
  brkOn : BitVec 7
  brkOff : BitVec 7
  /-- Choppers that turned on in the present window (R326); reset none. -/
  brkSeen : BitVec 7
  /-- Choppers that were on in the frame in progress (R326); reset none. -/
  brkFr : BitVec 7
  /-- On-frames in the present window, and in the one before; reset 0. -/
  brkCnt : List Nat
  brkPrev : List Nat
  /-- 1: the control die's TEMP_WARN stands (R328); reset false. -/
  dieWarn : Bool
  /-- The last VM of each entry, mV, and of each rail; reset 0. -/
  vmMv : List Nat
  railMv : List Nat
  /-- Heavy gate supplies that are locked (R255); reset locked. -/
  vghLock : BitVec 2
  /-- Those of them that fell after a release (R255); reset none. -/
  vghFell : BitVec 2
  deriving DecidableEq, Repr

/-- A pool of the Granary (R329, R340). -/
structure Pool where
  /-- d_t (R329); reset 256. -/
  d : Nat
  /-- GR and GH as they will stand in the next frame (R332); reset 256. -/
  gr : Nat
  gh : Nat
  /-- GR and GH in force (R173); reset 256. -/
  grNow : Nat
  ghNow : Nat
  /-- GRN_POOLp_B.OVER (R335); reset false. -/
  isOver : Bool
  deriving DecidableEq, Repr

/-- The allowances and the model that the Granary works with, as its last evaluation took them from their registers (R336): mW, mA, mW
and mΩ. -/
structure GranSet where
  /-- Reset 60,000, 7,000, 12,000, 20,000. -/
  modAllow : Nat
  base : Nat
  tile : Nat
  hvy : Nat
  /-- Reset 40, 241. -/
  sw : Nat
  ronp : Nat
  deriving DecidableEq, Repr

/-! ### The line -/

/-- The states of LINE_STAT.STATE (R365). -/
inductive LineMode
  | off | search | locking | joined | isolated
  deriving DecidableEq, Repr

/-- What this station knows of a station (R346, R347). -/
structure Peer where
  /-- 1: it asserts the stop (R346). -/
  estop : Bool
  /-- 1: its every axis is PARKED. -/
  parked : Bool
  rate : Nat
  /-- The last ALIVE accepted in each direction (R347). -/
  alive0 : Option Byte
  alive1 : Option Byte
  /-- The last FRAME of its STATUS (R347). -/
  seen : Option FrameNo
  /-- FRAME and ALIVE of its last STATUS in each direction, east and west: the first frame that it sends at a tick. -/
  base0 : Option (FrameNo × Byte)
  base1 : Option (FrameNo × Byte)
  /-- Its frames of the last two ticks that came in either direction: FRAME, and the place among those that it sent at the tick (R347). -/
  got : List (FrameNo × Nat)
  /-- 1: one of its frames is missing in both directions (R347). -/
  lost : Bool
  /-- The frame of this station in which its stop was last registered (R355, R356). -/
  stopAt : FrameNo
  deriving DecidableEq, Repr

/-- An arrival of a line barrier (R357), with its descriptor where it is one of this station. -/
structure LineArrival where
  id : Word
  parts : Nat
  frame : FrameNo
  station : Nat
  desc : Option Nat
  deriving DecidableEq, Repr

/-- An open barrier id of the line (R357, R358): the arrivals counted, this station's descriptors among them, and the frame of the
P-th arrival. -/
structure LineBar where
  id : Word
  parts : Nat
  count : Nat
  who : List Nat
  full : Option FrameNo
  /-- 1: released; it stands until the arrivals of the last frame in which it was open are judged (R95). -/
  released : Bool
  deriving DecidableEq, Repr

/-- A line snapshot of another station (R360), with whether its block was written here, and what the frame counter was moved by since its
capture (R353). -/
structure LineSnap where
  issuer : Nat
  frame : FrameNo
  mask : List AxisId
  written : Bool
  moved : FrameNo
  deriving DecidableEq, Repr

/-- A SNAP_DONE of a station (R360). -/
structure SnapDone where
  issuer : Nat
  frame : FrameNo
  station : Nat
  written : Bool
  entries : Nat
  deriving DecidableEq, Repr

/-- A line reset in progress (R351): the frame of this station that tick r + 1 began or fell in, and the station at each ring position
that has added itself. `twin`: another place carries this station's number. -/
structure LineReset where
  start : FrameNo
  places : List (Option Nat)
  twin : Bool
  deriving DecidableEq, Repr

/-- The line (R341–R365). -/
structure Line where
  /-- LINE_STAT.STATE; reset OFF. -/
  mode : LineMode
  /-- LINE_STAT.PRESENT; reset 0. -/
  present : BitVec 8
  /-- LINE_STAT.POS; reset 0. -/
  pos : Nat
  /-- LINE_STAT.TOPO; reset 0. -/
  topo : Nat
  /-- LINE_MAP: station by ring position; reset none. -/
  map : List (Option Nat)
  /-- Ports up (R363), and the frame each came up; reset down. -/
  up : BitVec 2
  upAt0 : FrameNo
  upAt1 : FrameNo
  /-- The stop this station originated and keeps asserted (R354), with its cause; reset none. -/
  own : Option Nat
  /-- Stations whose stop is in force here (R356); reset 0. -/
  estop : BitVec 8
  /-- Clocks that the last frame, the frame in progress and the next are shortened by (R348), the first of them LINE_PHASE.TRIM;
  LINE_PHASE.ERR; LINE_STAT.LOCKED; reset 0. -/
  trim : Int
  trimNow : Int
  trimNext : Int
  err : Int
  locked : Bool
  /-- D as measured on each port (R348), and the ports on which it was measured at the last reset or join; reset 0. -/
  delay0 : Nat
  delay1 : Nat
  measured : BitVec 2
  /-- LINE_DELAY.PORT (R348): the port that the last lock used; reset 0. -/
  port : Fin 2
  /-- The stations on the ring, where they are known (R351); reset 0, not known. -/
  size : Nat
  /-- The clock on which TICK came on each port in this frame (R348); reset none. -/
  tick0 : Option Nat
  tick1 : Option Nat
  /-- 1: this station's frames come round the ring (R363), as far as known; reset true. -/
  loop : Bool
  /-- Its STATUS of this frame: none where it sent none, else whether it has come round; reset none. -/
  round : Option Bool
  /-- Ticks in a row without TICK (R349); reset 0. -/
  missed : Nat
  /-- 1: TICK came in this frame; reset false. -/
  gotTick : Bool
  /-- The stations as seen, 0–7. -/
  peers : List Peer
  /-- The ALIVE of this station's last frame in each direction (R344); reset 0xFF. -/
  tx0 : Byte
  tx1 : Byte
  /-- Check failures of each port in this frame (R363); reset 0. -/
  bad0 : Nat
  bad1 : Nat
  /-- The open barrier ids of the line (R358), the arrivals of the last two frames, and this station's still to be sent (R357). -/
  bars : List LineBar
  tally : List LineArrival
  toSend : List LineArrival
  /-- Snapshots scheduled by SNAP_CMDs received (R360); reset none. -/
  snaps : List LineSnap
  /-- The SNAP_DONE reports of the snapshots in progress, this station's own among them (R360). -/
  dones : List SnapDone
  /-- The line reset in progress (R351); reset none. -/
  reset : Option LineReset
  /-- The frame in which a station that joins by itself measured its delay (R352); reset none. -/
  joinAt : Option FrameNo
  /-- D0 of the last LINE_TOPOLOGY_CHANGE (R364); reset 0. -/
  topoD0 : Nat
  /-- LINE_CHECK_FAIL raised in this window, by port × 3 + cause (R347); reset none. -/
  chkSeen : BitVec 6
  deriving DecidableEq, Repr

/-! ### The Weighbridge -/

/-- The energy of one VM domain (R369, R370): E_IN, E_OUT in mJ, and the residues below 1 mJ as a numerator and a denominator. -/
structure Energy where
  eIn : Nat
  eOut : Nat
  resIn : Nat × Nat
  resOut : Nat × Nat
  deriving DecidableEq, Repr

/-- A log record (R386). -/
structure LogRec where
  num : Nat
  kind : Byte
  detail : Byte
  clock : BitVec 64
  audit : Word
  a : Word
  b : Word
  deriving DecidableEq, Repr

/-- The weighing table (R382). -/
structure WbTable where
  rs : List Nat
  minMove : Nat
  tampEn : BitVec 2
  tampNorm : BitVec 2
  deriving DecidableEq, Repr

/-- The contents of the standby domain (R374). -/
structure Standby where
  /-- The real-time clock in 1/32,768 s (R377). -/
  rtc : Nat
  rtcValid : Bool
  energy : List Energy
  moves : List Nat
  powerS : Nat
  runS : Nat
  audit : Nat
  recSeq : Nat
  tamp0 : Nat
  tamp1 : Nat
  deriving DecidableEq, Repr

/-- A request for a signed record, as the port copied it (R388). -/
structure WbReq where
  kind : Nat
  arg : Word
  nonce : List Word
  frame : Word
  deriving DecidableEq, Repr

/-- A package in the staging slot (R383). -/
structure WbPkg where
  version : Word
  bytes : Nat
  isTable : Bool
  table : List Nat
  crc : Word
  deriving DecidableEq, Repr

/-- The Weighbridge (R366–R390). -/
structure Wb where
  /-- The standby contents, and the last checkpoint of them (R375). -/
  sb : Standby
  ckpt : Standby
  /-- 1: VBAT lost the contents while VAUX was off (R374, R376); reset false. -/
  lostSb : Bool
  /-- 1: VBAT has fallen below 1.8 V since VAUX last rose (R374); reset false. -/
  vbatLow : Bool
  /-- The copies of R404, and whether they hold; a SNAP waiting for the slow-clock edge. -/
  copy : Standby
  hold : Bool
  snap : Bool
  /-- A setting of the clock that waits for the slow-clock edge (R377); reset none. -/
  rtcSet : Option Nat
  /-- The table in force (R382); the staged one lies in the WB_TBL_ registers. -/
  table : WbTable
  /-- 1: a commit of the staged table waits for the next 16 kHz sample (R382); reset false. -/
  tblGo : Bool
  /-- WB_ID (R380). -/
  ver : Word
  crc : Word
  /-- SEAL_PAD (R381); reset not strapped. -/
  pad : Bool
  /-- Inputs away from their normal level (R379); reset 0. -/
  away : BitVec 2
  /-- The level of each tamper input, 0 being a loop closed to ground (R378); reset 0. -/
  level : BitVec 2
  /-- Slow-clock edges until the inputs have been judged against a new normal level (R378); reset 0, none. -/
  tampDue : Nat
  /-- Changes since the last TAMPER record, and the clock of that record, per input (R379). -/
  since0 : Nat
  since1 : Nat
  rec0 : Option Nat
  rec1 : Option Nat
  /-- The log, newest first, at most 1,024 records (R385), and the next record number. -/
  log : List LogRec
  logNext : Nat
  /-- The staging slot (R383); reset none. -/
  pkg : Option WbPkg
  /-- The package that the install in progress took from the staging slot; from WRITE's end it stands in the inactive slot (R383); reset
  none. -/
  work : Option WbPkg
  /-- The install step in progress 0–4, and the reason of the last refusal (R384, R390); reset 0. -/
  inst : Nat
  reason : Nat
  /-- The request in progress, and the record formed of the values at its sample (R388). -/
  req : Option WbReq
  taken : Option (List Byte)
  /-- WB_REC, 256 bytes (R388); reset none, which reads 0. -/
  record : List Byte
  /-- 1: the run flag was 1 at a sample of this second (R373). -/
  ran : Bool
  /-- 1: the check of R376 is done. -/
  checked : Bool
  /-- WEIGHBRIDGE_AUDIT events of records appended before the ready bit (R379): (kind and detail, number). -/
  owed : List (Word × Word)
  deriving DecidableEq, Repr

/-! ### Access, update, system -/

/-- The service SPI port and integrity (R397, R398, R408). -/
structure Acc where
  /-- ACC_SPI_STAT.ADMIN, FAILS, BLOCKED; reset 0. -/
  admin : Bool
  fails : Nat
  blocked : Bool
  /-- ACC_SPI_RESP_LO as written (R398); reset 0. -/
  respLo : Word
  /-- How often the challenge has changed (R398); reset 0. -/
  chal : Nat
  /-- WL words written since reset, by address (R402); reset none. -/
  locked : List Nat
  /-- LOCK_VIOLATIONs in the present window (R402); reset 0. -/
  lockWin : Nat
  /-- Corrections in the present window (R407); reset 0. -/
  ceWin : Nat
  /-- Configuration registers failing parity, in the order found (R408); reset none. -/
  parity : List Nat
  /-- The units in safe state for parity (R408); reset none. -/
  parUnits : BitVec 25
  deriving DecidableEq, Repr

/-- A calibration pass (R428): the unit in progress, those to come, and those that failed. -/
structure CalPass where
  cur : Option CarrierId
  todo : List CarrierId
  fails : Nat
  deriving DecidableEq, Repr

/-- A firmware slot (R429): its version (0 when empty), its costs, the data format of each core's section (R438), and whether it is
verified. -/
structure FwSlot where
  version : Word
  costs : List Nat
  formats : List Nat
  good : Bool
  deriving DecidableEq, Repr

/-- Updates, Consists and calibration (R425–R438). -/
structure Upd where
  /-- UPD_STAT.STATE (R444); reset 0. -/
  state : Nat
  reason : Nat
  /-- The write in progress: its TARGET and SLOT as GO found them (R435); reset none. -/
  job : Option (Nat × Nat)
  /-- The boot slot (R437); reset A. -/
  boot : Bool
  slotA : FwSlot
  slotB : FwSlot
  /-- UPD_CORE_SLOT and UPD_COREu_VER (R444). -/
  coreSlot : BitVec 7
  coreVer : List Word
  /-- The format of the data that each core keeps (R436, R438); reset 0. -/
  coreFmt : List Nat
  /-- The bank each core runs from (R436); reset 0. -/
  bank : BitVec 7
  /-- Cores that a debug halt holds, by unit code (R228); reset none. -/
  halted : BitVec 14
  /-- Cores restarting after an error (R407); reset none. -/
  restart : BitVec 7
  /-- A switch in progress: its mask (R436); reset none. -/
  switching : Option (BitVec 7)
  /-- The Consist slots 0–3 (R429, R431): their items, or none where the slot is bad. -/
  consists : List (Option (List ConsistItem))
  /-- GCTL_CONSIST: the Consist in force for each unit 0–6 (R443). -/
  inForce : List Nat
  /-- The Consist whose device part is in force (R434, R407); reset 0. -/
  devInForce : Nat
  /-- Which units run a loaded Consist and not reset values, and whether the device does (R407, R422, R432); reset none. -/
  loaded : BitVec 7
  devLoaded : Bool
  /-- The calibration pass in progress (R428); reset none. -/
  pass : Option CalPass
  calFails : Nat
  /-- The frame in which INT last began a pass (R428); reset 0. -/
  passFrom : FrameNo
  deriving DecidableEq, Repr

/-- Reset, boot, STO, readiness and power-down (R230, R416–R424, R441). -/
structure Sys where
  /-- 1: a GX-192-W (R2). -/
  sealedVariant : Bool
  /-- 1: VAUX holds the module out of reset (R416). -/
  powered : Bool
  /-- 1: the boot image and the Consist have been loaded (R417); reset false. -/
  booted : Bool
  /-- GCTL_BOOT.CAUSE, FALLBACK, SLOT, CONSIST_BAD, CFGSEL (R443). -/
  cause : Nat
  fallback : Bool
  bootSlot : Bool
  consistBad : Bool
  cfgsel : BitVec 2
  /-- STO: the filtered levels, gate drive removed, gate drive available (R230, R231, R241). -/
  stoA : Bool
  stoB : Bool
  stoActive : Bool
  gateOk : Bool
  /-- An STO_ACTIVE due at the next tick, with its D1 (R230); reset none. -/
  stoDue : Option Nat
  /-- GCTL_PWR.DONE, and the checkpoint of PREP written (R441); reset false. -/
  done : Bool
  prepCkpt : Bool
  /-- GCTL_READY0–9 as last reported (R422, R424); reset 0. -/
  ready : List Word
  deriving DecidableEq, Repr

/-- What the block sends out: DMA reads and writes, MSI-X messages, line frames and markers, SPI replies. -/
inductive Output
  /-- A DMA read by function `f` of `len` bytes at `addr`. -/
  | dmaRead (f : Fin 2) (addr : Nat) (len : Nat)
  /-- A DMA write by function `f` of bytes at `addr` (R72). -/
  | dmaWrite (f : Fin 2) (addr : Nat) (bytes : List Byte)
  /-- The MSI-X message of vector `v` of function `f` (R79, R80): the data that its table entry has written to the entry's address. -/
  | msix (f : Fin 2) (v : Fin 16) (addr : BitVec 64) (data : Word)
  /-- A line frame in a direction, 0 east, 1 west (R344). -/
  | lineFrame (dir : Fin 2) (bytes : List Byte)
  /-- A register read that completes to the host with the Poisoned bit set (R407). -/
  | poisonedRead
  /-- TICK out of ports (R345). -/
  | lineTick (ports : BitVec 2)
  /-- ESTOP out of ports (R345): the data bytes that follow K28.7, four times the byte and its inverse. -/
  | lineEstop (ports : BitVec 2) (bytes : List Byte)
  /-- The words of a service SPI read (R397). -/
  | spi (bytes : List Byte)
  /-- Quadrature counts of an emulation output: their number and sign, the clock of the first and their spacing in clocks, and in MODE 2
  the level of Z with each (R306, R307). -/
  | emulation (e : Fin 4) (counts : Int) (first : Nat) (spacing : Nat) (z : List Bool)
  /-- An emulation output's lines take a state and a level of Z from a clock on, without a count (R306–R308). -/
  | emuLines (e : Fin 4) (clk : Nat) (lines : BitVec 2) (z : Bool)
  deriving DecidableEq, Repr

/-- A captured companion word of a master (R27, R401): the master's code, the companion's address, the word. -/
structure Capture where
  master : Nat
  addr : Nat
  word : Word
  deriving DecidableEq, Repr

/-- The state of one GX-192 module, and the queue of the commands that wait. -/
structure State where
  frm : Frm
  hif : Hif
  sq : Vector Sq 16
  cq : Vector Cq 16
  eq : EvRing
  ord : OrdSt
  ax : Vector Axis 200
  cards : Vector Card 64
  cu : Vector CUnit 25
  hv : Vector HvState 8
  fbc : Vector FbChan 24
  sd : Vector StepIn 16
  trg : Vector Trig 64
  /-- The members of each group, ascending (R153); reset empty. -/
  grp : Vector (List AxisId) 32
  prb : Vector Probe 16
  emu : Vector Emu 4
  cmp : Cmp
  gran : GranSet
  pool : Vector Pool 7
  line : Line
  wb : Wb
  acc : Acc
  upd : Upd
  sys : Sys
  /-- The register file (R393): the words that differ from their reset values, by BAR0 offset, rising. -/
  regs : List (Nat × Word)
  /-- The captures of R401. -/
  caps : List Capture
  /-- The data of the last register read (R399, R403). -/
  bus : Word
  /-- The events of the clock that a command is working on, in the order of R410, their records still to be written; none between commands. -/
  gather : Option (List EvRec)
  /-- What has been sent out, oldest first. -/
  out : List Output
  /-- How many free values have been drawn (the model's own field, DESIGN CHOICE). -/
  free : Nat
  /-- The commands waiting, first in, first out. -/
  pending : List Instr
  deriving DecidableEq, Repr

/-! ### The state after reset -/

/-- The reset parameter set (R127); the class sets VMAX (R110). -/
def TtSet.reset (heavy : Bool) : TtSet where
  speed := 102400
  acc := 1024000
  dec := 1024000
  jacc := 102400000
  jdec := 102400000
  stopDec := 1024000
  qsDec := 10240000
  limLo := -2147483648
  limHi := 2147483647
  vmax := if heavy then 1536000 else 1024000
  policy := 0
  profile := 0
  shpForm := 0
  shpFreq := 1000
  shpDamp := 0
  cap := 0

/-- The reset values of R203. -/
def CoilSet.reset : CoilSet where
  card := 0
  itrim := 256
  pdEn := 1
  idMode := 0

/-- The reset values of R282. -/
def SgSet.reset : SgSet where
  mode := 1
  rsel := 0

/-- The reset values of R298. -/
def FbSet.reset : FbSet where
  chan := 255
  corr := 0
  num := 1
  den := 1
  tol := 640
  nc := 4

/-- The reset values of R200 and R281. -/
def CardHalf.reset : CardHalf where
  cls := 0
  res25 := 0
  ind := 0
  ke := 0
  tcr := 3930
  irun := 0
  hfrac := 128
  pddelay := 500
  pdramp := 100
  eramp := 1
  fcI := 500
  xmax := 5000
  dtcBand := 20
  ffMode := 1
  ffDelta := 0
  idfrac := 128
  rtol := 20
  ltol := 30
  twMax := 120
  idStill := 10
  shpForm := 0
  shpFreq := 1000
  shpDamp := 0
  sgVemf := 20
  sgVrip := 2
  sgAngle := 800
  sgN := 8
  sgNr := 32
  sgWarn := 600
  sgCollapse := 64
  sgNc := 16
  sgEmin := 400
  sgDetach := 16
  sgNd := 256
  sgFilt := 3
  sgKsal := 60
  sgReact := 1
  table := []

/-- A reference at rest at 0. -/
def RefPt.zero : RefPt where
  p := 0
  v := 0
  a := 0

/-- The Timetable's state at reset (R105, R146). -/
def TtState.reset : TtState where
  mode := .disabled
  modeNext := none
  faulted := none
  uNext := .zero
  u0 := .zero
  oNext := .zero
  o0 := .zero
  o1 := .zero
  o2 := .zero
  hist := []
  fill := .zero
  target := 0
  goal := .rest
  lim := ⟨0, 0, 0, 0, 0⟩
  own := ⟨0, 0, 0, 0, 0⟩
  running := .none
  runRing := none
  reversal := none
  reversing := false
  bypass := false
  profile := 0
  shaper := (0, 1000, 0)
  effFrame := 0
  ring := none
  parkDue := false
  posSetAt := []
  seen := 0

/-- A coil's state at reset (R205). -/
def Coil.reset : Coil where
  rhat := 0
  lhat := 0
  integ := 0
  iexp := 0
  iexp1 := 0
  iv := 0
  iv1 := 0
  ipk := 0
  badV := false
  badV1 := false
  badP := false
  dNext := 0
  d0 := 0
  clampNext := false
  dtcN := 0
  dtc0 := 0
  effN := 0
  eff0 := 0
  vN := 0
  v0 := 0
  sumV := 0
  sumI := 0
  sumL := 0
  cntL := 0
  rMeas := none
  lMeas := none
  openCnt := 0

/-- The coil drive of an axis at reset (R205). -/
def CdState.reset : CdState where
  phase := .off
  phaseNext := none
  phase1 := .off
  amp0 := 0
  amp1 := 0
  angNext := 0
  ang0 := 0
  ang1 := 0
  thN := 0
  th0 := 0
  dpN := 0
  dp0 := 0
  phaseAt := 0
  ca := .reset
  cb := .reset
  rsrc := 0
  lsrc := 0
  twind := 250
  twWarn := false
  idValid := false
  seq := none
  still := 0
  stillAt := 0
  stillLow := false
  smallA := false
  smallB := false
  offFor := 8

/-- The bridges of an axis at reset (R239). -/
def BrState.reset : BrState where
  shOn := ⟨0, 0, 0, 0⟩
  shCode := 0
  shCommit := false
  shIdent := false
  ident := false
  per := 5000
  raw := ⟨0, 0, 0, 0⟩
  code := 0
  on := ⟨0, 0, 0, 0⟩
  hiEnd := 0
  before := []
  mask := 0
  wait := none
  present := 0
  prA := ⟨false, 0, 0⟩
  prB := ⟨false, 0, 0⟩
  faultOff := false
  byHalt := false
  tail := false
  unmaskedFor := 16

/-- The estimator of an axis at reset (R284). -/
def SgState.reset : SgState where
  state := .unarmed
  method := .none
  lastEmf := false
  loadedA := false
  loadedE := false
  filtA := 0
  filtE := 0
  rawA := 0
  rawE := 0
  rho := 0
  eexp := 0
  acnt := 0
  ccnt := 0
  dcnt := 0
  travel := 0
  emfFrames := 0
  kSum := 0
  kCnt := 0
  kappa := none
  warn := false
  warnRdy := true
  hush := false
  report := none

/-- The step-loss correction of an axis at reset (R311). -/
def FbState.reset : FbState where
  assoc := none
  assocAt := none
  ncnt := 0
  lastN := 0
  susp := false
  err := 0
  pos := 0
  lastFr := 0

/-- An axis at reset; `heavy` for axes 192–199. -/
def Axis.reset (heavy : Bool) : Axis where
  act := .reset heavy
  stg := .reset heavy
  qlow := 0
  lagmax := 65536
  coilA := .reset
  coilS := .reset
  sgA := .reset
  sgS := .reset
  fbA := .reset
  fbS := .reset
  tt := .reset
  fol := none
  ahead := none
  dropFr := 0
  cd := .reset
  br := .reset
  sg := .reset
  fb := .reset
  due := []
  dropDue := 0
  back := []
  found := []

/-- A submission ring at reset (R81). -/
def Sq.reset : Sq where
  state := .disabled
  fcount := 0
  pcount := 0
  retryRef := 0
  fresh := 0
  stall := 0
  lastAc := 0xFF
  attempts := 0
  tries := 0
  tried := 0
  wait := false
  flight := none
  badP := []

/-- A completion ring at reset (R81). -/
def Cq.reset : Cq where
  enabled := false
  wcount := 0
  head := 0
  waiting := []
  fullDue := false
  unsig := 0
  oldest := none
  badH := []

/-- The event ring at reset (R81). -/
def EvRing.reset : EvRing where
  enabled := false
  wcount := 0
  head := 0
  seq := 0
  dropped := 0
  firstDrop := 0
  unsig := 0
  oldest := none
  badH := []

/-- The host interface at reset (R81); MSI-X enabled in both functions, every vector masked. -/
def Hif.reset : Hif where
  linkUp := false
  lostAt := none
  msixEn := 3
  mask0 := 0xFFFF
  mask1 := 0xFFFF
  pend0 := 0
  pend1 := 0
  table0 := List.replicate 16 ⟨0, 0⟩
  table1 := List.replicate 16 ⟨0, 0⟩
  perst := false
  retryStatus := true
  dbFlight := []
  rbFlight := []
  dbPending := false
  dbAgain := 0
  rbAgain := 0
  held := []
  discarded := 0
  turn := 0

/-- The costs of the release that the manual describes, by item (R43). -/
def resetCosts : List Nat :=
  [0, 6, 20, 120, 150, 110, 150, 16, 24, 24, 24, 10, 256, 1600, 400, 0, 0, 24, 40, 176, 240, 208, 280, 64]

/-- The frame at reset (R42). -/
def Frm.reset : Frm where
  count := 0
  started := false
  lock := false
  outage := none
  src := false
  rate := 0
  adm := []
  refsOk := 0
  costs := resetCosts
  lineCost := false

/-- A carrier unit at reset (R206, R240, R339). -/
def CUnit.reset : CUnit where
  ofs := 0
  skipLoad := none
  own := 0
  trim := 0
  dt := 12
  blank := 40
  valley := List.replicate 16 0
  peak := List.replicate 16 0
  vmV := 0
  vmP := 0
  temps := []
  tWarn := false
  tShut := false
  cClock := false
  cHalt := false
  cWdog := false
  cParity := false
  safe := false
  tripped := 0
  held := 0
  cutV := List.replicate 16 none
  cutP := List.replicate 16 none
  highs0 := []
  brakeAt := none
  trips := List.replicate 32 0
  tripSeen := 0
  latch := 0
  relPend := 0
  commit := 0
  cmpLo := 0xFFFF
  cmpHi := 0xFFFF
  unset := 0xFFFF
  unsetRst := 0xFFFF
  ov := true
  ovUnset := true
  regen := true
  ovSeen := false
  dutiesOk := false
  afterPeak := false
  calOk := false
  cal := none
  refErr := false
  forced := false
  ofsFr := List.replicate 16 0

/-- A heavy axis' gate drive at reset (R264). -/
def HvState.reset : HvState where
  dt := 0x28
  legs := [0, 0, 0, 0]
  rel := 0
  low := 0
  fbSeen := 0
  rfSeen := 0
  vdsSeen := 0
  fbOld := 0
  gpOn := 0x0F14402F
  gpOff := 0x0F14402F
  fresh := 0
  freshDt := [0, 0, 0, 0]
  edges := []

/-- A feedback channel at reset (R310). -/
def FbChan.reset : FbChan where
  count := 0
  latch := 0
  st := 0
  phi := 0
  valid := false
  lost := false
  suspect := false
  refd := false
  satLo := false
  satHi := false
  org := 0
  delta := 0
  amp := 0
  check := false
  reval := false
  illSeen := false
  ampOut := 0
  z := false
  past := []

/-- A step input pair at reset (R170). -/
def StepIn.reset : StepIn where
  count := 0
  latch := 0
  raw := 0
  opened := false
  stepLv := false
  dirLv := false
  cfg := 0x5400

/-- A trigger slot at reset (R170, R430). -/
def Trig.reset : Trig where
  armed := false
  kind := 0
  edge := 0
  source := 0
  pos := 0
  frame := 0
  auto := false
  fires := 0
  last := 0
  firedAt := none

/-- An emulation output at reset (R313). -/
def Emu.reset : Emu where
  count := 0
  base := 0
  backlog := 0
  lines := 0
  z := false

/-- Supplies and comparators at reset: every side tripped (R317, R338). -/
def Cmp.reset : Cmp where
  vmLo := 0x7F
  vmHi := 0x7F
  vmUnset := 0x7F
  vmHiUnset := 0x7F
  railLo := 0x1FFF
  railHi := 0x1FFF
  railRel := 0
  railBad := 0
  sweep := none
  sweepAt := 0
  sweepFrom := 0
  failed := []
  heldWr := none
  fallback := []
  brkReq := 0
  brkOn := 0
  brkOff := 0
  brkSeen := 0
  brkFr := 0
  brkCnt := List.replicate 7 0
  brkPrev := List.replicate 7 0
  dieWarn := false
  vmMv := List.replicate 7 0
  railMv := List.replicate 13 0
  vghLock := 3
  vghFell := 0

/-- A pool at reset (R340). -/
def Pool.reset : Pool where
  d := 256
  gr := 256
  gh := 256
  grNow := 256
  ghNow := 256
  isOver := false

/-- The Granary's allowances and model at reset (R340). -/
def GranSet.reset : GranSet where
  modAllow := 60000
  base := 7000
  tile := 12000
  hvy := 20000
  sw := 40
  ronp := 241

/-- A station not yet seen. -/
def Peer.reset : Peer where
  estop := false
  parked := false
  rate := 0
  alive0 := none
  alive1 := none
  seen := none
  base0 := none
  base1 := none
  got := []
  lost := false
  stopAt := 0

/-- The line at reset (R365). -/
def Line.init : Line where
  mode := .off
  present := 0
  pos := 0
  topo := 0
  map := List.replicate 8 none
  up := 0
  upAt0 := 0
  upAt1 := 0
  own := none
  estop := 0
  trim := 0
  trimNow := 0
  trimNext := 0
  err := 0
  locked := false
  delay0 := 0
  delay1 := 0
  measured := 0
  port := 0
  size := 0
  tick0 := none
  tick1 := none
  loop := true
  round := none
  missed := 0
  gotTick := false
  peers := List.replicate 8 Peer.reset
  tx0 := 0xFF
  tx1 := 0xFF
  bad0 := 0
  bad1 := 0
  bars := []
  tally := []
  toSend := []
  snaps := []
  dones := []
  reset := none
  joinAt := none
  topoD0 := 0
  chkSeen := 0

/-- The standby contents of a device that has kept none: all zero (R374). -/
def Standby.reset : Standby where
  rtc := 0
  rtcValid := false
  energy := List.replicate 7 ⟨0, 0, (0, 1), (0, 1)⟩
  moves := List.replicate 200 0
  powerS := 0
  runS := 0
  audit := 0
  recSeq := 0
  tamp0 := 0
  tamp1 := 0

/-- The reset weighing table (R382). -/
def WbTable.reset : WbTable where
  rs := List.replicate 7 5000
  minMove := 256
  tampEn := 3
  tampNorm := 0

/-- The Weighbridge of a device that has kept nothing (R390). -/
def Wb.reset : Wb where
  sb := .reset
  ckpt := .reset
  lostSb := false
  vbatLow := false
  copy := .reset
  hold := false
  snap := false
  rtcSet := none
  table := .reset
  tblGo := false
  ver := 0
  crc := 0
  pad := false
  away := 0
  level := 0
  tampDue := 0
  since0 := 0
  since1 := 0
  rec0 := none
  rec1 := none
  log := []
  logNext := 1
  pkg := none
  work := none
  inst := 0
  reason := 0
  req := none
  taken := none
  record := []
  ran := false
  checked := false
  owed := []

/-- Access control at reset (R414). -/
def Acc.reset : Acc where
  admin := false
  fails := 0
  blocked := false
  respLo := 0
  chal := 0
  locked := []
  lockWin := 0
  ceWin := 0
  parity := []
  parUnits := 0

/-- Updates at reset (R444): slot A holds the release of R43 as version 1, the other slots are empty. -/
def Upd.reset : Upd where
  state := 0
  reason := 0
  job := none
  boot := false
  slotA := ⟨1, resetCosts, List.replicate 7 0, true⟩
  slotB := ⟨0, [], [], false⟩
  coreSlot := 0
  coreVer := List.replicate 7 1
  coreFmt := List.replicate 7 0
  bank := 0
  halted := 0
  restart := 0
  switching := none
  consists := List.replicate 4 none
  inForce := List.replicate 7 0
  devInForce := 0
  loaded := 0
  devLoaded := false
  pass := none
  calFails := 0
  passFrom := 0

/-- Reset, boot and STO at reset (R241, R443). -/
def Sys.reset : Sys where
  sealedVariant := false
  powered := true
  booted := false
  cause := 0
  fallback := false
  bootSlot := false
  consistBad := false
  cfgsel := 0
  stoA := false
  stoB := false
  stoActive := false
  gateOk := false
  stoDue := none
  done := false
  prepCkpt := false
  ready := List.replicate 10 0

/-- The module right after reset (R391, R416). -/
def State.reset : State where
  frm := .reset
  hif := .reset
  sq := .replicate 16 .reset
  cq := .replicate 16 .reset
  eq := .reset
  ord := ⟨0, [], []⟩
  ax := .ofFn fun x => .reset (decide (192 ≤ x.val))
  cards := .replicate 64 ⟨.reset, .reset⟩
  cu := .replicate 25 .reset
  hv := .replicate 8 .reset
  fbc := .replicate 24 .reset
  sd := .replicate 16 .reset
  trg := .replicate 64 .reset
  grp := .replicate 32 []
  prb := .replicate 16 ⟨false, none, none⟩
  emu := .replicate 4 .reset
  cmp := .reset
  gran := .reset
  pool := .replicate 7 .reset
  line := .init
  wb := .reset
  acc := .reset
  upd := .reset
  sys := .reset
  regs := []
  caps := []
  bus := 0
  gather := none
  out := []
  free := 0
  pending := []

end Sys2Proof.Machine
end

