-- ==== Sys2Proof/Machine/Ops.lean ====
section
/-! DEFINITION. The named operations that every meaning is built of: fields of words, the register file, the
axes and the other arrays, little-endian bytes and CRC-32C (R9, R11), MSI-X (R79, R80), the event ring
(R75–R77, R409) and the completion rings (R71–R74, R102, R48). -/

namespace Sys2Proof.Machine

/-! ### Words and bytes -/

/-- The field `[hi:lo]` of a word (R10). -/
def fld (w : Word) (hi lo : Nat) : Nat := (w.toNat / 2 ^ lo) % 2 ^ (hi + 1 - lo)

/-- Bit `i` of a word. -/
def bitOf (w : Word) (i : Nat) : Bool := w.getLsbD i

/-- A number as a word, modulo 2^32. -/
def wd (n : Nat) : Word := BitVec.ofNat 32 n

/-- A signed number as a word, modulo 2^32 (two's complement). -/
def wdI (n : Int) : Word := BitVec.ofInt 32 n

/-- 1 for true. -/
def b2n (b : Bool) : Nat := if b then 1 else 0

/-- The word with the bits of `mask` taken from `v` and the others from `w`. -/
def mergeW (w v : Word) (mask : Nat) : Word := (w &&& ~~~(wd mask)) ||| (v &&& wd mask)

/-- `n` bytes of a number, least-significant first (R9). -/
def leBytes : Nat → Nat → List Byte
  | 0, _ => []
  | n + 1, v => BitVec.ofNat 8 v :: leBytes n (v / 256)

/-- The number that bytes spell, least-significant first (R9). -/
def leNat : List Byte → Nat
  | [] => 0
  | b :: bs => b.toNat + 256 * leNat bs

/-- One bit of CRC-32C, reflected (R11). -/
def crcBit (c : BitVec 32) : BitVec 32 := if c.getLsbD 0 then (c >>> 1) ^^^ 0x82F63B78#32 else c >>> 1

/-- One byte of CRC-32C. -/
def crcByte (c : BitVec 32) (b : Byte) : BitVec 32 :=
  let x := c ^^^ b.setWidth 32
  crcBit (crcBit (crcBit (crcBit (crcBit (crcBit (crcBit (crcBit x)))))))

/-- CRC-32C of a list of bytes (R11). -/
def crc32c (bs : List Byte) : Word := ~~~(bs.foldl crcByte 0xFFFFFFFF#32)

/-- A signed number read from the low `n` bits of `v`. -/
def sext (n : Nat) (v : Nat) : Int := (BitVec.ofNat n v).toInt

/-- `n` saturated to a signed field of `w` bits. -/
def satS (w : Nat) (n : Int) : Int := clampInt (-(2 ^ (w - 1) : Nat)) ((2 ^ (w - 1) : Nat) - 1) n

/-- `n` saturated to an unsigned field of `w` bits. -/
def satU (w : Nat) (n : Nat) : Nat := min n (2 ^ w - 1)

/-- Two 16-bit halves as a word; each taken modulo 2^16. -/
def hiLo (h l : Int) : Word := wd ((BitVec.ofInt 16 h).toNat * 65536 + (BitVec.ofInt 16 l).toNat)

/-! ### The register file (R393) -/

/-- The word listed at `a`. -/
def rfGet (l : List (Nat × Word)) (a : Nat) : Option Word := (l.find? fun e => e.1 == a).map (·.2)

/-- The list with `a` listed as `w`, in rising order of addresses. -/
def rfPut (a : Nat) (w : Word) : List (Nat × Word) → List (Nat × Word)
  | [] => [(a, w)]
  | e :: l => if a < e.1 then (a, w) :: e :: l else if e.1 = a then (a, w) :: l else e :: rfPut a w l

/-- The list without `a`. -/
def rfDel (a : Nat) (l : List (Nat × Word)) : List (Nat × Word) := l.filter fun e => e.1 != a

/-- The canonical form of the register file: addresses strictly rising, and no entry equal to its reset word. -/
def regsWf (l : List (Nat × Word)) : Bool :=
  decide (l.Pairwise fun x y => x.1 < y.1) && l.all fun e => e.2 != resetWord e.1

/-- The stored bits of the register at `a`. -/
def State.reg (s : State) (a : Nat) : Word := (rfGet s.regs a).getD (resetWord a)

/-- Store `w` at `a`, in the canonical form. -/
def State.setReg (s : State) (a : Nat) (w : Word) : State :=
  { s with regs := if w = resetWord a then rfDel a s.regs else rfPut a w s.regs }

/-- Set the bits of `mask` at `a`. -/
def State.orReg (s : State) (a : Nat) (mask : Nat) : State := s.setReg a (s.reg a ||| wd mask)

/-- Clear the bits of `mask` at `a`. -/
def State.clrReg (s : State) (a : Nat) (mask : Nat) : State := s.setReg a (s.reg a &&& ~~~(wd mask))

/-- Replace the bits of `mask` at `a` by those of `v`. -/
def State.putReg (s : State) (a : Nat) (mask : Nat) (v : Nat) : State := s.setReg a (mergeW (s.reg a) (wd v) mask)

/-- A saturating counter at `a` counts one. -/
def State.incReg (s : State) (a : Nat) : State := s.setReg a (satInc (s.reg a))

/-- A saturating counter at `a` takes `n` more. -/
def State.addReg (s : State) (a n : Nat) : State := s.setReg a (wd (min ((s.reg a).toNat + n) 0xFFFFFFFF))

/-- The field `[hi:lo]` of the register at `a`. -/
def State.rf (s : State) (a hi lo : Nat) : Nat := fld (s.reg a) hi lo

/-- Bit `i` of the register at `a`. -/
def State.rb (s : State) (a i : Nat) : Bool := bitOf (s.reg a) i

/-- The 64-bit value of a _LO and _HI pair at `a`. -/
def State.reg64 (s : State) (a : Nat) : Nat := (s.reg a).toNat + 2 ^ 32 * (s.reg (a + 4)).toNat

/-! ### The arrays of the state -/

/-- Apply `f` to axis `x`. -/
def State.modAx (s : State) (x : AxisId) (f : Axis → Axis) : State := { s with ax := s.ax.set x (f (s.ax.get x)) }
/-- Apply `f` to the Timetable's state of axis `x`. -/
def State.modTt (s : State) (x : AxisId) (f : TtState → TtState) : State := s.modAx x fun a => { a with tt := f a.tt }
/-- Apply `f` to the coil drive's state of axis `x`. -/
def State.modCd (s : State) (x : AxisId) (f : CdState → CdState) : State := s.modAx x fun a => { a with cd := f a.cd }
/-- Apply `f` to the bridges' state of axis `x`. -/
def State.modBr (s : State) (x : AxisId) (f : BrState → BrState) : State := s.modAx x fun a => { a with br := f a.br }
/-- Apply `f` to the estimator of axis `x`. -/
def State.modSg (s : State) (x : AxisId) (f : SgState → SgState) : State := s.modAx x fun a => { a with sg := f a.sg }
/-- Apply `f` to the step-loss correction of axis `x`. -/
def State.modFbx (s : State) (x : AxisId) (f : FbState → FbState) : State := s.modAx x fun a => { a with fb := f a.fb }
/-- Apply `f` to submission ring `q`. -/
def State.modSq (s : State) (q : RingId) (f : Sq → Sq) : State := { s with sq := s.sq.set q (f (s.sq.get q)) }
/-- Apply `f` to completion ring `q`. -/
def State.modCq (s : State) (q : RingId) (f : Cq → Cq) : State := { s with cq := s.cq.set q (f (s.cq.get q)) }
/-- Apply `f` to carrier unit `u`. -/
def State.modCu (s : State) (u : CarrierId) (f : CUnit → CUnit) : State := { s with cu := s.cu.set u (f (s.cu.get u)) }
/-- Apply `f` to heavy axis `h`. -/
def State.modHv (s : State) (h : HeavyId) (f : HvState → HvState) : State := { s with hv := s.hv.set h (f (s.hv.get h)) }
/-- Apply `f` to feedback channel `c`. -/
def State.modFbc (s : State) (c : Fin 24) (f : FbChan → FbChan) : State := { s with fbc := s.fbc.set c (f (s.fbc.get c)) }
/-- Apply `f` to step input pair `p`. -/
def State.modSd (s : State) (p : Fin 16) (f : StepIn → StepIn) : State := { s with sd := s.sd.set p (f (s.sd.get p)) }
/-- Apply `f` to trigger slot `m`. -/
def State.modTrg (s : State) (m : Fin 64) (f : Trig → Trig) : State := { s with trg := s.trg.set m (f (s.trg.get m)) }
/-- Apply `f` to emulation output `e`. -/
def State.modEmu (s : State) (e : Fin 4) (f : Emu → Emu) : State := { s with emu := s.emu.set e (f (s.emu.get e)) }
/-- Apply `f` to pool `p`. -/
def State.modPool (s : State) (p : Fin 7) (f : Pool → Pool) : State := { s with pool := s.pool.set p (f (s.pool.get p)) }
/-- Apply `f` to motor card `c`. -/
def State.modCard (s : State) (c : Fin 64) (f : Card → Card) : State := { s with cards := s.cards.set c (f (s.cards.get c)) }

/-- Every number below `n`, ascending. -/
abbrev allFin (n : Nat) : List (Fin n) := List.finRange n

/-- Run `f` over a list in order, carrying the state. -/
def State.forAll {α : Type} (s : State) (l : List α) (f : State → α → State) : State := l.foldl f s

/-- Append to what the block sends out. -/
def State.emit (s : State) (o : Output) : State := { s with out := s.out ++ [o] }

/-- Draw a free value of 32 bits, one that the spec does not state. -/
def State.drawFree (s : State) : Word × State := (Config.freeWord s.free, { s with free := s.free + 1 })

/-- Is axis `x` heavy (R5)? -/
def heavy (x : AxisId) : Bool := decide (192 ≤ x.val)
/-- The carrier unit of an axis: its bay, or the heavy group (R20). -/
def unitOf (x : AxisId) : CarrierId := ⟨if x.val < 192 then x.val / 8 else 24, by split <;> omega⟩
/-- The VM domain, and pool, of an axis: its tile, or 6 (R326, R329). -/
def domOf (x : AxisId) : DomainId := ⟨if x.val < 192 then x.val / 32 else 6, by split <;> omega⟩
/-- The VM domain of a carrier unit. -/
def domOfUnit (u : CarrierId) : DomainId := ⟨if u.val < 24 then u.val / 4 else 6, by split <;> omega⟩
/-- The place of an axis in its unit: j = 0–7, or h. -/
def slotOf (x : AxisId) : HeavyId := ⟨if x.val < 192 then x.val % 8 else x.val - 192, by split <;> omega⟩
/-- The axes of a carrier unit, ascending. -/
def axesOf (u : CarrierId) : List AxisId := (allFin 200).filter fun x => unitOf x == u
/-- The axes of a VM domain, ascending. -/
def axesOfDom (d : DomainId) : List AxisId := (allFin 200).filter fun x => domOf x == d
/-- The axis at place `j` of a carrier unit. -/
def axisAt (u : CarrierId) (j : HeavyId) : AxisId := ⟨8 * u.val + j.val, by omega⟩
/-- A heavy axis by its number h (R5). -/
def hvAxis (h : HeavyId) : AxisId := ⟨192 + h.val, by omega⟩
/-- The event UNIT of a carrier unit (R411). -/
def unitCode (u : CarrierId) : Nat := if u.val < 24 then 0x1B0 + u.val else 0x1C8

/-- N, the counter clocks of a frame, at each rate (R16). -/
def clocksAt : Fin 4 → Nat
  | 0 => 5000
  | 1 => 6250
  | 2 => 8000
  | 3 => 10000
/-- f, the frame rate in Hz (R16). -/
def rateHz : Fin 4 → Nat
  | 0 => 40000
  | 1 => 32000
  | 2 => 25000
  | 3 => 20000
/-- N at the rate in force. -/
def State.nClk (s : State) : Nat := clocksAt s.frm.rate
/-- f at the rate in force, Hz. -/
def State.hz (s : State) : Nat := rateHz s.frm.rate
/-- Is frame `a` before frame `b`, on the circle of the counter? -/
def frameLt (a b : FrameNo) : Bool := decide (0 < (b - a).toInt)
/-- Is frame `a` before frame `b`, or the same? -/
def frameLe (a b : FrameNo) : Bool := decide (0 ≤ (b - a).toInt)
/-- The frames from `f` to the frame in progress. -/
def State.since (s : State) (f : FrameNo) : Nat := (s.frm.count - f).toInt.toNat
/-- A time in ms as frames at the rate in force, rounded up. -/
def State.msFrames (s : State) (ms : Nat) : Nat := (ms * s.hz + 999) / 1000

end Sys2Proof.Machine

/-! ### Masters (R394) -/
namespace Sys2Proof

/-- The code of a master. -/
def Master.code : Master → Nat
  | .pf0 => 0
  | .pf1 => 1
  | .spiAdmin => 2
  | .spiOpen => 3
  | .supervisor => 4
/-- Does a master have admin rights? -/
def Master.admin : Master → Bool
  | .pf0 => true
  | .pf1 => false
  | .spiAdmin => true
  | .spiOpen => false
  | .supervisor => true

end Sys2Proof

namespace Sys2Proof.Machine

/-! ### MSI-X (R79, R80) -/

/-- The entry of vector `v` in the MSI-X table of function `f` (R44). -/
def Hif.vector (h : Hif) (f : Fin 2) (v : Fin 16) : MsixEntry := (if f = 0 then h.table0 else h.table1).getD v ⟨0, 0⟩

/-- Send the message of vector `v` of function `f`. -/
def State.sendMsix (s : State) (f : Fin 2) (v : Fin 16) : State :=
  s.emit (.msix f v (s.hif.vector f v).addr (s.hif.vector f v).data)

/-- Signal vector `v` of function `f`: its message goes out, or its pending bit is set while it is masked. -/
def State.signal (s : State) (f : Fin 2) (v : Fin 16) : State :=
  if s.hif.msixEn.getLsbD f then
    if f = 0 then
      if s.hif.mask0.getLsbD v then { s with hif := { s.hif with pend0 := s.hif.pend0 ||| BitVec.ofNat 16 (2 ^ v.val) } }
      else s.sendMsix f v
    else
      if s.hif.mask1.getLsbD v then { s with hif := { s.hif with pend1 := s.hif.pend1 ||| BitVec.ofNat 16 (2 ^ v.val) } }
      else s.sendMsix f v
  else s

/-- The mask bit of vector `v` of function `f` is cleared, and its pending message goes out (R80). -/
def State.unmask (s : State) (f : Fin 2) (v : Fin 16) : State :=
  let b : BitVec 16 := BitVec.ofNat 16 (2 ^ v.val)
  if f = 0 then
    let t := { s with hif := { s.hif with mask0 := s.hif.mask0 &&& ~~~b, pend0 := s.hif.pend0 &&& ~~~b } }
    if s.hif.pend0.getLsbD v then t.sendMsix f v else t
  else
    let t := { s with hif := { s.hif with mask1 := s.hif.mask1 &&& ~~~b, pend1 := s.hif.pend1 &&& ~~~b } }
    if s.hif.pend1.getLsbD v then t.sendMsix f v else t

/-- The mask bit of vector `v` of function `f` is set (R80). -/
def State.maskVector (s : State) (f : Fin 2) (v : Fin 16) : State :=
  let b : BitVec 16 := BitVec.ofNat 16 (2 ^ v.val)
  { s with hif := if f = 0 then { s.hif with mask0 := s.hif.mask0 ||| b } else { s.hif with mask1 := s.hif.mask1 ||| b } }

/-- The function that owns submission ring `q` and completion ring `q` (R46). -/
def State.owner (s : State) (q : RingId) : Fin 2 := if s.rb (Adr.HIF_SQ_CFG q) 29 then 1 else 0
/-- The function that owns the event ring (R46). -/
def State.eqOwner (s : State) : Fin 2 := if s.rb Adr.HIF_EQ_CFG 29 then 1 else 0
/-- The MSI-X vector in a ring's CFG word. -/
def vecOf (cfg : Word) : Fin 16 := ⟨fld cfg 11 8, by simp [fld]; omega⟩

/-! ### The event ring (R75–R77) -/

/-- RFLAGS: PHASE of a count in a ring of 2^size entries, and LATE (R71, R72). -/
def rflags (count size : Nat) (late : Bool) : Byte :=
  BitVec.ofNat 8 ((if (count / 2 ^ size) % 2 = 0 then 1 else 0) + 2 * b2n late)

/-- The 32 bytes of an event record (R75). -/
def EvRec.bytes (r : EvRec) (flags : Byte) : List Byte :=
  let b := [BitVec.ofNat 8 r.event, 0] ++ leBytes 2 r.unit ++ leBytes 4 r.seq.toNat ++ leBytes 8 r.frame.toNat
    ++ leBytes 4 r.d0.toNat ++ leBytes 4 r.d1.toNat ++ [0, 0, 0, flags]
  b ++ leBytes 4 (crc32c b).toNat

/-- Entries of the event ring that the host has not consumed. -/
def State.eqUsed (s : State) : Nat := (s.eq.wcount - s.eq.head).toNat
/-- log2 of the event ring's entries. -/
def State.eqSize (s : State) : Nat := s.rf Adr.HIF_EQ_CFG 4 0

/-- Signal the event ring's vector (R80). -/
def State.signalEq (s : State) : State :=
  let t := { s with eq := { s.eq with unsig := 0, oldest := none } }
  t.signal t.eqOwner (vecOf (t.reg Adr.HIF_EQ_CFG))

/-- Write one record at the event ring's write count. -/
def State.putEvent (s : State) (r : EvRec) (late : Bool) : State :=
  let size := s.eqSize
  let n := s.eq.wcount.toNat
  let t := s.emit (.dmaWrite s.eqOwner (s.reg64 Adr.HIF_EQ_BASE_LO + 32 * (n % 2 ^ size)) (r.bytes (rflags n size late)))
  let u := { t with eq := { t.eq with wcount := t.eq.wcount + 1, unsig := t.eq.unsig + 1,
                                      oldest := some (t.eq.oldest.getD t.frm.count) } }
  if u.rf Adr.HIF_EQ_CFG 19 12 ≤ u.eq.unsig then u.signalEq else u

/-- Write an event's record, or drop it when only the reserved entry is left (R77). -/
def State.writeEvent (s : State) (r : EvRec) (late : Bool) : State :=
  if s.eqUsed < 2 ^ s.eqSize - 1 ∧ s.eq.dropped = 0 then s.putEvent r late
  else { s with eq := { s.eq with dropped := min (s.eq.dropped + 1) 65535,
                                  firstDrop := if s.eq.dropped = 0 then r.seq else s.eq.firstDrop } }

/-- Is event source `e` enabled (R409)? -/
def State.evEnabled (s : State) (e : Nat) : Bool :=
  e == 46 || e == 47 || e == 55 || e == 57 || e == 58 ||
    s.rb (if e < 32 then Adr.EVT_EN_LO else Adr.EVT_EN_HI) (e % 32)

/-- Hold a record while the link is down, or discard and count it (R48). -/
def State.hold (s : State) (h : HeldRec) : State :=
  if s.hif.held.length < 2048 then { s with hif := { s.hif with held := s.hif.held ++ [h] } }
  else { s with hif := { s.hif with discarded := s.hif.discarded + 1 } }

/-- The record of an event, with the next SEQ (R75). -/
def State.tell (s : State) (r : EvRec) : State :=
  let e := { r with seq := s.eq.seq }
  let u := { s with eq := { s.eq with seq := s.eq.seq + 1 } }
  if u.hif.linkUp then u.writeEvent e false else u.hold (.event e)

/-- One more event of a clock, in the order of the event numbers and of the UNITs (R410). -/
def insEvent (r : EvRec) : List EvRec → List EvRec
  | [] => [r]
  | a :: l => if r.event < a.event ∨ (r.event = a.event ∧ r.unit < a.unit) then r :: a :: l else a :: insEvent r l

/-- An occurrence of event `e` in frame `fr` (R75, R409): its pending bit and counter, and, where it is enabled and the
event ring runs, its record, which waits while the events of the clock are gathered. -/
def State.raiseAt (s : State) (fr : FrameNo) (e unit : Nat) (d0 d1 : Word) : State :=
  let t := (s.orReg (if e < 32 then Adr.EVT_PEND_LO else Adr.EVT_PEND_HI) (2 ^ (e % 32))).incReg (Adr.EVT_CNT (e % 64))
  if t.evEnabled e ∧ t.eq.enabled then
    let r : EvRec := ⟨e, unit, 0, fr, d0, d1⟩
    match t.gather with
    | some l => { t with gather := some (insEvent r l) }
    | none => t.tell r
  else t

/-- From here on the events of one clock are gathered (R410). -/
def State.gathering (s : State) : State := { s with gather := some (s.gather.getD []) }

/-- The records of the gathered events, in their order (R410). -/
def State.tellAll (s : State) : State := (s.gather.getD []).foldl State.tell { s with gather := none }

/-- An occurrence of event `e` in the frame in progress. -/
def State.raise (s : State) (e unit : Nat) (d0 d1 : Word) : State := s.raiseAt s.frm.count e unit d0 d1

/-- The overflow record in the reserved entry, once a head count has freed an entry (R77). -/
def State.eqOverflow (s : State) : State :=
  if s.eq.enabled ∧ s.eq.dropped ≠ 0 ∧ s.eqUsed < 2 ^ s.eqSize - 1 ∧ s.hif.linkUp then
    let n := s.eq.dropped
    let f := s.eq.firstDrop
    let t := (s.orReg Adr.EVT_PEND_LO 32).incReg (Adr.EVT_CNT 5)
    let u := { t with eq := { t.eq with dropped := 0 } }
    if u.evEnabled 5 then
      { u with eq := { u.eq with seq := u.eq.seq + 1 } }.putEvent ⟨5, 0x120, t.eq.seq, t.frm.count, wd n, f⟩ false
    else u
  else s

/-! ### What takes effect in the next frame (R86, R112) -/

/-- An axis as descriptor `n` finds it, with the card that it names where it names one. -/
def Axis.asFound (a : Axis) (n : Nat) : AxisBack where
  desc := n
  act := a.act
  stg := a.stg
  qlow := a.qlow
  lagmax := a.lagmax
  coilA := a.coilA
  coilS := a.coilS
  sgA := a.sgA
  sgS := a.sgS
  fbA := a.fbA
  fbS := a.fbS
  tt := a.tt
  fol := a.fol
  ahead := a.ahead
  cd := a.cd
  wait := a.br.wait
  assoc := a.fb.assoc
  due := a.due
  dropDue := a.dropDue

/-- A prefetch store as it stood, with what has come to it since, in `f` (R167). -/
def FollowSt.caughtUp (b : FollowSt) (f : Option FollowSt) : FollowSt :=
  match f with
  | some g => if g.desc = b.desc then { b with lines := g.lines, late := g.late, asked := g.asked } else b
  | none => b

/-- The Timetable's state as a descriptor found it: FAULTED, a link loss and an observation stay as they are. -/
def TtState.restored (t b : TtState) : TtState :=
  { b with
    faulted := t.faulted
    parkDue := t.parkDue
    seen := t.seen
    ring := match b.ring, t.ring with
      | some r, some q => if q.desc = r.desc then some q else some r
      | r, _ => r }

/-- An axis as a descriptor found it, but for what the frame in progress has brought since. -/
def Axis.restored (a : Axis) (b : AxisBack) : Axis :=
  { a with
    act := b.act
    stg := b.stg
    qlow := b.qlow
    lagmax := b.lagmax
    coilA := b.coilA
    coilS := b.coilS
    sgA := b.sgA
    sgS := b.sgS
    fbA := b.fbA
    fbS := b.fbS
    tt := a.tt.restored b.tt
    fol := b.fol
    ahead := b.ahead.map fun f => f.caughtUp (a.fol <|> a.ahead)
    cd := { a.cd with phaseNext := b.cd.phaseNext, seq := b.cd.seq, angNext := b.cd.angNext }
    br := { a.br with wait := b.wait }
    due := b.due
    dropDue := b.dropDue }

/-- An axis as it stands in the frame in progress, whatever takes effect in the next one. -/
def Axis.now (a : Axis) : Axis :=
  match a.back.getLast? with
  | some b => a.restored b
  | none => a

/-- An axis as it will stand in the next frame for descriptor `n`: without what descriptors accepted later set up (R82). -/
def Axis.asOf (a : Axis) (n : Nat) : Axis :=
  match (a.back.takeWhile fun b => decide (n < b.desc)).getLast? with
  | some b => a.restored b
  | none => a

/-- A resistance and an inductance as a commit of CARD found them (R175). -/
def Coil.hatsOf (c o : Coil) : Coil := { c with rhat := o.rhat, lhat := o.lhat }

/-- The coil drive's estimates as a commit of CARD found them (R175, R182, R192). -/
def CdState.hatsOf (c o : CdState) : CdState :=
  { c with ca := c.ca.hatsOf o.ca, cb := c.cb.hatsOf o.cb, rsrc := o.rsrc, lsrc := o.lsrc, twind := o.twind, twWarn := o.twWarn,
           idValid := o.idValid }

/-- The parameters of an axis as a descriptor found them that is flushed in its frame of effect (R91), and the place and the association
where it was a POS_SET (`pos`), which an axis at rest keeps. -/
def Axis.unset (a : Axis) (b : AxisBack) (pos : Bool) : Axis :=
  { a with
    act := b.act
    stg := b.stg
    qlow := b.qlow
    lagmax := b.lagmax
    coilA := b.coilA
    coilS := b.coilS
    sgA := b.sgA
    sgS := b.sgS
    fbA := b.fbA
    fbS := b.fbS
    cd := (let c := if a.coilA.card = b.coilA.card then a.cd else a.cd.hatsOf b.cd
           if pos then { c with angNext := b.cd.angNext, ang0 := b.cd.angNext } else c)
    tt := if pos then
        { a.tt with uNext := b.tt.u0, u0 := b.tt.u0, oNext := b.tt.o0, o0 := b.tt.o0, hist := b.tt.hist, fill := b.tt.fill,
                    target := b.tt.target, posSetAt := b.tt.posSetAt }
      else a.tt
    fb := { a.fb with assoc := b.assoc, assocAt := none } }

/-! ### Requests of admission (R30, R31) -/

/-- Put a request of frame `f` in progress, behind those of its frame and of earlier ones, before those of later frames (R30). -/
def State.ask (s : State) (k : AdmKind) (f : FrameNo) : State :=
  let before (r : AdmReq) : Bool := frameLe r.frame f
  { s with frm := { s.frm with adm := s.frm.adm.takeWhile before ++ ⟨k, f, none⟩ :: s.frm.adm.dropWhile before } }

/-- Has the descriptor of a request ended, so that nothing is left to decide? -/
def State.dropped (s : State) (k : AdmKind) : Bool :=
  let ended (n : Nat) : Bool := !s.ord.descs.any fun d => d.acc == n && d.stage == .effect
  match k with
  | .commitTt n _ => ended n
  | .commitFb n _ => ended n
  | .consist n => ended n
  | .go _ _ _ _ => false
  | .line => false
  | .firmware _ _ => false

/-- BUSY: is a request in progress that has been made (R31)? A commit that will be a request of the next frame has not been made, and one
whose descriptor was flushed before it is none. -/
def State.admBusy (s : State) : Bool := s.frm.adm.any fun r => frameLe r.frame s.frm.count && !s.dropped r.kind

/-! ### Completion rings (R71–R74, R102) -/

/-- The 32 bytes of a completion record (R71). -/
def Rec.bytes (r : Rec) (rcount : Nat) (flags : Byte) : List Byte :=
  let b := [r.status, r.axis, r.alive, r.opcode] ++ leBytes 4 r.tag.toNat ++ leBytes 8 r.frame.toNat
    ++ leBytes 4 r.d0.toNat ++ leBytes 4 r.d1.toNat ++ leBytes 3 rcount ++ [flags]
  b ++ leBytes 4 (crc32c b).toNat

/-- RCOUNT of ring `q`: the count of its oldest descriptor in the device, or FCOUNT (R58). -/
def State.rcount (s : State) (q : RingId) : BitVec 24 :=
  match s.ord.descs.find? fun d => d.ring == q && !d.mute with
  | some d => d.count
  | none => (s.sq.get q).fcount

/-- log2 of completion ring `q`'s entries. -/
def State.cqSize (s : State) (q : RingId) : Nat := s.rf (Adr.HIF_CQ_CFG q) 4 0
/-- Is completion ring `q` FULL (R74)? -/
def State.cqFull (s : State) (q : RingId) : Bool :=
  decide (2 ^ s.cqSize q ≤ ((s.cq.get q).wcount - (s.cq.get q).head).toNat)

/-- Signal completion ring `q`'s vector (R80). -/
def State.signalCq (s : State) (q : RingId) : State :=
  let t := s.modCq q fun c => { c with unsig := 0, oldest := none }
  t.signal (t.owner q) (vecOf (t.reg (Adr.HIF_CQ_CFG q)))

/-- Write a record at completion ring `q`'s write count: PHASE, RCOUNT, FULL and the signal (R72, R74, R80). -/
def State.putRec (s : State) (q : RingId) (r : Rec) (late : Bool) : State :=
  let size := s.cqSize q
  let n := (s.cq.get q).wcount.toNat
  let t := s.emit (.dmaWrite (s.owner q) (s.reg64 (Adr.HIF_CQ_BASE_LO q) + 32 * (n % 2 ^ size))
    (r.bytes (s.rcount q).toNat (rflags n size late)))
  let u := t.modCq q fun c => { c with wcount := c.wcount + 1, unsig := c.unsig + 1,
                                       oldest := some (c.oldest.getD t.frm.count) }
  let v := if u.cqFull q then u.modCq q fun c => { c with fullDue := true } else u
  if r.notify ∨ (r.status ≠ 0 ∧ r.status ≠ 9) ∨ v.rf (Adr.HIF_CQ_CFG q) 19 12 ≤ (v.cq.get q).unsig then v.signalCq q else v

/-- Remove descriptor `d` from the device (R58, R83). -/
def State.dropDesc (s : State) (d : Nat) : State :=
  { s with ord := { s.ord with descs := s.ord.descs.filter fun x => x.acc != d } }

/-- Apply `f` to descriptor `d`. -/
def State.modDesc (s : State) (d : Nat) (f : Desc → Desc) : State :=
  { s with ord := { s.ord with descs := s.ord.descs.map fun x => if x.acc = d then f x else x } }

/-- The descriptor of a record, where it has one, leaves the device. -/
def State.dropOf (s : State) : Option Nat → State
  | some d => s.dropDesc d
  | none => s

/-- The descriptor of a record, where it has one, keeps its entry until the record is written (R83, R102). -/
def State.keepOf (s : State) : Option Nat → State
  | some d => s.modDesc d fun x => { x with stage := .recordWaits }
  | none => s

/-- Produce a record for ring `q`: write it, or keep it while the ring is FULL (R102) or the link is down (R48). -/
def State.produce (s : State) (q : RingId) (r : Rec) : State :=
  if (s.cq.get q).enabled then
    if s.hif.linkUp then
      if s.cqFull q ∨ (s.cq.get q).waiting ≠ [] then
        (s.keepOf r.desc).modCq q fun c => { c with waiting := c.waiting ++ [r] }
      else (s.dropOf r.desc).putRec q r false
    else if s.hif.held.length < 2048 then (s.keepOf r.desc).hold (.completion q r)
    else (s.dropOf r.desc).hold (.completion q r)
  else s.dropOf r.desc

/-- Write the records that wait for ring `q`, as far as there is room, each with LATE (R102). -/
def State.drainWaiting (s : State) (q : RingId) : List Rec → State
  | [] => s.modCq q fun c => { c with waiting := [] }
  | r :: rs =>
    if s.cqFull q then s.modCq q fun c => { c with waiting := r :: rs }
    else ((s.dropOf r.desc).putRec q r true).drainWaiting q rs

end Sys2Proof.Machine
end

