-- ==== Sys2Proof/Machine/Gate.lean ====
section
/-! DEFINITION. How a master's write reaches a register (R81, R393–R402, R409): who may write it, privileged fields, the values that
fields store, W1C fields, and the counting of dropped writes. -/

namespace Sys2Proof.Machine

/-- The ring whose registers hold offset `a` (R81). -/
def ringOf (a : Nat) : Option RingId :=
  if Adr.HIF_SQ_BASE_LO 0 ≤ a ∧ a < Adr.HIF_SQ_BASE_LO 16 then some (Fin.ofNat 16 ((a - Adr.HIF_SQ_BASE_LO 0) / 0x40)) else none

/-- Is `a` a register of the event ring (R81)? -/
def isEqReg (a : Nat) : Bool := decide (Adr.HIF_EQ_BASE_LO ≤ a) && decide (a < 0x20038)

/-- Does PF1 own the ring that register `a` belongs to, where it belongs to one (R81, R409)? -/
def State.pf1Owns (s : State) (a : Nat) : Bool :=
  match ringOf a with
  | some q => s.owner q == 1
  | none => if isEqReg a then s.eqOwner == 1 else true

/-- May a master write the register at `a` at all (R81, R394, R409)? -/
def State.mayWrite (s : State) (m : Master) (a : Nat) : Bool :=
  match m with
  | .spiOpen => a == Adr.ACC_SPI_RESP_LO || a == Adr.ACC_SPI_RESP_HI
  | .pf1 => s.pf1Owns a && (!(a == Adr.EVT_EN_LO || a == Adr.EVT_EN_HI) || s.eqOwner == 1)
  | .pf0 => true
  | .spiAdmin => true
  | .supervisor => true

/-- The bits of PRV fields of the register at `a` (R396). -/
def prvOf (a : Nat) : Nat :=
  match rowOf a with
  | some r => r.prv
  | none => 0

/-- Count and capture a violation in an INFO register and its ADDR register (R396, R402). -/
def State.capture (s : State) (info addr : Nat) (m : Master) (a : Nat) : State :=
  let w := s.reg info
  let n := min (fld w 15 0 + 1) 65535
  if bitOf w 31 then s.setReg info (wd (w.toNat / 65536 * 65536 + n))
  else (s.setReg info (wd (2 ^ 31 + m.code * 65536 + n))).setReg addr (wd a)

/-- An application master's write to a register with PRV fields is counted (R396). -/
def State.notePrv (s : State) (m : Master) (a : Nat) : State :=
  if !m.admin && prvOf a != 0 && (m == .pf1 || s.mayWrite m a) then s.capture Adr.ACC_PRVV_INFO Adr.ACC_PRVV_ADDR m a else s

/-- Does a write of the bits `mask` of the register at `a` reach them? -/
def State.reaches (s : State) (m : Master) (a mask : Nat) : Bool :=
  s.sys.powered && s.mayWrite m a && (m.admin || (prvOf a &&& mask) == 0)

/-- A write of a register of self-clearing bits, counted once (R396); each bit then acts where it is reached. -/
def State.noted (s : State) (m : Master) (a : Nat) : State := if s.sys.powered then s.notePrv m a else s

/-- A write that starts an action: the state with the write counted where it is dropped, and whether it acts. -/
def State.gate (s : State) (m : Master) (a mask : Nat) : State × Bool :=
  if s.sys.powered then (s.notePrv m a, s.reaches m a mask) else (s, false)

/-- Replace the field of `mask` at bit `lo` by `v`. -/
def putFld (w : Word) (mask lo v : Nat) : Word := mergeW w (wd (v * 2 ^ lo)) mask

/-- The bit `lo` field `[hi:lo]` of a word held to a range. -/
def holdFld (w : Word) (hi lo a b : Nat) : Word := putFld w (bits hi lo) lo (clampNat a b (fld w hi lo))

/-- Is `a` one of `n` registers from `base` at distance `step`? -/
def among (a base step n : Nat) : Bool := decide (base ≤ a) && decide ((a - base) % step = 0) && decide ((a - base) / step < n)

/-- The index of a register among its array. -/
def ixOf (a base step : Nat) : Nat := (a - base) / step

/-- A source field of PRBq_SELk: one with an index outside its range is stored disabled (R304). -/
def selStored (v : Nat) : Nat :=
  let ix := v % 256
  if 2 ^ 15 ≤ v then (if (if v / 256 % 2 = 0 then 200 ≤ ix else 24 ≤ ix) then v - 2 ^ 15 else v) else v

/-- What a written word stores, where a field does not store the value as written: the rules that say "stores" (R36, R49, R80, R157,
R170, R219, R222, R232, R240, R257, R262, R264, R286, R296, R304–R308, R313, R322, R326, R328, R340, R382, R409, R444). -/
def normalise (a : Nat) (w : Word) : Word :=
  if a = Adr.FRM_ADMIT_CTL then holdFld w 13 8 8 50
  else if among a (Adr.HIF_SQ_CFG 0) 0x40 16 then holdFld w 4 0 6 16
  else if among a (Adr.HIF_CQ_CFG 0) 0x40 16 ∨ a = Adr.HIF_EQ_CFG then holdFld (holdFld w 4 0 6 16) 19 12 1 255
  else if a = Adr.EVT_EN_HI then w ||| wd (2 ^ 14 + 2 ^ 15 + 2 ^ 23 + 2 ^ 25 + 2 ^ 26)
  else if among a (Adr.SD_CFG 0) 0x20 16 then
    (let v := holdFld w 11 8 1 10
     if fld v 1 0 = 3 then putFld v 3 0 0 else v)
  else if among a (Adr.BAY_BR_CFG 0) 0x1000 24 then holdFld w 5 0 4 63
  else if among a (Adr.BAY_TRIP_CFG 0) 0x1000 24 ∨ a = Adr.HVY_GRP_TRIP then holdFld (holdFld w 23 16 1 255) 15 0 1 65535
  else if decide (Adr.BAY 0 ≤ a) && decide (a < Adr.BAY 24) && among (a % 0x1000) 0x200 0x20 8 then holdFld w 15 0 20 65535
  else if a = Adr.GCTL_STO then holdFld w 23 8 1 65535
  else if among a (Adr.HVY_DT_CFG 0) 0x1000 8 then holdFld w 5 0 4 63
  else if among a (Adr.HVY_VDS_CFG 0) 0x1000 8 then (if fld w 17 16 = 3 then putFld w (bits 17 16) 16 2 else w)
  else if among a (Adr.HVY_SENSE 0) 0x1000 8 then holdFld w 16 0 100 100000
  else if among a (Adr.FB_CFG 0) 0x400 24 then (if fld w 1 0 = 3 then putFld w 3 0 0 else w)
  else if among a (Adr.FB_WCHK 0) 0x400 24 then holdFld w 4 0 0 25
  else if among a (Adr.FB_IDX_CFG 0) 0x400 24 then holdFld w 6 4 0 4
  else if among a (Adr.PRB_CFG 0) 0x80 16 then
    (let v := if fld w 3 2 = 3 then putFld w (bits 3 2) 2 2 else w
     if fld v 5 4 = 3 then putFld v (bits 5 4) 4 2 else v)
  else if decide (Adr.PRB_SEL 0 0 ≤ a) && decide (a < Adr.PRB_SEL 16 0) && among (a % 0x80) 0x10 4 4 then
    wd (selStored (fld w 31 16) * 65536 + selStored (fld w 15 0))
  else if among a (Adr.EMU_CFG 0) 0x40 4 then
    (let v := holdFld w 23 16 8 255
     if fld v 1 0 = 3 then putFld v 3 0 0 else v)
  else if among a (Adr.EMU_NUM 0) 0x40 4 then (if w = 0 then 1 else w)
  else if among a (Adr.EMU_DEN 0) 0x40 4 then (if fld w 30 0 = 0 then putFld w (bits 30 0) 0 1 else w)
  else if among a (Adr.CMP_VM 0) 4 6 then holdFld w 9 0 125 1023
  else if a = Adr.CMP_TEMP then holdFld (holdFld (holdFld w 23 16 60 150) 15 8 60 150) 7 0 60 150
  else if among a (Adr.CMP_BRK 0) 4 7 then holdFld (holdFld w 27 16 1 4095) 15 0 1 65535
  else if a = Adr.GRN_CFG then holdFld (holdFld w 15 8 64 255) 7 0 64 255
  else if a = Adr.GRN_MOD_ALLOW then holdFld w 16 0 10000 90000
  else if a = Adr.GRN_TILE_ALLOW then holdFld w 15 0 1000 20000
  else if a = Adr.GRN_HVY_ALLOW then holdFld w 15 0 1000 60000
  else if a = Adr.GRN_DER then holdFld w 31 24 16 255
  else if among a (Adr.WB_TBL_RS 0) 4 7 then wd (clampNat 100 100000 w.toNat)
  else if a = Adr.WB_TBL_MISC then holdFld w 15 0 1 65535
  else if a = Adr.UPD_CTL then (if 3 ≤ fld w 10 8 then putFld w (bits 10 8) 8 0 else w)
  else w

/-- A write recomputes the register's parity bit (R408). -/
def State.rewritten (s : State) (a : Nat) : State :=
  { s with acc := { s.acc with parity := s.acc.parity.filter (· != a) } }

/-- Store a write in the register file: its RW bits, and its W1C bits cleared where written 1, with the privilege of the master
(R396). -/
def State.storeWord (s : State) (m : Master) (a : Nat) (w : Word) : State :=
  match rowOf a with
  | none => s
  | some r =>
    let rw := if m.admin then r.rw else r.rw - (r.rw &&& r.prv)
    let w1 := if m.admin then r.w1c else r.w1c - (r.w1c &&& r.prv)
    let v := mergeW (s.reg a) (normalise a (mergeW (s.reg a) w rw)) rw
    (s.setReg a (v &&& ~~~(w &&& wd w1))).rewritten a

/-- A plain write by a master: counted where it meets PRV fields it may not write, and stored (R396). -/
def State.plainWrite (s : State) (m : Master) (a : Nat) (w : Word) : State :=
  if s.sys.powered then (let t := s.notePrv m a; if s.mayWrite m a then t.storeWord m a w else t) else s

/-- The word that a register would hold after a write, by the master's rights. -/
def State.written (s : State) (m : Master) (a : Nat) (w : Word) : Word := (s.storeWord m a w).reg a

end Sys2Proof.Machine
end

