-- ==== Sys2Proof/Machine/Profile.lean ====
section
/-! DEFINITION. The profile of least time of the Timetable (R114–R120), by exact integer arithmetic. Positions, velocities and
accelerations are held here in 2^-112 microstep (per frame, per frame²), jerks in 2^-48, times in 2^-64 frame;
the state of a frame is rounded from them as R113 says. Every profile is formed for travel in the positive
direction and turned about for the other. -/

namespace Sys2Proof.Machine

/-- One step of Newton's iteration for an integer square root, and the rest of them. -/
def isqrtGo (n : Nat) : Nat → Nat → Nat
  | 0, x => x
  | k + 1, x =>
    let y := (x + n / x) / 2
    if y < x then isqrtGo n k y else x

/-- ⌊√n⌋. -/
def isqrt (n : Nat) : Nat := if n = 0 then 0 else isqrtGo n 32 (2 ^ (n.log2 / 2 + 1))

/-- The least `x` in `lo`–`hi` at which `p` holds, for `p` that stays true once true; `hi` where none is found. -/
def bfind (p : Nat → Bool) : Nat → Nat → Nat → Nat
  | 0, _, hi => hi
  | k + 1, lo, hi =>
    if hi ≤ lo then hi
    else
      let m := (lo + hi) / 2
      if p m then bfind p k lo m else bfind p k (m + 1) hi

/-- One segment: an acceleration that it starts with, where it steps there (the trapezoidal form), its jerk, its time. -/
structure Seg where
  step : Option Int
  jerk : Int
  time : Nat
  deriving DecidableEq, Repr

/-- A state on a profile, in 2^-112. -/
structure Kin where
  p : Int
  v : Int
  a : Int
  deriving DecidableEq, Repr

/-- The limits of a profile: speed, acceleration, deceleration in 2^-112, jerks in 2^-48 (R109), and the form. -/
structure PLim where
  scurve : Bool
  v : Nat
  a : Nat
  d : Nat
  ja : Nat
  jd : Nat
  deriving DecidableEq, Repr

/-- One frame in 2^-64 frame. -/
def frameT : Nat := 2 ^ 64

/-- The state after `t` at constant jerk. -/
def kinRun (k : Kin) (j : Int) (t : Nat) : Kin where
  p := k.p + k.v * t / 2 ^ 64 + k.a * (t * t) / 2 ^ 129 + j * (t * t * t) / (6 * 2 ^ 128)
  v := k.v + k.a * t / 2 ^ 64 + j * (t * t) / 2 ^ 65
  a := k.a + j * t

/-- The state after `t` of a profile; past its end it moves on at its last velocity. -/
def segsAt (k : Kin) : List Seg → Nat → Kin
  | [], t => kinRun ⟨k.p, k.v, 0⟩ 0 t
  | g :: gs, t =>
    let k0 := match g.step with
      | some a => { k with a := a }
      | none => k
    if t ≤ g.time then kinRun k0 g.jerk t else segsAt (kinRun k0 g.jerk g.time) gs (t - g.time)

/-- The state at a profile's end. -/
def segsEnd (k : Kin) (gs : List Seg) : Kin :=
  gs.foldl (fun k g => kinRun (match g.step with | some a => { k with a := a } | none => k) g.jerk g.time) k

/-- The duration of a profile. -/
def segsTime (gs : List Seg) : Nat := gs.foldl (fun t g => t + g.time) 0

/-- A profile turned about. -/
def segsNeg (gs : List Seg) : List Seg := gs.map fun g => ⟨g.step.map (-·), -g.jerk, g.time⟩

/-- The time to take an acceleration `a` to 0 at jerk `j`. -/
def tJerk (a : Int) (j : Nat) : Nat := a.natAbs / j

/-- The velocity change while an acceleration of size `a` goes to 0 at jerk `j`. -/
def dvJerk (a : Int) (j : Nat) : Int := ((a.natAbs * a.natAbs) / (2 * j) / 2 ^ 64 : Nat)

/-- The velocity at which the acceleration reaches 0, brought there at once (R118). -/
def zeroV (l : PLim) (v a : Int) : Int :=
  if l.scurve then (if 0 ≤ a then v + dvJerk a l.ja else v - dvJerk a l.jd) else v

/-- A change of speed by `dv` from acceleration `a0` to acceleration 0, both of one sign `sg`, under a bound and a jerk. -/
def pulse (sg : Int) (a0 dv amax j : Nat) : List Seg :=
  if amax < a0 then
    let used := (a0 * a0 - amax * amax) / (2 * j) / 2 ^ 64 + (amax * amax) / (2 * j) / 2 ^ 64
    [⟨none, -sg * j, (a0 - amax) / j⟩, ⟨none, 0, (dv - used) * 2 ^ 64 / amax⟩, ⟨none, -sg * j, amax / j⟩]
  else
    let ap := isqrt (j * dv * 2 ^ 64 + a0 * a0 / 2)
    if ap ≤ amax then [⟨none, sg * j, (ap - a0) / j⟩, ⟨none, -sg * j, ap / j⟩]
    else
      let used := (amax * amax - a0 * a0) / (2 * j) / 2 ^ 64 + (amax * amax) / (2 * j) / 2 ^ 64
      [⟨none, sg * j, (amax - a0) / j⟩, ⟨none, 0, (dv - used) * 2 ^ 64 / amax⟩, ⟨none, -sg * j, amax / j⟩]

/-- From `(v, a)`, `v ≥ 0`, to `(vf, 0)`, `vf ≥ 0`, without passing through rest (R116, R117). -/
def toVel (l : PLim) (v a : Int) (vf : Nat) : List Seg :=
  if l.scurve then
    let vz := zeroV l v a
    if vz ≤ vf then
      if 0 ≤ a then pulse 1 a.toNat (vf - v).toNat l.a l.ja
      else ⟨none, l.jd, tJerk a l.jd⟩ :: pulse 1 0 (vf - vz).toNat l.a l.ja
    else if a ≤ 0 then pulse (-1) a.natAbs (v - vf).toNat l.d l.jd
    else ⟨none, -l.ja, tJerk a l.ja⟩ :: pulse (-1) 0 (vz - vf).toNat l.d l.jd
  else if v ≤ vf then [⟨some l.a, 0, (vf - v).toNat * 2 ^ 64 / l.a⟩]
  else [⟨some (-l.d), 0, (v - vf).toNat * 2 ^ 64 / l.d⟩]

/-- The least |a| with which `v ≥ 0` can reach 0 from the deceleration `m`, coming down at JDEC. -/
def leastCross (l : PLim) (v : Int) (m : Nat) : Nat := isqrt (m * m - 2 * l.jd * v.toNat * 2 ^ 64)

/-- From `(v, a)`, `v ≥ 0`, `a ≤ 0`, through rest to `(-w, 0)` (R125): the bounds change where `v` passes 0, and the acceleration there is
the largest that lies within both, that the way there reaches, and from which `-w` is not passed. One above DEC comes down to it at
JDEC (R132). -/
def crossNeg (l : PLim) (v a : Int) (w : Nat) : List Seg :=
  let m := a.natAbs
  let least := leastCross l v m
  let most := if m ≤ l.d then min (isqrt (m * m + 2 * l.jd * v.toNat * 2 ^ 64)) l.d else max least l.d
  let ac := max least (min (min most l.a) (isqrt (2 * l.ja * w * 2 ^ 64)))
  let hold : Nat → Nat → List Seg := fun used top => [⟨none, 0, (v.toNat - used) * 2 ^ 64 / top⟩, ⟨none, l.jd, (top - ac) / l.jd⟩]
  let part (x y : Nat) : Nat := (x * x - y * y) / (2 * l.jd) / 2 ^ 64
  let ap := isqrt (l.jd * v.toNat * 2 ^ 64 + (m * m + ac * ac) / 2)
  let down : List Seg :=
    if l.d < m then
      (if l.d ≤ least then [⟨none, l.jd, (m - ac) / l.jd⟩]
       else ⟨none, l.jd, (m - l.d) / l.jd⟩ :: hold (part m l.d + part l.d ac) l.d)
    else if ap ≤ l.d then [⟨none, -l.jd, (ap - m) / l.jd⟩, ⟨none, l.jd, (ap - ac) / l.jd⟩]
    else ⟨none, -l.jd, (l.d - m) / l.jd⟩ :: hold (part l.d m + part l.d ac) l.d
  down ++ pulse (-1) ac w l.a l.ja

/-- From `(v, a)`, `v ≥ 0`, to the signed velocity `vf` with acceleration 0, in the least time (R114, R125). -/
def toVelX (l : PLim) (v a vf : Int) : List Seg :=
  if l.scurve then
    let vz := zeroV l v a
    let ac := leastCross l v a.natAbs
    let w := dvJerk ac l.ja
    if 0 ≤ vf ∧ 0 ≤ vz then toVel l v a vf.toNat
    else if vf < 0 ∧ 0 < a then ⟨none, -l.ja, tJerk a l.ja⟩ :: crossNeg l vz 0 vf.natAbs
    else if vf < 0 ∧ (0 ≤ vz ∨ vf ≤ -w) then crossNeg l v a vf.natAbs
    else
      -- the acceleration carries the axis through rest, and past `vf`, before it can be brought to 0
      [⟨none, l.jd, (a.natAbs - ac) / l.jd⟩, ⟨none, l.ja, ac / l.ja⟩] ++
        segsNeg (if vf ≤ 0 then toVel l w 0 vf.natAbs else crossNeg l w 0 vf.toNat)
  else if 0 ≤ vf then toVel l v a vf.toNat
  else [⟨some (-l.d), 0, v.toNat * 2 ^ 64 / l.d⟩, ⟨some (-l.a), 0, vf.natAbs * 2 ^ 64 / l.a⟩]

/-- The distance of a profile from `(v, a)`. -/
def segsDist (v a : Int) (gs : List Seg) : Int := (segsEnd ⟨0, v, a⟩ gs).p

/-- To the peak speed `vp` and from there to rest. -/
def peakSegs (l : PLim) (v a : Int) (vp : Nat) : List Seg := toVel l v a vp ++ toVel l vp 0 0

/-- To the speed limit, on at it over what is left of `d`, and to rest. -/
def cruiseSegs (l : PLim) (v a d : Int) : List Seg :=
  let up := toVel l v a l.v
  let down := toVel l l.v 0 0
  let rest := d - segsDist v a up - segsDist l.v 0 down
  up ++ ⟨some 0, 0, rest.toNat * 2 ^ 64 / max l.v 1⟩ :: down

/-- Speeds are searched in 2^-64 microstep per frame. -/
def vUnit : Nat := 2 ^ 48

/-- Bring the deceleration up for `t`, then stop. -/
def easeSegs (l : PLim) (v a : Int) (t : Nat) : List Seg :=
  let k := kinRun ⟨0, v, a⟩ l.jd t
  ⟨none, l.jd, t⟩ :: toVel l k.v k.a 0

/-- The stop that ends at `d` with the least excess over the bounds: the jerk is raised first, then the
deceleration (R120). -/
def squeezeSegs (l : PLim) (v a d : Int) : List Seg :=
  let stopWith (q : PLim) : List Seg := toVel q v a 0
  let top := l.jd * 2 ^ 20
  if segsDist v a (stopWith { l with jd := top }) ≤ d then
    stopWith { l with jd := bfind (fun j => decide (segsDist v a (stopWith { l with jd := j }) ≤ d)) 100 l.jd top }
  else
    let big := l.d * 2 ^ 20
    stopWith { l with jd := top,
                      d := bfind (fun x => decide (segsDist v a (stopWith { l with jd := top, d := x }) ≤ d)) 160 l.d big }

/-- 1/256 microstep: a natural stopping point this near the goal is taken as on it, so that the rounding of each frame
does not move the arrival off the frame of exact arithmetic (R113). DEDUCED. -/
def nearQ : Nat := 2 ^ 104

/-- From `(v, a)` with `v ≥ 0` to rest at distance `d` ahead without passing it (R114, R116, R117, R119, R120). -/
def directSegs (l : PLim) (v a d : Int) : List Seg :=
  if l.scurve then
    let stop := toVel l v a 0
    let vz := zeroV l v a
    if (d - segsDist v a stop).natAbs ≤ nearQ ∧ v ≠ 0 then stop
    else if d < segsDist v a stop then squeezeSegs l v a d
    else if segsDist v a (toVel l v a l.v) + segsDist l.v 0 (toVel l l.v 0 0) ≤ d then cruiseSegs l v a d
    else if l.v < vz ∨ (l.v : Int) < v then
      let x := bfind (fun n => decide (d < segsDist v a (peakSegs l v a (n * vUnit)))) 100 0 (l.v / vUnit + 1)
      peakSegs l v a ((x - 1) * vUnit)
    else if segsDist v a (peakSegs l v a vz.toNat) ≤ d then
      let x := bfind (fun n => decide (d < segsDist v a (peakSegs l v a (vz.toNat + n * vUnit)))) 100 0
        ((l.v - vz.toNat) / vUnit + 1)
      peakSegs l v a (vz.toNat + (x - 1) * vUnit)
    else
      let x := bfind (fun t => decide (d < segsDist v a (easeSegs l v a t))) 140 0 (tJerk a l.jd + 1)
      easeSegs l v a (x - 1)
  else
    let stop := v * v / (2 * l.d)
    if d ≤ stop then
      (if v = 0 ∨ d ≤ 0 then [] else
        let dd : Nat := (v * v / (2 * d)).toNat
        [⟨some (-dd), 0, (2 * d * 2 ^ 64 / v).toNat⟩])
    else if (l.v : Int) ≤ v then cruiseSegs l v a d
    else
      let vp := isqrt (((2 * l.a * l.d * d + l.d * (v * v)) / (l.a + l.d)).toNat)
      if l.v ≤ vp then cruiseSegs l v a d else peakSegs l v a vp

/-- A whole microstep in 2^-112. -/
def microQ : Nat := 2 ^ 112

/-- The next whole microstep at or above `x` (R115). -/
def ceilMicro (x : Int) : Int := -(-x / (microQ : Int))

/-- From rest at distance `d`, of either sign, to rest there. -/
def restSegs (l : PLim) (d : Int) : List Seg := if d < 0 then segsNeg (directSegs l 0 0 (-d)) else directSegs l 0 0 d

/-- The fastest stop, ending at distance `s` at or beyond the natural stopping point, without raising the speed (R115, R119);
where the acceleration carries the axis back through rest, on to `s` from there. -/
def brakeSegs (l : PLim) (v a s : Int) : List Seg :=
  if zeroV l v a < 0 then
    let gs := toVelX l v a 0
    gs ++ restSegs l (s - segsDist v a gs)
  else if v = 0 ∧ a = 0 then restSegs l s
  else directSegs { l with v := (max v (zeroV l v a)).toNat } v a s

/-- The profile from a state to rest at `t`, all in 2^-112: direct where `t` can be reached without passing it,
otherwise the fastest stop at the first whole microstep and back (R120). -/
def targetSegs (l : PLim) (k : Kin) (t : Int) : List Seg :=
  let dir : Int := if k.v ≠ 0 then signInt k.v else if k.a ≠ 0 then signInt k.a else signInt (t - k.p)
  let v := dir * k.v
  let a := dir * k.a
  let d := dir * (t - k.p)
  let f : List Seg :=
    if v = 0 ∧ a = 0 then directSegs l 0 0 d
    else if zeroV l v a < 0 then brakeSegs l v a d
    else
      let sn := segsDist v a (toVel l v a 0)
      if sn - microQ < d then directSegs l v a d
      else
        let s := ceilMicro (dir * k.p + sn) * microQ - dir * k.p
        brakeSegs l v a s ++ restSegs l (d - s)
  if dir < 0 then segsNeg f else f

/-- The fastest stop from a state to rest at `s` (R118, R119). -/
def stopSegs (l : PLim) (k : Kin) (s : Int) : List Seg :=
  let dir : Int := if k.v ≠ 0 then signInt k.v else if k.a ≠ 0 then signInt k.a else signInt (s - k.p)
  let f := brakeSegs l (dir * k.v) (dir * k.a) (dir * (s - k.p))
  if dir < 0 then segsNeg f else f

/-- The profile from a state to the velocity `vf`. -/
def velocitySegs (l : PLim) (k : Kin) (vf : Int) : List Seg :=
  let dir : Int := if k.v ≠ 0 then signInt k.v else if k.a ≠ 0 then signInt k.a else signInt vf
  let f := toVelX l (dir * k.v) (dir * k.a) (dir * vf)
  if dir < 0 then segsNeg f else f

/-- The fastest stop from a state (R118): its natural stopping point in 2^-112. -/
def naturalStop (l : PLim) (k : Kin) : Int :=
  let dir : Int := if k.v ≠ 0 then signInt k.v else signInt k.a
  k.p + dir * segsDist (dir * k.v) (dir * k.a) (toVelX l (dir * k.v) (dir * k.a) 0)

/-! ### The units of R109 and R113 -/

/-- A reference in 2^-112. -/
def RefPt.kin (r : RefPt) : Kin := ⟨r.p * 2 ^ 96, r.v * 2 ^ 96, r.a * 2 ^ 64⟩

/-- The state at 1 frame: p and v rounded to 2^-16, a to 2^-48 (R113). -/
def Kin.ref (k : Kin) : RefPt := ⟨roundDiv k.p (2 ^ 96), roundDiv k.v (2 ^ 96), roundDiv k.a (2 ^ 64)⟩

/-- Limits in force as those of a profile. -/
def Limits.plim (l : Limits) (scurve : Bool) : PLim where
  scurve := scurve
  v := l.v * 2 ^ 96
  a := max l.a 1 * 2 ^ 64
  d := max l.d 1 * 2 ^ 64
  ja := max l.ja 1
  jd := max l.jd 1

/-- Does a profile end within one frame, its duration rounded to 2^-16 frame (R113)? -/
def endsNow (gs : List Seg) : Bool := decide (roundDiv (segsTime gs) (2 ^ 48) ≤ 65536)

/-- One frame toward rest at the whole microstep `t` (R113). -/
def stepTarget (l : PLim) (r : RefPt) (t : Int) : RefPt :=
  let gs := targetSegs l r.kin (t * microQ)
  if endsNow gs then ⟨t * 65536, 0, 0⟩ else (segsAt r.kin gs frameT).ref

/-- One frame of the fastest stop to rest at the whole microstep `s` (R115, R119). -/
def stepStop (l : PLim) (r : RefPt) (s : Int) : RefPt :=
  let gs := stopSegs l r.kin (s * microQ)
  if endsNow gs then ⟨s * 65536, 0, 0⟩ else (segsAt r.kin gs frameT).ref

/-- One frame toward the velocity `vf`, in 2^-16 per frame (R113, R125). -/
def stepVelocity (l : PLim) (r : RefPt) (vf : Int) : RefPt :=
  let gs := velocitySegs l r.kin (vf * 2 ^ 96)
  let u := (segsAt r.kin gs frameT).ref
  if endsNow gs then ⟨u.p, vf, 0⟩ else u

/-- Frames until a profile toward rest at `t` ends, rounded up (R142). -/
def framesTo (l : PLim) (r : RefPt) (t : Int) : Nat :=
  let gs := targetSegs l r.kin (t * microQ)
  ((roundDiv (segsTime gs) (2 ^ 48)).toNat + 65535) / 65536

/-- Frames until the fastest stop at `s` ends, rounded up. -/
def framesStop (l : PLim) (r : RefPt) (s : Int) : Nat :=
  let gs := stopSegs l r.kin (s * microQ)
  ((roundDiv (segsTime gs) (2 ^ 48)).toNat + 65535) / 65536

/-- The stopping point s, a whole microstep: the first at or beyond the natural one in the direction of travel, the nearest
where there is none (R115). -/
def stopPoint (l : PLim) (r : RefPt) : Int :=
  let sn := naturalStop l r.kin
  let dir : Int := if r.v ≠ 0 then signInt r.v else signInt r.a
  if 0 < dir then ceilMicro sn else if dir < 0 then -(ceilMicro (-sn)) else roundDiv sn microQ

end Sys2Proof.Machine
end

