-- ==== Sys2Proof/Machine/Fixed.lean ====
section
/-! DEFINITION. The real functions that the manual's formulas name, by integer arithmetic: the exponential of R140, sines and
arctangents (R268, R289). Numbers are in 2^-64 unless said otherwise; the results are good to far below the places
that the formulas keep. -/

namespace Sys2Proof.Machine

/-- 2^64. -/
def one64 : Nat := 2 ^ 64

/-- π in 2^-64. -/
def pi64 : Nat := 57952155664616982739

/-- The terms of e^(-x) from the n-th on. -/
def expGo (x : Int) : Nat → Nat → Int → Int
  | 0, _, t => t
  | k + 1, n, t => t + expGo x k (n + 1) (floorDiv (-(t * x)) (one64 * n))

/-- e^(-x) for `x` in 2^-64, 0 ≤ x < 2. -/
def expNeg (x : Nat) : Nat := (expGo x 40 1 one64).toNat

/-- The terms of the sine's series from one on. -/
def sinGo (x2 : Int) : Nat → Nat → Int → Int
  | 0, _, t => t
  | k + 1, n, t => t + sinGo x2 k (n + 2) (floorDiv (-(t * x2)) (one64 * ((n + 1) * (n + 2))))

/-- sin of a small angle in 2^-64 radian, |x| ≤ π/2. -/
def sinSmall (x : Int) : Int := sinGo (floorDiv (x * x) one64) 16 1 x

/-- arctan 2^-i in 2^-64 radian, for i = 0–47. -/
def atanTable : List Nat :=
  [14488038916154245685, 8552788783625223587, 4519058702220769989, 2293944758691655110, 1151423813380928739,
    576273212193474858, 288206923339027287, 144112256152217971, 72057227537407417, 36028751206084335,
    18014392782862199, 9007198538913212, 4503599537892014, 2251799802500437, 1125899905444523, 562949953246549,
    281474976688811, 140737488352597, 70368744177323, 35184372088789, 17592186044411, 8796093022207, 4398046511104,
    2199023255552, 1099511627776, 549755813888, 274877906944, 137438953472, 68719476736, 34359738368, 17179869184,
    8589934592, 4294967296, 2147483648, 1073741824, 536870912, 268435456, 134217728, 67108864, 33554432, 16777216,
    8388608, 4194304, 2097152, 1048576, 524288, 262144, 131072]

/-- CORDIC vectoring: turn (x, y), x > 0, onto the axis, summing the angle. -/
def atanGo : List Nat → Nat → Int → Int → Int → Int
  | [], _, _, _, acc => acc
  | a :: as, i, x, y, acc =>
    if 0 ≤ y then atanGo as (i + 1) (x + floorDiv y (2 ^ i)) (y - floorDiv x (2 ^ i)) (acc + a)
    else atanGo as (i + 1) (x - floorDiv y (2 ^ i)) (y + floorDiv x (2 ^ i)) (acc - a)

/-- atan2(y, x) in 2^-64 radian, −π to π; 0 at the origin. -/
def atan2 (y x : Int) : Int :=
  if x = 0 ∧ y = 0 then 0
  else
    let xs := x * one64
    let ys := y * one64
    if 0 < x then atanGo atanTable 0 xs ys 0
    else if 0 ≤ y then pi64 + atanGo atanTable 0 (-xs) (-ys) 0
    else atanGo atanTable 0 (-xs) (-ys) 0 - pi64

end Sys2Proof.Machine
end

