-- ==== Sys2Proof/Machine/Operands.lean ====
section
/-! DEFINITION. Descriptors and their operands: the fields of the 64 bytes (R64–R67), the form check (R70, R477) and the
values against the limits (step 4 of R69, R110, R162, R164), and the parameters that SET_PARAM reaches: ranges,
staged values, commits (R127–R130, R199–R204, R281, R282, R298). -/

namespace Sys2Proof.Machine

/-! ### Fields of a descriptor (R64) -/

/-- The byte at `o`. -/
def u8 (b : List Byte) (o : Nat) : Nat := (b.getD o 0).toNat
/-- `n` bytes at `o`, least-significant first. -/
def uN (b : List Byte) (o n : Nat) : Nat := leNat ((b.drop o).take n)
/-- u16 at `o`. -/
def u16 (b : List Byte) (o : Nat) : Nat := uN b o 2
/-- u32 at `o`. -/
def u32 (b : List Byte) (o : Nat) : Nat := uN b o 4
/-- u64 at `o`. -/
def u64 (b : List Byte) (o : Nat) : Nat := uN b o 8
/-- s32 at `o`. -/
def s32 (b : List Byte) (o : Nat) : Int := sext 32 (u32 b o)

/-- OPCODE. -/
def Desc.op (d : Desc) : Nat := u8 d.bytes 0
/-- The AXIS byte. -/
def Desc.axisByte (d : Desc) : Nat := u8 d.bytes 1
/-- TAG. -/
def Desc.tag (d : Desc) : Word := wd (u32 d.bytes 4)
/-- A flag bit (R65). -/
def Desc.flag (d : Desc) (i : Nat) : Bool := (d.bytes.getD 3 0).getLsbD i
/-- REPLACE. -/
def Desc.isReplace (d : Desc) : Bool := d.flag 0
/-- QUIET. -/
def Desc.isQuiet (d : Desc) : Bool := d.flag 1
/-- NOTIFY. -/
def Desc.isNotify (d : Desc) : Bool := d.flag 2
/-- EVENT. -/
def Desc.isEvent (d : Desc) : Bool := d.flag 3
/-- TRIG. -/
def Desc.isTrig (d : Desc) : Bool := d.flag 4
/-- START as a frame (R64). -/
def Desc.start (d : Desc) : Nat := u64 d.bytes 8
/-- The trigger slot of a TRIG descriptor (R66). -/
def Desc.slot (d : Desc) : Fin 64 := Fin.ofNat 64 (u16 d.bytes 8)

/-- The axis that the AXIS byte names, where it names one. -/
def Desc.axis? (d : Desc) : Option AxisId := if h : d.axisByte < 200 then some ⟨d.axisByte, h⟩ else none

/-- A motion opcode (R73). -/
def isMotionOp (o : Nat) : Bool := (decide (1 ≤ o) && decide (o ≤ 6)) || o == 8 || o == 0x10

/-- A descriptor that stands at the head of its axis queue at acceptance: REPLACE or a STOP, not one retired at acceptance
(R69, R90). -/
def Desc.replaces (d : Desc) : Bool := (d.isReplace || d.op == 4) && d.rej.isNone

/-- The axes whose queues a descriptor joins (R83): its axis, or a GROUP_MOVE's members. -/
def Desc.axes (d : Desc) : List AxisId :=
  match d.axis? with
  | some x => [x]
  | none => d.members

/-- The axis that a SET_PARAM acts on (R128). -/
def Desc.paramAxis (d : Desc) : AxisId := d.axis?.getD (Fin.ofNat 200 (u8 d.bytes 18))

/-- The entries of the move queue that it takes (R83). -/
def Desc.entries (d : Desc) : Nat := if d.op = 0x10 then max d.members.length 1 else 1

/-- Descriptor `n` of the acceptance sequence, while it is in the device. -/
def State.desc? (s : State) (n : Nat) : Option Desc := s.ord.descs.find? fun d => d.acc == n

/-- The bits of a mask as axes, ascending, from `n` bytes at `o` (R67, R153). -/
def axisMask (b : List Byte) (o : Nat) : List AxisId :=
  (allFin 200).filter fun x => (b.getD (o + x.val / 8) 0).getLsbD (x.val % 8)

/-! ### Modes -/

/-- The code of a mode (R105). -/
def Mode.code : Mode → Nat
  | .parked => 0
  | .hold => 1
  | .position => 2
  | .velocity => 3
  | .step => 4
  | .cam => 5
  | .disabled => 7

/-- The code of an amplitude phase (R173). -/
def Phase.code : Phase → Nat
  | .off => 0
  | .energising => 1
  | .identR => 2
  | .identL => 3
  | .run => 4
  | .pdWait => 5
  | .pdRamp => 6
  | .holdLow => 7

/-- An axis is energised while its PHASE is not OFF (R478). -/
def Axis.energised (a : Axis) : Bool := a.cd.phase != .off
/-- An axis is parked only while its MODE is PARKED and its PHASE is OFF (R478). -/
def Axis.isParked (a : Axis) : Bool := a.tt.mode == .parked && a.cd.phase == .off
/-- The mode code that a refusal for not being parked reports (R478): 1 while an ENERGIZE sequence runs. -/
def Axis.refusalMode (a : Axis) : Nat := if a.tt.mode = .parked ∧ a.energised then 1 else a.tt.mode.code

/-- The speed ceiling of an axis' class (R110). -/
def classCeiling (x : AxisId) : Nat := if heavy x then 1536000 else 1024000

/-- The bit of the capability set that an opcode needs (R106); `k` is the byte at 16. -/
def modeNeeded (o k : Nat) : Option Nat :=
  match o with
  | 1 => some 2
  | 2 => some 2
  | 0x10 => some 2
  | 3 => some 3
  | 5 => some 4
  | 6 => some 5
  | 7 => some 1
  | 0x0E => if k = 2 then some 2 else if k ≤ 1 then some 1 else none
  | _ => none

/-- CAP as stored (R106). -/
def capStored (c : Nat) : Nat :=
  let w := BitVec.ofNat 6 c
  let w1 := if w &&& 0x3C ≠ 0 then w ||| 3 else w
  (if w1.getLsbD 1 then w1 ||| 1 else w1).toNat

/-- Is a mode in a capability set (R107)? -/
def modeIn (m : Mode) (cap : Nat) : Bool :=
  match m with
  | .disabled => cap == 0
  | m => (BitVec.ofNat 6 cap).getLsbD m.code

/-! ### Parameters (R127, R200, R203, R281, R282, R298, R477) -/

/-- The parameters that SET_PARAM reaches. -/
inductive ParamId
  /-- 0x0100–0x010F, by offset. -/
  | tt (i : Fin 16)
  | posSet
  | qlow
  | grpDef
  | trgDisarm
  | lagmax
  /-- 0x0300–0x0303. -/
  | coil (i : Fin 4)
  /-- 0x0400–0x0416 and 0x0420–0x042D, by offset. -/
  | card (i : Fin 46)
  /-- 0x0440–0x044F. -/
  | table (c : Fin 16)
  /-- 0x0500–0x0501. -/
  | sg (i : Fin 2)
  /-- 0x0600–0x0605. -/
  | fb (i : Fin 6)
  deriving DecidableEq, Repr

/-- The parameter of an id, where a row of R477 names it. -/
def paramOf (i : Nat) : Option ParamId :=
  let o := i % 256
  match i / 256 with
  | 1 => if h : o < 16 then some (.tt ⟨o, h⟩) else if o = 16 then some .posSet else if o = 17 then some .qlow else none
  | 2 => if o = 0 then some .grpDef else if o = 1 then some .trgDisarm else if o = 2 then some .lagmax else none
  | 3 => if h : o < 4 then some (.coil ⟨o, h⟩) else none
  | 4 =>
    if h : o < 46 then (if 0x17 ≤ o ∧ o < 0x20 then none else some (.card ⟨o, h⟩))
    else if h : 0x40 ≤ o ∧ o < 0x50 then some (.table ⟨o - 0x40, by omega⟩) else none
  | 5 => if h : o < 2 then some (.sg ⟨o, h⟩) else none
  | 6 => if h : o < 6 then some (.fb ⟨o, h⟩) else none
  | _ => none

/-- An id that takes AXIS 0xFF only (R477). -/
def ParamId.ringOnly : ParamId → Bool
  | .grpDef => true
  | .trgDisarm => true
  | .card _ => true
  | .table _ => true
  | .tt _ | .posSet | .qlow | .lagmax | .coil _ | .sg _ | .fb _ => false

/-- The largest index byte with AXIS 0xFF (R477). -/
def ParamId.maxIndex : ParamId → Nat
  | .grpDef => 31
  | .trgDisarm => 63
  | .card _ => 63
  | .table _ => 63
  | .tt _ | .posSet | .qlow | .lagmax | .coil _ | .sg _ | .fb _ => 199

/-- A value read as a signed 64-bit number (R477). -/
def ParamId.signed : ParamId → Bool
  | .tt i => i.val == 7 || i.val == 8
  | .posSet => true
  | .fb i => i.val == 2
  | .qlow | .grpDef | .trgDisarm | .lagmax | .coil _ | .card _ | .table _ | .sg _ => false

/-- The ranges of the card parameters (R200, R281), by offset from 0x0400. -/
def cardRange : Nat → Int × Int
  | 0x00 => (0, 1) | 0x01 => (100, 60000) | 0x02 => (50, 65535) | 0x03 => (0, 65535) | 0x04 => (0, 10000)
  | 0x05 => (1, 30000) | 0x06 => (32, 256) | 0x07 => (0, 65535) | 0x08 => (0, 1000) | 0x09 => (1, 100)
  | 0x0A => (300, 800) | 0x0B => (0, 10000) | 0x0C => (0, 255) | 0x0D => (0, 1) | 0x0E => (0, 255) | 0x0F => (64, 256)
  | 0x10 => (1, 50) | 0x11 => (1, 50) | 0x12 => (60, 180) | 0x13 => (0, 3600) | 0x14 => (0, 3) | 0x15 => (50, 5000)
  | 0x16 => (0, 300) | 0x20 => (5, 1000) | 0x21 => (1, 100) | 0x22 => (300, 1700) | 0x23 => (1, 255) | 0x24 => (1, 255)
  | 0x25 => (100, 1700) | 0x26 => (0, 200) | 0x27 => (1, 255) | 0x28 => (50, 10000) | 0x29 => (0, 128) | 0x2A => (16, 4095)
  | 0x2B => (0, 8) | 0x2C => (0, 500) | _ => (0, 2)

/-- The range of a parameter (R127, R161, R200, R203, R281, R282, R298); `x` is the axis. -/
def ParamId.range (p : ParamId) (x : AxisId) : Int × Int :=
  match p with
  | .tt i =>
    match i.val with
    | 0 => (1, classCeiling x)
    | 1 | 2 | 5 | 6 => (100, 1000000000)
    | 3 | 4 => (1000, 2 ^ 40 - 1)
    | 7 | 8 => (-2147483648, 2147483647)
    | 9 => (1, classCeiling x)
    | 10 | 11 => (0, 1)
    | 12 => (0, 3)
    | 13 => (50, 5000)
    | 14 => (0, 300)
    | _ => (0, 63)
  | .posSet => (-2147483648, 2147483647)
  | .qlow => (0, 63)
  | .grpDef => (0, 2 ^ 64 - 1)
  | .trgDisarm => (0, 2 ^ 64 - 1)
  | .lagmax => (0, 16777215)
  | .coil i =>
    match i.val with
    | 0 => (0, 63)
    | 1 => (64, 256)
    | 2 => (0, 1)
    | _ => (0, 2)
  | .card i => cardRange i.val
  | .table _ => (0, 2 ^ 64 - 1)
  | .sg i => if i.val = 0 then (0, 1) else (0, 3)
  | .fb i =>
    match i.val with
    | 0 => (0, 255)
    | 1 => (0, 1)
    | 2 => (-2147483648, 2147483647)
    | 3 => (1, 2147483647)
    | 4 => (513, 65535)
    | _ => (1, 255)

/-- The bound that a value breaks (R477), where it breaks one: FC_I and SG_WARN may also be 0, FB_CHAN has a gap between 23 and
255, and FB_NUM may not be 0. -/
def ParamId.broken (p : ParamId) (x : AxisId) (v : Int) : Option Int :=
  let (lo, hi) := p.range x
  let zeroOk := p == .card 0x0A || p == .card 0x25
  if zeroOk ∧ v = 0 then none
  else if v < lo then some lo
  else if hi < v then some hi
  else if p = .fb 0 ∧ 23 < v ∧ v < 255 then some 23
  else if p = .fb 2 ∧ v = 0 then some 0
  else none

/-- The value field of a SET_PARAM (R477). -/
def paramValue (p : ParamId) (b : List Byte) : Int := if p.signed then sext 64 (u64 b 20) else (u64 b 20 : Nat)

/-! ### The form check (R70) -/

/-- Opcodes that take AXIS 0xFF only (R67); SET_PARAM takes both. -/
def opRingOnly (o : Nat) : Bool := o == 0 || o == 9 || o == 0xA || o == 0xB || o == 0xC || o == 0x10 || o == 0x11

/-- The reserved operand bytes of an opcode (R67): the bytes 16–59 that no operand covers. `k` is byte 17, the kind of a
TRIGGER_ARM (R151). -/
def reservedBytes (o k : Nat) : List Nat :=
  let r (lo hi : Nat) : List Nat := (List.range (hi + 1 - lo)).map (· + lo)
  match o with
  | 0 => r 16 59
  | 1 => r 41 59
  | 2 => r 41 59
  | 3 => r 21 23 ++ r 40 59
  | 4 => r 17 19 ++ r 24 59
  | 5 => r 28 59
  | 6 => r 30 31 ++ r 41 59
  | 7 => r 18 59
  | 8 => r 16 59
  | 9 => r 18 59
  | 0xA => r 22 59
  | 0xB => r 58 59
  | 0xC => (match k with | 0 => r 24 31 | 1 => r 20 31 | 2 => r 18 23 | _ => []) ++ r 33 59
  | 0xD => r 19 59
  | 0xE => r 17 19 ++ r 24 59
  | 0x10 => r 19 19 ++ r 34 59
  | 0x11 => r 18 59
  | _ => []

/-- The reserved bytes of a SET_PARAM of a known parameter (R201, R477, R153). -/
def reservedParam (p : ParamId) (axisForm : Bool) : List Nat :=
  let r (lo hi : Nat) : List Nat := (List.range (hi + 1 - lo)).map (· + lo)
  (if axisForm then [18] else []) ++
    match p with
    | .grpDef => r 53 59
    | .table _ => r 20 27
    | .tt _ | .posSet | .qlow | .trgDisarm | .lagmax | .coil _ | .card _ | .sg _ | .fb _ => r 28 59

/-- The first of some bytes that is not zero. -/
def firstNonzero (b : List Byte) (l : List Nat) : Option Nat := l.find? fun o => u8 b o != 0

/-- One-byte operands and the largest value of each (R67, R151). -/
def enumBounds (o k : Nat) : List (Nat × Nat) :=
  match o with
  | 1 => [(40, 1)]
  | 2 => [(40, 1)]
  | 3 => [(20, 1)]
  | 4 => [(16, 2)]
  | 5 => [(16, 15), (17, 1)]
  | 6 => [(28, 3), (40, 1)]
  | 7 => [(16, 1), (17, 2)]
  | 0xA => [(21, 1)]
  | 0xB => [(57, 1)]
  | 0xC => [(16, 63), (17, 2)] ++ (if k ≤ 1 then [(18, 2)] else []) ++ (match k with | 0 => [(19, 199)] | 1 => [(19, 15)] | _ => [])
      ++ [(32, if k = 2 then 0 else 1)]
  | 0xD => [(17, 1), (18, 63)]
  | 0xE => [(16, 2)]
  | 0xF => [(19, 1)]
  | 0x10 => [(16, 31), (17, 1), (18, 1)]
  | 0x11 => [(16, 3)]
  | _ => []

/-- The offsets of operands of row 7 of R70 that are out of range; address operands and the cam master index (R164)
among them. -/
def row7 (b : List Byte) : List Nat :=
  let o := u8 b 0
  let k := if o = 0xC then u8 b 17 else u8 b 28
  let e := (enumBounds o k).filterMap fun (off, hi) => if hi < u8 b off then some off else none
  let addr := match o with
    | 6 => if u64 b 16 % 64 ≠ 0 then [16] else []
    | 0xB => if u64 b 24 % 64 ≠ 0 then [24] else []
    | 0x10 => if u64 b 24 % 64 ≠ 0 then [24] else []
    | _ => []
  let cam :=
    if o = 6 then
      let m := u8 b 29
      match u8 b 28 with
      | 0 => if 0 < m then [29] else []
      | 1 => if 199 < m ∨ m = u8 b 1 then [29] else []
      | 2 => if 15 < m then [29] else []
      | 3 => if 23 < m then [29] else []
      | _ => []
    else []
  let part := if o = 0xA ∧ u8 b 20 = 0 then [20] else []
  let par :=
    if o = 0xF then
      match paramOf (u16 b 16) with
      | none => [16]
      | some p =>
        (if u8 b 1 = 0xFF ∧ p.maxIndex < u8 b 18 then [18] else []) ++
          (if p = .grpDef ∧ u64 b 20 ≠ (axisMask b 28).length then [20] else [])
    else []
  e ++ addr ++ cam ++ part ++ par

/-- The smallest of some offsets. -/
def leastOf (l : List Nat) : Option Nat := l.foldl (fun m x => match m with | none => some x | some y => some (min x y)) none

/-- Row 2 of R70, with the offset (R477, R153). -/
def State.row2 (s : State) (b : List Byte) : Option Nat :=
  let o := u8 b 0
  let a := u8 b 1
  let par := if o = 0xF then paramOf (u16 b 16) else none
  if 200 ≤ a ∧ a ≤ 254 then some 1
  else if o = 0xF ∧ par.isNone then none
  else if opRingOnly o ∧ a < 200 then some 1
  else if a = 0xFF ∧ ¬ opRingOnly o ∧ o ≠ 0xF then some 1
  else if (par.any fun p => p.ringOnly) ∧ a < 200 then some 1
  else if par = some .posSet ∧ a = 0xFF then some 1
  else if h : a < 200 then (if (s.ax.get ⟨a, h⟩).tt.mode = .disabled then some 1 else none)
  else if par = some .grpDef ∧ (axisMask b 28).any (fun x => (s.ax.get x).tt.mode == .disabled) then some 28
  else none

/-- Row 3 of R70. -/
def row3 (b : List Byte) : Option Nat :=
  if u8 b 3 / 32 ≠ 0 then some 3
  else if (b.getD 3 0).getLsbD 4 then
    (if 63 < u16 b 8 then some 8 else firstNonzero b [10, 11, 12, 13, 14, 15])
  else none

/-- Row 4 of R70. -/
def row4 (b : List Byte) : Option Nat :=
  if u8 b 0 = 0xF then
    match paramOf (u16 b 16) with
    | none => none
    | some p => firstNonzero b (reservedParam p (decide (u8 b 1 < 200)))
  else firstNonzero b (reservedBytes (u8 b 0) (u8 b 17))

/-- Row 5 of R70: `pf1` for a ring that PF1 owns. -/
def row5 (b : List Byte) (pf1 : Bool) : Option Nat :=
  if pf1 ∧ u8 b 0 = 0x11 then some 0
  else if pf1 ∧ u8 b 0 = 0xF ∧ 0x8000 ≤ u16 b 16 then some 16
  else none

/-- The members of the group that a GROUP_MOVE names, as it now stands (R153). -/
def State.groupOf (s : State) (b : List Byte) : List AxisId := if u8 b 16 < 32 then s.grp.get (Fin.ofNat 32 (u8 b 16)) else []

/-- Row 6 of R70 (R106). -/
def State.row6 (s : State) (b : List Byte) : Option Nat :=
  match modeNeeded (u8 b 0) (u8 b 16) with
  | none => none
  | some m =>
    let lacks (x : AxisId) : Bool := !((BitVec.ofNat 6 (s.ax.get x).act.cap).getLsbD m)
    if u8 b 0 = 0x10 then (if (s.groupOf b).any lacks then some 16 else none)
    else if h : u8 b 1 < 200 then (if lacks ⟨u8 b 1, h⟩ then some 0 else none)
    else none

/-- The form check (R70): the reason and the offset of the first row that fails. -/
def State.formCheck (s : State) (q : RingId) (b : List Byte) : Option (Nat × Nat) :=
  if 0x11 < u8 b 0 then some (1, 0)
  else
    ((s.row2 b).map (2, ·)) <|> ((row3 b).map (3, ·)) <|> ((row4 b).map (4, ·)) <|>
      ((row5 b (s.owner q == 1)).map (5, ·)) <|> ((s.row6 b).map (6, ·)) <|> ((leastOf (row7 b)).map (7, ·))

/-- The bound of `lo`–`hi` that an operand breaks, 0 being "stored" (R67). -/
def opBroken (lo hi v : Nat) : Option Nat := if v = 0 then none else if v < lo then some lo else if hi < v then some hi else none

/-- A speed operand against VMAX. -/
def overV (vmax v : Nat) : Option Nat := if vmax < v then some vmax else none

/-- The first of some (offset, bound) pairs that a value breaks. -/
def firstBound (l : List (Nat × Option Nat)) : Option (Nat × Nat) :=
  l.findSome? fun (o, b) => b.map (o, ·)

/-- Acceleration, deceleration and jerks at 24, 28, 32, 36 (R110, R127). -/
def rampBounds (b : List Byte) : List (Nat × Option Nat) :=
  [(24, opBroken 100 1000000000 (u32 b 24)), (28, opBroken 100 1000000000 (u32 b 28)),
    (32, opBroken 1000 (2 ^ 40 - 1) (u32 b 32)), (36, opBroken 1000 (2 ^ 40 - 1) (u32 b 36))]

/-- Step 4 of R69: the offset of the operand and the bound it broke. -/
def State.limitCheck (s : State) (b : List Byte) : Option (Nat × Word) :=
  let x : AxisId := Fin.ofNat 200 (u8 b 1)
  let vm := (s.ax.get x).act.vmax
  let nat (r : Option (Nat × Nat)) : Option (Nat × Word) := r.map fun (o, v) => (o, wd v)
  match u8 b 0 with
  | 1 => nat (firstBound ((20, overV vm (u32 b 20)) :: rampBounds b))
  | 2 => nat (firstBound ((20, overV vm (u32 b 20)) :: rampBounds b))
  | 3 => nat (firstBound ((16, overV vm (u32 b 16)) :: rampBounds b))
  | 4 => nat (firstBound [(20, opBroken 100 1000000000 (u32 b 20))])
  | 5 =>
    nat (firstBound [
      (18, if u16 b 18 = 0 then some 1 else if 256 < u16 b 18 then some 256 else none),
      (20, if u32 b 20 = 0 then some 1 else if 0x1000000 < u32 b 20 then some 0x1000000 else none),
      (24, overV vm (u32 b 24))])
  | 6 =>
    let n := u32 b 24
    nat (firstBound [
      (24, if n = 0 then some 1 else if 8388608 < n then some 8388608 else if n = 1 ∧ u8 b 40 % 2 = 1 then some 2 else none),
      (32, if u32 b 32 = 0 then some 1 else none),
      (36, if n ≤ u32 b 36 then some (n - 1) else none)])
  | 0xF =>
    match paramOf (u16 b 16) with
    | none => none
    | some p =>
      let y : AxisId := if u8 b 1 = 0xFF then Fin.ofNat 200 (u8 b 18) else x
      (p.broken y (paramValue p b)).map fun v => (20, wdI v)
  | 0x10 =>
    let ms := s.groupOf b
    match leastOf (ms.map fun y => (s.ax.get y).act.vmax) with
    | none => none
    | some v => if v < u32 b 20 then some (20, wd v) else none
  | _ => none

/-- Steps 3 and 4 of R69: the status and the details of a rejection. -/
def State.rejection (s : State) (q : RingId) (b : List Byte) : Option (Byte × Word × Word) :=
  match s.formCheck q b with
  | some (r, o) => some (4, wd r, wd o)
  | none =>
    match s.limitCheck b with
    | some (o, v) => some (5, wd o, v)
    | none => none

/-! ### Parameter values -/

/-- Write a Timetable parameter (R127). -/
def TtSet.put (t : TtSet) (i : Fin 16) (v : Int) : TtSet :=
  let n := v.toNat
  match i.val with
  | 0 => { t with speed := n }
  | 1 => { t with acc := n }
  | 2 => { t with dec := n }
  | 3 => { t with jacc := n }
  | 4 => { t with jdec := n }
  | 5 => { t with stopDec := n }
  | 6 => { t with qsDec := n }
  | 7 => { t with limLo := v }
  | 8 => { t with limHi := v }
  | 9 => { t with vmax := n }
  | 10 => { t with policy := n }
  | 11 => { t with profile := n }
  | 12 => { t with shpForm := n }
  | 13 => { t with shpFreq := n }
  | 14 => { t with shpDamp := n }
  | _ => { t with cap := capStored n }

/-- Write an axis coil parameter (R203). -/
def CoilSet.put (c : CoilSet) (i : Fin 4) (n : Nat) : CoilSet :=
  match i.val with
  | 0 => { c with card := n }
  | 1 => { c with itrim := n }
  | 2 => { c with pdEn := n }
  | _ => { c with idMode := n }

/-- Write an axis stall parameter (R282). -/
def SgSet.put (c : SgSet) (i : Fin 2) (n : Nat) : SgSet := if i.val = 0 then { c with mode := n } else { c with rsel := n }

/-- Write an axis feedback parameter (R298). -/
def FbSet.put (c : FbSet) (i : Fin 6) (v : Int) : FbSet :=
  let n := v.toNat
  match i.val with
  | 0 => { c with chan := n }
  | 1 => { c with corr := n }
  | 2 => { c with num := v }
  | 3 => { c with den := n }
  | 4 => { c with tol := n }
  | _ => { c with nc := n }

/-- Write a card parameter (R200, R281). -/
def CardHalf.put (c : CardHalf) (i : Fin 46) (n : Nat) : CardHalf :=
  match i.val with
  | 0x00 => { c with cls := n }
  | 0x01 => { c with res25 := n }
  | 0x02 => { c with ind := n }
  | 0x03 => { c with ke := n }
  | 0x04 => { c with tcr := n }
  | 0x05 => { c with irun := n }
  | 0x06 => { c with hfrac := n }
  | 0x07 => { c with pddelay := n }
  | 0x08 => { c with pdramp := n }
  | 0x09 => { c with eramp := n }
  | 0x0A => { c with fcI := n }
  | 0x0B => { c with xmax := n }
  | 0x0C => { c with dtcBand := n }
  | 0x0D => { c with ffMode := n }
  | 0x0E => { c with ffDelta := n }
  | 0x0F => { c with idfrac := n }
  | 0x10 => { c with rtol := n }
  | 0x11 => { c with ltol := n }
  | 0x12 => { c with twMax := n }
  | 0x13 => { c with idStill := n }
  | 0x14 => { c with shpForm := n }
  | 0x15 => { c with shpFreq := n }
  | 0x16 => { c with shpDamp := n }
  | 0x20 => { c with sgVemf := n }
  | 0x21 => { c with sgVrip := n }
  | 0x22 => { c with sgAngle := n }
  | 0x23 => { c with sgN := n }
  | 0x24 => { c with sgNr := n }
  | 0x25 => { c with sgWarn := n }
  | 0x26 => { c with sgCollapse := n }
  | 0x27 => { c with sgNc := n }
  | 0x28 => { c with sgEmin := n }
  | 0x29 => { c with sgDetach := n }
  | 0x2A => { c with sgNd := n }
  | 0x2B => { c with sgFilt := n }
  | 0x2C => { c with sgKsal := n }
  | 0x2D => { c with sgReact := n }
  | _ => c

/-- The reset quarter-wave table Q[0]–Q[255] (R172), from the recurrence sin((m+1)h) = 2 cos h sin(mh) − sin((m−1)h), h = π/512,
in 2^-96. -/
def sineTable : List Nat :=
  let k : Int := 158453342132989951649067180271
  let rec go : Nat → Int → Int → List Nat
    | 0, _, _ => []
    | n + 1, a, b => (roundDiv (65535 * b) (2 ^ 96)).toNat :: go n b (floorDiv (k * b) (2 ^ 96) - a)
  go 256 (-486134866151990591466405863) 0

/-- Q[m] of a card half (R172): the reset table, but for the listed entries. -/
def CardHalf.q (c : CardHalf) (m : Nat) : Nat :=
  if m = 256 then 65535
  else match c.table.find? fun e => e.1 == m with
    | some e => e.2
    | none => sineTable.getD m 0

/-- Write an entry of the table, in canonical form. -/
def CardHalf.putQ (c : CardHalf) (m v : Nat) : CardHalf :=
  let rec ins : List (Nat × Nat) → List (Nat × Nat)
    | [] => [(m, v)]
    | e :: l => if m < e.1 then (m, v) :: e :: l else if e.1 = m then (m, v) :: l else e :: ins l
  { c with table := if v = sineTable.getD m 0 then c.table.filter fun e => e.1 != m else ins c.table }

/-- A card is usable when RES25, L and IRUN are all non-zero (R200). -/
def CardHalf.usable (c : CardHalf) : Bool := c.res25 != 0 && c.ind != 0 && c.irun != 0

/-- The card that an axis names. -/
def State.cardOf (s : State) (x : AxisId) : CardHalf := (s.cards.get (Fin.ofNat 64 (s.ax.get x).coilA.card)).act

/-- The axes that name card `c`. -/
def State.usersOf (s : State) (c : Fin 64) : List AxisId := (allFin 200).filter fun x => (s.ax.get x).coilA.card == c.val
/-- The axes whose set in force in the frame in progress names card `c` (R207). -/
def State.usersNow (s : State) (c : Fin 64) : List AxisId := (allFin 200).filter fun x => (s.ax.get x).now.coilA.card == c.val
/-- The card of an axis in the frame in progress. -/
def State.cardNow (s : State) (x : AxisId) : CardHalf := (s.cards.get (Fin.ofNat 64 (s.ax.get x).now.coilA.card)).act

/-- Does a SET_PARAM act on a set that the frame before its frame of effect plans with: the Timetable's or the coil drive's (R113, R173)? -/
def Desc.plans (d : Desc) : Bool :=
  match paramOf (u16 d.bytes 16) with
  | some (.tt _) => true
  | some (.coil _) => true
  | _ => false

/-- Is a descriptor a POS_SET? -/
def Desc.isPosSet (d : Desc) : Bool := d.op == 0xF && paramOf (u16 d.bytes 16) == some .posSet

/-- The axes that a descriptor's effect reaches: those of its queues, or the one that a SET_PARAM without a queue names. -/
def Desc.touches (d : Desc) : List AxisId := if d.axes = [] ∧ d.op = 0xF ∧ d.plans then [d.paramAxis] else d.axes

end Sys2Proof.Machine
end

