-- ==== Sys2Proof/Machine/Motion.lean ====
section
/-! DEFINITION. The planning of one axis for the next frame (R109–R143): internal forms, the limits in force, the shaper, the
virtual-limit guard, and what a stop or a new target does. Between ticks `u0` and `o0` are the references of the frame
in progress k, which is the state at tick k + 1, and `uNext` and `oNext` those planned for frame k + 1 (R112). -/

namespace Sys2Proof.Machine

/-! ### Internal forms (R109) -/

/-- A velocity in microsteps/s as 2^-16 microstep per frame. -/
def velForm (f v : Nat) : Nat := (roundDiv (v * 65536) f).toNat
/-- An acceleration as 2^-48 microstep per frame². -/
def accForm (f a : Nat) : Nat := (roundDiv (a * 2 ^ 48) (f * f)).toNat
/-- A jerk as 2^-48 microstep per frame³. -/
def jerkForm (f j : Nat) : Nat := (roundDiv (j * 2 ^ 48) (f * f * f)).toNat

/-- An operand where 0 means the stored value (R67). -/
def orStored (v stored : Nat) : Nat := if v = 0 then stored else v

/-- Limits from per-second values. -/
def limitsOf (f v a d ja jd : Nat) : Limits := ⟨velForm f v, accForm f a, accForm f d, jerkForm f ja, jerkForm f jd⟩

/-- The stored limits of an axis. -/
def TtSet.limits (t : TtSet) (f : Nat) : Limits := limitsOf f t.speed t.acc t.dec t.jacc t.jdec

/-- The limits of a move: its operands, or the stored values. -/
def moveLimits (t : TtSet) (f speed : Nat) (b : List Byte) : Limits :=
  limitsOf f (orStored speed t.speed) (orStored (u32 b 24) t.acc) (orStored (u32 b 28) t.dec)
    (orStored (u32 b 32) t.jacc) (orStored (u32 b 36) t.jdec)

/-- The whole microsteps of a position (R146). -/
def intPart (p : Int) : Int := floorDiv p 65536

/-! ### Input shaping (R140, R141) -/

/-- K of R140 in 2^-64, for a damping in 0.001. -/
def shaperK (damp : Nat) : Nat :=
  expNeg (damp * pi64 * 2 ^ 32 / isqrt ((1000000 - damp * damp) * 2 ^ 64))

/-- Amplitudes divided by their sum, in 2^-16, the last as 1 less the others. -/
def normAmps (l : List Nat) : List Int :=
  let sum := l.foldl (· + ·) 0
  let a : List Int := l.dropLast.map fun (x : Nat) => roundDiv ((x * 65536 : Nat) : Int) sum
  a ++ [65536 - a.foldl (· + ·) 0]

/-- The impulses of a shaper: the time back in 1/256 frame, and the amplitude in 2^-16. -/
def impulses (f : Nat) (sh : Nat × Nat × Nat) : List (Nat × Int) :=
  let (form, freq, damp) := sh
  let k := shaperK damp
  let k2 := k * k / one64
  let half := (roundDiv (5 * f * 256) freq).toNat
  let full := (roundDiv (10 * f * 256) freq).toNat
  match form with
  | 0 => [(0, 65536)]
  | 1 => [0, half].zip (normAmps [one64, k])
  | 2 => [0, half, full].zip (normAmps [one64, 2 * k, k2])
  | _ => [0, half, full].zip (normAmps [2625 * one64, 4750 * k, 2625 * k2])

/-- AXn_SHP_DELAY: the delay of a shaper in 1/256 frame (R141). -/
def shaperDelay (f : Nat) (sh : Nat × Nat × Nat) : Nat :=
  match sh.1 with
  | 0 => 0
  | 1 => (roundDiv (5 * f * 256) sh.2.1).toNat
  | _ => (roundDiv (10 * f * 256) sh.2.1).toNat

/-- Shape the planned reference `u`: `h` holds the earlier ones, newest first, and `fill` all older than those. -/
def shapeRef (imp : List (Nat × Int)) (u : RefPt) (h : List RefPt) (fill : RefPt) : RefPt :=
  let at? (n : Nat) : RefPt := if n = 0 then u else h.getD (n - 1) fill
  let sum (g : RefPt → Int) : Int := imp.foldl (fun acc (t, w) =>
    acc + w * ((256 - (t % 256 : Nat)) * g (at? (t / 256)) + (t % 256 : Nat) * g (at? (t / 256 + 1)))) 0
  ⟨roundDiv (sum RefPt.p) (2 ^ 24), roundDiv (sum RefPt.v) (2 ^ 24), u.a⟩

/-- The mode of the next frame. -/
def TtState.modeAhead (t : TtState) : Mode := t.modeNext.getD t.mode

/-- Does the reference of the next frame pass unshaped (R143)? -/
def TtState.unshaped (t : TtState) : Bool :=
  t.bypass || t.modeAhead == .step || t.modeAhead == .cam || t.shaper.1 == 0

/-- Set the reference planned for the next frame, with its shaped form. -/
def TtState.plan (t : TtState) (f : Nat) (u : RefPt) : TtState :=
  { t with uNext := u,
           oNext := if t.unshaped then u else shapeRef (impulses f t.shaper) u (t.u0 :: t.hist) t.fill }

/-- A reference at rest at `p`. -/
def restAt (p : Int) : RefPt := ⟨p, 0, 0⟩

/-- Is a reference at rest? -/
def RefPt.still (r : RefPt) : Bool := r.v == 0 && r.a == 0

/-- Are the unshaped and the shaped reference at rest at the tick that begins the next frame? -/
def TtState.atRest (t : TtState) : Bool := t.u0.still && t.o0.v == 0 && t.o0.p == t.u0.p

/-- Put an axis at rest at `p` in every form, its history filled with it (R223, R130). -/
def TtState.placeAt (t : TtState) (p : Int) : TtState :=
  { t with uNext := restAt p, u0 := restAt p, oNext := restAt p, hist := [], fill := restAt p, goal := .rest,
           reversal := none, bypass := false }

/-- Another motion takes the place of the one that the next frame was planned for: the follower ends (R163), and nothing is told or counted
of that plan, a limit that braked it (R136) or a step of the follower (R161, R168). -/
def Axis.unplanned (a : Axis) : Axis :=
  { a with
    fol := none
    dropDue := 0
    due := a.due.filter fun e => e.1 != 14 && !(e.1 == 10 && (fld e.2.2 7 0 == 2 || fld e.2.2 7 0 == 4)) }

/-- The reaction STOP_HOLD (R277): the axis is at rest at `sr`, and takes HOLD at the next tick. Following ends (R163, R279). -/
def Axis.stopHold (a : Axis) (sr : Int) : Axis :=
  { a.unplanned with tt := { a.tt.placeAt (sr * 65536) with modeNext := some .hold, running := .none, target := sr } }

/-! ### The virtual limits (R134–R139) -/

/-- A target clipped into the limits (R134); an axis that lies beyond a limit counts as lying on it, so that a target beyond it leaves the
axis where it is (R139). -/
def clipTarget (lo hi t p : Int) : Int :=
  if hi * 65536 < p ∧ hi < t then intPart p
  else if p < lo * 65536 ∧ t < lo then intPart p
  else max lo (min hi t)

/-- Where motion toward a virtual limit ends (R136): on the limit, or where the axis is if that lies beyond it (R139). -/
def limitPoint (lo hi p : Int) (high : Bool) : Int :=
  if high then (if hi * 65536 < p then intPart p else hi) else (if p < lo * 65536 then intPart p else lo)

/-- An event of axis `x` in frame `fr`: the one in progress, or the next, at whose tick it is raised. -/
def State.tellAt (s : State) (fr : FrameNo) (e : Nat) (x : AxisId) (d0 d1 : Word) : State :=
  if fr = s.frm.count then s.raise e x.val d0 d1 else s.modAx x fun a => { a with due := a.due ++ [(e, d0, d1)] }

/-- LIMIT_CLIPPED in the next frame (R145). -/
def State.limitClipped (s : State) (x : AxisId) (d0 : Int) (cause : Nat) (high : Bool) : State :=
  s.tellAt (s.frm.count + 1) 10 x (wdI d0) (wd (cause + 256 * b2n high))

/-- The least deceleration at or above the one of `n`, at most that of `o`, and then in the S-curve form the least jerk, that
brings a state to rest within `lim` ahead (R137); `dist` says how far a stop goes. -/
def raiseBrake (dist : Limits → Int) (n o : Limits) (lim : Int) : Limits :=
  if dist n ≤ lim then n
  else
    let top := max n.d o.d
    let d := bfind (fun d => decide (dist { n with d := d } ≤ lim)) 60 n.d top
    if dist { n with d := d } ≤ lim then { n with d := d }
    else { n with d := top, jd := bfind (fun j => decide (dist { n with d := top, jd := j } ≤ lim)) 60 n.jd (max n.jd o.jd) }

/-- The direction of travel of a state. -/
def RefPt.dir (r : RefPt) : Int := if r.v ≠ 0 then signInt r.v else signInt r.a

/-- How far ahead the natural stopping point of a state lies, in the direction of travel, in 2^-112. -/
def stopAhead (sc : Bool) (r : RefPt) (l : Limits) : Int := r.dir * (naturalStop (l.plim sc) r.kin - r.kin.p)

/-- How far ahead the virtual limit lies, in 2^-112. -/
def limitAhead (lo hi : Int) (r : RefPt) : Int :=
  if 0 < r.dir then hi * microQ - r.kin.p else r.kin.p - lo * microQ

/-- Does the stopping point of a state lie beyond a virtual limit (R135)? -/
def breaksGuard (sc : Bool) (l : Limits) (lo hi : Int) (r : RefPt) : Bool :=
  r.dir != 0 && decide (limitAhead lo hi r < stopAhead sc r l)

/-- A point held between the limits, unless the state lies beyond them. -/
def holdIn (lo hi s : Int) (r : RefPt) : Int :=
  if r.p < lo * 65536 ∨ hi * 65536 < r.p then s else max lo (min hi s)

/-! ### The step of each frame (R113) -/

/-- The profile form in force. -/
def TtState.sc (t : TtState) : Bool := t.profile == 1

/-- The limits of the running motion under VMAX (R131, R137). -/
def Axis.ownLimits (a : Axis) (f : Nat) : Limits := { a.tt.own with v := min a.tt.own.v (velForm f a.act.vmax) }

/-- The return leg of a reversal, from rest at the reversal point on, under the motion's own limits (R120, R137). -/
def Axis.returning (a : Axis) (f : Nat) : TtState :=
  if a.tt.goal = .target ∧ a.tt.reversal.isSome ∧ a.tt.u0.still then { a.tt with reversal := none, lim := a.ownLimits f } else a.tt

/-- Plan the next frame of an axis that does not follow. -/
def State.planProfile (s : State) (x : AxisId) : State :=
  let a := s.ax.get x
  let t := a.returning s.hz
  let pl := t.lim.plim t.sc
  match t.goal with
  | .rest => s.modTt x fun t => t.plan s.hz (restAt t.u0.p)
  | .target =>
    match t.reversal with
    | some r => s.modTt x fun t => t.plan s.hz (stepStop pl t.u0 r)
    | none => s.modTt x fun _ => t.plan s.hz (stepTarget pl t.u0 t.target)
  | .stop p _ => s.modTt x fun t => t.plan s.hz (stepStop pl t.u0 p)
  | .velocity v =>
    let u := stepVelocity pl t.u0 v
    -- R136: the limit ahead acts as a target
    if breaksGuard t.sc t.lim a.act.limLo a.act.limHi u then
      let hi := decide (0 < u.dir)
      let l := limitPoint a.act.limLo a.act.limHi t.u0.p hi
      let s1 := s.limitClipped x (intPart t.u0.p) 2 hi
      s1.modTt x fun t => { t with goal := .target, target := l }.plan s.hz (stepTarget pl t.u0 l)
    else s.modTt x fun t => t.plan s.hz u

/-- Stop an axis from the next frame on the fastest stop under limits `new`, `old` having been in force, within the virtual limits (R118,
R119, R137); LIMIT_CLIPPED cause 3 where the braking had to be raised. The commanded target becomes the rest position, a whole
microstep (R115, R123). At rest between two microsteps there is no direction of travel, and the axis stops on the one below (DESIGN
CHOICE, log 200). -/
def State.stopFrom (s : State) (x : AxisId) (new old : Limits) (park : Bool) : State :=
  let a := s.ax.get x
  let t := a.tt
  let lo := a.act.limLo
  let hi := a.act.limHi
  let within := limitAhead lo hi t.u0
  let past := t.u0.dir ≠ 0 ∧ within < stopAhead t.sc t.u0 new ∧ 0 ≤ within
  let l := if past then raiseBrake (stopAhead t.sc t.u0) new old within else new
  let p := if t.u0.still then intPart t.u0.p else holdIn lo hi (stopPoint (l.plim t.sc) t.u0) t.u0
  let s1 := if past then s.limitClipped x (intPart t.u0.p) 3 (decide (0 < t.u0.dir)) else s
  (s1.modAx x fun a =>
    { a.unplanned with tt := { a.tt with goal := .stop p park, lim := l, own := new, target := p, reversal := none } }).planProfile x

/-- Stop an axis from the next frame at deceleration `d` (2^-48), for the S-curve form at `jd` (R119). -/
def State.stopMotion (s : State) (x : AxisId) (d jd : Nat) (park : Bool) : State :=
  let a := s.ax.get x
  let old : Limits := if a.tt.lim.d = 0 then a.act.limits s.hz else a.tt.lim
  s.stopFrom x { old with d := d, jd := jd } old park

/-- Stop an axis on its stored stop deceleration and hold (R47, R48, R103, R156). -/
def State.stopStored (s : State) (x : AxisId) (park : Bool) : State :=
  let t := (s.ax.get x).act
  (s.stopMotion x (accForm s.hz t.stopDec) (jerkForm s.hz t.jdec) park).modTt x fun t => { t with running := .stop none (b2n park) }

/-- Does an axis move: profile or follower (R48)? -/
def Axis.moving (a : Axis) : Bool :=
  a.fol.isSome || !(a.tt.u0.still && a.tt.o0.v == 0) || a.tt.mode == .velocity || a.tt.mode == .position

/-- PROFILE and the shaper of the active set act from a move that starts at rest (R130), which starts without a step (R143). -/
def State.takeForms (s : State) (x : AxisId) : State :=
  s.modAx x fun a =>
    if a.tt.atRest then
      { a with tt := { a.tt with profile := a.act.profile, shaper := (a.act.shpForm, a.act.shpFreq, a.act.shpDamp), hist := [],
                                 fill := restAt a.tt.u0.p } }
    else a

/-- Limits braked as R137 says, where the stop from the state at the tick would pass a virtual limit; and whether it would. -/
def TtState.guarded (t : TtState) (lo hi : Int) (l o : Limits) : Limits × Bool :=
  let within := limitAhead lo hi t.u0
  if t.u0.dir ≠ 0 ∧ 0 ≤ within ∧ within < stopAhead t.sc t.u0 l then (raiseBrake (stopAhead t.sc t.u0) l o within, true) else (l, false)

/-- Choose the direct profile or the reversal for the commanded target (R120), under limits `l`; the event in frame `fr`, and none
for a reversal at `old` again. -/
def State.decideTarget (s : State) (x : AxisId) (l : Limits) (old : Option Int) (fr : FrameNo) : State :=
  let a := s.ax.get x
  let t := a.tt
  if t.u0.still then
    s.modTt x fun t => { t with lim := l, reversal := none, goal := if t.u0.p = t.target * 65536 then .rest else .target }
  else
    let pl := l.plim t.sc
    let sn := naturalStop pl t.u0.kin
    if -(microQ : Int) < (t.target * microQ - sn) * t.u0.dir then
      s.modTt x fun t => { t with lim := l, reversal := none, goal := .target }
    else
      let r := holdIn a.act.limLo a.act.limHi (stopPoint pl t.u0) t.u0
      let s1 := if old = some r then s else s.tellAt fr 11 x (wdI r) (wdI (Int.natAbs (r - t.target)))
      s1.modTt x fun t => { t with lim := l, reversal := some r, goal := .target }

/-- A new target (R120): clip, and choose the direct profile or the reversal. `l` are the new move's limits. Where the new move's lower
deceleration could not stop the axis inside a limit, the braking is raised as R137 says for a commit, without an event, for R137 names
only commits and STOPs (DESIGN CHOICE, log 220). -/
def State.newTarget (s : State) (x : AxisId) (target : Int) (l : Limits) : State :=
  let a := s.ax.get x
  let tc := clipTarget a.act.limLo a.act.limHi target a.tt.u0.p
  let s1 := if tc = target then s else s.limitClipped x target 1 (decide (a.act.limHi < target))
  let s2 := s1.modAx x fun a => { a.unplanned with tt := { a.tt with target := tc, reversal := none } }
  s2.decideTarget x (a.tt.guarded a.act.limLo a.act.limHi l a.tt.lim).1 none (s2.frm.count + 1)

/-- For how many ticks before the next one the unshaped reference has stood where it stands at it; none where it always has. -/
def TtState.restedFor (t : TtState) : Option Nat :=
  if t.hist.all (· == t.u0) ∧ t.fill = t.u0 then none else some (t.hist.takeWhile fun r => r == t.u0).length

/-- The low word of the planned frame of completion (AXn_ARRIVE, R142), where a target is approached: the unshaped end of the move, to
come or past, and the shaper delay rounded up to a whole frame; the frame of effect where nothing moves (R121). -/
def State.arrive (s : State) (x : AxisId) : Word :=
  let a := (s.ax.get x).now
  let t := a.returning s.hz
  let sh := if t.unshaped then 0 else (shaperDelay s.hz t.shaper + 255) / 256
  let next : Int := (s.frm.count + 1).toNat
  let last : Int :=
    let pl := t.lim.plim t.sc
    match t.reversal with
    | some r => next + (framesStop pl t.u0 r + framesTo ((a.ownLimits s.hz).plim t.sc) (restAt (r * 65536)) t.target : Nat) + sh
    | none =>
      if t.u0.still ∧ t.u0.p = t.target * 65536 then
        (match t.restedFor with
         | some n => next - n + sh
         | none => 0)
      else next + framesTo pl t.u0 t.target + sh
  let ends := wdI (max last t.effFrame.toNat)
  match t.goal, t.running with
  | .target, .none => wd 0xFFFFFFFF
  | .target, _ => ends
  | .rest, .move _ => ends
  | .rest, .group _ => ends
  | _, _ => wd 0xFFFFFFFF

end Sys2Proof.Machine
end

