-- ==== Sys2Proof/Machine/Order.lean ====
section
/-! DEFINITION. The order of descriptors (R82–R104): queues and heads, entering ordering, completing with a record and its
events, superseding, faulting an axis. -/

namespace Sys2Proof.Machine

/-! ### Queues and heads (R83–R85, R90) -/

/-- Has a descriptor entered ordering and not completed? -/
def Desc.active (d : Desc) : Bool := d.stage == .queued || d.stage == .effect

/-- The queue of an axis, in acceptance order (R83, R85). -/
def State.queueOf (s : State) (x : AxisId) : List Desc := s.ord.descs.filter fun d => d.active && d.axes.contains x

/-- AXn_QSTAT.QDEPTH. -/
def State.qdepth (s : State) (x : AxisId) : Nat := (s.queueOf x).length

/-- Move-queue entries that an axis holds (R84); a waiting record keeps its entry (R102). -/
def State.axisEntries (s : State) (x : AxisId) : Nat :=
  (s.ord.descs.filter fun d => d.stage != .staged && d.axes.contains x).length

/-- Entries of the move queue in use (R83). -/
def State.entriesUsed (s : State) : Nat :=
  s.ord.descs.foldl (fun n d => if d.stage = .staged then n else n + d.entries) 0

/-- Has a descriptor left the head, with its record to come at the end of the frame (R91)? The Granary refused it; or it was timed or
triggered and its effect has its outcome; or it came to the head behind such a one and could not take effect. -/
def Desc.leaves (d : Desc) : Bool := d.out.isSome && (d.stage == .queued || (d.stage == .effect && d.begun))

/-- The head of an axis queue: the latest descriptor that stands at the head at acceptance and has not taken effect, or has still to end
the others (R90), else the first. -/
def State.headOf (s : State) (x : AxisId) : Option Desc :=
  let q := (s.queueOf x).filter fun d => !d.leaves
  match (q.filter fun d => (d.stage == .queued && d.replaces) || (d.stage == .effect && d.repl)).getLast? with
  | some d => some d
  | none => q.head?

/-- Does a descriptor stand at the head of every queue it joins (R85, R154)? -/
def State.isHead (s : State) (d : Desc) : Bool := d.axes.all fun x => (s.headOf x).any fun e => e.acc == d.acc

/-- An opcode that a replacing descriptor does not end but waits for (R90). -/
def Desc.kept (d : Desc) : Bool := d.op == 7 || d.op == 0xF || (d.op == 0xE && u8 d.bytes 16 != 2)

/-- Does a descriptor in effect hold up a replacing one (R90)? -/
def State.blocked (s : State) (d : Desc) : Bool :=
  d.axes.any fun x => (s.queueOf x).any fun e => e.stage == .effect && !e.leaves && e.acc != d.acc && e.kept

/-! ### The prefetch store of a cam (R167) -/

/-- The store of a FOLLOW_CAM, empty. -/
def Desc.camStore (d : Desc) : FollowSt where
  kind := .cam
  desc := d.acc
  ring := d.ring
  eff := 0
  base := 0
  off := 0
  clamp := 0
  idx := u8 d.bytes 29
  mkind := u8 d.bytes 28
  base0 := 0
  gain := 0
  addr := u64 d.bytes 16
  count := u32 d.bytes 24
  scale := u32 d.bytes 32
  first := u32 d.bytes 36
  cyclic := u8 d.bytes 40 == 1
  phase := u32 d.bytes 36 * 65536
  lastM := 0
  fwd := true
  lines := []
  late := []
  asked := []
  pFirst := none
  pLow := none
  pHigh := none
  missed := 0
  lastU := 0
  backlog := 0
  ended := false

/-- The place of a cam's phase in its table: φ, or ψ in a cyclic table (R166). -/
def FollowSt.place (f : FollowSt) : Int := if f.cyclic then Int.fmod f.phase ((f.count - 1) * 65536) else f.phase

/-- The lines of a store's window, nearest first: the line of ⌊φ⌋, 24 ahead and 7 behind it in the direction of the master; it wraps
in a cyclic table (R167). -/
def FollowSt.window (f : FollowSt) : List Nat :=
  let n : Int := ((f.count + 15) / 16 : Nat)
  let here : Int := floorDiv f.place (65536 * 16)
  let dir : Int := if f.fwd then 1 else -1
  let steps : List Int := 0 :: (List.range 24).flatMap fun (i : Nat) => ((i : Int) + 1) :: (if i < 7 then [-((i : Int) + 1)] else [])
  let at_ := steps.map fun k => here + dir * k
  (if f.cyclic then at_.map (fun l => (l % n).toNat)
   else (at_.filter fun l => decide (0 ≤ l) && decide (l < n)).map Int.toNat).eraseDups

/-- The lines to request now: missing ones, with at most 8 reads outstanding. -/
def FollowSt.wants (f : FollowSt) : List Nat :=
  (f.window.filter fun l => !(f.lines.any fun e => e.1 == l) && !(f.late.any fun e => e.1 == l) && !f.asked.contains l).take
    (8 - f.asked.length)

/-- The reads of some lines of a table. -/
def State.readLines (s : State) (f : FollowSt) (l : List Nat) : State :=
  s.forAll l fun t n => t.emit (.dmaRead (t.owner f.ring) (f.addr + 64 * n) 64)

/-- Request what a store misses, while the link is up (R48, R167). -/
def State.fillCam (s : State) (f : FollowSt) : State × FollowSt :=
  if s.hif.linkUp then (s.readLines f f.wants, { f with asked := f.asked ++ f.wants }) else (s, f)

/-- The prefetch store of the FOLLOW_CAM that stands at the head of an axis queue, with its first window requested (R167). -/
def State.camHead (s : State) (x : AxisId) : State :=
  let have? := (s.ax.get x).ahead
  match s.headOf x with
  | some d =>
    if d.op = 6 ∧ d.stage = .queued ∧ d.rej.isNone ∧ ¬ d.refetch then
      if have?.any fun f => f.desc == d.acc then s
      else
        let (t, f) := s.fillCam d.camStore
        t.modAx x fun a => { a with ahead := some f }
    else if have?.isSome then s.modAx x fun a => { a with ahead := none } else s
  | none => if have?.isSome then s.modAx x fun a => { a with ahead := none } else s

/-! ### Completion (R71–R73, R142, R145) -/

/-- The axis of a record's position: the axis, or a GROUP_MOVE's lowest-numbered member (R73). -/
def Desc.lead (d : Desc) : Option AxisId := d.axes.head?

/-- The shaped position of the frame in progress, in whole microsteps. -/
def State.posOf (s : State) (x : AxisId) : Int := intPart (s.ax.get x).tt.o0.p

/-- The shaped position at the tick that began the frame in progress, in whole microsteps. -/
def State.tickPos (s : State) (x : AxisId) : Int := intPart (s.ax.get x).tt.o1.p

/-- The position that a record of a descriptor carries (R73). -/
def State.posWord (s : State) (d : Desc) : Word :=
  match d.lead with
  | some x => wdI (s.posOf x)
  | none => 0

/-- The completion record of a descriptor (R71). -/
def Desc.record (d : Desc) (status : Nat) (d0 d1 : Word) (fr : FrameNo) : Rec where
  status := BitVec.ofNat 8 status
  axis := d.bytes.getD 1 0
  alive := d.bytes.getD 2 0
  opcode := d.bytes.getD 0 0
  tag := d.tag
  frame := fr
  d0 := d0
  d1 := d1
  desc := some d.acc
  notify := d.isNotify

/-- The UNITs with which a rejection raises MOVE_REJECTED (R145): a GROUP_MOVE's members as its group stood, whatever its AXIS byte; else
the AXIS byte, also where it names no axis. -/
def State.rejectUnits (s : State) (d : Desc) : List Nat :=
  if d.op = 0x10 then (if d.members = [] then s.groupOf d.bytes else d.members).map (·.val) else [d.axisByte]

/-- Does a descriptor's rejection raise MOVE_REJECTED (R145)? -/
def Desc.moveRejects (d : Desc) (status : Nat) : Bool :=
  (status == 4 || status == 5) && ((decide (1 ≤ d.op) && decide (d.op ≤ 6)) || d.op == 0x10)

/-- MOVE_DONE and MOVE_REJECTED (R65, R145). -/
def State.finishEvents (s : State) (d : Desc) (status : Nat) (d0 : Word) (fr : FrameNo) : State :=
  let s1 :=
    if d.isEvent ∧ isMotionOp d.op ∧ (status = 0 ∨ status = 9) then
      match d.lead with
      | some x => s.raiseAt fr 8 x.val d0 d.tag
      | none => s
    else s
  if d.moveRejects status then s1.forAll (s.rejectUnits d) fun t u => t.raiseAt fr 9 u (wd status) d.tag else s1

/-- QUEUE_LOW (R145): the depth has fallen to QLOW while the axis moves. -/
def State.queueLow (s : State) (x : AxisId) (fr : FrameNo) : State :=
  let a := s.ax.get x
  let n := s.qdepth x
  let moving := a.tt.mode == .position || a.tt.mode == .velocity || a.tt.mode == .step || a.tt.mode == .cam
  if a.qlow ≠ 0 ∧ n = a.qlow ∧ moving then
    s.raiseAt fr 13 x.val (wd n) (match s.headOf x with | some d => d.tag | none => 0)
  else s

/-- The moves that the Weighbridge counts (R366, R372): one more for each axis that moved at least MINMOVE. -/
def State.moveFeed (s : State) (xs : List AxisId) (starts : List Int) : State :=
  (xs.zip starts).foldl (fun s (x, p0) =>
    if s.wb.table.minMove ≤ (s.tickPos x - p0).natAbs then
      { s with wb := { s.wb with sb := { s.wb.sb with moves := s.wb.sb.moves.set x ((s.wb.sb.moves.getD x 0 + 1) % 2 ^ 48) } } }
    else s) s

/-- A descriptor completes in frame `fr` (R72, R73, R83): its record, unless QUIET holds it back, and its events. Of several descriptors
that leave an axis queue in one frame, each lowers QDEPTH, and QUEUE_LOW is raised as the count reaches QLOW (DESIGN CHOICE,
log 197). -/
def State.finish (s : State) (d : Desc) (status : Nat) (d0 d1 : Word) (fr : FrameNo) : State :=
  let s1 := if (status = 0 ∧ d.isQuiet) ∨ d.mute then s.dropDesc d.acc else s.produce d.ring (d.record status d0 d1 fr)
  let s2 := s1.finishEvents d status d0 fr
  let s3 := if (status = 0 ∨ status = 9) ∧ (d.op = 1 ∨ d.op = 2 ∨ d.op = 0x10) then s2.moveFeed d.axes d.starts else s2
  if d.active then s3.forAll d.axes fun t x => (t.queueLow x fr).camHead x else s3

/-- OK, or HELD_THEN_OK for a descriptor that the Granary held (R101). -/
def State.finishOk (s : State) (d : Desc) (d0 d1 : Word) (fr : FrameNo) : State :=
  match d.held with
  | some f => s.finish d 9 d0 (wd (d.eff - f).toNat) fr
  | none => s.finish d 0 d0 d1 fr

/-- A descriptor that takes effect in the next frame completes in that frame, with its tick (R73, R87). -/
def State.later (s : State) (d : Desc) (status : Nat) (d0 d1 : Word) : State :=
  s.modDesc d.acc fun e => { e with out := some (status, d0, d1) }

/-- It completes so as OK, or HELD_THEN_OK for a descriptor that the Granary held (R101). -/
def State.laterOk (s : State) (d : Desc) (d0 d1 : Word) : State :=
  match d.held with
  | some f => s.later d 9 d0 (wd (d.eff - f).toNat)
  | none => s.later d 0 d0 d1

/-- A motion descriptor completes OK (R73). -/
def State.finishMotion (s : State) (d : Desc) (fr : FrameNo) : State := s.finishOk d (s.posWord d) (wd d.eff.toNat) fr

/-- A descriptor leaves with its rejection of step 3 or 4 of R69. -/
def State.finishRejected (s : State) (d : Desc) (fr : FrameNo) : State :=
  match d.rej with
  | some (st, d0, d1) => s.finish d st.toNat d0 d1 fr
  | none => s

/-- FLUSHED, with the event and the position (R73). -/
def State.flush (s : State) (d : Desc) (event : Nat) (fr : FrameNo) : State := s.finish d 7 (wd event) (s.posWord d) fr

/-- A refusal of R108: D0 1 and the mode code; MOVE_REJECTED whatever the opcode (R145). -/
def State.rejectMode (s : State) (d : Desc) (code : Nat) (fr : FrameNo) : State :=
  let s1 := s.finish d 5 1 (wd code) fr
  if d.moveRejects 5 then s1 else s1.forAll (s.rejectUnits d) fun t u => t.raiseAt fr 9 u 5 d.tag

/-- A descriptor at the head ends: `5, 1` with a mode code in D1 is a refusal of R108, for every other such D1 is 0x100 or more (R479). -/
def State.finishHead (s : State) (d : Desc) (status : Nat) (d0 d1 : Word) (fr : FrameNo) : State :=
  if status = 5 ∧ d0 = 1 ∧ d1.toNat < 0x100 then s.rejectMode d d1.toNat fr else s.finish d status d0 d1 fr

/-- A descriptor retires without a record (R47). -/
def State.retire (s : State) (d : Desc) : State := (s.dropDesc d.acc).forAll d.axes State.camHead

/-! ### Ending what runs -/

/-- Forget what a descriptor in effect set up on its axes, where its action ends with it: an IDENTIFY or ENERGIZE sequence, a
test move, a waiting mask, a running motion. -/
def State.release (s : State) (d : Desc) : State :=
  s.forAll d.axes fun t x => t.modAx x fun a =>
    { a with
      tt := { a.tt with
        running := match a.tt.running with
          | .none => .none
          | .move n => if n = d.acc then .none else .move n
          | .vel o v neg => .vel (if o = some d.acc then none else o) v neg
          | .stop o k => .stop (if o = some d.acc then none else o) k
          | .group n => if n = d.acc then .none else .group n
          | .ident n => if n = d.acc then .none else .ident n
        ring := match a.tt.ring with
          | some r => if r.desc = d.acc then none else some r
          | none => none }
      cd := { a.cd with seq := match a.cd.seq with
        | some q => if q.desc = d.acc then none else some q
        | none => none }
      br := { a.br with wait := match a.br.wait with
        | some m => if m.desc = d.acc then none else some m
        | none => none } }

/-! ### What a descriptor found (R90, R103) -/

/-- Keep axis `x` as descriptor `d` finds it. -/
def State.keepAxis (s : State) (d : Desc) (x : AxisId) : State :=
  s.modAx x fun a => if a.back.any fun b => b.desc == d.acc then a else { a with back := a.asFound d.acc :: a.back }

/-- What is kept of an axis without what descriptor `n` found, and the latter where nothing came after: a later descriptor then counts as
having found the axis as `n` did. -/
def dropFound (n : Nat) : List AxisBack → List AxisBack × Option AxisBack
  | [] => ([], none)
  | b :: l =>
    if b.desc = n then (l, some b)
    else match dropFound n l with
      | (k, some c) => ({ c with desc := b.desc } :: k, none)
      | (k, none) => (b :: k, none)

/-- What descriptor `n` set up for the next frame on axis `x` is undone. -/
def State.undoOn (s : State) (n : Nat) (x : AxisId) : State :=
  match dropFound n (s.ax.get x).back with
  | (k, some b) => s.modAx x fun a => { a.restored b with back := k }
  | (k, none) => s.modAx x fun a => { a with back := k }

/-- What descriptor `n` set up for the next frame is undone. -/
def State.undo (s : State) (n : Nat) : State :=
  s.forAll ((allFin 200).filter fun x => (s.ax.get x).back.any fun b => b.desc == n) fun t x => t.undoOn n x

/-- A descriptor that would have taken effect in the next frame waits for its start again, and ends no other in that frame. -/
def State.putBack (s : State) (n : Nat) : State :=
  let t := { s with ord := { s.ord with descs := s.ord.descs.map fun (e : Desc) => if e.arrives = some n then { e with arrives := none } else e } }
  t.modDesc n fun (e : Desc) => if e.stage = .effect ∧ ¬ e.begun then { e with stage := .queued, out := none, repl := false } else e

/-- What any descriptor set up for the next frame on axis `x` is undone, with all else that the descriptor set up. A SET_PARAM that joins
no queue, and so is not ended with the axis' queue, is planned anew (DESIGN CHOICE, log 198). -/
def State.undoAxis (s : State) (x : AxisId) : State :=
  s.forAll ((s.ax.get x).back.map (·.desc)) fun t n =>
    if (t.desc? n).any fun d => d.axes.isEmpty then (t.undo n).putBack n else t.undo n

/-- What any descriptor set up for the next frame on axis `x` is undone, and the descriptor is planned anew (R104). -/
def State.replan (s : State) (x : AxisId) : State :=
  s.forAll ((s.ax.get x).back.map (·.desc)) fun t n => (t.undo n).putBack n

/-- What the descriptors set that are flushed in their frame of effect on axis `x` is taken back (R91). -/
def State.undoFound (s : State) (x : AxisId) : State :=
  s.forAll (s.ax.get x).found fun t b =>
    t.modAx x fun a => a.unset b ((t.desc? b.desc).any Desc.isPosSet)

/-- The members of a GROUP_MOVE but for some stop on their stored stop deceleration and hold (R103, R156). -/
def State.stopOthers (s : State) (d : Desc) (but : List AxisId) : State :=
  if d.op = 0x10 ∧ d.stage = .effect then
    s.forAll (d.members.filter fun x => !but.contains x) fun t x =>
      match (t.ax.get x).tt.running with
      | .group n => if n = d.acc then t.stopStored x false else t
      | _ => t
  else s

/-- Is a running move at rest at its target at the tick that begins the next frame (R122)? -/
def State.arrivedAhead (s : State) (d : Desc) : Bool :=
  (d.op == 1 || d.op == 2 || d.op == 0x10) &&
    d.axes.all fun x => let t := (s.ax.get x).tt; t.atRest && t.u0.p == t.target * 65536 && t.reversal.isNone

/-- A descriptor that clears a FAULTED axis: STOP, PARK or ENERGIZE accepted later than the fault's frame (R104). -/
def Desc.clears (d : Desc) (f : FaultInfo) : Bool :=
  (d.op == 4 || d.op == 8 || d.op == 7) && frameLt f.frame d.accFrame

/-- The running descriptors that a replacing one ends (R90). -/
def State.ends (s : State) (d : Desc) : List Desc :=
  s.ord.descs.filter fun e => e.stage == .effect && e.acc != d.acc && !e.kept && e.axes.any fun x => d.axes.contains x

/-- A running descriptor that one ends which takes effect in the next frame (R90): whether it is at rest at its target at the tick that
begins the frame (R122); else the other members of a GROUP_MOVE stop (R156). -/
def State.endAhead (s : State) (d e : Desc) : State :=
  if s.arrivedAhead e then s.modDesc e.acc fun c => { c with arrives := some d.acc }
  else ((e.members.filter fun x => !d.axes.contains x).foldl (fun t x => t.keepAxis d x) s).stopOthers e d.axes

/-- End a descriptor on axis `x` as SUPERSEDED by `d`, or OK where R122 says so. One that waits on a FAULTED axis and does not clear the
fault is FLUSHED, or has its rejection (R104). -/
def State.endOne (s : State) (d e : Desc) (x : AxisId) (fr : FrameNo) : State :=
  let pos := wdI (s.tickPos x)
  if e.stage = .effect then
    if e.arrives = some d.acc then
      (s.finishOk e (match e.lead with | some y => wdI (s.tickPos y) | none => 0) (wd e.eff.toNat) fr).release e
    else (s.finish e 10 pos d.tag fr).release e
  else
    match (s.ax.get x).tt.faulted with
    | some f =>
      if e.clears f then s.finish e 10 pos d.tag fr
      else if e.rej.isSome then s.finishRejected e fr
      else s.finish e 7 (wd f.event) pos fr
    | none => s.finish e 10 pos d.tag fr

/-- The descriptors that a replacing one ends when it takes effect in frame `fr` (R90): on each of its axes the earlier ones that
have not taken effect, in queue order, then the running one. -/
def State.supersede (s : State) (d : Desc) (fr : FrameNo) : State :=
  s.forAll d.axes fun t x =>
    let before := (t.queueOf x).filter fun e => decide (e.acc < d.acc)
    let t1 := t.forAll (before.filter fun e => e.stage == .queued) fun u e => u.endOne d e x fr
    t1.forAll (before.filter fun e => e.stage == .effect && !e.kept) fun u e => u.endOne d e x fr

/-! ### Axis faults (R91, R103, R104) -/

/-- Does a descriptor count as running when a fault comes in frame `fr` (R91)? A timed or triggered one that takes effect in the very
frame does not. -/
def Desc.runningAt (d : Desc) (fr : FrameNo) : Bool :=
  d.stage == .effect && d.begun && (d.eff != fr || (!d.isTrig && d.start == 0))

/-- A fault acts on an axis in the frame in progress (R103): what would have taken effect in the next frame is undone, the running
descriptor is FAULT_ABORT, the others FLUSHED or their rejection, and the axis FAULTED; `pos` is the position of the records. A second
fault flushes nothing (R104). With a STALL under REPORT_ONLY of the same frame the reaction is STOP_HOLD at least (R279). -/
def State.faultAt (s : State) (x : AxisId) (event : Nat) (pos : Int) : State :=
  if (s.ax.get x).tt.faulted.isSome then s
  else
    let fr := s.frm.count
    let stalled (a : Axis) : Axis := match a.sg.report with
      | some (f, sr) => if f = fr ∧ a.energised then a.stopHold sr else a
      | none => a
    let s0 := (s.undoAxis x).undoFound x
    let q := s0.queueOf x
    let s1 := s0.forAll (q.filter fun d => d.runningAt fr) fun t d =>
      ((t.stopOthers d [x]).finish d 8 (wd event) (wdI pos) fr).release d
    let s2 := s1.forAll (q.filter fun d => !d.runningAt fr) fun t d =>
      if d.rej.isSome then t.finishRejected d fr
      else ((t.stopOthers d [x]).finish d 7 (wd event) (wdI pos) fr).release d
    s2.modAx x fun a => stalled { a with found := [], tt := { a.tt with faulted := some ⟨event, fr⟩ } }

/-- A fault acts on an axis, at its present shaped position. -/
def State.faultAxis (s : State) (x : AxisId) (event : Nat) : State := s.faultAt x event (s.posOf x)

/-- A cleared axis is no longer FAULTED (R104). -/
def State.clearFault (s : State) (x : AxisId) : State := s.modTt x fun t => { t with faulted := none }

/-! ### The frame of effect (R90, R91, R104) -/

/-- Descriptor `d` ends what it replaces (R90). -/
def State.replaceNow (s : State) (d : Desc) : State :=
  if d.repl then (s.supersede d s.frm.count).modDesc d.acc fun e => { e with repl := false } else s

/-- A descriptor that leaves completes with its outcome; one that the Granary refused is counted (R334). -/
def State.leave (s : State) (d : Desc) : State :=
  match d.out with
  | some (st, d0, d1) =>
    (if st = 6 then s.incReg Adr.GRN_REFCNT else s).finishHead d st d0 d1 s.frm.count
  | none => s

/-- What descriptor `n` does with its frame of effect: it ends what it replaces (R90), clears the faults that it may (R104), and completes
where its outcome stands. -/
def State.settle (s : State) (n : Nat) : State :=
  match s.desc? n with
  | none => s
  | some d =>
    let s1 := s.replaceNow d
    (s1.forAll d.axes fun t x => if (t.ax.get x).tt.faulted.any fun f => d.clears f then t.clearFault x else t).leave d

/-- Does a descriptor do so at the tick? A timed or triggered one waits to the end of the frame, so that a fault of the frame comes first
(R91), but for one on a FAULTED axis, where a further fault ends nothing (R104). -/
def State.settlesAtTick (s : State) (d : Desc) : Bool :=
  d.axes.isEmpty || (!d.isTrig && d.start == 0) || d.axes.any fun x => (s.ax.get x).tt.faulted.isSome

/-- The descriptors that leave at the end of a frame without an effect, in the order in which they left the heads: of the replacing ones
the latest stands first (R85, R90). -/
def leaving (l : List Desc) : List Desc :=
  let q := l.filter fun d => d.leaves && d.stage == .queued
  (q.filter Desc.replaces).reverse ++ q.filter fun d => !d.replaces

/-- The end of a frame for the descriptors that took effect in it and wait for it, and then for those behind them or refused by the
Granary (R85, R91). -/
def State.settleEnd (s : State) : State :=
  let t := s.forAll ((s.ord.descs.filter fun d => d.stage == .effect && d.begun && (d.repl || d.out.isSome)).map (·.acc)) State.settle
  t.forAll (leaving t.ord.descs) State.leave

/-! ### Entering ordering (R84, R93, R94, R154) -/

/-- Does a FENCE or BARRIER of ring `q` before descriptor `n` hold back entering (R93, R94)? R93 speaks of one that waits and leaves open
whether one that has entered ordering and whose start has not come (R86) does so too: it does (DESIGN CHOICE, log entry 238). -/
def State.gated (s : State) (q : RingId) (n : Nat) : Bool :=
  s.ord.descs.any fun e => e.ring == q && decide (e.acc < n) && (e.op == 9 || e.op == 0xA) && e.active

/-- Can the move queue take a descriptor (R83, R84)? -/
def State.roomFor (s : State) (d : Desc) : Bool :=
  decide (s.entriesUsed + d.entries ≤ 1536) && d.axes.all fun x => decide (s.axisEntries x < 64)

/-- The checks of a GROUP_MOVE on entry, in order (R154): reason and offset. -/
def State.groupEntry (s : State) (d : Desc) : Option (Nat × Nat) :=
  let ms := s.groupOf d.bytes
  if ms = [] then some (7, 16)
  else if ms.any fun x => (s.ax.get x).tt.mode == .disabled then some (2, 16)
  else if u16 d.bytes 32 ≠ ms.length then some (7, 32)
  else none

/-- The first staged descriptor of ring `q`. -/
def State.firstStaged (s : State) (q : RingId) : Option Desc := s.ord.descs.find? fun d => d.ring == q && d.stage == .staged

/-- One staged descriptor enters ordering where it can; `none` where it cannot. -/
def State.enterOne (s : State) (d : Desc) : Option State :=
  let m := if d.op = 0x10 ∧ d.rej.isNone then { d with members := s.groupOf d.bytes } else d
  if s.gated d.ring d.acc ∨ ¬ s.roomFor m then none
  else
    let s1 := s.modDesc d.acc fun e => { e with stage := .queued, members := m.members }
    if d.op = 0x10 ∧ d.rej.isNone then
      match s.groupEntry d with
      | some (r, o) => some (s.finish { m with stage := .staged } 4 (wd r) (wd o) s.frm.count)
      | none => some (s1.forAll m.axes State.camHead)
    else some (s1.forAll m.axes State.camHead)

/-- Every staged descriptor of ring `q` that can enters ordering, in slot order (R83, R84); `n` bounds the staging slots. -/
def State.enterRing (q : RingId) : Nat → State → State
  | 0, s => s
  | n + 1, s =>
    match s.firstStaged q with
    | none => s
    | some d =>
      match s.enterOne d with
      | none => s
      | some t => t.enterRing q n

/-! ### When a descriptor may take effect (R87–R89, R149) -/

/-- The tick at which slot `m` last fired, where it was this one. -/
def State.fires (s : State) (m : Fin 64) : Bool := (s.trg.get m).firedAt == some s.frm.count

/-- May a queued descriptor take effect in the next frame by START or TRIG (R87, R88, R149)? -/
def State.startDue (s : State) (d : Desc) : Bool :=
  if d.isTrig then
    s.fires d.slot && (if d.axes = [] then frameLt d.accFrame s.frm.count else d.headAt.isSome)
  else if d.start = 0 then frameLt d.accFrame s.frm.count
  else d.start == (s.frm.count + 1).toNat

/-- Is a descriptor due: queued, at the head, not held up, and started? -/
def State.due (s : State) (d : Desc) : Bool :=
  d.stage == .queued && d.out.isNone && d.rej.isNone && !d.refetch && s.isHead d && !s.blocked d && s.startDue d

/-- Is a CONSIST_SELECT in progress on a unit of one of a descriptor's axes (R434)? -/
def State.consistHolds (s : State) (d : Desc) : Bool :=
  s.ord.descs.any fun e => e.op == 0x11 && e.stage == .effect &&
    d.axes.any fun x => (BitVec.ofNat 8 (u8 e.bytes 17)).getLsbD (domOf x)

/-- Does a descriptor stand at the head, with nothing that it waits for (R85, R90, R100, R434)? -/
def State.stands (s : State) (d : Desc) : Bool :=
  d.stage == .queued && d.out.isNone && !d.refetch && s.isHead d && !s.blocked d && !s.consistHolds d

/-- Does an IDENTIFY kind 2 wait for one of the 8 capture buffers (R280)? -/
def State.noBuffer (s : State) (d : Desc) : Bool :=
  d.op == 0xE && u8 d.bytes 16 == 2 &&
    decide (8 ≤ (s.ord.descs.filter fun e => e.stage == .effect && e.op == 0xE && u8 e.bytes 16 == 2).length)

/-- Has the start of a descriptor come, with everything it needs: a capture buffer (R280), a target list (R154)? -/
def State.canStart (s : State) (d : Desc) : Bool :=
  s.startDue d && !s.noBuffer d && (d.op != 0x10 || d.targets.isSome)

/-- A descriptor takes effect in the next frame. -/
def State.takeEffect (s : State) (d : Desc) : State :=
  s.modDesc d.acc fun e => { e with stage := .effect, eff := s.frm.count + 1, begun := false }

/-- A descriptor as it stands after its effect. -/
def State.fresh (s : State) (d : Desc) : Desc := (s.desc? d.acc).getD d

/-- Has every descriptor accepted before `n` on some rings completed (R92, R94)? -/
def State.doneBefore (s : State) (n : Nat) (on : RingId → Bool) : Bool :=
  s.ord.descs.all fun e => !(on e.ring && decide (e.acc < n) && e.stage != .recordWaits && !e.mute)

end Sys2Proof.Machine
end

