-- ==== Sys2Proof/Machine/Stages.lean ====
section
/-! DEFINITION. The amplitude of each frame (R173, R182–R184): what it is taken from, when a motion comes to rest, and the stages of the
amplitude phases, those of the next frame foreseen. -/

namespace Sys2Proof.Machine

/-! ### What an amplitude is taken from (R173, R180) -/

/-- IPK in 1/64 mA and the Granary's factors in 1/256, as a frame has them. -/
structure Factors where
  ipk : Int
  gr : Nat
  gh : Nat
  deriving DecidableEq, Repr

/-- IPK in 1/64 mA (R173, R180): IRUN × √2, then × ITRIM / 256, a rounding after each. -/
def CardHalf.ipk (c : CardHalf) (trim : Nat) : Int := roundDiv (roundDiv (c.irun * 64 * isqrt (2 * 2 ^ 128)) one64 * trim) 256

/-- The factors of an axis in the frame in progress, or in the next one (`ahead`): a factor that the Granary changes, and an ITRIM that is
committed, act from the tick on (R173, R203). -/
def State.factors (s : State) (x : AxisId) (ahead : Bool) : Factors :=
  let a := s.ax.get x
  let p := s.pool.get (domOf x)
  if ahead then ⟨(s.cardOf x).ipk a.coilA.itrim, p.gr, p.gh⟩ else ⟨(s.cardOf x).ipk a.now.coilA.itrim, p.grNow, p.ghNow⟩

/-- IPK × GR / 256. -/
def Factors.run (f : Factors) : Int := roundDiv (f.ipk * f.gr) 256

/-- IPK × HFRAC / 256 × GH / 256. -/
def Factors.hold (f : Factors) (c : CardHalf) : Int := roundDiv (roundDiv (f.ipk * c.hfrac) 256 * f.gh) 256

/-- I_ID: IDFRAC / 256 × IPK. -/
def Factors.ident (f : Factors) (c : CardHalf) : Int := roundDiv (f.ipk * c.idfrac) 256

/-! ### Rest -/

/-- The unshaped reference of frame k − 1. -/
def TtState.u1 (t : TtState) : RefPt := t.hist.headD t.fill

/-- Are a shaped and an unshaped reference at rest at a whole microstep `p`? -/
def restedAt (o u : RefPt) (p : Int) : Bool := o.v == 0 && o.p == p * 65536 && u.still && u.p == p * 65536

/-- Are a shaped and an unshaped reference at rest at one place? -/
def restedTogether (o u : RefPt) : Bool := o.v == 0 && u.still && o.p == u.p

/-- Has what runs come to its rest with these references (R107, R121, R122, R125, R136, R144)? A motion that goes on after a fault ended
its descriptor (R103) rests at its target. -/
def TtState.rests (t : TtState) (o u : RefPt) : Bool :=
  match t.running with
  | .move _ => t.reversal.isNone && restedAt o u t.target
  | .group _ => t.reversal.isNone && restedAt o u t.target
  | .stop _ _ => restedTogether o u
  | .vel _ speed _ => (speed == 0 || (match t.goal with | .velocity _ => false | _ => true)) && restedTogether o u
  | .ident _ => restedAt o u t.target
  | .none => (t.mode == .position || t.mode == .velocity) && t.reversal.isNone && restedAt o u t.target

/-- Does what moves an axis in the frame in progress go on into the next one? -/
def Axis.runsOn (a : Axis) : Bool := a.tt.running == a.now.tt.running && a.tt.modeNext.isNone

/-- Will an axis enter HOLD with the next frame (R184)? -/
def Axis.holdsAhead (a : Axis) : Bool :=
  a.tt.modeNext == some .hold ||
    (a.runsOn && a.tt.rests a.tt.o0 a.tt.u0 && a.fol.isNone &&
      (a.tt.mode == .position || a.tt.mode == .velocity || a.tt.mode == .step || a.tt.mode == .cam) &&
      (match a.tt.running with | .stop _ k => k != 1 | _ => true))

/-! ### Stages (R173, R182, R184) -/

/-- The frames from `a` to `m`, 0 where `m` comes first. -/
def framesFrom (a m : FrameNo) : Nat := (m - a).toInt.toNat

/-- A step of `ms` in frames: ⌈t × f / 1,000⌉, never less than 1 (R182). -/
def State.stepFrames (s : State) (ms : Nat) : Nat := max 1 (s.msFrames ms)

/-- The length of a ramp of ENERGISING (R182), frames. -/
def State.rampFrames (s : State) (x : AxisId) : Nat := s.stepFrames (s.cardOf x).eramp

/-- The length of a step of a sequence (R182), frames. -/
def State.seqLen (s : State) (x : AxisId) (ph : Phase) : Nat :=
  match ph with
  | .energising => s.rampFrames x
  | .identR => s.stepFrames 2
  | .identL => 64
  | .off => 0
  | .run => 0
  | .pdWait => 0
  | .pdRamp => 0
  | .holdLow => 0

/-- The amplitude phase of an axis that enters HOLD (R184). -/
def State.holdPhase (s : State) (x : AxisId) : Phase :=
  let c := s.cardOf x
  if (s.ax.get x).coilA.pdEn = 0 then .run
  else if c.pddelay ≠ 0 then .pdWait
  else if c.pdramp ≠ 0 then .pdRamp else .holdLow

/-- What a frame's amplitude is taken from (R173): the phase, the frame in which it began, its length where it has one, GR as a ramp holds
it, and whether the ramp is the final one (R182). -/
structure Stage where
  phase : Phase
  start : FrameNo
  len : Nat
  gr : Nat
  final : Bool
  deriving DecidableEq, Repr

/-- Where a PD_WAIT or PD_RAMP that began in frame `at_` stands in frame `m` (R184). -/
def State.pdStage (s : State) (x : AxisId) (ph : Phase) (at_ m : FrameNo) : Stage :=
  let c := s.cardOf x
  let wait := s.msFrames c.pddelay
  let ramp := s.msFrames c.pdramp
  let n := (m - at_).toNat
  let inRamp (k : Nat) (from_ : FrameNo) : Stage :=
    if k < ramp then ⟨.pdRamp, from_, ramp, 0, false⟩ else ⟨.holdLow, from_ + BitVec.ofNat 64 ramp, 0, 0, false⟩
  match ph with
  | .pdWait => if n < wait then ⟨.pdWait, at_, wait, 0, false⟩ else inRamp (n - wait) (at_ + BitVec.ofNat 64 wait)
  | .pdRamp => inRamp n at_
  | .off => ⟨ph, at_, 0, 0, false⟩
  | .energising => ⟨ph, at_, 0, 0, false⟩
  | .identR => ⟨ph, at_, 0, 0, false⟩
  | .identL => ⟨ph, at_, 0, 0, false⟩
  | .run => ⟨ph, at_, 0, 0, false⟩
  | .holdLow => ⟨ph, at_, 0, 0, false⟩

/-- The final ramp of a sequence (R182, step 4), begun in a frame. -/
def State.finalStage (s : State) (x : AxisId) (gr : Nat) (start : FrameNo) : Stage := ⟨.energising, start, s.rampFrames x, gr, true⟩

/-- The step of a sequence after one that ended at frame `e` (R182, R190), with the factor of the frame that it is asked for. -/
def State.stageAfter (s : State) (x : AxisId) (q : SeqSt) (ph : Phase) (gr : Nat) (e : FrameNo) : Stage :=
  match ph with
  | .energising =>
    if q.final then s.pdStage x (s.holdPhase x) e e else ⟨.identR, e, s.stepFrames 2, 0, false⟩
  | .identR => if q.rOnly then s.finalStage x gr e else ⟨.identL, e, 64, 0, false⟩
  | _ => s.finalStage x gr e

/-- The stage of frame `m`, the frame in progress or, with `ahead`, the next one; the ends of steps between are foreseen. -/
def State.stageAt (s : State) (x : AxisId) (m : FrameNo) (ahead : Bool) : Stage :=
  let c := (s.ax.get x).cd
  let ph := if ahead then c.phaseNext.getD c.phase else c.phase
  let at_ := if ahead ∧ c.phaseNext.isSome then m else c.phaseAt
  if ahead ∧ (s.ax.get x).holdsAhead then s.pdStage x (s.holdPhase x) m m
  else match c.seq with
  | some q =>
    if ph = .energising ∨ ph = .identR ∨ ph = .identL then
      let len := s.seqLen x ph
      if q.boot ∨ framesFrom q.start m < len then ⟨ph, q.start, len, q.gr, q.final⟩
      else s.stageAfter x q ph (s.factors x ahead).gr (q.start + BitVec.ofNat 64 len)
    else s.pdStage x ph at_ m
  | none => s.pdStage x ph at_ m

/-- The stage of the next frame. -/
def State.stageAhead (s : State) (x : AxisId) : Stage := s.stageAt x (s.frm.count + 1) true

/-- The amplitude of frame `m`, the frame in progress or, with `ahead`, the next one, in a stage (R173): the ramps end on their last
frame, and one to RUN takes GR in its first. -/
def State.stageAmp (s : State) (x : AxisId) (g : Stage) (m : FrameNo) (ahead : Bool) : Int :=
  let i := (m - g.start).toNat + 1
  let f := s.factors x ahead
  let card := s.cardOf x
  match g.phase with
  | .off => 0
  | .energising =>
    if ((s.ax.get x).cd.seq.any fun q => q.boot) ∨ g.len = 0 ∨ frameLt m g.start then 0
    else
      let top := if g.final then { f with gr := if m = g.start then f.gr else g.gr }.run else f.ident card
      roundDiv (top * min i g.len) g.len
  | .identR => f.ident card
  | .identL => 0
  | .run => f.run
  | .pdWait => f.run
  | .pdRamp => f.run + roundDiv ((f.hold card - f.run) * min i g.len) (max 1 g.len)
  | .holdLow => f.hold card

/-- The amplitude of the next frame (R173). -/
def State.ampAhead (s : State) (x : AxisId) : Int := s.stageAmp x (s.stageAhead x) (s.frm.count + 1) true

end Sys2Proof.Machine
end

