-- ==== Sys2Proof/Machine/Granary.lean ====
section
/-! DEFINITION. The Granary (R329–R336): the amplitudes and grants of the axes, the checks of the pools, the decision about one
request, raising and shedding. -/

namespace Sys2Proof.Machine

/-- An amplitude in whole mA. -/
def wholeMa (a : Int) : Nat := (roundDiv a 64).toNat

/-- The amplitude of a grant in a phase (R330), in mA. -/
def Factors.grantAmp (f : Factors) (c : CardHalf) (ph : Phase) : Nat :=
  match ph with
  | .off => 0
  | .energising => wholeMa f.ipk
  | .identR => wholeMa f.ipk
  | .identL => wholeMa f.ipk
  | .run => wholeMa f.run
  | .pdWait => wholeMa f.run
  | .pdRamp => wholeMa f.run
  | .holdLow => wholeMa (f.hold c)

/-- The amplitude of an axis' grant in a phase of the next frame with some factors of its pool (R330), in mA. -/
def State.grantAmp (s : State) (x : AxisId) (ph : Phase) (gr gh : Nat) : Nat :=
  { s.factors x true with gr := gr, gh := gh }.grantAmp (s.cardOf x) ph

/-- An evaluation takes the allowances and the model from their registers (R336). -/
def State.granTake (s : State) : State :=
  { s with
    gran := ⟨s.rf Adr.GRN_MOD_ALLOW 16 0, s.rf Adr.GRN_MOD_BASE 15 0, s.rf Adr.GRN_TILE_ALLOW 15 0, s.rf Adr.GRN_HVY_ALLOW 15 0,
      s.rf Adr.GRN_MODEL 31 16, s.rf Adr.GRN_MODEL 15 0⟩ }

/-- h(I), the grant of a light axis in mW (R329). -/
def State.heatOf (s : State) (i : Nat) : Nat :=
  if i = 0 then 0 else (roundDiv (2 * i * i * s.gran.ronp) 1000000).toNat + s.gran.sw

/-- The grant at an amplitude in mA: mW, or mA for a heavy axis (R329). -/
def State.grantAt (s : State) (x : AxisId) (i : Nat) : Nat := if heavy x then i else s.heatOf i

/-- The phase that a request would bring its axis to (R331), where it is a request. -/
def State.forecastPhase (s : State) (d : Desc) (x : AxisId) : Option Phase :=
  let a := s.ax.get x
  match d.op with
  | 1 | 2 | 5 | 6 | 0x10 => some .run
  | 3 => some .run
  | 7 =>
    if a.tt.modeAhead = .hold then
      (if u8 d.bytes 17 = 1 then some .identR else if u8 d.bytes 16 = 0 then some .run else none)
    else some .energising
  | 0xE => if u8 d.bytes 16 = 2 then some .run else some .identR
  | _ => none

/-- A descriptor already granted for the next frame that has not yet taken effect. -/
def State.grantedFor (s : State) (x : AxisId) : Option Desc :=
  s.ord.descs.find? fun d => d.stage == .queued && d.grantAt == some (s.frm.count + 1) && d.axes.contains x

/-- The grant of an axis as it will stand in the next frame (R330, R332). -/
def State.grantOf (s : State) (x : AxisId) (gr gh : Nat) : Nat :=
  if s.rb (Adr.AX_BR_CFG x) 0 then s.grantAt x 1200
  else
    let ph := (s.stageAhead x).phase
    s.grantAt x (s.grantAmp x (((s.grantedFor x).bind fun d => s.forecastPhase d x).getD ph) gr gh)

/-- Σ of a pool's grants at given factors. -/
def State.poolSum (s : State) (p : DomainId) (gr gh : Nat) : Nat :=
  (axesOfDom p).foldl (fun n x => n + s.grantOf x gr gh) 0

/-- The grant of an axis in the frame in progress (AXn_GRN, R330). -/
def State.grantNow (s : State) (x : AxisId) : Nat :=
  if s.rb (Adr.AX_BR_CFG x) 0 then s.grantAt x 1200
  else s.grantAt x ((s.factors x false).grantAmp (s.cardOf x) (s.ax.get x).now.cd.phase)

/-- Σ of a pool's grants in the frame in progress (GRN_POOLp_B.GRANT). -/
def State.poolNow (s : State) (p : DomainId) : Nat := (axesOfDom p).foldl (fun n x => n + s.grantNow x) 0

/-- Σ of the light grants in the frame in progress (GRN_MOD_GRANT). -/
def State.modNow (s : State) : Nat := ((allFin 7).filter fun p => p.val < 6).foldl (fun n p => n + s.poolNow p) 0

/-- Σ of a pool's grants as they will stand in the next frame. -/
def State.poolGrant (s : State) (p : DomainId) : Nat := s.poolSum p (s.pool.get p).gr (s.pool.get p).gh

/-- Σ of the light grants as they will stand in the next frame. -/
def State.modGrant (s : State) : Nat := ((allFin 7).filter fun p => p.val < 6).foldl (fun n p => n + s.poolGrant p) 0

/-- The allowance of a pool (R329): A_t, or HVY_ALLOW. -/
def State.poolAllow (s : State) (p : DomainId) : Nat :=
  if p.val < 6 then s.gran.tile * (s.pool.get p).d / 256 else s.gran.hvy

/-- The module's allowance less its base (R329). -/
def State.modAllow (s : State) : Nat := s.gran.modAllow - s.gran.base

/-- What a request asks for: each axis with its forecast and present grant. -/
structure Ask where
  x : AxisId
  amp : Nat
  forecast : Nat
  present : Nat
  deriving DecidableEq, Repr

/-- The forecasts of a request (R331). -/
def State.asks (s : State) (d : Desc) : List Ask :=
  d.axes.filterMap fun x =>
    let p := s.pool.get (domOf x)
    match s.forecastPhase d x with
    | none => none
    | some ph =>
      let i := s.grantAmp x ph p.gr p.gh
      some ⟨x, i, s.grantAt x i, s.grantOf x p.gr p.gh⟩

/-- Σ of the increases that a request asks for. -/
def askSum (l : List Ask) : Int := l.foldl (fun n a => n + (a.forecast - a.present)) 0

/-- Σ of the increases of a request in pool `p`. -/
def askIn (l : List Ask) (p : DomainId) : Int :=
  l.foldl (fun n a => if domOf a.x = p then n + (a.forecast - a.present) else n) 0

/-- Does a descriptor need a grant that it does not yet have for the next frame (R331)? -/
def State.needsGrant (s : State) (d : Desc) : Bool := d.grantAt != some (s.frm.count + 1) && decide (0 < askSum (s.asks d))

/-- The axes that request in this frame (R333). -/
def State.requesting (s : State) : List AxisId :=
  (s.ord.descs.filter fun d => d.rej.isNone && s.stands d && s.canStart d && s.needsGrant d).flatMap Desc.axes

/-- Σ of a pool's grants at hold factor `gh`, the requesting axes `xs` kept as they stand (R333). -/
def State.poolSumBut (s : State) (xs : List AxisId) (p : DomainId) (gh : Nat) : Nat :=
  let q := s.pool.get p
  (axesOfDom p).foldl (fun n x => n + s.grantOf x q.gr (if xs.contains x then q.gh else gh)) 0

/-- What is free for a request in pool `p` at given hold factors. -/
def State.poolFree (s : State) (xs : List AxisId) (l : List Ask) (ghs : List Nat) (p : DomainId) : Int :=
  (s.poolAllow p : Int) - s.poolSumBut xs p (ghs.getD p 256) - askIn l p

/-- What is free for a request in the module check. -/
def State.modFree (s : State) (xs : List AxisId) (l : List Ask) (ghs : List Nat) : Int :=
  let tiles := (allFin 7).filter fun p => p.val < 6
  (s.modAllow : Int) - tiles.foldl (fun n p => n + s.poolSumBut xs p (ghs.getD p 256)) 0
    - tiles.foldl (fun n p => n + askIn l p) 0

/-- The pools that a request draws on. -/
def askPools (l : List Ask) : List DomainId := (allFin 7).filter fun p => l.any fun a => domOf a.x == p

/-- The pools that its failing checks cover (R333). -/
def State.failing (s : State) (xs : List AxisId) (l : List Ask) (ghs : List Nat) : List DomainId :=
  let pools := askPools l
  let own := pools.filter fun p => decide (s.poolFree xs l ghs p < 0)
  let light := pools.any fun p => decide (p.val < 6)
  if light ∧ s.modFree xs l ghs < 0 then (allFin 7).filter fun p => decide (p.val < 6) || own.contains p else own

/-- Lower GH step by step until every check holds; the factors, and whether they do (R333). -/
def State.lowerGh (s : State) (xs : List AxisId) (l : List Ask) : Nat → List Nat → List Nat × Bool
  | 0, ghs => (ghs, (s.failing xs l ghs).isEmpty)
  | n + 1, ghs =>
    let f := s.failing xs l ghs
    if f.isEmpty then (ghs, true)
    else
      let lo := s.rf Adr.GRN_CFG 7 0
      let next := f.foldl (fun g p => if lo < g.getD p 256 then g.set p (max lo (g.getD p 256 - 16)) else g) ghs
      if next = ghs then (ghs, false) else s.lowerGh xs l n next

/-- The hold factors in force, by pool. -/
def State.ghs (s : State) : List Nat := (allFin 7).map fun p => (s.pool.get p).gh

/-- The member with the largest forecast amplitude (R334). -/
def largestAsk (l : List Ask) : Option Ask :=
  l.foldl (fun m a => match m with | none => some a | some b => if b.amp < a.amp then some a else some b) none

/-- The largest amplitude whose grant fits in `room` (R334), mA. -/
def State.largestFit (s : State) (x : AxisId) (room : Int) : Nat :=
  if room < s.grantAt x 1 then 0 else bfind (fun i => decide (room < s.grantAt x i)) 17 1 65536 - 1

/-- D0 and D1 of a hold or a refusal (R334), at given hold factors. -/
def State.budgetWords (s : State) (xs : List AxisId) (l : List Ask) (ghs : List Nat) : AxisId × Word × Word :=
  match largestAsk l with
  | none => (0, 0, 0)
  | some a =>
    let pf := s.poolFree xs l ghs (domOf a.x)
    let free := if heavy a.x then pf else min pf (s.modFree xs l ghs)
    (a.x, wd a.amp, wd (s.largestFit a.x (free + a.forecast)))

/-- The verdict about a request. -/
inductive Verdict
  | granted | held | refused
  deriving DecidableEq, Repr

/-- Decide one descriptor that is due for the next frame (R331–R334, R101). A refused one completes at the end of the frame, so that a
fault of the frame comes first (R91). One whose pool has an earlier held request still waiting is held without a check, and BUDGET_HOLD
follows at its first check, also where that grants it. -/
def State.decideOne (s : State) (d : Desc) : State × Verdict :=
  let j := s.frm.count + 1
  let l := s.asks d
  let xs := s.requesting ++ d.axes
  if ¬ s.needsGrant d then (s, .granted)
  else
    let timed := d.isTrig || d.start != 0
    let waits := !timed && d.held.isNone && s.ord.descs.any fun e =>
      e.stage == .queued && e.held.isSome && e.acc != d.acc && s.needsGrant e &&
        (askPools (s.asks e)).any fun p => (askPools l).contains p
    let (ghs, ok) := if waits then (s.ghs, false) else s.lowerGh xs l 128 s.ghs
    let (x, w0, w1) := s.budgetWords xs l ghs
    let tell (t : State) : State := (t.raise 15 x.val w0 w1).modDesc d.acc fun e => { e with holdTold := true }
    if ok then
      let s0 := if d.held.isSome ∧ ¬ d.holdTold then tell s else s
      let s1 := s0.forAll (allFin 7) fun t p => t.modPool p fun q => { q with gh := ghs.getD p q.gh }
      (s1.modDesc d.acc fun e => { e with grantAt := some j }, .granted)
    else if timed then ((s.later d 6 w0 w1).forAll d.axes State.camHead, .refused)
    else
      let s1 := if d.held.isSome then s else (s.incReg Adr.GRN_HOLDCNT).modDesc d.acc fun e => { e with held := some j }
      if waits ∨ d.holdTold then (s1, .held) else (tell s1, .held)

/-- Do the checks of a pool hold with factors in place of its own? -/
def State.poolOk (s : State) (p : DomainId) (gr gh : Nat) : Bool :=
  let own := s.poolSum p gr gh
  decide (own ≤ s.poolAllow p) &&
    (decide (6 ≤ p.val) || decide (s.modGrant - s.poolGrant p + own ≤ s.modAllow))

/-- Raise a pool's GR by steps of 16 while the checks hold (R332). -/
def State.raiseGr (p : DomainId) : Nat → State → State
  | 0, s => s
  | n + 1, s =>
    let q := s.pool.get p
    let g := min 256 (q.gr + 16)
    if q.gr < 256 ∧ s.poolOk p g q.gh then (s.modPool p fun q => { q with gr := g }).raiseGr p n else s

/-- Raise a pool's GH by steps of 16 while the checks hold (R332). -/
def State.raiseGh (p : DomainId) : Nat → State → State
  | 0, s => s
  | n + 1, s =>
    let q := s.pool.get p
    let g := min 256 (q.gh + 16)
    if q.gh < 256 ∧ s.poolOk p q.gr g then (s.modPool p fun q => { q with gh := g }).raiseGh p n else s

/-- The pools whose grants exceed a check (R335): their own, or for the tiles that of the module. -/
def State.overPools (s : State) : List DomainId :=
  let tiles := decide (s.modAllow < s.modGrant)
  (allFin 7).filter fun p => decide (s.poolAllow p < s.poolGrant p) || (decide (p.val < 6) && tiles)

/-- Shed until every check holds: GH to GH_MIN in the pools that are over, then GR to GR_MIN (R335). -/
def State.shedGo : Nat → State → State
  | 0, s => s
  | n + 1, s =>
    let ghMin := s.rf Adr.GRN_CFG 7 0
    let grMin := s.rf Adr.GRN_CFG 15 8
    let f := s.overPools
    if f.any fun p => ghMin < (s.pool.get p).gh then
      (s.forAll f fun t p => t.modPool p fun q => { q with gh := min q.gh (max ghMin (q.gh - 16)) }).shedGo n
    else if f.any fun p => grMin < (s.pool.get p).gr then
      (s.forAll f fun t p => t.modPool p fun q => { q with gr := min q.gr (max grMin (q.gr - 16)) }).shedGo n
    else s

/-- Shed in every pool that is over, and show which still are (R335). -/
def State.shed (s : State) : State :=
  let t := s.shedGo 64
  let f := t.overPools
  t.forAll (allFin 7) fun u p => u.modPool p fun q => { q with isOver := f.contains p }

/-- The mean of some temperatures, 1/16 °C. -/
def meanTemp (l : List Int) : Int := roundDiv (l.foldl (· + ·) 0) (max 1 l.length)

/-- The temperature of a tile: the highest of its bays, each the mean of its last 16 valley samples, 1/16 °C (R328, R329). -/
def State.tileTemp (s : State) (p : DomainId) : Int :=
  ((allFin 25).filter fun u => domOfUnit u == p).foldl (fun m u => max m (meanTemp (s.cu.get u).temps)) (-1024)

/-- d_t at a temperature (R329). -/
def State.derating (s : State) (t : Int) : Nat :=
  let ds := 16 * s.rf Adr.GRN_DER 7 0
  let de := 16 * s.rf Adr.GRN_DER 15 8
  let dmin := s.rf Adr.GRN_DER 31 24
  if t ≤ ds then 256
  else if (de : Int) ≤ t then dmin
  else (256 - roundDiv ((t - ds) * (256 - dmin)) (max 1 (de - ds))).toNat

end Sys2Proof.Machine
end

