-- ==== Sys2Proof/Machine/Phases.lean ====
section
/-! DEFINITION. The amplitude phases (R182–R186): entering HOLD, parking, the bridge fault action (R223), and what refuses an ENERGIZE
(R479); the ready map (R422). -/

namespace Sys2Proof.Machine

/-- What AXn_TARGET shows (R146): the commanded target, which in VELOCITY, STEP and CAM mode is where R123 takes it, at the integer part of
the unshaped position at the tick that began the frame (DESIGN CHOICE, log 221). -/
def TtState.shownTarget (t : TtState) : Int :=
  match t.mode with
  | .velocity => intPart t.u1.p
  | .step => intPart t.u1.p
  | .cam => intPart t.u1.p
  | .parked => t.target
  | .hold => t.target
  | .position => t.target
  | .disabled => t.target

/-- The integrators of both coils set to 0. -/
def CdState.zeroInt (c : CdState) : CdState :=
  { c with ca := { c.ca with integ := 0 }, cb := { c.cb with integ := 0 } }

/-- The Timetable's state of an axis that has entered HOLD (R107). Both references are at rest, so that the shaper starts from a history
at rest, also where the motion passed unshaped (R143). -/
def TtState.held (t : TtState) : TtState :=
  { t with mode := .hold, modeNext := none, goal := .rest, reversal := none, running := .none, bypass := false, hist := [],
           fill := restAt t.u0.p }

/-- What a descriptor of the next frame found, when the motion `r` ends in the frame in progress. -/
def AxisBack.held (b : AxisBack) (r : Running) : AxisBack :=
  if b.tt.running = r ∧ b.tt.modeNext = none then { b with tt := b.tt.held, cd := { b.cd with phaseNext := none, seq := none } }
  else { b with tt := { b.tt with mode := .hold } }

/-- An axis enters HOLD in the frame in progress, already begun (R107, R184), whatever takes effect in the next one. -/
def State.enterHold (s : State) (x : AxisId) : State :=
  let ph := s.holdPhase x
  s.modAx x fun a =>
    let on := a.runsOn
    { a with
      tt := if on then a.tt.held else { a.tt with mode := .hold }
      cd := { a.cd with phase := ph, phaseNext := if on then none else a.cd.phaseNext, phaseAt := s.frm.count,
                        seq := if on then none else a.cd.seq }
      back := a.back.map fun b => b.held a.now.tt.running }

/-- The Timetable's state of an axis that has become PARKED at rest: the last planned position is kept (R105). -/
def TtState.parked (t : TtState) : TtState := { t.held with mode := .parked, parkDue := false }

/-- What a descriptor of the next frame found, on an axis that parks in the frame in progress. -/
def AxisBack.parked (b : AxisBack) : AxisBack :=
  { b with tt := b.tt.parked, fol := none, cd := { b.cd with phaseNext := none, seq := none }, due := [], dropDue := 0 }

/-- An axis becomes PARKED in the frame in progress (R186). -/
def State.parkNow (s : State) (x : AxisId) : State :=
  s.modAx x fun a =>
    { a with
      tt := a.tt.parked
      cd := { a.cd.zeroInt with phase := .off, phaseNext := none, phaseAt := s.frm.count, seq := none, offFor := 0 }
      fol := none
      back := a.back.map AxisBack.parked
      due := []
      dropDue := 0 }

/-- The bridge fault action (R223): every leg off, PHASE OFF, the integrators 0, the references at rest at `p`, PARKED at the next
tick. A STOP or PARK in effect still ends, at rest; a descriptor planned for the next frame is planned anew (R104). -/
def State.bridgeFaultAt (s : State) (x : AxisId) (p : Int) : State :=
  (s.replan x).modAx x fun a =>
    { a with
      fol := none
      back := []
      due := []
      dropDue := 0
      tt := { a.tt.placeAt p with o0 := restAt p, modeNext := if a.tt.mode = .disabled then none else some .parked,
                                  running := (match a.tt.running with | .stop o k => .stop o k | _ => .none), target := intPart p }
      cd := { a.cd.zeroInt with phase := .off, phaseNext := none, seq := none, offFor := 0, amp0 := 0,
                                phaseAt := s.frm.count }
      br := { a.br with faultOff := true, wait := none, code := 0 } }

/-- The bridge fault action at the present shaped position. -/
def State.bridgeFault (s : State) (x : AxisId) : State := s.bridgeFaultAt x (s.ax.get x).tt.o0.p

/-- A bridge fault: the axis is faulted with `event`, and takes the bridge fault action (R103, R223). -/
def State.bridgeFaulted (s : State) (x : AxisId) (event : Nat) : State := (s.faultAxis x event).bridgeFault x

/-- Every energised axis of a list is faulted with `event` and takes the bridge fault action; the number of them. -/
def State.faultEnergised (s : State) (xs : List AxisId) (event : Nat) : State × Nat :=
  let ys := xs.filter fun x => (s.ax.get x).energised
  (s.forAll ys fun t x => t.bridgeFaulted x event, ys.length)

/-- The phase of an axis whose motion takes effect in the next frame: back to RUN (R184). -/
def State.runPhase (s : State) (x : AxisId) : State := s.modCd x fun c => { c with phaseNext := some .run }

/-- The angle θR of R187 for a position: the angle 128 + 256 k nearest to it, the lower on a tie, in 2^-16 microstep. R187 leaves open
which is the lower at an angle of 0 modulo 1,024, 128 or −128: it is the lower position, −128 (DESIGN CHOICE, log entry 240). -/
def identAngle (p : Int) : Int := 128 * 65536 + floorDiv (p - 1) (256 * 65536) * (256 * 65536)

/-! ### The ready map (R422) -/

/-- A word of bits. -/
def bitsWord (n : Nat) (f : Fin n → Bool) : Word := (allFin n).foldl (fun w i => if f i then w ||| wd (2 ^ i.val) else w) 0

/-- Is the gate-drive rail of a tile released (R327)? -/
def State.tileRail (s : State) (t : Fin 7) : Bool := s.cmp.railRel.getLsbD (5 + t) && !s.cmp.railLo.getLsbD (5 + t)

/-- Does a core run verified code? -/
def State.coreRuns (s : State) (u : Fin 7) : Bool := s.sys.booted && !s.upd.restart.getLsbD u

/-- GCTL_READYw (R422). CONSIST and FW are set from the tick of frame 0 on (R417). -/
def State.readyWord (s : State) (w : Nat) : Word :=
  if w = 0 then
    let all := (allFin 7).all fun u => s.coreRuns u
    let oneSlot := s.upd.coreSlot == 0 || s.upd.coreSlot == 0x7F
    bitsWord 12 fun i =>
      match i.val with
      | 0 => s.hif.linkUp
      | 1 => s.frm.started && s.upd.loaded == 0x7F
      | 8 => s.coreRuns 6 && (s.cu.get 24).calOk
      | 9 => s.line.mode == .joined
      | 10 => s.wb.checked
      | 11 => s.frm.started && all && oneSlot
      | n => let t : Fin 7 := Fin.ofNat 7 (n - 2); s.coreRuns t && s.tileRail t
  else if w = 1 then bitsWord 24 fun b => (s.cu.get ⟨b.val, by omega⟩).calOk
  else if w = 2 then bitsWord 24 fun c => (s.fbc.get c).valid
  else if w < 10 then
    bitsWord 32 fun b => if h : 32 * (w - 3) + b.val < 200 then (s.ax.get ⟨32 * (w - 3) + b.val, h⟩).cd.idValid else false
  else 0

/-- READY_CHANGE for each word that changed since it was last reported (R424). -/
def State.readyChange (s : State) : State :=
  let s1 := s.forAll (List.range 10) fun t w =>
    let v := t.readyWord w
    if v = t.sys.ready.getD w 0 then t else t.raise 60 0x224 (wd w) v
  { s1 with sys := { s1.sys with ready := (List.range 10).map s1.readyWord } }

/-! ### What refuses an ENERGIZE (R479) -/

/-- Is a leg of the axis latched off (R222, R223)? -/
def State.legLatched (s : State) (x : AxisId) : Bool :=
  (((s.cu.get (unitOf x)).latch.toNat / 2 ^ (4 * (slotOf x).val)) % 16) != 0

/-- Does a comparator that an ENERGIZE needs stand unreleased since reset (R317)? -/
def State.windowUnset (s : State) (x : AxisId) : Bool :=
  (((s.cu.get (unitOf x)).unsetRst.toNat / 2 ^ (2 * (slotOf x).val)) % 4) != 0 || s.cmp.vmUnset.getLsbD (domOf x)

/-- Is the axis' gate rail locked (R255, R327)? -/
def State.railLocked (s : State) (x : AxisId) : Bool :=
  if heavy x then s.cmp.vghLock.getLsbD ((slotOf x).val / 4) else s.cmp.railLo.getLsbD (5 + (domOf x).val)

/-- Are the ready bits of an axis set (R423)? -/
def State.unitReady (s : State) (x : AxisId) : Bool :=
  let w0 := s.readyWord 0
  if heavy x then bitOf w0 8 else bitOf w0 (2 + (domOf x).val) && bitOf (s.readyWord 1) (unitOf x).val

/-- Is the axis in direct mode (R217)? -/
def State.direct (s : State) (x : AxisId) : Bool := !heavy x && s.rb (Adr.AX_BR_CFG x) 0

/-- Row 5 of R479: the lowest code that holds. -/
def State.supplyCode (s : State) (x : AxisId) : Option Nat :=
  if s.direct x then some 0x100
  else if s.railLocked x then some 0x200
  else if s.windowUnset x then some 0x300
  else if (s.cu.get (unitOf x)).tShut then some 0x400
  else if ¬ s.unitReady x then some 0x500
  else if s.rb Adr.GCTL_PWR 0 then some 0x600
  else none

/-- The first refusal of an ENERGIZE (R479): status, D0, D1. -/
def State.energizeRefusal (s : State) (x : AxisId) : Option (Nat × Word × Word) :=
  let m := (s.ax.get x).tt.modeAhead
  if s.rb Adr.FRM_WDOG 0 then some (8, 55, wdI (s.posOf x))
  else if s.line.estop ≠ 0 then some (8, 51, wdI (s.posOf x))
  else if s.legLatched x then some (8, 17, wdI (s.posOf x))
  else if m ≠ .parked ∧ m ≠ .hold then some (5, 1, wd m.code)
  else (s.supplyCode x).map fun c => (5, 1, wd c)

end Sys2Proof.Machine
end

