-- ==== Sys2Proof/Machine/Head.lean ====
section
/-! DEFINITION. What stands at the head of a queue: what settles it there without taking effect (R83, R89, R104, R108, R144, R156,
R479), and the common beginning of every descriptor that takes effect (R86–R90, R101, R331). -/

namespace Sys2Proof.Machine

/-- Is an axis in a mode that cannot take the descriptor (R108, R160)? `clear`: it clears the axis' fault (R104). -/
def Axis.cannotTake (a : Axis) (o : Nat) (clear : Bool) : Bool :=
  let m := a.tt.modeAhead
  m == .disabled ||
    (isMotionOp o && m == .parked && !(clear && (o == 4 || o == 8))) ||
    ((o == 5 || o == 6) && m != .hold && m != .velocity) ||
    (o == 0xE && m != .hold)

/-- The refusal of a descriptor at the head: status, D0, D1. -/
def State.headRefusal (s : State) (d : Desc) : Option (Nat × Word × Word) :=
  let b := d.bytes
  let bad := d.axes.find? fun x => (s.ax.get x).cannotTake d.op (s.ax.get x).tt.faulted.isSome
  let code (x : AxisId) : Option (Nat × Word × Word) :=
    let a := s.ax.get x
    some (5, 1, wd (if a.tt.modeAhead = .parked ∧ a.energised then 1 else a.tt.modeAhead.code))
  match d.op with
  | 7 => d.axes.findSome? s.energizeRefusal
  | 0xF =>
    if d.isPosSet then
      match d.axes.find? fun x => (s.ax.get x).tt.modeAhead != .hold && (s.ax.get x).tt.modeAhead != .parked with
      | some x => code x
      | none => none
    else none
  | 0xE =>
    if d.axes.any s.direct then some (5, 1, 0x100)
    else match bad with
    | some x => code x
    | none =>
      if u8 b 16 = 2 then
        let n := (s32 b 20).natAbs
        if d.axes.any fun x => (s.ax.get x).sg.state != .armed then some (5, 16, 0)
        else if n < 256 then some (5, 20, 256)
        else if 65536 < n then some (5, 20, 65536)
        else none
      else none
  | _ =>
    match bad with
    | some x => code x
    | none => none

/-- What a descriptor at the head ends with that cannot take effect: status, D0, D1. -/
def State.headOutcome (s : State) (d : Desc) : Option (Nat × Word × Word) :=
  match d.rej with
  | some (st, d0, d1) => some (st.toNat, d0, d1)
  | none =>
    match d.axes.find? fun x => (s.ax.get x).tt.faulted.any fun f => !d.clears f with
    | some x =>
      let e := match (s.ax.get x).tt.faulted with | some f => f.event | none => 0
      some (7, wd e, wdI (s.posOf x))
    | none => s.headRefusal d

/-- Settle a descriptor that stands at the head and cannot take effect; none where it can, or waits. Behind one whose record comes at the
end of the frame, its own comes then, so that the order of the queue stays (R85). -/
def State.settleOne (s : State) (d : Desc) : Option State :=
  if ¬ s.stands d then none
  else match s.headOutcome d with
    | none => none
    | some (st, d0, d1) =>
      if d.axes.any fun x => (s.queueOf x).any Desc.leaves then
        some ((s.later d st d0 d1).forAll d.axes State.camHead)
      else some (s.finishHead d st d0 d1 s.frm.count)

/-- Settle the heads of an axis queue as far as they settle; `n` bounds the queue. -/
def State.settleAxis (x : AxisId) : Nat → State → State
  | 0, s => s
  | n + 1, s =>
    match s.headOf x with
    | none => s
    | some d =>
      match s.settleOne d with
      | some t => t.settleAxis x n
      | none => s

/-- Bring descriptor `n` to its effect: it stands at the head, its start has come and the Granary grants it (R86–R91, R101, R331).
The second part is the descriptor where it takes effect now. -/
def State.begin (s : State) (n : Nat) (op : Nat → Bool) : State × Option Desc :=
  match s.desc? n with
  | none => (s, none)
  | some d =>
    if ¬ op d.op ∨ ¬ s.sys.powered ∨ ¬ s.stands d then (s, none)
    else
      match s.settleOne d with
      | some t => (t, none)
      | none =>
        if s.canStart d then
          let (t, v) := s.decideOne d
          if v = .granted then (t, some (t.fresh d)) else (t, none)
        else (s, none)

/-- A descriptor takes effect in the next frame (R86): the axes are kept as it finds them, what it replaces ends with that frame (R90),
and the Weighbridge reckons from the positions at its tick (R366). -/
def State.takeOver (s : State) (d : Desc) : State :=
  let s1 := s.forAll d.touches fun t x => t.keepAxis d x
  let s2 := if d.replaces then s1.forAll (s.ends d) fun t e => t.endAhead d e else s1
  let s3 := if isMotionOp d.op then s2.forAll d.axes fun t x => t.modTt x fun u => { u with runRing := some d.ring } else s2
  (s3.takeEffect d).modDesc d.acc fun e => { e with starts := d.axes.map s.posOf, repl := d.replaces }

/-- A descriptor whose effect in the next frame is refused: it ends with the tick of that frame, and replaces nothing. -/
def State.refuseAhead (s : State) (d : Desc) (status : Nat) (d0 d1 : Word) : State := (s.takeEffect d).later d status d0 d1

/-- Run the effect of descriptor `n`, where it takes effect. -/
def State.withEffect (s : State) (n : Nat) (op : Nat → Bool) (f : State → Desc → State) : State :=
  match s.begin n op with
  | (t, none) => t
  | (t, some d) => f (t.takeOver d) (t.takeOver d |>.fresh d)

end Sys2Proof.Machine
end

