-- ==== Sys2Proof/Machine/Params.lean ====
section
/-! DEFINITION. SET_PARAM: staging, the conditions of a commit (R129, R138, R201, R202, R204, R281, R298), and what a commit
changes (R119, R130–R133, R175, R184, R275, R300). -/

namespace Sys2Proof.Machine

/-! ### Staging -/

/-- The card that a SET_PARAM names (R199). -/
def cardIx (n : Nat) : Fin 64 := Fin.ofNat 64 n

/-- Write sixteen entries of a table (R201). -/
def CardHalf.putChunk (c : CardHalf) (k : Fin 16) (b : List Byte) : CardHalf :=
  (List.range 16).foldl (fun h i => h.putQ (16 * k.val + i) (u16 b (28 + 2 * i))) c

/-- Write the staged value of a parameter (R129), or the value that is held once (R127, R161). -/
def State.stage (s : State) (x : AxisId) (card : Fin 64) (p : ParamId) (v : Int) (b : List Byte) : State :=
  match p with
  | .tt i => s.modAx x fun a => { a with stg := a.stg.put i v }
  | .qlow => s.modAx x fun a => { a with qlow := v.toNat }
  | .lagmax => s.modAx x fun a => { a with lagmax := v.toNat }
  | .coil i => s.modAx x fun a => { a with coilS := a.coilS.put i v.toNat }
  | .sg i => s.modAx x fun a => { a with sgS := a.sgS.put i v.toNat }
  | .fb i => s.modAx x fun a => { a with fbS := a.fbS.put i v }
  | .card i => s.modCard card fun c => { c with stg := c.stg.put i v.toNat }
  | .table k => s.modCard card fun c => { c with stg := c.stg.putChunk k b }
  | .posSet => s
  | .grpDef => s
  | .trgDisarm => s

/-! ### R̂, L̂ and the winding temperature -/

/-- T_w of a resistance in 0.1 °C (R192). -/
def windingTemp (c : CardHalf) (r : Nat) : Int :=
  if c.tcr = 0 ∨ c.res25 = 0 then 250
  else 250 + roundDiv (((r : Int) - c.res25) * 10000000) (c.res25 * c.tcr)

/-- R̂ has changed: the estimate from the hotter coil, and TEMP_WARN (R192). -/
def State.rhatChanged (s : State) (x : AxisId) : State :=
  let c := s.cardOf x
  let a := s.ax.get x
  let r := max a.cd.ca.rhat a.cd.cb.rhat
  let t := windingTemp c r
  let lim : Int := 10 * c.twMax
  let s1 := if lim < t ∧ ¬ a.cd.twWarn then s.raise 43 x.val (wdI t) (wd r) else s
  s1.modCd x fun c => { c with twind := t, twWarn := if lim < t then true else if t < lim - 50 then false else c.twWarn }

/-- R̂ and L̂ take the card's values, and the IDENT result is no longer valid (R175, R182). -/
def State.resetHat (s : State) (x : AxisId) : State :=
  let c := s.cardOf x
  (s.modCd x fun d => { d with ca := { d.ca with rhat := c.res25, lhat := c.ind }, cb := { d.cb with rhat := c.res25, lhat := c.ind },
                               rsrc := 0, lsrc := 0, idValid := false }).rhatChanged x

/-- The estimator disarms (R275): UNARMED with TRAVEL 0, κ forgotten. -/
def SgState.disarm (g : SgState) : SgState :=
  { g with state := if g.state = .off then .off else .unarmed, travel := 0, emfFrames := 0, kSum := 0, kCnt := 0, kappa := none,
           acnt := 0, ccnt := 0, dcnt := 0 }

/-! ### Conditions of a commit (R129) -/

/-- What refuses a commit: status, D0, D1. -/
abbrev Refuse := Option (Nat × Word × Word)

/-- The first of two refusals. -/
def firstOf (a b : Refuse) : Refuse := a <|> b

/-- A refusal where a condition holds. -/
def refuseIf (c : Bool) (st : Nat) (d0 d1 : Int) : Refuse := if c then some (st, wdI d0, wdI d1) else none

/-- The limits that a stop is reckoned at: those in force, or the stored ones at rest; STOP_DEC while following (R136). -/
def State.inForce (s : State) (x : AxisId) : Limits :=
  let a := s.ax.get x
  if a.fol.isSome then { a.act.limits s.hz with d := accForm s.hz a.act.stopDec }
  else if a.tt.lim.d = 0 then a.act.limits s.hz else a.tt.lim

/-- Does the position or the stopping point lie beyond a new limit (R138)? -/
def State.beyond (s : State) (x : AxisId) (lim : Int) (high : Bool) : Bool :=
  let t := (s.ax.get x).tt
  let p := t.u0.p
  let r := if t.u0.still then p else 65536 * stopPoint ((s.inForce x).plim t.sc) t.u0
  if high then decide (lim * 65536 < p) || decide (lim * 65536 < r) else decide (p < lim * 65536) || decide (r < lim * 65536)

/-- May the mode of an axis stay under a new CAP (R107, R478)? -/
def Axis.capOk (a : Axis) (cap : Nat) : Bool :=
  if a.tt.modeAhead = .disabled then true
  else if cap = 0 then a.tt.modeAhead == .parked && !a.energised
  else modeIn a.tt.modeAhead cap

/-- The conditions of a commit of the Timetable set. -/
def State.ttRefusal (s : State) (x : AxisId) (n : TtSet) : Refuse :=
  let a := s.ax.get x
  firstOf (refuseIf (n.vmax < n.speed) 5 20 n.vmax) <|
  firstOf (refuseIf (n.limHi ≤ n.limLo) 5 20 n.limHi) <|
  firstOf (refuseIf (n.limLo != a.act.limLo && s.beyond x n.limLo false) 5 20 a.act.limLo) <|
  firstOf (refuseIf (n.limHi != a.act.limHi && s.beyond x n.limHi true) 5 20 a.act.limHi) <|
  refuseIf (n.cap != a.act.cap && !a.capOk n.cap) 4 6 20

/-- Will an axis be parked in the next frame (R478)? -/
def Axis.parkedAhead (a : Axis) : Bool := a.tt.modeAhead == .parked && a.cd.phaseNext.getD a.cd.phase == .off

/-- The mode code of the next frame that a refusal for not being parked reports (R478). -/
def Axis.refusalAhead (a : Axis) : Nat :=
  if a.tt.modeAhead = .parked ∧ a.cd.phaseNext.getD a.cd.phase ≠ .off then 1 else a.tt.modeAhead.code

/-- The conditions of a commit of the coil set (R204) by descriptor `d`, on the axis as it will stand in the frame of effect. A CARD equal
to the one in force is no commit of CARD: it is not refused on an axis that is not parked, and R̂ and L̂ stay (DESIGN CHOICE, log
199). -/
def State.coilRefusal (s : State) (d : Nat) (x : AxisId) (n : CoilSet) : Refuse :=
  let a := (s.ax.get x).asOf d
  let c := (s.cards.get (cardIx n.card)).act
  if n.card = a.coilA.card then none
  else
    firstOf (refuseIf (!a.parkedAhead) 5 20 a.refusalAhead) <|
    firstOf (refuseIf (!c.usable) 5 20 0) <|
    refuseIf (c.cls != b2n (heavy x)) 5 20 (b2n (heavy x))

/-- The conditions of a commit of the feedback set (R298). -/
def State.fbRefusal (s : State) (x : AxisId) (n : FbSet) : Refuse :=
  let a := s.ax.get x
  let o := a.fbA
  let other := (allFin 200).find? fun y => y != x && (s.ax.get y).fbA.chan == n.chan
  firstOf (refuseIf ((n.chan != o.chan || n.num != o.num || n.den != o.den) && !a.isParked) 5 20 a.refusalMode) <|
  if n.chan = o.chan ∨ n.chan = 255 then none
  else match other with
    | some y => some (5, 20, wd y.val)
    | none => none

/-- Do two halves of a card differ in a Parked value (R200)? -/
def parkedDiffer (a b : CardHalf) : Bool :=
  a.cls != b.cls || a.res25 != b.res25 || a.ind != b.ind || a.tcr != b.tcr || a.table != b.table

/-- The first place at which a table falls (R201). -/
def CardHalf.falls (c : CardHalf) : Option Nat :=
  (List.range 256).find? fun m => m != 0 && decide (c.q m < c.q (m - 1))

/-- The conditions of a commit of a card (R201, R202, R281). -/
def State.cardRefusal (s : State) (c : Fin 64) : Refuse :=
  let k := s.cards.get c
  let n := k.stg
  let users := ((s.usersOf c).filter fun x => (s.ax.get x).energised).length
  firstOf (refuseIf (k.act.usable && !n.usable) 5 20 0) <|
  firstOf (refuseIf (decide ((if n.cls = 0 then 848 else 30000) < n.irun)) 5 20 0) <|
  firstOf (refuseIf (decide (n.sgVemf ≤ n.sgVrip)) 5 20 n.sgVemf) <|
  firstOf (refuseIf (n.sgWarn != 0 && decide (n.sgAngle ≤ n.sgWarn)) 5 20 n.sgAngle) <|
  firstOf (match n.falls with | some m => some (5, 28, wd m) | none => none) <|
  refuseIf (parkedDiffer k.act n && users != 0) 5 20 users

/-! ### What a commit changes -/

/-- The commanded target is clipped into new limits (R138); in VELOCITY, STEP and CAM mode it is where the axis is (R123). -/
def State.reclip (s : State) (x : AxisId) : State :=
  let a := s.ax.get x
  let m := a.tt.modeAhead
  let t := clipTarget a.act.limLo a.act.limHi a.tt.target a.tt.u0.p
  if t = a.tt.target ∨ m = .velocity ∨ m = .step ∨ m = .cam then s
  else (s.limitClipped x a.tt.target 1 (decide (a.act.limHi < a.tt.target))).modTt x fun u => { u with target := t }

/-- Decide again for the target in force, under limits `l` (R132, R137). -/
def State.redecide (s : State) (x : AxisId) (l : Limits) : State :=
  let a := s.ax.get x
  let t := a.tt
  let (g, past) := t.guarded a.act.limLo a.act.limHi l t.lim
  let s1 := if past then s.limitClipped x (intPart t.u0.p) 3 (decide (0 < t.u0.dir)) else s
  s1.decideTarget x g t.reversal (s1.frm.count + 1)

/-- A lower speed limit. -/
def Limits.capV (l : Limits) (v : Nat) : Limits := { l with v := min l.v v }

/-- A velocity-mode axis goes on toward the velocity `v` under limits `l`, or brakes onto the virtual limit ahead where its guard asks for
it (R136); the braking has been told already where `braking`. -/
def State.runVelocity (s : State) (x : AxisId) (v : Int) (l : Limits) (braking : Bool) : State :=
  let a := s.ax.get x
  let u := stepVelocity (l.plim a.tt.sc) a.tt.u0 v
  if braking ∧ breaksGuard a.tt.sc l a.act.limLo a.act.limHi u then
    s.modTt x fun t =>
      { t with lim := l, goal := .target, reversal := none, target := limitPoint a.act.limLo a.act.limHi t.u0.p (decide (0 < u.dir)) }
  else s.modTt x fun t => { t with lim := l, goal := .velocity v, reversal := none }

/-- The velocity that a MOVE_VEL commands under limits `l`. -/
def Limits.signed (l : Limits) (neg : Bool) : Int := if neg then -(l.v : Int) else l.v

/-- A velocity-mode axis after a commit (R119, R131, R132, R136, R137), under limits `l`. -/
def State.revel (s : State) (x : AxisId) (neg : Bool) (l : Limits) (braking : Bool) : State :=
  let a := s.ax.get x
  let t := a.tt
  let (g, past) := t.guarded a.act.limLo a.act.limHi l t.lim
  if past then
    let hi := decide (0 < t.u0.dir)
    (s.limitClipped x (intPart t.u0.p) 3 hi).modTt x fun t =>
      { t with lim := g, goal := .target, reversal := none, target := if hi then a.act.limHi else a.act.limLo }
  else s.runVelocity x (l.signed neg) l braking

/-- The running motion's own limits after a commit of the Timetable set: NOW replaces them (R132), and bounds the speed of a MOVE_VEL
rather than replacing it. -/
def Axis.ownAfter (a : Axis) (f : Nat) (now : Bool) : Limits :=
  if now then
    match a.tt.running with
    | .vel _ speed _ => { a.act.limits f with v := min (velForm f speed) (velForm f a.act.speed) }
    | _ => a.act.limits f
  else a.tt.own

/-- The running motion after a commit of the Timetable set, under NOW (`now`) or with VMAX and the limits only (R119, R131, R132,
R137, R138). -/
def State.rerun (s : State) (x : AxisId) (now : Bool) : State :=
  let a := s.ax.get x
  let t := a.tt
  let f := s.hz
  let own := a.ownAfter f now
  let l := own.capV (velForm f a.act.vmax)
  let u := s.modTt x fun t => { t with own := own }
  let s1 := match t.goal, t.running with
    | .target, .move _ => u.redecide x l
    | .target, .group _ => u.redecide x l
    | .target, .ident _ => u.redecide x l
    | .target, .vel _ _ neg => u.revel x neg l true
    | .velocity _, .vel _ _ neg => u.revel x neg l false
    | .stop _ park, .vel _ _ _ => if now then s.stopFrom x own t.lim park else s
    | .stop _ park, .stop _ kind =>
      if now then
        (if kind = 2 then s.stopMotion x (accForm f a.act.qsDec) t.lim.jd park
         else s.stopMotion x (accForm f a.act.stopDec) (jerkForm f a.act.jdec) park)
      else s
    | _, _ => s
  if a.fol.isSome then s1 else s1.planProfile x

/-- Copy the staged Timetable set to the active one, with the consequences of R107, R119, R130–R132, R138. -/
def State.takeTt (s : State) (x : AxisId) (n : TtSet) : State :=
  let o := (s.ax.get x).act
  let m := (s.ax.get x).tt.modeAhead
  let s1 := s.modAx x fun a => { a with act := n }
  let s2 :=
    if m = .disabled ∧ n.cap ≠ 0 then s1.modTt x fun t => { t with mode := .parked, modeNext := none }
    else if m = .parked ∧ n.cap = 0 then s1.modTt x fun t => { t with mode := .disabled, modeNext := none }
    else s1
  let lims := n.limLo != o.limLo || n.limHi != o.limHi
  let s3 := if lims then s2.reclip x else s2
  if n.policy = 1 ∨ lims ∨ n.vmax ≠ o.vmax then s3.rerun x (n.policy == 1) else s3

/-- Copy a coil set to the active one (R184, R204), with the shaper defaults of a new card. -/
def State.takeCoil (s : State) (x : AxisId) (n : CoilSet) : State :=
  let o := (s.ax.get x).coilA
  let ph := (s.ax.get x).cd.phase
  let s1 := s.modAx x fun a => { a with coilA := n }
  let s2 :=
    if n.card = o.card then s1
    else
      let c := s1.cardOf x
      s1.modAx x fun a => { a with stg := { a.stg with shpForm := c.shpForm, shpFreq := c.shpFreq, shpDamp := c.shpDamp } }
  if o.pdEn = 1 ∧ n.pdEn = 0 ∧ (ph = .pdWait ∨ ph = .pdRamp ∨ ph = .holdLow) then s2.runPhase x else s2

/-- What a commit of CARD brings with it at the tick that begins its frame of effect (R175, R237, R275). -/
def State.cardNamed (s : State) (x : AxisId) : State :=
  ((s.resetHat x).modSg x SgState.disarm).modBr x fun b =>
    { b with present := 0, prA := ⟨false, 0, 0⟩, prB := ⟨false, 0, 0⟩ }

/-- Copy a stall set to the active one (R275). The values of the last evaluated frame, and what the next STALL and LOAD_WARNING wait for,
stay (R273, R274, R284). -/
def State.takeSg (s : State) (x : AxisId) (n : SgSet) : State :=
  let o := (s.ax.get x).sgA
  let s1 := s.modAx x fun a => { a with sgA := n }
  if n.mode = 0 ∧ o.mode ≠ 0 then
    s1.modSg x fun g =>
      { SgState.reset with state := .off, kappa := g.kappa, rawA := g.rawA, rawE := g.rawE, eexp := g.eexp, rho := g.rho,
                           warnRdy := g.warnRdy, hush := g.hush, report := g.report }
  else if n.mode ≠ 0 ∧ o.mode = 0 then s1.modSg x fun g => { g.disarm with state := .unarmed }
  else s1

/-- Copy a feedback set to the active one (R300). -/
def State.takeFb (s : State) (x : AxisId) (n : FbSet) : State :=
  let o := (s.ax.get x).fbA
  let s1 := s.modAx x fun a => { a with fbA := n }
  if n.chan ≠ o.chan ∨ n.num ≠ o.num ∨ n.den ≠ o.den then
    s1.modFbx x fun f => { f with assoc := none, assocAt := none, ncnt := 0 }
  else s1

/-- A ramp whose length a card changes ends no earlier than the frame in progress (R182). -/
def State.rampTo (s : State) (x : AxisId) : State :=
  s.modCd x fun c =>
    if c.phase = .energising then
      { c with seq := c.seq.map fun q =>
          if s.rampFrames x ≤ framesFrom q.start s.frm.count ∧ ¬ q.boot then
            { q with start := s.frm.count - BitVec.ofNat 64 (s.rampFrames x) }
          else q }
    else c

/-- A card's values are in force from the tick on (R175, R200, R202, R275). -/
def State.takeCard (s : State) (c : Fin 64) (n : CardHalf) : State :=
  let o := (s.cards.get c).act
  let s1 := s.modCard c fun k => { k with act := n }
  let s2 := if o.eramp = n.eramp then s1 else s1.forAll (s1.usersOf c) State.rampTo
  if o.res25 ≠ n.res25 ∨ o.ind ≠ n.ind then
    s2.forAll (s2.usersOf c) fun t x => (t.resetHat x).modSg x SgState.disarm
  else s2

/-! ### A SET_PARAM takes effect -/

/-- A SET_PARAM completes in its frame of effect, OK with its id (R73) or refused. -/
def State.paramDone (s : State) (d : Desc) (r : Refuse) : State :=
  match r with
  | some (st, d0, d1) => s.later d st d0 d1
  | none => s.laterOk d (wd (u16 d.bytes 16)) 0

/-- Is a commit of the Timetable set cost-bearing (R129)? -/
def TtSet.costs (n o : TtSet) : Bool := n.profile != o.profile || n.shpForm != o.shpForm || n.cap != o.cap

/-- A SET_PARAM of the Timetable's or the coil set takes effect in the next frame, which the frame in progress plans with them (R113, R129,
R173): it is staged, and with `commit` 1 the set is copied, refused, or a request of its frame of effect (R30). -/
def State.setParamAhead (s : State) (d : Desc) (x : AxisId) (p : ParamId) (commit : Bool) : State :=
  let s1 := s.stage x 0 p (paramValue p d.bytes) d.bytes
  let a := s1.ax.get x
  if ¬ commit then s1.paramDone d none
  else match p with
    | .tt _ =>
      match s1.ttRefusal x a.stg with
      | some r => s1.paramDone d (some r)
      | none =>
        if a.stg.costs a.act then s1.ask (.commitTt d.acc a.stg) (s1.frm.count + 1) else (s1.takeTt x a.stg).paramDone d none
    | _ =>
      match s1.coilRefusal d.acc x a.coilS with
      | some r => s1.paramDone d (some r)
      | none => (s1.takeCoil x a.coilS).paramDone d none

/-- A SET_PARAM of a stored parameter, in the frame before its frame of effect (R129). -/
def State.setParamEffect (s : State) (d : Desc) : State :=
  match paramOf (u16 d.bytes 16) with
  | some (.tt i) => s.setParamAhead d d.paramAxis (.tt i) (u8 d.bytes 19 == 1)
  | some (.coil i) => s.setParamAhead d d.paramAxis (.coil i) (u8 d.bytes 19 == 1)
  | _ => s

/-- Commit the stall set, the feedback set or a card at the tick that begins the frame of effect (R129), and complete or ask for
admission. -/
def State.commitTick (s : State) (d : Desc) (x : AxisId) (card : Fin 64) (p : ParamId) : State :=
  let a := s.ax.get x
  let cardDone : State :=
    match s.cardRefusal card with
    | some r => s.paramDone d (some r)
    | none => (s.takeCard card (s.cards.get card).stg).paramDone d none
  match p with
  | .sg _ => (s.takeSg x a.sgS).paramDone d none
  | .fb _ =>
    match s.fbRefusal x a.fbS with
    | some r => s.paramDone d (some r)
    | none =>
      if a.fbS.chan ≠ a.fbA.chan ∨ a.fbS.corr ≠ a.fbA.corr then s.ask (.commitFb d.acc a.fbS) s.frm.count
      else (s.takeFb x a.fbS).paramDone d none
  | .card _ => cardDone
  | .table _ => cardDone
  | _ => s.paramDone d none

/-- A SET_PARAM of a stored parameter at the tick that begins its frame of effect (R129, R175): the set that it commits, or what a new CARD
brings with it. -/
def State.setParamTick (s : State) (d : Desc) : State :=
  let x := d.paramAxis
  match paramOf (u16 d.bytes 16) with
  | some (.tt _) => s
  | some (.coil _) =>
    if (s.ax.get x).back.any fun b => b.desc == d.acc && b.coilA.card != (s.ax.get x).coilA.card then s.cardNamed x else s
  | some p =>
    let card := cardIx (u8 d.bytes 18)
    let s1 := s.stage x card p (paramValue p d.bytes) d.bytes
    if u8 d.bytes 19 = 1 then s1.commitTick d x card p else s1.paramDone d none
  | none => s

end Sys2Proof.Machine
end

