-- ==== Sys2Proof/Machine/Admission.lean ====
section
/-! DEFINITION. Admission of configurations (R30–R37, R43, R133): the costs, the thirteen resources, the verdict about one request and
its report. -/

namespace Sys2Proof.Machine

/-- What admission charges an axis for: the capability set, the profile and shaper forms, the feedback channel (assigned?) and
correction; `profile2` and `shaper2` are the forms still in force on a moving axis (R133). -/
structure AxisLoad where
  cap : Nat
  profile : Nat
  shaper : Nat
  profile2 : Nat
  shaper2 : Nat
  chan : Bool
  corr : Bool
  deriving DecidableEq, Repr

/-- A configuration as admission sees it (R30). -/
structure AdmCfg where
  rate : Fin 4
  ofs : List (BitVec 3)
  slack : Nat
  costs : List Nat
  line : Bool
  axes : List AxisLoad
  deriving DecidableEq, Repr

/-- Available processor cycles per half-frame (R16). -/
def procAvail : Fin 4 → Nat
  | 0 => 7000
  | 1 => 8875
  | 2 => 11500
  | 3 => 14500
/-- Available engine lane cycles per half-frame (R16). -/
def laneAvail : Fin 4 → Nat
  | 0 => 4800
  | 1 => 6050
  | 2 => 7800
  | 3 => 9800

/-- The load of an axis with another Timetable set (R33, R133). -/
def Axis.loadTt (a : Axis) (l : AxisLoad) (t : TtSet) : AxisLoad :=
  { l with
    cap := t.cap
    profile := t.profile
    shaper := t.shpForm
    profile2 := if a.tt.atRest then t.profile else a.tt.profile
    shaper2 := if a.tt.atRest then t.shpForm else a.tt.shaper.1 }

/-- The load of an axis with another feedback set (R33). -/
def AxisLoad.withFb (l : AxisLoad) (f : FbSet) : AxisLoad := { l with chan := decide (f.chan < 24), corr := f.corr == 1 }

/-- The load of an axis as it is configured, with given active sets. -/
def Axis.load (a : Axis) (t : TtSet) (f : FbSet) : AxisLoad := (a.loadTt ⟨0, 0, 0, 0, 0, false, false⟩ t).withFb f

/-- The configuration in force. -/
def State.admCfg (s : State) : AdmCfg where
  rate := s.frm.rate
  ofs := s.cu.toList.map (·.ofs)
  slack := s.rf Adr.FRM_ADMIT_CTL 13 8
  costs := s.frm.costs
  line := s.frm.lineCost
  axes := s.ax.toList.map fun a => a.load a.act a.fbA

/-- The cost of item `m` (R43). -/
def AdmCfg.cost (c : AdmCfg) (m : Nat) : Nat := c.costs.getD m 0

/-- The processor cost of an axis with given forms (R33). -/
def AdmCfg.formCost (c : AdmCfg) (a : AxisLoad) (profile shaper : Nat) : Nat :=
  let cap := BitVec.ofNat 6 a.cap
  let has (i : Nat) : Bool := cap.getLsbD i
  let modes := [(has 0, 1), (has 1, 2), (has 2 || has 3, if profile = 1 then 4 else 3), (has 4, 5), (has 5, 6)]
  let m := modes.foldl (fun n (b, i) => if b then max n (c.cost i) else n) (if a.cap = 0 then c.cost 0 else 0)
  m + (if shaper ≠ 0 ∧ (has 2 || has 3) then c.cost (6 + shaper) else 0) +
    (if a.chan then c.cost (if a.corr then 10 else 11) else 0)

/-- The processor cost of an axis (R33); the larger of two while a change of form waits for rest (R133). -/
def AdmCfg.axisCost (c : AdmCfg) (a : AxisLoad) : Nat := max (c.formCost a a.profile a.shaper) (c.formCost a a.profile2 a.shaper2)

/-- The estimator and the coil work of an axis (R34). -/
def AdmCfg.engineCost (c : AdmCfg) (a : AxisLoad) (heavy : Bool) : Nat × Nat :=
  if a.cap = 0 then (c.cost 15, c.cost 16)
  else if a.cap = 1 then (c.cost 17, c.cost 18)
  else if heavy then (c.cost 21, c.cost 22) else (c.cost 19, c.cost 20)

/-- The limit of a window (R37, R42). -/
def Window.limit (w : Window) (slack : Nat) : Nat := (100 - slack) * w.avail / 100
/-- The shortfall of a window (R37). -/
def Window.short (w : Window) (slack : Nat) : Int := w.demand - w.limit slack
/-- Is a window admitted (R35)? -/
def Window.ok (w : Window) (slack : Nat) : Bool := decide (100 * w.demand ≤ (100 - slack) * w.avail)

/-- The one window of a processor, 0–5 P0–P5 and 6 PS (R32, R33). -/
def AdmCfg.processor (c : AdmCfg) (p : Nat) : Window :=
  let own := if p < 6 then (c.axes.drop (32 * p)).take 32 else c.axes.drop 192
  let d := own.foldl (fun n a => n + c.axisCost a) (c.cost 12)
  ⟨if p < 6 then d else d + c.cost 13 + (if c.line then c.cost 14 else 0), procAvail c.rate, 0, 0⟩

/-- The pieces of work of tile engine `t`: the start of the half-frame window of each, in eighths, and the cycles (R32, R34). -/
def AdmCfg.engineWork (c : AdmCfg) (t : Nat) : List (Nat × Nat) :=
  let light := (List.range 32).map fun i => (32 * t + i, (32 * t + i) / 8, false)
  let heavies := if t < 4 then [(192 + 2 * t, 24, true), (193 + 2 * t, 24, true)] else []
  (light ++ heavies).flatMap fun (x, u, h) =>
    match c.axes[x]? with
    | some a =>
      let (e, k) := c.engineCost a h
      let o := (c.ofs.getD u 0).toNat
      [(o, e), ((o + 4) % 8, k)]
    | none => []

/-- A tile engine in the interval of `j` eighths from `a` (R35): the whole circular frame contains every window. -/
def AdmCfg.engine (c : AdmCfg) (work : List (Nat × Nat)) (a j : Nat) : Window :=
  let d := work.foldl (fun n (w, k) => if j = 8 ∨ (w + 8 - a) % 8 + 4 ≤ j then n + k else n) (c.cost 23)
  ⟨d, j * laneAvail c.rate / 2, a, j⟩

/-- The intervals that are checked, by start and then by length (R35, R37). -/
def AdmCfg.engineWindows (c : AdmCfg) (t : Nat) : List Window :=
  let work := c.engineWork t
  (List.range 8).flatMap fun a => [4, 5, 6, 7, 8].map fun j => c.engine work a j

/-- The windows of a resource, 0–6 processors and 8–13 engines. -/
def AdmCfg.windows (c : AdmCfg) (r : Nat) : List Window :=
  if r < 7 then [c.processor r] else c.engineWindows (r - 8)

/-- The worst window (R37): the largest shortfall, on a tie the first. -/
def AdmCfg.worst (c : AdmCfg) (r : Nat) : Window :=
  match c.windows r with
  | [] => ⟨0, 0, 0, 0⟩
  | w :: ws => ws.foldl (fun m v => if m.short c.slack < v.short c.slack then v else m) w

/-- The resources, in the order of their codes (R37). -/
def resources : List Nat := [0, 1, 2, 3, 4, 5, 6, 8, 9, 10, 11, 12, 13]

/-- The first resource that fails, with its worst window (R35, R37). -/
def AdmCfg.failing (c : AdmCfg) : Option (Nat × Window) :=
  resources.findSome? fun r => if (c.windows r).all (·.ok c.slack) then none else some (r, c.worst r)

/-- FRM_LOADn, computed from the configuration in force, which needs the boot (R37, R42, R133); a figure past 65,535 is held there
(log entry 219). -/
def State.loadView (s : State) (n : Nat) : Word :=
  if s.sys.booted ∧ resources.contains n then
    (let w := s.admCfg.worst n; wd (satU 16 w.avail * 65536 + satU 16 w.demand))
  else 0

/-! ### The verdict (R23, R29, R37) -/

/-- Is this station a follower in a line (R29)? -/
def State.follower (s : State) : Bool := (s.line.mode == .joined || s.line.mode == .locking) && s.rf Adr.LINE_CFG 6 4 != 0

/-- Does the line bar a change of rate (R29, R350)? On station 0, unless every joined follower reports its axes PARKED. -/
def State.lineBarsRate (s : State) : Bool :=
  s.follower || (s.line.mode == .joined && (List.range 8).any fun i =>
    i != s.rf Adr.LINE_CFG 6 4 && s.line.present.getLsbD i && !(s.line.peers.getD i .reset).parked)

/-- Does a request of this kind accept DISABLED axes together with parked ones (R433, R478)? A Consist does, and a rate comes with no
other kind but GO. -/
def AdmKind.disabledOk : AdmKind → Bool
  | .go _ _ _ _ => false
  | .consist _ => true
  | .commitTt _ _ => true
  | .commitFb _ _ => true
  | .line => true
  | .firmware _ _ => true

/-- The reason code of a resource refusal (R37): COST_TABLE for a firmware switch, else SLACK. -/
def AdmKind.shortCode : AdmKind → Nat
  | .firmware _ _ => 5
  | .go _ _ _ _ => 1
  | .consist _ => 1
  | .commitTt _ _ => 1
  | .commitFb _ _ => 1
  | .line => 1

/-- The verdict about a configuration `c` that a request of kind `k` asks for, where `o` results from all earlier accepted requests
(R23, R29, R37): a change of rate needs every axis parked, and one of an offset every axis of the unit; DISABLED is not parked unless the
request accepts it (R478). -/
def State.judgeCfg (s : State) (o c : AdmCfg) (k : AdmKind) : AdmVerdict :=
  let moved (u : CarrierId) : Bool := c.ofs.getD u 0 != o.ofs.getD u 0
  let bars (a : Axis) : Bool := !(a.isParked || (k.disabledOk && a.tt.mode == .disabled && !a.energised))
  if c.rate ≠ o.rate ∧ s.lineBarsRate then .refused ⟨4, none⟩
  else if c.rate ≠ o.rate ∧ s.ax.toList.any bars then .refused ⟨2, none⟩
  else if (allFin 25).any fun u => moved u && (axesOf u).any fun x => bars (s.ax.get x) then .refused ⟨3, none⟩
  else match c.failing with
    | some f => .refused ⟨k.shortCode, some f⟩
    | none => .accepted

/-- Post a verdict in the report registers (R37, R42). The spec does not say what a 16-bit field shows of a figure past 65,535: the model
holds it there (DESIGN CHOICE, log entry 219). -/
def State.postVerdict (s : State) (slack : Nat) (v : AdmVerdict) : State :=
  let keep := s.reg Adr.FRM_ADMIT_STAT &&& 8#32
  let put (stat d a l n : Nat) : State :=
    ((((s.setReg Adr.FRM_ADMIT_STAT (keep ||| wd stat)).setReg Adr.FRM_ADMIT_DEMAND (wd d)).setReg Adr.FRM_ADMIT_AVAIL (wd a)).setReg
      Adr.FRM_ADMIT_LIMIT (wd l)).setReg Adr.FRM_ADMIT_SHORT (wd n)
  match v with
  | .accepted => put 2 0 0 0 0
  | .refused r =>
    match r.res with
    | none => put (4 + r.reason * 256) 0 0 0 0
    | some (code, w) =>
      put (4 + r.reason * 256 + code * 4096 + (w.start + 8 * w.len) * 65536) (satU 16 w.demand) (satU 16 w.avail)
        (satU 16 (w.limit slack)) (satU 16 (w.short slack).toNat)

/-- Put a rate and offsets in force (R23, R29): a unit whose offset changes has no load at its valley at the old offset, which in this
frame comes after the valley at the new one where the new offset is the smaller. -/
def State.takeRate (s : State) (rate : Fin 4) (ofs : List (BitVec 3)) : State :=
  { s with frm := { s.frm with rate := rate }
           cu := .ofFn fun (u : Fin 25) =>
             let c := s.cu.get u
             let o := ofs.getD u c.ofs
             if o = c.ofs then c else { c with ofs := o, skipLoad := some (b2n (decide (o.toNat < c.ofs.toNat))) } }

/-! ### GO (R31) -/

/-- The offset codes staged in FRM_BAYOFSn (R20). -/
def State.stagedOfs (s : State) : List (BitVec 3) :=
  ((List.range 24).map fun b => BitVec.ofNat 3 ((s.reg (Adr.FRM_BAYOFS (b / 8))).toNat / 2 ^ (3 * (b % 8)))) ++
    [BitVec.ofNat 3 (s.rf Adr.FRM_CFG 5 3)]

/-- A write of 1 to GO (R31). -/
def State.admitGo (s : State) : State :=
  if s.admBusy then s.orReg Adr.FRM_ADMIT_STAT 8
  else
    let ofs := s.stagedOfs
    s.ask (.go (Fin.ofNat 4 (s.rf Adr.FRM_CFG 1 0)) (ofs.getD 24 0) (ofs.take 24) (s.rf Adr.FRM_ADMIT_CTL 13 8)) s.frm.count

/-- A write of FRM_ADMIT_CTL (R31): SLACK_REQ is stored, then GO acts. -/
def State.admitWrite (s : State) (m : Master) (w : Word) : State :=
  let t := s.plainWrite m Adr.FRM_ADMIT_CTL w
  if bitOf w 0 ∧ s.reaches m Adr.FRM_ADMIT_CTL 1 then t.admitGo else t

/-- FRM_ADMIT_GO (R31). -/
def execFrmAdmitGo (m : Master) (w : Word) (s : State) : Host.Outcome State Fault Refusal := .next (s.admitWrite m w)

end Sys2Proof.Machine
end

