-- ==== Sys2Proof/Machine/Ordering.lean ====
section
/-! DEFINITION. The ring-level descriptors that wait (R86, R92–R96, R357–R362): NOP, FENCE, BARRIER and SNAPSHOT. -/

namespace Sys2Proof.Machine

/-! ### NOP and FENCE (R86, R92, R93) -/

/-- NOP (R67, R86): it completes at acceptance. -/
def execNop (d : Nat) (s : State) : Host.Outcome State Fault Refusal :=
  .next (match s.desc? d with
    | none => s
    | some e =>
      if e.op = 0 ∧ e.rej.isNone ∧ ¬ e.refetch ∧ (e.stage = .staged ∨ e.stage = .queued) then s.finish e 0 0 0 s.frm.count else s)

/-- FENCE begins to wait (R92). -/
def execFence (d : Nat) (s : State) : Host.Outcome State Fault Refusal :=
  .next (s.withEffect d (· == 9) fun t _ => t)

/-- Does a descriptor wait in effect in the frame in progress? -/
def Desc.waits (e : Desc) : Bool := e.stage == .effect && e.begun

/-- The rings that a FENCE waits for (R92): its own and those of its mask, but for the DISABLED ones. -/
def State.fenceRings (s : State) (e : Desc) (r : RingId) : Bool :=
  (r == e.ring || (BitVec.ofNat 16 (u16 e.bytes 16)).getLsbD r) && (s.sq.get r).state != .disabled

/-- FENCE_COMPLETE (R92, R93). -/
def execFenceComplete (d : Nat) (s : State) : Host.Outcome State Fault Refusal :=
  .next (match s.desc? d with
    | none => s
    | some e =>
      if e.op = 9 ∧ e.waits ∧ s.doneBefore e.acc (s.fenceRings e) then
        (s.finish e 0 0 0 s.frm.count).enterRing e.ring 64
      else s)

/-! ### BARRIER (R94, R95, R357) -/

/-- BARRIER begins to wait for the earlier descriptors of its ring (R94). -/
def execBarrier (d : Nat) (s : State) : Host.Outcome State Fault Refusal :=
  .next (s.withEffect d (· == 0xA) fun t _ => t)

/-- The ids of some open barriers, each once. -/
def openIds (l : List OpenBarrier) : List Word := (l.map (·.id)).eraseDups

/-- A refused BARRIER (R95), and the descriptors behind it. -/
def State.barrierRefused (s : State) (e : Desc) (off : Nat) : State :=
  (s.finish e 4 7 (wd off) s.frm.count).enterRing e.ring 64

/-- Count an arrival on an instance of an id: the first that is not full. -/
def countArrival (id : Word) (n : Nat) (fr : FrameNo) : List OpenBarrier → List OpenBarrier
  | [] => []
  | b :: bs =>
    if b.id = id ∧ b.full.isNone then
      let w := b.who ++ [n]
      { b with who := w, full := if b.parts ≤ w.length then some fr else none } :: bs
    else b :: countArrival id n fr bs

/-- A device-scope BARRIER arrives (R94, R95). -/
def State.arriveDevice (s : State) (e : Desc) : State :=
  let id := wd (u32 e.bytes 16)
  let p := u8 e.bytes 20
  let fr := s.frm.count
  let bars := s.ord.barriers
  let put (l : List OpenBarrier) : State :=
    { s with ord := { s.ord with barriers := countArrival id e.acc fr l } }.modDesc e.acc fun x => { x with arrived := some fr }
  match bars.find? fun b => b.id == id with
  | some b =>
    if b.parts ≠ p then s.barrierRefused e 20
    else if bars.any fun b => b.id == id && b.full.isNone then put bars
    else put (bars ++ [⟨id, p, [], none⟩])
  | none =>
    if 64 ≤ (openIds bars).length then s.barrierRefused e 16 else put (bars ++ [⟨id, p, [], none⟩])

/-- This station's number. -/
def State.station (s : State) : Nat := s.rf Adr.LINE_CFG 6 4

/-- The event UNIT of a station (R364). -/
def stationCode (n : Nat) : Nat := 0x200 + n

/-- A line-scope BARRIER arrives (R357); on a station that is cut off it ends (R358). -/
def State.arriveLine (s : State) (e : Desc) : State :=
  if s.line.mode = .isolated then (s.finish e 8 48 0 s.frm.count).enterRing e.ring 64
  else
    let a : LineArrival := ⟨wd (u32 e.bytes 16), u8 e.bytes 20, s.frm.count, s.station, some e.acc⟩
    { s with line := { s.line with toSend := s.line.toSend ++ [a] } }.modDesc e.acc fun x => { x with arrived := some s.frm.count }

/-- BARRIER_ARRIVE (R94, R95, R357). -/
def execBarrierArrive (d : Nat) (s : State) : Host.Outcome State Fault Refusal :=
  .next (match s.desc? d with
    | none => s
    | some e =>
      if e.op = 0xA ∧ e.waits ∧ e.arrived.isNone ∧ s.doneBefore e.acc (· == e.ring) then
        (if u8 e.bytes 21 = 1 then s.arriveLine e else s.arriveDevice e)
      else s)

/-- Complete the participants of a barrier, and let the descriptors behind them enter ordering. -/
def State.releaseAll (s : State) (l : List Nat) : State :=
  let es := l.filterMap s.desc?
  let s1 := s.forAll es fun t e => t.finish e 0 0 0 t.frm.count
  s1.forAll es fun t e => t.enterRing e.ring 64

/-- BARRIER_RELEASE (R94): the first tick after the P-th arrival. -/
def execBarrierRelease (id : Word) (s : State) : Host.Outcome State Fault Refusal :=
  .next (match s.ord.barriers.find? fun b => b.id == id && b.full.any fun f => frameLt f s.frm.count with
    | none => s
    | some b => { s with ord := { s.ord with barriers := s.ord.barriers.erase b } }.releaseAll b.who)

/-- A BARRIER that has arrived is withdrawn from its id's count (R47). -/
def State.withdraw (s : State) (n : Nat) : State :=
  let l := s.ord.barriers.map fun b =>
    if b.who.contains n then { b with who := b.who.erase n, full := none } else b
  { s with ord := { s.ord with barriers := l.filter fun b => !b.who.isEmpty }
           line := { s.line with toSend := s.line.toSend.filter fun a => a.desc != some n } }

/-! ### SNAPSHOT (R359–R362) -/

/-- Is a descriptor a line-scope SNAPSHOT in effect? -/
def Desc.lineSnap (d : Desc) : Bool := d.op == 0xB && u8 d.bytes 57 == 1 && d.stage == .effect

/-- SNAPSHOT takes effect (R359). -/
def State.snapshotEffect (s : State) (d : Desc) : State :=
  let e := s.frm.count + 1
  let onLine := u8 d.bytes 57 == 1
  let first : FrameNo := e + (if onLine then 2 else 1)
  let f := u64 d.bytes 16
  if f ≠ 0 ∧ f < first.toNat then s.later d 5 16 (wd first.toNat)
  else
    match if onLine then s.ord.descs.find? fun x => x.lineSnap && x.acc != d.acc else none with
    | some x => s.later d 5 16 (wd x.snapF.toNat)
    | none =>
      if onLine ∧ s.line.mode = .isolated then s.later d 8 48 0
      else s.modDesc d.acc fun x => { x with snapF := if f = 0 then first else BitVec.ofNat 64 f }

/-- SNAPSHOT (R359). -/
def execSnapshot (d : Nat) (s : State) : Host.Outcome State Fault Refusal :=
  .next (s.withEffect d (· == 0xB) State.snapshotEffect)

/-- The eight bytes of an axis in a result block (R361). -/
def State.snapEntry (s : State) (mask : List AxisId) (x : AxisId) : List Byte :=
  if mask.contains x then
    let t := (s.ax.get x).tt
    leBytes 2 (t.o1.p % 65536).toNat ++ leBytes 4 (wdI (intPart t.o1.p)).toNat ++
      [BitVec.ofNat 8 (t.mode.code + 8 * b2n t.faulted.isSome), 1]
  else [0, 0, 0, 0, 0, 0, 0, 0]

/-- The result block of a snapshot at the tick that began the frame (R361): 1,632 bytes. -/
def State.snapBlock (s : State) (f : FrameNo) (scope issuer : Nat) (mask : List AxisId) : List Byte :=
  let head := leBytes 8 f.toNat ++ [BitVec.ofNat 8 s.station, BitVec.ofNat 8 scope, BitVec.ofNat 8 issuer, 0] ++
    leBytes 2 mask.length ++ List.replicate 14 0
  let body := (allFin 200).flatMap (s.snapEntry mask)
  head ++ leBytes 4 (crc32c (head ++ body)).toNat ++ body

/-- A SNAPSHOT of this station captures and writes its block (R359–R361); a block is not written while the link is down. -/
def State.captureOwn (s : State) (d : Desc) : State :=
  let mask := axisMask d.bytes 32
  let up := s.hif.linkUp
  let t := if up then
    s.emit (.dmaWrite (s.owner d.ring) (u64 d.bytes 24) (s.snapBlock d.snapF (u8 d.bytes 57) s.station mask)) else s
  t.modDesc d.acc fun x => { x with snapN := if up then mask.length else 0, snapDone := true, snapW := up }

/-- The SNAP_DONE reports of an issuer's snapshot at frame `f`. -/
def Line.reports (l : Line) (issuer : Nat) (f : FrameNo) : List SnapDone :=
  l.dones.filter fun r => r.issuer == issuer && r.frame == f

/-- The stations whose blocks were written, as bits. -/
def writtenBits (l : List SnapDone) : Nat :=
  (List.range 8).foldl (fun n i => if l.any fun r => r.station == i && r.written then n + 2 ^ i else n) 0

/-- SNAPSHOT_COMPLETE (R359, R360, R362). -/
def execSnapshotComplete (d : Nat) (s : State) : Host.Outcome State Fault Refusal :=
  .next (match s.desc? d with
    | none => s
    | some e =>
      let f := e.snapF
      let me := s.station
      if e.op ≠ 0xB ∨ e.stage ≠ .effect ∨ ¬ e.snapDone then s
      else if u8 e.bytes 57 = 1 then
        if frameLt s.frm.count (f + e.snapBy + 2) then s
        else
          let l := s.line.reports me f
          let lost := (List.range 8).any fun i => i != me && s.line.present.getLsbD i && !(l.any fun r => r.station == i)
          if lost then s.finish e 8 54 0 s.frm.count
          else
            let n := l.foldl (fun n r => if r.written then n + r.entries else n) 0
            let s1 := s.finish e 0 (wd f.toNat) (wd n) s.frm.count
            let s2 := s1.raise 50 (stationCode me) (wd f.toNat) (wd (writtenBits l))
            { s2 with line := { s2.line with dones := s2.line.dones.filter fun r => !(r.issuer == me && r.frame == f) } }
      else if frameLe s.frm.count (f + e.snapBy) then s
      else
        (s.finish e 0 (wd f.toNat) (wd e.snapN) s.frm.count).raise 50 (stationCode me) (wd f.toNat)
          (wd (if e.snapW then 2 ^ me else 0)))

end Sys2Proof.Machine
end

