-- ==== Sys2Proof/Machine/Windows.lean ====
section
/-! DEFINITION. The fixed windows of frames in which events are raised once and trips and chopper frames are counted (R222, R248,
R252, R257, R288, R323, R326, R347, R402, R407): window q of w frames holds the frames k with ⌊k / w⌋ = q. -/

namespace Sys2Proof.Machine

/-- N and M of a unit (R222). -/
def State.tripCfg (s : State) (u : CarrierId) : Nat × Nat :=
  let w := s.reg (if u.val < 24 then Adr.BAY_TRIP_CFG u else Adr.HVY_GRP_TRIP)
  (max 1 (fld w 23 16), max 1 (fld w 15 0))

/-- Do two frames lie in different windows of `w` frames? -/
def newWindow (w : Nat) (a b : FrameNo) : Bool := a.toNat / w != b.toNat / w

/-- The 4,096-frame windows begin anew. -/
def State.freshWindow (s : State) : State :=
  { s with
    cu := s.cu.map fun (c : CUnit) => { c with ovSeen := false }
    hv := s.hv.map fun (h : HvState) => { h with fbOld := h.fbSeen, fbSeen := 0, rfSeen := 0, vdsSeen := 0 }
    fbc := s.fbc.map fun (h : FbChan) => { h with illSeen := false }
    line := { s.line with chkSeen := 0 }
    acc := { s.acc with lockWin := 0, ceWin := 0 } }

/-- The counter goes from frame `a` to frame `b`: the windows that begin (R222). -/
def State.windows (s : State) (a b : FrameNo) : State :=
  let t := s.forAll (allFin 25) fun t u =>
    if newWindow (t.tripCfg u).2 a b then t.modCu u fun c => { c with trips := List.replicate 32 0, tripSeen := 0 } else t
  if newWindow 4096 a b then t.freshWindow else t

end Sys2Proof.Machine
end

