-- ==== Sys2Proof/Machine/Line.lean ====
section
/-! DEFINITION. The line (R341–R365): ports, frames and their checks, frame lock, the line reset and joining, the broadcast stop, line
barriers and snapshots, and what each tick does on the line. -/

namespace Sys2Proof.Machine

/-! ### Sending (R344–R346) -/

/-- Apply `f` to the line. -/
def State.modLine (s : State) (f : Line → Line) : State := { s with line := f s.line }

/-- Is the port that sends in a direction up? Direction 0, east, leaves by port 0 (R341). -/
def State.portUp (s : State) (p : Fin 2) : Bool := s.line.up.getLsbD p

/-- The bytes of a line frame (R344). -/
def lineFrame (type station : Nat) (dir : Fin 2) (alive : Byte) (fr : FrameNo) (payload : List Byte) : List Byte :=
  let b := [BitVec.ofNat 8 type, BitVec.ofNat 8 (station + 128 * dir.val), alive, BitVec.ofNat 8 payload.length] ++
    leBytes 8 fr.toNat ++ payload
  b ++ leBytes 4 (crc32c b).toNat

/-- Send a frame of this station in one direction, where its port is up (R344). -/
def State.sendDir (s : State) (dir : Fin 2) (type : Nat) (payload : List Byte) : State :=
  if s.portUp dir then
    let a := (if dir = 0 then s.line.tx0 else s.line.tx1) + 1
    let t := s.modLine fun l => if dir = 0 then { l with tx0 := a } else { l with tx1 := a }
    t.emit (.lineFrame dir (lineFrame type s.station dir a s.frm.count payload))
  else s

/-- Send a frame of this station in both directions (R344). -/
def State.sendLine (s : State) (type : Nat) (payload : List Byte) : State := (s.sendDir 0 type payload).sendDir 1 type payload

/-- The stations of a mask of 8 bits. -/
def stations (m : BitVec 8) : List Nat := (List.range 8).filter fun i => m.getLsbD i

/-- What this station knows of station `i`. -/
def Line.peer (l : Line) (i : Nat) : Peer := l.peers.getD i .reset

/-! ### The joined set and the topology (R363, R364) -/

/-- Does this station take part in the line as joined? -/
def State.joined (s : State) : Bool := s.line.mode == .joined

/-- TOPO: 0 ring, 1 chain, 2 isolated (R365). A joined station sees a break by a port of its own that is down, or by its own STATUS, which
no longer comes round (DEDUCED from R344 and R363, log 222). -/
def Line.topoOf (l : Line) : Nat :=
  if l.mode = .isolated then 2 else if l.mode = .joined ∧ (l.up ≠ 3 ∨ l.loop = false) then 1 else 0

/-- Take the joined set and the topology as they now stand; LINE_TOPOLOGY_CHANGE where they changed (R363, R364). -/
def State.topology (s : State) : State :=
  let t := s.modLine fun l => { l with topo := l.topoOf }
  let d := t.line.present.toNat + 256 * t.line.topo
  if d = t.line.topoD0 then t
  else (t.raise 53 (stationCode t.station) (wd d) (wd t.line.topoD0)).modLine fun l => { l with topoD0 := d }

/-- A line snapshot of this station that has captured, and waits for the report of station `i`, ends as FAULT_ABORT with D0 48 (R363). -/
def State.snapCut (s : State) (i : Nat) : State :=
  s.forAll (s.ord.descs.filter fun d => d.lineSnap && d.snapDone && !((s.line.reports s.station d.snapF).any fun r => r.station == i))
    fun t d => t.finish d 8 48 0 t.frm.count

/-- LINE_ESTOP's clear mark (R356, R364). The clear sequence carries no cause, so a foreign one is a free value. -/
def State.estopCleared (s : State) (origin : Nat) (own : Option Nat) : State :=
  let (v, t) := match own with
    | some c => (c, s)
    | none => ((s.drawFree.1).toNat % 4, s.drawFree.2)
  t.raise 51 (stationCode origin) (wd (256 + v)) (wd (s.rf Adr.LINE_CFG 8 8))

/-- A station no longer asserts the stop (R356). -/
def State.dropEstop (s : State) (i : Nat) (own : Option Nat) : State :=
  if s.line.estop.getLsbD i then
    let t := s.modLine fun l => { l with estop := l.estop &&& ~~~(BitVec.ofNat 8 (2 ^ i)) }
    if t.line.estop = 0 then t.estopCleared i own else t
  else s

/-- A station leaves the joined set (R363). -/
def State.leaves (s : State) (i : Nat) : State :=
  let t := s.modLine fun l => { l with present := l.present &&& ~~~(BitVec.ofNat 8 (2 ^ i)) }
  ((t.snapCut i).dropEstop i none).topology

/-! ### What ends on the line (R347, R353, R358, R363) -/

/-- Every line barrier and line snapshot that this station waits on ends as FAULT_ABORT with D0 `e` (R347, R358, R363). -/
def State.endLineOps (s : State) (e : Nat) : State :=
  let ds := s.ord.descs.filter fun d => d.stage == .effect &&
    ((d.op == 0xA && u8 d.bytes 21 == 1 && d.arrived.isSome) || d.lineSnap)
  let s1 := s.forAll ds fun t d => t.finish d 8 (wd e) 0 t.frm.count
  let gone (l : List Nat) : List Nat := l.filter fun n => !(ds.any fun d => d.acc == n)
  let s2 := s1.modLine fun l =>
    { l with toSend := [],
             tally := l.tally.map fun a => { a with desc := none },
             bars := l.bars.map fun b => { b with who := gone b.who } }
  s2.forAll ds fun t d => if d.op = 0xA then t.enterRing d.ring 64 else t

/-- What waits for a start frame, or counts frames, ends where the frame counter is set (R353). -/
def State.epochEnds (s : State) : State :=
  let fr := s.frm.count
  let timed := s.ord.descs.filter fun d =>
    (d.stage == .queued || d.stage == .staged) && d.start != 0 && !d.isTrig && d.op != 0 && d.rej.isNone
  let s1 := s.forAll timed fun t d => t.finish d 5 8 (wd 0xFFFFFFFE) fr
  let s2 := s1.forAll (allFin 64) fun t m => t.modTrg m fun g => if g.kind = 2 then { g with armed := false } else g
  let snaps := s2.ord.descs.filter fun d => d.lineSnap && !d.snapDone
  (s2.forAll snaps fun t d => t.finish d 8 52 0 fr).modLine fun l =>
    { l with snaps := l.snaps.filter fun x => frameLe (x.frame + x.moved) fr }

/-- The module's own frame marks of a descriptor, moved with the counter; one that has taken effect keeps the frames that its record
tells. -/
def Desc.shift (d : Desc) (by_ : FrameNo) : Desc :=
  let told := d.stage = .effect ∧ d.begun
  { d with accFrame := d.accFrame + by_, headAt := d.headAt.map (· + by_),
           readAt := if d.readAt = BitVec.allOnes 64 then d.readAt else d.readAt + by_,
           eff := if told then d.eff else d.eff + by_, held := if told then d.held else d.held.map (· + by_),
           grantAt := d.grantAt.map (· + by_), arrived := d.arrived.map (· + by_), slotEnd := d.slotEnd + by_,
           snapBy := if d.snapDone then d.snapBy + by_ else d.snapBy }

/-- The frame marks of a channel's count, moved with the counter. -/
def FbChan.shift (h : FbChan) (by_ : FrameNo) : FbChan :=
  { h with past := h.past.map fun (e : CountNote) => { e with frame := e.frame + by_ } }

/-- The frame marks of the Timetable's state, moved with the counter. -/
def TtState.renumber (t : TtState) (by_ : FrameNo) : TtState :=
  { t with
    faulted := t.faulted.map fun f => { f with frame := f.frame + by_ }
    effFrame := t.effFrame + by_
    posSetAt := t.posSetAt.map (· + by_)
    ring := t.ring.map fun r => { r with arrived := r.arrived.map (· + by_) } }

/-- The frame marks of a sequence, moved with the counter. -/
def SeqSt.renumber (q : SeqSt) (by_ : FrameNo) : SeqSt := { q with start := q.start + by_ }

/-- The frame marks of a coil drive, moved with the counter. -/
def CdState.renumber (c : CdState) (by_ : FrameNo) : CdState :=
  { c with phaseAt := c.phaseAt + by_, stillAt := c.stillAt + by_, seq := c.seq.map (·.renumber by_) }

/-- The frame marks of a follower, moved with the counter. -/
def FollowSt.renumber (f : FollowSt) (by_ : FrameNo) : FollowSt := { f with eff := f.eff + by_ }

/-- The frame marks of a waiting mask, moved with the counter. -/
def MaskWait.renumber (w : MaskWait) (by_ : FrameNo) : MaskWait := { w with fired := w.fired.map (· + by_) }

/-- The frame marks of what a descriptor found, moved with the counter. -/
def AxisBack.renumber (b : AxisBack) (by_ : FrameNo) : AxisBack :=
  { b with tt := b.tt.renumber by_, fol := b.fol.map (·.renumber by_), ahead := b.ahead.map (·.renumber by_),
           cd := b.cd.renumber by_, wait := b.wait.map (·.renumber by_) }

/-- The frame marks of an axis, moved with the counter. -/
def Axis.shift (a : Axis) (by_ : FrameNo) : Axis :=
  { a with
    tt := a.tt.renumber by_
    cd := a.cd.renumber by_
    fol := a.fol.map (·.renumber by_)
    ahead := a.ahead.map (·.renumber by_)
    br := { a.br with wait := a.br.wait.map (·.renumber by_) }
    sg := { a.sg with report := a.sg.report.map fun r => (r.1 + by_, r.2) }
    back := a.back.map (·.renumber by_)
    found := a.found.map (·.renumber by_) }

/-- The frame marks of what the line has in progress, moved with the counter. -/
def Line.renumber (l : Line) (by_ : FrameNo) : Line :=
  { l with
    upAt0 := l.upAt0 + by_
    upAt1 := l.upAt1 + by_
    peers := l.peers.map fun p => { p with stopAt := p.stopAt + by_ }
    bars := l.bars.map fun b => { b with full := b.full.map (· + by_) }
    tally := l.tally.map fun a => { a with frame := a.frame + by_ }
    snaps := l.snaps.map fun x => { x with moved := x.moved + by_ } }

/-- Set the frame counter (R351–R353): the frame marks of what is in progress move with it, so that every time that runs goes on. -/
def State.setCount (s : State) (n : FrameNo) : State :=
  let t := s.epochEnds.windows s.frm.count n
  let by_ := n - s.frm.count
  { t with
    frm := { t.frm with count := n, adm := t.frm.adm.map fun r => { r with frame := r.frame + by_ } }
    hif := { t.hif with lostAt := t.hif.lostAt.map (· + by_) }
    cq := t.cq.map fun c => { c with oldest := c.oldest.map (· + by_) }
    eq := { t.eq with oldest := t.eq.oldest.map (· + by_) }
    ord := { t.ord with
      descs := t.ord.descs.map fun d => d.shift by_
      barriers := t.ord.barriers.map fun b => { b with full := b.full.map (· + by_) } }
    ax := t.ax.map fun a => a.shift by_
    cu := t.cu.map fun u => { u with cal := u.cal.map (· + by_), own := u.own + by_ }
    fbc := t.fbc.map fun h => h.shift by_
    cmp := { t.cmp with sweepAt := t.cmp.sweepAt + by_, sweepFrom := t.cmp.sweepFrom + by_ }
    upd := { t.upd with passFrom := t.upd.passFrom + by_ }
    trg := t.trg.map fun g => { g with firedAt := g.firedAt.map (· + by_) }
    line := t.line.renumber by_ }

/-! ### The broadcast stop (R354–R356) -/

/-- An energised axis brakes at QS_DEC to rest and HOLD (R355). -/
def State.quickStop (s : State) (x : AxisId) : State :=
  let a := s.ax.get x
  if a.tt.modeAhead = .parked ∨ a.tt.modeAhead = .disabled then s.enterHold x
  else if a.tt.modeAhead = .hold then s
  else
    (s.stopMotion x (accForm s.hz a.act.qsDec) (jerkForm s.hz a.act.jdec) false).modTt x fun t =>
      { t with running := .stop none 2, effFrame := s.frm.count }

/-- Act on ESTOP set on the clock of its registration (R355). -/
def State.estopAct (s : State) (origin cause : Nat) : State :=
  let act := s.rf Adr.LINE_CFG 8 8
  let s1 :=
    if act = 0 then (s.faultEnergised (allFin 200) 51).1
    else s.forAll ((allFin 200).filter fun x => (s.ax.get x).energised) fun t x => (t.faultAxis x 51).quickStop x
  s1.raise 51 (stationCode origin) (wd cause) (wd act)

/-- Register ESTOP set from a station (R355, R356). -/
def State.estopSet (s : State) (origin cause : Nat) : State :=
  let first := s.line.estop = 0
  let t := s.modLine fun l =>
    { l with estop := l.estop ||| BitVec.ofNat 8 (2 ^ origin),
             peers := l.peers.modify origin fun p => { p with stopAt := s.frm.count } }
  if first then t.estopAct origin cause else t

/-- The bytes of an ESTOP sequence after its K28.7s (R345): the data byte and its inverse, four times. -/
def estopBytes (origin : Nat) (set : Bool) : List Byte :=
  let d : Byte := BitVec.ofNat 8 (origin % 8 + 128 * b2n set)
  (List.replicate 4 [d, ~~~d]).flatten

/-- This station originates ESTOP set (R354): cause 0 register, 1 STO, 2 cut off. -/
def State.originate (s : State) (cause : Nat) : State :=
  if s.line.own.isSome then s
  else
    let t := s.modLine fun l => { l with own := some cause }
    (t.emit (.lineEstop s.line.up (estopBytes s.station true))).estopSet s.station cause

/-- A write of 1 to LINE_CTL.ESTOP (R354). -/
def State.lineEstopWrite (s : State) (m : Master) : State :=
  if s.reaches m Adr.LINE_CTL 0 then s.originate 0 else s

/-- LINE_CTL_ESTOP (R354): any master. -/
def execLineCtlEstop (m : Master) (s : State) : Host.Outcome State Fault Refusal := .next ((s.noted m Adr.LINE_CTL).lineEstopWrite m)

/-- A write of 1 to LINE_CTL.ESTOP_CLR (R354, R356). -/
def State.lineEstopClear (s : State) (m : Master) : State :=
  if s.reaches m Adr.LINE_CTL 0 then
    match s.line.own with
    | none => s
    | some c =>
      let t := (s.modLine fun l => { l with own := none }).emit (.lineEstop s.line.up (estopBytes s.station false))
      t.dropEstop s.station (some c)
  else s

/-- LINE_CTL_ESTOP_CLR (R354, R356). -/
def execLineCtlEstopClr (m : Master) (s : State) : Host.Outcome State Fault Refusal := .next ((s.noted m Adr.LINE_CTL).lineEstopClear m)

/-- The opposite port alone, where it is up. -/
def State.onward (s : State) (port : Fin 2) : BitVec 2 := s.line.up &&& BitVec.ofNat 2 (2 ^ (1 - port).val)

/-- ESTOP_MARKER_RECEIVE (R345, R355, R356): the data byte and the inverse that follows it; bytes that do not match are no sequence. The
sequence carries no cause: D0 [1:0] is a free value. -/
def execEstopMarkerReceive (port : Fin 2) (data inv : Byte) (s : State) : Host.Outcome State Fault Refusal :=
  .next (
    let origin := data.toNat % 8
    let set := data.getLsbD 7
    if s.line.mode = .off ∨ inv ≠ ~~~data ∨ origin = s.station then s
    else
      let t := if s.portUp (1 - port) then s.emit (.lineEstop (s.onward port) (estopBytes origin set)) else s
      if set then
        if t.line.estop = 0 then (t.drawFree.2).estopSet origin ((t.drawFree.1).toNat % 4) else t.estopSet origin 0
      else t.dropEstop origin none)

/-! ### Receiving a frame (R344, R347) -/

/-- Count in a field of LINE_PORTp_ERR, saturating, and raise LINE_CHECK_FAIL for the first failure of its cause in the window
(R347, R364). -/
def State.lineFailure (s : State) (port : Fin 2) (cause origin n : Nat) : State :=
  let a := Adr.LINE_PORT_ERR port
  let (hi, lo) := match cause with | 0 => (15, 0) | 1 => (23, 16) | _ => (31, 24)
  let v := min (s.rf a hi lo + n) (2 ^ (hi + 1 - lo) - 1)
  let t := s.putReg a (bits hi lo) (v * 2 ^ lo)
  let k := 3 * port.val + cause
  if t.line.chkSeen.getLsbD k then t
  else (t.raise 54 (0x208 + port.val) (wd (cause + 256 * origin)) (wd v)).modLine fun l =>
    { l with chkSeen := l.chkSeen ||| BitVec.ofNat 6 (2 ^ k) }

/-- The payload length that a type has (R346). -/
def lenOk (type len : Nat) : Bool :=
  match type with
  | 1 => len == 4
  | 2 => decide (8 ≤ len) && decide (len ≤ 48) && len % 8 == 0
  | 3 => len == 33
  | 4 => len == 12
  | 5 => len == 9
  | 6 => len == 4
  | _ => false

/-- Does a frame pass its check (R344, R346, R347)? -/
def frameOk (b : List Byte) : Bool :=
  let n := u8 b 3
  decide (b.length = 16 + n) && lenOk (u8 b 0) n && (crc32c (b.take (12 + n)) == wd (u32 b (12 + n)))

/-- A frame forwarded out of the opposite port, where it is up (R344). -/
def State.forward (s : State) (port : Fin 2) (b : List Byte) : State :=
  if s.portUp (1 - port) then s.emit (.lineFrame (1 - port) b) else s

/-- An accepted STATUS, the first frame of its station at a tick (R347). ALIVE tells how many frames the tick before had; one that came
in neither direction is lost. The other direction's STATUS of this tick is foreseen, so that its frames have their place though the STATUS
is lost there. -/
def Peer.takeStatus (p : Peer) (west : Bool) (f : FrameNo) (a : Byte) : Peer :=
  let (mine, other) := if west then (p.base1, p.base0) else (p.base0, p.base1)
  let kept := p.got.filter fun e => e.1 == f || e.1 + 1 == f
  let (lost, other1) := match mine with
    | some (g, b) =>
      if g + 1 = f then
        let n := (a - b).toNat
        ((List.range n).any fun i => !p.got.contains (g, i),
          other.map fun e => if e.1 = g then (f, e.2 + BitVec.ofNat 8 n) else e)
      else (false, other)
    | none => (false, other)
  let q := { p with got := if kept.contains (f, 0) then kept else kept ++ [(f, 0)], lost := p.lost || lost }
  if west then { q with base1 := some (f, a), base0 := other1 } else { q with base0 := some (f, a), base1 := other1 }

/-- An accepted frame of another type (R347), and whether it comes for the first time; `last` is the ALIVE accepted before it in its
direction. Where the STATUS of its tick has not come there, the first ALIVE after `last` is taken for the STATUS's (DEDUCED, log 211). -/
def Peer.takeOther (p : Peer) (west : Bool) (f : FrameNo) (a : Byte) (last : Option Byte) : Peer × Bool :=
  let b : Byte := match (if west then p.base1 else p.base0), last with
    | some (g, b), some v => if g = f then b else v + 1
    | some (g, b), none => if g = f then b else a - 1
    | none, some v => v + 1
    | none, none => a - 1
  let q := if west then { p with base1 := some (f, b) } else { p with base0 := some (f, b) }
  let e := (f, (a - b).toNat)
  if p.got.contains e then (q, false) else ({ q with got := p.got ++ [e] }, true)

/-- Note an accepted frame of its station (R347); the second part is whether it comes for the first time. -/
def Peer.take (p : Peer) (west : Bool) (type : Nat) (f : FrameNo) (a : Byte) : Peer × Bool :=
  let q := if west then { p with alive1 := some a } else { p with alive0 := some a }
  if type = 1 then (q.takeStatus west f a, !(p.got.contains (f, 0))) else q.takeOther west f a (if west then p.alive1 else p.alive0)

/-- Count a frame that fails its check (R347, R363). -/
def State.badFrame (s : State) (port : Fin 2) (origin : Nat) : State :=
  (s.lineFailure port 0 origin 1).modLine fun l => if port = 0 then { l with bad0 := l.bad0 + 1 } else { l with bad1 := l.bad1 + 1 }

/-- Take a frame of type `type` at a port: forward it, check it, count it (R344, R347); this station's own is not forwarded again, and
shows that the ring is closed (R363). The second part is there where it is accepted: whether it comes for the first time. -/
def State.lineTake (s : State) (port : Fin 2) (type : Nat) (b : List Byte) : State × Option Bool :=
  let origin := u8 b 1 % 8
  if s.line.mode = .off then (s, none)
  else if origin = s.station then
    (if frameOk b then s.modLine fun l => { l with round := l.round.map fun r => r || u64 b 4 == s.frm.count.toNat }
     else s.badFrame port origin, none)
  else
    let s1 := s.forward port b
    if ¬ frameOk b then (s1.badFrame port origin, none)
    else if u8 b 0 ≠ type then (s1, none)
    else
      let west := 128 ≤ u8 b 1
      let a : Byte := b.getD 2 0
      let p := s1.line.peer origin
      let was := if west then p.alive1 else p.alive0
      let (q, first) := p.take west type (BitVec.ofNat 64 (u64 b 4)) a
      let keep (t : State) : State := t.modLine fun l => { l with peers := l.peers.set origin q }
      match was with
      | none => (keep s1, some first)
      | some v =>
        let d := (a - v).toNat
        if d = 0 then (s1.lineFailure port 2 origin 1, none)
        else if d = 1 then (keep s1, some first)
        else (keep (s1.lineFailure port 1 origin (d - 1)), some first)

/-- The payload of a frame. -/
def payload (b : List Byte) : List Byte := (b.drop 12).take (u8 b 3)

/-- FRAME of a frame. -/
def frameOf (b : List Byte) : FrameNo := BitVec.ofNat 64 (u64 b 4)

/-- A joined follower takes the rate that station 0 reports (R350). -/
def State.followRate (s : State) (rate : Fin 4) : State :=
  if s.joined ∧ s.station ≠ 0 ∧ rate ≠ s.frm.rate then s.takeRate rate [] else s

/-- A joined station has its place in LINE_MAP, its hop count east of station 0 (R342). -/
def State.mapGains (s : State) (o : Nat) (pos : Fin 8) : State :=
  s.modLine fun l => { l with map := (l.map.map fun p => if p = some o then none else p).set pos.val (some o) }

/-- What a STATUS tells of its station's stop (R356): one that is asserted is in force on a joined station, and one that no longer is ends,
unless it was registered after the STATUS was sent. -/
def State.statusStop (s : State) (o : Nat) (stop before : Bool) (f : FrameNo) : State :=
  if stop then (if s.joined then s.modLine fun l => { l with estop := l.estop ||| BitVec.ofNat 8 (2 ^ o) } else s)
  else if before ∨ (s.joined ∧ frameLt (s.line.peer o).stopAt f) then s.dropEstop o none
  else s

/-- LINE_STATUS_RECEIVE (R342, R346, R347, R356, R363). -/
def execLineStatusReceive (port : Fin 2) (frame : StatusIn) (s : State) : Host.Outcome State Fault Refusal :=
  .next (match s.lineTake port 1 frame.bytes with
    | (t, none) => t
    | (t, some _) =>
      let bytes := frame.bytes
      let o := u8 bytes 1 % 8
      let p := payload bytes
      let stop := u8 p 0 != 0
      let old := t.line.peer o
      let t1 := t.modLine fun l =>
        { l with peers := l.peers.set o { old with estop := stop, parked := u8 p 1 != 0, rate := u8 p 2, seen := some (frameOf bytes) } }
      let t1 := if o = 0 then t1.followRate (Fin.ofNat 4 (u8 p 2)) else t1
      let t2 := if t1.joined then
        ((t1.modLine fun l => { l with present := l.present ||| BitVec.ofNat 8 (2 ^ o) }).mapGains o frame.pos).topology else t1
      t2.statusStop o stop old.estop (frameOf bytes))

/-- The arrivals of an ARRIVE payload (R346). -/
def arrivalsOf (station : Nat) (fr : FrameNo) : Nat → List Byte → List LineArrival
  | 0, _ => []
  | n + 1, b => List.replicate (u8 b 5) ⟨wd (u32 b 0), u8 b 4, fr, station, none⟩ ++ arrivalsOf station fr n (b.drop 8)

/-- LINE_ARRIVE_RECEIVE (R346, R347, R357): the arrivals of the frame before the one in which it was sent, the first time that the frame
comes. -/
def execLineArriveReceive (port : Fin 2) (bytes : List Byte) (s : State) : Host.Outcome State Fault Refusal :=
  .next (match s.lineTake port 2 bytes with
    | (t, none) => t
    | (t, some false) => t
    | (t, some true) =>
      let o := u8 bytes 1 % 8
      let fr := frameOf bytes - 1
      let p := payload bytes
      t.modLine fun n => { n with tally := n.tally ++ arrivalsOf o fr (p.length / 8) p })

/-- LINE_SNAP_CMD_RECEIVE (R346, R360). -/
def execLineSnapCmdReceive (port : Fin 2) (bytes : List Byte) (s : State) : Host.Outcome State Fault Refusal :=
  .next (match s.lineTake port 3 bytes with
    | (t, none) => t
    | (t, some _) =>
      let o := u8 bytes 1 % 8
      let p := payload bytes
      let f : FrameNo := BitVec.ofNat 64 (u64 p 0)
      if t.joined ∧ ¬ (t.line.snaps.any fun x => x.issuer == o && x.frame == f) then
        t.modLine fun l => { l with snaps := l.snaps ++ [⟨o, f, axisMask p 8, false, 0⟩] }
      else t)

/-- LINE_SNAP_DONE_RECEIVE (R346, R360). -/
def execLineSnapDoneReceive (port : Fin 2) (bytes : List Byte) (s : State) : Host.Outcome State Fault Refusal :=
  .next (match s.lineTake port 4 bytes with
    | (t, none) => t
    | (t, some _) =>
      let p := payload bytes
      let r : SnapDone := ⟨u8 p 8, BitVec.ofNat 64 (u64 p 0), u8 bytes 1 % 8, u8 p 9 == 1, u16 p 10⟩
      if t.line.dones.any fun x => x.issuer == r.issuer && x.frame == r.frame && x.station == r.station then t
      else t.modLine fun l => { l with dones := l.dones ++ [r] })

/-! ### Lock, reset and joining (R348–R353) -/

/-- D as measured on a port, else on the other (R348). -/
def Line.delayOn (l : Line) (p : Fin 2) : Nat :=
  if l.measured.getLsbD p.val ∨ l.measured = 0 then (if p = 0 then l.delay0 else l.delay1)
  else if p = 0 then l.delay1 else l.delay0

/-- The port with fewer hops to station 0, port 1 on a tie (R348); while the order is not known, the one with the smaller measured delay. -/
def Line.nearPort (l : Line) : Fin 2 :=
  if l.size ≠ 0 then (if 2 * l.pos ≤ l.size then 1 else 0)
  else if l.measured = 1 ∨ (l.measured = 3 ∧ l.delay0 < l.delay1) then 0
  else 1

/-- The port that a follower locks on (R348); the other where it is down. -/
def Line.lockPort (l : Line) : Fin 2 :=
  let near := l.nearPort
  if l.up.getLsbD near then near else if l.up.getLsbD (1 - near) then 1 - near else near

/-- e of a TICK that arrives `clk` clocks after this station's last tick, over the delay `d` (R348): how far that tick, or the next where it
is nearer, lies after station 0's. -/
def State.phaseError (s : State) (d clk : Nat) : Int :=
  let e : Int := (roundDiv d 5) - clk
  if e < -((s.nClk / 2 : Nat) : Int) then e + s.nClk else e

/-- Lock on a TICK (R348, R349). A station that is locking brings its error to zero as one that has slipped does, without the event
(DEDUCED from R352, log 209). -/
def State.lockOn (s : State) (port : Fin 2) (clk : Nat) : State :=
  let e := s.phaseError (s.line.delayOn port) clk
  let far := decide (10 < e.natAbs)
  s.modLine fun l => { l with err := e, port := port, locked := !far, trimNext := if far then e else clampInt (-2) 2 e }

/-- A station measures its delay to station 0 on a port (R348, R352): what TICK showed there in this frame is reckoned with it. -/
def State.measureDelay (s : State) (port : Fin 2) (ns : Nat) : State :=
  let t := s.modLine fun l =>
    let begins : Bool := l.mode == .search || l.mode == .isolated
    let d := min ns 65535
    { l with delay0 := if port = 0 then d else l.delay0, delay1 := if port = 0 then l.delay1 else d,
             measured := l.measured ||| BitVec.ofNat 2 (2 ^ port.val), mode := if begins then .locking else l.mode,
             joinAt := if begins then some s.frm.count else l.joinAt }
  if port = t.line.lockPort then
    match if port = 0 then t.line.tick0 else t.line.tick1 with
    | some clk => t.lockOn port clk
    | none => t.modLine fun l => { l with port := port }
  else t

/-- LINE_PING_RECEIVE (R348, R351, R352): a follower that is not joined takes the delay to station 0 that it measures on the port; station 0
answers a follower's PING with its own, `clk` clocks after its tick. -/
def execLinePingReceive (port : Fin 2) (bytes : List Byte) (ping : PingIn) (s : State) : Host.Outcome State Fault Refusal :=
  .next (match s.lineTake port 6 bytes with
    | (t, none) => t
    | (t, some _) =>
      let o := u8 bytes 1 % 8
      if t.station = 0 then (if t.joined then t.sendLine 6 (leBytes 4 ping.clk) else t)
      else if o = 0 ∧ t.line.mode ≠ .joined then t.measureDelay port ping.delayNs
      else t)

/-- TICK_MARKER_RECEIVE (R345, R348, R349): TICK arrives `clk` clocks after this station's last tick. In a chain it comes on one port alone,
and that one serves (R363). -/
def execTickMarkerReceive (port : Fin 2) (clk : Nat) (s : State) : Host.Outcome State Fault Refusal :=
  .next (
    let l := s.line
    if l.mode = .off ∨ s.station = 0 then s
    else
      let t := if s.portUp (1 - port) then s.emit (.lineTick (s.onward port)) else s
      let t1 := t.modLine fun l => if port = 0 then { l with tick0 := some clk } else { l with tick1 := some clk }
      if port ≠ l.lockPort ∧ l.topo ≠ 1 then t1
      else
        let t2 := (t1.modLine fun l => { l with gotTick := true, missed := 0 }).lockOn port clk
        if 10 < t2.line.err.natAbs ∧ l.mode = .joined then t2.raise 52 (stationCode t2.station) (wdI t2.line.err) 0 else t2)

/-- A ring position of a RESET payload (R346). -/
def placeOf (p : List Byte) (i : Nat) : Option Nat := if u8 p (1 + i) < 8 then some (u8 p (1 + i)) else none

/-- The payload of RESET (R346). -/
def resetPayload (places : List (Option Nat)) : List Byte :=
  BitVec.ofNat 8 (places.filter Option.isSome).length ::
    (List.range 8).map fun i => match places.getD i none with | some n => BitVec.ofNat 8 n | none => 0xFF

/-- The stations that another RESET knows join the ones known here. -/
def mergePlaces (a b : List (Option Nat)) : List (Option Nat) := (List.range 8).map fun i => a.getD i none <|> b.getD i none

/-- A station that is left out reports ISOLATED (R351). -/
def State.leftOut (s : State) : State := (s.modLine fun l => { l with mode := .isolated, reset := none }).topology

/-- LINE_RESET_RECEIVE (R351): RESET as station 0 began it, or as a station that added itself sends it on. A follower takes part from the
first one on, at the ring position that the command brings, measures its delay anew by the PING that follows, and adds itself when its tick
has come; station 0's rate comes with it, as TICK's spacing shows it (log 210). -/
def execLineResetReceive (port : Fin 2) (frame : ResetIn) (s : State) : Host.Outcome State Fault Refusal :=
  .next (match s.lineTake port 5 frame.bytes with
    | (t, none) => t
    | (t, some _) =>
      let me := t.station
      let theirs := (List.range 8).map (placeOf (payload frame.bytes))
      let twin (own : Nat) : Bool := (List.range 8).any fun i => i != own && theirs.getD i none == some me
      match t.line.reset with
      | some r =>
        let added := r.places.contains (some me)
        if me ≠ 0 ∧ added ∧ twin t.line.pos then t.leftOut
        else
          let m := mergePlaces r.places theirs
          t.modLine fun l => { l with reset := some { r with places := m, twin := r.twin || (!added && theirs.contains (some me)) }, map := m }
      | none =>
        if u8 frame.bytes 1 % 8 ≠ 0 then t
        else if frame.rate ≠ t.frm.rate ∧ ¬ (allFin 200).all (fun x => (t.ax.get x).isParked) then
          t.modLine fun l => { l with mode := .search }
        else
          let u := if frame.rate = t.frm.rate then t else t.takeRate frame.rate []
          u.modLine fun l => { l with mode := .locking, pos := frame.pos.val, size := frame.size.val, measured := 0, joinAt := none,
                                      map := theirs, reset := some ⟨u.frm.count, theirs, theirs.contains (some me)⟩ })

/-- A write of 1 to LINE_CTL.RESET (R351): station 0 only. -/
def State.lineResetWrite (s : State) (m : Master) : State :=
  if s.reaches m Adr.LINE_CTL 1 ∧ s.station = 0 ∧ s.line.mode ≠ .off then
    let places := (List.range 8).map fun i => if i = 0 then some 0 else none
    s.modLine fun l => { l with reset := some ⟨s.frm.count + 1, places, false⟩, pos := 0, map := places }
  else s

/-- LINE_CTL_RESET (R351): station 0 only. -/
def execLineCtlReset (m : Master) (s : State) : Host.Outcome State Fault Refusal := .next ((s.noted m Adr.LINE_CTL).lineResetWrite m)

/-- The stations of a list, as bits. -/
def stationBits (l : List Nat) : BitVec 8 := l.foldl (fun m i => m ||| BitVec.ofNat 8 (2 ^ i)) 0

/-- The places of a line reset, without the stations whose number stands in two of them (R351). -/
def onceOnly (l : List (Option Nat)) : List (Option Nat) := l.map fun p => if (l.filter (· == p)).length = 1 then p else none

/-- LINE_EPOCH (R28, R351, R353): tick r + 1 + n, at which the frame counter becomes 0; n, the number of stations on the ring, is told by
the tick at which the command comes, and those that have added themselves must be among them (log 210). -/
def execLineEpoch (s : State) : Host.Outcome State Fault Refusal :=
  .next (
    match s.line.reset with
    | none => s
    | some r =>
      let n := (s.frm.count - r.start).toNat
      if n = 0 ∨ 8 < n ∨ (r.places.drop n).any Option.isSome then s
      else
        let t := s.setCount 0
        let places := onceOnly r.places
        let t1 := t.modLine fun l =>
          { l with mode := .joined, present := stationBits (places.filterMap id) ||| BitVec.ofNat 8 (2 ^ s.station), reset := none, missed := 0,
                   map := places, size := n, loop := true, round := none,
                   peers := l.peers.map fun p => { p with seen := some 0, base0 := none, base1 := none, got := [], lost := false } }
        let t2 := t1.modLine fun l => { l with topo := l.topoOf }
        let d := t2.line.present.toNat + 256 * t2.line.topo
        (t2.raise 53 (stationCode t2.station) (wd d) (wd t2.line.topoD0)).modLine fun l => { l with topoD0 := d })

/-- May a joining station run at station 0's rate, as its STATUS tells it (R350–R352)? It takes another one only with every axis parked
(DEDUCED, log 223). -/
def State.rateFits (s : State) : Bool :=
  let p := s.line.peer 0
  p.seen.isNone || Fin.ofNat 4 p.rate == s.frm.rate || (allFin 200).all fun x => (s.ax.get x).isParked

/-- LINE_JOIN (R28, R352, R353): the third tick of a station that joins by itself, which measured its delay in the first frame and locked in
the second. The ring order as it finds it gives its position (log 208). -/
def execLineJoin (found : JoinIn) (s : State) : Host.Outcome State Fault Refusal :=
  .next (
    let l := s.line
    if s.station ≠ 0 ∧ l.mode = .locking ∧ l.locked ∧ l.missed = 0 ∧ l.joinAt.any (fun f => frameLe (f + 2) s.frm.count) ∧ s.rateFits then
      let t := s.setCount found.count
      let t1 := t.modLine fun l =>
        { l with mode := .joined, present := l.present ||| BitVec.ofNat 8 (2 ^ s.station), missed := 0, reset := none, joinAt := none,
                 map := (List.range 8).map fun i => found.places.getD i none,
                 pos := ((List.range 8).find? fun i => found.places.getD i none == some s.station).getD l.pos,
                 size := (found.places.filter Option.isSome).length, loop := true, round := none,
                 peers := l.peers.map fun p => { p with seen := some found.count, base0 := none, base1 := none, got := [], lost := false } }
      let t2 := if (l.peer 0).seen.isSome then t1.followRate (Fin.ofNat 4 (l.peer 0).rate) else t1
      (t2.raise 52 (stationCode t2.station) (wdI t2.line.err) 1).topology
    else s)

/-! ### Enable, ports and the cut (R342, R363) -/

/-- What stays known of a station that this one is no longer joined with: the ALIVE last accepted in each direction (R347). -/
def Peer.forgotten (p : Peer) : Peer := { Peer.reset with alive0 := p.alive0, alive1 := p.alive1 }

/-- The stops of stations that are no longer joined are not in force here (R356). -/
def State.dropOthers (s : State) : State :=
  s.forAll (List.range 8) fun u i => if i = u.station then u else u.dropEstop i none

/-- A write of LINE_CFG (R342): STATION is written while EN is 0; EN 1 requests admission; EN 0 leaves the line. -/
def State.lineCfgWrite (s : State) (m : Master) (w : Word) : State :=
  match s.gate m Adr.LINE_CFG 0 with
  | (t, false) => t
  | (t, true) =>
    let old := t.reg Adr.LINE_CFG
    let v := t.written m Adr.LINE_CFG w
    let asked := t.frm.adm.any fun r => r.kind == .line
    let keepSta := bitOf old 0 || asked
    let v1 := if keepSta then mergeW v old (bits 6 4) else v
    if bitOf v 0 = bitOf old 0 then (t.setReg Adr.LINE_CFG v1).rewritten Adr.LINE_CFG
    else if bitOf v 0 then
      let t1 := (t.setReg Adr.LINE_CFG (mergeW v1 0 1)).rewritten Adr.LINE_CFG
      if asked then t1 else t1.ask .line t1.frm.count
    else
      let t1 := (((t.setReg Adr.LINE_CFG v1).rewritten Adr.LINE_CFG).endLineOps 48).dropOthers
      { t1 with
        frm := { t1.frm with lineCost := false }
        line := { Line.init with up := t1.line.up, upAt0 := t1.line.upAt0, upAt1 := t1.line.upAt1, own := t1.line.own,
                                 estop := t1.line.estop, topoD0 := t1.line.topoD0, tx0 := t1.line.tx0, tx1 := t1.line.tx1,
                                 peers := t1.line.peers.map Peer.forgotten } }

/-- LINE_ENABLE (R342). -/
def execLineEnable (m : Master) (w : Word) (s : State) : Host.Outcome State Fault Refusal := .next (s.lineCfgWrite m w)

/-- The participation is admitted (R342): EN reads 1, and the station searches. -/
def State.lineAdmitted (s : State) : State :=
  let t := s.orReg Adr.LINE_CFG 1
  { t with frm := { t.frm with lineCost := true }, line := { t.line with mode := .search } }

/-- This station is cut off (R358, R363). -/
def State.cutOff (s : State) : State :=
  let t := s.endLineOps 48
  let t1 := t.modLine fun l =>
    { l with mode := .isolated, present := 0, bars := [], tally := [], snaps := [], dones := [], trim := 0, missed := 0, locked := false,
             peers := l.peers.map Peer.forgotten, joinAt := none, trimNow := 0, trimNext := 0, measured := 0, round := none }
  let t2 := if t1.rb Adr.LINE_CFG 13 then t1.originate 2 else t1
  t2.dropOthers.topology

/-- LINE_CUT_OFF (R349, R363): this station reaches station 0 in neither direction, so that no TICK has come in the frame in progress. -/
def execLineCutOff (s : State) : Host.Outcome State Fault Refusal :=
  .next (
    if s.station ≠ 0 ∧ (s.line.mode = .joined ∨ s.line.mode = .locking) ∧ (s.line.gotTick = false ∨ s.line.up = 0) then s.cutOff else s)

/-- LINE_PORT_DOWN (R363): alignment lost, or 16 check failures in a frame. -/
def execLinePortDown (port : Fin 2) (checkFailures : Bool) (s : State) : Host.Outcome State Fault Refusal :=
  .next (
    let bad := if port = 0 then s.line.bad0 else s.line.bad1
    if ¬ s.portUp port ∨ (checkFailures ∧ bad < 16) then s
    else
      let at0 := if port = 0 then s.line.upAt0 else s.line.upAt1
      let t := s.modLine fun l => { l with up := l.up &&& ~~~(BitVec.ofNat 2 (2 ^ port.val)) }
      let t1 := t.raise 48 (0x208 + port.val) (wd (b2n checkFailures)) (wd (s.frm.count - at0).toNat)
      if t1.line.up = 0 ∧ t1.line.mode = .joined then
        (if t1.station ≠ 0 then t1.cutOff
         else (stations t1.line.present).foldl (fun u i => if i = 0 then u else u.leaves i) t1)
      else t1.topology)

/-- LINE_PORT_UP (R363): with it the ring is closed, as far as this station knows. -/
def execLinePortUp (port : Fin 2) (s : State) : Host.Outcome State Fault Refusal :=
  .next (
    if s.portUp port then s
    else
      (s.modLine fun l =>
        let u := { l with loop := true }
        if port = 0 then { u with up := l.up ||| 1, upAt0 := s.frm.count } else { u with up := l.up ||| 2, upAt1 := s.frm.count }).topology)

/-! ### Line barriers (R357, R358) -/

/-- A line-scope BARRIER of this station is refused (R95, R358). -/
def State.lineBarRefused (s : State) (o : Option Nat) (off : Nat) : State :=
  match o with
  | some n =>
    match s.desc? n with
    | some d => (s.finish d 4 7 (wd off) s.frm.count).enterRing d.ring 64
    | none => s
  | none => s

/-- Count an arrival on the first instance of its id that is not full. -/
def countLine (a : LineArrival) : List LineBar → List LineBar
  | [] => []
  | b :: bs =>
    if b.id = a.id ∧ b.full.isNone then
      { b with count := b.count + 1, who := b.who ++ a.desc.toList,
               full := if b.parts ≤ b.count + 1 then some a.frame else none } :: bs
    else b :: countLine a bs

/-- Judge one arrival of the line against the ids open (R95, R357). -/
def State.judgeArrival (s : State) (a : LineArrival) : State :=
  let l := s.line.bars
  let put (k : List LineBar) : State := s.modLine fun n => { n with bars := countLine a k }
  match l.find? fun b => b.id == a.id with
  | some b =>
    if b.parts ≠ a.parts then s.lineBarRefused a.desc 20
    else if l.any fun b => b.id == a.id && b.full.isNone then put l
    else put (l ++ [⟨a.id, a.parts, 0, [], none, false⟩])
  | none =>
    if 64 ≤ (l.map (·.id)).eraseDups.length then s.lineBarRefused a.desc 16 else put (l ++ [⟨a.id, a.parts, 0, [], none, false⟩])

/-- Judge the arrivals of frame `k − 2` at tick `k`, the lowest station first (R357, R358). An id whose P-th arrival was in frame a was open
in frame a + 1 as well (R95), and is forgotten with the arrivals of that frame. -/
def State.judgeArrivals (s : State) : State :=
  let due := s.line.tally.filter fun a => frameLe (a.frame + 2) s.frm.count
  let rest := s.line.tally.filter fun a => !frameLe (a.frame + 2) s.frm.count
  let s1 := s.modLine fun l => { l with tally := rest }
  let s2 := (List.range 8).foldl (fun t i => t.forAll (due.filter fun a => a.station == i) State.judgeArrival) s1
  s2.modLine fun l => { l with bars := l.bars.filter fun b => !(b.released && b.full.any fun f => frameLe (f + 3) s.frm.count) }

/-- LINE_BARRIER_RELEASE (R358): the P-th arrival was in frame a; tick a + 2. -/
def execLineBarrierRelease (id : Word) (s : State) : Host.Outcome State Fault Refusal :=
  .next (match s.line.bars.find? fun b => b.id == id && !b.released && b.full.any fun f => frameLe (f + 2) s.frm.count with
    | none => s
    | some b =>
      let t := (s.modLine fun l => { l with bars := l.bars.replace b { b with who := [], released := true } }).releaseAll b.who
      t.raise 49 (stationCode t.station) b.id (wd b.parts))

/-! ### The tick on the line (R346, R347, R357, R360) -/

/-- The eight bytes of an ARRIVE entry (R346). -/
def LineArrival.bytes (a : LineArrival) : List Byte := leBytes 4 a.id.toNat ++ [BitVec.ofNat 8 a.parts, 1, 0, 0]

/-- Send some arrivals, six to a frame. -/
def State.sendArrivals : Nat → List LineArrival → State → State
  | 0, _, s => s
  | _, [], s => s
  | n + 1, l, s => (s.sendLine 2 ((l.take 6).flatMap LineArrival.bytes)).sendArrivals n (l.drop 6)

/-- ARRIVE at the tick after barrier arrivals, at most 24 (R357). -/
def State.tickArrivals (s : State) : State :=
  let before : FrameNo := s.frm.count - 1
  let now := (s.line.toSend.take 24).map fun a => { a with frame := before }
  let s1 := s.sendArrivals 4 now
  s1.modLine fun l => { l with toSend := l.toSend.drop 24, tally := l.tally ++ now }

/-- The rate that this tick brings: the one of an accepted request whose result is due (R30), else the one in force. -/
def State.rateAtTick (s : State) : Fin 4 :=
  match s.frm.adm.findSome? fun r =>
    (match r.kind, r.verdict with
      | .go rate _ _ _, some .accepted => if frameLe (r.frame + 2) s.frm.count then some rate else none
      | _, _ => none) with
  | some r => r
  | none => s.frm.rate

/-- The payload of STATUS (R346), with the rate that comes into force at the tick, so that every station changes at the same tick
(R350). -/
def State.statusPayload (s : State) : List Byte :=
  let parked := (allFin 200).all fun x => (s.ax.get x).isParked
  [BitVec.ofNat 8 (b2n s.line.own.isSome), BitVec.ofNat 8 (b2n parked), BitVec.ofNat 8 s.rateAtTick.val, 0]

/-- SNAP_CMD of the line snapshots that take effect in this frame (R360). -/
def State.tickSnapCmd (s : State) : State :=
  s.forAll (s.ord.descs.filter fun d => d.lineSnap && d.eff == s.frm.count) fun t d =>
    t.sendLine 3 (leBytes 8 d.snapF.toNat ++ (d.bytes.drop 32).take 25)

/-- Record this station's SNAP_DONE, and send it where it is joined (R360). -/
def State.reportSnap (s : State) (issuer : Nat) (f : FrameNo) (written : Bool) (n : Nat) : State :=
  let t := if s.joined then
    s.sendLine 4 (leBytes 8 f.toNat ++ [BitVec.ofNat 8 issuer, BitVec.ofNat 8 (b2n written)] ++ leBytes 2 n) else s
  t.modLine fun l => { l with dones := l.dones ++ [⟨issuer, f, s.station, written, n⟩] }

/-- SNAP_DONE at tick F + 1 (R360): of this station's own snapshots, joined or not, and of the others'. -/
def State.tickSnapDone (s : State) : State :=
  let before : FrameNo := s.frm.count - 1
  let s1 := s.forAll (s.ord.descs.filter fun d => d.lineSnap && d.snapDone && d.snapF + d.snapBy == before) fun t d =>
    t.reportSnap t.station d.snapF d.snapW (axisMask d.bytes 32).length
  s1.forAll (s1.line.snaps.filter fun x => x.frame + x.moved == before) fun t x => t.reportSnap x.issuer x.frame x.written x.mask.length

/-- SNAPSHOT_READY at tick F + 2 on the stations that did not issue (R360, R362). -/
def State.tickSnapReady (s : State) : State :=
  let l := s.line.snaps.filter fun x => x.frame + x.moved == s.frm.count - 2
  let s1 := s.forAll l fun t x =>
    t.raise 50 (stationCode x.issuer) (wd x.frame.toNat) (wd (writtenBits (t.line.reports x.issuer x.frame)))
  s1.modLine fun n => { n with snaps := n.snaps.filter (fun x => !l.contains x),
                               dones := n.dones.filter fun r => !(l.any fun x => x.issuer == r.issuer && x.frame == r.frame) }

/-- Capture the line snapshots of other stations at tick F (R360, R361): with PF0's requester ID. -/
def State.tickSnapCapture (s : State) : State :=
  let k := s.frm.count
  let s1 := s.forAll (s.ord.descs.filter fun d => d.op == 0xB && d.stage == .effect && d.eff ≠ k && d.snapF == k && !d.snapDone)
    State.captureOwn
  let s2 := s1.forAll (s1.line.snaps.filter fun x => x.frame == k) fun t x =>
    if t.hif.linkUp then
      t.emit (.dmaWrite 0 (t.reg64 Adr.LINE_SNAP_BASE_LO + 0x800 * x.issuer) (t.snapBlock k 1 x.issuer x.mask)) else t
  s2.modLine fun l => { l with snaps := l.snaps.map fun x => if x.frame = k then { x with written := s.hif.linkUp } else x }

/-- The joined stations whose STATUS of the tick before came in neither direction. -/
def State.unheard (s : State) : List Nat :=
  (stations s.line.present).filter fun i => i != s.station && !((s.line.peer i).seen.any fun f => frameLe (s.frm.count - 1) f)

/-- In a chain, a station that is no longer heard may be cut off, and has then left the joined set (R363). The spec does not say how the
others tell that from the loss of a frame, so that a free value decides (log 224). -/
def State.cutOthers (s : State) : State :=
  if s.line.topo ≠ 1 then s
  else s.forAll s.unheard fun t i => let (w, u) := t.drawFree; if w.getLsbD 0 then u.leaves i else u

/-- A frame of a joined station is missing in both directions at the next tick (R347): its STATUS did not come, or its next STATUS has
shown by ALIVE that another frame was sent (log 211). -/
def State.tickMissing (s : State) : State :=
  let miss := (stations s.line.present).any fun i => i != s.station && (s.line.peer i).lost
  if miss ∨ s.unheard ≠ [] then
    (s.modLine fun l => { l with peers := l.peers.map fun p => { p with lost := false } }).endLineOps 54 else s

/-- What the frame that ends showed of the ring: whether this station's STATUS came round (R363). -/
def State.tickLoop (s : State) : State :=
  let t := s.modLine fun l => { l with loop := l.round.getD l.loop, round := none, tick0 := none, tick1 := none }
  if t.joined then t.topology else t

/-- A station not heard for 64 ticks has left the joined set (DEDUCED from R349 and R363). -/
def State.tickGone (s : State) : State :=
  (stations s.line.present).foldl (fun t i =>
    if i ≠ t.station ∧ !((t.line.peer i).seen.any fun f => frameLe s.frm.count (f + 64)) then t.leaves i else t) s

/-- The trim of the frame that begins (R348, R349): a follower that heard no TICK runs it untrimmed, and 64 ticks in a row without TICK
cut it off. -/
def State.tickTrim (s : State) : State :=
  let t := s.modLine fun l =>
    { l with missed := if s.station = 0 ∨ l.gotTick then 0 else min 64 (l.missed + 1), trim := l.trimNow,
             trimNow := if l.gotTick then l.trimNext else 0, trimNext := 0, gotTick := false, bad0 := 0, bad1 := 0 }
  if t.line.missed = 64 ∧ (t.line.mode = .joined ∨ t.line.mode = .locking) then t.cutOff else t

/-- A line reset at a tick (R351): station 0 begins it at tick r + 1, and a follower that has measured its delay and locked adds
itself at tick r + 1 + i. One that has not is left out. -/
def State.tickReset (s : State) : State :=
  match s.line.reset with
  | none => s
  | some r =>
    if s.station = 0 then
      (if r.start = s.frm.count then (s.sendLine 5 (resetPayload r.places)).sendLine 6 [0, 0, 0, 0] else s)
    else if r.start + BitVec.ofNat 64 s.line.pos ≠ s.frm.count then s
    else if s.line.measured = 0 ∨ s.line.locked = false then s.modLine fun l => { l with mode := .search, reset := none }
    else
      let places := r.places.set s.line.pos (some s.station)
      let t := (s.modLine fun l => { l with reset := some { r with places := places }, map := places }).sendLine 5 (resetPayload places)
      if r.twin then t.leftOut else t

/-- What a tick does on the line (R345–R351, R357–R362). -/
def State.lineTick (s : State) : State :=
  let s0 := s.tickSnapCapture
  if s0.line.mode = .off then s0.tickSnapDone
  else
    let a := if s0.station = 0 ∧ s0.line.up ≠ 0 then s0.emit (.lineTick s0.line.up) else s0
    let c := a.tickTrim.tickReset.tickLoop
    if c.line.mode = .joined then
      let d := c.cutOthers.tickMissing.tickGone
      let e := ((d.sendLine 1 d.statusPayload).modLine fun l => { l with round := some false }).tickSnapCmd.tickArrivals
      e.tickSnapReady.tickSnapDone.judgeArrivals
    else if c.line.mode = .search ∨ c.line.mode = .isolated then
      (if c.station = 0 then c else c.sendLine 6 [0, 0, 0, 0]).tickSnapDone
    else c.tickSnapDone

end Sys2Proof.Machine
end

