-- ==== Sys2Proof/Machine/Fit.lean ====
section
/-! DEFINITION. The ring-down fit of IDENTIFY kind 2 (R144, R280): the damped sinusoid of least squares over the captured rotor
deviation, and which results agree with it. -/

namespace Sys2Proof.Machine

/-! ### Sines -/

/-- An angle in 2^-16 microstep of angle as 2^-64 radian. -/
def radOf (t : Int) : Int := roundDiv (t * (2 * pi64)) (1024 * 65536)

/-- S of R268 in 2^-64: the exact sine of an angle in 2^-16 microstep of angle. -/
def sineOf (t : Int) : Int :=
  let q := 256 * 65536
  let m := t % (4 * q)
  if m < q then sinSmall (radOf m)
  else if m < 3 * q then sinSmall (radOf (2 * q - m))
  else sinSmall (radOf (m - 4 * q))

/-! ### Least squares -/

/-- A damped sinusoid of the search: ω_d / 2π in 0.1 Hz, and ζ in 0.001. -/
structure Damped where
  freq : Nat
  damp : Nat
  deriving DecidableEq, Repr

/-- The decaying cosine and sine at one instant, in 2^-64. -/
structure Phasor where
  re : Int
  im : Int
  deriving DecidableEq, Repr

/-- The product of two phasors. -/
def Phasor.mul (p q : Phasor) : Phasor :=
  ⟨roundDiv (p.re * q.re - p.im * q.im) one64, roundDiv (p.re * q.im + p.im * q.re) one64⟩

/-- e^(−ζ ω_n t) (cos ω_d t, sin ω_d t), where ω_d t is `w`, 2^-64 radian, 0 ≤ w ≤ π/2. -/
def Damped.phasor (d : Damped) (w : Nat) : Phasor :=
  let e := expNeg (w * d.damp * 2 ^ 32 / isqrt ((1000000 - d.damp * d.damp) * 2 ^ 64))
  ⟨roundDiv (e * sinSmall ((pi64 / 2 : Nat) - w)) one64, roundDiv (e * sinSmall w) one64⟩

/-- The sums of the normal equations: of the cosine `u` and the sine `v` with themselves and with the samples `y`. -/
structure FitSums where
  uu : Int
  uv : Int
  vv : Int
  yu : Int
  yv : Int
  deriving DecidableEq, Repr

/-- The sums over the samples, oldest first; `p` is the phasor at the first of them, and `w` the turn from one to the next. -/
def fitGo (w : Phasor) : List Int → Phasor → FitSums → FitSums
  | [], _, f => f
  | y :: ys, p, f =>
    fitGo w ys (p.mul w)
      ⟨f.uu + p.re * p.re, f.uv + p.re * p.im, f.vv + p.im * p.im, f.yu + y * p.re, f.yv + y * p.im⟩

/-- The sums of a damped sinusoid over samples `ys`, each the mean of `n` frames at `hz` frames per second and standing for the middle of
its run. -/
def Damped.sums (d : Damped) (hz n : Nat) (ys : List Int) : FitSums :=
  let w := 2 * pi64 * d.freq * n / (10 * hz)
  fitGo (d.phasor w) ys (d.phasor (w / 2)) ⟨0, 0, 0, 0, 0⟩

/-- The determinant of the normal equations. -/
def FitSums.det (f : FitSums) : Int := f.uu * f.vv - f.uv * f.uv

/-- The samples' squares that the fit takes away, times the determinant. -/
def FitSums.gain (f : FitSums) : Int := f.yu * f.yu * f.vv - 2 * f.yu * f.yv * f.uv + f.yv * f.yv * f.uu

/-- Is the amplitude at the arrival 20 (2.0°) at least, for samples in 2^-16 of 0.1°? -/
def FitSums.strong (f : FitSums) : Bool :=
  let a := f.yu * f.vv - f.yv * f.uv
  let b := f.yv * f.uu - f.yu * f.uv
  decide (0 < f.det ∧ (20 * 65536 * f.det) * (20 * 65536 * f.det) ≤ (a * a + b * b) * (one64 * one64))

/-- The stronger of two fits: the one that leaves the smaller sum of squares. -/
def stronger (a b : Option (Damped × FitSums)) : Option (Damped × FitSums) :=
  match a, b with
  | none, y => y
  | x, none => x
  | some x, some y => if x.2.gain * y.2.det < y.2.gain * x.2.det then some y else some x

/-- The fits that are searched: 5.0–500.0 Hz and a damping of 0–0.300. -/
def candidates : List Damped :=
  (List.range 4951).flatMap fun i => (List.range 301).map fun z => ⟨50 + i, z⟩

/-- The strongest fit over a capture, where one has an amplitude of 2.0° (R280). -/
def bestFit (hz n : Nat) (ys : List Int) : Option Damped :=
  if ys = [] then none
  else
    (candidates.foldl (fun best d =>
      let f := d.sums hz n ys
      if f.strong then stronger best (some (d, f)) else best) none).map (·.1)

/-- Does a result agree with the fit within 0.5 % on FREQ and 0.005 on DAMP (R280)? -/
def Damped.agrees (d : Damped) (freq damp : Nat) : Bool :=
  decide (50 ≤ freq ∧ freq ≤ 5000 ∧ damp ≤ 300 ∧ ((freq : Int) - d.freq).natAbs * 1000 ≤ 5 * d.freq ∧
    ((damp : Int) - d.damp).natAbs ≤ 5)

/-! ### The capture -/

/-- D frames make one sample of the capture (R280). -/
def State.runLength (s : State) : Nat := s.hz / 4000

/-- A frame's deviation joins the capture (R280): `step` is what the frame adds, in 2^-16 of 0.1°. -/
def RingDown.take (r : RingDown) (run : Nat) (step : Int) : RingDown :=
  let dev := r.dev + step
  if run ≤ r.n + 1 then { r with dev := dev, sum := 0, n := 0, ys := r.ys ++ [roundDiv (r.sum + dev) run] }
  else { r with dev := dev, sum := r.sum + dev, n := r.n + 1 }

/-- FREQ and DAMP of an observation (R144, R280), 0 where no oscillation qualifies. A fit that agrees with the strongest one may stand in
its place: the estimator's own is the operand, where it agrees (DESIGN CHOICE, log 12). -/
def State.ringFit (s : State) (r : RingDown) (freq damp : Nat) : Nat × Nat :=
  match bestFit s.hz s.runLength r.ys with
  | none => (0, 0)
  | some d => if d.agrees freq damp then (freq, damp) else (d.freq, d.damp)

end Sys2Proof.Machine
end

