-- ==== Sys2Proof/Machine/Timetable.lean ====
section
/-! DEFINITION. The commands of the Timetable (R105–R146) and of groups (R153–R156): the moves, STOP and PARK, SET_PARAM in its
forms, the completions, the test move of IDENTIFY kind 2. A descriptor's command acts where the descriptor stands at the
head of its queue and its start has come; otherwise it changes nothing. -/

namespace Sys2Proof.Machine

/-- The commanded target that a relative distance adds to (R123). -/
def State.relBase (s : State) (x : AxisId) : Int :=
  let t := (s.ax.get x).tt
  match t.mode with
  | .velocity | .step | .cam => intPart t.u0.p
  | .parked | .hold | .position | .disabled => t.target

/-- A motion takes over an axis in the next frame. -/
def State.startMotion (s : State) (x : AxisId) (run : Running) (m : Mode) : State :=
  (s.modTt x fun t => { t with running := run, modeNext := some m, effFrame := s.frm.count + 1 }).runPhase x

/-- A move to `target` takes effect on axis `x` (R120, R121). -/
def State.moveTo (s : State) (x : AxisId) (target : Int) (l : Limits) (bypass : Bool) (run : Running) : State :=
  let s1 := s.takeForms x
  let s2 := s1.modTt x fun t => { t with bypass := bypass, own := l }
  ((s2.newTarget x target (l.capV (velForm s.hz (s.ax.get x).act.vmax))).startMotion x run .position).planProfile x

/-- MOVE_ABS and MOVE_REL take effect. -/
def State.moveEffect (s : State) (d : Desc) (base : AxisId → Int) : State :=
  match d.axis? with
  | none => s
  | some x =>
    let b := d.bytes
    s.moveTo x (base x + s32 b 16) (moveLimits (s.ax.get x).act s.hz (u32 b 20) b) (u8 b 40 == 1) (.move d.acc)

/-- MOVE_ABS (R120, R121). -/
def execMoveAbs (d : Nat) (s : State) : Host.Outcome State Fault Refusal :=
  .next (s.withEffect d (· == 1) fun t e => t.moveEffect e fun _ => 0)

/-- MOVE_REL (R120, R121, R123): the base is the commanded target before the move supersedes anything. -/
def execMoveRel (d : Nat) (s : State) : Host.Outcome State Fault Refusal :=
  .next (s.withEffect d (· == 2) fun t e => t.moveEffect e s.relBase)

/-- MOVE_VEL takes effect (R125, R136). A braking that its lower deceleration could not end inside a limit is raised as R137 says: without
an event, but for a speed of 0, which stops as a STOP does, with LIMIT_CLIPPED cause 3 (DESIGN CHOICE, log 220). -/
def State.velEffect (s : State) (d : Desc) : State :=
  match d.axis? with
  | none => s
  | some x =>
    let b := d.bytes
    let speed := u32 b 16
    let neg := u8 b 20 == 1
    let hold := (s.ax.get x).tt.modeAhead == .hold
    if speed = 0 ∧ hold then
      (s.modTt x fun t => { t with running := .vel (some d.acc) 0 neg, goal := .rest, effFrame := s.frm.count + 1 }).runPhase x
    else
      let s1 := s.takeForms x
      let a := s1.ax.get x
      let own := { moveLimits a.act s.hz speed b with v := velForm s.hz speed }
      if speed = 0 then
        -- the rest that it brakes to is a whole microstep (R115)
        let old : Limits := if a.tt.lim.d = 0 then own else a.tt.lim
        (((s1.modTt x fun t => { t with bypass := false }).stopFrom x own old false).startMotion x (.vel (some d.acc) 0 neg)
          .velocity).planProfile x
      else
        let m := own.capV (velForm s.hz a.act.vmax)
        let l := (a.tt.guarded a.act.limLo a.act.limHi m a.tt.lim).1
        let s2 := s1.modAx x fun a =>
          { a.unplanned with tt := { a.tt with goal := .velocity (m.signed neg), lim := l, own := own, reversal := none,
                                                  bypass := false } }
        (s2.startMotion x (.vel (some d.acc) speed neg) .velocity).planProfile x

/-- MOVE_VEL (R125). -/
def execMoveVel (d : Nat) (s : State) : Host.Outcome State Fault Refusal :=
  .next (s.withEffect d (· == 3) State.velEffect)

/-- STOP and PARK take effect (R67, R119, R124, R137). -/
def State.stopEffect (s : State) (d : Desc) (kind : Nat) (dec : Nat) : State :=
  match d.axis? with
  | none => s
  | some x =>
    let a := s.ax.get x
    let t := a.act
    let run : Running := .stop (some d.acc) kind
    if a.tt.modeAhead = .parked ∨ a.tt.modeAhead = .hold then
      s.modTt x fun t => { t with running := run, effFrame := s.frm.count + 1 }
    else
      let v := orStored dec (if kind = 2 then t.qsDec else t.stopDec)
      (s.stopMotion x (accForm s.hz v) (jerkForm s.hz t.jdec) (kind == 1)).modTt x fun t =>
        { t with running := run, effFrame := s.frm.count + 1 }

/-- STOP (R119, R124). -/
def execStop (d : Nat) (s : State) : Host.Outcome State Fault Refusal :=
  .next (s.withEffect d (· == 4) fun t e => t.stopEffect e (u8 e.bytes 16) (u32 e.bytes 20))

/-- PARK (R67, R107). -/
def execPark (d : Nat) (s : State) : Host.Outcome State Fault Refusal :=
  .next (s.withEffect d (· == 8) fun t e => t.stopEffect e 1 0)

/-! ### SET_PARAM -/

/-- SET_PARAM of a stored parameter (R129). -/
def execSetParam (d : Nat) (s : State) : Host.Outcome State Fault Refusal :=
  .next (match s.desc? d with
    | none => s
    | some e =>
      match paramOf (u16 e.bytes 16) with
      | some .posSet | some .grpDef | some .trgDisarm => s
      | _ => s.withEffect d (· == 0xF) State.setParamEffect)

/-- POS_SET takes effect (R127, R130, R148, R300). -/
def State.posSetEffect (s : State) (d : Desc) : State :=
  match d.axis? with
  | none => s
  | some x =>
    let a := s.ax.get x
    let v := paramValue .posSet d.bytes
    if v < a.act.limLo then s.paramDone d (some (5, 20, wdI a.act.limLo))
    else if a.act.limHi < v then s.paramDone d (some (5, 20, wdI a.act.limHi))
    else
      let ang := a.tt.oNext.p + a.cd.angNext - v * 65536
      let s1 := s.modAx x fun a =>
        { a with tt := { a.tt.placeAt (v * 65536) with target := v, posSetAt := (s.frm.count + 1) :: a.tt.posSetAt.filter fun e => e == s.frm.count }
                 cd := { a.cd with angNext := ang } }
      s1.paramDone d none

/-- A POS_SET that was not refused makes its association with the tick (R300). -/
def State.posSetTick (s : State) (d : Desc) : State :=
  match d.axis?, d.out with
  | some x, some (st, _, _) =>
    if st = 5 then s else s.modFbx x fun f => { f with assocAt := some (paramValue .posSet d.bytes) }
  | _, _ => s

/-- POS_SET (R127, R130). -/
def execPosSet (d : Nat) (s : State) : Host.Outcome State Fault Refusal :=
  .next (match s.desc? d with
    | none => s
    | some e => if e.isPosSet then s.withEffect d (· == 0xF) State.posSetEffect else s)

/-- GROUP_MOVEs of group `g` in axis queues (R153). -/
def State.groupPending (s : State) (g : Nat) : Nat :=
  (s.ord.descs.filter fun e => e.active && e.op == 0x10 && u8 e.bytes 16 == g).length

/-- GRP_DEF at the tick that begins its frame of effect (R153). -/
def State.grpDefEffect (s : State) (d : Desc) : State :=
  let g := u8 d.bytes 18
  let n := s.groupPending g
  if n ≠ 0 then s.paramDone d (some (5, 28, wd n))
  else { s with grp := s.grp.set (Fin.ofNat 32 g) (axisMask d.bytes 28) }.paramDone d none

/-- GRP_DEF (R153). -/
def execGrpDef (d : Nat) (s : State) : Host.Outcome State Fault Refusal :=
  .next (match s.desc? d with
    | none => s
    | some e => if paramOf (u16 e.bytes 16) = some .grpDef then s.withEffect d (· == 0xF) fun t _ => t else s)

/-- TRG_DISARM at the tick that begins its frame of effect: the slot is IDLE (R150). -/
def State.disarmEffect (s : State) (d : Desc) : State :=
  (s.modTrg (Fin.ofNat 64 (u8 d.bytes 18)) fun m => { m with armed := false }).paramDone d none

/-- TRG_DISARM (R150): the slot is IDLE from the frame of effect. -/
def execTrgDisarm (d : Nat) (s : State) : Host.Outcome State Fault Refusal :=
  .next (match s.desc? d with
    | none => s
    | some e =>
      if paramOf (u16 e.bytes 16) = some .trgDisarm then s.withEffect d (· == 0xF) fun t _ => t else s)

/-! ### Groups (R154–R156) -/

/-- A duration in 2^-64 frame of the profile from rest over `dist` microsteps (R155). -/
def durationOf (l : PLim) (dist : Int) : Nat := segsTime (restSegs l (dist * microQ))

/-- Limits scaled by k in 2^-16 (R155). -/
def Limits.scale (l : Limits) (k : Nat) : Limits where
  v := (roundDiv (l.v * k : Nat) (2 ^ 16)).toNat
  a := (roundDiv (l.a * k ^ 2 : Nat) (2 ^ 32)).toNat
  d := (roundDiv (l.d * k ^ 2 : Nat) (2 ^ 32)).toNat
  ja := (roundDiv (l.ja * k ^ 3 : Nat) (2 ^ 48)).toNat
  jd := (roundDiv (l.jd * k ^ 3 : Nat) (2 ^ 48)).toNat

/-- The members of a GROUP_MOVE, each with its target before clipping. -/
def State.groupTargets (s : State) (d : Desc) : List (AxisId × Int) :=
  (d.members.zip (d.targets.getD [])).map fun (x, v) => (x, if u8 d.bytes 17 = 1 then s.relBase x + v else v)

/-- The limits of each member: its own, or scaled so that all finish together (R155). -/
def State.groupLimits (s : State) (d : Desc) (ts : List (AxisId × Int)) : List Limits :=
  let speed := u32 d.bytes 20
  let one (x : AxisId) : Limits :=
    let t := (s.ax.get x).act
    limitsOf s.hz (orStored speed t.speed) t.acc t.dec t.jacc t.jdec
  if u8 d.bytes 18 = 0 then ts.map fun (x, _) => one x
  else
    let dur (x : AxisId) (v : Int) : Nat :=
      let a := s.ax.get x
      durationOf ((one x).plim (a.act.profile == 1)) (clipTarget a.act.limLo a.act.limHi v a.tt.u0.p - intPart a.tt.u0.p)
    let most := ts.foldl (fun m (x, v) => max m (dur x v)) 0
    let t := (most + 2 ^ 64 - 1) / 2 ^ 64
    ts.map fun (x, v) =>
      let n := dur x v
      if n = 0 ∨ t = 0 then one x else (one x).scale (roundDiv n (t * 2 ^ 48)).toNat

/-- GROUP_MOVE takes effect (R154, R155). -/
def State.groupEffect (s : State) (d : Desc) (ts : List (AxisId × Int)) (ls : List Limits) : State :=
  s.forAll (ts.zip ls) fun t ((x, v), l) => t.moveTo x v l false (.group d.acc)

/-- GROUP_MOVE (R154–R156). -/
def execGroupMove (d : Nat) (s : State) : Host.Outcome State Fault Refusal :=
  .next (match s.begin d (· == 0x10) with
    | (t, none) => t
    | (t, some e) =>
      let moving := e.members.find? fun x => !(t.ax.get x).tt.atRest
      match if u8 e.bytes 18 = 1 then moving else none with
      | some x => t.refuseAhead e 5 18 (wd x.val)
      | none =>
        let ts := t.groupTargets e
        let u := t.takeOver e
        u.groupEffect (u.fresh e) ts (t.groupLimits e ts))

/-- The words of a target list (R154). -/
def wordsOf : List Byte → List Int
  | a :: b :: c :: d :: l => sext 32 (leNat [a, b, c, d]) :: wordsOf l
  | _ => []

/-- GROUP_TARGET_LIST_READ_DONE (R154, R156). -/
def execGroupTargetListReadDone (d : Nat) (r : HostRead) (s : State) : Host.Outcome State Fault Refusal :=
  .next (match s.desc? d with
    | none => s
    | some e =>
      match e.tries with
      | none => s
      | some n =>
        if e.op ≠ 0x10 ∨ e.targets.isSome ∨ e.refetch ∨ e.readAt ≠ BitVec.allOnes 64 ∨ ¬ (e.active ∨ e.stage = .staged) then s
        else
          match r with
          | .data b =>
            if b.length = 4 * u16 e.bytes 32 then
              s.modDesc d fun x => { x with targets := some (wordsOf b), readAt := s.frm.count, tries := none }
            else s
          | .failed err =>
            if n = 0 then
              let att := e.tried + 1
              ((s.raise 3 (0x100 + e.ring.val) (wd (err.toNat + 256 * att)) 0)).finish e 8 3 (s.posWord e) s.frm.count
            else s.modDesc d fun x => { x with tries := some (n - 1), tried := x.tried + 1, readAt := s.frm.count })

/-! ### Completion -/

/-- Complete descriptor `n` of a motion, where it is still in effect; what it replaces ends before. -/
def State.motionDone (s : State) (n : Nat) : State :=
  match s.desc? n with
  | some d => if d.stage = .effect ∧ d.begun then (s.settle n).finishMotion d s.frm.count else s
  | none => s

/-- Has the running descriptor `n` taken effect by the frame in progress? -/
def State.inEffect (s : State) (n : Nat) : Bool :=
  (s.desc? n).any fun d => d.stage == .effect && d.begun

/-- Has an optional running descriptor taken effect? -/
def State.inEffectO (s : State) : Option Nat → Bool
  | some n => s.inEffect n
  | none => true

/-- Complete the descriptor of a motion, where there is one. -/
def State.motionDoneO (s : State) : Option Nat → State
  | some n => s.motionDone n
  | none => s

/-- A member of a GROUP_MOVE has arrived: the group completes with the last (R154). -/
def State.groupArrived (s : State) (n : Nat) : State :=
  match s.desc? n with
  | some d =>
    if d.members.all fun x => match (s.ax.get x).now.tt.running with | .group m => m != n | _ => true then s.motionDone n else s
  | none => s

/-- The motion of an axis goes on no more, without a change of mode; so also as the descriptors of the next frame found it. -/
def State.runsOut (s : State) (x : AxisId) (f : Running → Running) : State :=
  s.modAx x fun a =>
    let r := a.now.tt.running
    { a with tt := if a.tt.running = r then { a.tt with running := f r } else a.tt
             back := a.back.map fun b => if b.tt.running = r then { b with tt := { b.tt with running := f r } } else b }

/-- A motion at rest ends in HOLD (R107), unless the axis already holds or parks. -/
def State.holdRest (s : State) (x : AxisId) : State :=
  let t := (s.ax.get x).tt
  if t.mode = .parked ∨ t.mode = .hold ∨ t.modeNext = some .parked then s.runsOut x fun _ => .none else s.enterHold x

/-- What ends on an axis whose references came to rest at the tick that began the frame (R107, R121, R122, R125, R136, R144). -/
def State.restNow (s : State) (x : AxisId) : State :=
  let a := (s.ax.get x).now
  let t := a.tt
  if ¬ frameLe t.effFrame s.frm.count ∨ a.fol.isSome ∨ ¬ t.rests t.o1 t.u1 then s
  else
    match t.running with
    | .move n => if s.inEffect n then (s.holdRest x).motionDone n else s
    | .group n => if s.inEffect n then (s.holdRest x).groupArrived n else s
    | .stop o k =>
      if s.inEffectO o then
        (if k = 1 ∧ t.mode ≠ .parked ∧ (s.ax.get x).runsOn then s.parkNow x else s.holdRest x).motionDoneO o
      else s
    | .vel o _ _ =>
      if s.inEffectO o then
        ((if (s.ax.get x).runsOn ∧ t.mode ≠ .hold then s.modTt x fun t => { t with target := intPart t.u0.p } else s).holdRest x).motionDoneO o
      else s
    | .ident n =>
      if s.inEffect n then
        (s.holdRest x).modTt x fun t => { t with ring := t.ring.map fun r => { r with arrived := some s.frm.count } }
      else s
    | .none => s.holdRest x

/-- MOVE_COMPLETE (R107, R121, R142, R154): the shaped reference is at rest at the target. -/
def execMoveComplete (x : AxisId) (s : State) : Host.Outcome State Fault Refusal := .next (s.restNow x)

/-- MOVE_VEL_COMPLETE (R125): the commanded velocity is reached, by the unshaped and by the shaped reference (DESIGN CHOICE, log 201); at
rest or at a virtual limit the axis enters HOLD. -/
def execMoveVelComplete (x : AxisId) (s : State) : Host.Outcome State Fault Refusal :=
  .next (
    let a := s.ax.get x
    let t := a.now.tt
    match t.running, t.goal with
    | .vel (some n) speed neg, .velocity v =>
      if speed ≠ 0 then
        if s.inEffect n ∧ t.o1.v = v ∧ t.u1.v = v then
          (s.runsOut x fun _ => .vel none speed neg).motionDone n
        else s
      else s.restNow x
    | .vel _ _ _, _ => s.restNow x
    | _, _ => s)

/-- The fields of AXn_IDSHP (R146): VALID, the next sequence number, and the result. -/
def idshpWord (old : Word) (freq damp : Nat) : Word :=
  wd (2 ^ 31 + ((fld old 30 23 + 1) % 256) * 2 ^ 23 + (damp % 1024) * 2 ^ 13 + freq % 8192)

/-- SHAPER_IDENT_COMPLETE (R144, R280): the end of the observation, with the frequency found in 0.1 Hz, or 0, and the damping. -/
def execShaperIdentComplete (x : AxisId) (freq damp : Nat) (s : State) : Host.Outcome State Fault Refusal :=
  .next (
    let t := (s.ax.get x).tt
    match t.ring with
    | none => s
    | some r =>
      match r.arrived, s.desc? r.desc with
      | some f, some d =>
        if s.msFrames 400 ≤ s.since f ∧ d.stage = .effect then
          let (q, z) := s.ringFit r freq damp
          let s1 := s.setReg (Adr.AX_IDSHP x) (idshpWord (s.reg (Adr.AX_IDSHP x)) q z)
          let s2 := s1.modAx x fun a =>
            { a with stg := if q = 0 then a.stg else { a.stg with shpFreq := q, shpDamp := z }
                     tt := { a.tt with ring := none } }
          s2.finishOk d (wd q) 0 s.frm.count
        else s
      | _, _ => s)

end Sys2Proof.Machine
end

