-- ==== Sys2Proof/Machine/Follow.lean ====
section
/-! DEFINITION. Trigger slots (R147–R151), step inputs (R157–R159) and following (R160–R168): arming, the follower's effect and its step
of each frame, cam tables and their prefetch. -/

namespace Sys2Proof.Machine

/-! ### Trigger slots (R147–R151) -/

/-- TRIGGER_ARM at the tick that begins its frame of effect: the slot is armed for that tick (R147, R151). -/
def State.armEffect (s : State) (d : Desc) : State :=
  let b := d.bytes
  let k := u8 b 17
  let f : FrameNo := BitVec.ofNat 64 (u64 b 24)
  let fr := s.frm.count
  if k = 2 ∧ frameLt f fr then s.later d 5 24 (wd fr.toNat)
  else
    (s.modTrg (Fin.ofNat 64 (u8 b 16)) fun m =>
      { m with
        armed := true
        kind := k
        edge := if k = 2 then 0 else u8 b 18
        source := if k = 2 then 0 else u8 b 19
        pos := if k = 0 then s32 b 20 else 0
        frame := if k = 2 then f else 0
        auto := u8 b 32 == 1 }).laterOk d 0 0

/-- TRIGGER_ARM (R147). -/
def execTriggerArm (d : Nat) (s : State) : Host.Outcome State Fault Refusal :=
  .next (s.withEffect d (· == 0xC) fun t _ => t)

/-- Does an ARMED slot fire at the tick that began the frame in progress (R148)? -/
def State.slotFires (s : State) (m : Trig) : Bool :=
  m.armed &&
    (match m.kind with
     | 0 =>
       let t := (s.ax.get (Fin.ofNat 200 m.source)).tt
       let p := m.pos * 65536
       let up := decide (t.seen < p) && decide (p ≤ t.o1.p)
       let down := decide (p < t.seen) && decide (t.o1.p ≤ p)
       !(t.posSetAt.contains (s.frm.count - 1)) && (match m.edge with | 0 => up | 1 => down | _ => up || down)
     | 1 =>
       let q := s.prb.get (Fin.ofNat 16 m.source)
       (match m.edge with | 0 => q.rise.isSome | 1 => q.fall.isSome | _ => q.rise.isSome || q.fall.isSome)
     | _ => m.frame == s.frm.count)

/-- The clock of the edge that fired a probe slot: the first of its polarity (R169). -/
def State.slotClk (s : State) (m : Trig) : Nat :=
  let q := s.prb.get (Fin.ofNat 16 m.source)
  match m.edge with
  | 0 => q.rise.getD 0
  | 1 => q.fall.getD 0
  | _ => match q.rise, q.fall with
    | some a, some b => min a b
    | some a, none => a
    | none, some b => b
    | none, none => 0

/-- The descriptors that a firing starts: TRIG on the slot, at the head at the tick, or of the ring and accepted before it (R149). -/
def State.started (s : State) (m : Fin 64) : Nat :=
  (s.ord.descs.filter fun d =>
    d.isTrig && d.slot == m && d.stage == .queued && d.rej.isNone &&
      (if d.axes = [] then frameLt d.accFrame s.frm.count else d.headAt.isSome && s.stands d)).length

/-- A firing of slot `m` at tick `k` reaches a mask that waits for it: the first one commutes it (R152, R226). -/
def MaskWait.fire (m : Nat) (k : FrameNo) (w : MaskWait) : MaskWait :=
  if w.slot = some m ∧ w.fired = none then { w with fired := some k } else w

/-- Slot `m` fires (R149, R150, R152, R169). -/
def State.fireSlot (s : State) (m : Fin 64) : State :=
  let g := s.trg.get m
  let d1 := match g.kind with
    | 0 => wdI (intPart (s.ax.get (Fin.ofNat 200 g.source)).tt.o1.p)
    | 1 => wd (s.slotClk g)
    | _ => 0
  let s1 := s.modTrg m fun g =>
    { g with armed := g.auto, fires := g.fires + 1, last := wd s.frm.count.toNat, firedAt := some s.frm.count }
  let t := { s1 with ax := s1.ax.map fun (a : Axis) => { a with br := { a.br with wait := a.br.wait.map (MaskWait.fire m.val s.frm.count) } } }
  t.raise 12 (0x140 + m.val) (wd (m.val + 256 * g.kind + 65536 * s.started m)) d1

/-- The trigger evaluation of a tick (R148); the edges of the frame before are then used up. -/
def State.triggers (s : State) : State :=
  let s1 := s.forAll ((allFin 64).filter fun m => s.slotFires (s.trg.get m)) State.fireSlot
  { s1 with
    prb := s1.prb.map fun q => { q with rise := none, fall := none }
    ax := s1.ax.map fun a => { a with tt := { a.tt with seen := a.tt.o1.p } } }

/-! ### Step inputs (R157–R159) -/

/-- A step input counts `n`. -/
def StepIn.add (p : StepIn) (n : Int) : StepIn := { p with raw := p.raw + n, count := p.count + BitVec.ofInt 32 n }

/-- The place of two levels in the quadrature cycle 00, 01, 11, 10 of (B, A). -/
def quadPlace (a b : Bool) : Nat :=
  match b, a with
  | false, false => 0
  | false, true => 1
  | true, true => 2
  | true, false => 3

/-- STEP_INPUT_EDGE (R157, R158). -/
def execStepInputEdge (p : Fin 16) (e : StepEdge) (s : State) : Host.Outcome State Fault Refusal :=
  .next (
    let i := s.sd.get p
    let c := i.cfg
    let short := decide (e.phaseNs < 10 * fld c 11 8)
    let moved := { i with stepLv := e.stepLevel, dirLv := e.dirLevel }
    let keep := s.modSd p fun _ => moved
    if ¬ s.sys.powered then s
    else if i.opened then keep
    else if short then keep.incReg (Adr.SD_LOST p)
    else
      let falling := bitOf c 2
      let stepEdge := (e.line == .step || e.line == .both) && (i.stepLv != e.stepLevel) && (e.stepLevel != falling)
      let dirEdge := (e.line == .dir || e.line == .both) && (i.dirLv != e.dirLevel) && (e.dirLevel != falling)
      match fld c 1 0 with
      | 1 => s.modSd p fun _ => moved.add ((if stepEdge then 1 else 0) - (if dirEdge then 1 else 0))
      | 2 =>
        let k := (quadPlace e.stepLevel e.dirLevel + 4 - quadPlace i.stepLv i.dirLv) % 4
        if k = 2 then keep.incReg (Adr.SD_LOST p)
        else s.modSd p fun _ => moved.add (match k with | 1 => 1 | 3 => -1 | _ => 0)
      | _ =>
        if stepEdge then
          -- each change inside the setup window turns the level back to an earlier one
          let late := e.dirAgo.filter fun n => decide (n < 10 * fld c 15 12)
          let held := e.dirLevel != (late.length % 2 == 1)
          let neg := held != bitOf c 3
          let t := s.modSd p fun _ => moved.add (if neg then -1 else 1)
          if late ≠ [] then t.incReg (Adr.SD_DIRLATE p) else t
        else keep)

/-- STEP_PAIR_OPEN (R158). -/
def execStepPairOpen (p : Fin 16) (s : State) : Host.Outcome State Fault Refusal :=
  .next (if s.sys.powered then (s.modSd p fun i => { i with opened := true }).orReg (Adr.SD_STAT p) 2 else s)

/-- STEP_PAIR_RESTORE (R158); OPEN was 1 up to here (R170). -/
def execStepPairRestore (p : Fin 16) (s : State) : Host.Outcome State Fault Refusal :=
  .next (
    let t := s.modSd p fun i => { i with opened := false }
    if (s.sd.get p).opened then t.orReg (Adr.SD_STAT p) 2 else t)

/-- The latches of a tick (R159); SDn_CFG changes take effect (R170). R162 does not say how N_j − N_0 is taken where the 32 bits of SDn_COUNT
wrap between: the latch keeps the unwrapped count (DESIGN CHOICE, log entry 243). -/
def State.latchSteps (s : State) : State :=
  { s with sd := .ofFn fun (i : Fin 16) =>
      let p := s.sd.get i
      { p with latch := p.raw, cfg := s.reg (Adr.SD_CFG i) } }

/-! ### The follower (R160–R168) -/

/-- The master's value at the last tick, in its unit: 2^-16 microstep for an axis, counts else (R165). -/
def State.masterAt (s : State) (f : FollowSt) : Int :=
  match f.mkind with
  | 0 => 0
  | 1 => (s.ax.get (Fin.ofNat 200 f.idx)).tt.o1.p
  | 2 => (s.sd.get (Fin.ofNat 16 f.idx)).latch
  | _ => (s.fbc.get (Fin.ofNat 24 f.idx)).latch

/-- M_j for the next frame, in 2^-16 master unit (R165). -/
def State.masterValue (s : State) (f : FollowSt) : Int :=
  match f.mkind with
  | 0 => ((s.frm.count + 1 - f.eff).toNat : Int) * 65536
  | 1 => s.masterAt f - f.base0
  | _ => (s.masterAt f - f.base0) * 65536

/-- A point of the table that is in the store. -/
def FollowSt.point (f : FollowSt) (i : Nat) : Option Int :=
  (f.lines.find? fun e => e.1 == i / 16).bind fun e => e.2[i % 16]?

/-- P at a phase in [0, count − 1], in 2^-32 microstep; or the first missing point (R165). -/
def FollowSt.tableAt (f : FollowSt) (ph : Int) : Int ⊕ Nat :=
  let i := (floorDiv ph 65536).toNat
  let w := ph % 65536
  match f.point i with
  | none => .inr i
  | some a =>
    if w = 0 then .inl (a * 2 ^ 32)
    else match f.point (i + 1) with
      | none => .inr (i + 1)
      | some b => .inl (a * 2 ^ 32 + w * (b - a) * 65536)

/-- Remember the points that a cam needs for good (R165, R166). -/
def FollowSt.note (f : FollowSt) : FollowSt :=
  { f with pFirst := f.pFirst <|> f.point f.first, pLow := f.pLow <|> f.point 0, pHigh := f.pHigh <|> f.point (f.count - 1) }

/-- The phase of a master value (R165), unbounded. -/
def FollowSt.phaseOf (f : FollowSt) (m : Int) : Int := f.first * 65536 + floorDiv (m * f.scale) 65536

/-- P(φ) − P(first), floored to 2^-16 microstep, or the first missing point (R165, R166). -/
def FollowSt.camDemand (f : FollowSt) (ph : Int) : Int ⊕ Nat :=
  let per : Int := (f.count - 1) * 65536
  match f.pFirst with
  | none => .inr f.first
  | some p0 =>
    let c := if f.cyclic then Int.fdiv ph per else 0
    match f.tableAt (ph - c * per) with
    | .inr i => .inr i
    | .inl v =>
      if c = 0 then .inl (floorDiv (v - p0 * 2 ^ 32) 65536)
      else match f.pLow, f.pHigh with
        | some lo, some hi => .inl (floorDiv (v + c * (hi - lo) * 2 ^ 32 - p0 * 2 ^ 32) 65536)
        | none, _ => .inr 0
        | _, none => .inr (f.count - 1)

/-- The speed clamp C of a follower, 2^-16 microstep per frame: the operand, or VMAX where it is 0 (R161, R162). -/
def State.clampOf (s : State) (x : AxisId) (f : FollowSt) : Int :=
  velForm s.hz (if f.clamp = 0 then (s.ax.get x).act.vmax else f.clamp)

/-- The limits that the guard of R136 is reckoned at. -/
def State.followLimits (s : State) (x : AxisId) : Limits :=
  let t := (s.ax.get x).act
  { t.limits s.hz with d := accForm s.hz t.stopDec, jd := jerkForm s.hz t.jdec }

/-- Following ends, and the axis brakes from its present state at STOP_DEC, and JDEC, to rest and HOLD (R136, R168). -/
def State.leaveFollow (s : State) (x : AxisId) : State :=
  let s1 := s.modAx x fun a => { a with tt := { a.tt with lim := s.followLimits x } }
  s1.stopStored x false

/-- Take a followed state, unless it breaks the guard (R136). -/
def State.takeFollowed (s : State) (x : AxisId) (f : FollowSt) (r u : Int) : State :=
  let a := s.ax.get x
  let nx : RefPt := ⟨r, u, 0⟩
  if breaksGuard a.tt.sc (s.followLimits x) a.act.limLo a.act.limHi nx then
    (s.leaveFollow x).limitClipped x (intPart a.tt.u0.p) 4 (decide (0 < u))
  else (s.modAx x fun a => { a with fol := some f }).modTt x fun t => t.plan s.hz nx

/-- Count demand that FOL_LAGMAX drops, in 2^-16 microstep (R161). -/
def State.dropDemand (s : State) (x : AxisId) (n : Nat) : State :=
  let all := n + (s.ax.get x).dropFr
  ((s.addReg (Adr.SD_FOL_DROP x) (all / 65536)).modAx x fun a => { a with dropFr := all % 65536 }).orReg (Adr.SD_FOL_STAT x) (2 ^ 17)

/-- procedure follow of R161, from the demand. -/
def State.followStep (s : State) (x : AxisId) (f : FollowSt) (demand : Int) : State :=
  let a := s.ax.get x
  let c := s.clampOf x f
  let d := f.base + f.off + demand
  let r0 := a.tt.u0.p
  let u := clampInt (-c) c (d - r0)
  let e := d - (r0 + u)
  let lim : Int := a.lagmax * 65536
  let past : Int := e.natAbs - lim
  if 0 < past then
    (s.takeFollowed x { f with off := f.off - signInt e * past, backlog := signInt e * lim, lastU := u, missed := 0 } (r0 + u) u).modAx x
      fun a => { a with dropDue := past.toNat }
  else s.takeFollowed x { f with backlog := e, lastU := u, missed := 0 } (r0 + u) u

/-- CAM_UNDERRUN in the next frame (R168, R169). -/
def State.camUnderrun (s : State) (x : AxisId) (i d1 : Nat) : State := s.tellAt (s.frm.count + 1) 14 x (wd i) (wd d1)

/-- The cam's phase for the next frame, held at the ends of a table that is not cyclic; and whether it is held at one (R166). -/
def FollowSt.phaseHeld (f : FollowSt) (m : Int) : Int × Bool :=
  let ph := f.phaseOf m
  let top : Int := (f.count - 1) * 65536
  if f.cyclic then (ph, false) else if top ≤ ph then (top, true) else if ph < 0 then (0, true) else (ph, false)

/-- The follower with the master's value for the next frame, and the window's direction (R165, R167). -/
def FollowSt.turn (f : FollowSt) (m ph : Int) : FollowSt :=
  { f.note with phase := ph, lastM := m, fwd := if f.lastM < m then true else if m < f.lastM then false else f.fwd }

/-- Plan the next frame of a following axis (R161–R168). -/
def State.planFollow (s : State) (x : AxisId) (f : FollowSt) : State :=
  if f.ended then
    s.modAx x fun a =>
      { a with
        fol := none
        tt := { a.tt.plan s.hz (restAt a.tt.u0.p) with modeNext := some .hold, goal := .rest, running := .none, target := intPart a.tt.u0.p } }
  else match f.kind with
    | .step => s.followStep x f (f.gain * ((s.sd.get (Fin.ofNat 16 f.idx)).latch - f.base0))
    | .cam =>
      let m := s.masterValue f
      let (ph, held) := f.phaseHeld m
      let g := f.turn m ph
      match g.camDemand ph with
      | .inl d =>
        let t := s.followStep x g d
        if held then
          t.modAx x fun a => { a with fol := a.fol.map fun h => if h.backlog = 0 then { h with ended := true } else h }
        else t
      | .inr i =>
        if g.missed = 0 then
          (s.takeFollowed x { g with missed := 1 } ((s.ax.get x).tt.u0.p + g.lastU) g.lastU).camUnderrun x i 0
        else (s.leaveFollow x).camUnderrun x i 1

/-- Start to follow: the base, the mode, the phase (R160). -/
def State.startFollow (s : State) (x : AxisId) (f : FollowSt) : State :=
  let s1 := (s.takeForms x).modAx x fun a =>
    { a.unplanned with
      fol := some { f with base := a.tt.u0.p, eff := s.frm.count + 1 }
      ahead := none
      tt := { a.tt with goal := .rest, reversal := none, bypass := false } }
  s1.startMotion x .none (match f.kind with | .step => .step | .cam => .cam)

/-- FOLLOW_STEP takes effect (R160–R162). -/
def State.followStepEffect (s : State) (d : Desc) : State :=
  match d.axis? with
  | none => s
  | some x =>
    let b := d.bytes
    let g : Int := (u16 b 18 * u32 b 20 : Nat)
    let p : Fin 16 := Fin.ofNat 16 (u8 b 16)
    let f : FollowSt :=
      { d.camStore with kind := .step, idx := p, mkind := 0, base0 := (s.sd.get p).latch, gain := if u8 b 17 = 1 then -g else g,
                        clamp := u32 b 24, addr := 0, count := 0, scale := 0, first := 0, cyclic := false, phase := 0 }
    let t := s.startFollow x f
    match (t.ax.get x).fol with
    | some h => let u := t.planFollow x h; u.laterOk (t.fresh d) (u.posWord d) (wd (t.fresh d).eff.toNat)
    | none => t

/-- FOLLOW_STEP (R160). -/
def execFollowStep (d : Nat) (s : State) : Host.Outcome State Fault Refusal :=
  .next (s.withEffect d (· == 5) State.followStepEffect)

/-- The cams that axes follow, by what `f` makes of each axis (R164, R170). -/
def State.cams (s : State) (f : Axis → Axis) : List FollowSt :=
  (allFin 200).filterMap fun x => (f (s.ax.get x)).fol.filter fun h => h.kind == .cam

/-- The cams followed from the next frame on. -/
def State.camAxes (s : State) : List FollowSt := s.cams fun a => a

/-- The points of the tables of some cams, each table once (R164). -/
def pointsOf (l : List FollowSt) : Nat := ((l.map fun f => (f.addr, f.count)).eraseDups).foldl (fun n e => n + e.2) 0

/-- The points of the point space that the next frame has in use (R164). -/
def State.camPoints (s : State) : Nat := pointsOf s.camAxes

/-- CAM_STAT.AXES (R170): the axes in mode CAM, those that brake among them. -/
def State.camModes (s : State) : Nat := ((allFin 200).filter fun x => (s.ax.get x).tt.mode == .cam).length

/-- What refuses a FOLLOW_CAM at its effect (R164): offset and bound. -/
def State.camRefusal (s : State) (f : FollowSt) : Option (Nat × Nat) :=
  let free := 8388608 - s.camPoints
  if ¬ (s.camAxes.any fun g => g.addr == f.addr && g.count == f.count) ∧ free < f.count then some (24, free)
  else if 32 ≤ s.camAxes.length then some (16, 32)
  else none

/-- FOLLOW_CAM takes effect (R160, R164–R168). -/
def State.followCamEffect (s : State) (d : Desc) (x : AxisId) (f : FollowSt) : State :=
  let m := s.masterAt f
  let t := s.startFollow x { f with base0 := m, lastM := 0 }
  match (t.ax.get x).fol with
  | some h => let u := t.planFollow x h; u.laterOk (t.fresh d) (u.posWord d) (wd (t.fresh d).eff.toNat)
  | none => t

/-- FOLLOW_CAM (R160, R164, R168). -/
def execFollowCam (d : Nat) (s : State) : Host.Outcome State Fault Refusal :=
  .next (match s.begin d (· == 6) with
    | (t, none) => t
    | (t, some e) =>
      match e.axis? with
      | none => t
      | some x =>
        let f := (((t.ax.get x).ahead).getD e.camStore).note
        match t.camRefusal f with
        | some (o, v) => t.refuseAhead e 5 (wd o) (wd v)
        | none =>
          match f.camDemand (f.first * 65536) with
          | .inr i => ((t.keepAxis e x).camUnderrun x i 2).refuseAhead e 8 14 (wdI (t.posOf x))
          | .inl _ => (t.takeOver e).followCamEffect e x f)

/-! ### The prefetch (R167) -/

/-- A store at a tick: what came is in it, and what lies outside the window leaves. -/
def FollowSt.settle (f : FollowSt) : FollowSt :=
  let w := f.window
  { f with lines := (f.lines ++ f.late).filter (fun e => w.contains e.1), late := [] }

/-- What came since the last tick is in the stores from this tick on. -/
def State.camArrive (s : State) : State :=
  { s with ax := s.ax.map fun a =>
      { a with fol := a.fol.map FollowSt.settle, ahead := a.ahead.map FollowSt.settle } }

/-- Request the missing lines of an axis (R167). -/
def State.camFetch (s : State) (x : AxisId) : State :=
  let s1 := match (s.ax.get x).fol with
    | some f => if f.kind = FollowKind.cam then let (t, g) := s.fillCam f; t.modAx x fun a => { a with fol := some g } else s
    | none => s
  match (s1.ax.get x).ahead with
  | some f => let (t, g) := s1.fillCam f; t.modAx x fun a => { a with ahead := some g }
  | none => s1

/-- A store takes a line that it has asked for, or forgets that it asked. -/
def FollowSt.takeLine (f : FollowSt) (l : Nat) (b : Option (List Int)) : FollowSt :=
  { f with asked := f.asked.filter (· != l), late := f.late ++ (b.map fun p => (l, p)).toList }

/-- CAM_LINE_READ_DONE (R167). -/
def execCamLineReadDone (x : AxisId) (line : Nat) (r : HostRead) (s : State) : Host.Outcome State Fault Refusal :=
  .next (
    let a := s.ax.get x
    let asks (o : Option FollowSt) : Option FollowSt := o.filter fun f => f.asked.contains line
    match asks a.fol <|> asks a.ahead with
    | none => s
    | some f =>
      let put (b : Option (List Int)) : State := s.modAx x fun a =>
        if (asks a.fol).isSome then { a with fol := a.fol.map fun g => g.takeLine line b }
        else { a with ahead := a.ahead.map fun g => g.takeLine line b }
      match r with
      | .data b => if b.length = 64 then put (some (wordsOf b)) else s
      | .failed err => (put none).raise 3 (0x100 + f.ring.val) (wd (err.toNat + 256)) 0)

end Sys2Proof.Machine
end

