-- ==== Sys2Proof/Machine/Feedback.lean ====
section
/-! DEFINITION. Position feedback (R286–R297): counting, the wire checks, the soft limits and the index; the step-loss correction of
an axis (R299–R302). A conversion of the tick clock, like a change of a line before it, is given before that tick's FRAME_TICK, so
that the tick latches it (R291). -/

namespace Sys2Proof.Machine

/-- The signed 48-bit value of a _LO and _HI pair (R310). -/
def State.reg48 (s : State) (a : Nat) : Int := sext 48 (s.reg64 a)
/-- SLMIN of a channel (R295). -/
def State.slMin (s : State) (c : Fin 24) : Int := s.reg48 (Adr.FB_SLMIN_LO c)
/-- SLMAX of a channel (R295). -/
def State.slMax (s : State) (c : Fin 24) : Int := s.reg48 (Adr.FB_SLMAX_LO c)
/-- FBc_CFG.MODE (R286). -/
def State.fbMode (s : State) (c : Fin 24) : Nat := s.rf (Adr.FB_CFG c) 1 0
/-- FBc_CFG.DIR_INV. -/
def State.fbInv (s : State) (c : Fin 24) : Bool := s.rb (Adr.FB_CFG c) 2
/-- The event UNIT of a channel (R309). -/
def fbUnit (c : Fin 24) : Nat := 0x180 + c.val
/-- The axes whose active FB_CHAN names a channel. -/
def State.fbAxes (s : State) (c : Fin 24) : List AxisId := (allFin 200).filter fun x => (s.ax.get x).fbA.chan == c.val

/-- The clocks from one point of time to a later one, at the rate in force; the last frame may have been trimmed (R348). -/
def State.clocksFrom (s : State) (f0 : FrameNo) (k0 : Nat) (f1 : FrameNo) (k1 : Nat) : Int :=
  (f1 - f0).toInt * s.nClk + k1 - k0 - (if f0 ≠ f1 ∧ f1 = s.frm.count then s.line.trim else 0)

/-- The entries of a list up to the first that fails, that one and the next among them. -/
def upTo {α : Type} (p : α → Bool) : List α → List α
  | [] => []
  | a :: l => if p a then a :: upTo p l else a :: l.take 1

/-- Keep the count from a clock of the frame in progress on, for the probes (R304); `moved` says by how much a conversion moved it. -/
def State.notePast (s : State) (c : Fin 24) (clk : Nat) (moved : Option Int) : State :=
  let fr := s.frm.count
  s.modFbc c fun h =>
    { h with past := ⟨fr, clk, h.count, moved⟩ :: upTo (fun e => decide (s.clocksFrom e.frame e.clk fr clk ≤ 2048)) h.past }

/-- The clock of the last change noted in the frame in progress, which a software write is taken to fall on. -/
def State.noteNow (s : State) (c : Fin 24) : State :=
  s.notePast c (match (s.fbc.get c).past.head? with
    | some e => if e.frame = s.frm.count then e.clk else 0
    | none => 0) none

/-! ### Counting (R287–R290, R295) -/

/-- The count takes a value, saturated at the soft limits; counts lost there set LOST (R295). -/
def FbChan.put (h : FbChan) (lo hi v : Int) : FbChan :=
  if hi < v then { h with count := hi, satHi := true, satLo := false, lost := true }
  else if v < lo then { h with count := lo, satLo := true, satHi := false, lost := true }
  else { h with count := v, satLo := false, satHi := false }

/-- A channel's count takes a value; SAT_SEEN where counts are lost (R295). -/
def State.putCount (s : State) (c : Fin 24) (v : Int) : State :=
  let t := s.modFbc c fun h => h.put (s.slMin c) (s.slMax c) v
  if s.slMax c < v ∨ v < s.slMin c then t.orReg (Adr.FB_STAT c) 256 else t

/-- An illegal transition (R288, R309): LOST, ILL_SEEN, FBc_ILLCNT and the event of the window. -/
def State.illegal (s : State) (c : Fin 24) : State :=
  let t := ((s.modFbc c fun h => { h with lost := true }).orReg (Adr.FB_STAT c) 1024).incReg (Adr.FB_ILLCNT c)
  let h := t.fbc.get c
  if h.illSeen then t
  else (t.modFbc c fun h => { h with illSeen := true }).raise 36 (fbUnit c) (t.reg (Adr.FB_ILLCNT c)) (wdI h.count)

/-- The state s of two lines (R287). -/
def lineState (a b : Bool) : BitVec 2 :=
  match a, b with
  | false, false => 0
  | true, false => 1
  | true, true => 2
  | false, true => 3

/-- Does an emulation output in MODE 1 copy channel `c` (R306)? -/
def State.copies (s : State) (e : Fin 4) (c : Fin 24) : Bool :=
  s.rf (Adr.EMU_CFG e) 1 0 == 1 && s.rf (Adr.EMU_CFG e) 15 8 == c.val

/-- DEN in MODE 1, at most 65,536 (R306). -/
def State.divider (s : State) (e : Fin 4) : Nat := min 65536 (s.rf (Adr.EMU_DEN e) 30 0)

/-- EMUe_STAT.HOLD (R308): a channel source that is not VALID or has LOST set; a source that does not exist stays held too. -/
def State.emuHold (s : State) (e : Fin 4) : Bool :=
  let src := s.rf (Adr.EMU_CFG e) 15 8
  s.rf (Adr.EMU_CFG e) 1 0 != 0 &&
    (if s.rb (Adr.EMU_CFG e) 4 || s.rf (Adr.EMU_CFG e) 1 0 == 1 then
      (if h : src < 24 then !(s.fbc.get ⟨src, h⟩).valid || (s.fbc.get ⟨src, h⟩).lost else true)
     else decide (200 ≤ src))

/-- An output's lines take a state and a level of Z from a clock on (R306). -/
def State.emuDrive (s : State) (e : Fin 4) (clk : Nat) (lines : BitVec 2) (z : Bool) : State :=
  if (s.emu.get e).lines = lines ∧ (s.emu.get e).z = z then s
  else (s.modEmu e fun m => { m with lines := lines, z := z }).emit (.emuLines e clk lines z)

/-- An output's Z takes a level (R306, R307). -/
def State.emuLevel (s : State) (e : Fin 4) (clk : Nat) (z : Bool) : State := s.emuDrive e clk (s.emu.get e).lines z

/-- An input count reaches an output in MODE 1, three clocks later (R306). An output that is behind its input gives it as backlog at the
ticks (R308). -/
def State.copyCount (s : State) (e : Fin 4) (n : Int) (clk : Nat) : State :=
  let behind := floorDiv (s.emu.get e).base (s.divider e) ≠ (s.emu.get e).count
  let t := s.modEmu e fun m => { m with base := m.base + n }
  let m := t.emu.get e
  let goal := floorDiv m.base (t.divider e)
  if t.emuHold e ∨ m.backlog ≠ 0 ∨ behind ∨ goal = m.count then t
  else
    (t.modEmu e fun m => { m with count := goal, lines := m.lines + BitVec.ofInt 2 (goal - m.count) }).emit
      (.emulation e (goal - m.count) (clk + 3) 0 [])

/-- A change of a channel's Z reaches an output in MODE 1, three clocks later (R306). -/
def State.copyZ (s : State) (e : Fin 4) (z : Bool) (clk : Nat) : State := if s.emuHold e then s else s.emuLevel e (clk + 3) z

/-- FB_STATE_CHANGE (R287, R288, R294, R306). -/
def execFbStateChange (c : Fin 24) (a b : Bool) (clk : Nat) (s : State) : Host.Outcome State Fault Refusal :=
  .next (
    let h := s.fbc.get c
    let n := lineState a b
    let t := s.modFbc c fun h => { h with st := n }
    if ¬ s.sys.powered ∨ s.fbMode c = 1 then s
    else if s.fbMode c = 0 ∨ ¬ h.valid then t
    else
      let step (d : Int) : State :=
        let v := if s.fbInv c then -d else d
        ((t.putCount c (h.count + v)).notePast c clk none).forAll ((allFin 4).filter fun e => s.copies e c) fun u e => u.copyCount e v clk
      match (n - h.st).toNat with
      | 0 => t
      | 1 => step 1
      | 3 => step (-1)
      | _ => t.illegal c)

/-- The low 12 bits of a MODE 1 count for a phase (R289): φ, counted downward where DIR_INV is set. -/
def State.phaseBits (s : State) (c : Fin 24) (phi : Int) : Int := if s.fbInv c then Int.fmod (-phi) 4096 else phi

/-- A count with its low 12 bits replaced. -/
def withLow (v low : Int) : Int := floorDiv v 4096 * 4096 + low

/-- The value nearest to `v` whose low 12 bits are `low`. -/
def nearLow (v low : Int) : Int := v + (Int.fmod (low - v + 2048) 4096 - 2048)

/-- A conversion's corrected pair, both in 1/2,048 code (R289). -/
def State.sinCos (s : State) (c : Fin 24) (codeA codeB : Nat) : Int × Int :=
  let w := s.reg (Adr.FB_ACAL c)
  ((sext 12 codeA - sext 8 (fld w 7 0)) * 2048, (sext 12 codeB - sext 8 (fld w 15 8)) * fld w 27 16)

/-- φ of a corrected pair (R289). -/
def phaseOfPair (p : Int × Int) : Int := Int.fmod (roundDiv (atan2 p.1 p.2 * 2048) pi64) 4096

/-- √(s² + c²) of a corrected pair in codes, to the nearest (R293, R476). -/
def amplitudeOf (p : Int × Int) : Nat := (isqrt (4 * (p.1 * p.1 + p.2 * p.2)).toNat / 2048 + 1) / 2

/-- Does the amplitude of a corrected pair lie within AMP_LO to AMP_HI (R293)? -/
def State.amplitudeOk (s : State) (c : Fin 24) (p : Int × Int) : Bool :=
  let w := s.reg (Adr.FB_AMPCFG c)
  let lo : Int := fld w 11 0 * 2048
  let hi : Int := fld w 27 16 * 2048
  let n := p.1 * p.1 + p.2 * p.2
  decide (lo * lo ≤ n ∧ n ≤ hi * hi)

/-- The count of a conversion that moves away from a soft limit where the count stands (R295): the nearest one on the inner side of the
limit whose low 12 bits are φ. -/
def leaveLimit (lim v low : Int) (high : Bool) : Int :=
  let n := nearLow v low
  if high ∧ lim < n then n - 4096 else if ¬ high ∧ n < lim then n + 4096 else n

/-- A conversion moves the count by `d`, `low` being the low 12 bits that φ gives it (R289, R295). -/
def State.moveCount (s : State) (c : Fin 24) (d low : Int) : State :=
  let h := s.fbc.get c
  if (h.satHi ∨ h.satLo) ∧ d = 0 then s
  else if h.satHi ∧ d < 0 then s.putCount c (leaveLimit (s.slMax c) (h.count + d) low true)
  else if h.satLo ∧ 0 < d then s.putCount c (leaveLimit (s.slMin c) (h.count + d) low false)
  else s.putCount c (h.count + d)

/-! ### Wire checks (R292–R294) -/

/-- D0 of FB_WIRE_FAULT (R309). -/
def wireWord (pair : Fin 3) (amplitude reval : Bool) : Word :=
  wd ((if amplitude then 256 else pair.val) + 512 * b2n reval)

/-- Three failures in a row of a check (R292–R294, R103): a valid channel becomes invalid, and an attempt to become valid ends. -/
def State.wireFail (s : State) (c : Fin 24) (pair : Fin 3) (amplitude : Bool) : State :=
  let h := s.fbc.get c
  if h.valid then
    let t := s.modFbc c fun h => { h with valid := false, lost := true, check := false, reval := false }
    (t.forAll ((t.fbAxes c).filter fun x => (t.ax.get x).fbA.corr == 1) fun u x => u.faultAxis x 35).raise 35 (fbUnit c)
      (wireWord pair amplitude false) (wdI h.count)
  else if h.check then
    (s.modFbc c fun h => { h with lost := true, check := false, reval := false }).raise 35 (fbUnit c)
      (wireWord pair amplitude h.reval) (wdI h.count)
  else s

/-- FB_SINCOS_CONVERSION (R289, R290, R293, R295). The third conversion in a row whose amplitude lies outside the window makes the channel
invalid, and itself counts nothing (DEDUCED from R294, log 205). -/
def execFbSincosConversion (c : Fin 24) (codeA codeB clk : Nat) (s : State) : Host.Outcome State Fault Refusal :=
  .next (
    if ¬ s.sys.powered ∨ s.fbMode c ≠ 1 then s
    else
      let h := s.fbc.get c
      let p := s.sinCos c codeA codeB
      let phi := phaseOfPair p
      let n := if s.amplitudeOk c p then 0 else min 3 (h.ampOut + 1)
      let t := s.modFbc c fun h => { h with phi := phi, amp := satU 12 (amplitudeOf p), ampOut := n }
      if n = 3 ∧ h.ampOut < 3 then t.wireFail c 0 true
      else if ¬ h.valid then t
      else
        let st := Int.fmod (phi - h.phi + 2048) 4096 - 2048
        let low := s.phaseBits c phi
        let u :=
          if st.natAbs ≤ 1024 then t.moveCount c (if s.fbInv c then -st else st) low
          else (t.putCount c (withLow h.count low)).illegal c
        u.notePast c clk (some ((u.fbc.get c).count - h.count)))

/-- FB_WIRE_CHECK_FAIL (R292–R294, R103): a pair has failed its check three times in a row, or the amplitude (R293) did. -/
def execFbWireCheckFail (c : Fin 24) (pair : Fin 3) (amplitude : Bool) (s : State) : Host.Outcome State Fault Refusal :=
  .next (
    let checked := s.fbMode c ≠ 0 ∧ (amplitude = true → s.fbMode c = 1 ∧ (s.fbc.get c).ampOut = 3) ∧
      (amplitude = false → pair = 2 → s.rb (Adr.FB_IDX_CFG c) 0 = true)
    if ¬ s.sys.powered ∨ ¬ checked then s else s.wireFail c pair amplitude)

/-- FB_CHANNEL_VALID (R286, R294): the checks have passed 1,024 times in a row, and in MODE 1 the amplitude passes. -/
def execFbChannelValid (c : Fin 24) (s : State) : Host.Outcome State Fault Refusal :=
  .next (
    let h := s.fbc.get c
    if s.sys.powered ∧ s.fbMode c ≠ 0 ∧ h.check ∧ (s.fbMode c = 1 → h.ampOut = 0) then
      let t := s.modFbc c fun h => { h with valid := true, check := false, reval := false }
      (if s.fbMode c = 1 then t.putCount c (withLow h.count (s.phaseBits c h.phi)) else t).noteNow c
    else s)

/-! ### Software writes (R286, R294, R295, R297) -/

/-- CFG_IGNORED of a channel. -/
def State.fbIgnored (s : State) (c : Fin 24) : State := s.orReg (Adr.FB_STAT c) 2048

/-- A write to FBc_CFG (R286). -/
def State.fbCfgWrite (s : State) (m : Master) (c : Fin 24) (w : Word) : State :=
  let (t, go) := s.gate m (Adr.FB_CFG c) 0xFF
  if ¬ go then t
  else
    let old := t.fbMode c
    let n := fld (t.written m (Adr.FB_CFG c) w) 1 0
    if old ≠ 0 ∧ n ≠ 0 then t.fbIgnored c
    else
      let u := t.storeWord m (Adr.FB_CFG c) w
      if n = old then u
      else u.modFbc c fun h => { h with valid := false, check := decide (n ≠ 0), reval := false, ampOut := 0 }

/-- FB_CFG_WRITE (R286). -/
def execFbCfgWrite (m : Master) (c : Fin 24) (w : Word) (s : State) : Host.Outcome State Fault Refusal := .next (s.fbCfgWrite m c w)

/-- REVAL written 1 (R294). -/
def State.fbReval (s : State) (m : Master) (c : Fin 24) : State :=
  if s.reaches m (Adr.FB_CTL c) 1 ∧ s.fbMode c ≠ 0 ∧ ¬ (s.fbc.get c).valid then
    s.modFbc c fun h => { h with check := true, reval := true, ampOut := 0 }
  else s

/-- FB_REVAL (R294). -/
def execFbReval (m : Master) (c : Fin 24) (s : State) : Host.Outcome State Fault Refusal := .next ((s.noted m (Adr.FB_CTL c)).fbReval m c)

/-- SETCNT written 1 (R297). -/
def State.fbSetcnt (s : State) (m : Master) (c : Fin 24) : State :=
  if ¬ s.reaches m (Adr.FB_CTL c) 2 then s
  else
    let v := s.reg48 (Adr.FB_SET_LO c)
    let h := s.fbc.get c
    let u := s.modFbc c fun h => { h with lost := false, satLo := false, satHi := false }
    (u.putCount c (if s.fbMode c = 1 then withLow v (s.phaseBits c h.phi) else v)).noteNow c

/-- FB_SETCNT (R297). -/
def execFbSetcnt (m : Master) (c : Fin 24) (s : State) : Host.Outcome State Fault Refusal := .next ((s.noted m (Adr.FB_CTL c)).fbSetcnt m c)

/-- SUSPECT written 1 (R297). -/
def State.fbClearSuspect (s : State) (m : Master) (c : Fin 24) : State :=
  if s.reaches m (Adr.FB_STAT c) 16 then s.modFbc c fun h => { h with suspect := false, refd := false } else s

/-- FB_SUSPECT_CLEAR (R297). -/
def execFbSuspectClear (m : Master) (c : Fin 24) (s : State) : Host.Outcome State Fault Refusal := .next (s.fbClearSuspect m c)

/-- The channel of an FBc_ register. -/
def fbOf (a : Nat) : Fin 24 := Fin.ofNat 24 ((a - Adr.FB 0) / 0x400)

/-- Is `a` an index setting (R297)? -/
def isIdxReg (a : Nat) : Bool :=
  decide (Adr.FB 0 ≤ a) && decide (a < Adr.FB 24) && [0x10, 0x14, 0x18, 0x1C, 0x20].contains ((a - Adr.FB 0) % 0x400)

/-- A write to an index setting (R297). -/
def State.fbIndexWrite (s : State) (m : Master) (a : Nat) (w : Word) : State :=
  let (t, go) := s.gate m a 0xFFFFFFFF
  if go then (t.storeWord m a w).modFbc (fbOf a) fun h => { h with refd := false, suspect := false } else t

/-- FB_INDEX_CONFIG_WRITE (R297). -/
def execFbIndexConfigWrite (m : Master) (addr : Nat) (w : Word) (s : State) : Host.Outcome State Fault Refusal :=
  .next (if isIdxReg addr then s.fbIndexWrite m addr w else s)

/-- Is `a` a word of SLMIN or SLMAX (R295)? -/
def isLimitReg (a : Nat) : Bool :=
  decide (Adr.FB 0 ≤ a) && decide (a < Adr.FB 24) && [0x24, 0x28, 0x2C, 0x30].contains ((a - Adr.FB 0) % 0x400)

/-- A count beyond the limits takes the nearer of them and counts as held there; a count that lies at no limit is held at none (R295; log
206). -/
def FbChan.limit (h : FbChan) (lo hi : Int) : FbChan :=
  let n := clampInt lo hi h.count
  { h with count := n, lost := h.lost || n != h.count, satHi := decide (hi < h.count) || (h.satHi && h.count == hi),
           satLo := decide (h.count < lo) || (h.satLo && h.count == lo) }

/-- A write to a soft limit (R295). -/
def State.fbLimitWrite (s : State) (m : Master) (a : Nat) (w : Word) : State :=
  let c := fbOf a
  let (t, go) := s.gate m a 0xFFFFFFFF
  if ¬ go then t
  else
    let u := t.storeWord m a w
    if u.slMax c ≤ u.slMin c then t.fbIgnored c
    else
      let v := u.modFbc c fun h => h.limit (u.slMin c) (u.slMax c)
      if (v.fbc.get c).count = (u.fbc.get c).count then v else v.noteNow c

/-- FB_SOFT_LIMIT_WRITE (R295). -/
def execFbSoftLimitWrite (m : Master) (addr : Nat) (w : Word) (s : State) : Host.Outcome State Fault Refusal :=
  .next (if isLimitReg addr then s.fbLimitWrite m addr w else s)

/-! ### The index (R296, R297) -/

/-- The count of an index (R296). -/
def State.indexCount (s : State) (c : Fin 24) : Int :=
  let g := s.rf (Adr.FB_IDX_CFG c) 6 4
  let v := (s.fbc.get c).count
  if s.fbMode c = 1 ∧ g < 4 then withLow v (g * 1024) else v

/-- C0 of an axis' association moves by `d`, in what descriptors that a fault may still flush found too (R91, R296, R300). -/
def Axis.moveOrigin (a : Axis) (d : Int) : Axis :=
  let by_ (o : Option (Int × Int)) : Option (Int × Int) := o.map fun (p, c0) => (p, c0 + d)
  { a with
    fb := { a.fb with assoc := by_ a.fb.assoc }
    back := a.back.map fun b => { b with assoc := by_ b.assoc }
    found := a.found.map fun b => { b with assoc := by_ b.assoc } }

/-- The first index since a reset or a re-reference (R296). -/
def State.firstIndex (s : State) (c : Fin 24) (v : Int) : State :=
  if s.rb (Adr.FB_IDX_CFG c) 2 then
    let r := s.reg48 (Adr.FB_IDX_REF_LO c)
    let sh := r - v
    let t := s.modFbc c fun h => { h with org := r, lost := false, satLo := false, satHi := false, refd := true }
    (t.putCount c ((s.fbc.get c).count + sh)).forAll (s.fbAxes c) fun u x =>
      u.modAx x fun a => a.moveOrigin sh
  else s.modFbc c fun h => { h with org := v, refd := true }

/-- The expected count of an index: the nearest multiple of the period from ORG, on a tie the lower (R296). -/
def expectedIndex (org v : Int) (period : Nat) : Int :=
  if period = 0 then org else org + -(floorDiv (period - 2 * (v - org)) (2 * period)) * period

/-- TOLe (R296). -/
def indexTol (tol period : Nat) : Nat := if period = 0 then tol else min tol ((period + 1) / 2 - 1)

/-- procedure on_index of R296, of a channel that is referenced and not suspect. -/
def State.checkIndex (s : State) (c : Fin 24) (v : Int) : State :=
  let per := (s.reg (Adr.FB_IDX_PERIOD c)).toNat
  let h := s.fbc.get c
  let e := expectedIndex h.org v per
  let d := v - e
  let t := s.modFbc c fun h => { h with delta := satS 32 d }
  if d = 0 then t.modFbc c fun h => { h with lost := false }
  else if d.natAbs ≤ indexTol (s.rf (Adr.FB_IDX_TOL c) 15 0) per then
    let snap := s.rb (Adr.FB_IDX_CFG c) 1
    let u := if snap then (t.modFbc c fun h => { h with lost := false }).putCount c (h.count - d) else t
    u.raise 37 (fbUnit c) (wdI (satS 32 d)) (wd (b2n snap + 2 * b2n (snap && h.lost)))
  else
    let u := t.modFbc c fun h => { h with suspect := true }
    (u.forAll ((u.fbAxes c).filter fun x => (u.ax.get x).fbA.corr == 1) fun w x => w.faultAxis x 38).raise 38 (fbUnit c)
      (wdI (satS 32 d)) (wdI e)

/-- Do the level of Z and the gate of IDX_GATE qualify an index (R296)? -/
def State.indexQualifies (s : State) (c : Fin 24) : Bool :=
  let h := s.fbc.get c
  let g := s.rf (Adr.FB_IDX_CFG c) 6 4
  h.z != s.rb (Adr.FB_IDX_CFG c) 3 &&
    (decide (4 ≤ g) || (if s.fbMode c = 1 then floorDiv h.phi 1024 == g else h.st.toNat == g))

/-- INDEX_QUALIFIED (R294, R296, R297, R306): the Z pair stands at a level, and a qualification begins where that level is the active
one and the gate holds. The outputs that copy the channel follow the level. -/
def execIndexQualified (c : Fin 24) (z : IndexEdge) (s : State) : Host.Outcome State Fault Refusal :=
  .next (
    if ¬ s.sys.powered then s
    else
      let q := (s.modFbc c fun h => { h with z := z.level }).forAll ((allFin 4).filter fun e => s.copies e c) fun u e => u.copyZ e z.level z.clk
      let h := q.fbc.get c
      if q.fbMode c ≠ 0 ∧ h.valid ∧ q.rb (Adr.FB_IDX_CFG c) 0 ∧ q.indexQualifies c then
        let t := (q.setReg (Adr.FB_IDXCNT c) (q.reg (Adr.FB_IDXCNT c) + 1)).orReg (Adr.FB_STAT c) 512
        let v := t.indexCount c
        if ¬ h.refd then (t.firstIndex c v).notePast c z.clk none
        else if h.suspect then t
        else (t.checkIndex c v).notePast c z.clk none
      else q)

/-! ### Step-loss correction (R299–R302) -/

/-- fb_k of an axis, in 2^-16 microstep (R299). -/
def State.fbPos (s : State) (x : AxisId) : Option Int :=
  let a := s.ax.get x
  if h : a.fbA.chan < 24 then
    a.fb.assoc.map fun (p0, c0) => p0 + floorDiv (((s.fbc.get ⟨a.fbA.chan, h⟩).latch - c0) * a.fbA.num * 65536) a.fbA.den
  else none

/-- Is the correction of an axis suspended (R301)? -/
def State.fbSuspended (s : State) (x : AxisId) : Bool :=
  let a := s.ax.get x
  let okMode := match a.tt.mode with
    | .hold | .position | .velocity | .step | .cam => true
    | .parked | .disabled => false
  if h : a.fbA.chan < 24 then
    let c := s.fbc.get ⟨a.fbA.chan, h⟩
    a.fb.assoc.isNone || !okMode || !c.valid || c.lost || c.suspect || c.satLo || c.satHi
  else true

/-- A reference moved by `d`. -/
def RefPt.add (r : RefPt) (d : Int) : RefPt := { r with p := r.p + d }

/-- Every stored position of an axis moves by `d` in 2^-16 microstep (R302). -/
def TtState.shift (t : TtState) (d : Int) : TtState :=
  { t with uNext := t.uNext.add d, u0 := t.u0.add d, oNext := t.oNext.add d, o0 := t.o0.add d, o1 := t.o1.add d,
           o2 := t.o2.add d, hist := t.hist.map fun r => r.add d, fill := t.fill.add d }

/-- procedure shift of R302, with what follows in each mode. -/
def State.shiftAxis (s : State) (x : AxisId) (n : Int) : State :=
  let micro := n * 1024
  let t := s.modTt x fun t => t.shift (micro * 65536)
  let a := t.ax.get x
  let moved := t.modTt x fun t => { t with target := t.target + micro }
  match a.tt.goal with
  | .rest => if a.tt.mode = .hold then moved else if a.tt.mode = .position then t.decideTarget x a.tt.lim none t.frm.count else t
  | .stop p k => moved.modTt x fun t => { t with goal := .stop (p + micro) k }
  | .target =>
    match a.tt.running with
    | .vel _ _ neg => t.runVelocity x ((a.ownLimits s.hz).signed neg) a.tt.lim true
    | _ => t.decideTarget x a.tt.lim a.tt.reversal t.frm.count
  | .velocity _ => t

/-- procedure fb_check of R301 at a tick. -/
def State.fbCheck (s : State) (x : AxisId) : State :=
  let a := s.ax.get x
  let s1 := match s.fbPos x with
    | some p => s.modFbx x fun f => { f with pos := p }
    | none => s
  if a.fbA.corr = 0 then s1.modFbx x fun f => { f with susp := false, ncnt := 0 }
  else if s.fbSuspended x then s1.modFbx x fun f => { f with susp := true, ncnt := 0 }
  else
    let e := (s.fbPos x).getD 0 - a.tt.o1.p
    let n := a.fb.ncnt + 1
    let s2 := s1.modFbx x fun f => { f with susp := false, err := satS 32 (roundDiv e 256) }
    if e.natAbs ≤ a.fbA.tol * 65536 then s2.modFbx x fun f => { f with ncnt := 0 }
    else if n < a.fbA.nc then s2.modFbx x fun f => { f with ncnt := n }
    else
      let k := signInt e * ((e.natAbs + 2 ^ 25 - 1) / 2 ^ 26 : Nat)
      (((s2.shiftAxis x k).incReg (Adr.AX_FB_CORRCNT x)).orReg (Adr.AX_FB_STAT x) 8).modFbx x fun f =>
        { f with ncnt := 0, lastN := k, lastFr := wd s.frm.count.toNat }

/-- The latches of a tick (R291); those of a channel that is not valid hold, so that a cam that follows it holds too (R294). The
associations that a POS_SET of the frame before makes follow (R300). -/
def State.latchFeedback (s : State) : State :=
  let t := s.forAll (allFin 24) fun u c =>
    if u.fbMode c ≠ 0 ∧ ¬ (u.fbc.get c).valid then u else u.modFbc c fun h => { h with latch := h.count }
  t.forAll (allFin 200) fun u x =>
    let a := u.ax.get x
    match a.fb.assocAt with
    | some v =>
      if a.tt.posSetAt.contains (u.frm.count - 1) then
        let made := if h : a.fbA.chan < 24 then some (v * 65536, (u.fbc.get ⟨a.fbA.chan, h⟩).latch) else a.fb.assoc
        u.modFbx x fun f => { f with assocAt := none, assoc := made }
      else u
    | none => u

end Sys2Proof.Machine
end

