-- ==== Sys2Proof/Machine/Probes.lean ====
section
/-! DEFINITION. Probes (R303–R305) and encoder emulation (R306–R308). -/

namespace Sys2Proof.Machine

/-! ### Probes -/

/-- A point of time in the frame before, where its clock is negative: the frame and the clock in it (R303). -/
def State.probeTime (s : State) (te : Int) : FrameNo × Nat :=
  if te < 0 then (s.frm.count - 1, (te + s.nClk - s.line.trim).toNat) else (s.frm.count, te.toNat)

/-- The shaped position of an axis at a clock of the frame in progress or of the one before (R304), in 2^-16 microstep. -/
def State.axisAtClock (s : State) (x : AxisId) (t : FrameNo × Nat) : Int :=
  let a := (s.ax.get x).tt
  let (p0, p1) := if t.1 = s.frm.count then (a.o1.p, a.o0.p) else (a.o2.p, a.o1.p)
  p0 + roundDiv ((p1 - p0) * t.2) s.nClk

/-- The count of a channel at a point of time (R304): in MODE 2 the count on it, in MODE 1 extrapolated by what the last of the two
conversions at or before it moved the count. -/
def State.countAt (s : State) (c : Fin 24) (t : FrameNo × Nat) : Int :=
  let h := s.fbc.get c
  let old := h.past.filter fun e => decide (0 ≤ s.clocksFrom e.frame e.clk t.1 t.2)
  match old with
  | [] => h.count
  | n :: _ =>
    if s.fbMode c ≠ 1 then n.count
    else
      match old.filter fun e => e.moved.isSome with
      | e :: f :: _ =>
        let d := s.clocksFrom f.frame f.clk e.frame e.clk
        if 0 < d then n.count + roundDiv (e.moved.getD 0 * s.clocksFrom e.frame e.clk t.1 t.2) d.toNat else n.count
      | _ => n.count

/-- The two words of a slot (R304, R312): LO, and HI with SVALID. -/
def State.slotWords (s : State) (src : Nat) (t : FrameNo × Nat) : Word × Word :=
  let ix := src % 256
  if src < 2 ^ 15 then (0, 0)
  else if src / 256 % 2 = 0 then
    let v := s.axisAtClock (Fin.ofNat 200 ix) t
    (wdI (intPart v), wd (2 ^ 31 + (v % 65536).toNat))
  else
    let c : Fin 24 := Fin.ofNat 24 ix
    let v := s.countAt c t
    let h := s.fbc.get c
    (wdI v, wd ((if h.valid && !h.lost then 2 ^ 31 else 0) + (Int.fmod (floorDiv v (2 ^ 32)) 65536).toNat))

/-- The source field `i` of a probe's PRBq_SEL words (R312). -/
def State.probeSource (s : State) (q : Fin 16) (i : Nat) : Nat :=
  let w := s.reg (Adr.PRB_SEL q (i / 2))
  if i % 2 = 0 then fld w 15 0 else fld w 31 16

/-- A snapshot at clock `te`, counted from the tick of the frame in progress (R304, R305, R309). -/
def State.probeShot (s : State) (q : Fin 16) (falling : Bool) (te : Int) : State :=
  let t := s.probeTime te
  let w := s.reg (Adr.PRB_STAT q)
  let seq := (fld w 30 23 + 1) % 256
  let unread := bitOf w 31
  let s1 := s.forAll (List.range 8) fun u i =>
    let (lo, hi) := s.slotWords (s.probeSource q i) t
    (u.setReg (Adr.PRB_RES_LO q i) lo).setReg (Adr.PRB_RES_HI q i) hi
  let s2 := (s1.setReg (Adr.PRB_TS_FRAME q) (wd t.1.toNat)).setReg (Adr.PRB_TS_CLK q) (wd t.2)
  let s3 := s2.setReg (Adr.PRB_STAT q)
    (wd (2 ^ 31 + seq * 2 ^ 23 + 4 * b2n (unread || bitOf w 2) + 2 * b2n falling))
  s3.raise 39 (0x1A0 + q.val) (wd (seq + 256 * b2n falling + 512 * b2n unread)) (wdI te)

/-- PROBE_EDGE (R303, R305): the input's level as it stands at the pad, and the clock on which the filtered level changed. -/
def execProbeEdge (q : Fin 16) (level : Bool) (clk : Nat) (s : State) : Host.Outcome State Fault Refusal :=
  .next (
    let cfg := s.reg (Adr.PRB_CFG q)
    let lv := level != bitOf cfg 6
    let p := s.prb.get q
    if ¬ s.sys.powered ∨ lv = p.level then s
    else
      let n : Probe := { p with level := lv
                                rise := if lv then p.rise <|> some clk else p.rise
                                fall := if lv then p.fall else p.fall <|> some clk }
      let t := { s with prb := s.prb.set q n }
      let te : Int := clk - 8 * fld cfg 23 16 - 2
      let takes : Bool := match fld cfg 3 2 with | 0 => lv | 1 => !lv | _ => true
      match fld cfg 5 4 with
      | 0 => t
      | 1 => if takes ∧ bitOf cfg 0 then (t.probeShot q (!lv) te).clrReg (Adr.PRB_CFG q) 1 else t
      | _ => if takes then t.probeShot q (!lv) te else t)

/-- A write of PRBq_CFG (R303, R305, R312): POL inverts the level that the filter shows, without an edge. -/
def State.prbCfgWrite (s : State) (m : Master) (q : Fin 16) (w : Word) : State :=
  let t := s.plainWrite m (Adr.PRB_CFG q) w
  if t.rb (Adr.PRB_CFG q) 6 = s.rb (Adr.PRB_CFG q) 6 then t
  else { t with prb := t.prb.set q { t.prb.get q with level := !(t.prb.get q).level } }

/-! ### Encoder emulation -/

/-- The source of an output in MODE 2 at a tick (R307): an axis in 2^-16 microstep, a channel in counts. -/
def State.emuSource (s : State) (e : Fin 4) : Int :=
  let src := s.rf (Adr.EMU_CFG e) 15 8
  if s.rb (Adr.EMU_CFG e) 4 then (if h : src < 24 then (s.fbc.get ⟨src, h⟩).latch else 0)
  else if h : src < 200 then (s.ax.get ⟨src, h⟩).tt.o1.p else 0

/-- T of an output (R306, R307). -/
def State.emuTarget (s : State) (e : Fin 4) : Int :=
  let b := (s.emu.get e).base
  if s.rf (Adr.EMU_CFG e) 1 0 = 1 then floorDiv b (s.divider e)
  else
    let den := s.rf (Adr.EMU_DEN e) 30 0
    floorDiv ((s.emuSource e - b) * (s.reg (Adr.EMU_NUM e)).toInt) (if s.rb (Adr.EMU_CFG e) 4 then den else den * 65536)

/-- The level of Z at an output count, which is the wrapping one of EMUe_COUNT (R307, R313). -/
def State.emuZ (s : State) (e : Fin 4) (n : Int) : Bool :=
  let per := (s.reg (Adr.EMU_ZPER e)).toNat
  per != 0 && Int.fmod (wdI n).toInt per == Int.fmod ((s.reg (Adr.EMU_ZREF e)).toNat : Int) per

/-- The level of Z that an output gives where it has emitted its counts (R306, R307). -/
def State.emuZNow (s : State) (e : Fin 4) : Bool :=
  if s.rf (Adr.EMU_CFG e) 1 0 = 1 then
    let src := s.rf (Adr.EMU_CFG e) 15 8
    if h : src < 24 then (s.fbc.get ⟨src, h⟩).z else false
  else s.emuZ e (s.emu.get e).count

/-- EMU_EMISSION at a tick (R307, R308). -/
def State.emuTick (s : State) (e : Fin 4) : State :=
  if s.rf (Adr.EMU_CFG e) 1 0 = 0 ∨ s.emuHold e then s
  else
    let m := s.emu.get e
    let b0 := s.emuTarget e - m.count
    let excess := b0.natAbs - 65535
    let sg := signInt b0
    let s0 := if excess = 0 then s
      else ((s.modEmu e fun m => { m with count := m.count + sg * excess }).addReg (Adr.EMU_DROP e) excess).orReg (Adr.EMU_STAT e) 2
    let s1 := s0.emuLevel e 0 (s0.emuZNow e)
    let b := b0.natAbs - excess
    if b = 0 then s1.modEmu e fun m => { m with backlog := 0 }
    else
      let g := max (s.rf (Adr.EMU_CFG e) 23 16) (s.nClk / b)
      let n := min b (if s.nClk ≤ g / 2 then 0 else (s.nClk - 1 - g / 2) / g + 1)
      let c0 := (s1.emu.get e).count
      let z := if s.rf (Adr.EMU_CFG e) 1 0 = 1 then [] else (List.range n).map fun (i : Nat) => s.emuZ e (c0 + sg * (i + 1))
      (s1.modEmu e fun m =>
        { m with count := c0 + sg * n, backlog := sg * (b - n : Nat), lines := m.lines + BitVec.ofInt 2 (sg * n),
                 z := z.getLast?.getD m.z }).emit (.emulation e (sg * n) (g / 2) g z)

/-- A write to EMUe_CFG (R306, R313: a MODE 3 is stored as 0, which CFG_IGNORED tells). MODE 0 drives state 0 with Z
low, and a MODE that leaves 0 begins with count 0 in that state. -/
def State.emuCfgWrite (s : State) (m : Master) (e : Fin 4) (w : Word) : State :=
  let (t, go) := s.gate m (Adr.EMU_CFG e) 0xFFFFFF
  if ¬ go then t
  else
    let v := t.written m (Adr.EMU_CFG e) w
    let n := fld v 1 0
    let src := fld v 15 8
    let bad := n = 1 ∧ ¬ (if h : src < 24 then t.fbMode ⟨src, h⟩ = 2 ∧ bitOf v 4 = true else False)
    let seen (u : State) : State := u.orReg (Adr.EMU_STAT e) 4
    let told (u : State) : State := if fld w 1 0 = 3 then seen u else u
    if t.rf (Adr.EMU_CFG e) 1 0 ≠ 0 ∧ n ≠ 0 then seen t
    else if bad then
      let u := seen (t.storeWord m (Adr.EMU_CFG e) (w &&& ~~~3#32))
      (u.modEmu e fun m => { m with backlog := 0 }).emuDrive e 0 0 false
    else
      let u := told (t.storeWord m (Adr.EMU_CFG e) w)
      if n = 0 then (u.modEmu e fun m => { m with backlog := 0 }).emuDrive e 0 0 false
      else
        let v := u.modEmu e fun _ => { Emu.reset with base := if n = 1 then 0 else u.emuSource e }
        if v.emuHold e then v else v.emuLevel e 0 (v.emuZNow e)

/-- EMU_CFG_WRITE (R306). -/
def execEmuCfgWrite (m : Master) (e : Fin 4) (w : Word) (s : State) : Host.Outcome State Fault Refusal := .next (s.emuCfgWrite m e w)

end Sys2Proof.Machine
end

