-- ==== Sys2Proof/Machine/Duty.lean ====
section
/-! DEFINITION. The coil drive's arithmetic and the legs: the electrical angle and the microstep table (R171, R172), samples
(R194, R261), the duty equation (R174–R181) and leg on-times (R211, R213). -/

namespace Sys2Proof.Machine

/-! ### The microstep table (R171, R172) -/

/-- Q(x) for `x` in 2^-16, 0–256, in 1/256 of 1/65,535 (R172). -/
def CardHalf.qAt (c : CardHalf) (x : Nat) : Int :=
  let i := x / 65536
  let q0 : Int := c.q i
  if 256 ≤ i then q0 * 256 else roundDiv (q0 * 65536 + (x % 65536 : Nat) * ((c.q (i + 1) : Int) - q0)) 256

/-- S(θ) for θ in 2^-16 microstep of angle, in 1/256 of 1/65,535 (R171, R172). -/
def CardHalf.sAt (c : CardHalf) (th : Int) : Int :=
  let t := (th % (1024 * 65536)).toNat
  let m := t % (256 * 65536)
  match t / (256 * 65536) with
  | 0 => c.qAt m
  | 1 => c.qAt (256 * 65536 - m)
  | 2 => -c.qAt m
  | _ => -c.qAt (256 * 65536 - m)

/-- 65,535 × 256, the value of S that stands for 1. -/
def sOne : Nat := 65535 * 256

/-- A microstep of angle in 2^-16. -/
def micro (n : Int) : Int := n * 65536

/-! ### Samples (R194, R261) -/

/-- OFS of a calibration word, signed (R206). -/
def calOfs (w : Word) : Int := sext 12 (fld w 11 0)
/-- GAIN of a calibration word (R206). -/
def calGain (w : Word) : Nat := fld w 31 16

/-- The calibration register of channel `c` of a carrier unit (R206, R264). -/
def calAdr (u : CarrierId) (c : Nat) : Nat := if u.val < 24 then Adr.BAY_CAL u c else Adr.HVY_CAL (c / 2) (c % 2)

/-- The gain G of a heavy axis' amplifiers (R261). -/
def State.hvGain (s : State) (h : Nat) : Nat :=
  match s.rf (Adr.HVY_SENSE h) 19 18 with
  | 0 => 5
  | 1 => 10
  | 2 => 20
  | _ => 40

/-- G × RSH of a heavy axis (R261). -/
def State.hvScale (s : State) (h : Nat) : Nat := max 1 (s.hvGain h * s.rf (Adr.HVY_SENSE h) 16 0)

/-- One current step of a channel, in 1/64 mA as a fraction: numerator and denominator (R194, R261). -/
def State.stepOf (s : State) (u : CarrierId) (c : Nat) : Nat × Nat :=
  if u.val < 24 then (48, 1) else (64000000, s.hvScale (c / 2))

/-- A current code in 1/64 mA (R194, R261). -/
def State.current (s : State) (u : CarrierId) (c code : Nat) : Int :=
  let w := s.reg (calAdr u c)
  let (n, d) := s.stepOf u c
  roundDiv (((code : Int) - 2048 - calOfs w) * n * calGain w) (32768 * d)

/-- A number of current steps in 1/64 mA. -/
def State.steps (s : State) (u : CarrierId) (c n : Nat) : Int :=
  let (a, d) := s.stepOf u c
  roundDiv (n * a : Nat) d

/-- A VM code in mV (R194, R261). -/
def vmOf (u : CarrierId) (code : Nat) : Nat := if u.val < 24 then code * 16 else code * 32

/-- The VM of a unit's last peak sample, mV. -/
def State.peakVm (s : State) (u : CarrierId) : Nat := vmOf u (s.cu.get u).vmP

/-- A temperature code in 1/16 °C (R194). -/
def tempOf (code : Nat) : Int := (code : Int) - 1024

/-- The channel of a coil of an axis in its unit: 2 j for coil A, 2 j + 1 for coil B (R193). -/
def chanOf (x : AxisId) (b : Bool) : Nat := 2 * (slotOf x).val + b2n b

/-! ### The duty equation (R174–R181) -/

/-- Does the peak of a unit fall in the frame after its valley's, so that it feeds a load of the same frame (R21)? -/
def State.lateUnit (s : State) (u : CarrierId) : Bool := decide (4 ≤ (s.cu.get u).ofs.toNat)

/-- What the coil window knows of an axis: the stage of the frame m that the duty is for, the amplitudes of frames m − 1 and m, and
the electrical positions at its ends, in 2^-16 microstep (R174). -/
structure Drive where
  stage : Stage
  a0 : Int
  a1 : Int
  q0 : Int
  q1 : Int
  deriving DecidableEq, Repr

/-- The reference angle stands at θR in the measuring steps (R182, R187). -/
def Stage.fixed (g : Stage) : Bool := g.phase == .identR || (g.phase == .energising && !g.final)

/-- What the coil window of an axis' unit works on (R21, R174). R187 leaves open the angle and the amplitude at the start of the first frame
of a measuring step: the angle is θR at both ends of each of its frames, and the amplitude at the start is that of the frame before (DESIGN
CHOICE, log entry 241). -/
def State.driveOf (s : State) (x : AxisId) : Drive :=
  let a := s.ax.get x
  let t := a.tt
  let c := a.cd
  let k := s.frm.count
  let late := s.lateUnit (unitOf x)
  let g := if late then s.stageAt x k false else s.stageAt x (k + 1) true
  let a0 := if late then c.amp1 else c.amp0
  let a1 := if late then s.stageAmp x g k false else s.stageAmp x g (k + 1) true
  let q0 := if late then t.o1.p + c.ang1 else t.o0.p + c.ang0
  let q1 := if late then t.o0.p + c.ang0 else t.oNext.p + c.angNext
  match c.seq with
  | some q => if g.fixed then ⟨g, a0, a1, q.theta, q.theta⟩ else ⟨g, a0, a1, q0, q1⟩
  | none => ⟨g, a0, a1, q0, q1⟩

/-- ω in full steps/s with 16 fractional bits (R174, R180). -/
def omegaOf (f : Nat) (dp : Int) : Int := roundDiv (dp * f) 256

/-- θm, unwrapped (R174). -/
def midOf (q0 dp : Int) : Int := q0 + roundDiv dp 2

/-- The dead time that R177, R188 and R212 use, in clocks: the one in force in the bay, or on a heavy axis. -/
def State.deadClocks (s : State) (x : AxisId) : Nat :=
  if heavy x then (s.hv.get (slotOf x)).dt else (s.cu.get (unitOf x)).dt

/-- δ of R176 in 2^-16 microstep of angle: R269 while the estimator is ARMED under FF_MODE 1, else FF_DELTA. -/
def State.deltaOf (s : State) (x : AxisId) (omega : Int) : Int :=
  let c := s.cardOf x
  let g := (s.ax.get x).sg
  if c.ffMode = 1 ∧ g.state = .armed then
    signInt omega * clampInt 0 (micro 255) (roundDiv (g.filtA * 1024 * 65536) (3600 * 256))
  else micro c.ffDelta

/-- The dead-time term in µV for a current in 1/64 mA (R177); `vm` in mV. -/
def dtcOf (c : CardHalf) (dt f vm : Nat) (im : Int) : Int :=
  if c.dtcBand = 0 then roundDiv ((dt * f * vm : Nat) * signInt im) 100000
  else roundDiv ((dt * f * vm : Nat) * clampInt (-(64 * c.dtcBand : Nat)) (64 * c.dtcBand : Nat) im) (100000 * 64 * c.dtcBand)

/-- 2π × FC_I × g × e / (d × 64), for e in 1/64 mA (R178). -/
def corrTerm (fc g : Nat) (e : Int) (d : Nat) : Int := roundDiv ((2 * pi64 * fc * g : Nat) * e) (one64 * d * 64)

/-- Is a number of µV inside its signed 32-bit form (R180)? -/
def inForm (v : Int) : Bool := decide (-2147483648 ≤ v) && decide (v ≤ 2147483647)

/-- The result of the duty equation for one coil. -/
structure DutyOut where
  d : Int
  v : Int
  dtc : Int
  eff : Int
  im : Int
  integ : Int
  clamped : Bool
  /-- 1: a term left its form, so that the voltage is the free value. -/
  free : Bool
  deriving DecidableEq, Repr

/-- The duty equation (R174–R180, R323) for a coil at angle `sg`; `vm` in mV, `free` the value taken where a term leaves the 32-bit
form of R180, about which the spec says nothing. -/
def coilDuty (card : CardHalf) (c : Coil) (g : Drive) (sg delta : Int) (f vm dt : Nat) (ramping regen : Bool) (free : Int) :
    DutyOut :=
  let vmx := max vm 8000
  let dp := g.q1 - g.q0
  let om := omegaOf f dp
  let is := roundDiv (g.a0 * card.sAt (g.q0 + sg)) sOne
  let ie := roundDiv (g.a1 * card.sAt (g.q1 + sg)) sOne
  let im := roundDiv (is + ie) 2
  let r := roundDiv (c.rhat * im) 64
  let l := roundDiv (c.lhat * (ie - is) * f) 64000
  let eff := roundDiv (card.ke * om * card.sAt (midOf g.q0 dp + sg + micro 256 - delta)) (65536 * sOne)
  let dtc := dtcOf card dt f vmx im
  let e := if c.badP then 0 else c.iexp - c.ipk
  let stop := c.badP || (c.clampNext && decide (0 < e * c.dNext)) || ramping
  let xmax : Int := 1000 * card.xmax
  let integ := if card.fcI = 0 ∨ stop then c.integ
    else clampInt (-xmax) xmax (c.integ + corrTerm card.fcI c.rhat e f)
  let corr := if card.fcI = 0 then 0 else integ + corrTerm card.fcI c.lhat e 1000
  let sum := r + l + eff + dtc + corr
  let ok := inForm r && inForm l && inForm eff && inForm dtc && inForm corr
  let v := if ok then sum else free
  let d0 := roundDiv (v * 32768) (vmx * 1000)
  let d1 := clampInt (-32767) 32767 d0
  let blocked := regen && decide (d1 * im < 0)
  ⟨if blocked then 0 else d1, v, dtc, eff, im, integ, d0 != d1 || blocked, !ok⟩

/-- Is regeneration blocked for a unit (R323–R325)? -/
def State.regenBlocked (s : State) (u : CarrierId) : Bool := (s.cu.get u).regen

/-! ### Leg on-times (R211) -/

/-- The minimum pulse (R211, R213). -/
def shorten (h n : Nat) : Nat :=
  let a := if 0 < h ∧ h < 10 then 0 else if 10 ≤ h ∧ h < 20 then 20 else h
  if 0 < n - a ∧ n - a < 10 then n else if 10 ≤ n - a ∧ n - a < 20 then n - 20 else a

/-- The on-times of a coil's + and − leg (R211). -/
def legOnTimes (d : Int) (n : Nat) : Nat × Nat :=
  let dl := roundDiv (d * n) 32768
  let hp : Int := if (dl.natAbs : Int) ≤ (n : Int) - 202 then -(floorDiv (-(n + dl)) 2) else if 0 < dl then n else n + dl
  let hm : Int := if (dl.natAbs : Int) ≤ (n : Int) - 202 then hp - dl else if 0 < dl then n - dl else n
  (shorten hp.toNat n, shorten hm.toNat n)

/-- The on-times of an axis from its two duties. -/
def onsOf (da db : Int) (n : Nat) : Ons :=
  let (ap, am) := legOnTimes da n
  let (bp, bm) := legOnTimes db n
  ⟨ap, am, bp, bm⟩

/-- One of the four on-times: A+, A−, B+, B−. -/
def Ons.get (o : Ons) (i : Nat) : Nat :=
  match i with
  | 0 => o.ap
  | 1 => o.am
  | 2 => o.bp
  | _ => o.bm

end Sys2Proof.Machine
end

