-- ==== Sys2Proof/Machine/Legs.lean ====
section
/-! DEFINITION. The legs: the command that a leg resolves to (R208–R210, R225), where its pulses lie (R188, R214, R215, R236, R252), what
cycle-by-cycle trips take out of them (R220), the switches behind the commands with dead time and gate profiles (R212, R213,
R244–R247). Clocks count from the unit's own valley. -/

namespace Sys2Proof.Machine

/-! ### Probing (R236) -/

/-- W of R236: the length of a probe's halves, clocks. -/
def State.probeW (s : State) (x : AxisId) : Nat :=
  let c := s.cardNow x
  if c.usable then clampNat 20 1000 (roundDiv (4800 * c.ind : Nat) (max 8000 (s.peakVm (unitOf x)))).toNat else 200

/-- INT of an axis' bay (R240). -/
def State.probeInt (s : State) (x : AxisId) : Nat := s.rf (Adr.BAY_PROBE_CFG (unitOf x)) 15 0

/-- Does an axis probe in its unit's frame in progress (R236, R439)? -/
def State.probes (s : State) (x : AxisId) : Bool :=
  let n := s.probeInt x
  !heavy x && (s.ax.get x).isParked && !s.direct x && (s.ax.get x).act.cap != 0 && n != 0 &&
    (s.cu.get (unitOf x)).own.toNat % n == (slotOf x).val * n / 8

/-- Is coil B under probe, A and B taking turns? -/
def State.probesB (s : State) (x : AxisId) : Bool := (s.cu.get (unitOf x)).own.toNat / s.probeInt x % 2 == 1

/-! ### The command of a leg (R208–R210, R225) -/

/-- The command a leg takes for a frame: off, low, a pulse of some clocks, high, or its part of a probe (R236). -/
inductive Leg
  | off | low
  | pwm (h : Nat)
  | high
  | probe
  deriving DecidableEq, Repr

/-- The two bits of leg `i` in a byte of codes. -/
def codeOf (b : BitVec 8) (i : Nat) : Nat := b.toNat / 4 ^ i % 4

/-- Bit 4 j + i of a unit's leg word. -/
def legBit (w : BitVec 32) (j i : Nat) : Bool := w.getLsbD (4 * j + i)

/-- The SAFE bit of a unit: BRAKE (R228, R260). -/
def State.brakes (s : State) (u : CarrierId) : Bool :=
  if u.val < 24 then s.rb (Adr.BAY_BR_CFG u) 16 else s.rb Adr.HVY_GRP_CFG 16

/-- Is gate drive removed by STO: an input is low, or its release has not come (R230, R231)? -/
def State.stoOff (s : State) : Bool := s.sys.stoActive || !s.sys.stoA || !s.sys.stoB

/-- Does a gate supply that fell keep the gates of a heavy axis off: every one that no axis drives since (R255)? -/
def State.supplyFell (s : State) (x : AxisId) : Bool :=
  heavy x && s.cmp.vghFell != 0 && ((s.ax.get x).cd.phase == .off || (s.ax.get x).br.faultOff)

/-- Has an axis no gate drive: STO, or its gate rail locked or fallen (R230, R245, R255, R327)? -/
def State.noDrive (s : State) (x : AxisId) : Bool := s.stoOff || s.railLocked x || s.supplyFell x

/-- The command of leg `i` of axis `x`, by the rank of R210; the hold of a trip takes its part out of the pulses. -/
def State.legOf (s : State) (x : AxisId) (i : Nat) : Leg :=
  let b := (s.ax.get x).br
  let u := s.cu.get (unitOf x)
  if s.noDrive x ∨ legBit u.latch (slotOf x).val i then .off
  else if u.safe then (if s.brakes (unitOf x) then .low else .off)
  else if b.faultOff then .off
  else if (s.ax.get x).cd.phase = .off ∧ ¬ s.direct x ∧ ¬ b.tail then
    (if s.probes x ∧ (decide (2 ≤ i) = s.probesB x) then .probe else .off)
  else
    match codeOf b.mask i with
    | 1 => .off
    | 2 => .low
    | 3 => .high
    | _ =>
      match codeOf b.code i with
      | 1 => .low
      | 2 => .pwm (b.on.get i)
      | _ => .off

/-- The two legs of a coil. -/
def coilLegs (b : Bool) : List Nat := if b then [2, 3] else [0, 1]

/-- Is a coil guarded in the frame in force (R214)? -/
def State.guarded (s : State) (x : AxisId) (b : Bool) : Bool :=
  let c := (s.ax.get x).cd
  !s.direct x && decide ((if b then c.cb else c.ca).d0.natAbs < 32375)

/-! ### Where a leg is told HIGH (R188, R214, R215, R220, R236, R252) -/

/-- The clocks of a frame of `n` in which a pulse of `h` clocks is told HIGH (R188, R214, R215), each stretch by its first clock and the
clock after its last. `guard`: the coil is guarded; `wasHigh`: the leg ended the frame before HIGH; `ident`: the pattern of IDENT_L, for
the leg of index `i`. -/
def pulseOf (n h : Nat) (guard wasHigh ident : Bool) (i : Nat) : List (Nat × Nat) :=
  let p := n / 2
  if ident then (if i % 2 = 0 then [(60, p - 60)] else [(p + 60, n - 60)])
  else if n ≤ h then [(if guard && !wasHigh then 11 else 0, n)]
  else
    let (r, f) := if guard ∧ h ≤ 100 then (p + 11, p + 11 + h) else (p - (h + 1) / 2, p + h / 2)
    if guard ∧ wasHigh then (0, 11) :: (if h = 0 ∨ f ≤ r + 11 then [] else [(r + 11, f)])
    else if h = 0 then [] else [(r, f)]

/-- The stretches without what lies in `[a, b)`. -/
def cutOut (a b : Nat) (l : List (Nat × Nat)) : List (Nat × Nat) :=
  l.flatMap fun e => [(e.1, min e.2 a), (max e.1 b, e.2)].filter fun d => decide (d.1 < d.2)

/-- The clocks of the unit's frame in progress, as the line's frame lock trims it at the valley (R348). -/
def State.frameLen (s : State) (u : CarrierId) : Nat := ((s.nClk : Int) - (s.cu.get u).trim).toNat

/-- Stretches of a frame of `n` clocks in one of `len`: a stretch that reaches the valley goes on through the clocks that lengthen it, and
none reaches into clocks that are left out (R348). -/
def trimmed (n len : Nat) (l : List (Nat × Nat)) : List (Nat × Nat) :=
  (l.map fun e => (e.1, if e.2 = n then len else min e.2 len)).filter fun e => decide (e.1 < e.2)

/-- Legs 2 c and 2 c + 1 of each coil `c` that a cut stands for (R193, R220). -/
def heldBy (cuts : List (Option Nat)) : BitVec 32 :=
  (List.range 16).foldl (fun w c => if (cuts.getD c none).isSome then w ||| BitVec.ofNat 32 (3 * 4 ^ c) else w) 0

/-- What the trips of a coil take out of the stretches of its legs (R220), in a frame that ends at clock `len`. -/
def CUnit.cut (u : CUnit) (n len c : Nat) (l : List (Nat × Nat)) : List (Nat × Nat) :=
  let l1 := match u.cutV.getD c none with
    | some t => cutOut t (n / 2) l
    | none => l
  match u.cutP.getD c none with
  | some t => cutOut t len l1
  | none => l1

/-- The stretches of leg `i` of axis `x` before trips: none where it is never HIGH. A bootstrap refresh holds the leg out of HIGH up to its
rise (R252), whose dead time then passes. The pattern of IDENT_L comes and goes with the set that loads (R188, R216). -/
def State.placed (s : State) (x : AxisId) (i : Nat) : List (Nat × Nat) :=
  let n := s.nClk
  let p := n / 2
  let b := (s.ax.get x).br
  let own := match s.legOf x i with
    | .off => []
    | .low => []
    | .high => [(0, n)]
    | .pwm h => pulseOf n h (s.guarded x (2 ≤ i)) (b.hiEnd.getLsbD i) b.ident i
    | .probe => (let w := s.probeW x
                 if i % 2 = 0 then [(p - 60 - w, p - 60)] else [(p + 60, p + 60 + w)])
  let v := s.hv.get (slotOf x)
  if heavy x ∧ v.fresh.getLsbD i then cutOut 0 (v.freshDt.getD i 0 + 60) own else own

/-- The stretches of the unit's frame in progress in which leg `i` is told HIGH. -/
def State.highs (s : State) (x : AxisId) (i : Nat) : List (Nat × Nat) :=
  let u := unitOf x
  (s.cu.get u).cut s.nClk (s.frameLen u) (chanOf x (2 ≤ i)) (trimmed s.nClk (s.frameLen u) (s.placed x i))

/-- Is a clock in one of the stretches? -/
def inStretch (l : List (Nat × Nat)) (t : Nat) : Bool := l.any fun e => decide (e.1 ≤ t) && decide (t < e.2)

/-- Is leg `i` told HIGH at clock `t` from the valley? -/
def State.legHigh (s : State) (x : AxisId) (i t : Nat) : Bool := inStretch (s.highs x i) t

/-- The clock from which a leg is off, where it is not so for the whole frame (R236). -/
def State.endOf (s : State) (x : AxisId) (i : Nat) : Nat :=
  match s.legOf x i with
  | .probe => s.nClk / 2 + 60 + s.probeW x
  | _ => s.frameLen (unitOf x)

/-- What leg `i` is told in the frame in progress: its changes, from the valley on, or from the clock of its unit's BRAKE on (R228). -/
def State.changes (s : State) (x : AxisId) (i : Nat) : List (Int × LegLevel) :=
  let from_ : Int := ((s.cu.get (unitOf x)).brakeAt.getD 0 : Nat)
  if s.legOf x i = .off then [(from_, .off)]
  else
    let n := s.frameLen (unitOf x)
    let l := s.highs x i
    let first : List (Int × LegLevel) := if inStretch l 0 then [] else [(from_, .low)]
    let moves : List (Int × LegLevel) := l.flatMap fun e => ((e.1 : Int), .high) :: (if e.2 < n then [((e.2 : Int), .low)] else [])
    let e := s.endOf x i
    first ++ moves ++ (if e < n then [((e : Int), .off)] else [])

/-- Has leg `i` an edge, a change of its command, in the clocks `lo`–`hi` of the frame in force, after its first clock (R196, R214)? -/
def State.edgeIn (s : State) (x : AxisId) (i lo hi : Nat) : Bool :=
  (s.changes x i).any fun e => decide (0 < e.1) && decide ((lo : Int) ≤ e.1) && decide (e.1 ≤ hi)

/-- The changes of the frame in progress as the next valley sees them. -/
def State.changesBefore (s : State) (x : AxisId) : List (List (Int × LegLevel)) :=
  (List.range 4).map fun i =>
    (((s.ax.get x).br.before.getD i []).filter (fun e => decide (0 ≤ e.1)) ++ s.changes x i).map fun e =>
      (e.1 - s.frameLen (unitOf x), e.2)

/-- Keep where the legs of an axis are told HIGH, before the first of the detections of one clock acts on them (R259). -/
def State.keepHighs (s : State) (same : Bool) (x : AxisId) : State :=
  s.modCu (unitOf x) fun u =>
    let old := if same then u.highs0 else []
    if old.any fun e => e.1 == x then u else { u with highs0 := old ++ [(x, (List.range 4).map (s.highs x))] }

/-- Was leg `i` told HIGH at clock `t` before the detections of this clock (R259)? -/
def State.wasHigh (s : State) (x : AxisId) (i t : Nat) : Bool :=
  ((s.cu.get (unitOf x)).highs0.find? fun e => e.1 == x).any fun e => inStretch (e.2.getD i []) t

/-! ### The switches (R209, R212, R213) -/

/-- When the switches of a leg turn on (R209, R212): at a change between HIGH and LOW a dead time after it, unless the command changes
before; from OFF, once the other switch has been off for the dead time. `last` is the level before and, of each switch, the clock at which
its command ended; `dt` is the dead time of the change at a clock to a level. -/
def turnOns (dt : Int → LegLevel → Nat) :
    LegLevel → Int → Int → List (Int × LegLevel) → List (LegLevel × Int)
  | _, _, _, [] => []
  | was, lowEnd, highEnd, (c, l) :: rest =>
    if l = was then turnOns dt was lowEnd highEnd rest
    else
      let lowEnd' := if was = .low then c else lowEnd
      let highEnd' := if was = .high then c else highEnd
      let on : Int := match l with
        | .high => max c (lowEnd' + dt c l)
        | .low => max c (highEnd' + dt c l)
        | .off => c
      let stays : Bool := match rest.find? (fun e => e.2 != l) with
        | some e => decide (on < e.1)
        | none => true
      (if l != .off && stays then [(l, on)] else []) ++ turnOns dt l lowEnd' highEnd' rest

/-- The clocks for which the high side conducts in a frame of `n` with an on-time of `h`, at a dead time of `td` (R213). -/
def highSideOn (n h td : Nat) : Nat := if h = 0 then 0 else if n ≤ h then n else h - td

/-- The clocks for which the low side conducts (R213). -/
def lowSideOn (n h td : Nat) : Nat := if h = 0 then n else if n ≤ h then 0 else n - h - td

/-- The clocks for which the switch node is high (R212, R213): `out` where the current flows out of the leg, so that it holds the node low
in the dead times. -/
def nodeHigh (n h td : Nat) (out : Bool) : Nat :=
  if h = 0 then 0 else if n ≤ h then n else if out then h - td else min (h + td) n

/-! ### Dead times of heavy edges (R246, R247) -/

/-- The heavy axis h of a leg, and the leg's index. -/
def heavyLeg (l : Fin 32) : HeavyId × Nat := (⟨l.val / 4, by omega⟩, l.val % 4)

/-- The class of an edge (R246). -/
inductive EdgeClass
  | natural | forced | uncertain
  deriving DecidableEq, Repr

/-- The class of an edge of leg `i` by the expected current of the frame, in 1/64 mA. -/
def edgeClass (iexp : Int) (band i : Nat) (fall : Bool) : EdgeClass :=
  if iexp.natAbs < 64 * band then .uncertain
  else
    let outOf := if i % 2 = 0 then decide (0 < iexp) else decide (iexp < 0)
    if outOf == fall then .natural else .forced

/-- The dead time of an edge before the interlock, in clocks, and its fallback: 0 late or absent, 1 early (R247, R248). -/
def State.edgeTime (s : State) (h : HeavyId) (c : EdgeClass) (node : Option Nat) : Nat × Option Nat :=
  let w := s.reg (Adr.HVY_DT_CFG h)
  let fix := fld w 17 12
  let hi := fld w 11 6
  let lo := fld w 5 0
  if ¬ bitOf w 28 then (fix, none)
  else
    match c with
    | .natural =>
      match node with
      | none => (fix, some 0)
      | some n =>
        let a := n + fld w 23 20
        if a < lo then (fix, some 1) else if hi < a then (fix, some 0) else (a, none)
    | .forced => (lo, none)
    | .uncertain => (fix, none)

/-- The applied dead time of an edge of the frame in progress (R247, R249). -/
def State.edgeNow (s : State) (e : HeavyEdge) : HeavyEdge × Nat :=
  let (h, i) := heavyLeg e.leg
  let c := (s.ax.get (hvAxis h)).cd
  let k := if i < 2 then c.ca else c.cb
  let iexp := if (s.cu.get 24).afterPeak then k.iexp1 else k.iexp
  (e, max (s.edgeTime h (edgeClass iexp (s.rf (Adr.HVY_DT_BAND h) 15 0) i e.fall) e.node).1 e.gate)

/-- The clocks at which a leg's command goes from LOW to HIGH, or from HIGH to LOW (R214). -/
def edgesTo (l : LegLevel) : LegLevel → List (Int × LegLevel) → List Int
  | _, [] => []
  | was, (c, m) :: rest => (if m = l ∧ was ≠ m ∧ was ≠ .off then [c] else []) ++ edgesTo l m rest

/-- The changes of leg `i` in the frame before and in the one in progress. -/
def State.told (s : State) (x : AxisId) (i : Nat) : List (Int × LegLevel) := (s.ax.get x).br.before.getD i [] ++ s.changes x i

/-- The dead time of the change of leg `i` of axis `x` at clock `c` to a level (R212, R242, R247): on a heavy axis that of the edge itself,
max(t, g), as the edges of the frame in progress, of a refresh, or of the frame before tell it; one that none of them tells takes the
one in force. -/
def State.deadAt (s : State) (x : AxisId) (edges : List (HeavyEdge × Nat)) (i : Nat) (c : Int) (l : LegLevel) : Nat :=
  let v := s.hv.get (slotOf x)
  if ¬ heavy x then s.deadClocks x
  else if v.fresh.getLsbD i ∧ 0 ≤ c ∧ c ≤ (v.freshDt.getD i 0 + 60 : Nat) then v.freshDt.getD i 0
  else
    let mine (es : List (HeavyEdge × Nat)) : List (HeavyEdge × Nat) :=
      es.filter fun e => e.1.leg.val == 4 * (slotOf x).val + i && e.1.fall == (l == .low)
    let all := edgesTo l .off (s.told x i)
    let e := if 0 ≤ c then (mine edges)[(all.filter fun d => decide (0 ≤ d) && decide (d < c)).length]?
      else (mine v.edges).reverse[(all.filter fun d => decide (c < d) && decide (d < 0)).length]?
    match e with
    | some e => e.2
    | none => s.deadClocks x

/-- The turn-ons of the switches of leg `i`, in the frame in progress and in the one before (R209, R212, R247). -/
def State.turnOnsOf (s : State) (x : AxisId) (i : Nat) (edges : List (HeavyEdge × Nat)) : List (LegLevel × Int) :=
  turnOns (s.deadAt x edges i) .off (-1000000) (-1000000) (s.told x i)

/-! ### Gate profiles (R244, R245) -/

/-- The strength code that a profile word gives `t` clocks after the switch was told: pre-charge, slope, hold; a phase of length 0 is
skipped. -/
def gateCode (w : Word) (t : Nat) : Nat :=
  if t < fld w 9 4 then fld w 3 0 else if t < fld w 9 4 + fld w 21 16 then fld w 15 12 else fld w 27 24

/-- The gate current of a strength code, in µA: sourced at a turn-on, sunk at a turn-off (R244). -/
def gateMicroamps (on : Bool) (code : Nat) : Nat := (code + 1) * (if on then 93750 else 156250)

/-- The clock at which a switch's command ended, at or after clock `from_`. -/
def endOfOn (mine : LegLevel) (from_ : Int) (l : List (Int × LegLevel)) : Option Int :=
  (l.find? fun e => decide (from_ ≤ e.1) && e.2 != mine).map (·.1)

/-- What the driver of a heavy gate does at clock `t` of the frame in progress (R244, R245), whose edges came with the dead times `edges`:
whether it sources, and its code; none where it has no supply, so that the pull-down holds the gate off. A turn-on begins at the end of
the edge's own dead time (R247); the turn-off profile starts on the clock at which the command ends, also where that cuts a turn-on
short; a switch whose command stands is in phase 3. A leg that was turned off by a protection, or by a gate supply that fell, sinks at
code 15 (R250, R254, R255, R257, R258); in BRAKE the low side holds at code 15 (R260). -/
def State.gateDrive (s : State) (h : HeavyId) (i : Nat) (low : Bool) (t : Nat) (edges : List (HeavyEdge × Nat)) : Option (Bool × Nat) :=
  let x := hvAxis h
  let v := s.hv.get h
  let u := s.cu.get 24
  let mine : LegLevel := if low then .low else .high
  let on := ((s.turnOnsOf x i edges).filter fun e => e.1 == mine && decide (e.2 ≤ (t : Int))).getLast?.map (·.2)
  let off := on.bind fun c => (endOfOn mine c (s.told x i)).filter fun e => decide (e ≤ (t : Int))
  let fell := s.cmp.vghFell.getLsbD (h.val / 4)
  if s.stoOff ∨ (s.railLocked x ∧ ¬ fell) then none
  else if legBit u.latch h.val i ∨ s.railLocked x ∨ s.supplyFell x then some (false, 15)
  else if u.safe ∧ s.brakes 24 then some (low && on.isSome && off.isNone, 15)
  else if (s.ax.get x).br.faultOff then some (false, 15)
  else
    match on, off with
    | some c, none => some (true, gateCode v.gpOn ((t : Int) - c).toNat)
    | some _, some c => some (false, gateCode v.gpOff ((t : Int) - c).toNat)
    | none, _ => some (false, fld v.gpOff 27 24)

end Sys2Proof.Machine
end

