-- ==== Sys2Proof/Machine/Coil.lean ====
section
/-! DEFINITION. The commands of the coil drive (R182–R192, R203, R226, R234): ENERGIZE and IDENTIFY with the steps of their
sequences, power-down, standstill tracking, and MASK_SET. An end of a step acts in the frame after the step's last one. -/

namespace Sys2Proof.Machine

/-! ### Sequences -/

/-- Has the step of a sequence run its length (R182)? -/
def State.stepOver (s : State) (x : AxisId) (q : SeqSt) : Bool :=
  !q.boot && decide (s.seqLen x (s.ax.get x).cd.phase ≤ framesFrom q.start s.frm.count)

/-- The sums of IDENT start anew (R187). -/
def Coil.zeroSums (c : Coil) : Coil := { c with sumV := 0, sumI := 0, sumL := 0, cntL := 0 }

/-- Apply `f` to both coils. -/
def CdState.both (c : CdState) (f : Coil → Coil) : CdState := { c with ca := f c.ca, cb := f c.cb }

/-- A sequence goes on with another step, which began at the end of the one before. -/
def State.nextStep (s : State) (x : AxisId) (q : SeqSt) (ph : Phase) : State :=
  let start := q.start + BitVec.ofNat 64 (s.seqLen x (s.ax.get x).cd.phase)
  s.modCd x fun c => { c with phase := ph, phaseNext := none, phaseAt := start, seq := some { q with start := start } }

/-- Step 4 (R182, R190): the integrators are 0 and the amplitude ramps to RUN at the angle of the reference, with the GR of the frame in
which the ramp begins (R173). -/
def State.finalRamp (s : State) (x : AxisId) (q : SeqSt) : State :=
  (s.nextStep x { q with final := true, gr := (s.factors x false).gr } .energising).modCd x CdState.zeroInt

/-- An association between position and feedback is made where none is in force (R300). -/
def State.associate (s : State) (x : AxisId) : State :=
  let a := s.ax.get x
  if a.fb.assoc.isSome ∨ 24 ≤ a.fbA.chan then s
  else s.modFbx x fun f => { f with assoc := some (a.tt.o1.p, (s.fbc.get (Fin.ofNat 24 a.fbA.chan)).latch) }

/-- Complete a descriptor of the coil drive OK. -/
def State.coilDone (s : State) (n : Nat) (d0 d1 : Word) (fr : FrameNo) : State :=
  match s.desc? n with
  | some d => s.finishOk d d0 d1 fr
  | none => s

/-- Does IDENT run in an ENERGIZE (R182)? -/
def identRuns (a : Axis) (operand : Nat) : Bool :=
  match operand with
  | 0 => a.coilA.idMode == 0 || a.coilA.idMode == 1
  | 1 => true
  | _ => !a.cd.idValid

/-- PD_EN is written in both sets (R182), and its clearing ends a power-down (R184). -/
def State.writePdEn (s : State) (x : AxisId) (v : Nat) : State :=
  let ph := (s.ax.get x).cd.phase
  let s1 := s.modAx x fun a => { a with coilA := { a.coilA with pdEn := v }, coilS := { a.coilS with pdEn := v } }
  if v = 0 ∧ (ph = .pdWait ∨ ph = .pdRamp ∨ ph = .holdLow) then s1.runPhase x else s1

/-- The sequence that an ENERGIZE or IDENTIFY begins in the next frame. -/
def State.beginSeq (s : State) (x : AxisId) (ph : Phase) (q : SeqSt) : State :=
  s.modCd x fun c => { c.both Coil.zeroSums with phaseNext := some ph, seq := some q }

/-- The electrical position at the end of the next frame. -/
def Axis.elecAhead (a : Axis) : Int := a.tt.oNext.p + a.cd.angNext

/-- ENERGIZE takes effect (R182, R183, R254). -/
def State.energizeEffect (s : State) (d : Desc) : State :=
  match d.axis? with
  | none => s
  | some x =>
    let b := d.bytes
    let a := s.ax.get x
    let j := s.frm.count + 1
    let ident := identRuns a (u8 b 17)
    let q : SeqSt :=
      { desc := d.acc, ident := ident, rOnly := false, identify := false, fromHold := false, final := !ident, start := j,
        gr := (s.factors x true).gr, boot := heavy x,
        theta := identAngle a.elecAhead }
    if a.tt.modeAhead = .hold then
      if u8 b 17 = 1 then
        (s.writePdEn x (u8 b 16)).beginSeq x .identR
          { q with fromHold := true, final := false, boot := false, theta := a.elecAhead }
      else (s.writePdEn x (u8 b 16)).laterOk d 0 0
    else
      let s1 := (s.writePdEn x (u8 b 16)).beginSeq x .energising q
      let s2 := if ident then s1 else s1.modCd x CdState.zeroInt
      if heavy x then s2.modHv (slotOf x) fun h => { h with rel := 0 } else s2

/-- ENERGIZE (R182, R183, R479). -/
def execEnergize (d : Nat) (s : State) : Host.Outcome State Fault Refusal :=
  .next (s.withEffect d (· == 7) State.energizeEffect)

/-- IDENTIFY takes effect (R144, R190). -/
def State.identifyEffect (s : State) (d : Desc) : State :=
  match d.axis? with
  | none => s
  | some x =>
    let a := s.ax.get x
    let j := s.frm.count + 1
    if u8 d.bytes 16 = 2 then
      let s1 := s.moveTo x (s.relBase x + s32 d.bytes 20) (a.act.limits s.hz) true (.ident d.acc)
      s1.modTt x fun t => { t with ring := some ⟨d.acc, none, 0, 0, 0, []⟩ }
    else
      s.beginSeq x .identR
        { desc := d.acc, ident := true, rOnly := u8 d.bytes 16 == 1, identify := true, fromHold := true, final := false, start := j,
          gr := 0, boot := false, theta := identAngle a.elecAhead }

/-- IDENTIFY (R144, R190). -/
def execIdentify (d : Nat) (s : State) : Host.Outcome State Fault Refusal :=
  .next (s.withEffect d (· == 0xE) State.identifyEffect)

/-- ENERGISING_RAMP_END (R182, R187): the first ramp ends and IDENT_R begins. -/
def execEnergisingRampEnd (x : AxisId) (s : State) : Host.Outcome State Fault Refusal :=
  .next (
    let c := (s.ax.get x).cd
    match c.seq with
    | some q =>
      if c.phase = .energising ∧ ¬ q.final ∧ s.stepOver x q then
        (s.nextStep x q .identR).modCd x fun c => c.both Coil.zeroSums
      else s
    | none => s)

/-! ### Results of IDENT (R187–R192, R234) -/

/-- R_meas of a coil's sums in mΩ (R187, R480): none where no frame was kept, and beyond every bound where no current flowed. -/
def Coil.rFormed (c : Coil) : Option Int :=
  if c.sumI = 0 then (if c.sumV = 0 then none else some 65535)
  else some (roundDiv (c.sumV * 128 * signInt c.sumI) c.sumI.natAbs)

/-- A resistance as its 16-bit report. -/
def rWord (r : Int) : Nat := (clampInt 0 65535 r).toNat

/-- Form R_meas of a coil; a quotient 0 / 0 is a free value, for the spec states none. -/
def State.formR (s : State) (c : Coil) : State × Int :=
  match c.rFormed with
  | some r => (s, r)
  | none => let (w, t) := s.drawFree; (t, (w.toNat % 65536 : Nat))

/-- The result registers take a result (R189, R205). -/
def State.writeId (s : State) (x : AxisId) (kind : Nat) (outside : Bool) (ra rb la lb : Nat) : State :=
  let n := (fld (s.reg (Adr.AX_ID_STAT x)) 30 23 + 1) % 256
  ((s.setReg (Adr.AX_ID_STAT x) (wd (2 ^ 31 + n * 2 ^ 23 + 4 * b2n outside + kind))).setReg (Adr.AX_ID_R x)
    (wd (ra + 65536 * rb))).setReg (Adr.AX_ID_L x) (wd (la + 65536 * lb))

/-- The KIND of a sequence's result (R205). -/
def SeqSt.kind (q : SeqSt) : Nat := if q.identify then (if q.rOnly then 2 else 1) else 0

/-- Latch some legs of an axis off (R222, R233, R234). -/
def State.latchLegs (s : State) (x : AxisId) (legs : List Nat) : State :=
  s.modCu (unitOf x) fun u =>
    { u with latch := legs.foldl (fun w i => w ||| BitVec.ofNat 32 (2 ^ (4 * (slotOf x).val + i))) u.latch }

/-- The coils of two resistances for which `p` holds, A first. -/
def coilsWhere (ra rb : Int) (p : Int → Bool) : List (Bool × Int) :=
  (if p ra then [(false, ra)] else []) ++ (if p rb then [(true, rb)] else [])

/-- SHORT_DETECTED, source 3, for each short coil; its legs are latched, and the axis takes the bridge fault action (R234). -/
def State.shortSettle (s : State) (x : AxisId) (l : List (Bool × Int)) : State :=
  let s1 := s.forAll l fun t (b, _) => t.latchLegs x (coilLegs b)
  (s1.bridgeFaulted x 20).forAll l fun t (b, r) => t.raise 20 x.val (wd (2 * b2n b + 3 * 65536)) (wdI r)

/-- MOTOR_DETACHED on an energised axis: it is a fault (R103), and the estimator disarms (R275). -/
def State.detached (s : State) (x : AxisId) (source frames : Nat) : State :=
  ((s.modSg x SgState.disarm).bridgeFaulted x 22).raise 22 x.val (wd (256 * source)) (wd frames)

/-- ENERGIZE ends without success: its record, the legs off, the axis parked (R189, R234). -/
def State.energizeFails (s : State) (x : AxisId) (q : SeqSt) (d1 : Word) : State :=
  let s1 := match s.desc? q.desc with
    | some d => s.finish d 5 17 d1 s.frm.count
    | none => s
  let s2 := s1.modCd x fun c => { c with idValid := false }
  if q.fromHold then s2.bridgeFault x else s2.parkNow x

/-- The result of IDENT_R lies outside 50 mΩ–60 Ω (R234); none where it does not. -/
def State.openShort (s : State) (x : AxisId) (q : Option SeqSt) (ra rb : Int) : Option State :=
  let short := coilsWhere ra rb fun r => decide (r < 50)
  let opens := coilsWhere ra rb fun r => decide (60000 < r)
  if short ≠ [] then some (s.shortSettle x short)
  else
    match opens with
    | [] => none
    | (b, r) :: _ =>
      match q with
      | some q =>
        if q.identify then some (s.detached x 2 0)
        else
          let bits := opens.foldl (fun n (c, _) => n + (if c then 2 else 1)) 0
          some ((s.raise 19 x.val (wd (bits + 512)) (wd (rWord r))).energizeFails x q (wd (0xFFFF + 65536 * b2n b)))
      | none => some (s.detached x 2 0)

/-- Is a resistance within band (R189)? -/
def CardHalf.rInBand (c : CardHalf) (r : Int) : Bool :=
  decide ((c.res25 : Int) * (100 - c.rtol) * (1000000 - 25 * c.tcr) ≤ r * 100000000) &&
    decide (r * 100000000 ≤ (c.res25 : Int) * (100 + c.rtol) * (1000000 + ((c.twMax : Int) - 25) * c.tcr))

/-- Is an inductance within band (R189)? One that was not formed is not compared. -/
def CardHalf.lInBand (c : CardHalf) : Option Nat → Bool
  | some l => decide (100 * ((l : Int) - c.ind).natAbs ≤ c.ind * c.ltol)
  | none => true

/-- The first value outside its band as D1 of R189: A's and B's resistance, then A's and B's inductance. -/
def CardHalf.outside (c : CardHalf) (ra rb : Nat) (la lb : Option Nat) : Option Nat :=
  if ¬ c.rInBand ra then some ra
  else if ¬ c.rInBand rb then some (rb + 65536)
  else if ¬ c.lInBand la then some (la.getD 0 + 131072)
  else if ¬ c.lInBand lb then some (lb.getD 0 + 196608)
  else none

/-- The result of IDENT is judged (R189): R̂ and L̂ take one within band; one outside ends an ENERGIZE. `rOnly`: L̂ is left alone. -/
def State.judge (s : State) (x : AxisId) (q : SeqSt) : State :=
  let card := s.cardOf x
  let c := (s.ax.get x).cd
  let ra := c.ca.rMeas.getD 0
  let rb := c.cb.rMeas.getD 0
  match card.outside ra rb c.ca.lMeas c.cb.lMeas with
  | none =>
    let one (k : Coil) (l : Option Nat) : Coil :=
      { k with rhat := k.rMeas.getD 0, lhat := if q.rOnly then k.lhat else l.getD card.ind }
    let formed := c.ca.lMeas.isSome && c.cb.lMeas.isSome
    let s1 := s.modCd x fun c =>
      { c with ca := one c.ca c.ca.lMeas, cb := one c.cb c.cb.lMeas, rsrc := if q.identify then 2 else 1,
               lsrc := if q.rOnly then c.lsrc else b2n formed, idValid := true }
    ((s1.rhatChanged x).writeId x q.kind false ra rb (c.ca.lMeas.getD 0) (c.cb.lMeas.getD 0)).finalRamp x q
  | some d1 =>
    let s1 := (s.modCd x fun c => { c with idValid := false }).writeId x q.kind true ra rb (c.ca.lMeas.getD 0) (c.cb.lMeas.getD 0)
    if q.identify then s1.finalRamp x q else s1.energizeFails x q (wd d1)

/-- IDENT_R_END (R187, R234). -/
def execIdentREnd (x : AxisId) (s : State) : Host.Outcome State Fault Refusal :=
  .next (
    let c := (s.ax.get x).cd
    match c.seq with
    | some q =>
      if c.phase = .identR ∧ s.stepOver x q then
        let (s1, ra) := s.formR c.ca
        let (s2, rb) := s1.formR c.cb
        let s3 := s2.modCd x fun c =>
          { c with ca := { c.ca with rMeas := some (rWord ra), lMeas := none }, cb := { c.cb with rMeas := some (rWord rb), lMeas := none } }
        let s4 := s3.writeId x q.kind true (rWord ra) (rWord rb) 0 0
        match (s4.modCd x fun c => { c with idValid := false }).openShort x (some q) ra rb with
        | some t => t
        | none => if q.rOnly then s3.judge x q else s3.nextStep x q .identL
      else s
    | none => s)

/-- IDENT_L_END (R188, R189). -/
def execIdentLEnd (x : AxisId) (s : State) : Host.Outcome State Fault Refusal :=
  .next (
    let c := (s.ax.get x).cd
    match c.seq with
    | some q =>
      if c.phase = .identL ∧ s.stepOver x q then
        let l (k : Coil) : Coil :=
          { k with lMeas := if k.cntL < 32 then none else some (clampInt 0 65535 (roundDiv k.sumL (k.cntL * 65536))).toNat }
        (s.modCd x fun c => c.both l).judge x q
      else s
    | none => s)

/-- ENERGIZE_COMPLETE (R182, R107, R300). -/
def execEnergizeComplete (x : AxisId) (s : State) : Host.Outcome State Fault Refusal :=
  .next (
    let c := (s.ax.get x).cd
    match c.seq with
    | some q =>
      if c.phase = .energising ∧ q.final ∧ ¬ q.identify ∧ s.stepOver x q then
        ((s.enterHold x).associate x).coilDone q.desc 0 0 s.frm.count
      else s
    | none => s)

/-- IDENTIFY_COMPLETE (R190, R73): kinds 0 and 1 complete in the frame in which step 4 ends. -/
def execIdentifyComplete (x : AxisId) (s : State) : Host.Outcome State Fault Refusal :=
  .next (
    let c := (s.ax.get x).cd
    match c.seq with
    | some q =>
      if c.phase = .energising ∧ q.final ∧ q.identify ∧ s.stepOver x q then
        let d0 := wd (c.ca.rMeas.getD 0 + 65536 * c.cb.rMeas.getD 0)
        let d1 := if q.rOnly then 0 else wd (c.ca.lMeas.getD 0 + 65536 * c.cb.lMeas.getD 0)
        (s.enterHold x).coilDone q.desc d0 d1 s.frm.count
      else s
    | none => s)

/-! ### Power-down (R184) and standstill tracking (R191) -/

/-- POWER_DOWN_DELAY_END (R184). -/
def execPowerDownDelayEnd (x : AxisId) (s : State) : Host.Outcome State Fault Refusal :=
  .next (
    let c := (s.ax.get x).cd
    let n := s.msFrames (s.cardOf x).pddelay
    if c.phase = .pdWait ∧ n ≤ s.since c.phaseAt then
      s.modCd x fun c => { c with phase := if (s.cardOf x).pdramp = 0 then .holdLow else .pdRamp, phaseAt := c.phaseAt + BitVec.ofNat 64 n }
    else s)

/-- POWER_DOWN_RAMP_END (R184). -/
def execPowerDownRampEnd (x : AxisId) (s : State) : Host.Outcome State Fault Refusal :=
  .next (
    let c := (s.ax.get x).cd
    let n := s.msFrames (s.cardOf x).pdramp
    if c.phase = .pdRamp ∧ n ≤ s.since c.phaseAt then
      s.modCd x fun c => { c with phase := .holdLow, phaseAt := c.phaseAt + BitVec.ofNat 64 n }
    else s)

/-- The resistances of a standstill window (R191): a coil below I / 4 takes the ratio of the other's R_meas to that coil's R̂, by which
its own R̂ is scaled (DESIGN CHOICE, log 203). -/
def State.stillR (s : State) (c : CdState) : State × Int × Int :=
  let ratio (k o : Coil) (r : Int) : Int := roundDiv (k.rhat * r) (max 1 o.rhat)
  if c.smallA then
    let (s1, rb) := s.formR c.cb
    (s1, ratio c.ca c.cb rb, rb)
  else if c.smallB then
    let (s1, ra) := s.formR c.ca
    (s1, ra, ratio c.cb c.ca ra)
  else
    let (s1, ra) := s.formR c.ca
    let (s2, rb) := s1.formR c.cb
    (s2, ra, rb)

/-- STANDSTILL_WINDOW_END (R191, R234): the window's 256 frames are complete. -/
def execStandstillWindowEnd (x : AxisId) (s : State) : Host.Outcome State Fault Refusal :=
  .next (
    let c := (s.ax.get x).cd
    if c.still < 256 then s
    else
      let (s0, ra, rb) := s.stillR c
      let s1 := s0.modCd x fun c => { c.both Coil.zeroSums with still := 0, stillAt := s.frm.count }
      let inBand := (s.cardOf x).rInBand ra && (s.cardOf x).rInBand rb
      let s2 := s1.writeId x 3 (!inBand) (rWord ra) (rWord rb) 0 0
      match s2.openShort x none ra rb with
      | some t => t
      | none =>
        if inBand then
          (s2.modCd x fun c =>
            { c with ca := { c.ca with rhat := rWord ra }, cb := { c.cb with rhat := rWord rb }, rsrc := 3, idValid := true }).rhatChanged x
        else s2.orReg (Adr.AX_CD_STAT x) (2 ^ 19))

/-! ### The output mask (R225, R226) -/

/-- MASK_SET takes effect: the mask waits for its commutation event. One that a waiting mask replaces ends as SUPERSEDED by its
REPLACE (R90, R96). -/
def State.maskEffect (s : State) (d : Desc) : State :=
  match d.axis? with
  | none => s
  | some x =>
    s.modBr x fun b =>
      { b with wait := some ⟨d.acc, d.bytes.getD 16 0, if u8 d.bytes 17 = 1 then some (u8 d.bytes 18) else none, none, true⟩ }

/-- MASK_SET (R225, R226). -/
def execMaskSet (d : Nat) (s : State) : Host.Outcome State Fault Refusal :=
  .next (s.withEffect d (· == 0xD) State.maskEffect)

end Sys2Proof.Machine
end

