-- ==== Sys2Proof/Machine/Stall.lean ====
section
/-! DEFINITION. The stall estimator (R266–R279): the back-EMF and the ripple method, the filters and counts, arming, and the
reactions. It runs at a unit's valley, before the shadow sets transfer, and judges the frame that ends there. -/

namespace Sys2Proof.Machine

/-! ### What an evaluation uses (R266, R267) -/

/-- The inputs of one coil: voltages in µV, currents in 1/64 mA. -/
structure SgCoil where
  d : Int
  dtc : Int
  eff : Int
  hp : Int
  hm : Int
  ipk : Int
  iv : Int
  iv1 : Int
  rhat : Nat
  lhat : Nat
  /-- Four current steps in 1/64 mA (R270). -/
  four : Int
  deriving DecidableEq, Repr

/-- The inputs of an axis for the frame that ends. -/
structure SgIn where
  a : SgCoil
  b : SgCoil
  /-- ω with 16 fractional bits, θm in 2^-16, the frame rate, the clocks of a frame, VMp in mV. -/
  om : Int
  th : Int
  f : Nat
  n : Nat
  vm : Nat
  deriving DecidableEq, Repr

/-- The inputs of one coil of axis `x`. -/
def State.sgCoil (s : State) (x : AxisId) (b : Bool) : SgCoil :=
  let a := s.ax.get x
  let c := if b then a.cd.cb else a.cd.ca
  { d := c.d0, dtc := c.dtc0, eff := c.eff0, hp := a.br.on.get (if b then 2 else 0), hm := a.br.on.get (if b then 3 else 1),
    ipk := c.ipk, iv := c.iv, iv1 := c.iv1, rhat := c.rhat, lhat := c.lhat, four := s.steps (unitOf x) (chanOf x b) 4 }

/-- The inputs of axis `x`. -/
def State.sgIn (s : State) (x : AxisId) : SgIn :=
  let c := (s.ax.get x).cd
  { a := s.sgCoil x false, b := s.sgCoil x true, om := omegaOf s.hz c.dp0, th := c.th0, f := s.hz, n := s.nClk,
    vm := s.peakVm (unitOf x) }

/-- κ in force, 0.1 % (R271). -/
def State.kappaOf (s : State) (x : AxisId) : Nat := ((s.ax.get x).sg.kappa).getD (s.cardOf x).sgKsal

/-- The method of |ω| (R267). -/
def State.sgMethod (s : State) (x : AxisId) (om : Int) : SgMethod :=
  let c := s.cardOf x
  let g := (s.ax.get x).sg
  let w := om.natAbs
  if c.sgVemf * 65536 ≤ w ∨ (g.lastEmf ∧ 9 * c.sgVemf * 65536 ≤ 10 * w) then .emf
  else if c.sgVrip * 65536 ≤ w ∧ 5 ≤ s.kappaOf x then .ripple
  else .none

/-- Is a frame barred from evaluation whatever |ω| is (R267)? A fault of the frame in progress does not bar it (R279). -/
def State.sgBarred (s : State) (x : AxisId) (m : SgMethod) : Bool :=
  let a := s.ax.get x
  let c := a.cd
  let ph := c.phase1
  let bad (k : Coil) : Bool := (m == .emf && k.badV) || (m != .none && (k.badV1 || k.badP))
  ph == .off || ph == .energising || ph == .identR || ph == .identL || bad c.ca || bad c.cb ||
    decide (a.br.unmaskedFor < 16) || a.tt.faulted.any fun f => f.frame != s.frm.count

/-! ### The back-EMF method (R268) -/

/-- e of a coil in µV. -/
def SgCoil.emf (c : SgCoil) (i : SgIn) : Int :=
  roundDiv (c.d * i.vm * 1000) 32768 - c.dtc - roundDiv (c.rhat * c.ipk) 64 - roundDiv (c.lhat * (c.iv - c.iv1) * i.f) 64000

/-- An angle in radians, 2^-64, as 2^-16 microstep of angle. -/
def angleOf (r : Int) : Int := roundDiv (r * (1024 * 65536)) (2 * pi64)

/-- Wrap an angle in 2^-16 into [−512, +512). -/
def wrapAngle (t : Int) : Int := (t + micro 512) % micro 1024 - micro 512

/-- 2^-16 microstep of angle as 0.1° electrical (R268). -/
def tenths (t : Int) : Int := roundDiv (t * 3600) (1024 * 65536)

/-- δraw in 2^-16 microstep and Ê in mV by the back-EMF method. -/
def SgIn.emf (i : SgIn) : Int × Nat :=
  let ea := i.a.emf i
  let eb := i.b.emf i
  let te := angleOf (atan2 ea eb)
  let tr := te - micro (if 0 < i.om then 256 else 768)
  (signInt i.om * wrapAngle (i.th - tr), (roundDiv (isqrt (ea.natAbs * ea.natAbs + eb.natAbs * eb.natAbs)) 1000).toNat)

/-- Eexp in mV. -/
def eexpOf (ke : Nat) (om : Int) : Nat := (roundDiv (ke * om.natAbs : Nat) (1000 * 65536)).toNat

/-! ### The ripple method (R270, R271) -/

/-- s of a coil in 2^-32, where its ripple reaches four current steps. -/
def SgCoil.sal (c : SgCoil) (i : SgIn) : Option Int :=
  let r := c.ipk - c.iv1
  if (r.natAbs : Int) < c.four ∨ r = 0 ∨ c.lhat = 0 then none
  else
    let u := roundDiv (c.rhat * roundDiv (c.iv1 + c.ipk) 2) 64 + c.eff + c.dtc
    let num := ((c.hp - c.hm) * i.vm * 1000 - u * i.n) * 5 * 64 * 2 ^ 32
    some (roundDiv (num * signInt r) (2 * 1000000 * r.natAbs * c.lhat) - 2 ^ 32)

/-- s_A + s_B in 2^-32. -/
def SgIn.sal (i : SgIn) : Option Int :=
  match i.a.sal i, i.b.sal i with
  | some x, some y => some (x + y)
  | _, _ => none

/-- δraw in 2^-16 microstep by the ripple method, at κ in 0.1 %. -/
def SgIn.ripple (i : SgIn) (kappa : Nat) : Option Int :=
  i.sal.map fun t =>
    let c := clampInt (-(2 ^ 32)) (2 ^ 32) (roundDiv (-t * 1000) kappa)
    signInt i.om * angleOf (atan2 (isqrt (2 ^ 64 - c.natAbs * c.natAbs)) c)

/-- A contribution to κ in 2^-16 of 0.1 %, where |δraw| ≤ 60° (R271); `t` is s_A + s_B in 2^-32. -/
def kappaPart (t delta : Int) : Option Int :=
  if 600 < (tenths delta).natAbs then none
  else
    let rad := roundDiv ((delta.natAbs * (2 * pi64) : Nat) : Int) (1024 * 65536)
    let cosd := sinSmall ((pi64 / 2 : Nat) - rad)
    some (roundDiv (-t * 1000 * 65536 * one64) (2 ^ 32 * cosd.natAbs))

/-! ### Filters and counts (R272–R276) -/

/-- A filter, 8 fractional bits (R272). -/
def filtStep (loaded : Bool) (x raw : Int) (shift : Nat) : Int :=
  if loaded then roundDiv (x * (2 ^ shift - 1) + raw * 256) (2 ^ shift) else raw * 256

/-- A frame below SG_VRIP resets the filters and the counts of R273 (R272), so that WARN's condition ends (R274). -/
def SgState.quiet (g : SgState) : SgState :=
  { g with method := .none, loadedA := false, loadedE := false, filtA := 0, filtE := 0, acnt := 0, ccnt := 0,
           warn := false }

/-- δ_f in 0.1°, and Ê_f in mV, without their fractions. -/
def SgState.angle (g : SgState) : Int := roundDiv g.filtA 256

/-- ρ in 1/256 (R268): the ratio has no stated value where both are 0. -/
def rhoOf (filtE : Int) (eexp free : Nat) : Nat :=
  if eexp = 0 then (if filtE = 0 then free % 256 else 255) else min 255 (roundDiv filtE eexp).toNat

/-- Arming (R271, R275): TRAVEL, the contribution to κ, and STALL_ARMED in the frame that completes it. -/
def State.armStep (s : State) (x : AxisId) (i : SgIn) (delta : Int) : State :=
  let a := s.ax.get x
  if a.sg.state ≠ .unarmed ∨ ¬ a.cd.idValid ∨ ¬ a.energised then s
  else
    let part := i.sal.bind fun t => kappaPart t delta
    let s1 := s.modSg x fun g =>
      { g with travel := g.travel + a.cd.dp0.natAbs, emfFrames := g.emfFrames + 1, kSum := g.kSum + part.getD 0,
               kCnt := g.kCnt + b2n part.isSome }
    let g := (s1.ax.get x).sg
    if g.travel < micro 2048 then s1
    else
      let kappa := if 64 ≤ g.kCnt then some (roundDiv g.kSum (g.kCnt * 65536)).toNat else none
      let s2 := s1.modSg x fun g => { g with state := .armed, kappa := kappa, acnt := 0, ccnt := 0 }
      s2.raise 33 x.val (wd (s2.kappaOf x % 65536 + 65536 * b2n kappa.isNone)) (wd g.emfFrames)

/-! ### Reactions (R277, R279) -/

/-- The reaction of an axis: 0 REPORT_ONLY, 1 STOP_HOLD, 2 PARK (R277). -/
def State.reaction (s : State) (x : AxisId) : Nat :=
  let r := (s.ax.get x).sgA.rsel
  if r = 0 then (s.cardOf x).sgReact else r - 1

/-- s_r: the first whole microstep at or beyond out[k].p in the direction of travel (R277). -/
def State.stallPoint (s : State) (x : AxisId) (om : Int) : Int :=
  let p := (s.ax.get x).tt.o0.p
  if om < 0 then floorDiv p 65536 else -(floorDiv (-p) 65536)

/-- Has another fault acted on the axis in the frame in progress (R279)? -/
def State.faultedNow (s : State) (x : AxisId) : Bool := (s.ax.get x).tt.faulted.any fun f => f.frame == s.frm.count

/-- STALL is declared with its cause, in an EMF or a RIPPLE frame (R273, R277, R279, R283). After another fault of the frame, whose own
action stands, the reaction is STOP_HOLD at least. -/
def State.stall (s : State) (x : AxisId) (om : Int) (cause : Nat) (ripple : Bool) : State :=
  let r := if s.faultedNow x then max 1 (s.reaction x) else s.reaction x
  let sr := s.stallPoint x om
  let d0 := if r = 0 then s.posOf x else sr
  let da := (BitVec.ofInt 16 (s.ax.get x).sg.angle).toNat
  let s1 := (s.raise 32 x.val (wdI d0) (wd (da + 65536 * cause + 131072 * b2n ripple + 1048576 * r))).modSg x fun g =>
    { g with acnt := 0, ccnt := 0, hush := r == 0, report := if r = 0 then some (s.frm.count, sr) else none }
  let s2 := (s1.orReg (Adr.AX_SG_STAT x) 256).incReg (Adr.AX_SG_STALLCNT x)
  if r = 0 then s2
  else
    let s3 := s2.faultAt x 32 sr
    if ¬ (s3.ax.get x).energised then s3
    else if r = 1 then
      s3.modAx x fun a => a.stopHold sr
    else s3.bridgeFaultAt x (micro sr)

/-! ### One evaluation -/

/-- The counts and declarations of an evaluated frame (R273, R274, R276); `emf`: it used the back-EMF method. -/
def State.sgJudge (s : State) (x : AxisId) (i : SgIn) (emf : Bool) : State :=
  let c := s.cardOf x
  let a := s.ax.get x
  let g := a.sg
  let past := decide ((c.sgAngle * 256 : Nat) < g.filtA)
  let low := emf && decide (c.sgEmin ≤ g.eexp)
  let good := !past && (!emf || decide (c.sgCollapse ≤ g.rho))
  let hush := g.hush && !good
  let rdy := g.warnRdy || decide (g.filtA ≤ ((c.sgWarn : Int) - 50) * 256)
  match g.state with
  | .off => s
  | .unarmed =>
    let absent := decide (64 ≤ a.cd.ca.openCnt) || decide (64 ≤ a.cd.cb.openCnt)
    let n := if low ∧ c.sgDetach ≠ 0 ∧ g.rho < c.sgDetach ∧ ¬ absent then g.dcnt + 1 else 0
    let s1 := s.modSg x fun g => { g with dcnt := n, acnt := 0, ccnt := 0, hush := hush, warnRdy := rdy }
    if c.sgDetach ≠ 0 ∧ c.sgNd ≤ n then s1.detached x 3 c.sgNd else s1
  | .armed =>
    let collapse := low && c.sgCollapse != 0 && decide (g.rho < c.sgCollapse)
    let na := if past then min 255 (g.acnt + 1) else 0
    let nc := if collapse then min 255 (g.ccnt + 1) else 0
    let s1 := s.modSg x fun g => { g with acnt := na, ccnt := nc, dcnt := 0, hush := hush, warnRdy := rdy && !g.warn }
    let byAngle := decide ((if emf then c.sgN else c.sgNr) ≤ na)
    let s2 :=
      if hush then s1
      else if byAngle then s1.stall x i.om 0 (!emf)
      else if c.sgNc ≤ nc then s1.stall x i.om 1 (!emf)
      else s1
    if g.warn ∧ rdy then s2.raise 34 x.val (wdI g.angle) (wd c.sgWarn) else s2

/-- The filters take the raw values of an evaluated frame (R268, R272): δ in 2^-16 microstep, Ê and Eexp in EMF frames. WARN shows whether
δ_f is above SG_WARN (R274). -/
def State.sgTake (s : State) (x : AxisId) (delta : Int) (e : Option (Nat × Nat)) : State :=
  let c := s.cardOf x
  let raw := tenths delta
  let d := filtStep (s.ax.get x).sg.loadedA (s.ax.get x).sg.filtA raw c.sgFilt
  let s1 := s.modSg x fun g =>
    { g with method := if e.isSome then .emf else .ripple, lastEmf := e.isSome, rawA := raw, loadedA := true,
             filtA := d, warn := c.sgWarn != 0 && decide ((c.sgWarn * 256 : Nat) < d) }
  match e with
  | none => s1
  | some (eh, ee) =>
    let f := filtStep (s1.ax.get x).sg.loadedE (s1.ax.get x).sg.filtE eh c.sgFilt
    let (w, s2) := if ee = 0 ∧ f = 0 then s1.drawFree else (0, s1)
    s2.modSg x fun g => { g with rawE := eh, loadedE := true, filtE := f, eexp := ee, rho := rhoOf f ee w.toNat }

/-- What a frame adds to the rotor's deviation in 2^-16 of 0.1° electrical, from the back-EMF along the reference axis (R280). -/
def SgIn.devStep (i : SgIn) (ke : Nat) : Int :=
  let eq := i.a.emf i * sineOf (i.th + micro 256) + i.b.emf i * sineOf (i.th + micro 512)
  roundDiv (eq * (900 * 65536)) (ke * i.f * one64)

/-- The ring-down of an IDENTIFY kind 2 is observed for 400 ms from the unshaped arrival (R144, R280). -/
def State.observe (s : State) (x : AxisId) : State :=
  match (s.ax.get x).tt.ring with
  | some r =>
    match r.arrived with
    | some f =>
      if 0 < s.since f ∧ s.since f ≤ s.msFrames 400 then
        s.modTt x fun t => { t with ring := some (r.take s.runLength ((s.sgIn x).devStep (s.cardOf x).ke)) }
      else s
    | none => s
  | none => s

/-- The estimator of one axis judges the frame that ends (R266–R276). A fault earlier in the frame in progress, which may have turned the
legs off, does not keep it from judging (R279). -/
def State.estimate (s : State) (x : AxisId) : State :=
  let a := s.ax.get x
  if a.sgA.mode ≠ 1 ∨ a.sg.state = .off ∨ ¬ (a.energised ∨ s.faultedNow x) then s
  else
    let i := s.sgIn x
    let m := s.sgMethod x i.om
    let idle := s.modSg x fun g => { g with method := .none }
    if s.sgBarred x m then idle
    else
      match m with
      | .none => s.modSg x SgState.quiet
      | .emf =>
        let (delta, eh) := i.emf
        ((s.sgTake x delta (some (eh, eexpOf (s.cardOf x).ke i.om))).sgJudge x i true).armStep x i delta
      | .ripple =>
        match i.ripple (s.kappaOf x) with
        | none => idle
        | some delta => (s.sgTake x delta none).sgJudge x i false

end Sys2Proof.Machine
end

