-- ==== Sys2Proof/Machine/Bridges.lean ====
section
/-! DEFINITION. The light bridges (R208–R241): direct mode and commits, cycle-by-cycle trips, latches, safe states, STO, shorts,
open loads and probing. -/

namespace Sys2Proof.Machine

/-! ### Direct mode and commits (R217, R218) -/

/-- A write of AXn_BR_CFG (R217, R242, R330). -/
def State.brSrcWrite (s : State) (m : Master) (x : AxisId) (w : Word) : State :=
  let (t, ok) := s.gate m (Adr.AX_BR_CFG x) 1
  if ¬ ok then t
  else if heavy x ∨ ¬ (t.ax.get x).isParked then t.orReg (Adr.AX_BR_STAT x) (2 ^ 18)
  else
    let was := t.direct x
    let u := (t.setReg (Adr.AX_BR_CFG x) (w &&& 1)).rewritten (Adr.AX_BR_CFG x)
    let p := t.pool.get (domOf x)
    if bitOf w 0 ∧ ¬ was ∧ ¬ u.poolOk (domOf x) p.gr p.gh then t.orReg (Adr.AX_BR_STAT x) (2 ^ 18)
    else if bitOf w 0 ∧ ¬ was then u.modBr x fun b => { b with code := 0, tail := false }
    else if ¬ bitOf w 0 ∧ was then u.modBr x fun b => { b with tail := true }
    else u

/-- BR_SRC_WRITE (R217, R242). -/
def execBrSrcWrite (m : Master) (x : AxisId) (w : Word) (s : State) : Host.Outcome State Fault Refusal := .next (s.brSrcWrite m x w)

/-- A bay as a carrier unit. -/
def bayUnit (b : BayId) : CarrierId := ⟨b.val, by omega⟩

/-- A write of BAYn_COMMIT (R218). -/
def State.bayCommitWrite (s : State) (m : Master) (b : BayId) (w : Word) : State :=
  let (t, ok) := s.gate m (Adr.BAY_COMMIT b) 0xFF
  if ¬ ok then t
  else
    t.forAll ((allFin 8).filter fun (j : Fin 8) => bitOf w j.val) fun u (j : Fin 8) =>
      if u.direct (axisAt (bayUnit b) j) then
        u.modCu (bayUnit b) fun c => { c with commit := c.commit ||| BitVec.ofNat 8 (2 ^ j.val) }
      else u.orReg (Adr.BAY_BR_STAT b) 4

/-- BAY_COMMIT_WRITE (R218): a bit for an axis in engine mode is ignored. -/
def execBayCommitWrite (m : Master) (b : BayId) (w : Word) (s : State) : Host.Outcome State Fault Refusal := .next (s.bayCommitWrite m b w)

/-- The latch register of a unit. -/
def latchAdr (u : CarrierId) : Nat := if u.val < 24 then Adr.BAY_LATCH u else Adr.HVY_GRP_LATCH

/-- A write of a latch register (R224, R260). -/
def State.latchWrite (s : State) (m : Master) (u : CarrierId) (w : Word) : State :=
  let (t, ok) := s.gate m (latchAdr u) 0xFFFFFFFF
  if ok then t.modCu u fun c => { c with relPend := c.relPend ||| (c.latch &&& w) } else t

/-- LEG_LATCH_RELEASE (R224, R260): the legs written 1 release at the next valley. -/
def execLegLatchRelease (m : Master) (u : CarrierId) (w : Word) (s : State) : Host.Outcome State Fault Refusal := .next (s.latchWrite m u w)

/-! ### Cycle-by-cycle trips (R220–R222, R242) -/

/-- The axis of channel `c` of a unit, and whether it is coil B (R193). -/
def coilOf (u : CarrierId) (c : Fin 16) : AxisId × Bool := (axisAt u ⟨c.val / 2, by omega⟩, c.val % 2 == 1)

/-- Did a switch of a leg of the coil turn on within the blanking before clock `t` from the valley (R221, R242)? -/
def State.blanked (s : State) (x : AxisId) (b : Bool) (t : Nat) (edges : List (HeavyEdge × Nat)) : Bool :=
  let bl := (s.cu.get (unitOf x)).blank
  (coilLegs b).any fun i =>
    (s.turnOnsOf x i edges).any fun e =>
      decide (e.2 ≤ t) && decide ((t : Int) < e.2 + bl)

/-- The clock from the valley of a clock from the start of the half-period in progress. -/
def State.halfClock (s : State) (u : CarrierId) (clk : Nat) : Nat :=
  clk + (if (s.cu.get u).afterPeak then s.nClk / 2 else 0)

/-- A trip counts against a leg that it forced out of HIGH (R220, R222): the leg's count, LEG_TRIP for its first trip in a window. -/
def State.countTrip (s : State) (u : CarrierId) (x : AxisId) (i : Nat) (clk : Word) : State :=
  let l := 4 * (slotOf x).val + i
  let c := s.cu.get u
  let s1 := s.modCu u fun c => { c with trips := c.trips.set l (min 255 (c.trips.getD l 0 + 1)) }
  if u.val < 24 ∧ ¬ c.tripSeen.getLsbD l then
    (s1.raise 16 x.val (wd (i + 256 * b2n c.afterPeak)) clk).modCu u fun c =>
      { c with tripSeen := c.tripSeen ||| BitVec.ofNat 32 (2 ^ l) }
  else s1

/-- Legs whose trips reached N: latched off, with the event and the bridge fault action (R222, R242). -/
def State.tripLatch (s : State) (u : CarrierId) (x : AxisId) (legs : List Nat) : State :=
  let c := s.cu.get u
  let count (i : Nat) : Nat := c.trips.getD (4 * (slotOf x).val + i) 0
  let hit := legs.filter fun i => decide ((s.tripCfg u).1 ≤ count i)
  match hit with
  | [] => s
  | i :: _ =>
    let s1 := s.latchLegs x hit
    if u.val < 24 then
      (s1.bridgeFaulted x 17).raise 17 x.val (wd (hit.foldl (fun n i => n + 2 ^ i) 0)) (wd (count i))
    else
      (s1.bridgeFaulted x 30).forAll hit fun t i => t.raise 30 x.val (wd (i + 256 * (i / 2))) (wd (count i))

/-- The earlier of a cut that stands and a new one. -/
def sooner (old : Option Nat) (t : Nat) : Option Nat := some (match old with | some o => min o t | none => t)

/-- The cut of a trip from clock `t` of the unit's frame on: it stands to the end of the half-period in which it acts, which is the one after
the trip's own where the two clocks of R220 reach into it (DEDUCED, log 225). -/
def CUnit.cutFrom (q : CUnit) (n : Nat) (c : Fin 16) (t : Nat) : CUnit :=
  if q.afterPeak ∨ n / 2 ≤ t then { q with cutP := q.cutP.set c (sooner (q.cutP.getD c none) t) }
  else { q with cutV := q.cutV.set c (sooner (q.cutV.getD c none) t) }

/-- What a registered trip does to the legs of a coil, `t` clocks from the valley (R220); `clk` is what LEG_TRIP reports. `same`: on the
clock of a detection that has acted on the legs, so that the legs are judged as before it (R259). A cut at or past the valley acts in the
next frame, and is judged by what the legs are told at the end of this one (log 225). -/
def State.coilTrip (s : State) (u : CarrierId) (c : Fin 16) (t : Nat) (clk : Word) (same : Bool) : State :=
  let (x, b) := coilOf u c
  let s0 := if u.val < 24 then s.orReg (Adr.BAY_TRIP_STICKY u) (2 ^ c.val) else s
  if (s.cu.get u).tripped.getLsbD c then s0
  else
    let s1 := s0.keepHighs same x
    let legs := (coilLegs b).filter fun i => s1.wasHigh x i (min (t + 2) (s.frameLen u - 1))
    let s2 := s1.modCu u fun q =>
      { q.cutFrom s.nClk c (t + 2) with
        tripped := q.tripped ||| BitVec.ofNat 16 (2 ^ c.val), held := q.held ||| BitVec.ofNat 32 (3 * 4 ^ c.val) }
    (s2.forAll legs fun v i => v.countTrip u x i clk).tripLatch u x legs

/-- The id of a coil's window comparator (R314). -/
def coilCmp (u : CarrierId) (c : Nat) : Nat := 16 * u.val + c

/-- Is comparator `id` disconnected: under test, or permanently on fallback (R319, R321)? -/
def State.cmpOut (s : State) (id : Nat) : Bool := (s.cmp.sweep.any fun p => p.1 == id) || s.cmp.failed.contains id

/-- A side of a coil's window registers (R316): its side and sticky bits; `none` where it was tripped already. -/
def State.coilSide (s : State) (u : CarrierId) (c : Fin 16) (hi : Bool) : Option State :=
  let q := s.cu.get u
  if (if hi then q.cmpHi else q.cmpLo).getLsbD c then none
  else
    let bit := BitVec.ofNat 16 (2 ^ c.val)
    let s1 := s.modCu u fun q => if hi then { q with cmpHi := q.cmpHi ||| bit } else { q with cmpLo := q.cmpLo ||| bit }
    some (s1.orReg (if u.val < 24 then Adr.BAY_WSIDE u else Adr.CMP_HWSIDE) (2 ^ (c.val + if hi then 16 else 0)))

/-- COIL_WINDOW_TRIP (R220–R222, R242): the comparator of channel `c` registers outside its window, so many clocks into the half-period;
the edges are what those of the coil's legs met in the frame in progress, for a heavy coil. -/
def execCoilWindowTrip (u : CarrierId) (c : Fin 16) (hi : Bool) (trip : TripIn) (s : State) : Host.Outcome State Fault Refusal :=
  .next (
    let t := s.halfClock u trip.clk
    if ¬ s.sys.powered ∨ s.cmpOut (coilCmp u c) ∨ s.blanked (coilOf u c).1 (coilOf u c).2 t (trip.edges.map s.edgeNow) then s
    else
      match s.coilSide u c hi with
      | some s1 => s1.coilTrip u c t (wd trip.clk) trip.same
      | none => s)

/-! ### Safe states (R228, R229, R260) -/

/-- Is an axis energised, or does its ENERGIZE begin with the next frame (R39, R228)? A cause that turns every leg off also faults the
latter (DEDUCED, log 202). -/
def Axis.energisedAhead (a : Axis) : Bool := a.energised || a.cd.phaseNext.any fun p => p != .off

/-- The axes of a unit whose legs may switch: energised, or in direct mode. -/
def State.liveAxes (s : State) (u : CarrierId) : List AxisId := (axesOf u).filter fun x => (s.ax.get x).energisedAhead || s.direct x

/-- In BRAKE the low sides of a unit turn on at a clock of the frame in progress that no command brings, a free value (R221, R228, log 226);
what its legs were told before it is kept. -/
def State.brakeFrom (s : State) (u : CarrierId) : State :=
  let q := s.cu.get u
  if q.safe ∨ ¬ s.brakes u then s
  else
    let (w, t) := s.drawFree
    let p := s.nClk / 2
    let k := (if q.afterPeak then p else 0) + w.toNat % p
    let t1 := t.forAll (axesOf u) fun v x =>
      v.modBr x fun b => { b with before := (List.range 4).map fun i => (s.told x i).filter fun e => decide (e.1 < k) }
    t1.modCu u fun c => { c with brakeAt := some k }

/-- A unit enters its safe state, and its axes take the bridge fault action (R228). -/
def State.enterSafe (s : State) (u : CarrierId) : State :=
  let xs := s.liveAxes u
  ((s.brakeFrom u).modCu u fun c => { c with safe := true }).forAll xs State.bridgeFault

/-- Unit codes of the cores: 0–5 P0–P5, 6 PS, 8–13 E0–E5 (R39). -/
def coreExists (k : Fin 14) : Bool := k.val != 7

/-- The cores that carry a unit's duties (R34, R39): E0–E5; those of the heavy axes are E0–E3. -/
def enginesOf (u : CarrierId) : List Nat := if u.val < 24 then [8 + u.val / 4] else [8, 9, 10, 11]

/-- DEBUG_HALT (R228): every unit enters its safe state on the clock of the halt. -/
def execDebugHalt (core : Fin 14) (s : State) : Host.Outcome State Fault Refusal :=
  .next (
    if ¬ s.sys.powered ∨ ¬ coreExists core then s
    else
      let s0 := { s with upd := { s.upd with halted := s.upd.halted ||| BitVec.ofNat 14 (2 ^ core.val) }
                         frm := { s.frm with refsOk := s.frm.refsOk &&& ~~~(BitVec.ofNat 7 (2 ^ core.val)) } }
      let s1 := s0.forAll ((allFin 25).filter fun u => (enginesOf u).contains core.val) fun t u =>
        t.modCu u fun c => { c with dutiesOk := false }
      s1.forAll (allFin 25) fun t u =>
        let xs := t.liveAxes u
        ((t.enterSafe u).modCu u fun c => { c with cHalt := true }).forAll xs fun v x => v.modBr x fun b => { b with byHalt := true })

/-- DEBUG_HALT_RELEASE (R229). -/
def execDebugHaltRelease (core : Fin 14) (s : State) : Host.Outcome State Fault Refusal :=
  .next (
    let h := s.upd.halted &&& ~~~(BitVec.ofNat 14 (2 ^ core.val))
    let s1 := { s with upd := { s.upd with halted := h } }
    if h = 0 then s1.forAll (allFin 25) fun t u => t.modCu u fun c => { c with cHalt := false } else s1)

/-! ### Safe torque off (R230–R232) -/

/-- STO_INPUT_LOW (R230, R241, R354): the inputs that are low after their filters, `a` for STO_A and `b` for STO_B, as a change of one of
them leaves the two (log 227). A low one removes the gate drive at once, the next tick reports it, and STO_PROP makes it the line's stop
from the filter's output on (R355). -/
def execStoInputLow (a b : Bool) (us : Nat) (s : State) : Host.Outcome State Fault Refusal :=
  .next (
    let t := { s with sys := { s.sys with stoA := !a, stoB := !b } }
    if a ∨ b then
      let due := if s.sys.stoActive ∧ s.sys.stoDue.isNone then none else some us
      let t1 := { t with sys := { t.sys with stoActive := true, gateOk := false, stoDue := if s.sys.powered then due else none } }
      if s.sys.powered ∧ ¬ s.sys.stoActive ∧ s.rb Adr.LINE_CFG 12 then t1.originate 1 else t1
    else t)

/-- STO_RELEASE (R231): both inputs have been high for 1 ms, and the gate rails have restarted. The legs of parked axes stay off: those of
axes in direct mode too, whose active codes end (R478). -/
def execStoRelease (us : Nat) (s : State) : Host.Outcome State Fault Refusal :=
  .next (
    let off := if s.sys.stoActive then (allFin 200).filter s.direct else []
    let s0 := s.forAll off fun t x => t.modBr x fun b => { b with code := 0 }
    let s1 := { s0 with sys := { s0.sys with stoA := true, stoB := true, stoActive := false, gateOk := true } }
    if s.sys.stoActive ∧ s.sys.powered then s1.raise 46 0x160 256 (wd (min us 0xFFFFFFFF)) else s1)

/-- STO_DISCREPANCY (R232). -/
def execStoDiscrepancy (s : State) : Host.Outcome State Fault Refusal :=
  .next (if s.sys.powered ∧ s.sys.stoA ≠ s.sys.stoB then s.orReg Adr.GCTL_STO 16 else s)

/-! ### Shorts, open loads, probing (R233–R237) -/

/-- A light leg's axis. -/
def lightAxis (l : Fin 768) : AxisId := ⟨l.val / 4, by omega⟩

/-- FAST_OVERCURRENT (R233): the detector of one switch of a light leg has acted. R238 leaves open whether LEG_LATCHED_OFF is raised beside
SHORT_DETECTED, with its cause 1: it is not (DESIGN CHOICE, log entry 230). -/
def execFastOvercurrent (leg : Fin 768) (low : Bool) (s : State) : Host.Outcome State Fault Refusal :=
  .next (
    let x := lightAxis leg
    let i := leg.val % 4
    let u := unitOf x
    if ¬ s.sys.powered ∨ legBit (s.cu.get u).latch (slotOf x).val i then s
    else
      let s1 := (s.latchLegs x [i]).orReg (Adr.BAY_SHORT_SEEN u) (2 ^ (4 * (slotOf x).val + i))
      (s1.bridgeFaulted x 20).raise 20 x.val (wd (i + 65536 * b2n low)) 0)

/-- A current in 1/64 mA as whole mA. -/
def maOf (i : Int) : Int := roundDiv i 64

/-- OPEN_LOAD_COUNT_END (R235): a coil has counted 64 qualifying frames of near-zero current. A count of 65 is one already told. -/
def execOpenLoadCountEnd (x : AxisId) (s : State) : Host.Outcome State Fault Refusal :=
  .next (
    let c := (s.ax.get x).cd
    let a := c.ca.openCnt
    let b := c.cb.openCnt
    if (a ≠ 64 ∧ b ≠ 64) ∨ ¬ (s.ax.get x).energised then s
    else
      let told (k : Coil) : Coil := { k with openCnt := if k.openCnt = 64 then 65 else k.openCnt }
      let s1 := s.modCd x fun c => c.both told
      if 64 ≤ a ∧ 64 ≤ b then s1.detached x 0 64
      else
        let i := if a = 64 then c.ca.ipk else c.cb.ipk
        s1.raise 19 x.val (wd (if a = 64 then 1 else 2)) (wdI (maOf i)))

/-- A determinate probe result joins a coil's history (R237). -/
def ProbeHist.take (h : ProbeHist) (delta : Int) : ProbeHist :=
  if delta.natAbs < 384 ∧ 96 ≤ delta.natAbs then { h with delta := delta }
  else
    let p := decide (384 ≤ delta.natAbs)
    { present := p, run := if h.present = p then min 3 (h.run + 1) else 1, delta := delta }

/-- PRESENT after both coils agree three times (R237), with its event. -/
def State.probeVerdict (s : State) (x : AxisId) : State :=
  let b := (s.ax.get x).br
  if b.prA.run < 3 ∨ b.prB.run < 3 then s
  else
    let v := if b.prA.present ∧ b.prB.present then 1 else if ¬ b.prA.present ∧ ¬ b.prB.present then 2 else 3
    if v = b.present then s
    else
      let s1 := s.modBr x fun b => { b with present := v }
      let words := hiLo (maOf b.prB.delta) (maOf b.prA.delta)
      match v with
      | 1 =>
        ((s1.raise 21 x.val words (wd (s.probeW x))).modCd x fun c => { c with idValid := false }).modSg x SgState.disarm
      | 2 => (s1.raise 22 x.val 256 0).modSg x SgState.disarm
      | _ =>
        let open_ := if b.prA.present then b.prB else b.prA
        s1.raise 19 x.val (wd ((if b.prA.present then 2 else 1) + 256)) (wdI (maOf open_.delta))

/-- PARKED_AXIS_PROBE (R236, R237): the peak-sample code of the coil under probe. -/
def execParkedAxisProbe (x : AxisId) (code : Nat) (s : State) : Host.Outcome State Fault Refusal :=
  .next (
    if ¬ s.sys.powered ∨ ¬ s.probes x then s
    else
      let b := s.probesB x
      let d := s.current (unitOf x) (chanOf x b) code
      let s1 := s.modBr x fun r =>
        if b then { r with prB := r.prB.take d } else { r with prA := r.prA.take d }
      let old := s1.reg (Adr.AX_BR_PROBE x)
      let low := if b then sext 16 (fld old 15 0) else maOf d
      let high := if b then maOf d else sext 16 (fld old 31 16)
      let s2 := s1.setReg (Adr.AX_BR_PROBE x) (hiLo high low)
      let s3 := s2.gathering.probeVerdict x
      let s4 := if 15360 ≤ d.natAbs then
          ((s3.raise 20 x.val (wd (2 * b2n b + 2 * 65536)) (wdI (maOf d))).latchLegs x [0, 1, 2, 3]).bridgeFaulted x 20
        else s3
      s4.tellAll)

end Sys2Proof.Machine
end

