-- ==== Sys2Proof/Machine/Supply.lean ====
section
/-! DEFINITION. Window monitors and supplies (R314–R328): releases, over-voltage and regeneration, the brake choppers, VM entries
and rails, temperatures, the self-test sweep, threshold writes. -/

namespace Sys2Proof.Machine

/-! ### Thresholds (R314, R315) -/

/-- HYS_I, HYS_V and HYS_R (R315). -/
def State.hysI (s : State) : Nat := s.rf Adr.CMP_CFG 3 0
def State.hysV (s : State) : Nat := s.rf Adr.CMP_CFG 7 4
def State.hysR (s : State) : Nat := s.rf Adr.CMP_CFG 11 8

/-- The threshold register of a coil's window. -/
def winAdr (u : CarrierId) (c : Nat) : Nat := if u.val < 24 then Adr.BAY_WIN u c else Adr.CMP_HWIN c
/-- LO of a window word. -/
def winLo (w : Word) : Nat := fld w 9 0
/-- HI of a window word. -/
def winHi (w : Word) : Nat := fld w 25 16

/-- The current of code `n` of a coil's window, 1/64 mA (R314). -/
def State.winCurrent (s : State) (u : CarrierId) (c : Nat) (n : Int) : Int :=
  if u.val < 24 then (n - 512) * 192
  else
    let (a, d) := s.stepOf u c
    roundDiv ((n - 512) * 4 * a) d

/-- The over-voltage threshold of a unit in DAC codes, and its millivolts per code. -/
def State.ovTrip (s : State) (u : CarrierId) : Nat := if u.val < 24 then s.rf (Adr.BAY_OV u) 9 0 else s.rf Adr.CMP_HVOV 9 0
/-- Millivolts per code of a VM comparator of a domain (R314). -/
def vmStep (heavy : Bool) : Nat := if heavy then 128 else 64
/-- Millivolts per code of rail `r` (R327). -/
def railStep (r : Nat) : Nat :=
  match r with
  | 0 => 40
  | 1 => 2
  | 2 => 4
  | 3 => 8
  | 4 => 8
  | _ => 16

/-- The VM of a unit's last sample, mV. -/
def State.lastVm (s : State) (u : CarrierId) : Nat :=
  let c := s.cu.get u
  vmOf u (if c.afterPeak then c.vmP else c.vmV)

/-- The last code of channel `c` of a unit. -/
def State.lastCode (s : State) (u : CarrierId) (c : Nat) : Nat :=
  let q := s.cu.get u
  (if q.afterPeak then q.peak else q.valley).getD c 0

/-! ### Regeneration and choppers (R323–R326) -/

/-- Is domain `d` strapped (R325)? -/
def State.strapped (s : State) (d : DomainId) : Bool := s.rb Adr.GRN_CFG (16 + d.val)

/-- The domains that share a supply with `d`, itself included. -/
def State.sharing (s : State) (d : DomainId) : List DomainId :=
  if s.strapped d then (allFin 7).filter fun e => s.strapped e else [d]

/-- The units of a domain. -/
def unitsOf (d : DomainId) : List CarrierId := (allFin 25).filter fun u => domOfUnit u == d

/-- Does an over-voltage monitor or a VM entry of domain `d` block regeneration (R323, R324)? -/
def State.blocksIn (s : State) (d : DomainId) : Bool := (unitsOf d).any (fun u => (s.cu.get u).ov) || s.cmp.vmHi.getLsbD d
/-- Does a unit's own monitor or its VM entry block it? -/
def State.blocksUnit (s : State) (u : CarrierId) : Bool := (s.cu.get u).ov || s.cmp.vmHi.getLsbD (domOfUnit u)
/-- Does domain `d` request its chopper (R317, R323, R324)? -/
def State.requests (s : State) (d : DomainId) : Bool :=
  ((unitsOf d).any fun u => (s.cu.get u).ov && !(s.cu.get u).ovUnset) || (s.cmp.vmHi.getLsbD d && !s.cmp.vmHiUnset.getLsbD d)

/-- BAYn_WSTAT.REGEN_BLK of every unit (R323–R325). -/
def State.setRegen (s : State) : State :=
  s.forAll (allFin 25) fun t u =>
    let d := domOfUnit u
    let on := if s.strapped d then (s.sharing d).any s.blocksIn else s.blocksUnit u
    t.modCu u fun c => { c with regen := on }

/-- Bit `i` of seven set to `v`. -/
def putBit7 (w : BitVec 7) (i : Nat) (v : Bool) : BitVec 7 :=
  if v then w ||| BitVec.ofNat 7 (2 ^ i) else w &&& ~~~(BitVec.ofNat 7 (2 ^ i))

/-- One chopper output follows its request (R326). -/
def State.chopper (s : State) (b : DomainId) : State :=
  let i := b.val
  let req := (s.sharing b).any s.requests
  let on := req && s.rb (Adr.CMP_BRK i) 31 && !s.cmp.brkOff.getLsbD i
  let s1 := { s with cmp := { s.cmp with brkReq := putBit7 s.cmp.brkReq i req, brkOn := putBit7 s.cmp.brkOn i on } }
  if on ∧ ¬ s.cmp.brkOn.getLsbD i then
    let s2 :=
      if s.cmp.brkSeen.getLsbD i then s1
      else (s1.raise 31 (0x1D8 + i) 0 (wd (s.cmp.brkPrev.getD i 0)))
    let c := s2.cmp
    let n := if c.brkFr.getLsbD i then c.brkCnt.getD i 0 else c.brkCnt.getD i 0 + 1
    let s3 := { s2 with cmp := { c with brkSeen := putBit7 c.brkSeen i true, brkFr := putBit7 c.brkFr i true, brkCnt := c.brkCnt.set i n } }
    s3
  else s1

/-- The choppers and the regeneration blocks follow the monitors. -/
def State.supplies (s : State) : State := s.setRegen.forAll (allFin 7) State.chopper

/-- LIMIT of a chopper is reached (R326): the output is held off until the window ends. -/
def State.limitChopper (s : State) (b : DomainId) : State :=
  let i := b.val
  let s1 := (s.raise 31 (0x1D8 + i) 1 (wd (s.cmp.brkPrev.getD i 0))).orReg Adr.CMP_BRKSTAT (2 ^ (16 + i))
  { s1 with cmp := { s1.cmp with brkOff := putBit7 s1.cmp.brkOff i true, brkOn := putBit7 s1.cmp.brkOn i false } }

/-- Has a chopper reached LIMIT in its window? -/
def State.atLimit (s : State) (b : DomainId) : Bool :=
  decide (max 1 (s.rf (Adr.CMP_BRK b) 27 16) ≤ s.cmp.brkCnt.getD b 0) && !s.cmp.brkOff.getLsbD b

/-- BRAKE_CHOPPER_LIMIT (R326). -/
def execBrakeChopperLimit (b : DomainId) (s : State) : Host.Outcome State Fault Refusal :=
  .next (if s.sys.powered ∧ s.atLimit b then s.limitChopper b else s)

/-- The choppers at a tick: windows, and the frames in which they are on (R326). -/
def State.chopperTick (s : State) : State :=
  s.forAll (allFin 7) fun t b =>
    let i := b.val
    let win := max 1 (t.rf (Adr.CMP_BRK i) 15 0)
    let c := t.cmp
    let t1 :=
      if t.frm.count.toNat % win = 0 then
        { t with cmp := { c with brkPrev := c.brkPrev.set i (c.brkCnt.getD i 0), brkCnt := c.brkCnt.set i 0,
                                 brkOff := putBit7 c.brkOff i false, brkSeen := putBit7 c.brkSeen i false,
                                 brkOn := putBit7 c.brkOn i false, brkFr := putBit7 c.brkFr i false } }
      else { t with cmp := { c with brkFr := putBit7 c.brkFr i (c.brkOn.getLsbD i),
                                    brkCnt := if c.brkOn.getLsbD i then c.brkCnt.set i (c.brkCnt.getD i 0 + 1) else c.brkCnt } }
    t1.chopper b

/-! ### Trips of supplies (R322–R324, R327) -/

/-- The over-voltage monitor of a unit registers (R323). -/
def State.ovRegister (s : State) (u : CarrierId) : State :=
  if (s.cu.get u).ov then s
  else
    let s1 := if u.val < 24 then s.orReg (Adr.BAY_WSTAT u) (2 ^ 18) else s.orReg Adr.CMP_VSTICKY (2 ^ 16)
    let s2 := (s1.modCu u fun c => { c with ov := true, ovSeen := true }).supplies
    if (s.cu.get u).ovSeen then s2 else s2.raise 40 (unitCode u) 0 (wd (s.lastVm u))

/-- The comparator id of an over-voltage monitor (R314). -/
def ovCmp (u : CarrierId) : Nat := if u.val < 24 then 408 + u.val else 407

/-- OVERVOLTAGE_MONITOR_TRIP (R323). -/
def execOvervoltageMonitorTrip (u : CarrierId) (s : State) : Host.Outcome State Fault Refusal :=
  .next (if ¬ s.sys.powered ∨ s.cmpOut (ovCmp u) then s else s.ovRegister u)

/-- The LO side of a VM entry registers (R322). -/
def State.vmLoRegister (s : State) (d : DomainId) : State :=
  if s.cmp.vmLo.getLsbD d then s
  else
    let s1 := ({ s with cmp := { s.cmp with vmLo := putBit7 s.cmp.vmLo d true } }).orReg Adr.CMP_VSTICKY (2 ^ d.val)
    let (s2, n) := s1.faultEnergised (axesOfDom d) 41
    s2.raise 41 (0x1D0 + d.val) 0 (wd n)

/-- VM_ENTRY_LO_TRIP (R322). -/
def execVmEntryLoTrip (d : DomainId) (s : State) : Host.Outcome State Fault Refusal :=
  .next (if ¬ s.sys.powered ∨ s.cmpOut (400 + d.val) then s else s.vmLoRegister d)

/-- The HI side of a VM entry registers (R324). -/
def State.vmHiRegister (s : State) (d : DomainId) : State :=
  if s.cmp.vmHi.getLsbD d then s
  else
    let s1 := ({ s with cmp := { s.cmp with vmHi := putBit7 s.cmp.vmHi d true } }).orReg Adr.CMP_VSTICKY (2 ^ (8 + d.val))
    s1.supplies.raise 40 (0x1D0 + d.val) 1 (wd (s.cmp.vmMv.getD d 0))

/-- VM_ENTRY_HI_TRIP (R324). -/
def execVmEntryHiTrip (d : DomainId) (s : State) : Host.Outcome State Fault Refusal :=
  .next (if ¬ s.sys.powered ∨ s.cmpOut (400 + d.val) then s else s.vmHiRegister d)

/-- Does STO silence a trip of rail `r` (R230, R327)? -/
def State.railSilent (s : State) (r : Nat) : Bool := s.sys.stoActive && decide (5 ≤ r) && decide (r ≤ 12)

/-- The LO side of a rail registers (R327). -/
def State.railLoRegister (s : State) (r : Fin 13) : State :=
  if s.cmp.railLo.getLsbD r then s
  else
    let s1 := ({ s with cmp := { s.cmp with railLo := s.cmp.railLo ||| BitVec.ofNat 13 (2 ^ r.val) } }).orReg Adr.CMP_RSTICKY (2 ^ r.val)
    if s.railSilent r then s1
    else if 5 ≤ r.val ∧ r.val ≤ 10 then
      let d : DomainId := Fin.ofNat 7 (r.val - 5)
      let (s2, n) := s1.faultEnergised (axesOfDom d) 41
      s2.raise 41 (0x1D0 + d.val) 1 (wd n)
    else s1.raise 42 (0x1E0 + r.val) 0 (wd (winLo (s.reg (Adr.CMP_RAIL r)) * railStep r))

/-- RAIL_LO_TRIP (R327). -/
def execRailLoTrip (r : Fin 13) (s : State) : Host.Outcome State Fault Refusal :=
  .next (if s.sys.powered then s.railLoRegister r else s)

/-- The HI side of a rail registers (R327). -/
def State.railHiRegister (s : State) (r : Fin 13) : State :=
  if s.cmp.railHi.getLsbD r then s
  else
    let s1 := ({ s with cmp := { s.cmp with railHi := s.cmp.railHi ||| BitVec.ofNat 13 (2 ^ r.val) } }).orReg Adr.CMP_RSTICKY
      (2 ^ (16 + r.val))
    if s.railSilent r then s1
    else s1.raise 42 (0x1E0 + r.val) 1 (wd (winHi (s.reg (Adr.CMP_RAIL r)) * railStep r))

/-- RAIL_HI_TRIP (R327). -/
def execRailHiTrip (r : Fin 13) (s : State) : Host.Outcome State Fault Refusal :=
  .next (if s.sys.powered then s.railHiRegister r else s)

/-! ### Releases (R315–R317) -/

/-- Does comparator `id` run on its fallback? -/
def State.onFallback (s : State) (id : Nat) : Bool := s.cmpOut id || s.cmp.fallback.contains id

/-- Does every sample of unit `u` count as beyond both trip levels for comparator `id` (R321)? -/
def State.forces (s : State) (u : CarrierId) (id : Nat) : Bool := (s.cu.get u).forced && s.onFallback id

/-- The coil windows of a unit at a half-period boundary: a side whose input lies on its release side releases; `cur` holds the
sampled currents in 1/64 mA. A sample that counts as beyond both trip levels releases none that is on its fallback (R321). -/
def State.releaseCoils (s : State) (u : CarrierId) (cur : List Int) : State :=
  let h : Int := s.hysI
  let step (t : State) (c : Fin 16) : State :=
    let w := s.reg (winAdr u c)
    let i := cur.getD c 0
    let stays := s.forces u (coilCmp u c)
    let lo := (t.cu.get u).cmpLo.getLsbD c && (stays || !decide (s.winCurrent u c (winLo w + h) ≤ i))
    let hi := (t.cu.get u).cmpHi.getLsbD c && (stays || !decide (i ≤ s.winCurrent u c (winHi w - h)))
    let bit := BitVec.ofNat 16 (2 ^ c.val)
    t.modCu u fun q =>
      { q with cmpLo := if lo then q.cmpLo else q.cmpLo &&& ~~~bit, cmpHi := if hi then q.cmpHi else q.cmpHi &&& ~~~bit,
               unset := if lo || hi then q.unset else q.unset &&& ~~~bit,
               unsetRst := if lo || hi then q.unsetRst else q.unsetRst &&& ~~~bit }
  s.forAll (allFin 16) step

/-- The over-voltage monitor of a unit at a half-period boundary. -/
def State.releaseOv (s : State) (u : CarrierId) (vm : Nat) : State :=
  if (s.cu.get u).ov ∧ ¬ s.forces u (ovCmp u) ∧ vm ≤ (s.ovTrip u - s.hysV) * vmStep (u.val == 24) then
    (s.modCu u fun c => { c with ov := false, ovUnset := false }).supplies
  else s

/-- The VM entries and the rails at a boundary of the device carrier (R316); a rail comparator that failed its reset test stays tripped (R418). -/
def State.releaseSupplies (s : State) (vm rail : List Nat) : State :=
  let s1 := { s with cmp := { s.cmp with vmMv := vm, railMv := rail } }
  let vmStepOne (t : State) (d : DomainId) : State :=
    let w := t.reg (Adr.CMP_VM d)
    let v := vm.getD d 0
    let st := vmStep (d.val == 6)
    let stays := (unitsOf d).any fun u => s.forces u (400 + d.val)
    let lo := t.cmp.vmLo.getLsbD d && (stays || decide (v < (winLo w + t.hysV) * st))
    let hi := t.cmp.vmHi.getLsbD d && (stays || decide ((winHi w - t.hysV) * st < v))
    let c := t.cmp
    { t with cmp := { c with
        vmLo := putBit7 c.vmLo d lo
        vmHi := putBit7 c.vmHi d hi
        vmUnset := putBit7 c.vmUnset d (c.vmUnset.getLsbD d && lo)
        vmHiUnset := putBit7 c.vmHiUnset d (c.vmHiUnset.getLsbD d && hi) } }
  let railOne (t : State) (r : Fin 13) : State :=
    let w := t.reg (Adr.CMP_RAIL r)
    let v := rail.getD r 0
    let st := railStep r
    let bad := t.cmp.railBad.getLsbD r
    let lo := bad || (t.cmp.railLo.getLsbD r && decide (v < (winLo w + t.hysR) * st))
    let hi := bad || (t.cmp.railHi.getLsbD r && decide ((winHi w - t.hysR) * st < v))
    let bit := BitVec.ofNat 13 (2 ^ r.val)
    let c := t.cmp
    { t with cmp := { c with
        railLo := if lo then c.railLo else c.railLo &&& ~~~bit
        railHi := if hi then c.railHi else c.railHi &&& ~~~bit
        railRel := if lo || hi then c.railRel else c.railRel ||| bit } }
  ((s1.forAll (allFin 7) vmStepOne).forAll (allFin 13) railOne).supplies

/-- The device carrier's peak (R316), where one has come. -/
def State.deviceAt (s : State) (d : Option SupplyIn) : State :=
  match d with
  | some i => s.releaseSupplies i.vmMv i.railMv
  | none => s

/-! ### The sample fallback (R320, R321) -/

/-- The carrier unit of comparator `id`; the device's comparators have none (R314). -/
def cmpUnit (id : Nat) : Option CarrierId :=
  if id < 400 then some (Fin.ofNat 25 (id / 16))
  else if id = 407 then some 24
  else if 408 ≤ id ∧ id < 432 then some (Fin.ofNat 25 (id - 408))
  else none

/-- Is a comparator of unit `u` permanently on fallback (R321)? -/
def State.hasFailed (s : State) (u : CarrierId) : Bool := s.cmp.failed.any fun id => cmpUnit id == some u

/-- A sample of unit `u` comes (R321): beside a comparator that is permanently on fallback, REF_ERR makes every sample count as beyond both
trip levels until the next valley without REF_ERR. -/
def State.force (s : State) (u : CarrierId) (valley : Bool) : State :=
  s.modCu u fun c => { c with forced := if c.refErr then c.forced || s.hasFailed u else c.forced && !valley }

/-- A coil whose samples count as beyond both trip levels, and whose sides are tripped already, cannot drive HIGH from the boundary on
(R321). -/
def State.holdCoil (s : State) (u : CarrierId) (c : Fin 16) (base : Nat) : State :=
  s.modCu u fun q =>
    { q.cutFrom s.nClk c base with
      tripped := q.tripped ||| BitVec.ofNat 16 (2 ^ c.val), held := q.held ||| BitVec.ofNat 32 (3 * 4 ^ c.val) }

/-- Each sample of an input on fallback is compared with its thresholds (R320): currents in 1/64 mA, VM in mV. A trip acts 720
clocks after the sample instant. -/
def State.fallback (s : State) (u : CarrierId) (cur : List Int) (vm : Nat) : State :=
  let every := (s.cu.get u).forced
  let base := if (s.cu.get u).afterPeak then s.nClk / 2 else 0
  let side (t : State) (c : Fin 16) (hi trips : Bool) : State :=
    if trips then
      match t.coilSide u c hi with
      | some t1 => t1.coilTrip u c (base + 720) 720 false
      | none => if every then t.holdCoil u c base else t
    else t
  let coil (t : State) (c : Fin 16) : State :=
    if ¬ t.onFallback (coilCmp u c) then t
    else
      let w := t.reg (winAdr u c)
      let i := cur.getD c 0
      let all := (t.cu.get u).forced
      let t1 := side t c false (all || decide (i < t.winCurrent u c (winLo w)))
      side t1 c true (all || decide (t.winCurrent u c (winHi w) < i))
  let s1 := s.forAll (allFin 16) coil
  let s2 := if s1.onFallback (ovCmp u) ∧ (every ∨ s1.ovTrip u * vmStep (u.val == 24) < vm) then s1.ovRegister u else s1
  let d := domOfUnit u
  if s2.onFallback (400 + d.val) then
    let w := s2.reg (Adr.CMP_VM d)
    let st := vmStep (d.val == 6)
    let s3 := if every ∨ vm < winLo w * st then s2.vmLoRegister d else s2
    if every ∨ winHi w * st < vm then s3.vmHiRegister d else s3
  else s2

/-- Have both sides of comparator `id` released? -/
def State.released (s : State) (id : Nat) : Bool :=
  if id < 400 then
    let q := s.cu.get (Fin.ofNat 25 (id / 16))
    !q.cmpLo.getLsbD (id % 16) && !q.cmpHi.getLsbD (id % 16)
  else if id < 407 then !s.cmp.vmLo.getLsbD (id - 400) && !s.cmp.vmHi.getLsbD (id - 400)
  else if id = 407 then !(s.cu.get 24).ov
  else !(s.cu.get (Fin.ofNat 25 (id - 408))).ov

/-- At a valley of a unit (`none`: at a tick), the fallback of a comparator returned to service ends where both sides have released
(R319). -/
def State.endFallbacks (s : State) (u : Option CarrierId) : State :=
  { s with cmp := { s.cmp with fallback := s.cmp.fallback.filter fun id => !(cmpUnit id == u && s.released id) } }

/-! ### Temperatures (R328) -/

/-- 1/16 °C as 0.1 °C. -/
def tenthDeg (t : Int) : Int := roundDiv (t * 10) 16

/-- The temperature of a unit is compared with WARN and SHUT (R328). -/
def State.tempCheck (s : State) (u : CarrierId) : State :=
  let c := s.cu.get u
  let t := meanTemp c.temps
  let warn : Int := 16 * s.rf Adr.CMP_TEMP 7 0
  let shut : Int := 16 * s.rf Adr.CMP_TEMP 15 8
  let dt := if u.val < 24 then (s.pool.get (domOfUnit u)).d else 256
  let s1 := if warn ≤ t ∧ ¬ c.tWarn then s.raise 43 (unitCode u) (wdI (tenthDeg t)) (wd dt) else s
  let s2 :=
    if shut ≤ t ∧ ¬ c.tShut then
      let (v, n) := s1.faultEnergised (axesOf u) 44
      v.raise 44 (unitCode u) (wdI (tenthDeg t)) (wd n)
    else s1
  s2.modCu u fun c =>
    { c with tWarn := if warn ≤ t then true else if t ≤ warn - 80 then false else c.tWarn,
             tShut := if shut ≤ t then true else if t < shut - 80 then false else c.tShut }

/-- The control die's warning (R328). -/
def State.dieCheck (s : State) (t : Int) : State :=
  let lim : Int := 16 * s.rf Adr.CMP_TEMP 23 16
  let s1 := if lim ≤ t ∧ ¬ s.cmp.dieWarn then s.raise 43 0x1F0 (wdI (tenthDeg t)) 256 else s
  { s1 with cmp := { s1.cmp with dieWarn := if lim ≤ t then true else if t ≤ lim - 80 then false else s1.cmp.dieWarn } }

/-! ### The sweep (R319, R321) -/

/-- A sweep starts with comparator 0 (R319, R321). -/
def State.startSweep (s : State) : State :=
  if s.cmp.sweep.isSome then s
  else { s with cmp := { s.cmp with sweep := some (0, 0), sweepAt := s.frm.count } }.raise 45 0x1F1 0x1FF 0

/-- COMPARATOR_SWEEP_START (R319): the supervisor's ST_INT seconds have run out, counted from its last sweep. -/
def execComparatorSweepStart (s : State) : Host.Outcome State Fault Refusal :=
  .next (
    let n := s.rf Adr.CMP_CFG 27 16
    if s.sys.powered ∧ n ≠ 0 ∧ n * s.hz ≤ s.since s.cmp.sweepFrom then
      { s with cmp := { s.cmp with sweepFrom := s.frm.count } }.startSweep
    else s)

/-- A write of 1 to CMP_CTL.SWEEP (R319). -/
def State.sweepWrite (s : State) (m : Master) : State :=
  let (t, go) := s.gate m Adr.CMP_CTL 1
  if go then t.startSweep else t

/-- CMP_SWEEP_WRITE (R319): a write of 1 to CMP_CTL.SWEEP, privileged. -/
def execCmpSweepWrite (m : Master) (s : State) : Host.Outcome State Fault Refusal := .next (s.sweepWrite m)

/-- A comparator returns to service restrictive, with its fallback until both sides release (R317, R319). What has released since reset stays
so: the refusal 0x300 and the silence of the chopper belong to the time after reset. -/
def State.backToService (s : State) (id : Nat) : State :=
  let s1 :=
    if id < 400 then
      let bit := BitVec.ofNat 16 (2 ^ (id % 16))
      s.modCu (Fin.ofNat 25 (id / 16)) fun q =>
        { q with cmpLo := q.cmpLo ||| bit, cmpHi := q.cmpHi ||| bit, unset := q.unset ||| bit }
    else if id < 407 then
      let d := id - 400
      let c := s.cmp
      { s with cmp := { c with vmLo := putBit7 c.vmLo d true, vmHi := putBit7 c.vmHi d true } }
    else s.modCu ((cmpUnit id).getD 24) fun q => { q with ov := true }
  { s1 with cmp := { s1.cmp with fallback := s1.cmp.fallback ++ [id] } }.supplies

/-- A comparator has passed its test (R321). -/
def State.passTest (s : State) (id : Nat) : State :=
  { s with cmp := { s.cmp with failed := s.cmp.failed.filter (· != id) } }.backToService id

/-- A comparator joins the list of those that failed, in ascending order. -/
def insFailed (id : Nat) : List Nat → List Nat
  | [] => [id]
  | a :: l => if id < a then id :: a :: l else if id = a then a :: l else a :: insFailed id l

/-- The PLL has locked, which it does after the rails' tests and before the boot image is read (R417). -/
def State.pllLocks (s : State) : State := { s with frm := { s.frm with lock := s.frm.lock || s.frm.outage.isNone } }

/-- The reset test of rail comparator `id` ends (R417, R418): one that fails stays tripped on both sides. Rail 12 is the last. -/
def State.railTested (s0 : State) (id : Nat) (o : TestOutcome) : State :=
  let s := if 444 ≤ id then s0.pllLocks else s0
  let c := s.cmp
  let next := if 444 ≤ id then none else some (id + 1, 0)
  if o = .failed then
    { s with cmp := { c with sweep := next, railBad := c.railBad ||| BitVec.ofNat 13 (2 ^ (id - 432)),
                             failed := insFailed id c.failed } }
  else { s with cmp := { c with sweep := next } }

/-- The test in progress ends; the next comparator follows, or the sweep ends (R319, R321). -/
def State.endTest (s : State) (id fails : Nat) (o : TestOutcome) : State :=
  let s1 := match s.cmp.heldWr with
    | some (a, w) => { s with cmp := { s.cmp with heldWr := none } }.setReg a w |>.rewritten a
    | none => s
  if 432 ≤ id then s1.railTested id o
  else
    let (s2, n) := match o with
      | .passed => (s1.passTest id, fails)
      | .failed =>
        ({ s1 with cmp := { s1.cmp with failed := insFailed id s1.cmp.failed } }.raise 45 0x1F1 (wd (id + 131072)) 0, fails + 1)
      | .refErr => ((s1.backToService id).raise 45 0x1F1 (wd (id + 196608)) 0, fails)
    if 431 ≤ id then
      { s2 with cmp := { s2.cmp with sweep := none } }.raise 45 0x1F1 (wd (0x1FF + 65536)) (wd n)
    else { s2 with cmp := { s2.cmp with sweep := some (id + 1, n), sweepAt := s2.frm.count } }

/-- Does REF_ERR stand in the bay of comparator `id` (R195, R321)? -/
def State.refErrOf (s : State) (id : Nat) : Bool := (cmpUnit id).any fun u => (s.cu.get u).refErr

/-- A unit's reference conversion sets REF_ERR: a test in the bay is abandoned at once (R321). -/
def State.abandonTest (s : State) (u : CarrierId) : State :=
  match s.cmp.sweep with
  | some (id, fails) => if cmpUnit id = some u ∧ (s.cu.get u).refErr then s.endTest id fails .refErr else s
  | none => s

/-- COMPARATOR_TEST_END (R319, R321): the test in progress ends after its 32 frames. REF_ERR in the bay abandons it whatever it found, and
without REF_ERR no test is abandoned. -/
def execComparatorTestEnd (o : TestOutcome) (s : State) : Host.Outcome State Fault Refusal :=
  .next (
    match s.cmp.sweep with
    | none => s
    | some (id, fails) =>
      if s.refErrOf id then s.endTest id fails .refErr
      else if o = .refErr ∨ (id < 432 ∧ s.since s.cmp.sweepAt < 32) then s
      else s.endTest id fails o)

/-! ### Threshold writes (R318) -/

/-- The comparator of a threshold register, where `a` is one. -/
def cmpOfReg (a : Nat) : Option Nat :=
  if Adr.BAY 0 ≤ a ∧ a < Adr.BAY 24 then
    let b := (a - Adr.BAY 0) / 0x1000
    let o := a % 0x1000
    if 0x300 ≤ o ∧ o < 0x340 then some (16 * b + (o - 0x300) / 4) else if o = 0x340 then some (408 + b) else none
  else if among a (Adr.CMP_HWIN 0) 4 16 then some (384 + ixOf a (Adr.CMP_HWIN 0) 4)
  else if among a (Adr.CMP_VM 0) 4 7 then some (400 + ixOf a (Adr.CMP_VM 0) 4)
  else if a = Adr.CMP_HVOV then some 407
  else if among a (Adr.CMP_RAIL 0) 4 13 then some (432 + ixOf a (Adr.CMP_RAIL 0) 4)
  else none

/-- A side whose last input lies beyond a new threshold trips (R318). A trip's clocks are not known to the write, so that LEG_TRIP
reports a free value. -/
def State.recheck (s : State) (id : Nat) : State :=
  if s.cmpOut id then s
  else if id < 400 then
    let u : CarrierId := Fin.ofNat 25 (id / 16)
    let c : Fin 16 := Fin.ofNat 16 id
    let w := s.reg (winAdr u c)
    let i := s.current u c (s.lastCode u c)
    let side (t : State) (hi : Bool) : State :=
      match t.coilSide u c hi with
      | some t1 => let (k, t2) := t1.drawFree; t2.coilTrip u c (t2.halfClock u k.toNat % t2.nClk) k false
      | none => t
    let s1 := if i < s.winCurrent u c (winLo w) then side s false else s
    if s.winCurrent u c (winHi w) < i then side s1 true else s1
  else if id < 407 then
    let d : DomainId := Fin.ofNat 7 (id - 400)
    let w := s.reg (Adr.CMP_VM d)
    let v := s.cmp.vmMv.getD d 0
    let st := vmStep (d.val == 6)
    let s1 := if v < winLo w * st then s.vmLoRegister d else s
    if winHi w * st < v then s1.vmHiRegister d else s1
  else if id < 432 then
    let u := (cmpUnit id).getD 24
    if s.ovTrip u * vmStep (u.val == 24) < s.lastVm u then s.ovRegister u else s
  else
    let r : Fin 13 := Fin.ofNat 13 (id - 432)
    let w := s.reg (Adr.CMP_RAIL r)
    let v := s.cmp.railMv.getD r 0
    let s1 := if v < winLo w * railStep r then s.railLoRegister r else s
    if winHi w * railStep r < v then s1.railHiRegister r else s1

/-- A write of a threshold register (R318). -/
def State.thresholdWrite (s : State) (m : Master) (a : Nat) (w : Word) : State :=
  match cmpOfReg a with
  | none => s
  | some id =>
    let (t, ok) := s.gate m a 0xFFFFFFFF
    if ¬ ok then t
    else
      let v := t.written m a w
      let hasLo := id < 407 || 432 ≤ id
      if hasLo ∧ winHi v ≤ winLo v then t.orReg Adr.CMP_STAT (2 ^ 30)
      else if t.cmp.sweep.any fun p => p.1 == id then { t with cmp := { t.cmp with heldWr := some (a, v) } }
      else ((t.setReg a v).rewritten a).recheck id

/-- CMP_THRESHOLD_WRITE (R318). -/
def execCmpThresholdWrite (m : Master) (a : Nat) (w : Word) (s : State) : Host.Outcome State Fault Refusal := .next (s.thresholdWrite m a w)

end Sys2Proof.Machine
end

