-- ==== Sys2Proof/Machine/Weigh.lean ====
section
/-! DEFINITION. The Weighbridge (R366–R390, R404): energy, time, tamper inputs, the seal, the weighing table, installs, the audit log and
signed records. A sample's differential voltage is given in nV and the voltage to ground in mV. -/

namespace Sys2Proof.Machine

/-- Apply `f` to the Weighbridge. -/
def State.modWb (s : State) (f : Wb → Wb) : State := { s with wb := f s.wb }
/-- Apply `f` to the standby contents. -/
def State.modSb (s : State) (f : Standby → Standby) : State := s.modWb fun w => { w with sb := f w.sb }

/-- The clock with RTC_VALID in bit 63 (R386, R387). -/
def Standby.clock (b : Standby) : Nat := b.rtc % 2 ^ 63 + 2 ^ 63 * b2n b.rtcValid
/-- WB_TAMPCNT (R390). -/
def Standby.tampWord (b : Standby) : Word := wd (b.tamp1 * 65536 + b.tamp0)

/-- The seal state (R381). -/
def State.seal (s : State) : Nat := if s.sys.sealedVariant then (if s.wb.pad then 2 else 1) else 0

/-- WB_STAT.BUSY (R383, R388). -/
def Wb.busy (w : Wb) : Bool := w.req.isSome || w.inst != 0

/-! ### The audit log (R385, R386) -/

/-- WEIGHBRIDGE_AUDIT of an appended record (R386). -/
def State.auditEvent (s : State) (d0 d1 : Word) : State := s.raise 63 0x210 d0 d1

/-- Append a record to the log (R385, R386); one appended while VAUX is off raises its event later (R379). -/
def State.appendLog (s : State) (kind detail : Nat) (a b : Word) : State :=
  let w := s.wb
  let r : LogRec := ⟨w.logNext, BitVec.ofNat 8 kind, BitVec.ofNat 8 detail, BitVec.ofNat 64 w.sb.clock, wd w.sb.audit, a, b⟩
  let d0 := wd (kind + 256 * detail)
  let d1 := wd w.logNext
  let t := s.modWb fun w => { w with log := (r :: w.log).take 1024, logNext := w.logNext + 1 }
  if s.sys.powered then t.auditEvent d0 d1 else t.modWb fun w => { w with owed := w.owed ++ [(d0, d1)] }

/-- The events owed, in the first frame after the ready bit sets (R379). -/
def State.payAudit (s : State) : State :=
  if s.wb.checked then (s.modWb fun w => { w with owed := [] }).forAll s.wb.owed fun t (d0, d1) => t.auditEvent d0 d1 else s

/-- The 32 bytes of a log record (R386). -/
def LogRec.bytes (r : LogRec) : List Byte :=
  let b := leBytes 4 r.num ++ [r.kind, r.detail, 0, 0] ++ leBytes 8 r.clock.toNat ++ leBytes 4 r.audit.toNat ++ leBytes 4 r.a.toNat
    ++ leBytes 4 r.b.toNat
  b ++ leBytes 4 (crc32c b).toNat

/-! ### Energy and time (R369–R373) -/

/-- `a / b` more in a counter and its residue: the whole mJ, and the rest in lowest terms (R369). -/
def accumulate (count : Nat) (res : Nat × Nat) (a b : Nat) : Nat × (Nat × Nat) :=
  let den := res.2 * b
  let num := res.1 * b + a * res.2
  let g := Nat.gcd (num % den) den
  ((count + num / den) % 2 ^ 64, (num % den / g, den / g))

/-- One sample of a domain (R369, R370): the differential voltage in nV, the voltage in mV, the shunt in µΩ; 62.5 µs of it. -/
def Energy.take (e : Energy) (sense : Int) (v rs : Nat) : Energy :=
  let n := min sense.natAbs 50000000
  if n < 20000 then e
  else if 0 < sense then
    let (c, r) := accumulate e.eIn e.resIn (n * v) (16000000 * rs)
    { e with eIn := c, resIn := r }
  else
    let (c, r) := accumulate e.eOut e.resOut (n * v) (16000000 * rs)
    { e with eOut := c, resOut := r }

/-- The bits of the domains whose sample is over-range (R370). -/
def overBits : Nat → List (Int × Nat) → Nat
  | _, [] => 0
  | d, (n, _) :: l => (if 50000000 < n.natAbs then 2 ^ d else 0) + overBits (d + 1) l

/-- The weighing table that the WB_TBL_ registers stage (R382). -/
def State.stagedTable (s : State) : WbTable :=
  let m := s.reg Adr.WB_TBL_MISC
  ⟨(List.range 7).map fun d => s.rf (Adr.WB_TBL_RS d) 16 0, fld m 15 0, BitVec.ofNat 2 (fld m 17 16), BitVec.ofNat 2 (fld m 19 18)⟩

/-- The slow-clock edges of four samples of the tamper inputs (R378): 4 ms while VAUX is present, 500 ms in standby. -/
def State.tampEdges (s : State) : Nat := if s.sys.powered then 131 else 16384

/-- A table comes into force (R382); new settings of the tamper inputs are judged by the next four samples (R378). -/
def State.setTable (s : State) (n : WbTable) : State :=
  let o := s.wb.table
  s.modWb fun w =>
    { w with table := n, tampDue := if n.tampEn = o.tampEn ∧ n.tampNorm = o.tampNorm then w.tampDue else s.tampEdges }

/-- A commit that waits for the sample installs the staged table (R382). -/
def State.takeTable (s : State) : State :=
  if s.wb.tblGo then ((s.setTable s.stagedTable).modWb fun w => { w with tblGo := false }).appendLog 6 0 0 0 else s

/-- The public key's 32 bytes (R387). -/
def keyBytes : List Byte := (List.range 8).flatMap fun k => leBytes 4 (Config.publicKey k).toNat

/-- `n` bytes of zero. -/
def zeros (n : Nat) : List Byte := List.replicate n 0

/-- The payload of a signed record, bytes 56–187 (R389). -/
def State.payload (s : State) (q : WbReq) : List Byte :=
  let b := s.wb.sb
  match q.kind with
  | 1 => (b.energy.flatMap fun e => leBytes 8 e.eIn ++ leBytes 8 e.eOut) ++ leBytes 8 b.powerS ++ leBytes 8 b.runS ++ zeros 4
  | 2 =>
    let k := q.arg.toNat
    ((List.range 20).flatMap fun i => leBytes 6 (b.moves.getD (20 * k + i) 0)) ++ [BitVec.ofNat 8 k] ++ zeros 11
  | 3 =>
    ((List.range 4).flatMap fun i => match s.wb.log.find? fun r => r.num == q.arg.toNat + i with
      | some r => r.bytes
      | none => zeros 32) ++ zeros 4
  | _ => keyBytes ++ ((List.range 64).map Config.vendorSignature) ++ zeros 36

/-- The 256 bytes of a signed record (R387). -/
def State.wbRecord (s : State) (q : WbReq) : List Byte :=
  let w := s.wb
  let b := [BitVec.ofNat 8 q.kind, 1, if s.sys.sealedVariant then 1 else 0, BitVec.ofNat 8 s.seal] ++ leBytes 8 Config.serial.toNat
    ++ leBytes 4 w.ver.toNat ++ leBytes 4 w.crc.toNat ++ leBytes 8 w.sb.clock ++ leBytes 4 w.sb.audit ++ leBytes 4 (w.sb.recSeq + 1)
    ++ leBytes 4 q.frame.toNat ++ (q.nonce.flatMap fun n => leBytes 4 n.toNat) ++ s.payload q
  let c := b ++ leBytes 4 (crc32c b).toNat
  c ++ (List.range 64).map fun i => (Config.sign c).getD i 0

/-- A request takes its values at the sample (R388). -/
def State.takeRequest (s : State) : State :=
  match s.wb.req with
  | some q => if s.wb.taken.isNone then s.modWb fun w => { w with taken := some (s.wbRecord q) } else s
  | none => s

/-- WB_ENERGY_SAMPLE (R369, R370, R373, R382, R388): at 16 kHz. -/
def execWbEnergySample (samples : List (Int × Nat)) (s : State) : Host.Outcome State Fault Refusal :=
  .next (
    if ¬ s.sys.powered then s
    else
      let t := s.takeTable
      let rs := t.wb.table.rs
      let past := overBits 0 samples
      let take (d : Nat) (e : Energy) : Energy :=
        match samples[d]? with
        | some (n, v) => e.take n v (rs.getD d 5000)
        | none => e
      let u := t.modSb fun b => { b with energy := (List.range 7).map fun d => take d (b.energy.getD d ⟨0, 0, (0, 1), (0, 1)⟩) }
      let v := (u.putReg Adr.WB_DOM_STAT 127 past).orReg Adr.WB_DOM_STAT (past * 65536)
      (v.modWb fun w => { w with ran := w.ran || s.ax.toList.any fun a => a.cd.phase != .off }).takeRequest)

/-- WB_RTC_SECOND (R373). -/
def execWbRtcSecond (s : State) : Host.Outcome State Fault Refusal :=
  .next (
    if s.sys.powered then
      (s.modSb fun b => { b with powerS := b.powerS + 1, runS := b.runS + b2n s.wb.ran }).modWb fun w => { w with ran := false }
    else s)

/-! ### Standby (R374–R377, R404) -/

/-- WB_CHECKPOINT (R375, R441): one that does not finish is discarded. -/
def execWbCheckpoint (finished : Bool) (s : State) : Host.Outcome State Fault Refusal :=
  .next (
    if s.sys.powered ∧ finished then
      let t := s.modWb fun w => { w with ckpt := w.sb }
      if s.rb Adr.GCTL_PWR 0 then { t with sys := { t.sys with prepCkpt := true } } else t
    else s)

/-- VAUX and VBAT are both lost (R367, R374): the standby contents fail their check at the next power-up, and the tamper watch starts
anew. -/
def State.loseStandby (s : State) : State :=
  (s.modWb fun w =>
    { w with lostSb := true, away := 0, since0 := 0, since1 := 0, rec0 := none, rec1 := none, tampDue := 131 }).clrReg Adr.WB_STAT 0xC00

/-- VBAT_FALL (R374, R376, R415): the standby contents are lost as soon as VAUX is off too. -/
def execVbatFall (s : State) : Host.Outcome State Fault Refusal :=
  .next (
    let t := s.modWb fun w => { w with vbatLow := true }
    if s.sys.powered then t else t.loseStandby)

/-- The audit counter as the log's newest record has it (R376). -/
def Wb.logAudit (w : Wb) : Nat := (w.log.head?.map fun r => r.audit.toNat).getD 0

/-- WB_STANDBY_CHECK (R376). -/
def execWbStandbyCheck (s : State) : Host.Outcome State Fault Refusal :=
  .next (
    if ¬ s.sys.powered ∨ s.wb.checked then s
    else if s.wb.lostSb then
      let t := s.modWb fun w =>
        { w with sb := { w.ckpt with rtcValid := false, audit := max w.ckpt.audit w.logAudit }, lostSb := false }
      (t.appendLog 4 0 0 0).modWb fun w => { w with checked := true }
    else s.modWb fun w => { w with checked := true })

/-- WB_RTC_GO (R377). -/
def State.wbRtcGo (s : State) (m : Master) : State :=
  if ¬ s.reaches m Adr.WB_CTL 4 then s
  else
    let v := s.reg64 Adr.WB_RTC_SET_LO
    let by' := ((v : Int) - s.wb.sb.rtc).natAbs
    if s.seal ≠ 0 ∧ s.wb.sb.rtcValid ∧ 300 * 32768 < by' then s.orReg Adr.WB_STAT 0x8000
    else s.modWb fun w => { w with rtcSet := some v }

/-- WB_RTC_GO (R377). -/
def execWbRtcGo (m : Master) (s : State) : Host.Outcome State Fault Refusal := .next ((s.noted m Adr.WB_CTL).wbRtcGo m)

/-- 60 s of the clock. -/
def minute : Nat := 60 * 32768

/-- Two bits with bit `i` set to `b`. -/
def withBit (v : BitVec 2) (i : Fin 2) (b : Bool) : BitVec 2 :=
  if b then v ||| BitVec.ofNat 2 (2 ^ i.val) else v &&& ~~~(BitVec.ofNat 2 (2 ^ i.val))

/-- A change of input `i` registers (R379), unless the input is disabled or has not changed (R378). -/
def State.tamper (s : State) (i : Fin 2) (away : Bool) : State :=
  let w := s.wb
  if ¬ w.table.tampEn.getLsbD i ∨ w.away.getLsbD i = away then s
  else
    let inc (n : Nat) : Nat := min (n + 1) 65535
    let t := (s.modSb fun b => if i = 0 then { b with tamp0 := inc b.tamp0 } else { b with tamp1 := inc b.tamp1 }).orReg Adr.WB_STAT (2 ^ (10 + i.val))
    let n := (if i = 0 then w.since0 else w.since1) + 1
    let last := if i = 0 then w.rec0 else w.rec1
    let soon := last.any fun c => decide (c ≤ w.sb.rtc) && decide (w.sb.rtc < c + minute)
    let put (n : Nat) (r : Option Nat) (u : State) : State :=
      u.modWb fun w =>
        let a := withBit w.away i away
        if i = 0 then { w with away := a, since0 := n, rec0 := r } else { w with away := a, since1 := n, rec1 := r }
    if soon then put n last t
    else (put 0 (some w.sb.rtc) t).appendLog 3 (i.val + (if away then 0 else 128)) (wd n) t.wb.sb.tampWord

/-- An edge of the slow clock brings the end of the four samples nearer that judge the inputs against new settings (R378). -/
def State.tamperEdge (s : State) : State :=
  let w := s.wb
  if w.tampDue = 0 ∨ w.lostSb then s
  else
    let t := s.modWb fun w => { w with tampDue := w.tampDue - 1 }
    if w.tampDue ≠ 1 then t
    else t.forAll (allFin 2) fun u i => u.tamper i (w.level.getLsbD i != w.table.tampNorm.getLsbD i)

/-- WB_SLOW_CLOCK_EDGE (R377, R378, R404): the clock, or its setting; the tamper inputs; the copies. -/
def execWbSlowClockEdge (s : State) : Host.Outcome State Fault Refusal :=
  .next (
    if ¬ s.sys.powered then
      (if s.wb.lostSb then s else (s.modSb fun b => { b with rtc := (b.rtc + 1) % 2 ^ 64 }).tamperEdge)
    else
      let t := match s.wb.rtcSet with
        | some v =>
          let old := s.wb.sb.rtc / 32768
          ((s.modSb fun b => { b with rtc := v, rtcValid := true }).modWb fun w => { w with rtcSet := none }).appendLog 5 0 (wd old) (wd (v / 32768))
        | none => s.modSb fun b => { b with rtc := (b.rtc + 1) % 2 ^ 64 }
      t.tamperEdge.modWb fun w =>
        if w.snap then { w with copy := w.sb, snap := false, hold := true }
        else if w.hold then w else { w with copy := w.sb })

/-- SNAP written 1 (R404). -/
def State.wbSnap (s : State) (m : Master) : State := if s.reaches m Adr.WB_CTL 1 then s.modWb fun w => { w with snap := true } else s

/-- WB_SNAP (R404). -/
def execWbSnap (m : Master) (s : State) : Host.Outcome State Fault Refusal := .next ((s.noted m Adr.WB_CTL).wbSnap m)

/-- WB_SNAP_HOLD_END (R404): 10 ms after the edge. -/
def execWbSnapHoldEnd (s : State) : Host.Outcome State Fault Refusal := .next (s.modWb fun w => { w with hold := false })

/-! ### Tamper inputs and the seal (R378–R382) -/

/-- TAMPER_CHANGE (R378, R379): input `i` has been at, or away from, its normal level for four samples. Contents that are lost are not
changed: the input is judged again once they are restored (R376). -/
def execTamperChange (i : Fin 2) (away : Bool) (s : State) : Host.Outcome State Fault Refusal :=
  .next (
    if ¬ s.sys.powered ∧ s.wb.lostSb then s
    else
      let t := s.modWb fun w => { w with level := withBit w.level i (away != w.table.tampNorm.getLsbD i) }
      if s.wb.lostSb then t else t.tamper i away)

/-- An install is refused (R384): the staging slot is discarded, and the record appended. -/
def State.refuseInstall (s : State) (reason : Nat) : State :=
  let v := (s.wb.work.map fun p => p.version).getD 0
  (s.modWb fun w => { w with pkg := none, work := none, inst := 0, reason := reason }).appendLog 2 reason s.wb.ver v

/-- SEAL_PAD_CHANGE (R381, R384). -/
def execSealPadChange (strapped : Bool) (s : State) : Host.Outcome State Fault Refusal :=
  .next (
    if ¬ s.sys.powered ∨ s.wb.pad = strapped then s
    else
      let t := (s.modWb fun w => { w with pad := strapped }).appendLog 7 (b2n strapped) 0 0
      if ¬ strapped ∧ (t.wb.inst = 1 ∨ t.wb.inst = 2) then t.refuseInstall 3 else t)

/-- CFG_IGNORED of WB_STAT (R382, R383). -/
def State.wbIgnored (s : State) : State := s.orReg Adr.WB_STAT 0x4000

/-- WB_TBL_COMMIT.GO written 1 (R382). -/
def State.wbTblCommit (s : State) (m : Master) : State :=
  let (t, go) := s.gate m Adr.WB_TBL_COMMIT 1
  if ¬ go then t else if t.sys.sealedVariant then t.wbIgnored else t.modWb fun w => { w with tblGo := true }

/-- WB_TBL_COMMIT (R382). -/
def execWbTblCommit (m : Master) (s : State) : Host.Outcome State Fault Refusal := .next (s.wbTblCommit m)

/-! ### Installs (R383, R384) -/

/-- INSTALL written 1 (R383): the install takes the package in the staging slot. -/
def State.wbInstall (s : State) (m : Master) : State :=
  if ¬ s.reaches m Adr.WB_CTL 8 then s else if ¬ s.wb.pad ∨ s.wb.inst ≠ 0 then s.wbIgnored
  else s.modWb fun w => { w with inst := 1, work := w.pkg }

/-- WB_INSTALL (R383). -/
def execWbInstall (m : Master) (s : State) : Host.Outcome State Fault Refusal := .next ((s.noted m Adr.WB_CTL).wbInstall m)

/-- The reason why a package is refused at VERIFY (R384), the lowest that holds. -/
def State.verifyReason (s : State) (good : Bool) : Option Nat :=
  match s.wb.work with
  | none => some (if good then 4 else 1)
  | some p =>
    if ¬ good then some 1
    else if (if p.isTable then p.version ≠ s.wb.ver else p.version.toNat ≤ s.wb.ver.toNat) then some 2
    else if (if p.isTable then p.bytes ≠ 512 ∨ ¬ s.sys.sealedVariant else p.bytes < 4096 ∨ 196608 < p.bytes) then some 4
    else none

/-- WB_INSTALL_VERIFY_DONE (R383, R384). -/
def execWbInstallVerifyDone (signatureGood : Bool) (s : State) : Host.Outcome State Fault Refusal :=
  .next (
    if s.wb.inst ≠ 1 then s
    else match s.verifyReason signatureGood with
      | some r => s.refuseInstall r
      | none => s.modWb fun w => { w with inst := 2 })

/-- WB_INSTALL_WRITE_DONE (R383, R384). -/
def execWbInstallWriteDone (good : Bool) (s : State) : Host.Outcome State Fault Refusal :=
  .next (if s.wb.inst ≠ 2 then s else if good then s.modWb fun w => { w with inst := 3 } else s.refuseInstall 5)

/-- The weighing table that a package carries: RS_0–RS_6, MINMOVE, TAMP_EN, TAMP_NORM, each held to its range (R382). -/
def tableOf (l : List Nat) : WbTable :=
  ⟨(List.range 7).map fun d => clampNat 100 100000 (l.getD d 5000), clampNat 1 65535 (l.getD 7 256),
    BitVec.ofNat 2 (l.getD 8 3), BitVec.ofNat 2 (l.getD 9 0)⟩

/-- WB_INSTALL_COMMIT_DONE (R383, R385). -/
def execWbInstallCommitDone (s : State) : Host.Outcome State Fault Refusal :=
  .next (
    if s.wb.inst ≠ 3 then s
    else match s.wb.work with
      | none => s
      | some p =>
        let t := s.modSb fun b => { b with audit := b.audit + 1 }
        let u := if p.isTable then t.setTable (tableOf p.table) else t
        (u.modWb fun w => { w with inst := 4 }).appendLog 1 0 s.wb.ver p.version)

/-- The new image runs from the slot that COMMIT made the active one (R383). -/
def Wb.restarted (w : Wb) : Wb :=
  match w.work with
  | some p => { w with ver := if p.isTable then w.ver else p.version, crc := if p.isTable then w.crc else p.crc, work := none, inst := 0 }
  | none => { w with inst := 0 }

/-- WB_INSTALL_RESTART_DONE (R383). -/
def execWbInstallRestartDone (s : State) : Host.Outcome State Fault Refusal :=
  .next (if s.wb.inst = 4 then s.modWb Wb.restarted else s)

/-- What the loss of VAUX does to the Weighbridge (R374, R383): an install before COMMIT is undone, one after it is taken; requests,
copies and settings that wait are lost; REASON and SEAL_PAD take their reset values (R390), and the inputs are sampled at the standby
rate (R378). -/
def Wb.powerDown (w : Wb) : Wb :=
  let v := if w.inst = 4 then w.restarted else { w with inst := 0, work := none }
  { v with reason := 0, pad := false, tampDue := if w.tampDue = 0 then 0 else 16384, req := none, taken := none,
           record := [], hold := false, snap := false, rtcSet := none, tblGo := false, ran := false,
           checked := false }

/-! ### Signed records (R388) -/

/-- Is a request in range (R388, R389)? -/
def wbReqOk (kind arg : Nat) : Bool := kind == 3 || (kind == 2 && decide (arg ≤ 9)) || ((kind == 1 || kind == 4) && arg == 0)

/-- REQ_GO written 1 (R388). -/
def State.wbReqGo (s : State) (m : Master) : State :=
  if ¬ s.reaches m Adr.WB_CTL 2 then s
  else
    let kind := s.rf Adr.WB_REQ 2 0
    let arg := s.reg Adr.WB_REQ_ARG
    if s.wb.busy ∨ ¬ wbReqOk kind arg.toNat then s.orReg Adr.WB_STAT 0x2000
    else
      let q : WbReq := ⟨kind, arg, (List.range 4).map fun n => s.reg (Adr.WB_NONCE n), wd s.frm.count.toNat⟩
      s.modWb fun w => { w with req := some q, taken := none }

/-- WB_REQ_GO (R388). -/
def execWbReqGo (m : Master) (s : State) : Host.Outcome State Fault Refusal := .next ((s.noted m Adr.WB_CTL).wbReqGo m)

/-- WB_RECORD_READY (R388, R403). -/
def execWbRecordReady (s : State) : Host.Outcome State Fault Refusal :=
  .next (match s.wb.req, s.wb.taken with
    | some q, some b =>
      let t := (s.modSb fun b => { b with recSeq := b.recSeq + 1 }).modWb fun w => { w with req := none, taken := none, record := b }
      let seq := (s.rf Adr.WB_RECSTAT 30 23 + 1) % 256
      t.setReg Adr.WB_RECSTAT (wd (2 ^ 31 + seq * 2 ^ 23 + q.kind))
    | _, _ => s)

end Sys2Proof.Machine
end

