-- ==== Sys2Proof/Machine/Flags.lean ====
section
/-! DEFINITION. What every register of BAR0 reads (R13, R42, R81, R146, R170, R205–R207, R239–R241, R264, R265, R284, R285,
R310–R313, R338–R340, R365, R390, R394, R396, R404, R414, R443, R444): the fields computed from the typed state, over the stored bits of
the register file. -/

namespace Sys2Proof.Machine

/-! ### Putting fields together -/

/-- A word of fields, each a value and the bit it starts at. -/
def pack (l : List (Nat × Nat)) : Word := wd (l.foldl (fun n e => n + e.1 * 2 ^ e.2) 0)

/-- `n` bits of a signed value. -/
def two (n : Nat) (v : Int) : Nat := (BitVec.ofInt n v).toNat

/-- Words that show two 16-bit halves. -/
def halves (hi lo : Nat) : Word := wd (hi % 65536 * 65536 + lo % 65536)

/-- The low or the high word of a 64-bit value. -/
def wordOf (v : Nat) (hi : Bool) : Word := if hi then wd (v / 2 ^ 32) else wd v

/-- The low or the high word of a signed 48-bit value. -/
def word48 (v : Int) (hi : Bool) : Word := if hi then wd (two 48 v / 2 ^ 32) else wd (two 48 v)

/-! ### GCTL_, FRM_ (R414, R241, R443, R42) -/

/-- GCTL_CONSIST (R443). -/
def State.consistWord (s : State) : Word :=
  pack (((List.range 7).map fun u => (s.upd.inForce.getD u 0, 2 * u)) ++
    [(b2n (s.ord.descs.any fun d => d.op == 0x11 && d.stage == .effect), 31)])

/-- GCTL_ (R414, R241, R443), by BAR0 offset. -/
def State.gctlView (s : State) (a : Nat) : Word :=
  if 0x140 ≤ a then s.readyWord ((a - 0x140) / 4)
  else match a with
  | 0x00 => 0x00C00000
  | 0x04 => 0x0100
  | 0x08 => wd (b2n s.sys.sealedVariant)
  | 0x10 => wordOf Config.serial.toNat false
  | 0x14 => wordOf Config.serial.toNat true
  | 0x80 => pack [(b2n s.sys.gateOk, 3), (b2n s.sys.stoActive, 2), (b2n s.sys.stoB, 1), (b2n s.sys.stoA, 0)]
  | 0x100 => pack [(s.sys.cause, 10), (b2n s.sys.fallback, 9), (b2n s.sys.bootSlot, 8), (b2n s.sys.consistBad, 2), (s.sys.cfgsel.toNat, 0)]
  | 0x104 => s.consistWord
  | 0x108 => pack [(b2n s.sys.done, 1)]
  | _ => 0

/-- FRM_ (R42), by offset in the block. -/
def State.frmView (s : State) (o : Nat) : Word :=
  if 0x100 ≤ o ∧ o < 0x160 then (let m := (o - 0x100) / 4; pack [(m, 16), (satU 16 (s.frm.costs.getD m 0), 0)])
  else if 0x30 ≤ o ∧ o ≤ 0x38 then
    pack ((List.range 8).map fun j => (((s.cu.get (Fin.ofNat 25 (8 * ((o - 0x30) / 4) + j))).ofs).toNat, 3 * j))
  else match o with
  | 0x00 => pack [(s.frm.rate.val, 10)]
  | 0x04 => pack [(b2n s.frm.lock, 2)]
  | 0x10 => wordOf s.frm.count.toNat false
  | 0x14 => wordOf s.frm.count.toNat true
  | 0x44 => pack [(b2n s.admBusy, 0)]
  | _ => if 0x60 ≤ o ∧ o < 0x98 then s.loadView ((o - 0x60) / 4) else 0

/-! ### HIF_, ACC_ (R81, R414) -/

/-- The code of a submission ring's state (R60). -/
def SqState.code : SqState → Nat
  | .disabled => 0
  | .running => 1
  | .stalledCheck => 2
  | .stalledGap => 3
  | .fetchWait => 4
  | .error => 5
  | .draining => 6

/-- Ring n's registers, by offset in the ring (R81). -/
def State.ringView (s : State) (q : RingId) (o : Nat) : Word :=
  let r := s.sq.get q
  let c := s.cq.get q
  match o with
  | 0x0C => pack [(r.stall.toNat, 16), (r.lastAc.toNat, 8), (r.state.code, 0)]
  | 0x10 => wd r.fcount.toNat
  | 0x14 => wd (s.rcount q).toNat
  | 0x18 => pack [(r.retryRef.toNat, 24), (r.pcount.toNat, 0)]
  | 0x2C => pack [(satU 16 c.waiting.length, 16), (if c.enabled then (if s.cqFull q then 2 else 1) else 0, 0)]
  | 0x30 => wd c.wcount.toNat
  | 0x34 => wd c.head.toNat
  | _ => 0

/-- HIF_ (R81), by offset in the block. -/
def State.hifView (s : State) (o : Nat) : Word :=
  if 0x100 ≤ o ∧ o < 0x500 then s.ringView (Fin.ofNat 16 ((o - 0x100) / 0x40)) ((o - 0x100) % 0x40)
  else match o with
  | 0x04 => pack [(b2n s.hif.dbPending, 1), (b2n s.hif.linkUp, 0)]
  | 0x2C => pack [(s.eq.dropped, 16), (if s.eq.enabled then (if s.eq.dropped = 0 then 1 else 3) else 0, 0)]
  | 0x30 => wd s.eq.wcount.toNat
  | 0x34 => wd s.eq.head.toNat
  | _ => 0

/-- Have the four key words all been written (R398)? -/
def State.keySet (s : State) : Bool := (List.range 4).all fun k => s.acc.locked.contains (Adr.ACC_SPI_KEY k)

/-- The challenge in force (R398). -/
def State.challenge (s : State) : Nat := if s.keySet then (Config.challenge s.acc.chal).toNat else 0

/-- ACC_ (R414), by offset in the block, as master `m` reads it. -/
def State.accView (s : State) (m : Master) (o : Nat) : Word :=
  match o with
  | 0x00 => pack [(b2n m.admin, 3), (m.code, 0)]
  | 0x20 => wordOf s.challenge false
  | 0x24 => wordOf s.challenge true
  | 0x30 => pack [(s.acc.fails, 4), (b2n s.acc.blocked, 2), (b2n s.keySet, 1), (b2n s.acc.admin, 0)]
  | 0x40 => pack [(s.acc.parity.length, 16)]
  | _ => 0

/-! ### The axis windows (R146, R205, R239, R284, R311, R339) -/

/-- AXn_A_ and AXn_S_ by offset (R146). -/
def TtSet.view (t : TtSet) (qlow o : Nat) : Word :=
  match o with
  | 0x00 => wd t.speed
  | 0x04 => wd t.acc
  | 0x08 => wd t.dec
  | 0x0C => wd t.jacc
  | 0x10 => wd t.jdec
  | 0x14 => pack [(t.jdec / 2 ^ 32, 8), (t.jacc / 2 ^ 32, 0)]
  | 0x18 => wd t.stopDec
  | 0x1C => wd t.qsDec
  | 0x20 => wdI t.limLo
  | 0x24 => wdI t.limHi
  | 0x28 => wd t.vmax
  | 0x2C => pack [(t.cap, 16), (t.shpForm, 12), (t.profile, 8), (t.policy, 0)]
  | 0x30 => pack [(t.shpDamp, 16), (t.shpFreq, 0)]
  | 0x34 => wd qlow
  | _ => 0

/-- Does a staged set of the axis differ from its active set (R129)? -/
def Axis.staged (a : Axis) : Bool := a.act != a.stg || a.coilA != a.coilS || a.sgA != a.sgS || a.fbA != a.fbS

/-- The Timetable's part of an axis window, 0x000–0x0FF (R146). -/
def State.ttView (s : State) (x : AxisId) (o : Nat) : Word :=
  let a := (s.ax.get x).now
  let t := a.tt
  if 0x80 ≤ o ∧ o < 0xC0 then a.stg.view a.qlow (o - 0x80)
  else if 0x40 ≤ o ∧ o < 0x80 then a.act.view a.qlow (o - 0x40)
  else match o with
  | 0x00 =>
    pack [(b2n (t.u0.p == a.act.limHi * 65536), 19), (b2n (t.u0.p == a.act.limLo * 65536), 18),
      (b2n (t.u1.still && !(t.o1.v == 0 && t.o1.p == t.u1.p)), 17), (b2n t.reversing, 16), (b2n a.staged, 9), (b2n t.faulted.isSome, 8), (t.mode.code, 0)]
  | 0x04 => pack [((match s.headOf x with | some d => d.op | none => 0), 8), (s.qdepth x, 0)]
  | 0x08 => wdI (intPart t.o0.p)
  | 0x0C => wd (two 16 t.o0.p)
  | 0x10 => wdI t.o0.v
  | 0x14 => wdI t.shownTarget
  | 0x18 => s.arrive x
  | 0x1C => wd (shaperDelay s.hz t.shaper)
  | _ => 0

/-- AXn_CD_CFG and _SCFG (R205). -/
def CoilSet.view (c : CoilSet) : Word := pack [(c.itrim, 16), (c.idMode, 10), (c.pdEn, 8), (c.card, 0)]

/-- The coil drive's part, 0x100–0x13F (R205). -/
def State.cdView (s : State) (x : AxisId) (o : Nat) : Word :=
  let a := (s.ax.get x).now
  let c := a.cd
  match o with
  | 0x100 => a.coilA.view
  | 0x104 => a.coilS.view
  | 0x108 => pack [(c.rsrc, 10), (c.lsrc, 8), (c.phase.code, 0)]
  | 0x10C => pack [(if c.phase = .holdLow then (s.pool.get (domOf x)).ghNow else (s.pool.get (domOf x)).grNow, 16), (satU 16 (wholeMa c.amp0), 0)]
  | 0x110 => halves (satU 16 c.cb.rhat) (satU 16 c.ca.rhat)
  | 0x114 => halves (satU 16 c.cb.lhat) (satU 16 c.ca.lhat)
  | 0x118 => hiLo (satS 16 (maOf c.cb.ipk)) (satS 16 (maOf c.ca.ipk))
  | 0x11C => hiLo (satS 16 c.cb.d0) (satS 16 c.ca.d0)
  | 0x120 => hiLo (satS 16 (roundDiv c.cb.integ 1000)) (satS 16 (roundDiv c.ca.integ 1000))
  | 0x124 => wd (two 16 c.twind)
  | _ => 0

/-- The code that AXn_BR_STAT.STATE shows for a leg (R239). -/
def Leg.code : Leg → Nat
  | .off => 0
  | .low => 1
  | .pwm _ => 2
  | .high => 2
  | .probe => 2

/-- The code of leg `i`, which a trip holds LOW (R210, R220). -/
def State.legCode (s : State) (x : AxisId) (i : Nat) : Nat :=
  let c := (s.legOf x i).code
  if c = 2 ∧ legBit (s.cu.get (unitOf x)).held (slotOf x).val i then 1 else c

/-- The bridges' part, 0x140–0x17F (R239). -/
def State.brView (s : State) (x : AxisId) (o : Nat) : Word :=
  let b := (s.ax.get x).br
  match o with
  | 0x144 =>
    (match b.wait with
    | some w => pack [(1, 16), (w.next.toNat, 8), (b.mask.toNat, 0)]
    | none => wd b.mask.toNat)
  | 0x148 =>
    pack ([(b.present, 16), (((s.cu.get (unitOf x)).latch.toNat / 2 ^ (4 * (slotOf x).val)) % 16, 8)] ++
      (List.range 4).map fun i => (s.legCode x i, 2 * i))
  | 0x14C => halves b.on.am b.on.ap
  | 0x150 => halves b.on.bm b.on.bp
  | _ => 0

/-- AXn_SG_CFG and _SCFG (R284). -/
def SgSet.view (g : SgSet) : Word := pack [(g.rsel, 4), (g.mode, 0)]

/-- The code of the estimator's state (R275). -/
def SgMode.code : SgMode → Nat
  | .off => 0
  | .unarmed => 1
  | .armed => 2

/-- The code of a method (R284). -/
def SgMethod.code : SgMethod → Nat
  | .none => 0
  | .emf => 1
  | .ripple => 2

/-- The estimator's part, 0x180–0x1BF (R284). -/
def State.sgView (s : State) (x : AxisId) (o : Nat) : Word :=
  let a := (s.ax.get x).now
  let g := a.sg
  match o with
  | 0x180 => a.sgA.view
  | 0x184 => a.sgS.view
  | 0x188 => pack [(b2n g.kappa.isNone, 11), (b2n g.warn, 9), (g.method.code, 4), (g.state.code, 0)]
  | 0x18C => hiLo (satS 16 g.rawA) (satS 16 g.angle)
  | 0x190 => halves (satU 16 g.rawE.toNat) (satU 16 (roundDiv g.filtE 256).toNat)
  | 0x194 => pack [(satU 8 g.rho, 16), (satU 16 g.eexp, 0)]
  | 0x198 => pack [(satU 12 g.dcnt, 16), (satU 8 g.ccnt, 8), (satU 8 g.acnt, 0)]
  | 0x19C => pack [(b2n a.cd.idValid, 16), (min 2048 (intPart g.travel).toNat, 0)]
  | 0x1A0 => wd (satU 16 (s.kappaOf x))
  | _ => 0

/-- AXn_FB_CFG, _NUM, _DEN, _TOL by offset (R311). -/
def FbSet.view (f : FbSet) (o : Nat) : Word :=
  match o with
  | 0 => pack [(f.nc, 16), (f.corr, 8), (f.chan, 0)]
  | 4 => wdI f.num
  | 8 => wd f.den
  | _ => wd f.tol

/-- The step-loss part, 0x1C0–0x1FF (R311). -/
def State.fbView (s : State) (x : AxisId) (o : Nat) : Word :=
  let a := (s.ax.get x).now
  let f := a.fb
  if o < 0x1D0 then a.fbA.view (o - 0x1C0)
  else if o < 0x1E0 then a.fbS.view (o - 0x1D0)
  else match o with
  | 0x1E0 => pack [(two 8 f.lastN, 24), (satU 8 f.ncnt, 8), (b2n f.susp, 2), (b2n f.assoc.isSome, 1)]
  | 0x1E4 => wdI f.err
  | 0x1E8 => wdI (intPart f.pos)
  | 0x1F0 => f.lastFr
  | _ => 0

/-- AXn_GRN (R339). -/
def State.grnView (s : State) (x : AxisId) : Word :=
  let held := (s.headOf x).any fun d => d.stage == .queued && d.held.isSome
  pack [(b2n held, 31), (satU 16 (s.grantNow x), 0)]

/-- An axis window (R392). -/
def State.axView (s : State) (x : AxisId) (o : Nat) : Word :=
  if o < 0x100 then s.ttView x o
  else if o < 0x140 then s.cdView x o
  else if o < 0x180 then s.brView x o
  else if o < 0x1C0 then s.sgView x o
  else if o < 0x200 then s.fbView x o
  else if o = 0x200 then s.grnView x
  else 0

/-! ### The motor cards (R207, R285) -/

/-- A card half as the MCn_ view shows it, from offset 4 (R207, R285). -/
def CardHalf.view (c : CardHalf) (o : Nat) : Word :=
  if 0x100 ≤ o ∧ o < 0x300 then (let m := (o - 0x100) / 2; halves (c.q (m + 1)) (c.q m))
  else match o with
  | 0x04 => pack [(c.cls, 16), (c.irun, 0)]
  | 0x08 => wd c.res25
  | 0x0C => wd c.ind
  | 0x10 => wd c.ke
  | 0x14 => wd c.tcr
  | 0x18 => pack [(c.hfrac, 16), (c.pddelay, 0)]
  | 0x1C => pack [(c.eramp, 16), (c.pdramp, 0)]
  | 0x20 => pack [(c.xmax, 18), (c.dtcBand, 10), (c.fcI, 0)]
  | 0x24 => pack [(c.ffMode, 8), (c.ffDelta, 0)]
  | 0x28 => pack [(c.idfrac, 16), (c.idStill, 0)]
  | 0x2C => pack [(c.twMax, 16), (c.ltol, 8), (c.rtol, 0)]
  | 0x30 => pack [(c.shpForm, 28), (c.shpDamp, 16), (c.shpFreq, 0)]
  | 0x40 => pack [(c.sgVemf, 16), (c.sgVrip, 0)]
  | 0x44 => pack [(c.sgWarn, 16), (c.sgAngle, 0)]
  | 0x48 => pack [(c.sgNr, 16), (c.sgNc, 8), (c.sgN, 0)]
  | 0x4C => pack [(c.sgDetach, 16), (c.sgCollapse, 0)]
  | 0x50 => pack [(c.sgEmin, 16), (c.sgNd, 0)]
  | 0x54 => pack [(c.sgReact, 24), (c.sgFilt, 16), (c.sgKsal, 0)]
  | _ => 0

/-- MCn_ (R207). -/
def State.cardView (s : State) (c : Fin 64) (o : Nat) : Word :=
  let k := s.cards.get c
  if o = 0 then
    let users := s.usersNow c
    let on := users.filter fun x => (s.ax.get x).now.energised
    pack [(satU 8 users.length, 16), (satU 8 on.length, 8), (b2n (k.act != k.stg), 1), (b2n k.act.usable, 0)]
  else k.act.view o

/-! ### The bays and the heavy group (R206, R240, R339, R264, R265) -/

/-- Channel c of a unit: the last codes (R206). -/
def CUnit.raw (u : CUnit) (c : Nat) : Word := pack [(u.peak.getD c 0, 16), (u.valley.getD c 0, 0)]

/-- Four trip counts from leg `l` (R240). -/
def CUnit.trips4 (u : CUnit) (l : Nat) : Word := pack ((List.range 4).map fun i => (satU 8 (u.trips.getD (l + i) 0), 8 * i))

/-- The active copy of a direct-mode set, +0x10 to +0x1C (R240). -/
def BrState.view (b : BrState) (o : Nat) : Word :=
  match o with
  | 0x10 => wd b.per
  | 0x14 => halves b.raw.am b.raw.ap
  | 0x18 => halves b.raw.bm b.raw.bp
  | 0x1C => wd b.code.toNat
  | _ => 0

/-- A bay block, by offset (R206, R240, R339). -/
def State.bayView (s : State) (n : BayId) (o : Nat) : Word :=
  let u := bayUnit n
  let c := s.cu.get u
  if 0x80 ≤ o ∧ o < 0xC0 then c.raw ((o - 0x80) / 4)
  else if 0x140 ≤ o ∧ o < 0x160 then c.trips4 (o - 0x140)
  else if 0x200 ≤ o ∧ o < 0x300 then ((s.ax.get (axisAt u (Fin.ofNat 8 ((o - 0x200) / 0x20)))).br).view (o % 0x20)
  else match o with
  | 0x10 => halves (vmOf u c.vmP) (vmOf u c.vmV)
  | 0x14 => wd (two 16 (c.temps.headD 0))
  | 0x104 => pack [(b2n c.safe, 3)]
  | 0x10C => wd c.commit.toNat
  | 0x114 => wd c.latch.toNat
  | 0x348 => pack [(b2n c.ov, 17), (b2n c.regen, 16), (c.unset.toNat, 0)]
  | _ => 0

/-- The heavy group's registers (R265), by offset in HVY0. -/
def State.grpView (s : State) (o : Nat) : Word :=
  let c := s.cu.get 24
  match o with
  | 0x804 => pack [(b2n (!s.cmp.vghLock.getLsbD 1), 5), (b2n (!s.cmp.vghLock.getLsbD 0), 4), (b2n c.safe, 3)]
  | 0x80C => wd c.latch.toNat
  | 0x810 => halves (vmOf 24 c.vmP / 2) (vmOf 24 c.vmV / 2)
  | 0x814 => wd (two 16 (c.temps.headD 0))
  | _ => 0

/-- A heavy block, by offset (R264). -/
def State.hvyView (s : State) (h : HeavyId) (o : Nat) : Word :=
  let v := s.hv.get h
  let c := s.cu.get 24
  if 0x800 ≤ o then (if h = 0 then s.grpView o else 0)
  else match o with
  | 0x10 => pack ((v.dt, 24) :: (List.range 4).map fun i => (min 63 (v.legs.getD i 0), 6 * i))
  | 0x30 => pack [(v.rel.toNat, 20), (v.low.toNat, 16), (c.latch.toNat / 2 ^ (4 * h.val) % 16, 8)]
  | 0x48 => c.raw (2 * h.val)
  | 0x4C => c.raw (2 * h.val + 1)
  | 0x50 => c.trips4 (4 * h.val)
  | _ => 0

/-! ### Feedback, step inputs, probes, emulation (R310, R170, R312, R313) -/

/-- FBc_, by offset (R310). -/
def State.fbcView (s : State) (c : Fin 24) (o : Nat) : Word :=
  let h := s.fbc.get c
  match o with
  | 0x34 =>
    pack [(b2n h.satHi, 7), (b2n h.satLo, 6), (b2n h.refd, 5), (b2n h.suspect, 4), (b2n h.lost, 3), (b2n h.valid, 0)]
  | 0x3C => word48 h.count false
  | 0x40 => word48 h.count true
  | 0x44 => word48 h.latch false
  | 0x48 => word48 h.latch true
  | 0x4C => word48 h.org false
  | 0x50 => word48 h.org true
  | 0x54 => wdI (satS 32 h.delta)
  | 0x60 => wd (satU 12 h.amp)
  | _ => 0

/-- SD_TRGm_, by offset (R170). -/
def Trig.view (t : Trig) (o : Nat) : Word :=
  match o with
  | 0x00 => pack [(t.source, 8), (b2n t.auto, 4), (t.edge, 2), (t.kind, 0)]
  | 0x04 => if t.kind = 2 then wordOf t.frame.toNat false else wdI t.pos
  | 0x08 => if t.kind = 2 then wordOf t.frame.toNat true else 0
  | 0x0C => pack [(t.fires.toNat, 16), (b2n t.armed, 0)]
  | 0x10 => t.last
  | _ => 0

/-- SD_GRPg_, by offset (R170). -/
def State.groupView (s : State) (g : Fin 32) (o : Nat) : Word :=
  let l := s.grp.get g
  if o = 0x1C then
    pack [((s.ord.descs.filter fun d => d.op == 0x10 && d.active && u8 d.bytes 16 == g.val).length, 16), (l.length, 0)]
  else bitsWord 32 fun b => l.any fun x => x.val == 8 * o + b.val

/-- SD_FOLn_, by offset (R170). -/
def State.folView (s : State) (x : AxisId) (o : Nat) : Word :=
  let a := (s.ax.get x).now
  match o with
  | 0x00 =>
    (match a.fol with
    | some f => pack [(f.idx, 8), (f.mkind, 4), (if f.kind = FollowKind.step then 1 else 2, 0)]
    | none => 0)
  | 0x04 => (match a.fol with | some f => wdI (Int.tdiv f.backlog 65536) | none => 0)
  | 0x0C => (match a.fol with | some f => if f.kind = FollowKind.cam then wdI (floorDiv f.phase 256) else 0 | none => 0)
  | 0x10 => wd a.lagmax
  | _ => 0

/-- The step-input block, by offset from 0x0015_0000 (R170). -/
def State.sdView (s : State) (o : Nat) : Word :=
  if o < 0x200 then
    let p := s.sd.get (Fin.ofNat 16 (o / 0x20))
    match o % 0x20 with
    | 0x04 => pack [(b2n p.opened, 1), (b2n p.opened, 0)]
    | 0x08 => wd p.count.toNat
    | _ => 0
  else if 0x400 ≤ o ∧ o < 0xC00 then (s.trg.get (Fin.ofNat 64 ((o - 0x400) / 0x20))).view (o % 0x20)
  else if 0xC00 ≤ o ∧ o < 0x1000 then s.groupView (Fin.ofNat 32 ((o - 0xC00) / 0x20)) (o % 0x20)
  else if o = 0x1000 then pack [(pointsOf (s.cams Axis.now), 8), (s.camModes, 0)]
  else if 0x2000 ≤ o ∧ o < 0x3900 then s.folView (Fin.ofNat 200 ((o - 0x2000) / 0x20)) (o % 0x20)
  else 0

/-- Probes and emulation, by offset from 0x0015_8000 (R312, R313). -/
def State.prbView (s : State) (o : Nat) : Word :=
  if o < 0x800 then
    if o % 0x80 = 4 then pack [(b2n (s.prb.get (Fin.ofNat 16 (o / 0x80))).level, 3)] else 0
  else if o < 0x900 then
    let e : Fin 4 := Fin.ofNat 4 ((o - 0x800) / 0x40)
    match o % 0x40 with
    | 0x14 => pack [(b2n (s.emuHold e), 0)]
    | 0x18 => wdI (s.emu.get e).count
    | 0x1C => wdI (s.emu.get e).backlog
    | _ => 0
  else 0

/-! ### Comparators, supplies, the Granary (R338, R340) -/

/-- CMP_, by offset (R338). -/
def State.cmpView (s : State) (o : Nat) : Word :=
  let c := s.cmp
  if 0x140 ≤ o ∧ o < 0x178 then bitsWord 32 fun i => c.failed.contains (8 * (o - 0x140) + i.val)
  else match o with
  | 0x04 =>
    pack [(b2n c.sweep.isSome, 31), (satU 9 c.failed.length, 16), ((match c.sweep with | some p => p.1 | none => 0x1FF), 0)]
  | 0xD0 => pack [(b2n (s.cu.get 24).ov, 16), (c.vmHi.toNat, 8), (c.vmLo.toNat, 0)]
  | 0xD8 => pack [(c.railHi.toNat, 16), (c.railLo.toNat, 0)]
  | 0x120 => wd c.brkOn.toNat
  | _ => 0

/-- GRN_, by offset (R340). -/
def State.granView (s : State) (o : Nat) : Word :=
  if o = 0x20 then wd (satU 17 s.modNow)
  else if 0x40 ≤ o ∧ o < 0xB0 then
    let p : Fin 7 := Fin.ofNat 7 ((o - 0x40) / 0x10)
    let q := s.pool.get p
    match o % 0x10 with
    | 0x0 => pack [(if p.val < 6 then q.d else 256, 16), (satU 16 (s.poolAllow p), 0)]
    | 0x4 => pack [(b2n q.isOver, 31), (satU 16 (s.poolNow p), 0)]
    | 0x8 => pack [(q.ghNow, 16), (q.grNow, 0)]
    | _ => 0
  else 0

/-! ### The line, the Weighbridge, updates (R365, R390, R444) -/

/-- The code of LINE_STAT.STATE (R365). -/
def LineMode.code : LineMode → Nat
  | .off => 0
  | .search => 1
  | .locking => 2
  | .joined => 3
  | .isolated => 4

/-- LINE_, by offset (R365). -/
def State.lineView (s : State) (o : Nat) : Word :=
  let l := s.line
  match o with
  | 0x08 =>
    pack [(l.up.toNat, 24), (l.present.toNat, 16), ((stations l.present).length, 12), (l.pos % 8, 8), (l.topo, 6),
      (b2n (l.estop != 0), 5), (b2n l.locked, 4), (l.mode.code, 0)]
  | 0x0C => pack [(two 8 (satS 8 l.trim), 24), (two 16 (satS 16 l.err), 0)]
  | 0x10 => pack [(l.port.val, 31), (satU 16 (l.delayOn l.port), 0)]
  | 0x14 => pack ((List.range 8).map fun i => ((match l.map.getD i none with | some n => 8 + n | none => 0), 4 * i))
  | _ => 0

/-- The weighing table as the WB_TBL_ registers read it (R390): on a GX-192-W the one in force. -/
def WbTable.view (t : WbTable) (o : Nat) : Word :=
  if o < 0x9C then wd (t.rs.getD ((o - 0x80) / 4) 0)
  else pack [(t.tampNorm.toNat, 18), (t.tampEn.toNat, 16), (t.minMove, 0)]

/-- WB_, by offset (R390); the standby values through their copies (R404). -/
def State.wbView (s : State) (o : Nat) : Word :=
  let w := s.wb
  let b := w.copy
  if 0x800 ≤ o ∧ o < 0xE40 then wordOf (b.moves.getD ((o - 0x800) / 8) 0) (o % 8 == 4)
  else if 0x400 ≤ o ∧ o < 0x470 then
    let e := b.energy.getD ((o - 0x400) / 0x10) ⟨0, 0, (0, 1), (0, 1)⟩
    wordOf (if o % 0x10 < 8 then e.eIn else e.eOut) (o % 8 == 4)
  else if 0x200 ≤ o ∧ o < 0x300 then wd (leNat ((w.record.drop (o - 0x200)).take 4))
  else if 0xC0 ≤ o ∧ o < 0xE0 then Config.publicKey ((o - 0xC0) / 4)
  else match o with
  | 0x00 => w.ver
  | 0x04 => w.crc
  | 0x08 =>
    pack [(w.away.toNat, 8), (b2n b.rtcValid, 6), (b2n w.pad, 5), (b2n w.busy, 4), (b2n s.sys.sealedVariant, 2), (s.seal, 0)]
  | 0x0C => pack [(b2n w.snap, 0)]
  | 0x30 => wd b.audit
  | 0x34 => wd w.logNext
  | 0x38 => wd b.recSeq
  | 0x3C => b.tampWord
  | 0x40 => wordOf b.rtc false
  | 0x44 => wordOf b.rtc true
  | 0x50 => wordOf b.powerS false
  | 0x54 => wordOf b.powerS true
  | 0x58 => wordOf b.runS false
  | 0x5C => wordOf b.runS true
  | 0x60 => pack [(w.reason, 24), (w.inst, 0)]
  | _ => 0

/-- UPD_, by offset (R444). -/
def State.updView (s : State) (o : Nat) : Word :=
  let u := s.upd
  if 0x40 ≤ o ∧ o < 0x5C then u.coreVer.getD ((o - 0x40) / 4) 0
  else match o with
  | 0x04 => pack [(b2n u.boot, 16), (u.reason, 8), (u.state, 0)]
  | 0x20 => u.slotA.version
  | 0x24 => u.slotB.version
  | 0x60 => wd u.coreSlot.toNat
  | 0x84 =>
    let cur := (allFin 25).find? fun c => (s.cu.get c).cal.isSome
    pack [((match cur with | some c => c.val | none => 0x1F), 16), (satU 8 u.calFails, 0)]
  | _ => 0

/-! ### The whole map (R391, R394, R396) -/

/-- The fields of the register at `a` that the typed state computes. -/
def State.computed (s : State) (m : Master) (a : Nat) : Word :=
  if a < 0x200 then s.gctlView a
  else if 0x10000 ≤ a ∧ a < 0x20000 then s.frmView (a - 0x10000)
  else if 0x20000 ≤ a ∧ a < 0x30000 then s.hifView (a - 0x20000)
  else if 0x40000 ≤ a ∧ a < 0x50000 then s.accView m (a - 0x40000)
  else if 0x80000 ≤ a ∧ a < 0xB2000 then s.axView (Fin.ofNat 200 ((a - 0x80000) / 0x400)) (a % 0x400)
  else if 0xC0000 ≤ a ∧ a < 0xD0000 then s.cardView (Fin.ofNat 64 ((a - 0xC0000) / 0x400)) (a % 0x400)
  else if 0x100000 ≤ a ∧ a < 0x118000 then s.bayView (Fin.ofNat 24 ((a - 0x100000) / 0x1000)) (a % 0x1000)
  else if 0x120000 ≤ a ∧ a < 0x128000 then s.hvyView (Fin.ofNat 8 ((a - 0x120000) / 0x1000)) (a % 0x1000)
  else if 0x140000 ≤ a ∧ a < 0x146000 then s.fbcView (Fin.ofNat 24 ((a - 0x140000) / 0x400)) (a % 0x400)
  else if 0x150000 ≤ a ∧ a < 0x158000 then s.sdView (a - 0x150000)
  else if 0x158000 ≤ a ∧ a < 0x160000 then s.prbView (a - 0x158000)
  else if 0x160000 ≤ a ∧ a < 0x168000 then s.cmpView (a - 0x160000)
  else if 0x168000 ≤ a ∧ a < 0x170000 then s.granView (a - 0x168000)
  else if 0x180000 ≤ a ∧ a < 0x190000 then s.lineView (a - 0x180000)
  else if 0x1A0000 ≤ a ∧ a < 0x1B0000 then s.wbView (a - 0x1A0000)
  else if 0x1C0000 ≤ a ∧ a < 0x1D0000 then s.updView (a - 0x1C0000)
  else 0

/-- The register at `a` as an admin master reads it; the frame counter has no stored part. -/
def State.fullView (s : State) (m : Master) (a : Nat) : Word :=
  if Adr.ACC_SPI_KEY 0 ≤ a ∧ a < 0x40020 then 0
  else if a = Adr.FRM_COUNT_LO ∨ a = Adr.FRM_COUNT_HI then s.computed m a
  else if s.sys.sealedVariant ∧ Adr.WB_TBL_RS 0 ≤ a ∧ a ≤ Adr.WB_TBL_MISC then s.wb.table.view (a % 0x1000)
  else s.reg a ||| s.computed m a

/-- May a master see the register at `a` (R81, R394)? -/
def State.maySee (s : State) (m : Master) (a : Nat) : Bool :=
  match m with
  | .spiOpen => decide (a < 0x40) || (decide (0x40010 ≤ a) && decide (a < 0x40040))
  | .pf1 => s.pf1Owns a
  | .pf0 => true
  | .spiAdmin => true
  | .supervisor => true

/-- The word that master `m` reads at `a` (R13, R394, R396): PRV fields read zero to an application master. -/
def State.view (s : State) (m : Master) (a : Nat) : Word :=
  if ¬ s.sys.powered ∨ ¬ s.maySee m a then 0
  else if m.admin then s.fullView m a
  else s.fullView m a &&& ~~~(wd (prvOf a))

end Sys2Proof.Machine
end

