-- ==== Sys2Proof/Machine/Consist.lean ====
section
/-! DEFINITION. Consists (R407, R429–R434): what a stored configuration holds, taking it for some units and for the device, capturing
the one in force, CONSIST_SELECT. A Consist is the list of what differs from the reset values. -/

namespace Sys2Proof.Machine

/-- The items of a Consist. -/
abbrev Items := List ConsistItem

/-! ### What it holds (R430) -/

/-- The sets that a Consist gives an axis: Timetable, QLOW, coil, stall, feedback. -/
structure AxisSets where
  tt : TtSet
  qlow : Nat
  coil : CoilSet
  sg : SgSet
  fb : FbSet
  deriving DecidableEq, Repr

/-- One parameter of an axis. -/
def AxisSets.put (a : AxisSets) (p : ParamId) (v : Int) : AxisSets :=
  match p with
  | .tt i => { a with tt := a.tt.put i v }
  | .qlow => { a with qlow := v.toNat }
  | .coil i => { a with coil := a.coil.put i v.toNat }
  | .sg i => { a with sg := a.sg.put i v.toNat }
  | .fb i => { a with fb := a.fb.put i v }
  | .posSet | .grpDef | .trgDisarm | .lagmax | .card _ | .table _ => a

/-- The sets of axis `x`. -/
def axisSets (l : Items) (x : AxisId) : AxisSets :=
  l.foldl (fun a i => match i with
    | .axisParam y id v => if y = x then (match paramOf id with | some p => a.put p v | none => a) else a
    | _ => a) ⟨.reset (heavy x), 0, .reset, .reset, .reset⟩

/-- Card `c`. -/
def cardHalf (l : Items) (c : Fin 64) : CardHalf :=
  l.foldl (fun h i => match i with
    | .cardParam k id v => if k = c then (match paramOf id with | some (.card j) => h.put j v | _ => h) else h
    | .cardTable k m v => if k = c then h.putQ m.val v else h
    | _ => h) .reset

/-- The word of the register at `a`. -/
def consistWordAt (l : Items) (a : Nat) : Word :=
  l.foldl (fun w i => match i with
    | .register b v => if b = a then v else w
    | _ => w) (resetWord a)

/-- The offset codes, by carrier unit (R20). -/
def consistOfs (l : Items) : List (BitVec 3) :=
  ((List.range 24).map fun b => BitVec.ofNat 3 ((consistWordAt l (Adr.FRM_BAYOFS (b / 8))).toNat / 2 ^ (3 * (b % 8)))) ++
    [BitVec.ofNat 3 (fld (consistWordAt l Adr.FRM_CFG) 5 3)]

/-- The registers of a unit's part (R430): those of its bays, or of the heavy blocks, and its VM entry. -/
def unitRegs (d : DomainId) : List Nat :=
  Adr.CMP_VM d ::
  if d.val < 6 then
    (List.range 4).flatMap fun i =>
      let n := 4 * d.val + i
      [Adr.BAY_SMP_CFG n, Adr.BAY_BR_CFG n, Adr.BAY_TRIP_CFG n, Adr.BAY_PROBE_CFG n, Adr.BAY_OV n] ++
        (List.range 16).map fun c => Adr.BAY_WIN n c
  else
    [Adr.HVY_GRP_CFG, Adr.HVY_GRP_TRIP] ++ (List.range 16).map (fun c => Adr.CMP_HWIN c) ++
      (List.range 8).flatMap fun h => [0x00, 0x04, 0x08, 0x0C, 0x18, 0x1C, 0x20, 0x24, 0x28].map fun o => Adr.HVY h + o

/-- The registers of the device's part (R430), but for those that need more than being stored. -/
def deviceRegs : List Nat :=
  (List.range 24).flatMap (fun c =>
    [0x00, 0x04, 0x08, 0x0C, 0x10, 0x14, 0x18, 0x1C, 0x20, 0x24, 0x28, 0x2C, 0x30, 0x64, 0x68].map fun o => Adr.FB c + o) ++
  (List.range 16).map (fun n => Adr.SD_CFG n) ++
  (List.range 16).flatMap (fun q => (List.range 4).map fun k => Adr.PRB_SEL q k) ++
  (List.range 4).flatMap (fun e => [Adr.EMU_NUM e, Adr.EMU_DEN e, Adr.EMU_ZPER e, Adr.EMU_ZREF e]) ++
  [Adr.CMP_CFG, Adr.CMP_TEMP] ++ (List.range 13).map (fun r => Adr.CMP_RAIL r) ++ (List.range 7).map (fun b => Adr.CMP_BRK b) ++
  [Adr.GRN_CFG, Adr.GRN_MOD_ALLOW, Adr.GRN_MOD_BASE, Adr.GRN_TILE_ALLOW, Adr.GRN_HVY_ALLOW, Adr.GRN_MODEL, Adr.GRN_DER]

/-! ### Taking it (R434) -/

/-- An axis takes its sets, both written equal, with the consequences of a commit of every parameter (R107, R175, R275, R300, R434). -/
def State.takeAxis (s : State) (l : Items) (x : AxisId) : State :=
  let n := axisSets l x
  let named := decide ((s.ax.get x).coilA.card ≠ n.coil.card)
  let c := s.takeCoil x n.coil
  let t := (((if named then c.cardNamed x else c).takeTt x n.tt).takeSg x n.sg).takeFb x n.fb
  t.modAx x fun a => { a with stg := n.tt, coilS := n.coil, sgS := n.sg, fbS := n.fb, qlow := n.qlow }

/-- A card takes both halves (R202, R407). -/
def State.takeCardHalf (s : State) (l : Items) (c : Fin 64) : State :=
  (s.modCard c fun k => { k with stg := cardHalf l c }).takeCard c (cardHalf l c)

/-- A register takes its word; a comparator judges a new threshold at once (R318). -/
def State.takeReg (s : State) (l : Items) (a : Nat) : State :=
  let t := s.storeWord .supervisor a (consistWordAt l a)
  if t.reg a = s.reg a then t
  else match cmpOfReg a with
    | some id => t.recheck id
    | none => t

/-- What new settings of a feedback channel bring with them (R286, R295, R297); `o` is the state before. -/
def State.fbTaken (s o : State) (c : Fin 24) : State :=
  let mode := s.fbMode c
  let t := if mode = o.fbMode c then s
    else s.modFbc c fun h => { h with valid := false, check := decide (mode ≠ 0), reval := false }
  let idx := [0x10, 0x14, 0x18, 0x1C, 0x20].any fun i => s.reg (Adr.FB c + i) != o.reg (Adr.FB c + i)
  let u := if idx then t.modFbc c fun h => { h with refd := false, suspect := false } else t
  let v := u.modFbc c fun h => h.limit (u.slMin c) (u.slMax c)
  if (v.fbc.get c).count = (u.fbc.get c).count then v else v.noteNow c

/-- The device's part is taken (R430, R434). -/
def State.takeDevice (s : State) (l : Items) : State :=
  let s1 := s.forAll (allFin 64) fun t c => t.takeCardHalf l c
  let s2 := s1.forAll deviceRegs fun t a => t.takeReg l a
  let s3 := s2.forAll (allFin 24) fun t c => t.fbTaken s c
  let s4 := s3.forAll (allFin 16) fun t q =>
    t.prbCfgWrite .supervisor q (mergeW (consistWordAt l (Adr.PRB_CFG q)) (t.reg (Adr.PRB_CFG q)) 1)
  let s5 := s4.forAll (allFin 4) fun t e =>
    let w := consistWordAt l (Adr.EMU_CFG e)
    if w = t.reg (Adr.EMU_CFG e) then t else (t.clrReg (Adr.EMU_CFG e) 3).emuCfgWrite .supervisor e w
  let s6 := s5.storeWord .supervisor Adr.FRM_ADMIT_CTL (consistWordAt l Adr.FRM_ADMIT_CTL)
  s6.putReg Adr.FRM_CFG 3 (consistWordAt l Adr.FRM_CFG).toNat

/-- The bits of the offset registers that belong to the bays of some units, by register. -/
def ofsMask (units : List DomainId) (n : Nat) : Nat :=
  ((List.range 8).filter fun j => units.any fun d => d.val == (8 * n + j) / 4).foldl (fun m j => m + 7 * 2 ^ (3 * j)) 0

/-- The offsets of some units, staged and in force. -/
def State.takeOfs (s : State) (l : Items) (units : List DomainId) (rate : Fin 4) : State :=
  let s1 := s.forAll (List.range 3) fun t n =>
    t.putReg (Adr.FRM_BAYOFS n) (ofsMask units n) (consistWordAt l (Adr.FRM_BAYOFS n)).toNat
  let s2 := if units.contains 6 then s1.putReg Adr.FRM_CFG 0x38 (consistWordAt l Adr.FRM_CFG).toNat else s1
  let ofs := consistOfs l
  s2.takeRate rate ((allFin 25).map fun u => if units.contains (domOfUnit u) then ofs.getD u 0 else (s.cu.get u).ofs)

/-- The rate that a Consist brings, where its device part is taken; `r` is the one before. -/
def consistRate (l : Items) (dev : Bool) (r : Fin 4) : Fin 4 := if dev then Fin.ofNat 4 (fld (consistWordAt l Adr.FRM_CFG) 1 0) else r

/-- A Consist comes into force for some units, and for the device where `dev` (R434). -/
def State.takeConsist (s : State) (l : Items) (slot : Nat) (units : List DomainId) (dev : Bool) : State :=
  let s1 := s.takeOfs l units (consistRate l dev s.frm.rate)
  let s2 := if dev then s1.takeDevice l else s1
  let s3 := s2.forAll units fun t d => t.forAll (unitRegs d) fun t a => t.takeReg l a
  let s4 := s3.forAll units fun t d => t.forAll (axesOfDom d) fun t x => t.takeAxis l x
  let f := (List.range 7).map fun u => if units.any fun d => d.val == u then slot else s.upd.inForce.getD u 0
  { s4 with
    upd := { s4.upd with inForce := f, devInForce := if dev then slot else s4.upd.devInForce
                         loaded := units.foldl (fun m (d : DomainId) => m ||| BitVec.ofNat 7 (2 ^ d.val)) s4.upd.loaded
                         devLoaded := s4.upd.devLoaded || dev } }

/-- The configuration that admission judges (R30, R434), where `c` results from the earlier requests. -/
def State.consistCfg (s : State) (c : AdmCfg) (l : Items) (units : List DomainId) (dev : Bool) : AdmCfg :=
  let ofs := consistOfs l
  { c with
    rate := consistRate l dev c.rate
    slack := if dev then clampNat 8 50 (fld (consistWordAt l Adr.FRM_ADMIT_CTL) 13 8) else c.slack
    ofs := (allFin 25).map fun u => if units.contains (domOfUnit u) then ofs.getD u 0 else c.ofs.getD u 0
    axes := (allFin 200).map fun x =>
      let l0 := c.axes.getD x.val ⟨0, 0, 0, 0, 0, false, false⟩
      if units.contains (domOf x) then ((s.ax.get x).loadTt l0 (axisSets l x).tt).withFb (axisSets l x).fb else l0 }

/-- The items of a slot; a bad slot has none (R431). -/
def State.slotItems (s : State) (n : Nat) : Option Items := s.upd.consists.getD n none

/-- The items that R407 reloads from: the Consist in force, or the reset values where none was loaded (R432). -/
def State.forceItems (s : State) (loaded : Bool) (n : Nat) : Items := if loaded then (s.slotItems n).getD [] else []

/-- A corrected axis reloads its sets (R407). -/
def State.reloadAxis (s : State) (x : AxisId) : State :=
  s.takeAxis (s.forceItems (s.upd.loaded.getLsbD (domOf x).val) (s.upd.inForce.getD (domOf x) 0)) x

/-- A card reloads both halves (R407). -/
def State.reloadCard (s : State) (c : Fin 64) : State := s.takeCardHalf (s.forceItems s.upd.devLoaded s.upd.devInForce) c

/-! ### The configuration in force (R431) -/

/-- The parameters of a Timetable set, by offset from 0x0100. -/
def TtSet.vals (t : TtSet) : List Int :=
  [t.speed, t.acc, t.dec, t.jacc, t.jdec, t.stopDec, t.qsDec, t.limLo, t.limHi, t.vmax, t.policy, t.profile, t.shpForm, t.shpFreq,
    t.shpDamp, t.cap]
/-- The parameters of a coil set. -/
def CoilSet.vals (c : CoilSet) : List Int := [c.card, c.itrim, c.pdEn, c.idMode]
/-- The parameters of a stall set. -/
def SgSet.vals (g : SgSet) : List Int := [g.mode, g.rsel]
/-- The parameters of a feedback set. -/
def FbSet.vals (f : FbSet) : List Int := [f.chan, f.corr, f.num, f.den, f.tol, f.nc]
/-- The parameters of a card, by offset from 0x0400. -/
def CardHalf.vals (c : CardHalf) : List (Nat × Nat) :=
  ([c.cls, c.res25, c.ind, c.ke, c.tcr, c.irun, c.hfrac, c.pddelay, c.pdramp, c.eramp, c.fcI, c.xmax, c.dtcBand, c.ffMode, c.ffDelta,
    c.idfrac, c.rtol, c.ltol, c.twMax, c.idStill, c.shpForm, c.shpFreq, c.shpDamp].zipIdx.map fun (v, i) => (i, v)) ++
  [c.sgVemf, c.sgVrip, c.sgAngle, c.sgN, c.sgNr, c.sgWarn, c.sgCollapse, c.sgNc, c.sgEmin, c.sgDetach, c.sgNd, c.sgFilt, c.sgKsal,
    c.sgReact].zipIdx.map fun (v, i) => (i + 0x20, v)

/-- The values of a list that differ from another, with their ids from `base`. -/
def differing (base : Nat) (v r : List Int) : List (Nat × Int) :=
  ((v.zip r).zipIdx.filter fun e => e.1.1 != e.1.2).map fun e => (base + e.2, e.1.1)

/-- What an axis' active sets differ in from reset. -/
def State.axisItems (s : State) (x : AxisId) : Items :=
  let a := s.ax.get x
  (differing 0x100 a.act.vals (TtSet.reset (heavy x)).vals ++ differing 0x111 [(a.qlow : Int)] [0] ++
    differing 0x300 a.coilA.vals CoilSet.reset.vals ++ differing 0x500 a.sgA.vals SgSet.reset.vals ++
    differing 0x600 a.fbA.vals FbSet.reset.vals).map fun e => .axisParam x e.1 e.2

/-- What a card's active half differs in from reset. -/
def State.cardItems (s : State) (c : Fin 64) : Items :=
  let h := (s.cards.get c).act
  (((h.vals.zip CardHalf.reset.vals).filter fun e => e.1 != e.2).map fun e => .cardParam c (0x400 + e.1.1) e.1.2) ++
    h.table.map fun e => .cardTable c (Fin.ofNat 256 e.1) e.2

/-- The offsets and the rate in force, as the FRM_ registers would stage them. -/
def State.frmItems (s : State) : Items :=
  let word (n : Nat) : Nat := (List.range 8).foldl (fun m j => m + (s.cu.get (Fin.ofNat 25 (8 * n + j))).ofs.toNat * 2 ^ (3 * j)) 0
  ((List.range 3).map fun n => .register (Adr.FRM_BAYOFS n) (wd (word n))) ++
    [.register Adr.FRM_CFG (wd (s.frm.rate.val + 8 * (s.cu.get 24).ofs.toNat)),
      .register Adr.FRM_ADMIT_CTL (s.reg Adr.FRM_ADMIT_CTL)]

/-- The whole configuration in force (R431). -/
def State.captureItems (s : State) : Items :=
  let regs := (allFin 7).flatMap unitRegs ++ deviceRegs ++ (List.range 16).map (fun q => Adr.PRB_CFG q) ++
    (List.range 4).map fun e => Adr.EMU_CFG e
  (allFin 200).flatMap s.axisItems ++ (allFin 64).flatMap s.cardItems ++ s.frmItems ++
    ((regs.filter fun a => s.reg a != resetWord a).map fun a => .register a (s.reg a))

/-! ### CONSIST_SELECT (R433, R434) -/

/-- The units that a CONSIST_SELECT names. -/
def Desc.units (d : Desc) : List DomainId := (allFin 7).filter fun u => (BitVec.ofNat 8 (u8 d.bytes 17)).getLsbD u.val

/-- R, the frames of a slot read (R434). -/
def State.slotFrames (s : State) : Nat := (2 * s.hz + 999) / 1000

/-- The lowest axis of some units that is neither parked nor DISABLED (R433, R478). -/
def State.notParked (s : State) (units : List DomainId) : Option AxisId :=
  (allFin 200).find? fun x =>
    let a := s.ax.get x
    units.contains (domOf x) && !(a.isParked || (a.tt.mode == .disabled && !a.energised))

/-- A CONSIST_SELECT at the tick that begins its frame of effect: the mask and axis rows, then the read (R433). -/
def State.consistEffect (s : State) (d : Desc) : State :=
  let m := u8 d.bytes 17
  if m = 0 ∨ 128 ≤ m then s.later d 4 7 17
  else match s.notParked d.units with
    | some x => s.later d 5 17 (wd x.val)
    | none => s.modDesc d.acc fun e => { e with slotEnd := d.eff + BitVec.ofNat 64 (s.slotFrames - 1) }

/-- CONSIST_SELECT (R433, R434): one behind another waits. -/
def execConsistSelect (d : Nat) (s : State) : Host.Outcome State Fault Refusal :=
  .next (
    if s.ord.descs.any fun e => e.op == 0x11 && e.stage == .effect then s
    else s.withEffect d (· == 0x11) fun t _ => t)

/-- CONSIST_SLOT_READ_END (R433, R434): a bad slot ends it, else admission is asked. -/
def execConsistSlotReadEnd (d : Nat) (s : State) : Host.Outcome State Fault Refusal :=
  .next (
    match s.desc? d with
    | none => s
    | some e =>
      let asked := s.frm.adm.any fun r => match r.kind with | .consist n => n == d | _ => false
      if e.op ≠ 0x11 ∨ e.stage ≠ .effect ∨ ¬ e.begun ∨ e.out.isSome ∨ ¬ frameLe e.slotEnd s.frm.count ∨ asked then s
      else match s.slotItems (u8 e.bytes 16) with
        | none => s.finish e 5 16 0 s.frm.count
        | some _ => s.ask (.consist d) s.frm.count)

end Sys2Proof.Machine
end

