-- ==== Sys2Proof/Machine/Heavy.lean ====
section
/-! DEFINITION. The heavy axes (R242–R265): bootstraps, gate supplies, VDS, hard limits, gate feedback, and what a valley brings
them: the dead times of the edges and the bootstrap refreshes. -/

namespace Sys2Proof.Machine

/-- Set a bit of HVYh_STAT. -/
def State.hvStat (s : State) (h : HeavyId) (mask : Nat) : State := s.orReg (Adr.HVY_STAT h) mask

/-! ### Bootstraps (R251–R254) -/

/-- BOOTSTRAP_RELEASE (R254): all four bootstraps have risen through 8.6 V; step 1 begins in the next frame. -/
def execBootstrapRelease (h : HeavyId) (s : State) : Host.Outcome State Fault Refusal :=
  .next (
    let x := hvAxis h
    match (s.ax.get x).cd.seq with
    | some q =>
      if q.boot ∧ (s.ax.get x).cd.phase = .energising then
        (s.modHv h fun v => { v with rel := 0xF }).modCd x fun c =>
          { c with seq := some { q with boot := false, start := s.frm.count + 1 } }
      else s
    | none => s)

/-- The first leg whose bootstrap has not released. -/
def HvState.unreleased (v : HvState) : Nat := ((List.range 4).find? fun i => !v.rel.getLsbD i).getD 0

/-- BOOTSTRAP_RELEASE_TIMEOUT (R254): 40 frames without all four released. -/
def execBootstrapReleaseTimeout (h : HeavyId) (s : State) : Host.Outcome State Fault Refusal :=
  .next (
    let x := hvAxis h
    match (s.ax.get x).cd.seq with
    | some q =>
      if q.boot ∧ (s.ax.get x).cd.phase = .energising ∧ 40 ≤ s.since q.start then
        (s.bridgeFaulted x 26).raise 26 x.val (wd ((s.hv.get h).unreleased + 256)) 40
      else s
    | none => s)

/-- BOOTSTRAP_UNDERVOLTAGE (R254): a bootstrap falls through 8.0 V while its high side is on. -/
def execBootstrapUndervoltage (leg : Fin 32) (s : State) : Host.Outcome State Fault Refusal :=
  .next (
    let (h, i) := heavyLeg leg
    let x := hvAxis h
    if (s.ax.get x).energised then
      ((s.modHv h fun v => { v with rel := v.rel &&& ~~~(BitVec.ofNat 4 (2 ^ i)) }).bridgeFaulted x 26).raise 26 x.val (wd i) 0
    else s)

/-! ### Gate supplies (R255) -/

/-- GATE_SUPPLY_FALL (R255): a heavy gate supply falls through 8.0 V. While STO is active, a fall with STO_A low is caused by STO_A, which
disables the supply (R230). -/
def execGateSupplyFall (r : Fin 2) (s : State) : Host.Outcome State Fault Refusal :=
  .next (
    if ¬ s.sys.powered ∨ s.cmp.vghLock.getLsbD r then s
    else
      let bit := BitVec.ofNat 2 (2 ^ r.val)
      let s1 := { s with cmp := { s.cmp with vghLock := s.cmp.vghLock ||| bit } }
      if s.sys.stoActive ∧ ¬ s.sys.stoA then s1
      else
        let (s2, n) := ({ s1 with cmp := { s1.cmp with vghFell := s1.cmp.vghFell ||| bit } }).faultEnergised (axesOf 24) 27
        s2.raise 27 (0x170 + r.val) (wd r.val) (wd n))

/-- GATE_SUPPLY_RELEASE (R255): it rises through 8.6 V. -/
def execGateSupplyRelease (r : Fin 2) (s : State) : Host.Outcome State Fault Refusal :=
  .next (
    let bit := BitVec.ofNat 2 (2 ^ r.val)
    { s with cmp := { s.cmp with vghLock := s.cmp.vghLock &&& ~~~bit, vghFell := s.cmp.vghFell &&& ~~~bit } })

/-! ### Detectors (R250, R257, R258) -/

/-- VDS_DETECTION (R257): the VDS of a switch is above its threshold, so many clocks after its turn-on began; on the clock of the
detection before, the leg was still on (R259). -/
def execVdsDetection (leg : Fin 32) (low : Bool) (clk : Detected Nat) (s : State) : Host.Outcome State Fault Refusal :=
  .next (
    let (h, i) := heavyLeg leg
    let x := hvAxis h
    let mode := s.rf (Adr.HVY_VDS_CFG h) 17 16
    let d0 := i + 256 * b2n low
    if ¬ s.sys.powered ∨ mode = 0 ∨ (¬ clk.same ∧ legBit (s.cu.get 24).latch h.val i) then s
    else
      let s1 := (s.keepHighs clk.same x).hvStat h 8
      if mode = 1 then
        if (s.hv.get h).vdsSeen.getLsbD i then s1
        else (s1.raise 24 x.val (wd (d0 + 65536)) (wd clk.val)).modHv h fun v => { v with vdsSeen := v.vdsSeen ||| BitVec.ofNat 4 (2 ^ i) }
      else ((s1.latchLegs x [i]).bridgeFaulted x 24).raise 24 x.val (wd d0) (wd clk.val))

/-- HARD_OVERCURRENT (R258): a sense channel's code is TH steps or more from mid-scale; of detections on one clock, R259. -/
def execHardOvercurrent (c : Fin 16) (code : Detected Nat) (s : State) : Host.Outcome State Fault Refusal :=
  .next (
    let (x, b) := coilOf 24 c
    let h := slotOf x
    let legs := coilLegs b
    if ¬ s.sys.powered ∨ ((code.val : Int) - 2048).natAbs < s.rf (Adr.HVY_HOC h) 10 0 then s
    else
      ((((s.keepHighs code.same x).hvStat h 2).latchLegs x legs).bridgeFaulted x 30).raise 30 x.val (wd (256 * b2n b + 65536)) (wd code.val))

/-- GATE_FEEDBACK_MISMATCH (R250), of a leg that is latched too; of detections on one clock, R259. -/
def execGateFeedbackMismatch (leg : Fin 32) (low : Bool) (kind : Detected (Fin 4)) (s : State) : Host.Outcome State Fault Refusal :=
  .next (
    let (h, i) := heavyLeg leg
    let x := hvAxis h
    if ¬ s.sys.powered then s
    else
      ((((s.keepHighs kind.same x).hvStat h 4).latchLegs x [i]).bridgeFaulted x 29).raise 29 x.val
        (wd (i + 256 * b2n low + 65536 * kind.val.val)) 0)

/-! ### Dead times (R246–R249) -/

/-- One edge of the frame `fr` that has ended: its applied dead time, and its fallback with DEADTIME_ADAPT_LIMIT, which belongs to that
frame and to its window (R247–R249). -/
def State.heavyEdge (s : State) (fr : FrameNo) (e : HeavyEdge) : State × Nat :=
  let (h, i) := heavyLeg e.leg
  let x := hvAxis h
  let c := (s.ax.get x).cd
  let iexp := (if i < 2 then c.ca else c.cb).iexp1
  let (t, fb) := s.edgeTime h (edgeClass iexp (s.rf (Adr.HVY_DT_BAND h) 15 0) i e.fall) e.node
  let applied := max t e.gate
  let here := !newWindow 4096 fr s.frm.count
  let s1 := match fb with
    | none => s
    | some k =>
      let s2 := (s.incReg (Adr.HVY_DT_FBCNT h)).hvStat h 1
      if (if here then (s.hv.get h).fbSeen else (s.hv.get h).fbOld).getLsbD i then s2
      else
        (s2.raiseAt fr 28 x.val (wd (i + 256 * k)) (match e.node with | some n => wd n | none => 0xFFFFFFFF)).modHv h fun v =>
          if here then { v with fbSeen := v.fbSeen ||| BitVec.ofNat 4 (2 ^ i) } else { v with fbOld := v.fbOld ||| BitVec.ofNat 4 (2 ^ i) }
  (s1.modHv h fun v => { v with legs := v.legs.set i (min 63 applied) }, applied)

/-- The edges of the frame `fr` that has ended, and the dead time in force on each axis (R249). -/
def State.heavyEdges (s : State) (fr : FrameNo) (es : List HeavyEdge) : State :=
  let (s1, times) := es.foldl (fun (t, l) e => let (u, n) := t.heavyEdge fr e; (u, l ++ [(e, n)])) (s, [])
  s1.forAll (allFin 8) fun t h =>
    let mine := times.filter fun p => (heavyLeg p.1.leg).1 == h
    let dt := if mine = [] then t.rf (Adr.HVY_DT_CFG h) 17 12
      else (roundDiv (mine.foldl (fun n p => n + p.2) 0 : Nat) mine.length).toNat
    t.modHv h fun v => { v with dt := dt, edges := mine }

/-! ### Bootstrap refresh (R252) -/

/-- Would a leg be low for at least 60 clocks from the valley, in the frame that begins? -/
def State.lowAtValley (s : State) (x : AxisId) (i : Nat) : Bool :=
  s.legOf x i != .off && (s.placed x i).all fun e => decide (60 ≤ e.1)

/-- Legs of heavy axis `h` that get a refresh in the frame that begins (R252); a WARN code above 11 asks for one at every valley (R251). -/
def State.refreshLegs (s : State) (h : HeavyId) (warn : BitVec 32) : List Nat :=
  (List.range 4).filter fun i =>
    (warn.getLsbD (4 * h.val + i) || decide (11 < s.rf (Adr.HVY_BOOT_CFG h) 3 0)) && s.legOf (hvAxis h) i != .off &&
      !s.lowAtValley (hvAxis h) i

/-- t_d of a refresh (R252): the dead time of its fall, which came with the valley; where none came, no node crossing was seen. -/
def State.refreshDead (s : State) (h : HeavyId) (i : Nat) (es : List HeavyEdge) : Nat :=
  let leg : Fin 32 := Fin.ofNat 32 (4 * h.val + i)
  (s.edgeNow ((es.find? fun e => e.leg == leg && e.fall).getD ⟨leg, true, none, 0⟩)).2

/-- One refresh: placed at the valley, counted, and told once per leg and window. -/
def State.refresh (s : State) (h : HeavyId) (i : Nat) (es : List HeavyEdge) : State :=
  let td := s.refreshDead h i es
  let s1 := (s.modHv h fun v => { v with fresh := v.fresh ||| BitVec.ofNat 4 (2 ^ i), freshDt := v.freshDt.set i td }).incReg
    (Adr.HVY_BOOT_RFCNT h)
  if (s.hv.get h).rfSeen.getLsbD i then s1
  else
    (s1.raise 25 (hvAxis h).val (wd i) (s1.reg (Adr.HVY_BOOT_RFCNT h))).modHv h fun v =>
      { v with rfSeen := v.rfSeen ||| BitVec.ofNat 4 (2 ^ i) }

/-- What a valley of the heavy group takes over: the gate profiles (R244); no refresh has begun. -/
def State.heavyValley (s : State) : State :=
  s.forAll (allFin 8) fun t h =>
    t.modHv h fun v => { v with fresh := 0, gpOn := t.reg (Adr.HVY_GP_ON h), gpOff := t.reg (Adr.HVY_GP_OFF h) }

/-- The bootstrap comparators as the valley finds them (R251). -/
def State.bootstraps (s : State) (warn rel : BitVec 32) : State :=
  s.forAll (allFin 8) fun t h =>
    t.modHv h fun v =>
      { v with low := BitVec.ofNat 4 (warn.toNat / 16 ^ h.val), rel := BitVec.ofNat 4 (rel.toNat / 16 ^ h.val) }

end Sys2Proof.Machine
end

