-- ==== Sys2Proof/Machine/Samples.lean ====
section
/-! DEFINITION. The two instants of a carrier unit (R21, R24): BAY_PEAK_SAMPLE, with the coil window (R174–R179, R191, R235), and
BAY_SHADOW_LOAD, with the shadow transfers (R209, R216–R219), the masks (R226, R227), the estimator and offset tracking (R195). -/

namespace Sys2Proof.Machine

/-! ### Samples (R193–R197) -/

/-- Do the unit's carriers run: powered, the first tick come, no outage (R18, R19)? -/
def State.carriers (s : State) : Bool := s.sys.powered && s.frm.started && s.frm.outage.isNone

/-- Is a code saturated (R197)? -/
def saturated (code : Nat) : Bool := code == 0 || code == 4095

/-- The sampled currents of a unit, 1/64 mA. -/
def State.currents (s : State) (u : CarrierId) (codes : List Nat) : List Int :=
  (List.range 16).map fun c => s.current u c (codes.getD c 0)

/-- A sample of a coil was substituted: the flags of R196. -/
def State.substituted (s : State) (x : AxisId) : State :=
  let s1 := s.orReg (Adr.AX_CD_STAT x) (2 ^ 18)
  if heavy x then s1 else s1.orReg (Adr.BAY_SMP_STAT (unitOf x)) 1

/-- Apply `f` to one coil of axis `x`. -/
def State.modCoil (s : State) (x : AxisId) (b : Bool) (f : Coil → Coil) : State :=
  s.modCd x fun c => if b then { c with cb := f c.cb } else { c with ca := f c.ca }

/-- One coil's peak sample (R193, R196, R197). -/
def State.takePeak (s : State) (x : AxisId) (b : Bool) (code : Nat) : State :=
  let p := s.nClk / 2
  if (coilLegs b).any fun i => s.edgeIn x i (p - 50) (p + 10) then (s.substituted x).modCoil x b fun c => { c with badP := true }
  else
    let i := s.current (unitOf x) (chanOf x b) code
    s.modCoil x b fun c => { c with ipk := i, badP := saturated code }

/-! ### Counts of the coil window (R187, R188, R191, R235) -/

/-- The unit's own frame at its peak: the frame in progress, or the one before for a late unit (R21). -/
def State.unitFrame (s : State) (u : CarrierId) : FrameNo := if s.lateUnit u then s.frm.count - 1 else s.frm.count

/-- The amplitude phase of the unit's own frame. -/
def State.unitPhase (s : State) (x : AxisId) : Phase :=
  let c := (s.ax.get x).cd
  if s.lateUnit (unitOf x) then c.phase1 else c.phase

/-- The open-load count of a coil (R235, R242). -/
def State.openStep (s : State) (x : AxisId) (b : Bool) : State :=
  let u := unitOf x
  let ch := chanOf x b
  let big : Int := if heavy x then s.steps u ch 64 else 6144
  let small : Int := if heavy x then s.steps u ch 8 else 768
  s.modCoil x b fun c =>
    if big ≤ c.iexp.natAbs then
      { c with openCnt := if (c.ipk.natAbs : Int) < small then (if c.openCnt = 65 then 65 else min 64 (c.openCnt + 1)) else 0 }
    else c

/-- A frame joins the sums of R187, unless a sample of it was substituted or saturated. -/
def Coil.addR (c : Coil) : Coil :=
  if c.badV || c.badP then c else { c with sumV := c.sumV + (c.v0 - c.dtc0), sumI := c.sumI + (c.iv + c.ipk) }

/-- A frame of IDENT_L joins the sum of R188: `ton` in ns, `vm` in mV, `least` eight steps in 1/64 mA. -/
def Coil.addL (c : Coil) (ton vm : Nat) (least : Int) : Coil :=
  let di := c.ipk - c.iv
  if c.badV || c.badP || decide (di < least) || decide (di ≤ 0) then c
  else
    let num := ((128000 * vm : Nat) - ((c.rMeas.getD 0 : Nat) : Int) * (c.iv + c.ipk)) * ton * 65536
    { c with sumL := c.sumL + roundDiv num (2000000 * di.natAbs), cntL := c.cntL + 1 }

/-- t_on of R188 in ns. -/
def State.identTon (s : State) (x : AxisId) : Nat := (s.nClk / 2 - s.deadClocks x) * 5 - 600

/-- The sums of a running IDENT (R187, R188). R188 leaves open which sample of a frame gives VMk: it is the peak sample (DESIGN CHOICE, log
entry 242). -/
def State.identStep (s : State) (x : AxisId) : State :=
  match (s.ax.get x).cd.seq with
  | none => s
  | some q =>
    let u := unitOf x
    let i := (s.unitFrame u - q.start).toNat
    match s.unitPhase x with
    | .identR => if s.stepFrames 2 / 2 ≤ i ∧ i < s.stepFrames 2 then s.modCd x fun c => c.both Coil.addR else s
    | .identL =>
      if i < 64 then
        let ton := s.identTon x
        let vm := s.peakVm u
        s.modCd x fun c =>
          { c with ca := c.ca.addL ton vm (s.steps u (chanOf x false) 8), cb := c.cb.addL ton vm (s.steps u (chanOf x true) 8) }
      else s
    | _ => s

/-- Does a frame meet the standstill conditions (R191)? -/
def Axis.standsStill (a : Axis) (ph : Phase) : Bool :=
  a.tt.mode == .hold && a.tt.o0.v == 0 && a.tt.o0.p == a.tt.o1.p && a.cd.seq.isNone && a.now.coilA.idMode == 0 &&
    (ph == .pdWait || ph == .holdLow)

/-- The standstill window (R191). -/
def State.stillStep (s : State) (x : AxisId) : State :=
  let a := s.ax.get x
  let c := a.cd
  let ph := s.unitPhase x
  let k := s.cardOf x
  if ¬ a.standsStill ph ∨ k.idStill = 0 then (if c.still = 0 then s else s.modCd x fun c => { c with still := 0 })
  else if c.still = 256 then s
  else if c.still = 0 ∨ c.stillLow ≠ (ph == .holdLow) then
    if k.idStill * s.hz ≤ s.since c.stillAt ∧ c.still = 0 then
      s.modCd x fun c => { (c.both Coil.zeroSums).both Coil.addR with still := 1, stillLow := ph == .holdLow }
    else s.modCd x fun c => { c with still := 0 }
  else
    let amp := if s.lateUnit (unitOf x) then c.amp1 else c.amp0
    let small (k : Coil) : Bool := decide (4 * k.iexp.natAbs < amp.natAbs)
    s.modCd x fun c => { c.both Coil.addR with still := c.still + 1, smallA := small c.ca, smallB := small c.cb }

/-! ### The coil window (R174–R179, R211, R216) -/

/-- Write an axis' shadow set with its commit (R216): a light axis' set is its BAYn_DSj_ words. `ident`: its pulses lie in the pattern of
IDENT_L (R188). -/
def State.setShadow (s : State) (x : AxisId) (o : Ons) (code : BitVec 8) (ident : Bool) : State :=
  if heavy x then s.modBr x fun b => { b with shOn := o, shCode := code, shCommit := true, shIdent := ident }
  else
    let a := Adr.BAY_DS (unitOf x) (slotOf x)
    ((((s.setReg a (wd s.nClk)).setReg (a + 4) (wd (o.ap + 65536 * o.am))).setReg (a + 8) (wd (o.bp + 65536 * o.bm))).setReg (a + 12)
      (wd code.toNat)).modBr x fun b => { b with shCommit := true, shIdent := ident }

/-- A coil whose legs the duty equation does not drive in the next frame. -/
def Coil.undriven (c : Coil) : Coil :=
  { c with iexp1 := c.iexp, iexp := 0, dNext := 0, clampNext := false, dtcN := 0, effN := 0, vN := 0 }

/-- A coil takes the result of its duty equation. -/
def Coil.takeDuty (c : Coil) (o : DutyOut) : Coil :=
  { c with iexp1 := c.iexp, iexp := o.im, dNext := o.d, clampNext := o.clamped, dtcN := o.dtc, effN := o.eff, vN := o.v, integ := o.integ }

/-- Is a phase one in which integration is not allowed (R178)? -/
def Phase.ramping : Phase → Bool
  | .energising => true
  | .identR => true
  | .identL => true
  | .off => false
  | .run => false
  | .pdWait => false
  | .pdRamp => false
  | .holdLow => false

/-- The duty equation of both coils of axis `x` in its coil window (R174). -/
def State.dutyStep (s : State) (x : AxisId) (g : Drive) : State :=
  let u := unitOf x
  let card := s.cardOf x
  let f := s.hz
  let dp := g.q1 - g.q0
  let ramping := (s.unitPhase x).ramping
  let delta := s.deltaOf x (omegaOf f dp)
  let fresh := g.stage.phase == .energising && g.stage.final && (s.unitFrame u + 1 == g.stage.start)
  let one (t : State) (b : Bool) : State × DutyOut :=
    let c := (t.ax.get x).cd
    let k := if b then c.cb else c.ca
    let k0 := if fresh then { k with integ := 0 } else k
    let free := (Config.freeWord t.free).toInt
    let o := coilDuty card k0 g (if b then micro 256 else 0) delta f (t.peakVm u) (t.deadClocks x) ramping (t.regenBlocked u) free
    let t1 := if o.free then t.drawFree.2 else t
    let t2 := t1.modCoil x b fun c => c.takeDuty o
    (if o.clamped then t2.orReg (Adr.AX_CD_STAT x) (2 ^ (if b then 17 else 16)) else t2, o)
  let (s1, oa) := one s false
  let (s2, ob) := one s1 true
  let s3 := if oa.clamped || ob.clamped then s2.incReg (Adr.AX_CD_SATCNT x) else s2
  let s4 := s3.modCd x fun c => { c with thN := midOf g.q0 dp, dpN := dp }
  s4.setShadow x (onsOf oa.d ob.d s.nClk) 0xAA false

/-- The coil window of one axis: duties, on-times and the commit for the next load (R174, R188, R211, R216, R254). -/
def State.coilWindow (s : State) (x : AxisId) : State :=
  if s.direct x then s
  else
    let g := s.driveOf x
    let rest (t : State) : State := t.modCd x fun c => { c.both Coil.undriven with thN := g.q0, dpN := 0 }
    match g.stage.phase with
    | .off => (rest s).setShadow x ⟨0, 0, 0, 0⟩ 0 false
    | .identL =>
      let h := s.nClk / 2 - 120
      (rest s).setShadow x ⟨h, h, h, h⟩ 0xAA true
    | _ =>
      let next : FrameNo := s.unitFrame (unitOf x) + 1
      if (s.ax.get x).cd.seq.any fun q => q.boot || (g.stage.phase == .energising && frameLt next q.start) then (rest s).setShadow x ⟨0, 0, 0, 0⟩ 0x55 false
      else s.dutyStep x g

/-- What one axis does at its unit's peak. -/
def State.peakAxis (s : State) (p : PeakIn) (x : AxisId) : State :=
  let s1 := (s.takePeak x false (p.cur.getD (chanOf x false) 0)).takePeak x true (p.cur.getD (chanOf x true) 0)
  let s2 := if (s.unitPhase x) = .off then s1.modCd x fun c => c.both fun k => { k with openCnt := 0 }
    else (s1.openStep x false).openStep x true
  ((s2.identStep x).stillStep x).coilWindow x

/-- BAY_PEAK_SAMPLE (R21, R24, R174, R195, R316, R320). -/
def execBayPeakSample (u : CarrierId) (p : PeakIn) (s : State) : Host.Outcome State Fault Refusal :=
  .next (
    if ¬ s.carriers then s
    else
      let bad := decide (4 < ((p.ref : Int) - 2867).natAbs)
      let s1 := s.gathering.modCu u fun c =>
        { c with peak := p.cur, vmP := p.vm, afterPeak := true, tripped := 0, held := heldBy c.cutP, refErr := bad }
      let s2 := (if bad ∧ u.val < 24 then s1.orReg (Adr.BAY_SMP_STAT u) 2 else s1).abandonTest u
      let cur := s2.currents u p.cur
      let s3 := (((s2.force u false).deviceAt p.device).releaseCoils u cur).releaseOv u (vmOf u p.vm)
      let s4 := s3.forAll (axesOf u) fun t x => t.peakAxis p x
      let s5 := s4.modCu u fun c => { c with dutiesOk := !(enginesOf u).any fun k => s.upd.halted.getLsbD k }
      (s5.fallback u cur (vmOf u p.vm)).tellAll)

/-! ### Shadow transfers (R209, R216–R219) -/

/-- A light axis' shadow set as its words hold it. -/
def State.shadowOf (s : State) (x : AxisId) : Nat × Ons × BitVec 8 :=
  if heavy x then (s.nClk, (s.ax.get x).br.shOn, (s.ax.get x).br.shCode)
  else
    let a := Adr.BAY_DS (unitOf x) (slotOf x)
    let w1 := s.reg (a + 4)
    let w2 := s.reg (a + 8)
    (s.rf a 15 0, ⟨fld w1 15 0, fld w1 31 16, fld w2 15 0, fld w2 31 16⟩, BitVec.ofNat 8 (s.rf (a + 12) 7 0))

/-- The on-time that a direct-mode transfer applies (R219). -/
def directOn (on per n : Nat) : Nat :=
  if per < on then n else shorten (roundDiv (on * n : Nat) (max 1 per)).toNat n

/-- The legs for which `p` holds, as a mask. -/
def legMask (p : Nat → Bool) : Nat := ((List.range 4).filter p).foldl (fun n i => n + 2 ^ i) 0

/-- A leg code 11 transfers (R209). -/
def State.shootThrough (s : State) (x : AxisId) (code : BitVec 8) : State :=
  let m := legMask fun i => codeOf code i == 3
  if m = 0 then s
  else
    let n := ((List.range 4).filter fun i => codeOf code i == 3).length
    let u := unitOf x
    let cnt := if heavy x then Adr.HVY_GRP_ST_COUNT else Adr.BAY_ST_COUNT u
    let s1 := (s.addReg cnt n).orReg (if heavy x then Adr.HVY_GRP_STAT else Adr.BAY_BR_STAT u) 2
    s1.raise 18 x.val (wd m) (s1.reg cnt)

/-- The shadow set of axis `x` becomes its active copy (R216, R219). -/
def State.transfer (s : State) (x : AxisId) : State :=
  let (per, o, code) := s.shadowOf x
  let n := s.nClk
  if s.direct x then
    let on : Ons := ⟨directOn o.ap per n, directOn o.am per n, directOn o.bp per n, directOn o.bm per n⟩
    let m := legMask fun i => decide (per < o.get i)
    let s1 := s.modBr x fun b => { b with per := per, raw := o, code := code, on := on, shCommit := false, ident := false }
    let s2 := if m = 0 then s1 else (s1.orReg (Adr.BAY_BR_STAT (unitOf x)) 1).raise 23 x.val (wd m) (wd per)
    s2.shootThrough x code
  else (s.modBr x fun b => { b with per := per, raw := o, code := code, on := o, shCommit := false, ident := b.shIdent }).shootThrough x code

/-- Does the set of axis `x` transfer at this valley? -/
def State.commits (s : State) (x : AxisId) : Bool :=
  if s.direct x then (s.cu.get (unitOf x)).commit.getLsbD (slotOf x) else (s.ax.get x).br.shCommit

/-- What a valley keeps of the frame that ends there: what the legs of an axis were told, and which ended HIGH (R212, R215, R221). -/
def State.endFrame (s : State) (x : AxisId) : State :=
  let ends := BitVec.ofNat 4 (legMask fun i => s.legHigh x i (s.frameLen (unitOf x) - 1))
  let was := s.changesBefore x
  s.modBr x fun b => { b with hiEnd := ends, before := was }

/-- A unit's new frame (R21, R220, R240): the trips of the old one are over, but for a cut that reaches into it, and DT and BLANK act as
written. -/
def State.newFrame (s : State) (u : CarrierId) : State :=
  let w := if u.val < 24 then s.reg (Adr.BAY_BR_CFG u) else s.reg Adr.HVY_GRP_CFG
  let len := s.frameLen u
  s.modCu u fun c =>
    let rest := c.cutP.map fun t => (t.filter fun k => decide (len ≤ k)).map (· - len)
    { c with own := s.frm.count, trim := s.line.trimNow, tripped := 0, held := heldBy rest, cutV := rest, cutP := List.replicate 16 none,
             highs0 := [], brakeAt := none, dt := fld w 5 0, blank := fld w 15 8 }

/-- The load of one axis: the transfer, or the end of direct mode (R217), and the duty in force. -/
def State.loadAxis (s : State) (x : AxisId) : State :=
  let s1 := s.modBr x fun b => { b with code := if b.tail then 0 else b.code, tail := false }
  let s2 := if s1.commits x then s1.transfer x else s1
  s2.modCd x fun c =>
    { (c.both fun k => { k with d0 := k.dNext, dtc0 := k.dtcN, eff0 := k.effN, v0 := k.vN }) with th0 := c.thN, dp0 := c.dpN }

/-! ### Output masks (R226, R227) -/

/-- Does the shaped reference reach or cross a multiple of 256 microsteps from `p1` to `p0` (R226)? -/
def crosses (p1 p0 : Int) : Bool :=
  if p1 < p0 then decide (floorDiv p1 (256 * 65536) < floorDiv p0 (256 * 65536))
  else if p0 < p1 then decide (floorDiv (-p1) (256 * 65536) < floorDiv (-p0) (256 * 65536))
  else false

/-- Is this load the commutation event of a waiting mask (R226)? -/
def State.commutes (s : State) (x : AxisId) (w : MaskWait) : Bool :=
  let a := s.ax.get x
  match w.slot with
  | some _ => w.fired.any fun k => frameLe k (s.frm.count - 1)
  | none =>
    crosses a.tt.o1.p a.tt.o0.p ||
      (w.fresh && (a.tt.o0.p == a.tt.o1.p || a.tt.mode == .parked || s.direct x))

/-- The integrator of a coil whose last masked leg returns to code 0 is set to 0 (R227). -/
def CdState.unmask (c : CdState) (old new : BitVec 8) : CdState :=
  let back (lo : Nat) : Bool := decide (old.toNat / lo % 16 ≠ 0) && decide (new.toNat / lo % 16 = 0)
  { c with ca := if back 1 then { c.ca with integ := 0 } else c.ca, cb := if back 16 then { c.cb with integ := 0 } else c.cb }

/-- The mask of one axis at a load (R225–R227). -/
def State.maskLoad (s : State) (x : AxisId) : State :=
  let b := (s.ax.get x).br
  let count (t : State) (new : BitVec 8) : State :=
    t.modBr x fun r => { r with unmaskedFor := if b.mask ≠ 0 ∨ new ≠ 0 then 0 else min 16 (r.unmaskedFor + 1) }
  match b.wait with
  | none => count s b.mask
  | some w =>
    if ((s.desc? w.desc).all fun d => d.begun) ∧ s.commutes x w then
      let s1 := (s.modBr x fun r => { r with mask := w.next, wait := none }).modCd x fun c => c.unmask b.mask w.next
      (count s1 w.next).coilDone w.desc 0 0 s.frm.count
    else
      let s1 := if (s.desc? w.desc).all fun d => d.begun then
          s.modBr x fun r => { r with wait := some { w with fresh := false } }
        else s
      count s1 b.mask

/-! ### The valley -/

/-- Was a coil's valley sample substituted (R196, R215)? `s` is the frame that ends, `t` the one that begins. -/
def valleyEdge (s t : State) (x : AxisId) (b : Bool) : Bool :=
  let n := s.frameLen (unitOf x)
  (coilLegs b).any fun i =>
    s.edgeIn x i (n - 50) n || t.edgeIn x i 0 10 || s.legHigh x i (n - 1) != t.legHigh x i 0

/-- One coil's valley sample (R193, R196, R197) between the frames of `old` and `new`. -/
def State.takeValley (s old new : State) (x : AxisId) (b : Bool) (code : Nat) (refreshed : Bool) : State :=
  if valleyEdge old new x b ∨ refreshed then
    (s.substituted x).modCoil x b fun c => { c with iv1 := c.iv, badV1 := c.badV, badV := true }
  else
    let i := s.current (unitOf x) (chanOf x b) code
    s.modCoil x b fun c => { c with iv1 := c.iv, badV1 := c.badV, iv := i, badV := saturated code }

/-- Offset tracking of one channel (R195): OFS moves by 1/256 of the difference. What lies below a whole step is kept, and OFS is the
floor (DESIGN CHOICE, log 204). -/
def State.trackOne (s : State) (u : CarrierId) (c code : Nat) : State :=
  let a := calAdr u c
  let ofs := calOfs (s.reg a)
  let acc := ofs * 256 + (s.cu.get u).ofsFr.getD c 0 + ((code : Int) - 2048 - ofs)
  let new := clampInt (-2048) 2047 (floorDiv acc 256)
  (s.putReg a 0xFFF (BitVec.ofInt 12 new).toNat).modCu u fun q => { q with ofsFr := q.ofsFr.set c (acc - new * 256) }

/-- Offset tracking of the channels of the unit's parked axes (R195, R261). -/
def State.track (s : State) (u : CarrierId) (codes : List Nat) : State :=
  let on := if u.val < 24 then s.rb (Adr.BAY_SMP_CFG u) 0 else s.rb Adr.HVY_GRP_CFG 17
  if ¬ on then s
  else
    s.forAll ((axesOf u).filter fun x => (s.ax.get x).tt.mode == .parked && decide (8 ≤ (s.ax.get x).cd.offFor)) fun t x =>
      (t.trackOne u (chanOf x false) (codes.getD (chanOf x false) 0)).trackOne u (chanOf x true) (codes.getD (chanOf x true) 0)

/-- A unit leaves its safe state at the first valley at which every cause has ended (R229). -/
def CUnit.leaveSafe (c : CUnit) : CUnit :=
  if c.cClock || c.cHalt || c.cWdog || c.cParity then c else { c with safe := false }

/-- What a valley loads, once the latches it releases and a safe state that has ended are done with (R216, R218, R224, R226, R229);
`loads`: the sets and the masks too (R23). -/
def State.unitLoad (s : State) (u : CarrierId) (loads : Bool) : State :=
  let s1 := s.modCu u fun c => { c with latch := c.latch &&& ~~~c.relPend, relPend := 0, dutiesOk := false }.leaveSafe
  if loads then ((s1.forAll (axesOf u) State.loadAxis).modCu u fun c => { c with commit := 0 }).forAll (axesOf u) State.maskLoad else s1

/-- BAY_SHADOW_LOAD (R21, R193, R195, R216, R226, R229, R247, R252, R266, R316, R320, R328). At the valley without a load after a
change of the unit's offset (R23) the sets, the masks and the commit bits stay as they are; everything else of a valley happens
(DEDUCED, log 196). -/
def execBayShadowLoad (u : CarrierId) (v : ValleyIn) (s : State) : Host.Outcome State Fault Refusal :=
  .next (
    if ¬ s.carriers then s
    else
      let loads := (s.cu.get u).skipLoad != some 0
      let xs := axesOf u
      let heavyU := u.val == 24
      let was := (s.cu.get u).own
      let s0 := (s.gathering.forAll xs State.endFrame).newFrame u
      let sh := if heavyU then s0.heavyValley else s0
      -- the frame that begins, to see the edges about the sample instant
      let ahead := sh.unitLoad u loads
      let warned (x : AxisId) (b : Bool) : Bool :=
        heavyU && (ahead.refreshLegs (slotOf x) v.bootWarn).any fun i => (coilLegs b).contains i
      let s1 := sh.modCu u fun c =>
        { c with valley := v.cur, vmV := v.vm, afterPeak := false, temps := (tempOf v.temp :: c.temps).take 16,
                 skipLoad := c.skipLoad.bind fun n => if n = 0 then none else some (n - 1) }
      let s2 := s1.forAll xs fun t x =>
        (t.takeValley s ahead x false (v.cur.getD (chanOf x false) 0) (warned x false)).takeValley s ahead x true
          (v.cur.getD (chanOf x true) 0) (warned x true)
      let cur := s2.currents u v.cur
      let s3 := ((((s2.force u true).deviceAt v.device).releaseCoils u cur).releaseOv u (vmOf u v.vm)).endFallbacks (some u)
      let s4 := ((s3.track u v.cur).forAll xs State.observe).forAll xs State.estimate
      let s5 := s4.unitLoad u loads
      let s6 :=
        if heavyU then
          let t := (s5.heavyEdges was v.edges).bootstraps v.bootWarn v.bootRel
          t.forAll (allFin 8) fun w h => w.forAll (w.refreshLegs h v.bootWarn) fun w i => w.refresh h i v.refreshed
        else s5
      ((s6.tempCheck u).fallback u cur (vmOf u v.vm)).tellAll)

end Sys2Proof.Machine
end

