-- ==== Sys2Proof/Machine/BringUp.lean ====
section
/-! DEFINITION. Bring-up and service (R415–R441): power and reset, the boot, calibration, updates of the flash and of the cores, the
preparation for power-down. -/

namespace Sys2Proof.Machine

/-! ### Reset (R416–R420) -/

/-- A slot of images. -/
def Upd.slot (u : Upd) (b : Bool) : FwSlot := if b then u.slotB else u.slotA

/-- The updates after a reset: the flash stays, and every core is shown in the boot slot, at its version (R444). -/
def Upd.afterReset (u : Upd) : Upd :=
  { Upd.reset with
    boot := u.boot, slotA := u.slotA, slotB := u.slotB, consists := u.consists
    coreSlot := if u.boot then 0x7F else 0
    coreVer := List.replicate 7 (u.slot u.boot).version }

/-- CFGSEL is sampled (R417, R432): every unit shows the Consist that it names (R443). -/
def State.sampleCfgsel (s : State) (c : BitVec 2) : State :=
  { s with
    sys := { s.sys with cfgsel := c }
    upd := { s.upd with inForce := List.replicate 7 c.toNat, devInForce := c.toNat } }

/-- The module in reset: what survives is the flash, the Weighbridge, what has been sent, and the queue; the challenge changes (R398), and
the written choice of FRM_CLK.SRC becomes the source of the counter clock (R14, R42). -/
def State.inReset (s : State) : State :=
  { State.reset with
    pending := s.pending, out := s.out, free := s.free, wb := s.wb
    frm := { Frm.reset with src := s.rb Adr.FRM_CLK 0 }
    upd := s.upd.afterReset
    sys := { Sys.reset with sealedVariant := s.sys.sealedVariant }
    acc := { Acc.reset with chal := s.acc.chal + 1 } }

/-- VAUX_FALL (R374, R416): every leg is off and the module in reset; the Weighbridge goes on, and its tamper flags stand, unless VBAT is
lost too. -/
def execVauxFall (s : State) : Host.Outcome State Fault Refusal :=
  .next (
    if ¬ s.sys.powered then s
    else
      let t := s.inReset.setReg Adr.WB_STAT (s.reg Adr.WB_STAT &&& 0xC00#32)
      let u := { t with wb := s.wb.powerDown, sys := { t.sys with powered := false } }
      if s.wb.vbatLow then u.loseStandby else u)

/-- VAUX_RISE (R416, R417): power-on reset; CFGSEL is sampled, and the rail comparators are tested. VBAT counts as present again. -/
def execVauxRise (cfgsel : BitVec 2) (s : State) : Host.Outcome State Fault Refusal :=
  .next (
    if s.sys.powered then s
    else
      let t := s.inReset.setReg Adr.WB_STAT (s.reg Adr.WB_STAT &&& 0xC00#32)
      { t with frm := { t.frm with src := s.frm.src }, sys := { t.sys with powered := true },
               wb := { t.wb with vbatLow := false },
               cmp := { t.cmp with sweep := some (432, 0) } }.sampleCfgsel cfgsel)

/-- A software reset (R367, R420): the Weighbridge is untouched, and the rails keep the outcome of their test. CFGSEL is sampled; no row
tells what the pads hold then, so that it is a free value. -/
def State.softReset (s : State) : State :=
  let (c, t0) := s.inReset.drawFree
  let t := t0.sampleCfgsel (c.setWidth 2)
  { t with
    regs := s.regs.filter fun e => decide (0x1A0000 ≤ e.1) && decide (e.1 < 0x1B0000)
    sys := { t.sys with cause := 1 }
    cmp := { t.cmp with railBad := s.cmp.railBad, failed := s.cmp.failed.filter fun id => decide (432 ≤ id) } }

/-- A write of GCTL_RESET (R420). -/
def State.resetWrite (s : State) (m : Master) (w : Word) : State :=
  let (t, ok) := s.gate m Adr.GCTL_RESET 0xFFFF0001
  if ok ∧ fld w 31 16 = 0x5A5A ∧ bitOf w 0 then t.softReset else t

/-- SOFTWARE_RESET (R420). -/
def execSoftwareReset (m : Master) (w : Word) (s : State) : Host.Outcome State Fault Refusal := .next (s.resetWrite m w)

/-! ### The boot (R417, R432, R437) -/

/-- The slot that becomes the boot slot once every core runs from it (R437). -/
def Upd.bootBy (u : Upd) (cores : BitVec 7) : Bool :=
  if cores = (if u.boot then 0 else 0x7F) then !u.boot else u.boot

/-- Both images fail: the cores stay halted, and every unit in its safe state (R437). -/
def State.haltCores (s : State) : State :=
  { s with upd := { s.upd with halted := 0x3F7F } }.forAll (allFin 25) fun t u => (t.enterSafe u).modCu u fun c => { c with cHalt := true }

/-- The cores are loaded from slot `b` (R417, R437). -/
def State.bootFrom (s : State) (b : Bool) : State :=
  let f := s.upd.slot b
  let cores : BitVec 7 := if b then 0x7F else 0
  { s with
    frm := { s.frm with costs := f.costs }
    upd := { s.upd with coreSlot := cores, coreVer := List.replicate 7 f.version, coreFmt := f.formats, bank := 0,
                        boot := s.upd.bootBy cores }
    sys := { s.sys with booted := true, fallback := b != s.upd.boot, bootSlot := b } }

/-- The Consist that CFGSEL names is loaded for every unit and the device, or none (R432). -/
def State.loadConsist (s : State) : State :=
  let n := s.sys.cfgsel.toNat
  let bad := { s with sys := { s.sys with consistBad := true } }
  match s.slotItems n with
  | none => bad
  | some l =>
    if s.judgeCfg s.admCfg (s.consistCfg s.admCfg l (allFin 7) true) (.consist 0) = .accepted then
      (s.takeConsist l n (allFin 7) true).forAll (allFin 25) fun t u => t.modCu u fun c => { c with skipLoad := none }
    else bad

/-- The first bay of each tile, and the heavy group, begin their calibration (R417). -/
def State.firstCals (s : State) : State :=
  s.forAll ((allFin 25).filter fun u => u.val % 4 == 0) fun t u => t.modCu u fun c => { c with cal := some 0 }

/-- BOOT_IMAGE_LOADED (R417, R432, R437). -/
def execBootImageLoaded (goodA goodB : Bool) (s : State) : Host.Outcome State Fault Refusal :=
  .next (
    if ¬ s.sys.powered ∨ s.sys.booted then s
    else
      let s1 := { s with cmp := { s.cmp with sweep := none } }.pllLocks
      let ok (b : Bool) : Bool := (if b then goodB else goodA) && (s.upd.slot b).good
      if ok s.upd.boot then (s1.bootFrom s.upd.boot).loadConsist.firstCals
      else if ok (!s.upd.boot) then (s1.bootFrom (!s.upd.boot)).loadConsist.firstCals
      else s1.haltCores)

/-! ### Calibration (R425–R428) -/

/-- OFS and GAIN of a channel, from the sums of its 64 conversions of zero and of the reference; none where it fails (R426). -/
def zeroOfs (sz : Nat) : Int := roundDiv ((sz : Int) - 131072) 64
def refGain (sz sr : Nat) : Nat := (roundDiv (32768 * 1366 * 64) (sr - sz)).toNat
def calPair (z : Nat × Nat) : Option (Nat × Int) :=
  if z.2 ≤ z.1 then none
  else
    let g := refGain z.1 z.2
    let o := zeroOfs z.1
    if 0x7000 ≤ g ∧ g ≤ 0x9000 ∧ o.natAbs ≤ 64 then some (g, o) else none

/-- Does a bay wait in a pass (R428): is one of its comparators on fallback? -/
def State.calWaits (s : State) (u : CarrierId) : Bool :=
  decide (u.val < 24) && (((List.range 16).any fun c => s.onFallback (coilCmp u c)) || s.onFallback (408 + u.val))

/-- The next unit of a pass begins, or the pass ends (R428): a bay that waits at its turn is taken after the heavy front end. -/
def State.calNext (s : State) : State :=
  match s.upd.pass with
  | none => s
  | some p =>
    if p.cur.isSome ∨ s.cu.toList.any (fun c => c.cal.isSome) then s
    else if p.todo = [] then { s with upd := { s.upd with pass := none, calFails := p.fails } }
    else
      match p.todo.find? fun u => !s.calWaits u with
      | none => s
      | some u =>
        let before := p.todo.takeWhile (· != u)
        let after := (p.todo.dropWhile (· != u)).drop 1
        let todo := if p.todo.contains 24 then after ++ before else before ++ after
        { s with upd := { s.upd with pass := some { p with cur := some u, todo := todo } } }.modCu u
          fun c => { c with cal := some s.frm.count }

/-- At power-up, the bay after `u` in its tile begins (R417). -/
def State.chainCal (s : State) (u : CarrierId) : State :=
  if u.val < 24 ∧ u.val % 4 ≠ 3 then s.modCu (u + 1) fun c => { c with cal := some s.frm.count } else s

/-- A calibration ends (R427): `n` channels passed. The next unit of the pass, or at power-up the next bay of the tile, begins. -/
def State.calDone (s : State) (u : CarrierId) (ok : Bool) (n : Nat) : State :=
  let kind := if u.val < 24 then 1 else 2
  let s1 := (s.modCu u fun c => { c with cal := none, calOk := c.calOk || ok }).raise 62 (unitCode u) (wd (b2n (!ok) + 256 * kind)) (wd n)
  match s1.upd.pass with
  | some p =>
    if p.cur = some u then
      { s1 with upd := { s1.upd with pass := some { p with cur := none, fails := p.fails + b2n (!ok) } } }.calNext
    else s1.chainCal u
  | none => s1.chainCal u

/-- BAY_CALIBRATION_END (R426, R427). -/
def execBayCalibrationEnd (u : CarrierId) (zr : List (Nat × Nat)) (refGood : Bool) (s : State) : Host.Outcome State Fault Refusal :=
  .next (
    match (s.cu.get u).cal with
    | none => s
    | some f =>
      if ¬ s.carriers ∨ s.since f < 80 then s
      else
        let res := (List.range 16).map fun c => (zr[c]?).bind calPair
        let n := (res.filter Option.isSome).length
        if n = 16 ∧ refGood then
          let s1 := s.forAll res.zipIdx fun t e => match e.1 with
            | some (g, o) => t.putReg (calAdr u e.2) (bits 31 16 + bits 11 0) (g * 65536 + (BitVec.ofInt 12 o).toNat)
            | none => t
          (s1.modCu u fun c => { c with ofsFr := List.replicate 16 0 }).calDone u true n
        else s.calDone u false n)

/-- A software write to a CALc register of a unit in calibration ends it without constants (R427). -/
def State.calWrite (s : State) (m : Master) (u : CarrierId) (a : Nat) (w : Word) : State :=
  let t := s.plainWrite m a w
  if (s.cu.get u).cal.isSome ∧ s.reaches m a (bits 31 16 + bits 11 0) then t.calDone u false 0 else t

/-- A pass starts, unless one runs (R428). -/
def State.startPass (s : State) : State :=
  if s.upd.pass.isSome then s else { s with upd := { s.upd with pass := some ⟨none, allFin 25, 0⟩ } }.calNext

/-- CALIBRATION_PASS_START (R428): every INT seconds. -/
def execCalibrationPassStart (s : State) : Host.Outcome State Fault Refusal :=
  .next (
    let n := s.rf Adr.UPD_CAL_CFG 15 0
    if s.sys.powered ∧ s.frm.started ∧ n ≠ 0 ∧ n * s.hz ≤ s.since s.upd.passFrom then
      { s with upd := { s.upd with passFrom := s.frm.count } }.startPass
    else s)

/-- A write of UPD_CAL_CFG (R428). -/
def State.calCfgWrite (s : State) (m : Master) (w : Word) : State :=
  let t := s.plainWrite m Adr.UPD_CAL_CFG w
  if bitOf w 31 ∧ s.reaches m Adr.UPD_CAL_CFG (bits 31 31) then t.startPass else t

/-- UPD_CAL_GO (R428). -/
def execUpdCalGo (m : Master) (w : Word) (s : State) : Host.Outcome State Fault Refusal := .next (s.calCfgWrite m w)

/-! ### Writes of the flash (R431, R435, R438) -/

/-- Do the cores run from different slots (R437)? -/
def State.mixedCores (s : State) : Bool := s.upd.coreSlot != 0 && s.upd.coreSlot != 0x7F

/-- UPDATE_STAGE (R435, R436). -/
def State.stageEvent (s : State) (u stage reason : Nat) (version : Word) : State :=
  s.raise 61 (0x230 + u) (wd (stage + 256 * reason)) version

/-- A write fails (R438), with the version of the image concerned. The spec does not state that of an image which was not read, so that
it is a free value. -/
def State.writeFailed (s : State) (target reason : Nat) (version : Option Word) : State :=
  let u := s.upd
  let s1 := { s with upd := { u with state := 5, reason := reason, job := none } }
  if target ≠ 0 then s1
  else match version with
    | some v => s1.stageEvent 6 4 reason v
    | none => let (v, s2) := s1.drawFree; s2.stageEvent 6 4 reason v

/-- The image slot that is not the boot slot takes an image (R435). -/
def Upd.putSlot (u : Upd) (f : FwSlot) : Upd := if u.boot then { u with slotA := f } else { u with slotB := f }

/-- GO written 1 (R435, R437). -/
def State.updGo (s : State) : State :=
  let u := s.upd
  let target := s.rf Adr.UPD_CTL 10 8
  if u.state ≠ 0 ∧ u.state ≠ 4 ∧ u.state ≠ 5 then s.orReg Adr.UPD_STAT (2 ^ 17)
  else if target = 0 ∧ s.mixedCores then s.writeFailed 0 7 none
  else
    { s with upd := { u with state := 1, job := some (target, s.rf Adr.UPD_CTL 13 12) } }.emit
      (.dmaRead 0 (s.reg64 Adr.UPD_SRC_LO) (s.rf Adr.UPD_LEN 21 0))

/-- CAPTURE written 1 (R431): for TARGET 1. -/
def State.updCapture (s : State) : State :=
  if s.rf Adr.UPD_CTL 10 8 = 1 then
    { s with upd := { s.upd with consists := s.upd.consists.set (s.rf Adr.UPD_CTL 13 12) (some s.captureItems) } }
  else s

/-- A write of UPD_CTL: CAPTURE and GO act on the fields written with them. -/
def State.updCtlWrite (s : State) (m : Master) (w : Word) : State :=
  let t := s.plainWrite m Adr.UPD_CTL w
  if ¬ s.reaches m Adr.UPD_CTL 3 then t
  else
    let t1 := if bitOf w 1 then t.updCapture else t
    if bitOf w 0 then t1.updGo else t1

/-- UPD_CAPTURE (R431). -/
def execUpdCapture (m : Master) (w : Word) (s : State) : Host.Outcome State Fault Refusal := .next (s.updCtlWrite m w)

/-- UPD_GO (R435). -/
def execUpdGo (m : Master) (w : Word) (s : State) : Host.Outcome State Fault Refusal := .next (s.updCtlWrite m w)

/-- UPD_STAT.STATE goes on from reading the host to writing the flash, and for an image to verifying (R435, R444). No row tells when: at
each tick a free value says whether it does. -/
def State.updStep (s : State) : State :=
  match s.upd.job with
  | none => s
  | some (target, _) =>
    if s.upd.state = 1 ∨ (s.upd.state = 2 ∧ target = 0) then
      let (v, t) := s.drawFree
      if v.getLsbD 0 then { t with upd := { t.upd with state := t.upd.state + 1 } } else t
    else s

/-- The slot that a failed write leaves (R435, R438): an image slot is marked empty. Whether a failed write or read-back has spoilt a
Consist slot is a free value (R431). -/
def State.spoilt (s : State) (target slot reason : Nat) : State :=
  if target = 0 then { s with upd := s.upd.putSlot ⟨0, [], [], false⟩ }
  else if target = 1 ∧ reason = 4 then
    let (v, t) := s.drawFree
    if v.getLsbD 0 then { t with upd := { t.upd with consists := t.upd.consists.set slot none } } else t
  else s

/-- UPD_WRITE_DONE (R383, R429, R431, R435, R438): an image of another kind than the target's is one of a wrong format. A Consist whose
CRC-32C fails leaves its slot bad. -/
def execUpdWriteDone (r : UpdResult) (s : State) : Host.Outcome State Fault Refusal :=
  .next (
    match s.upd.job with
    | none => s
    | some (target, slot) =>
      let u := { s.upd with state := 4, job := none }
      let fail (n : Nat) (v : Option Word) : State := (s.spoilt target slot n).writeFailed target n v
      match r with
      | .image v costs fmts =>
        if target = 0 then { s with upd := u.putSlot ⟨v, costs, fmts, true⟩ }.stageEvent 6 1 0 v else fail 2 (some v)
      | .consist items good =>
        if target = 1 then { s with upd := { u with consists := u.consists.set slot (if good then some items else none) } }
        else fail 2 none
      | .staged v b t l c =>
        if target = 2 then { s with upd := u, wb := { s.wb with pkg := some ⟨v, b, t, l, c⟩ } } else fail 2 (some v)
      | .failed n v => fail n (if n = 5 then none else some v))

/-! ### Switching the cores (R436, R437) -/

/-- The cores of a mask. -/
def coresOf (mask : BitVec 7) : List (Fin 7) := (allFin 7).filter fun u => mask.getLsbD u

/-- A write of UPD_SWITCH (R436): with no verified image in the other slot, or while a switch runs, GO has no effect. -/
def State.switchWrite (s : State) (m : Master) (w : Word) : State :=
  let t := s.plainWrite m Adr.UPD_SWITCH w
  let mask := BitVec.ofNat 7 (t.rf Adr.UPD_SWITCH 6 0)
  if bitOf w 31 ∧ s.reaches m Adr.UPD_SWITCH (bits 31 31) ∧ s.sys.booted ∧ mask ≠ 0 ∧ t.upd.switching.isNone
      ∧ (t.upd.slot (!t.upd.boot)).good then
    { t with upd := { t.upd with switching := some mask } }
  else t

/-- UPD_SWITCH_GO (R436). -/
def execUpdSwitchGo (m : Master) (w : Word) (s : State) : Host.Outcome State Fault Refusal := .next (s.switchWrite m w)

/-- Is a firmware switch in admission? -/
def State.switchAsked (s : State) : Bool := s.frm.adm.any fun r => match r.kind with | .firmware _ _ => true | _ => false

/-- Does the section of core `u` in an image hold its data in another format than the running one (R438)? -/
def State.newFormat (s : State) (f : FwSlot) (u : Fin 7) : Bool := f.formats.getD u 0 != s.upd.coreFmt.getD u 0

/-- Is every axis that core `u` plans PARKED or DISABLED (R438)? Core u plans the axes of tile u, PS those of the heavy group. -/
def State.coreIdle (s : State) (u : Fin 7) : Bool :=
  (axesOfDom u).all fun x => let m := (s.ax.get x).tt.mode; m == .parked || m == .disabled

/-- Why core `u` cannot take its section (R438): its bank's CRC-32C fails, or its data format needs its axes at rest. -/
def State.copyFails (s : State) (f : FwSlot) (good : BitVec 7) (u : Fin 7) : Option Nat :=
  if !good.getLsbD u.val then some 6 else if s.newFormat f u && !s.coreIdle u then some 3 else none

/-- UPD_BANK_COPY_DONE (R436, R438): bit u of `good` tells core u's CRC-32C. One core that fails keeps every core from the switch. -/
def execUpdBankCopyDone (good : BitVec 7) (s : State) : Host.Outcome State Fault Refusal :=
  .next (
    match s.upd.switching with
    | none => s
    | some mask =>
      if s.switchAsked then s
      else
        let f := s.upd.slot (!s.upd.boot)
        let s1 := s.forAll (coresOf mask) fun t u =>
          match s.copyFails f good u with
          | none => t.stageEvent u 0 0 f.version
          | some r => t.stageEvent u 4 r f.version
        match (coresOf mask).filterMap (s.copyFails f good) with
        | [] => s1.ask (.firmware mask f.costs) s1.frm.count
        | r :: _ => { s1 with upd := { s1.upd with switching := none, reason := r } })

/-- The data of the named cores whose format changes is rebuilt from the Consist in force (R438). -/
def State.rebuild (s : State) (mask : BitVec 7) (f : FwSlot) : State :=
  s.forAll ((coresOf mask).filter (s.newFormat f)) fun t u => t.forAll (axesOfDom u) fun t x => t.reloadAxis x

/-- The named cores run from their new banks (R436, R437), with the data they keep, or rebuilt where its format changes (R438). -/
def State.switchCores (s : State) (mask : BitVec 7) (costs : List Nat) : State :=
  let u := s.upd
  let f := u.slot (!u.boot)
  let cores := if u.boot then u.coreSlot &&& ~~~mask else u.coreSlot ||| mask
  let ver := (List.range 7).map fun i => if mask.getLsbD i then f.version else u.coreVer.getD i 0
  let fmt := (List.range 7).map fun i => if mask.getLsbD i then f.formats.getD i 0 else u.coreFmt.getD i 0
  let r := s.rebuild mask f
  { r with
    frm := { r.frm with costs := costs }
    upd := { r.upd with switching := none, coreSlot := cores, coreVer := ver, coreFmt := fmt, bank := u.bank ^^^ mask,
                        boot := u.bootBy cores } }.forAll
      (coresOf mask) fun t k => t.stageEvent k 3 0 f.version

/-- Admission refuses the switch (R436). -/
def State.refuseSwitch (s : State) (mask : BitVec 7) : State :=
  let v := (s.upd.slot (!s.upd.boot)).version
  { s with upd := { s.upd with switching := none } }.forAll (coresOf mask) fun t k => t.stageEvent k 2 0 v

/-! ### Taking the module down (R441) -/

/-- A write of GCTL_PWR (R441): PREP, or its withdrawal, which clears DONE. -/
def State.pwrWrite (s : State) (m : Master) (prep : Bool) : State :=
  let (t, ok) := s.gate m Adr.GCTL_PWR 1
  if ¬ ok then t
  else if prep then t.orReg Adr.GCTL_PWR 1
  else
    let v := t.clrReg Adr.GCTL_PWR 1
    { v with sys := { v.sys with done := false, prepCkpt := false } }

/-- PWR_PREP (R441). -/
def execPwrPrep (m : Master) (s : State) : Host.Outcome State Fault Refusal := .next (s.pwrWrite m true)

/-- PWR_PREP_WITHDRAW (R441). -/
def execPwrPrepWithdraw (m : Master) (s : State) : Host.Outcome State Fault Refusal := .next (s.pwrWrite m false)

/-- PWR_DONE (R441). -/
def execPwrDone (s : State) : Host.Outcome State Fault Refusal :=
  .next (
    let parked := s.ax.toList.all fun a => a.tt.mode == .parked || a.tt.mode == .disabled
    if s.sys.powered ∧ s.rb Adr.GCTL_PWR 0 ∧ parked ∧ s.sys.prepCkpt then { s with sys := { s.sys with done := true } } else s)

end Sys2Proof.Machine
end

