-- ==== Sys2Proof/Machine/Hash.lean ====
section
/-! DEFINITION. SHA-256 and HMAC-SHA-256 (R398, RFC 2104) over lists of bytes. SHA-256 is the FIPS 180-4 function, written as
two recurrences: of its eight working words a, b, c, d are the last four values of one sequence and e, f, g, h those of
another. Its constants are the first 32 bits of the fractions of roots of primes, and are computed as that. -/

namespace Sys2Proof.Machine

/-- The `d`-th root of `n` in whole numbers, `acc` the bits found so far and `2 ^ b` above the largest still to find. -/
def rootFrom (d n : Nat) : Nat → Nat → Nat
  | 0, acc => acc
  | b + 1, acc => rootFrom d n b (if (acc + 2 ^ b) ^ d ≤ n then acc + 2 ^ b else acc)

/-- The first 32 bits of the fraction of the `d`-th root of `p`, for a root below 2^8. -/
def rootFraction (d p : Nat) : Word := wd (rootFrom d (p * 2 ^ (32 * d)) 40 0)

/-- The primes below 312: the first 64. -/
def hashPrimes : List Nat := (List.range 312).filter fun p => 2 ≤ p ∧ (List.range 18).all fun q => q < 2 ∨ p ≤ q ∨ p % q ≠ 0

/-- XOR of rotations of `w` to the right. -/
def rotations (w : Word) (amounts : List Nat) : Word := amounts.foldl (fun x r => x ^^^ w.rotateRight r) 0

/-- The last four values of the two sequences, newest first. -/
structure HashState where
  upper : List Word
  lower : List Word
  deriving DecidableEq, Repr

/-- The state a message begins with: square roots of the first eight primes. -/
def HashState.init : HashState :=
  ⟨(hashPrimes.take 4).map (rootFraction 2), ((hashPrimes.drop 4).take 4).map (rootFraction 2)⟩

/-- One step of the two sequences on the sum of a constant and a schedule word. -/
def HashState.next (s : HashState) (kw : Word) : HashState :=
  let u (i : Nat) : Word := s.upper.getD i 0
  let l (i : Nat) : Word := s.lower.getD i 0
  let t := kw + l 3 + rotations (l 0) [6, 11, 25] + (l 2 ^^^ (l 0 &&& (l 1 ^^^ l 2)))
  let m := rotations (u 0) [2, 13, 22] + ((u 0 &&& u 1) ||| (u 2 &&& (u 0 ||| u 1)))
  ⟨(t + m) :: s.upper.take 3, (u 3 + t) :: s.lower.take 3⟩

/-- `n` more words of the message schedule before `w`, which holds it newest first. -/
def schedule : Nat → List Word → List Word
  | 0, w => w
  | n + 1, w =>
    let x := w.getD 14 0
    let y := w.getD 1 0
    schedule n ((w.getD 15 0 + w.getD 6 0 + (rotations x [7, 18] ^^^ (x >>> 3)) + (rotations y [17, 19] ^^^ (y >>> 10))) :: w)

/-- Four bytes as a word, most-significant first. -/
def beWord (l : List Byte) : Word := wd (l.foldl (fun n b => n * 256 + b.toNat) 0)

/-- A word as four bytes, most-significant first. -/
def beBytes (w : Word) : List Byte := (leBytes 4 w.toNat).reverse

/-- One block of 64 bytes. -/
def HashState.block (s : HashState) (b : List Byte) : HashState :=
  let w := (List.range 16).map fun i => beWord ((b.drop (4 * i)).take 4)
  let kw := ((hashPrimes.map (rootFraction 3)).zip (schedule 48 w.reverse).reverse).map fun p => p.1 + p.2
  let t := kw.foldl HashState.next s
  ⟨s.upper.zipWith (· + ·) t.upper, s.lower.zipWith (· + ·) t.lower⟩

/-- Some blocks. -/
def HashState.blocks : Nat → List Byte → HashState → HashState
  | 0, _, s => s
  | n + 1, b, s => HashState.blocks n (b.drop 64) (s.block (b.take 64))

/-- SHA-256. -/
def sha256 (b : List Byte) : List Byte :=
  let n := (b.length + 9 + 63) / 64
  let p := b ++ [0x80#8] ++ List.replicate (64 * n - b.length - 9) 0#8 ++ (leBytes 8 (8 * b.length)).reverse
  let s := HashState.init.blocks n p
  (s.upper ++ s.lower).flatMap beBytes

/-- HMAC-SHA-256 with a key of at most 64 bytes (RFC 2104). -/
def hmacSha256 (key msg : List Byte) : List Byte :=
  let k := key ++ List.replicate (64 - key.length) 0#8
  sha256 ((k.map fun b => b ^^^ 0x5C#8) ++ sha256 ((k.map fun b => b ^^^ 0x36#8) ++ msg))

end Sys2Proof.Machine
end

