-- ==== Sys2Proof/Machine/Rings.lean ====
section
/-! DEFINITION. The Yudel rings (R44–R81, R97–R102): their configuration, the reads of the doorbell and return blocks, fetching,
the acceptance of entries, refetches, and the MSI-X signals. -/

namespace Sys2Proof.Machine

/-! ### Configuration (R50, R61) -/

/-- CFG_IGNORED in the STAT register at `a`. -/
def State.cfgIgnored (s : State) (a : Nat) : State := s.orReg a 128

/-- Do two words differ in some bits? -/
def differIn (v w : Word) (mask : Nat) : Bool := (v &&& wd mask) != (w &&& wd mask)

/-- The fields of a ring's CFG that are fixed while it is not DISABLED: OWNER, AC_START, SIZE. -/
def sqFixed : Nat := bits 29 29 + bits 15 8 + bits 4 0
/-- The fixed fields of HIF_CQn_CFG and HIF_EQ_CFG: OWNER and SIZE. -/
def cqFixed : Nat := bits 29 29 + bits 4 0

/-- A read whose data will be dropped. -/
def Sq.stale (x : Sq) : Option (BitVec 24 × Nat) := if x.wait then none else x.flight.map fun (c, _) => (c, 0)

/-- A ring moves from DISABLED to RUNNING (R51, R61). -/
def State.sqStart (s : State) (q : RingId) : State :=
  let ac := fld (s.reg (Adr.HIF_SQ_CFG q)) 15 8
  s.modSq q fun x => { Sq.reset with state := .running, stall := x.stall, flight := x.stale, retryRef := x.retryRef,
                                     fresh := s.hif.dbFlight.length + 1, lastAc := BitVec.ofNat 8 (ac + 255) }

/-- A ring moves to DRAINING (R60, R61). -/
def State.sqDrain (s : State) (q : RingId) : State :=
  s.modSq q fun x => { x with state := .draining, flight := x.stale, wait := false }

/-- A write of HIF_SQn_CFG (R50, R60, R61). -/
def State.sqCfgWrite (s : State) (m : Master) (q : RingId) (w : Word) : State :=
  let a := Adr.HIF_SQ_CFG q
  match s.gate m a 0 with
  | (s1, false) => s1
  | (s1, true) =>
    let v := s1.written m a w
    let st := (s1.sq.get q).state
    if (st ≠ .disabled ∧ differIn v (s1.reg a) sqFixed) ∨
        (bitOf v 28 ∧ (st = .draining ∨ (st = .disabled ∧ ¬ (s1.cq.get q).enabled))) then
      s1.cfgIgnored (Adr.HIF_SQ_STAT q)
    else
      let s2 := (s1.setReg a v).rewritten a
      if bitOf v 28 then (if st = .disabled then s2.sqStart q else s2)
      else if st = .disabled ∨ st = .draining then s2 else s2.sqDrain q

/-- A write of HIF_CQn_CFG (R50, R51, R61). -/
def State.cqCfgWrite (s : State) (m : Master) (q : RingId) (w : Word) : State :=
  let a := Adr.HIF_CQ_CFG q
  match s.gate m a 0 with
  | (s1, false) => s1
  | (s1, true) =>
    let v := s1.written m a w
    let on := (s1.cq.get q).enabled
    if on ∧ (differIn v (s1.reg a) cqFixed ∨ (¬ bitOf v 28 ∧ (s1.sq.get q).state ≠ .disabled)) then
      s1.cfgIgnored (Adr.HIF_CQ_STAT q)
    else
      let s2 := (s1.setReg a v).rewritten a
      if bitOf v 28 then (if on then s2 else s2.modCq q fun _ => { Cq.reset with enabled := true })
      else s2.modCq q fun x => { x with enabled := false, waiting := [], fullDue := false, unsig := 0, oldest := none }

/-- A write of HIF_EQ_CFG (R51, R61, R75). -/
def State.eqCfgWrite (s : State) (m : Master) (w : Word) : State :=
  let a := Adr.HIF_EQ_CFG
  match s.gate m a 0 with
  | (s1, false) => s1
  | (s1, true) =>
    let v := s1.written m a w
    let on := s1.eq.enabled
    if on ∧ differIn v (s1.reg a) cqFixed then s1.cfgIgnored Adr.HIF_EQ_STAT
    else
      let s2 := (s1.setReg a v).rewritten a
      if bitOf v 28 then (if on then s2 else { s2 with eq := { EvRing.reset with enabled := true } })
      else { s2 with eq := { s2.eq with enabled := false, unsig := 0, oldest := none } }

/-- A write of a ring's base: ignored as a whole while the ring is not DISABLED and the write would change it (R61). -/
def State.baseWrite (s : State) (m : Master) (a : Nat) (w : Word) (on : Bool) (stat : Nat) : State :=
  match s.gate m a 0 with
  | (s1, false) => s1
  | (s1, true) =>
    let v := s1.written m a w
    if on ∧ v ≠ s1.reg a then s1.cfgIgnored stat else (s1.setReg a v).rewritten a

/-- SQ_ENABLE: a write of HIF_SQn_CFG with ENABLE 1 (R50, R61). -/
def execSqEnable (m : Master) (q : RingId) (w : Word) (s : State) : Host.Outcome State Fault Refusal :=
  .next (if bitOf w 28 then s.sqCfgWrite m q w else s)
/-- SQ_DISABLE: a write of HIF_SQn_CFG with ENABLE 0 (R60, R61). -/
def execSqDisable (m : Master) (q : RingId) (w : Word) (s : State) : Host.Outcome State Fault Refusal :=
  .next (if bitOf w 28 then s else s.sqCfgWrite m q w)
/-- SQ_DRAIN_DONE: every accepted descriptor of a DRAINING ring has completed (R60). -/
def execSqDrainDone (q : RingId) (s : State) : Host.Outcome State Fault Refusal :=
  .next (if (s.sq.get q).state = .draining ∧ s.ord.descs.all fun d => d.ring != q || d.mute then
    s.modSq q fun x => { x with state := .disabled } else s)
/-- CQ_ENABLE: a write of HIF_CQn_CFG with ENABLE 1 (R50, R51). -/
def execCqEnable (m : Master) (q : RingId) (w : Word) (s : State) : Host.Outcome State Fault Refusal :=
  .next (if bitOf w 28 then s.cqCfgWrite m q w else s)
/-- CQ_DISABLE: a write of HIF_CQn_CFG with ENABLE 0 (R50). -/
def execCqDisable (m : Master) (q : RingId) (w : Word) (s : State) : Host.Outcome State Fault Refusal :=
  .next (if bitOf w 28 then s else s.cqCfgWrite m q w)
/-- EQ_ENABLE: a write of HIF_EQ_CFG with ENABLE 1 (R51, R61). -/
def execEqEnable (m : Master) (w : Word) (s : State) : Host.Outcome State Fault Refusal :=
  .next (if bitOf w 28 then s.eqCfgWrite m w else s)
/-- EQ_DISABLE: a write of HIF_EQ_CFG with ENABLE 0 (R61). -/
def execEqDisable (m : Master) (w : Word) (s : State) : Host.Outcome State Fault Refusal :=
  .next (if bitOf w 28 then s else s.eqCfgWrite m w)

/-! ### The block reads (R52–R55) -/

/-- Issue a read of the doorbell block. -/
def State.readDoorbell (s : State) (r : BlockRead) : State :=
  let t := s.emit (.dmaRead 0 (s.reg64 Adr.HIF_DBA_LO) 64)
  { t with hif := { t.hif with dbFlight := t.hif.dbFlight ++ [r] } }

/-- Issue a read of the return block. -/
def State.readReturn (s : State) (r : BlockRead) : State :=
  let t := s.emit (.dmaRead 0 (s.reg64 Adr.HIF_RBA_LO) 128)
  { t with hif := { t.hif with rbFlight := t.hif.rbFlight ++ [r] } }

/-- Issue the pair of block reads of a kick (R54). -/
def State.kickReads (s : State) : State := (s.readDoorbell ⟨true, 1⟩).readReturn ⟨true, 1⟩

/-- A write of 1 to HIF_KICK.GO (R54). Where several reads of the doorbell block are outstanding, the pair that DB_PENDING stands for
is issued as the oldest of them ends (DESIGN CHOICE, log 191). -/
def State.kick (s : State) : State :=
  if s.hif.linkUp then
    (if s.hif.dbFlight = [] then s.kickReads else { s with hif := { s.hif with dbPending := true } })
  else s

/-- A write of 1 to HIF_KICK.GO (R54). -/
def State.kickWrite (s : State) (m : Master) : State :=
  if s.reaches m 0x20008 0 then s.kick else s

/-- HIF_KICK (R54). -/
def execHifKick (m : Master) (s : State) : Host.Outcome State Fault Refusal := .next (s.kickWrite m)

/-- A failed block read: HIF_STAT.DB_FETCH_ERR and RING_FETCH_ERROR with the attempts made (R55, R62, R78). -/
def State.blockFailed (s : State) (err : BitVec 8) (attempt : Nat) : State :=
  (s.orReg Adr.HIF_STAT 4).raise 3 0x121 (wd (err.toNat + 256 * min 255 attempt)) 0

/-! ### Fetching (R57, R102) -/

/-- Staging slots in use by ring `q` (R57). -/
def State.stagedIn (s : State) (q : RingId) : Nat := (s.ord.descs.filter fun d => d.ring == q && d.stage == .staged).length

/-- log2 of submission ring `q`'s entries. -/
def State.sqSize (s : State) (q : RingId) : Nat := s.rf (Adr.HIF_SQ_CFG q) 4 0

/-- Slot of a count. -/
def State.slotOfCount (s : State) (q : RingId) (c : BitVec 24) : Nat := c.toNat % 2 ^ s.sqSize q

/-- Does completion ring `q` let its submission ring fetch and accept (R102)? -/
def State.cqOpen (s : State) (q : RingId) : Bool := !s.cqFull q && (s.cq.get q).waiting.isEmpty

/-- Issue a descriptor read of `n` entries from FCOUNT. -/
def State.issueRead (s : State) (q : RingId) (n : Nat) : State :=
  let c := (s.sq.get q).fcount
  (s.emit (.dmaRead (s.owner q) (s.reg64 (Adr.HIF_SQ_BASE_LO q) + 64 * s.slotOfCount q c) (64 * n))).modSq q fun x =>
    { x with flight := some (c, n), wait := false }

/-- How many entries the next descriptor read of ring `q` covers (R57). -/
def State.fetchLen (s : State) (q : RingId) : Nat :=
  let x := s.sq.get q
  let slot := s.slotOfCount q x.fcount
  let addr := s.reg64 (Adr.HIF_SQ_BASE_LO q) + 64 * slot
  min (min (min 8 (x.pcount - x.fcount).toNat) (32 - s.stagedIn q)) (min (2 ^ s.sqSize q - slot) ((4096 - addr % 4096) / 64))

/-- Fetch for ring `q`, where it may (R57, R60, R102). A ring has one descriptor read outstanding, and a read of an earlier enable whose
data will be dropped counts as it (DESIGN CHOICE, log 193). -/
def State.fetchOne (s : State) (q : RingId) : State :=
  let x := s.sq.get q
  let n := s.fetchLen q
  if x.state = .running ∧ x.flight.isNone ∧ x.fresh = 0 ∧ s.hif.linkUp ∧ s.cqOpen q ∧ n ≠ 0 then s.issueRead q n else s

/-- Serve the rings round-robin (R57). -/
def State.fetchAll (s : State) : State :=
  s.forAll (List.range 16) fun t i => t.fetchOne (Fin.ofNat 16 (s.hif.turn + i))

/-! ### The doorbell and the return block (R56, R61, R63) -/

/-- Is a producer count valid (R56)? -/
def State.pcountOk (s : State) (q : RingId) (p : BitVec 24) : Bool :=
  let r := s.rcount q
  decide ((p - r).toNat ≤ 2 ^ s.sqSize q) && decide ((p - (s.sq.get q).fcount).toNat ≤ (p - r).toNat)

/-- Take a ring's doorbell word (R56, R61, R63). -/
def State.doorbell (s : State) (q : RingId) (w : Word) : State :=
  let x := s.sq.get q
  if x.state = .disabled ∨ x.state = .draining then s
  else if 1 < x.fresh then s.modSq q fun x => { x with fresh := x.fresh - 1 }
  else
    let p : BitVec 24 := w.setWidth 24
    let retry : Byte := BitVec.ofNat 8 (fld w 31 24)
    let s1 := if x.fresh = 1 then s.modSq q fun x => { x with fresh := 0, retryRef := retry } else s
    let s2 :=
      if s1.pcountOk q p then s1.modSq q fun x => { x with pcount := p }
      else if x.badP.contains p then s1
      else (s1.modSq q fun x => { x with badP := p :: x.badP }).raise 6 (0x100 + q.val) w (wd (s1.rcount q).toNat)
    if (x.state = .stalledCheck ∨ x.state = .stalledGap) ∧ x.flight.isNone ∧ s2.cqOpen q ∧ retry ≠ (s2.sq.get q).retryRef then
      (s2.modSq q fun x => { x with retryRef := retry }).issueRead q 1
    else s2

/-- Word `n` of a block. -/
def wordAt (b : List Byte) (n : Nat) : Word := wd (u32 b (4 * n))

/-- A read of the doorbell block that was outstanding at the enable has ended without data (R61). -/
def Sq.passed (x : Sq) : Sq := if 1 < x.fresh then { x with fresh := x.fresh - 1 } else x

/-- DOORBELL_BLOCK_READ_DONE (R54–R57, R61, R63): the oldest outstanding read has ended; the reads end in the order in which they were
issued (DESIGN CHOICE, log 191). -/
def execDoorbellBlockReadDone (r : HostRead) (s : State) : Host.Outcome State Fault Refusal :=
  .next (
    match s.hif.dbFlight with
    | [] => s
    | f :: fs =>
      let s1 := { s with hif := { s.hif with dbFlight := fs } }
      let s2 := match r with
        | .failed e =>
          let u := s1.blockFailed e f.attempt
          { u with hif := { u.hif with dbAgain := f.attempt }, sq := u.sq.map Sq.passed }
        | .data b => s1.forAll (allFin 16) fun t q => t.doorbell q (wordAt b q)
      let s3 := if s2.hif.dbPending then { s2 with hif := { s2.hif with dbPending := false } }.kickReads else s2
      s3.fetchAll)

/-- Is a head count valid (R56)? -/
def headOk (w h0 h : BitVec 24) (size : Nat) : Bool :=
  decide ((w - h).toNat ≤ 2 ^ size) && decide ((h - h0).toNat ≤ (w - h0).toNat)

/-- Take completion ring `q`'s head count, and write what waited (R56, R102). -/
def State.takeHead (s : State) (q : RingId) (w : Word) : State :=
  let c := s.cq.get q
  let h : BitVec 24 := w.setWidth 24
  if ¬ c.enabled then s
  else if headOk c.wcount c.head h (s.cqSize q) then
    (s.modCq q fun c => { c with head := h }).drainWaiting q c.waiting
  else if c.badH.contains h then s
  else (s.modCq q fun c => { c with badH := h :: c.badH }).raise 6 (0x110 + q.val) w (wd c.wcount.toNat)

/-- Take the event ring's head count (R56, R77). -/
def State.takeEqHead (s : State) (w : Word) : State :=
  let e := s.eq
  let h : BitVec 24 := w.setWidth 24
  if ¬ e.enabled then s
  else if headOk e.wcount e.head h s.eqSize then { s with eq := { e with head := h } }.eqOverflow
  else if e.badH.contains h then s
  else { s with eq := { e with badH := h :: e.badH } }.raise 6 0x120 w (wd e.wcount.toNat)

/-- RETURN_BLOCK_READ_DONE (R53, R55, R56, R77, R102): the oldest outstanding read has ended (DESIGN CHOICE, log 191). -/
def execReturnBlockReadDone (r : HostRead) (s : State) : Host.Outcome State Fault Refusal :=
  .next (
    match s.hif.rbFlight with
    | [] => s
    | f :: fs =>
      let s1 := { s with hif := { s.hif with rbFlight := fs } }
      match r with
      | .failed e =>
        let u := s1.blockFailed e f.attempt
        { u with hif := { u.hif with rbAgain := f.attempt } }
      | .data b => ((s1.forAll (allFin 16) fun t q => t.takeHead q (wordAt b q)).takeEqHead (wordAt b 16)).fetchAll)

/-! ### Acceptance (R69) -/

/-- A ring-level record (R69, R71). -/
def ringRec (status : Byte) (axis alive opcode : Byte) (tag : Word) (fr : FrameNo) (d0 d1 : Word) : Rec :=
  ⟨status, axis, alive, opcode, tag, fr, d0, d1, none, false⟩

/-- The descriptor of an accepted entry. -/
def State.newDesc (s : State) (q : RingId) (c : BitVec 24) (e : List Byte) : Desc where
  acc := s.ord.next
  ring := q
  count := c
  accFrame := s.frm.count
  bytes := e
  mute := false
  rej := s.rejection q e
  stage := .staged
  eff := 0
  begun := false
  repl := false
  arrives := none
  out := none
  headAt := none
  holdTold := false
  held := none
  grantAt := none
  members := []
  targets := none
  readAt := BitVec.allOnes 64
  tries := none
  tried := 0
  refetch := false
  arrived := none
  snapF := 0
  snapN := 0
  snapDone := false
  snapBy := 0
  snapW := false
  starts := []
  slotEnd := 0

/-- Is a descriptor timed, and accepted at or after tick F − 1 (R89)? -/
def Desc.late (d : Desc) : Bool :=
  d.op != 0 && !d.isTrig && d.start != 0 && decide (d.start ≤ d.accFrame.toNat + 1)

/-- A read that a descriptor needs goes out, or waits for the link (R48). -/
def State.readFor (s : State) (d : Desc) (addr len : Nat) : State :=
  if s.hif.linkUp then s.emit (.dmaRead (s.owner d.ring) addr len) else s.modDesc d.acc fun e => { e with readAt := s.frm.count }

/-- The read of a GROUP_MOVE's target list (R154). -/
def State.readList (s : State) (d : Desc) : State := s.readFor d (u64 d.bytes 24) (4 * u16 d.bytes 32)

/-- An accepted descriptor after steps 3 and 4 of R69: kept, or retired at acceptance. -/
def State.accept (s : State) (d : Desc) : State :=
  let s1 := { s with ord := { s.ord with next := s.ord.next + 1, descs := s.ord.descs ++ [d] } }
  if d.rej.isSome then (if d.axis?.isSome then s1 else s1.finishRejected d s.frm.count)
  else if d.late then s1.finish d 5 8 (wd (s.frm.count + 2).toNat) s.frm.count
  else if d.op = 0x10 ∧ 0 < u16 d.bytes 32 ∧ u16 d.bytes 32 ≤ 200 then
    (s1.modDesc d.acc fun e => { e with tries := some (s.rf Adr.HIF_CFG 6 4), tried := 0 }).readList d
  else s1

/-- Pass one entry through acceptance; the second part is whether the entry was consumed. -/
def State.acceptEntry (s : State) (q : RingId) (e : List Byte) : State × Bool :=
  let x := s.sq.get q
  let c := x.fcount
  let slot := s.slotOfCount q c
  let fr := s.frm.count
  let want : Byte := x.lastAc + 1
  let got : Byte := e.getD 2 0
  let tag := wd (u32 e 4)
  let d0 := wd (slot + got.toNat * 65536)
  if crc32c (e.take 60) ≠ wd (u32 e 60) then
    let n := x.attempts + 1
    let s1 := s.modSq q fun x => { x with state := .stalledCheck, stall := BitVec.ofNat 16 slot, attempts := n }
    ((s1.produce q (ringRec 3 0xFF want 0 0 fr (wd slot) (wd n))).raise 0 (0x100 + q.val) (wd slot) (wd n), false)
  else
    let d := (got - x.lastAc).toNat
    if d = 0 ∨ 129 ≤ d then
      let s1 := s.modSq q fun x => { x with fcount := c + 1, state := .running }
      ((s1.produce q (ringRec 1 (e.getD 1 0) got (e.getD 0 0) tag fr d0 0)).raise 2 (0x100 + q.val) d0 tag, true)
    else if 2 ≤ d then
      let s1 := s.modSq q fun x => { x with state := .stalledGap, stall := BitVec.ofNat 16 slot }
      ((s1.produce q (ringRec 2 (e.getD 1 0) got (e.getD 0 0) tag fr d0 (wd want.toNat))).raise 1 (0x100 + q.val) d0 (wd want.toNat),
        false)
    else
      let s1 := s.modSq q fun x => { x with lastAc := got, attempts := 0, state := .running, fcount := c + 1 }
      (s1.accept (s.newDesc q c e), true)

/-- Pass `n` entries through acceptance in slot order, as far as the ring goes on (R69, R97, R102). Entries that come while the
completion ring is FULL are dropped, and fetched again once it has room. A stalled entry that a change of RETRY refetched and that comes
so is dropped too, with its RETRY byte taken, so that a further change of RETRY is needed (R63; DESIGN CHOICE, log 192). -/
def State.acceptAll (q : RingId) : Nat → List Byte → State → State
  | 0, _, s => s
  | n + 1, b, s =>
    if s.cqOpen q then
      match s.acceptEntry q (b.take 64) with
      | (t, true) => t.acceptAll q n (b.drop 64)
      | (t, false) => t
    else s

/-- A descriptor read has failed (R60, R62): RING_FETCH_ERROR for the first failure and for the end of the retries, with the attempts
made (R78). -/
def State.fetchFailed (s : State) (q : RingId) (c : BitVec 24) (n : Nat) (err : BitVec 8) : State :=
  let x := s.sq.get q
  let ev (t : State) (att : Nat) : State := t.raise 3 (0x100 + q.val) (wd (err.toNat + 256 * att)) (wd (s.slotOfCount q c))
  let made := if x.state = .fetchWait then x.tried + 1 else 1
  let s1 := if x.state = .fetchWait then s else ev s 1
  let left := if x.state = .fetchWait then x.tries - 1 else s.rf Adr.HIF_CFG 6 4
  if left = 0 then ev (s1.modSq q fun x => { x with state := .error, flight := none, wait := false, tries := 0, tried := made }) made
  else s1.modSq q fun x => { x with state := .fetchWait, flight := some (c, n), wait := true, tries := left, tried := made }

/-- DESCRIPTOR_READ_DONE (R57, R60, R62, R69, R83). -/
def execDescriptorReadDone (q : RingId) (r : HostRead) (s : State) : Host.Outcome State Fault Refusal :=
  .next (
    let x := s.sq.get q
    match x.flight with
    | none => s
    | some (c, n) =>
      if x.wait then s
      else
        let s1 := s.modSq q fun x => { x with flight := none }
        if n = 0 then s1.fetchAll
        else
          match r with
          | .failed e => (s1.fetchFailed q c n e).fetchAll
          | .data b =>
            if b.length = 64 * n then
              let s2 := if x.state = .fetchWait then s1.modSq q fun x => { x with state := .running, tries := 0 } else s1
              ((s2.acceptAll q n b).enterRing q 64).fetchAll
            else s)

/-- ENTER_ORDERING (R83, R84): the descriptors of a ring's staging that can enter ordering. -/
def execEnterOrdering (q : RingId) (s : State) : Host.Outcome State Fault Refusal := .next ((s.enterRing q 64).fetchOne q)

/-! ### Refetches (R100) -/

/-- The read of a descriptor's own slot. -/
def State.readSlot (s : State) (d : Desc) : State :=
  s.readFor d (s.reg64 (Adr.HIF_SQ_BASE_LO d.ring) + 64 * s.slotOfCount d.ring d.count) 64

/-- An uncorrectable error has hit a held descriptor: refetch its slot (R100). One that would have taken effect in the next frame has not
taken effect, and waits for its start again. -/
def State.hitDesc (s : State) (d : Desc) : State :=
  if (d.stage = .staged ∨ d.stage = .queued ∨ (d.stage = .effect ∧ ¬ d.begun)) ∧ ¬ d.refetch then
    let t := if d.stage = .effect then (s.undo d.acc).putBack d.acc else s
    (t.modDesc d.acc fun e => { e with refetch := true, tries := some (s.rf Adr.HIF_CFG 6 4), tried := 0, readAt := BitVec.allOnes 64 }).readSlot d
  else s

/-- A held descriptor ends as FAULT_ABORT (R100); where it fails its check its axis becomes FAULTED. -/
def State.abortHeld (s : State) (d : Desc) (event : Nat) (faults : Bool) : State :=
  let s1 := s.finish d 8 (wd event) (s.posWord d) s.frm.count
  if faults then s1.forAll d.axes fun t x => t.faultAxis x event else s1

/-- DESCRIPTOR_REFETCH_DONE (R100). A ring that is DRAINING or DISABLED when the retries are spent stays so, as R60 lets it go nowhere else
(DESIGN CHOICE, log 194). -/
def execDescriptorRefetchDone (d : Nat) (r : HostRead) (s : State) : Host.Outcome State Fault Refusal :=
  .next (
    match s.desc? d with
    | none => s
    | some e =>
      match e.refetch, e.tries with
      | true, some n =>
        if e.readAt ≠ BitVec.allOnes 64 then s
        else match r with
        | .data b =>
          if b.length ≠ 64 then s
          else if crc32c (b.take 60) = wd (u32 b 60) ∧ b.getD 2 0 = e.bytes.getD 2 0 then
            let again := e.op == 0x10 && e.targets.isNone && e.rej.isNone
            let t := s.modDesc d fun x =>
              { x with bytes := b, refetch := false, tries := if again then some (s.rf Adr.HIF_CFG 6 4) else none, tried := 0 }
            if again then t.readList { e with bytes := b } else t
          else s.abortHeld e 57 true
        | .failed err =>
          if n = 0 then
            let s1 := s.raise 3 (0x100 + e.ring.val) (wd (err.toNat + 256 * (e.tried + 1))) (wd (s.slotOfCount e.ring e.count))
            let s2 := s1.abortHeld e 3 false
            s2.modSq e.ring fun x =>
              if x.state = .disabled ∨ x.state = .draining then x else { x with state := .error, flight := x.stale, wait := false }
          else s.modDesc d fun x => { x with tries := some (n - 1), tried := x.tried + 1, readAt := s.frm.count }
      | _, _ => s)

/-! ### MSI-X (R80) -/

/-- Has the coalescing time of a ring passed? -/
def State.coalesced (s : State) (cfg : Word) : Option FrameNo → Bool
  | some f => fld cfg 27 20 != 0 && decide (fld cfg 27 20 ≤ s.since f)
  | none => false

/-- MSIX_COALESCE_TIMEOUT (R80): source 16 is the event ring. -/
def execMsixCoalesceTimeout (src : Fin 17) (s : State) : Host.Outcome State Fault Refusal :=
  .next (
    if h : src.val < 16 then
      let q : RingId := ⟨src.val, h⟩
      if s.coalesced (s.reg (Adr.HIF_CQ_CFG q)) (s.cq.get q).oldest then s.signalCq q else s
    else if s.coalesced (s.reg Adr.HIF_EQ_CFG) s.eq.oldest then s.signalEq else s)

/-- MSIX_VECTOR_UNMASK (R80): the vector's pending message goes out. -/
def execMsixVectorUnmask (f : Fin 2) (v : Fin 16) (s : State) : Host.Outcome State Fault Refusal := .next (s.unmask f v)

/-! ### The MSI-X window (R44)

BAR2 of PF0 and of PF1, as the addresses 0x40_0000 to 0x40_0FFF of that function (DESIGN CHOICE, log 190). The table holds for each
vector its address, its data and a word whose bit 0 masks it, as PCI Express lays it out (PRESUMED, log 190). -/

/-- Does an address name a word of BAR2, for a master that has one? -/
def inBar2 (m : Master) (a : Nat) : Bool :=
  (m == .pf0 || m == .pf1) && decide (0x400000 ≤ a) && decide (a < 0x401000) && decide (a % 4 = 0)

/-- The function of a master. -/
def funOf (m : Master) : Fin 2 := if m = .pf1 then 1 else 0

/-- The word at an offset of BAR2. -/
def State.bar2View (s : State) (f : Fin 2) (o : Nat) : Word :=
  if o < 0x100 then
    let v : Fin 16 := Fin.ofNat 16 (o / 16)
    let e := s.hif.vector f v
    match o % 16 with
    | 0 => e.addr.setWidth 32
    | 4 => (e.addr >>> 32).setWidth 32
    | 8 => e.data
    | _ => wd (b2n ((if f = 0 then s.hif.mask0 else s.hif.mask1).getLsbD v))
  else if o = 0x800 then (if f = 0 then s.hif.pend0 else s.hif.pend1).setWidth 32
  else 0

/-- Change the entry of vector `v` of function `f`. -/
def State.modVector (s : State) (f : Fin 2) (v : Fin 16) (g : MsixEntry → MsixEntry) : State :=
  { s with hif := if f = 0 then { s.hif with table0 := s.hif.table0.modify v g } else { s.hif with table1 := s.hif.table1.modify v g } }

/-- Write the word at an offset of BAR2: the pending bits are read only. -/
def State.bar2Write (s : State) (f : Fin 2) (o : Nat) (w : Word) : State :=
  if 0x100 ≤ o ∨ ¬ s.sys.powered then s
  else
    let v : Fin 16 := Fin.ofNat 16 (o / 16)
    match o % 16 with
    | 0 => s.modVector f v fun e => { e with addr := (e.addr >>> 32 <<< 32) ||| (w &&& ~~~3).setWidth 64 }
    | 4 => s.modVector f v fun e => { e with addr := (w.setWidth 64 <<< 32) ||| (e.addr.setWidth 32).setWidth 64 }
    | 8 => s.modVector f v fun e => { e with data := w }
    | _ => if bitOf w 0 then s.maskVector f v else s.unmask f v

/-- Read the word at an offset of BAR2. -/
def State.bar2Read (s : State) (f : Fin 2) (o : Nat) : State := { s with bus := if s.sys.powered then s.bar2View f o else 0 }

end Sys2Proof.Machine
end

