-- ==== Sys2Proof/Machine/Access.lean ====
section
/-! DEFINITION. How masters reach the registers (R27, R391–R408): reads with their captures and clears, writes and where each goes, locked
words, the service SPI port, the SRAM with its protection, configuration parity; also the commands of the frame watchdog's register. -/

namespace Sys2Proof.Machine

/-! ### Captures (R27, R401, R403) -/

/-- The _LO registers that stand alone, by offset (R42, R81, R365, R390, R414, R444). -/
def loAlone : List Nat :=
  [0x10, 0x10010, 0x20010, 0x20018, 0x20020, 0x30000, 0x30008, 0x40020, 0x40028, 0x180020, 0x1A0040, 0x1A0048, 0x1A0050, 0x1A0058,
    0x1C0008]

/-- Is `a` a register named _LO whose _HI follows it at +4? Slot words of a probe snapshot are told apart. -/
def isLo (a : Nat) : Bool :=
  loAlone.contains a || among a (Adr.HIF_SQ_BASE_LO 0) 0x20 32 || among a 0x150404 0x20 64 || among a 0x1A0400 8 14 ||
    among a 0x1A0800 8 200 ||
    (decide (Adr.FB 0 ≤ a) && decide (a < Adr.FB 24) && [0x1C, 0x24, 0x2C, 0x3C, 0x44, 0x4C, 0x64].contains (a % 0x400))

/-- Is `a` the LO word of a slot of a probe snapshot? -/
def isResLo (a : Nat) : Bool :=
  decide (Adr.PRB_CFG 0 ≤ a) && decide (a < Adr.PRB_CFG 16) && among (a % 0x80) 0x20 8 8

/-- The companions that a read of `a` captures (R27, R146, R205, R312, R388, R401). -/
def companions (a : Nat) : List Nat :=
  if isLo a ∨ isResLo a then [a + 4]
  else if among a 0x80008 0x400 200 then [a + 4]
  else if among a (Adr.AX_ID_STAT 0) 0x400 200 then [a + 4, a + 8]
  else if among a (Adr.PRB_STAT 0) 0x80 16 then
    [a + 4, a + 8] ++ (List.range 16).map fun i => a + 0x1C + 4 * i
  else if a = Adr.WB_RECSTAT then (List.range 64).map fun i => a + 0x100 + 4 * i
  else []

/-- The captured word of a master at `a`, where it holds one. -/
def State.capOf (s : State) (m : Master) (a : Nat) : Option Word :=
  (s.caps.find? fun c => c.master == m.code && c.addr == a).map (·.word)

/-- A read of `a` by a master captures its companions; a slot word that is itself captured captures nothing more (R401, R403). -/
def State.captureFor (s : State) (m : Master) (a : Nat) : State :=
  let cs := if isResLo a ∧ (s.capOf m a).isSome then [] else companions a
  if cs = [] then s
  else
    let kept := s.caps.filter fun c => !(c.master == m.code && cs.contains c.addr)
    { s with caps := kept ++ cs.map fun b => ⟨m.code, b, s.view m b⟩ }

/-! ### Reads (R393, R399) -/

/-- The RC bits that a read by a master clears (R399). -/
def rcFor (m : Master) (a : Nat) : Nat :=
  match rowOf a with
  | some r => if m.admin then r.rc else r.rc - (r.rc &&& r.prv)
  | none => 0

/-- A read of the register at `a` (R393, R399, R401). -/
def State.readPlain (s : State) (m : Master) (a : Nat) : State :=
  if ¬ s.sys.powered ∨ ¬ s.maySee m a then { s with bus := 0 }
  else
    let v := (s.capOf m a).getD (s.view m a)
    let t := s.captureFor m a
    let n := rcFor m a
    { (if n = 0 then t else t.clrReg a n) with bus := v }

/-! ### The SRAM (R405–R407) -/

/-- The region of an SRAM offset (R405). -/
def regionOf (o : Nat) : Nat :=
  if o < 0x18000 then 0
  else if o < 0x30000 then 1
  else if o < 0x50000 then 2
  else if o < 0x60000 then 3
  else if o < 0xD0000 then 4
  else if o < 0xE8000 then 5
  else if o < 0xF4000 then 6
  else if o < 0xFC000 then 7
  else 8

/-- The data of an SRAM word: of the motor cards, which R405 lays out; the spec does not lay out the others, so that they are free
values. -/
def State.sramWord (s : State) (o : Nat) : Word × State :=
  if regionOf o = 2 then
    let c := s.cards.get (Fin.ofNat 64 ((o - 0x30000) / 0x800))
    ((if (o / 0x400) % 2 = 0 then c.act else c.stg).view (o % 0x400), s)
  else s.drawFree

/-- The UNIT of an error (R410): the SRAM, or an internal bus. -/
def eccUnit : EccFinder → Nat
  | .scrubber => 0x221
  | .access => 0x221
  | .bus => 0x222
  | .registerWrite => 0x222
  | .registerRead => 0x222

/-- Does the bus carry a register's word? -/
def onRegister (f : EccFinder) : Bool := f == .registerWrite || f == .registerRead

/-- D0 of an error (R413): the SRAM offset, 0 for a bus. -/
def eccPlace (f : EccFinder) (o : Nat) : Nat := if eccUnit f = 0x221 then o else 0

/-- The region of an error, the offset that ACC_ECC_ADDR takes, and the state after finding them: for a transfer to or from a register
the spec states neither, so that they are bits of a free value. -/
def State.eccWord (s : State) (f : EccFinder) (o : Nat) : Nat × Nat × State :=
  if onRegister f then (let (v, t) := s.drawFree; (v.toNat % 256, v.toNat / 256 % 2 ^ 20, t)) else (regionOf o, o, s)

/-- A corrected error (R407). -/
def State.corrected (s : State) (f : EccFinder) (o : Nat) (syn : Byte) : State :=
  let r := s.eccWord f o
  let n := r.2.2.acc.ceWin
  let t := { (r.2.2.incReg Adr.ACC_ECC_CECNT).orReg Adr.ACC_ECC_STAT 1 with acc := { r.2.2.acc with ceWin := n + 1 } }
  if n = 0 then t.raise 56 (eccUnit f) (wd (eccPlace f o)) (wd (syn.toNat + 256 * r.1 + 65536 * b2n (f == .scrubber) + 2 ^ 24)) else t

/-- The held descriptor of a word of region 0 or 7: the spec does not place them, so that entries are taken in acceptance order, and
staging slots by ring position. -/
def State.descAt (s : State) (o : Nat) : Option Desc :=
  if regionOf o = 0 then (s.ord.descs.filter fun d => d.stage != .staged)[o / 64]?
  else
    let n := o - 0xF4000
    s.ord.descs.find? fun d => d.stage == .staged && d.ring.val == n / 0x800 && d.count.toNat % 32 == n % 0x800 / 64

/-- The stores of cam lines (R167), with their axes: of the cam that an axis follows, and of the one at the head of its queue (true). -/
def State.camStores (s : State) : List (AxisId × Bool × FollowSt) :=
  (allFin 200).flatMap fun x =>
    let a := s.ax.get x
    (match a.fol with | some f => if f.kind = .cam then [(x, false, f)] else [] | none => []) ++
      (match a.ahead with | some f => [(x, true, f)] | none => [])

/-- The store that holds a word of region 3, and the line: lines in the order of the store. -/
def State.lineAt (s : State) (o : Nat) : Option (AxisId × Bool × Nat) :=
  let n := o - 0x50000
  s.camStores[n / 0x800]?.bind fun (x, ahead, f) => f.lines[n % 0x800 / 64]?.map fun e => (x, ahead, e.1)

/-- A line is discarded (R407). -/
def FollowSt.discard (f : FollowSt) (l : Nat) : FollowSt := { f with lines := f.lines.filter fun e => e.1 != l }

/-- The axis of a word of the axis states or of the histories: the spec does not lay out the latter, so that the axis is a free value. -/
def State.axisOfWord (s : State) (o : Nat) : Option AxisId × State :=
  if regionOf o = 1 then
    let n := (o - 0x18000) / 480
    (if h : n < 200 then some ⟨n, h⟩ else none, s)
  else
    let (v, t) := s.drawFree
    (some (Fin.ofNat 200 v.toNat), t)

/-- An event record that waits in region 5 is lost, and counted as a dropped event (R77, R407). -/
def State.loseRecord (s : State) (n : Nat) : State :=
  let waits : List (EvRec × Nat) := s.hif.held.zipIdx.filterMap fun e => match e.1 with
    | .event r => some (r, e.2)
    | .completion _ _ => none
  match waits[n]? with
  | none => s
  | some (r, i) =>
    { s with
      hif := { s.hif with held := s.hif.held.eraseIdx i }
      eq := { s.eq with dropped := min (s.eq.dropped + 1) 65535,
                        firstDrop := if s.eq.dropped = 0 then r.seq else s.eq.firstDrop } }

/-- An uncorrectable error (R407): counted, told, and its region's action taken. -/
def State.uncorrectable (s : State) (f : EccFinder) (o : Nat) (syn : Byte) : State :=
  let r := s.eccWord f o
  let s1 := ((r.2.2.incReg Adr.ACC_ECC_UECNT).setReg Adr.ACC_ECC_ADDR (wd r.2.1)).orReg Adr.ACC_ECC_STAT 2
  let told (t : State) (unit : Nat) : State :=
    t.raise 57 unit (wd (eccPlace f o)) (wd (syn.toNat + 256 * r.1 + 65536 * b2n (f == .scrubber)))
  if onRegister f then
    (let t := told s1 (eccUnit f); if f = .registerRead then t.emit .poisonedRead else t)
  else match regionOf o with
  | 0 => (match s.descAt o with | some d => (told s1 (eccUnit f)).hitDesc d | none => told s1 (eccUnit f))
  | 7 => (match s.descAt o with | some d => (told s1 (eccUnit f)).hitDesc d | none => told s1 (eccUnit f))
  | 2 =>
    let c : Fin 64 := Fin.ofNat 64 ((o - 0x30000) / 0x800)
    let on := (s1.usersNow c).filter fun x => (s1.ax.get x).energised
    (told (s1.faultEnergised (s1.usersNow c) 57).1 (match on with | [x] => x.val | _ => (eccUnit f))).reloadCard c
  | 3 =>
    (match s.lineAt o with
    | some (x, ahead, l) =>
      (told s1 x.val).modAx x fun a =>
        if ahead then { a with ahead := a.ahead.map (FollowSt.discard · l) } else { a with fol := a.fol.map (FollowSt.discard · l) }
    | none => told s1 (eccUnit f))
  | 4 =>
    let u := (o - 0x60000) / 0x10000
    let t := told s1 (eccUnit f)
    { t with upd := { t.upd with restart := t.upd.restart ||| BitVec.ofNat 7 (2 ^ u) }
             frm := { t.frm with refsOk := t.frm.refsOk &&& ~~~(BitVec.ofNat 7 (2 ^ u)) } }
  | 5 => (told s1 (eccUnit f)).loseRecord ((o - 0xD0000) / 32)
  | 8 => told s1 (eccUnit f)
  | _ =>
    match s1.axisOfWord o with
    | (some x, t) => (told (t.bridgeFaulted x 57) x.val).reloadAxis x
    | (none, t) => told t (eccUnit f)

/-- A read of the aperture (R406): an uncorrectable word reads all ones and has no other effect than APER_UE. -/
def State.apertureRead (s : State) (m : Master) (o : Nat) (found : EccResult) : State :=
  if ¬ s.sys.powered ∨ m ≠ .pf0 ∨ ¬ s.rb Adr.ACC_OPT 1 then { s with bus := 0 }
  else
    match found with
    | .uncorrectable _ => { s.orReg Adr.ACC_ECC_STAT 4 with bus := 0xFFFFFFFF }
    | .good => let (v, t) := s.sramWord o; { t with bus := v }
    | .correctable syn => let (v, t) := s.sramWord o; { t.corrected .access o syn with bus := v }

/-- SRAM_APERTURE_READ (R405, R406). -/
def execSramApertureRead (m : Master) (off : Nat) (found : EccResult) (s : State) : Host.Outcome State Fault Refusal :=
  if 0x100000 ≤ off then .fault .outsideBlock else .next (s.apertureRead m off found)

/-- SCRUB_READ (R407): the scrubber reads the next word. Errors that a functional access or an internal bus meets are handled by the same
rule, and come with the same command; a write to a register whose transfer meets one is dropped, and a read of a register completes
poisoned, so that the command of that access does not come. -/
def execScrubRead (f : EccFinder) (off : Fin 0x100000) (found : EccResult) (s : State) : Host.Outcome State Fault Refusal :=
  .next (
    if ¬ s.sys.powered then s
    else
      let pos := s.rf Adr.ACC_SCRUB_POS 19 0
      let o := if f = .scrubber then pos else off.val
      let t := if f = .scrubber then s.setReg Adr.ACC_SCRUB_POS (wd ((pos + 4) % 2 ^ 20)) else s
      match found with
      | .good => t
      | .correctable syn => t.corrected f o syn
      | .uncorrectable syn => t.uncorrectable f o syn)

/-- CORE_RESTART (R407, R437): the core runs again, from the slot shown for it. -/
def execCoreRestart (u : Fin 7) (s : State) : Host.Outcome State Fault Refusal :=
  .next (
    if s.upd.restart.getLsbD u then
      let f := s.upd.slot (s.upd.coreSlot.getLsbD u)
      { s with upd := { s.upd with restart := s.upd.restart &&& ~~~(BitVec.ofNat 7 (2 ^ u.val)), coreVer := s.upd.coreVer.set u f.version,
                                   coreFmt := s.upd.coreFmt.set u (f.formats.getD u 0) } }
    else s)

/-! ### The four reads -/

/-- A read by a master anywhere in BAR0. -/
def State.readReg (s : State) (m : Master) (a : Nat) : State :=
  if 0x200000 ≤ a ∧ a < 0x300000 then s.apertureRead m (a - 0x200000) .good else s.readPlain m a

/-- Does an offset name a word of BAR0 (R391, R393)? -/
def inBar (a : Nat) : Bool := decide (a < 0x400000) && decide (a % 4 = 0)

/-- A read by a master of a word of BAR0 or of its BAR2 (R44, R391); elsewhere there is none. -/
def State.readAt (s : State) (m : Master) (a : Nat) : Host.Outcome State Fault Refusal :=
  if inBar a then .next (s.readReg m a)
  else if inBar2 m a then .next (s.bar2Read (funOf m) (a - 0x400000))
  else .fault .outsideBlock

/-- FRM_COUNT_LO_READ (R27). -/
def execFrmCountLoRead (m : Master) (s : State) : Host.Outcome State Fault Refusal := .next (s.readPlain m Adr.FRM_COUNT_LO)

/-- CAPTURE_READ (R401). -/
def execCaptureRead (m : Master) (addr : Nat) (s : State) : Host.Outcome State Fault Refusal :=
  s.readAt m addr

/-- RC_FIELD_READ (R399). -/
def execRcFieldRead (m : Master) (addr : Nat) (s : State) : Host.Outcome State Fault Refusal :=
  s.readAt m addr

/-- RESULT_REGISTER_READ (R403): VALID is an RC bit, and the data words are captured. -/
def execResultRegisterRead (m : Master) (addr : Nat) (s : State) : Host.Outcome State Fault Refusal :=
  s.readAt m addr

/-! ### Locked words (R402) -/

/-- A write of a WL word (R396, R402). -/
def State.wlWrite (s : State) (m : Master) (a : Nat) (w : Word) : State :=
  if ¬ s.sys.powered ∨ ¬ s.mayWrite m a then s
  else if ¬ m.admin then s.notePrv m a
  else if s.acc.locked.contains a then
    let n := s.acc.lockWin
    let t := s.capture Adr.ACC_LOCKV_INFO Adr.ACC_LOCKV_ADDR m a
    let u := { t with acc := { t.acc with lockWin := n + 1 } }
    if n = 0 then u.raise 59 0x223 (wd a) (wd (m.code + 65536)) else u
  else
    let t := s.setReg a (if a = Adr.ACC_OPT then w &&& 3 else w)
    { t with acc := { t.acc with locked := t.acc.locked ++ [a] } }

/-! ### Admin rights of the SPI port (R398) -/

/-- The key's 16 bytes. -/
def State.spiKey (s : State) : List Byte := (List.range 4).flatMap fun k => leBytes 4 (s.reg (Adr.ACC_SPI_KEY k)).toNat

/-- The response that matches: the first 8 bytes, as the two words carry them. -/
def State.spiAnswer (s : State) : Nat := leNat ((hmacSha256 s.spiKey (leBytes 8 s.challenge)).take 8)

/-- A write of ACC_SPI_RESP_HI (R398): the check, and a new challenge. -/
def State.spiResponse (s : State) (m : Master) (w : Word) : State :=
  if ¬ s.reaches m Adr.ACC_SPI_RESP_HI 0 then s
  else
    let a := s.acc
    let ok := s.keySet && !a.blocked && s.spiAnswer == a.respLo.toNat + 2 ^ 32 * w.toNat
    let n := if ok then 0 else min 15 (a.fails + 1)
    { s with acc := { a with chal := a.chal + 1, admin := a.admin || ok, fails := n, blocked := a.blocked || decide (3 ≤ n) } }

/-- SPI_RESPONSE_WRITE (R398). -/
def execSpiResponseWrite (m : Master) (w : Word) (s : State) : Host.Outcome State Fault Refusal := .next (s.spiResponse m w)

/-- Admin rights end. -/
def State.spiDrop (s : State) : State := { s with acc := { s.acc with admin := false } }

/-- LEAVE written 1 (R398). -/
def State.spiLeave (s : State) (m : Master) : State := if s.reaches m 0x40034 0 then s.spiDrop else s

/-- SPI_LEAVE (R398). -/
def execSpiLeave (m : Master) (s : State) : Host.Outcome State Fault Refusal := .next (s.spiLeave m)

/-- SPI_IDLE_TIMEOUT (R398): 60 s without a transaction. -/
def execSpiIdleTimeout (s : State) : Host.Outcome State Fault Refusal := .next s.spiDrop

/-- SPI_BLOCK_END (R398). -/
def execSpiBlockEnd (s : State) : Host.Outcome State Fault Refusal := .next { s with acc := { s.acc with blocked := false } }

/-! ### Configuration parity (R408) -/

/-- The units whose safe state a failing register brings (R408). -/
def parityUnits (a : Nat) : List CarrierId :=
  let one (n : Nat) : List CarrierId := [Fin.ofNat 25 n]
  let dom (n : Nat) : List CarrierId := unitsOf (Fin.ofNat 7 n)
  if Adr.BAY 0 ≤ a ∧ a < Adr.BAY 24 then
    (let n := (a - Adr.BAY 0) / 0x1000
     if 0x300 ≤ a % 0x1000 ∧ a % 0x1000 < 0x340 then dom (n / 4) else one n)
  else if 0x80000 ≤ a ∧ a < 0xB2000 then (let x := (a - 0x80000) / 0x400; if x < 192 then one (x / 8) else one 24)
  else if Adr.HVY 0 ≤ a ∧ a < Adr.HVY 8 then one 24
  else if among a (Adr.CMP_VM 0) 4 7 then dom (ixOf a (Adr.CMP_VM 0) 4)
  else if among a (Adr.CMP_RAIL 5) 4 6 then dom (ixOf a (Adr.CMP_RAIL 5) 4)
  else allFin 25

/-- CONFIG_PARITY_FAIL (R103, R228, R408): every axis of the units that enter their safe state is faulted. A WB_
register is reloaded, without a safe state. -/
def execConfigParityFail (addr : Nat) (s : State) : Host.Outcome State Fault Refusal :=
  .next (
    let n := s.acc.parity.length + 1
    if ¬ s.sys.powered then s
    else if 0x1A0000 ≤ addr ∧ addr < 0x1B0000 then
      (if (rowOf addr).any fun r => r.rw != 0 then s.raise 58 0x210 (wd addr) (wd n) else s)
    else if ¬ isCfg addr ∨ s.acc.parity.contains addr then s
    else
      let us : List CarrierId := parityUnits addr
      let s0 := s.forAll (us.flatMap axesOf) fun t x => t.faultAxis x 58
      let s1 := us.foldl (fun t u => (t.enterSafe u).modCu u fun c => { c with cParity := true }) s0
      let s2 := if s1.rb Adr.ACC_PAR_STAT 0 then s1 else (s1.setReg Adr.ACC_PAR_ADDR (wd addr)).orReg Adr.ACC_PAR_STAT 1
      let s3 := { s2 with acc := { s2.acc with parity := s2.acc.parity ++ [addr],
                                               parUnits := us.foldl (fun (m : BitVec 25) (u : CarrierId) => m ||| BitVec.ofNat 25 (2 ^ u.val)) s2.acc.parUnits } }
      s3.raise 58 (match us with | [u] => unitCode u | _ => 0x220) (s3.reg Adr.ACC_PAR_ADDR) (wd n))

/-- ERR written 1 (R229, R408): ignored while a register still fails. -/
def State.parClear (s : State) (m : Master) : State :=
  if s.reaches m Adr.ACC_PAR_STAT 1 ∧ s.acc.parity = [] then
    let t := { s.clrReg Adr.ACC_PAR_STAT 1 with acc := { s.acc with parUnits := 0 } }
    t.forAll ((allFin 25).filter fun (u : Fin 25) => s.acc.parUnits.getLsbD u.val) fun v u => v.modCu u fun c => { c with cParity := false }
  else s

/-- PAR_ERR_CLEAR (R408). -/
def execParErrClear (m : Master) (s : State) : Host.Outcome State Fault Refusal := .next ((s.noted m Adr.ACC_PAR_STAT).parClear m)

/-! ### FRM_WDOG (R40, R41) -/

/-- FIRED written 1 (R40, R229). -/
def State.wdogClear (s : State) (m : Master) : State :=
  if s.reaches m Adr.FRM_WDOG 1 then
    (s.clrReg Adr.FRM_WDOG 1).forAll (allFin 25) fun t u => t.modCu u fun c => { c with cWdog := false }
  else s

/-- TEST written 1 (R41). -/
def State.wdogTest (s : State) (m : Master) : State := if s.reaches m Adr.FRM_WDOG 2 then s.orReg Adr.FRM_WDOG 2 else s

/-- WDOG_FIRED_CLEAR (R40). -/
def execWdogFiredClear (m : Master) (s : State) : Host.Outcome State Fault Refusal := .next ((s.noted m Adr.FRM_WDOG).wdogClear m)

/-- WDOG_TEST (R41). -/
def execWdogTest (m : Master) (s : State) : Host.Outcome State Fault Refusal := .next ((s.noted m Adr.FRM_WDOG).wdogTest m)

/-! ### Writes (R393–R402) -/

/-- A write that is ignored where `bad` holds of the old and the new word, with a CFG_IGNORED bit. -/
def State.guardWrite (s : State) (m : Master) (a : Nat) (w : Word) (stat mask : Nat) (bad : Word → Word → Bool) : State :=
  match s.gate m a 0 with
  | (t, false) => t
  | (t, true) => if bad (t.reg a) (t.written m a w) then t.orReg stat mask else t.storeWord m a w

/-- Bits of a word that act one by one. -/
def State.bitsOf (s : State) (w : Word) (l : List (Nat × (State → State))) : State :=
  l.foldl (fun t e => if bitOf w e.1 then e.2 t else t) s

/-- GCTL_, FRM_ (R31, R41, R420, R441). -/
def State.writeFrm (s : State) (m : Master) (a : Nat) (w : Word) : State :=
  if a = Adr.GCTL_PWR then s.pwrWrite m (bitOf w 0)
  else if a = Adr.GCTL_RESET then s.resetWrite m w
  else if a = Adr.FRM_ADMIT_CTL then s.admitWrite m w
  else if a = Adr.FRM_WDOG then (s.noted m a).bitsOf w [(0, fun t => t.wdogClear m), (1, fun t => t.wdogTest m)]
  else s.plainWrite m a w

/-- HIF_ (R50, R54, R61). -/
def State.writeHif (s : State) (m : Master) (a : Nat) (w : Word) : State :=
  if a = 0x20008 then (if bitOf w 0 then s.kickWrite m else s)
  else if a = Adr.HIF_EQ_CFG then s.eqCfgWrite m w
  else if a = Adr.HIF_EQ_BASE_LO ∨ a = Adr.HIF_EQ_BASE_LO + 4 then s.baseWrite m a w s.eq.enabled Adr.HIF_EQ_STAT
  else
    match ringOf a with
    | none => s.plainWrite m a w
    | some q =>
      let o := (a - Adr.HIF_SQ_BASE_LO 0) % 0x40
      if o = 0x08 then s.sqCfgWrite m q w
      else if o = 0x28 then s.cqCfgWrite m q w
      else if o < 0x08 then s.baseWrite m a w ((s.sq.get q).state != .disabled) (Adr.HIF_SQ_STAT q)
      else if o = 0x20 ∨ o = 0x24 then s.baseWrite m a w (s.cq.get q).enabled (Adr.HIF_CQ_STAT q)
      else s.plainWrite m a w

/-- ACC_ (R398, R408). -/
def State.writeAcc (s : State) (m : Master) (a : Nat) (w : Word) : State :=
  if a = Adr.ACC_SPI_RESP_LO then (if s.reaches m a 0 then { s with acc := { s.acc with respLo := w } } else s)
  else if a = Adr.ACC_SPI_RESP_HI then s.spiResponse m w
  else if a = 0x40034 then (if bitOf w 0 then s.spiLeave m else s)
  else if a = Adr.ACC_PAR_STAT then (s.noted m a).bitsOf w [(0, fun t => t.parClear m)]
  else s.plainWrite m a w

/-- Is every axis of a unit parked (R240, R478)? -/
def State.unitParked (s : State) (u : CarrierId) : Bool := (axesOf u).all fun x => (s.ax.get x).isParked

/-- BAYn_ (R216, R218, R224, R240, R318, R427). R240 leaves open how a write of BAYn_BR_CFG splits: one that would change DT or BLANK while
an axis is not parked is dropped whole, SAFE with it, and one that leaves both as they are is stored (DESIGN CHOICE, log entry 231). -/
def State.writeBay (s : State) (m : Master) (b : BayId) (a : Nat) (w : Word) : State :=
  let u := bayUnit b
  let o := a % 0x1000
  if 0x40 ≤ o ∧ o < 0x80 then s.calWrite m u a w
  else if o = 0x100 then
    s.guardWrite m a w (Adr.BAY_BR_STAT b) 4 fun old new => !s.unitParked u && differIn old new (bits 15 8 + bits 5 0)
  else if o = 0x10C then s.bayCommitWrite m b w
  else if o = 0x114 then s.latchWrite m u w
  else if 0x200 ≤ o ∧ o < 0x300 then
    (if s.direct (axisAt u (Fin.ofNat 8 ((o - 0x200) / 0x20))) then s.plainWrite m a w
     else if o % 0x20 < 0x10 then (match s.gate m a 0xFFFFFFFF with | (t, ok) => if ok then t.orReg (Adr.BAY_BR_STAT b) 4 else t)
     else s)
  else if (cmpOfReg a).isSome then s.thresholdWrite m a w
  else s.plainWrite m a w

/-- HVYh_ and the heavy group (R224, R242, R244, R249, R262, R427). -/
def State.writeHvy (s : State) (m : Master) (h : HeavyId) (a : Nat) (w : Word) : State :=
  let o := a % 0x1000
  let parked := (s.ax.get (hvAxis h)).isParked
  let stat := Adr.HVY_STAT h
  if a = Adr.HVY_GRP_LATCH then s.latchWrite m 24 w
  else if a = Adr.HVY_GRP_CFG then
    s.guardWrite m a w Adr.HVY_GRP_STAT 4 fun old new => !s.unitParked 24 && differIn old new (bits 15 8)
  else if o = 0 ∨ o = 4 then s.guardWrite m a w stat 16 fun old new => !parked && old != new
  else if o = 8 then
    s.guardWrite m a w stat 16 fun _ new =>
      m.admin && (!parked || decide (fld new 11 6 < fld new 5 0) || decide (fld new 17 12 < fld new 11 6))
  else if o = 0x20 then s.guardWrite m a w stat 16 fun old new => !parked && old != new
  else if o = 0x40 ∨ o = 0x44 then s.calWrite m 24 a w
  else s.plainWrite m a w

/-- FBc_ (R286, R294–R297). -/
def State.writeFb (s : State) (m : Master) (a : Nat) (w : Word) : State :=
  let c := fbOf a
  if a = Adr.FB_CFG c then s.fbCfgWrite m c w
  else if a = Adr.FB_CTL c then (s.noted m a).bitsOf w [(0, fun t => t.fbReval m c), (1, fun t => t.fbSetcnt m c)]
  else if a = Adr.FB_STAT c then
    s.bitsOf w [(3, fun t => if t.reaches m a 8 then t.modFbc c fun h => { h with lost := false } else t),
      (4, fun t => t.fbClearSuspect m c)]
  else if isIdxReg a then s.fbIndexWrite m a w
  else if isLimitReg a then s.fbLimitWrite m a w
  else s.plainWrite m a w

/-- Probes, emulation, comparators, the Granary (R305, R306, R318, R319, R326, R340). -/
def State.writeSup (s : State) (m : Master) (a : Nat) (w : Word) : State :=
  if among a (Adr.PRB_CFG 0) 0x80 16 then s.prbCfgWrite m (Fin.ofNat 16 (ixOf a (Adr.PRB_CFG 0) 0x80)) w
  else if among a (Adr.EMU_CFG 0) 0x40 4 then s.emuCfgWrite m (Fin.ofNat 4 (ixOf a (Adr.EMU_CFG 0) 0x40)) w
  else if a = Adr.CMP_CTL then (if bitOf w 0 then s.sweepWrite m else s.noted m a)
  else if (cmpOfReg a).isSome then s.thresholdWrite m a w
  else if among a (Adr.CMP_BRK 0) 4 7 ∨ a = Adr.GRN_CFG then
    (let t := s.plainWrite m a w
     if t.regs = s.regs then t else t.supplies)
  else if a = Adr.GRN_DER then
    (let v := s.written m a w
     if fld v 15 8 ≤ fld v 7 0 then s.noted m a else s.plainWrite m a w)
  else s.plainWrite m a w

/-- LINE_, WB_, UPD_ (R342, R351, R354, R377, R382, R383, R388, R404, R428, R431, R435, R436). -/
def State.writeSvc (s : State) (m : Master) (a : Nat) (w : Word) : State :=
  if a = Adr.LINE_CFG then s.lineCfgWrite m w
  else if a = Adr.LINE_CTL then
    (s.noted m a).bitsOf w [(0, fun t => t.lineResetWrite m), (1, fun t => t.lineEstopWrite m), (2, fun t => t.lineEstopClear m)]
  else if a = Adr.WB_CTL then
    (s.noted m a).bitsOf w [(0, fun t => t.wbSnap m), (1, fun t => t.wbReqGo m), (2, fun t => t.wbRtcGo m), (3, fun t => t.wbInstall m)]
  else if a = Adr.WB_TBL_COMMIT then (if bitOf w 0 then s.wbTblCommit m else s.noted m a)
  else if Adr.WB_TBL_RS 0 ≤ a ∧ a ≤ Adr.WB_TBL_MISC ∧ s.sys.sealedVariant then
    (match s.gate m a 0xFFFFFFFF with | (t, ok) => if ok then t.wbIgnored else t)
  else if a = Adr.UPD_CTL then s.updCtlWrite m w
  else if a = Adr.UPD_SWITCH then s.switchWrite m w
  else if a = Adr.UPD_CAL_CFG then s.calCfgWrite m w
  else s.plainWrite m a w

/-- The write of one whole word (R393–R402). -/
def State.writeReg (s : State) (m : Master) (a : Nat) (w : Word) : State :=
  if ¬ s.sys.powered then s
  else if 0x200000 ≤ a ∧ a < 0x300000 then (if m = .spiOpen then s else s.incReg Adr.ACC_BADACC)
  else if isWl a then s.wlWrite m a w
  else if a < 0x20000 then s.writeFrm m a w
  else if a < 0x30000 then s.writeHif m a w
  else if 0x40000 ≤ a ∧ a < 0x50000 then s.writeAcc m a w
  else if among a (Adr.AX_BR_CFG 0) 0x400 200 then s.brSrcWrite m (Fin.ofNat 200 (ixOf a (Adr.AX_BR_CFG 0) 0x400)) w
  else if Adr.BAY 0 ≤ a ∧ a < Adr.BAY 24 then s.writeBay m (Fin.ofNat 24 ((a - Adr.BAY 0) / 0x1000)) a w
  else if Adr.HVY 0 ≤ a ∧ a < Adr.HVY 8 then s.writeHvy m (Fin.ofNat 8 ((a - Adr.HVY 0) / 0x1000)) a w
  else if Adr.FB 0 ≤ a ∧ a < Adr.FB 24 then s.writeFb m a w
  else if 0x158000 ≤ a ∧ a < 0x170000 then s.writeSup m a w
  else if 0x180000 ≤ a ∧ a < 0x1D0000 then s.writeSvc m a w
  else s.plainWrite m a w

/-- A write with byte enables (R393): one that does not cover the word is dropped and counted. -/
def State.busWrite (s : State) (m : Master) (a : Nat) (be : BitVec 4) (w : Word) : State :=
  if be = 15 then s.writeReg m a w
  else if s.sys.powered ∧ m ≠ .spiOpen then s.incReg Adr.ACC_BADACC
  else s

/-- REGISTER_WRITE (R393). -/
def execRegisterWrite (m : Master) (addr : Nat) (be : BitVec 4) (w : Word) (s : State) : Host.Outcome State Fault Refusal :=
  if inBar addr then .next (s.busWrite m addr be w)
  else if inBar2 m addr then .next (if be = 15 then s.bar2Write (funOf m) (addr - 0x400000) w else s)
  else .fault .outsideBlock

/-- WL_WORD_WRITE (R402). -/
def execWlWordWrite (m : Master) (addr : Nat) (be : BitVec 4) (w : Word) (s : State) : Host.Outcome State Fault Refusal :=
  if inBar addr then .next (if isWl addr then s.busWrite m addr be w else s) else .fault .outsideBlock

/-! ### The service SPI port (R397) -/

/-- The master that the SPI port is now (R394). -/
def State.spiMaster (s : State) : Master := if s.acc.admin then .spiAdmin else .spiOpen

/-- The words of some bytes. -/
def leWords : Nat → List Byte → List Word
  | 0, _ => []
  | n + 1, b => wd (leNat (b.take 4)) :: leWords n (b.drop 4)

/-- The address and the word count of a transaction. -/
def spiAddr (b : List Byte) : Nat := (u8 b 1 * 65536 + u8 b 2 * 256 + u8 b 3) / 4 * 4
def spiCount (b : List Byte) : Nat := if u8 b 4 = 0 then 64 else u8 b 4

/-- Is the port enabled (R397)? -/
def State.spiOn (s : State) : Bool := s.sys.powered && s.rb Adr.ACC_OPT 0

/-- The words of a write, each at the next address; the last of BAR0 is followed by the first. -/
def State.spiWords (m : State → Master) : Nat → List Word → State → State
  | _, [], s => s
  | a, w :: ws, s => State.spiWords m ((a + 4) % 0x400000) ws (s.writeReg (m s) a w)

/-- SPI_WRITE_TRANSACTION (R397): the bytes between the edges of chip select. -/
def execSpiWriteTransaction (bytes : List Byte) (s : State) : Host.Outcome State Fault Refusal :=
  .next (
    let n := spiCount bytes
    let body := bytes.take (bytes.length - 4)
    if ¬ s.spiOn ∨ u8 bytes 0 ≠ 2 then s
    else if bytes.length ≠ 9 + 4 * n ∨ crc32c body ≠ wd (u32 bytes (bytes.length - 4)) ∨ 0x400000 ≤ spiAddr bytes then
      s.incReg Adr.ACC_SPI_ERR
    else s.spiWords State.spiMaster (spiAddr bytes) (leWords n (bytes.drop 5)))

/-- The words that a read returns, and the state after. -/
def State.spiRead : Nat → Nat → State → List Byte × State
  | 0, _, s => ([], s)
  | n + 1, a, s =>
    let t := s.readReg s.spiMaster a
    let (l, u) := State.spiRead n ((a + 4) % 0x400000) t
    (leBytes 4 t.bus.toNat ++ l, u)

/-- SPI_READ_TRANSACTION (R397). -/
def execSpiReadTransaction (bytes : List Byte) (s : State) : Host.Outcome State Fault Refusal :=
  .next (
    let n := spiCount bytes
    if ¬ s.spiOn ∨ u8 bytes 0 ≠ 0x0B ∨ bytes.length < 5 then s
    else if 0x400000 ≤ spiAddr bytes then
      let b := zeros (4 * n)
      s.emit (.spi (b ++ leBytes 4 (crc32c b).toNat))
    else
      let (b, t) := s.spiRead n (spiAddr bytes)
      t.emit (.spi (b ++ leBytes 4 (crc32c b).toNat)))

end Sys2Proof.Machine
end

