-- ==== Sys2Proof/Machine/Host.lean ====
section
/-! DEFINITION. The host link (R48), the Function Level Reset (R47) and PERST# (R419). -/

namespace Sys2Proof.Machine

/-! ### Function Level Reset (R47) -/

/-- A motion that a Function Level Reset stops. -/
def stopsOnFlr (o : Nat) : Bool := o == 1 || o == 2 || o == 3 || o == 5 || o == 6 || o == 0x10

/-- A descriptor whose effect in the next frame takes the motion of its axes. -/
def Desc.takesMotion (d : Desc) : Bool := isMotionOp d.op || d.op == 4 || d.op == 8

/-- The Timetable state of axis `x` as `v`, stopping on its stored stop deceleration. -/
def State.stoppedAs (s : State) (x : AxisId) (v : Axis) : TtState :=
  (((s.modAx x fun _ => { v with back := [] }).stopStored x false).ax.get x).tt

/-- Change what is kept of an axis, from the oldest on, up to what the first descriptor found that takes the motion; the flag says that
there is none. -/
def changeFound (f : AxisBack → AxisBack) (takes : AxisBack → Bool) : List AxisBack → List AxisBack × Bool
  | [] => ([], true)
  | b :: l => if takes b then (f b :: l, false) else (let r := changeFound f takes l; (f b :: r.1, r.2))

/-- Axis `x` stops on its stored stop deceleration from the next frame and holds (R47), unless a descriptor of the other function takes its
motion in that frame: what that one found then stops. -/
def State.flrStop (s : State) (x : AxisId) : State :=
  let a := s.ax.get x
  let r := changeFound (fun b => { b with tt := s.stoppedAs x (a.restored b) })
    (fun b => (s.desc? b.desc).any Desc.takesMotion) a.back.reverse
  let t := s.modAx x fun a => { a with back := r.1.reverse }
  if r.2 then t.stopStored x false else t

/-- Settle one descriptor of a ring that a Function Level Reset disables (R47): no record. -/
def State.flrDesc (s : State) (d : Desc) : State :=
  if d.stage ≠ .effect then s.retire d
  else if stopsOnFlr d.op then
    if d.out.isSome then (s.release d).retire d
    else ((s.release d).forAll d.axes State.flrStop).retire d
  else if d.op = 9 ∨ d.op = 0xA then (s.withdraw d.acc).retire d
  else if d.op = 0xB then s.retire d
  else s.modDesc d.acc fun e => { e with mute := true }

/-- Stop an axis that still moves or follows under a completed descriptor of ring `q` (R47). -/
def State.flrAxis (s : State) (q : RingId) (x : AxisId) : State :=
  let a := s.ax.get x
  let runs : Bool := match a.tt.running with
    | .vel none _ _ => a.tt.runRing == some q
    | _ => a.fol.any fun f => f.ring == q
  if runs then s.flrStop x else s

/-- Disable ring `q`, with its completion ring (R47). -/
def State.flrRing (s : State) (q : RingId) : State :=
  let s1 := s.modSq q fun x => { x with state := .disabled, flight := x.stale, wait := false, fresh := 0 }
  let s2 := s1.modCq q fun c => { c with enabled := false, waiting := [], fullDue := false, unsig := 0, oldest := none }
  ((s2.clrReg (Adr.HIF_SQ_CFG q) (2 ^ 28)).clrReg (Adr.HIF_CQ_CFG q) (2 ^ 28))

/-- A held record of a function that is reset (R47). -/
def HeldRec.of (s : State) (f : Fin 2) : HeldRec → Bool
  | .completion q _ => s.owner q == f
  | .event _ => s.eqOwner == f

/-- The descriptors of a function's rings that complete with a record. -/
def State.descsOf (s : State) (f : Fin 2) : List Desc := s.ord.descs.filter fun d => s.owner d.ring == f && !d.mute

/-- The descriptors of a function's rings are settled (R47): one that has taken effect has ended what it replaces (R90), one that would
take effect in the next frame has not taken effect, and then each goes its way. -/
def State.flrDescs (s : State) (f : Fin 2) : State :=
  let s1 := s.forAll ((s.descsOf f).filter fun d => d.stage == .effect && d.begun) State.replaceNow
  let s2 := s1.forAll ((s1.descsOf f).filter fun d => d.stage == .effect && !d.begun) fun t d => (t.undo d.acc).retire d
  let s3 := s2.forAll (s2.descsOf f) State.flrDesc
  s3.forAll ((allFin 16).filter fun q => s3.owner q == f) fun t q => t.forAll (allFin 200) fun t x => t.flrAxis q x

/-- A Function Level Reset (R47); the function's MSI-X table returns to its reset values. -/
def State.flr (s : State) (f : Fin 2) : State :=
  let s1 := { s with hif := { s.hif with held := s.hif.held.filter fun h => !h.of s f } }
  let s2 := s1.forAll ((allFin 16).filter fun q => s.owner q == f) State.flrRing
  let s3 := if s.eqOwner = f then
      { s2 with eq := { s2.eq with enabled := false, unsig := 0, oldest := none } }.clrReg Adr.HIF_EQ_CFG (2 ^ 28)
    else s2
  let s4 := s3.flrDescs f
  let none16 : List MsixEntry := List.replicate 16 ⟨0, 0⟩
  { s4 with hif := if f = 0 then { s4.hif with mask0 := 0xFFFF, pend0 := 0, table0 := none16 }
      else { s4.hif with mask1 := 0xFFFF, pend1 := 0, table1 := none16 } }

/-- FUNCTION_LEVEL_RESET (R47). -/
def execFunctionLevelReset (f : Fin 2) (s : State) : Host.Outcome State Fault Refusal := .next (s.flr f)

/-! ### The host link (R48) -/

/-- The axes that a link loss concerns (R48). -/
def State.linkAxes (s : State) : List AxisId :=
  (allFin 200).filter fun x =>
    let a := s.ax.get x
    a.fol.isSome || (match a.tt.running with | .vel none _ _ => true | _ => false) ||
      s.ord.descs.any fun d => d.stage != .recordWaits &&
        (d.axes.contains x || (d.op == 0x10 && d.members == [] && d.rej.isNone && (s.groupOf d.bytes).contains x))

/-- Does an axis run an ENERGIZE or IDENTIFY? -/
def Axis.inSequence (a : Axis) : Bool :=
  a.cd.seq.isSome || a.tt.ring.isSome || (match a.tt.running with | .ident _ => true | _ => false)

/-- The action on one axis (R48): its running motion descriptor retires as FLUSHED, and it stops; `park` for LINKLOSS 1. -/
def State.linkAxis (s : State) (park : Bool) (x : AxisId) : State :=
  let a := s.ax.get x
  if a.inSequence then (if park then s.modTt x fun t => { t with parkDue := true } else s)
  else if a.moving then
    let run := (s.queueOf x).filter fun d => d.stage == .effect && isMotionOp d.op
    let s1 := s.forAll run fun t d => (t.flush d 0 t.frm.count).release d
    s1.stopStored x park
  else if park ∧ a.tt.modeAhead = .hold then
    (s.modTt x fun t => { t with modeNext := some .parked, running := .none }).modCd x fun c => { c with phaseNext := some .off }
  else s

/-- A descriptor whose frame of effect has not begun is undone (R48). -/
def State.unstart (s : State) (d : Desc) : State := (s.undo d.acc).putBack d.acc

/-- What a link loss does to the descriptors and axes, by LINKLOSS (R48): what has taken effect in the frame in progress ends what it
replaces (R90), and what would take effect in the next frame has not taken effect. -/
def State.linkLoss (s : State) : State :=
  let act := s.rf Adr.HIF_CFG 11 10
  if act = 2 then s
  else
    let t := s.settleEnd
    let s0 := t.forAll (t.ord.descs.filter fun d => d.stage == .effect && !d.begun) State.unstart
    let xs := s0.linkAxes
    let s1 := s0.forAll xs fun t x => t.linkAxis (act == 1) x
    s1.forAll (s1.ord.descs.filter fun d => d.stage == .staged || d.stage == .queued) fun t d =>
      if d.rej.isSome then t.finishRejected d t.frm.count else t.flush d 0 t.frm.count

/-- A ring whose reads in flight are lost (R48): a retry that was outstanding is due again (R60), and no doorbell read of before the
enable is left (R61). R63 does not say what becomes of a stalled slot's refetch: it is dropped with its RETRY byte taken, so that a further
change of RETRY is needed (DESIGN CHOICE, log entry 192). -/
def Sq.lose (q : Sq) : Sq :=
  { q with flight := if q.wait ∨ q.state = .fetchWait then q.flight else none, wait := q.wait || q.state == .fetchWait,
           fresh := min q.fresh 1 }

/-- The refetches and list reads in flight are lost with the link, and wait for it (DESIGN CHOICE, log entry 239). -/
def State.loseReads (s : State) : State :=
  { s with ord := { s.ord with descs := s.ord.descs.map fun d => if d.tries.isSome then { d with readAt := s.frm.count } else d } }

/-- The link leaves DL_Active (R48): the reads in flight are lost. -/
def State.linkDown (s : State) : State :=
  if s.hif.linkUp then
    let s1 := s.orReg Adr.HIF_STAT 8
    let h : Hif := { s1.hif with linkUp := false, lostAt := some s1.frm.count, dbFlight := [], rbFlight := [] }
    let s2 := { s1 with hif := { h with dbPending := false, dbAgain := 0, rbAgain := 0 },
                        sq := s1.sq.map Sq.lose }
    s2.loseReads.linkLoss
  else s

/-- HOST_LINK_DOWN (R48). -/
def execHostLinkDown (s : State) : Host.Outcome State Fault Refusal := .next s.linkDown

/-- Write a record that was held while the link was down, with LATE (R48, R102). -/
def State.writeHeld (s : State) : HeldRec → State
  | .completion q r =>
    if ¬ (s.cq.get q).enabled then s.dropOf r.desc
    else if s.cqOpen q then (s.dropOf r.desc).putRec q r true
    else s.modCq q fun c => { c with waiting := c.waiting ++ [r] }
  | .event r => if s.eq.enabled then s.writeEvent r true else s

/-- HOST_LINK_UP (R48). -/
def execHostLinkUp (s : State) : Host.Outcome State Fault Refusal :=
  .next (
    if s.hif.linkUp ∨ s.hif.perst ∨ ¬ s.sys.powered then s
    else
      let l := s.hif.held
      let n := s.hif.discarded
      let s1 := { s with hif := { s.hif with linkUp := true, held := [], discarded := 0, lostAt := none } }
      let s2 := s1.forAll l State.writeHeld
      match s.hif.lostAt with
      | some f => s2.raise 7 0x122 (wd (s.since f)) (wd n)
      | none => s2)

/-! ### PERST# (R419) -/

/-- PERST (R419): the link is down while PERST# is asserted. -/
def execPerst (s : State) : Host.Outcome State Fault Refusal :=
  .next ({ s.linkDown with hif := { s.linkDown.hif with perst := true } })

/-- PERST_RELEASE (R419): as after a Function Level Reset of both functions. -/
def execPerstRelease (s : State) : Host.Outcome State Fault Refusal :=
  .next (
    if s.hif.perst then
      let t := (s.flr 0).flr 1
      { t with hif := { t.hif with perst := false, retryStatus := !t.frm.started } }
    else s)

end Sys2Proof.Machine
end

