-- ==== Sys2Proof/Machine/Frame.lean ====
section
/-! DEFINITION. The frame (R14–R43): the tick and what it holds, the loss of the clock and its return, the frame watchdog, the
result of an admission, and the derating of the Granary. Beside the references, everything that a tick does is laid down in its own
chapter; the order within a tick is the one of R24, R148 and R332. -/

namespace Sys2Proof.Machine

/-! ### The end of a frame -/

/-- COMPLETION_RING_FULL at the end of the frame in which a ring became FULL (R74). -/
def State.fullRings (s : State) : State :=
  s.forAll (allFin 16) fun t q =>
    let c := t.cq.get q
    if c.fullDue then
      (t.modCq q fun c => { c with fullDue := false }).raise 4 (0x110 + q.val) (wd c.waiting.length) (wd c.head.toNat)
    else t

/-! ### The references and the amplitudes move on (R24, R107, R112, R173) -/

/-- The history with the reference of the frame that ends (R143). The longest shaper looks 8,001 frames back. -/
def TtState.pushed (t : TtState) : List RefPt × RefPt :=
  let h := (t.u0 :: t.hist).take 8002
  if h.all (· == t.u0) ∧ (t.fill = t.u0 ∨ h.length = 8002) then ([], t.u0) else (h, t.fill)

/-- The Timetable's state of an axis at the tick. -/
def TtState.advance (t : TtState) : TtState :=
  let h := t.pushed
  let u := { t with u0 := t.uNext, o0 := t.oNext, o1 := t.o0, o2 := t.o1, hist := h.1, fill := h.2,
                    mode := t.modeAhead, modeNext := none, reversing := t.reversal.isSome }
  if t.modeNext = some .parked then 
    { u with goal := .rest, reversal := none, reversing := false, bypass := false,
             running := (match u.running with | .stop o k => .stop o k | _ => .none) }
  else u

/-- The coil drive's state at the tick that begins frame `k`, with the amplitude of frame `k`, and its GR for a ramp that begins in
it (R173, R186, R195). -/
def CdState.advance (c : CdState) (amp : Int) (gr : Nat) (k : FrameNo) : CdState :=
  let ph := c.phaseNext.getD c.phase
  let d := { c with phase := ph, seq := c.seq.map fun q => if q.start = k then { q with gr := gr } else q,
                    phase1 := c.phase, phaseNext := none, phaseAt := if c.phaseNext.isSome then k else c.phaseAt,
                    ang1 := c.ang0, ang0 := c.angNext, amp1 := c.amp0, amp0 := amp,
                    offFor := if ph = .off then (if c.phase = .off then min 8 (c.offFor + 1) else 0) else 0 }
  if c.phaseNext = some .off then d.zeroInt else d

/-- An axis at the tick that begins frame `k`. The bridge fault action ends as the axis takes PARKED (R223). -/
def Axis.advance (a : Axis) (amp : Int) (gr : Nat) (k : FrameNo) (anyHalt : Bool) : Axis :=
  let parks := a.tt.modeNext == some .parked
  { a with
    tt := a.tt.advance
    cd := a.cd.advance amp gr k
    fol := if parks then none else a.fol
    br := { a.br with faultOff := a.br.faultOff && !(parks || a.tt.modeAhead == .disabled), byHalt := a.br.byHalt && anyHalt } }

/-- The frame counter and the axes at a tick; every descriptor in effect has had its tick. -/
def State.advance (s : State) : State :=
  let k : FrameNo := if s.frm.started then s.frm.count + 1 else 0
  let enter := (allFin 200).filter fun x => (s.ax.get x).tt.modeNext == some .hold
  let running := ~~~(s.upd.restart ||| s.upd.halted.setWidth 7)
  let t := { s with
    frm := { s.frm with count := k, started := true, refsOk := running }
    hif := { s.hif with retryStatus := false, turn := s.hif.turn + 1 }
    ord := { s.ord with descs := s.ord.descs.map fun (d : Desc) => if d.stage == DStage.effect && frameLe d.eff k then { d with begun := true } else d }
    cu := s.cu.map fun (c : CUnit) => { c with skipLoad := none }
    pool := s.pool.map fun (q : Pool) => { q with grNow := q.gr, ghNow := q.gh }
    ax := .ofFn fun (x : Fin 200) => (s.ax.get x).advance (s.ampAhead x) (s.pool.get (domOf x)).gr k (s.upd.halted != 0) }
  t.forAll enter State.enterHold

/-- The events that were planned for the frame that begins (R120, R134–R137, R168). -/
def State.dueEvents (s : State) (x : AxisId) : State :=
  let a := s.ax.get x
  let s1 := s.modAx x fun a => { a with due := [], dropDue := 0 }
  let s2 := if a.dropDue = 0 then s1 else s1.dropDemand x a.dropDue
  a.due.foldl (fun t e => (if e.1 = 14 then t.orReg (Adr.SD_FOL_STAT x) (2 ^ 16) else t).raise e.1 x.val e.2.1 e.2.2) s2

/-- The axis that is to park after its sequence (R48) parks, once it holds. -/
def State.parkTick (s : State) (x : AxisId) : State :=
  let a := s.ax.get x
  if ¬ a.tt.parkDue ∨ a.inSequence then s
  else if a.tt.mode = .hold then s.parkNow x
  else s.modTt x fun t => { t with parkDue := false }

/-- What a descriptor does at the tick that begins its frame of effect (R86), for all that the frame before does not plan with. -/
def State.tickAct (s : State) (d : Desc) : State :=
  match d.op with
  | 0xC => if d.out.isSome then s else s.armEffect d
  | 0x11 => if d.out.isSome then s else s.consistEffect d
  | 0xF =>
    match paramOf (u16 d.bytes 16) with
    | some .posSet => s.posSetTick d
    | some .grpDef => if d.out.isSome then s else s.grpDefEffect d
    | some .trgDisarm => if d.out.isSome then s else s.disarmEffect d
    | _ => s.setParamTick d
  | _ => s

/-- A descriptor at that tick; one that a fault of the frame may still flush leaves it to the end of the frame what it ends (R91). -/
def State.tickDesc (s : State) (n : Nat) : State :=
  match s.desc? n with
  | none => s
  | some d =>
    let waits := !s.settlesAtTick d
    let t := s.tickAct d
    if waits then t else t.settle n

/-- The tick of a frame for the descriptors that take effect in it, in acceptance order. -/
def State.settleTick (s : State) : State :=
  s.forAll ((s.ord.descs.filter fun d => d.stage == .effect && d.eff == s.frm.count).map (·.acc)) State.tickDesc

/-- What takes effect in the frame that begins (R48, R86, R90, R112): the descriptors' actions, ends and completions, and the events.
Nothing of it can be undone from now on, but for what a fault of the frame flushes (R91). -/
def State.effects (s : State) : State :=
  let waits := (s.ord.descs.filter fun d => d.stage == .effect && d.eff == s.frm.count && !s.settlesAtTick d).map (·.acc)
  let s1 := (s.settleTick.forAll (allFin 200) State.dueEvents).forAll (allFin 200) State.parkTick
  { s1 with ax := s1.ax.map fun (a : Axis) => { a with back := [], found := a.back.filter fun b => waits.contains b.desc } }

/-! ### What is told at a tick -/

/-- The first tick after power-up or reset (R418): the rails that failed their test, and the result of it. -/
def State.firstTick (s : State) : State :=
  if s.sys.cause = 0 then
    let bad := (allFin 13).filter fun r => s.cmp.railBad.getLsbD r.val
    let t := s.forAll (bad.filter fun r => decide (r.val < 5)) fun t r =>
      t.raise 42 (0x1E0 + r.val) 0 (wd (winLo (t.reg (Adr.CMP_RAIL r)) * railStep r))
    t.raise 62 0x1F1 (wd (b2n (!bad.isEmpty) + 256 * 4)) (wd (13 - bad.length))
  else s

/-- Ticks resume after an outage (R19, R413). -/
def State.resume (s : State) (us : Nat) : State :=
  match s.frm.outage with
  | none => s
  | some cause =>
    let t := { s with frm := { s.frm with outage := none }, cu := s.cu.map fun (c : CUnit) => { c with cClock := false } }
    t.raise 47 0x220 (wd (cause + 256)) (wd (min us 0xFFFFFFFF))

/-- STO_ACTIVE at the tick after an input fell (R230, R238). -/
def State.stoTick (s : State) : State :=
  match s.sys.stoDue with
  | none => s
  | some us =>
    let t := { s with sys := { s.sys with stoDue := none } }
    (t.faultEnergised (allFin 200) 46).1.raise 46 0x160 (wd (b2n (!s.sys.stoA) + 2 * b2n (!s.sys.stoB))) (wd (min us 0xFFFFFFFF))

/-! ### The reads of a tick (R54, R55, R60, R100, R156) -/

/-- The doorbell block's read of a tick: its turn in the pair of R54, or a failed read made again (R55). A kick's read that is
outstanding serves the tick. -/
def State.tickDoorbell (s : State) : State :=
  let n := s.hif.dbAgain
  let t := { s with hif := { s.hif with dbAgain := 0 } }
  if ¬ s.rb Adr.HIF_CFG 0 ∧ n = 0 then s else if s.hif.dbFlight.any (·.kick) then t else t.readDoorbell ⟨false, n + 1⟩

/-- The return block's read of a tick, likewise. -/
def State.tickReturn (s : State) : State :=
  let n := s.hif.rbAgain
  let t := { s with hif := { s.hif with rbAgain := 0 } }
  if ¬ s.rb Adr.HIF_CFG 0 ∧ n = 0 then s else if s.hif.rbFlight.any (·.kick) then t else t.readReturn ⟨false, n + 1⟩

/-- The block reads of a tick (R54, R55). -/
def State.tickBlocks (s : State) : State := if s.hif.linkUp then s.tickDoorbell.tickReturn else s

/-- The retries of failed descriptor reads (R60). -/
def State.tickRetries (s : State) : State :=
  if s.hif.linkUp then
    s.forAll (allFin 16) fun t q =>
      match (t.sq.get q).flight with
      | some (_, n) => if (t.sq.get q).state = .fetchWait ∧ (t.sq.get q).wait then t.issueRead q n else t
      | none => t
  else s

/-- The retries of refetches and of target-list reads (R100, R156). -/
def State.tickRereads (s : State) : State :=
  if s.hif.linkUp then
    s.forAll (s.ord.descs.filter fun d => d.tries.isSome && d.readAt != BitVec.allOnes 64) fun t d =>
      let u := t.modDesc d.acc fun e => { e with readAt := BitVec.allOnes 64 }
      if d.refetch then u.readSlot d else if d.targets.isNone then u.readList d else u
  else s

/-! ### The planning of the next frame (R89, R113, R160, R332) -/

/-- A descriptor that waits for a firing counts only those detected while it stands at the head (R88). -/
def State.markHeads (s : State) : State :=
  { s with ord := { s.ord with descs := s.ord.descs.map fun (d : Desc) =>
      { d with headAt := if d.stage == DStage.queued && s.isHead d then some (d.headAt.getD s.frm.count) else none } } }

/-- A timed descriptor that does not stand at the head at tick F − 1, or could not take effect in frame F, is refused (R89). -/
def State.lateTimed (s : State) : State :=
  let f := (s.frm.count + 1).toNat
  let late := s.ord.descs.filter fun d =>
    (d.stage == .queued || d.stage == .staged) && d.out.isNone && d.rej.isNone && d.op != 0 && !d.isTrig && d.start != 0 &&
      (decide (d.start < f) || (d.start == f && !s.stands d))
  s.forAll late fun t d =>
    match t.desc? d.acc with
    | some e => t.finish e 5 8 0xFFFFFFFF t.frm.count
    | none => t

/-- Decide some of the requests that are due for the next frame, in acceptance order. -/
def State.decideSome (s : State) (p : Desc → Bool) : State :=
  let l := s.ord.descs.filter fun d => d.rej.isNone && p d && s.stands d && s.canStart d
  s.forAll l fun t d =>
    match t.desc? d.acc with
    | some e => if t.stands e ∧ t.canStart e then (t.decideOne e).1 else t
    | none => t

/-- The Granary's evaluation but for the derating (R332, R335). -/
def State.granary (s : State) : State :=
  let timed (d : Desc) : Bool := d.isTrig || d.start != 0
  let s1 := s.granTake.shed.forAll (allFin 7) fun t p => t.raiseGr p 16
  let s2 := s1.decideSome timed
  let s3 := s2.decideSome fun d => !timed d && d.held.isSome
  let s4 := s3.decideSome fun d => !timed d && d.held.isNone
  s4.forAll (allFin 7) fun t p => t.raiseGh p 16

/-- Plan the reference of every axis for the next frame (R113, R161). -/
def State.planAll (s : State) : State :=
  s.forAll (allFin 200) fun t x =>
    match (t.ax.get x).fol with
    | some f => t.planFollow x f
    | none => t.planProfile x

/-- What the Timetable does in the frame that the tick began: step loss first, then the heads, the Granary and the references. -/
def State.timetable (s : State) : State :=
  let s1 := s.forAll (allFin 200) State.fbCheck
  let s2 := s1.lateTimed.forAll (allFin 200) fun t x => t.settleAxis x 64
  let s3 := if s2.frm.count.toNat % 1024 = 0 then s2 else s2.granary
  s3.planAll

/-! ### The judgement of an admission (R30, R37) -/

/-- The descriptor of a request, where it is still in effect. -/
def State.asking (s : State) (n : Nat) : Option Desc := (s.desc? n).filter fun d => d.stage == .effect

/-- The configuration that a request asks for, where `c` results from the earlier ones (R30). -/
def State.askedCfg (s : State) (c : AdmCfg) (k : AdmKind) : AdmCfg :=
  let axis (d : Desc) (f : AxisId → AxisLoad → AxisLoad) : AdmCfg :=
    { c with axes := c.axes.modify d.paramAxis.val (f d.paramAxis) }
  match k with
  | .go rate hvy ofs slack => { c with rate := rate, ofs := ofs ++ [hvy], slack := slack }
  | .commitTt n tt => (match s.asking n with | some d => axis d fun x l => (s.ax.get x).loadTt l tt | none => c)
  | .commitFb n fb => (match s.asking n with | some d => axis d fun _ l => l.withFb fb | none => c)
  | .consist n =>
    match s.asking n with
    | some d => s.consistCfg c ((s.slotItems (u8 d.bytes 16)).getD []) d.units (d.units.length == 7)
    | none => c
  | .line => { c with line := true }
  | .firmware _ costs => { c with costs := costs }

/-- The verdict about a request: the one of frame j + 1, or one formed now; `c` results from the earlier requests (R30). -/
def State.verdictOf (s : State) (c : AdmCfg) (r : AdmReq) : AdmVerdict := r.verdict.getD (s.judgeCfg c (s.askedCfg c r.kind) r.kind)

/-- Judge the requests of the frames before the one that ends, in order of arrival (R30): `c` results from the accepted ones. -/
def State.judgeList (s : State) : AdmCfg → List AdmReq → List AdmReq
  | _, [] => []
  | c, r :: rs =>
    if s.dropped r.kind ∨ ¬ frameLe (r.frame + 1) s.frm.count then r :: s.judgeList c rs
    else
      let v := s.verdictOf c r
      { r with verdict := some v } :: s.judgeList (if v = .accepted then s.askedCfg c r.kind else c) rs

/-- The end of frame j + 1 for the requests of frame j (R30): R30 leaves open which instant of frame j + 1 a request is judged at, and the
model judges it on the state at the frame's end (DESIGN CHOICE, log entry 79). -/
def State.judgeAll (s : State) : State :=
  if s.frm.adm = [] then s else { s with frm := { s.frm with adm := s.judgeList s.admCfg s.frm.adm } }

/-- A commit comes into force and completes (R129), unless it breaks a condition on the state by now. -/
def State.admitCommit (s : State) (d : Desc) (bad : Refuse) (take : State → State) : State :=
  match bad with
  | some (st, d0, d1) => s.finish d st d0 d1 s.frm.count
  | none => (take s).finishOk d (wd (u16 d.bytes 16)) 0 s.frm.count

/-- An accepted request is in force (R30). -/
def State.admitted (s : State) (k : AdmKind) : State :=
  match k with
  | .go rate hvy ofs _ => s.takeRate rate (ofs ++ [hvy])
  | .commitTt n tt =>
    match s.asking n with
    | some d => let x := d.paramAxis; s.admitCommit d (s.ttRefusal x tt) fun t => t.takeTt x tt
    | none => s
  | .commitFb n fb =>
    match s.asking n with
    | some d => let x := d.paramAxis; s.admitCommit d (s.fbRefusal x fb) fun t => t.takeFb x fb
    | none => s
  | .consist n =>
    match s.asking n with
    | some d =>
      let slot := u8 d.bytes 16
      (s.takeConsist ((s.slotItems slot).getD []) slot d.units (d.units.length == 7)).finishOk d 0 0 s.frm.count
    | none => s
  | .line => s.lineAdmitted
  | .firmware mask costs => s.switchCores mask costs

/-- A refused commit completes as REJECTED_PARAM (R68). -/
def State.commitRefused (s : State) (n : Nat) : State :=
  match s.asking n with
  | some d => s.finish d 4 8 20 s.frm.count
  | none => s

/-- A refused request (R37): a descriptor completes as REJECTED_PARAM, and a firmware switch is told. -/
def State.turnedDown (s : State) (k : AdmKind) : State :=
  match k with
  | .go _ _ _ _ => s
  | .commitTt n _ => s.commitRefused n
  | .commitFb n _ => s.commitRefused n
  | .consist n =>
    match s.asking n with
    | some d => let (w, t) := s.drawFree; t.finish d 4 8 w t.frm.count
    | none => s
  | .line => s
  | .firmware mask _ => s.refuseSwitch mask

/-- Post the result of one request. -/
def State.postResult (s : State) (r : AdmReq) : State :=
  let s1 := { s with frm := { s.frm with adm := s.frm.adm.erase r } }
  if s.dropped r.kind then s1
  else
    let v := s.verdictOf s.admCfg r
    let s2 := s1.postVerdict (s.askedCfg s.admCfg r.kind).slack v
    match v with
    | .accepted => s2.admitted r.kind
    | .refused _ => s2.turnedDown r.kind

/-! ### The tick -/

/-- What a tick does once the counter and the axes have moved on. -/
def State.atTick (s : State) (t : TickIn) : State :=
  let s1 := (s.effects.resume t.usSinceTick).stoTick.windows (s.frm.count - 1) s.frm.count
  let s2 := ((s1.releaseSupplies t.vmMv t.railMv).endFallbacks none).chopperTick.dieCheck t.dieTemp
  let s3 := s2.latchFeedback.latchSteps.camArrive
  let s4 := s3.tickBlocks.tickRetries.tickRereads
  let s5 := s4.lineTick.markHeads.triggers
  let s6 := (s5.forAll (allFin 4) State.emuTick).timetable
  let s7 := s6.forAll (allFin 200) State.camFetch
  s7.payAudit.calNext.updStep

/-- The frame tick (R18, R19, R24): it needs a lock and the Consist's settings. -/
def State.tick (s : State) (t : TickIn) : State :=
  if ¬ s.sys.powered ∨ ¬ s.sys.booted ∨ ¬ s.frm.lock then s
  else if s.frm.started then ((s.gathering.settleEnd.fullRings.readyChange.judgeAll.tellAll.advance).gathering.atTick t).tellAll
  else (s.advance.gathering.firstTick.atTick t).tellAll

/-- FRAME_TICK (R24). -/
def execFrameTick (t : TickIn) (s : State) : Host.Outcome State Fault Refusal := .next (s.tick t)

/-! ### The clock (R19) -/

/-- CLOCK_LOSS (R19, R228, R413): a further loss before the first tick belongs to the same outage. -/
def execClockLoss (sourceStopped : Bool) (s : State) : Host.Outcome State Fault Refusal :=
  .next (
    if ¬ s.sys.powered ∨ ¬ s.frm.lock then s
    else
      let t := { s with frm := { s.frm with lock := false } }.orReg Adr.FRM_CLK 8
      if s.frm.outage.isSome then t
      else
        let live := (allFin 200).filter fun x => (s.ax.get x).energisedAhead
        let t1 := { t with frm := { t.frm with outage := some (b2n sourceStopped) } }
        let t2 := (t1.forAll live fun t x => t.faultAxis x 47).forAll (allFin 25) fun t u =>
          (t.enterSafe u).modCu u fun c => { c with cClock := true }
        t2.raise 47 0x220 (wd (b2n sourceStopped)) 0)

/-- PLL_RELOCK (R19): ticks resume with the next one. -/
def execPllRelock (s : State) : Host.Outcome State Fault Refusal :=
  .next (if s.sys.powered ∧ s.frm.outage.isSome then { s with frm := { s.frm with lock := true } } else s)

/-! ### The frame watchdog (R38–R41) -/

/-- The processor that has not finished its references: the lowest code (R38). -/
def State.refsFailed (s : State) : Option Nat :=
  (List.range 7).find? fun u => !s.frm.refsOk.getLsbD u || s.upd.halted.getLsbD u || s.upd.restart.getLsbD u

/-- The engine that has not written the duties of unit `u` (R38), or that the test withholds (R41): a halted one first. -/
def State.dutiesFailed (s : State) (u : CarrierId) : Option Nat :=
  let c := s.cu.get u
  match (enginesOf u).find? fun k => s.upd.halted.getLsbD k with
  | some k => some k
  | none => if (c.afterPeak ∧ ¬ c.dutiesOk) ∨ (u = 0 ∧ s.rb Adr.FRM_WDOG 1) then (enginesOf u).head? else none

/-- The watchdog fires (R39, R228): D0 the unit, D1 the bay and the window. -/
def State.wdogFire (s : State) (unit d1 : Nat) : State :=
  let live := (allFin 200).filter fun x => (s.ax.get x).energisedAhead || (s.ax.get x).br.byHalt
  let t := (s.putReg Adr.FRM_WDOG 3 1).forAll live fun t x => (t.faultAxis x 55).modBr x fun b => { b with byHalt := false }
  let t1 := t.raise 55 0x220 (wd unit) (wd d1)
  t1.forAll (allFin 25) fun t u => (t.enterSafe u).modCu u fun c => { c with cWdog := true }

/-- WATCHDOG_CHECK (R38). D1 of FRAME_OVERRUN names the heavy group by 24, for R39 gives it no number (DESIGN CHOICE, log 195). -/
def execWatchdogCheck (w : WdCheck) (s : State) : Host.Outcome State Fault Refusal :=
  .next (
    if ¬ s.carriers then s
    else match w with
      | .references =>
        match s.refsFailed with
        | some u => s.wdogFire u 0xFF
        | none => s
      | .duties u =>
        match s.dutiesFailed u with
        | some k => s.wdogFire k (u.val + 256)
        | none => s)

/-! ### The result of an admission (R30) -/

/-- ADMISSION_RESULT (R30): the first request whose tick j + 2 has come. -/
def execAdmissionResult (s : State) : Host.Outcome State Fault Refusal :=
  .next (
    match s.frm.adm.find? fun r => frameLe (r.frame + 2) s.frm.count with
    | some r => s.postResult r
    | none => s)

/-! ### Derating (R329, R332, R335) -/

/-- GRANARY_DERATING_UPDATE (R332, R335): at ticks k with k mod 1,024 = 0, step 1 of the evaluation, and the evaluation after it. -/
def execGranaryDeratingUpdate (s : State) : Host.Outcome State Fault Refusal :=
  .next (
    if s.carriers ∧ s.frm.count.toNat % 1024 = 0 then
      (s.forAll ((allFin 7).filter fun p => decide (p.val < 6)) fun t p =>
        t.modPool p fun q => { q with d := t.derating (t.tileTemp p) }).granary
    else s)

end Sys2Proof.Machine
end

