-- ==== Sys2Proof/Machine/Dispatch.lean ====
section
/-! DEFINITION. What each command does: one arm per command, each a call of its meaning. -/

namespace Sys2Proof.Machine

def exec (i : Instr) (s : State) : Host.Outcome State Fault Refusal :=
  match i with
  | .frameTick t => Sys2Proof.Machine.execFrameTick t s
  | .clockLoss sourceStopped => Sys2Proof.Machine.execClockLoss sourceStopped s
  | .pllRelock => Sys2Proof.Machine.execPllRelock s
  | .bayShadowLoad u v => Sys2Proof.Machine.execBayShadowLoad u v s
  | .bayPeakSample u p => Sys2Proof.Machine.execBayPeakSample u p s
  | .watchdogCheck w => Sys2Proof.Machine.execWatchdogCheck w s
  | .frmAdmitGo m w => Sys2Proof.Machine.execFrmAdmitGo m w s
  | .admissionResult => Sys2Proof.Machine.execAdmissionResult s
  | .wdogFiredClear m => Sys2Proof.Machine.execWdogFiredClear m s
  | .wdogTest m => Sys2Proof.Machine.execWdogTest m s
  | .frmCountLoRead m => Sys2Proof.Machine.execFrmCountLoRead m s
  | .captureRead m addr => Sys2Proof.Machine.execCaptureRead m addr s
  | .rcFieldRead m addr => Sys2Proof.Machine.execRcFieldRead m addr s
  | .resultRegisterRead m addr => Sys2Proof.Machine.execResultRegisterRead m addr s
  | .registerWrite m addr be w => Sys2Proof.Machine.execRegisterWrite m addr be w s
  | .wlWordWrite m addr be w => Sys2Proof.Machine.execWlWordWrite m addr be w s
  | .sramApertureRead m off found => Sys2Proof.Machine.execSramApertureRead m off found s
  | .hostLinkDown => Sys2Proof.Machine.execHostLinkDown s
  | .hostLinkUp => Sys2Proof.Machine.execHostLinkUp s
  | .functionLevelReset f => Sys2Proof.Machine.execFunctionLevelReset f s
  | .perst => Sys2Proof.Machine.execPerst s
  | .hifKick m => Sys2Proof.Machine.execHifKick m s
  | .doorbellBlockReadDone r => Sys2Proof.Machine.execDoorbellBlockReadDone r s
  | .returnBlockReadDone r => Sys2Proof.Machine.execReturnBlockReadDone r s
  | .descriptorReadDone q r => Sys2Proof.Machine.execDescriptorReadDone q r s
  | .descriptorRefetchDone d r => Sys2Proof.Machine.execDescriptorRefetchDone d r s
  | .sqEnable m q w => Sys2Proof.Machine.execSqEnable m q w s
  | .sqDisable m q w => Sys2Proof.Machine.execSqDisable m q w s
  | .sqDrainDone q => Sys2Proof.Machine.execSqDrainDone q s
  | .cqEnable m q w => Sys2Proof.Machine.execCqEnable m q w s
  | .cqDisable m q w => Sys2Proof.Machine.execCqDisable m q w s
  | .eqEnable m w => Sys2Proof.Machine.execEqEnable m w s
  | .eqDisable m w => Sys2Proof.Machine.execEqDisable m w s
  | .msixCoalesceTimeout src => Sys2Proof.Machine.execMsixCoalesceTimeout src s
  | .enterOrdering q => Sys2Proof.Machine.execEnterOrdering q s
  | .nop d => Sys2Proof.Machine.execNop d s
  | .moveAbs d => Sys2Proof.Machine.execMoveAbs d s
  | .moveRel d => Sys2Proof.Machine.execMoveRel d s
  | .moveVel d => Sys2Proof.Machine.execMoveVel d s
  | .moveVelComplete x => Sys2Proof.Machine.execMoveVelComplete x s
  | .stop d => Sys2Proof.Machine.execStop d s
  | .followStep d => Sys2Proof.Machine.execFollowStep d s
  | .followCam d => Sys2Proof.Machine.execFollowCam d s
  | .energize d => Sys2Proof.Machine.execEnergize d s
  | .park d => Sys2Proof.Machine.execPark d s
  | .fence d => Sys2Proof.Machine.execFence d s
  | .fenceComplete d => Sys2Proof.Machine.execFenceComplete d s
  | .barrier d => Sys2Proof.Machine.execBarrier d s
  | .barrierArrive d => Sys2Proof.Machine.execBarrierArrive d s
  | .barrierRelease id => Sys2Proof.Machine.execBarrierRelease id s
  | .snapshot d => Sys2Proof.Machine.execSnapshot d s
  | .snapshotComplete d => Sys2Proof.Machine.execSnapshotComplete d s
  | .triggerArm d => Sys2Proof.Machine.execTriggerArm d s
  | .maskSet d => Sys2Proof.Machine.execMaskSet d s
  | .identify d => Sys2Proof.Machine.execIdentify d s
  | .identifyComplete x => Sys2Proof.Machine.execIdentifyComplete x s
  | .shaperIdentComplete x freq damp => Sys2Proof.Machine.execShaperIdentComplete x freq damp s
  | .setParam d => Sys2Proof.Machine.execSetParam d s
  | .posSet d => Sys2Proof.Machine.execPosSet d s
  | .grpDef d => Sys2Proof.Machine.execGrpDef d s
  | .trgDisarm d => Sys2Proof.Machine.execTrgDisarm d s
  | .groupMove d => Sys2Proof.Machine.execGroupMove d s
  | .groupTargetListReadDone d r => Sys2Proof.Machine.execGroupTargetListReadDone d r s
  | .consistSelect d => Sys2Proof.Machine.execConsistSelect d s
  | .consistSlotReadEnd d => Sys2Proof.Machine.execConsistSlotReadEnd d s
  | .moveComplete x => Sys2Proof.Machine.execMoveComplete x s
  | .energisingRampEnd x => Sys2Proof.Machine.execEnergisingRampEnd x s
  | .identREnd x => Sys2Proof.Machine.execIdentREnd x s
  | .identLEnd x => Sys2Proof.Machine.execIdentLEnd x s
  | .energizeComplete x => Sys2Proof.Machine.execEnergizeComplete x s
  | .powerDownDelayEnd x => Sys2Proof.Machine.execPowerDownDelayEnd x s
  | .powerDownRampEnd x => Sys2Proof.Machine.execPowerDownRampEnd x s
  | .standstillWindowEnd x => Sys2Proof.Machine.execStandstillWindowEnd x s
  | .bootstrapRelease h => Sys2Proof.Machine.execBootstrapRelease h s
  | .bootstrapReleaseTimeout h => Sys2Proof.Machine.execBootstrapReleaseTimeout h s
  | .camLineReadDone x line r => Sys2Proof.Machine.execCamLineReadDone x line r s
  | .stepInputEdge p e => Sys2Proof.Machine.execStepInputEdge p e s
  | .stepPairOpen p => Sys2Proof.Machine.execStepPairOpen p s
  | .brSrcWrite m x w => Sys2Proof.Machine.execBrSrcWrite m x w s
  | .bayCommitWrite m b w => Sys2Proof.Machine.execBayCommitWrite m b w s
  | .legLatchRelease m u w => Sys2Proof.Machine.execLegLatchRelease m u w s
  | .coilWindowTrip u c hi trip => Sys2Proof.Machine.execCoilWindowTrip u c hi trip s
  | .debugHalt core => Sys2Proof.Machine.execDebugHalt core s
  | .stoInputLow a b us => Sys2Proof.Machine.execStoInputLow a b us s
  | .stoRelease us => Sys2Proof.Machine.execStoRelease us s
  | .stoDiscrepancy => Sys2Proof.Machine.execStoDiscrepancy s
  | .fastOvercurrent leg low => Sys2Proof.Machine.execFastOvercurrent leg low s
  | .openLoadCountEnd x => Sys2Proof.Machine.execOpenLoadCountEnd x s
  | .parkedAxisProbe x code => Sys2Proof.Machine.execParkedAxisProbe x code s
  | .bootstrapUndervoltage leg => Sys2Proof.Machine.execBootstrapUndervoltage leg s
  | .gateSupplyFall r => Sys2Proof.Machine.execGateSupplyFall r s
  | .gateSupplyRelease r => Sys2Proof.Machine.execGateSupplyRelease r s
  | .vdsDetection leg low clk => Sys2Proof.Machine.execVdsDetection leg low clk s
  | .hardOvercurrent c code => Sys2Proof.Machine.execHardOvercurrent c code s
  | .gateFeedbackMismatch leg low kind => Sys2Proof.Machine.execGateFeedbackMismatch leg low kind s
  | .fbStateChange c a b clk => Sys2Proof.Machine.execFbStateChange c a b clk s
  | .fbSincosConversion c codeA codeB clk => Sys2Proof.Machine.execFbSincosConversion c codeA codeB clk s
  | .fbWireCheckFail c pair amplitude => Sys2Proof.Machine.execFbWireCheckFail c pair amplitude s
  | .fbChannelValid c => Sys2Proof.Machine.execFbChannelValid c s
  | .indexQualified c z => Sys2Proof.Machine.execIndexQualified c z s
  | .fbCfgWrite m c w => Sys2Proof.Machine.execFbCfgWrite m c w s
  | .fbReval m c => Sys2Proof.Machine.execFbReval m c s
  | .fbSetcnt m c => Sys2Proof.Machine.execFbSetcnt m c s
  | .fbSuspectClear m c => Sys2Proof.Machine.execFbSuspectClear m c s
  | .fbIndexConfigWrite m addr w => Sys2Proof.Machine.execFbIndexConfigWrite m addr w s
  | .fbSoftLimitWrite m addr w => Sys2Proof.Machine.execFbSoftLimitWrite m addr w s
  | .probeEdge q level clk => Sys2Proof.Machine.execProbeEdge q level clk s
  | .emuCfgWrite m e w => Sys2Proof.Machine.execEmuCfgWrite m e w s
  | .comparatorSweepStart => Sys2Proof.Machine.execComparatorSweepStart s
  | .cmpSweepWrite m => Sys2Proof.Machine.execCmpSweepWrite m s
  | .comparatorTestEnd o => Sys2Proof.Machine.execComparatorTestEnd o s
  | .cmpThresholdWrite m addr w => Sys2Proof.Machine.execCmpThresholdWrite m addr w s
  | .vmEntryLoTrip d => Sys2Proof.Machine.execVmEntryLoTrip d s
  | .vmEntryHiTrip d => Sys2Proof.Machine.execVmEntryHiTrip d s
  | .overvoltageMonitorTrip u => Sys2Proof.Machine.execOvervoltageMonitorTrip u s
  | .brakeChopperLimit b => Sys2Proof.Machine.execBrakeChopperLimit b s
  | .railLoTrip r => Sys2Proof.Machine.execRailLoTrip r s
  | .railHiTrip r => Sys2Proof.Machine.execRailHiTrip r s
  | .granaryDeratingUpdate => Sys2Proof.Machine.execGranaryDeratingUpdate s
  | .lineEnable m w => Sys2Proof.Machine.execLineEnable m w s
  | .lineStatusReceive port frame => Sys2Proof.Machine.execLineStatusReceive port frame s
  | .lineArriveReceive port bytes => Sys2Proof.Machine.execLineArriveReceive port bytes s
  | .lineSnapCmdReceive port bytes => Sys2Proof.Machine.execLineSnapCmdReceive port bytes s
  | .lineSnapDoneReceive port bytes => Sys2Proof.Machine.execLineSnapDoneReceive port bytes s
  | .lineResetReceive port frame => Sys2Proof.Machine.execLineResetReceive port frame s
  | .linePingReceive port bytes ping => Sys2Proof.Machine.execLinePingReceive port bytes ping s
  | .tickMarkerReceive port clk => Sys2Proof.Machine.execTickMarkerReceive port clk s
  | .estopMarkerReceive port data inv => Sys2Proof.Machine.execEstopMarkerReceive port data inv s
  | .lineCutOff => Sys2Proof.Machine.execLineCutOff s
  | .linePortDown port checkFailures => Sys2Proof.Machine.execLinePortDown port checkFailures s
  | .lineJoin found => Sys2Proof.Machine.execLineJoin found s
  | .lineCtlReset m => Sys2Proof.Machine.execLineCtlReset m s
  | .lineEpoch => Sys2Proof.Machine.execLineEpoch s
  | .lineCtlEstop m => Sys2Proof.Machine.execLineCtlEstop m s
  | .lineCtlEstopClr m => Sys2Proof.Machine.execLineCtlEstopClr m s
  | .lineBarrierRelease id => Sys2Proof.Machine.execLineBarrierRelease id s
  | .wbEnergySample samples => Sys2Proof.Machine.execWbEnergySample samples s
  | .wbRtcSecond => Sys2Proof.Machine.execWbRtcSecond s
  | .wbCheckpoint finished => Sys2Proof.Machine.execWbCheckpoint finished s
  | .wbStandbyCheck => Sys2Proof.Machine.execWbStandbyCheck s
  | .wbRtcGo m => Sys2Proof.Machine.execWbRtcGo m s
  | .tamperChange input away => Sys2Proof.Machine.execTamperChange input away s
  | .sealPadChange strapped => Sys2Proof.Machine.execSealPadChange strapped s
  | .wbTblCommit m => Sys2Proof.Machine.execWbTblCommit m s
  | .wbInstall m => Sys2Proof.Machine.execWbInstall m s
  | .wbInstallVerifyDone signatureGood => Sys2Proof.Machine.execWbInstallVerifyDone signatureGood s
  | .wbInstallWriteDone good => Sys2Proof.Machine.execWbInstallWriteDone good s
  | .wbInstallCommitDone => Sys2Proof.Machine.execWbInstallCommitDone s
  | .wbInstallRestartDone => Sys2Proof.Machine.execWbInstallRestartDone s
  | .wbReqGo m => Sys2Proof.Machine.execWbReqGo m s
  | .wbRecordReady => Sys2Proof.Machine.execWbRecordReady s
  | .wbSnap m => Sys2Proof.Machine.execWbSnap m s
  | .wbSnapHoldEnd => Sys2Proof.Machine.execWbSnapHoldEnd s
  | .spiWriteTransaction bytes => Sys2Proof.Machine.execSpiWriteTransaction bytes s
  | .spiReadTransaction bytes => Sys2Proof.Machine.execSpiReadTransaction bytes s
  | .spiResponseWrite m w => Sys2Proof.Machine.execSpiResponseWrite m w s
  | .spiLeave m => Sys2Proof.Machine.execSpiLeave m s
  | .spiIdleTimeout => Sys2Proof.Machine.execSpiIdleTimeout s
  | .spiBlockEnd => Sys2Proof.Machine.execSpiBlockEnd s
  | .scrubRead f off found => Sys2Proof.Machine.execScrubRead f off found s
  | .coreRestart u => Sys2Proof.Machine.execCoreRestart u s
  | .configParityFail addr => Sys2Proof.Machine.execConfigParityFail addr s
  | .parErrClear m => Sys2Proof.Machine.execParErrClear m s
  | .vauxRise cfgsel => Sys2Proof.Machine.execVauxRise cfgsel s
  | .vauxFall => Sys2Proof.Machine.execVauxFall s
  | .bootImageLoaded goodA goodB => Sys2Proof.Machine.execBootImageLoaded goodA goodB s
  | .softwareReset m w => Sys2Proof.Machine.execSoftwareReset m w s
  | .bayCalibrationEnd u zr refGood => Sys2Proof.Machine.execBayCalibrationEnd u zr refGood s
  | .calibrationPassStart => Sys2Proof.Machine.execCalibrationPassStart s
  | .updCalGo m w => Sys2Proof.Machine.execUpdCalGo m w s
  | .updCapture m w => Sys2Proof.Machine.execUpdCapture m w s
  | .updGo m w => Sys2Proof.Machine.execUpdGo m w s
  | .updWriteDone r => Sys2Proof.Machine.execUpdWriteDone r s
  | .updSwitchGo m w => Sys2Proof.Machine.execUpdSwitchGo m w s
  | .updBankCopyDone good => Sys2Proof.Machine.execUpdBankCopyDone good s
  | .pwrPrep m => Sys2Proof.Machine.execPwrPrep m s
  | .pwrPrepWithdraw m => Sys2Proof.Machine.execPwrPrepWithdraw m s
  | .pwrDone => Sys2Proof.Machine.execPwrDone s
  | .linePortUp port => Sys2Proof.Machine.execLinePortUp port s
  | .stepPairRestore p => Sys2Proof.Machine.execStepPairRestore p s
  | .perstRelease => Sys2Proof.Machine.execPerstRelease s
  | .debugHaltRelease core => Sys2Proof.Machine.execDebugHaltRelease core s
  | .wbSlowClockEdge => Sys2Proof.Machine.execWbSlowClockEdge s
  | .vbatFall => Sys2Proof.Machine.execVbatFall s
  | .msixVectorUnmask f v => Sys2Proof.Machine.execMsixVectorUnmask f v s

end Sys2Proof.Machine
end

