-- ==== Sys2Proof/Safety.lean ====
section
/-! DEFINITION. The terms in which claims speak of runs: the invariant that every step keeps, a command that completes, a
descriptor that is due, the state in which it takes effect, and a register word that a master's write stores. -/

namespace Sys2Proof.Safety

open Sys2Proof.Machine

/-- The register file keeps its canonical form, so that equal register contents are equal data. -/
def Canonical (s : State) : Prop := regsWf s.regs = true

/-- The acceptance sequence (R82): the descriptors in the device stand in the order of their acceptance numbers, each below the next
number to be given. -/
def Ordered (s : State) : Prop :=
  (s.ord.descs.map (·.acc)).Pairwise (· < ·) ∧ ∀ n ∈ s.ord.descs.map (·.acc), n < s.ord.next

/-- The commands that name an offset that is no register: outside BAR0 and the function's BAR2, or off a word, or an SRAM offset of 1 MiB
or more (R44, R391, R393, R406). -/
def outside : Instr → Bool
  | .registerWrite m a _ _ | .captureRead m a | .rcFieldRead m a | .resultRegisterRead m a => !inBar a && !inBar2 m a
  | .wlWordWrite _ a _ _ => !inBar a
  | .sramApertureRead _ o _ => decide (0x100000 ≤ o)
  | _ => false

/-- The commands that may move the frame counter, power, the boot image or the locks: the tick (R26), the two events of the line that set
the counter (R28), the supply (R410), the boot (R416), and what can write GCTL_RESET (R420). -/
def unquiet : Instr → Bool
  | .frameTick _ | .lineEpoch | .lineJoin _ | .vauxRise _ | .vauxFall | .bootImageLoaded _ _ | .softwareReset _ _ => true
  | .spiWriteTransaction _ => true
  | .registerWrite _ a _ _ => a == Adr.GCTL_RESET
  | _ => false

/-- The registers that tell of events: the pending bits and the counters (R409). -/
def evReg (a : Nat) : Bool := a == Adr.EVT_PEND_LO || a == Adr.EVT_PEND_HI || (decide (0x30100 ≤ a) && decide (a < 0x30200))

/-- A master's action reaches the bits `mask` of the register at `a` (R394, R396). -/
def Acts (s : State) (m : Master) (a mask : Nat) : Prop := s.sys.powered = true ∧ s.reaches m a mask = true

/-- Command `c` ends in a next state in `s`, and `P` holds of that state. -/
def Completes (c : Instr) (s : State) (P : State → Prop) : Prop := ∃ t, exec c s = .next t ∧ P t

/-- A line frame of type `type` that the station accepts (R344, R346, R347): another station sent it, it passes its check, and
its ALIVE is the first of its direction or follows the last. -/
def Accepted (s : State) (type : Nat) (b : List Byte) : Prop :=
  let p := s.line.peer (u8 b 1 % 8)
  s.line.mode ≠ .off ∧ u8 b 1 % 8 ≠ s.station ∧ frameOk b = true ∧ u8 b 0 = type ∧
    (if 128 ≤ u8 b 1 then p.alive1 else p.alive0).all (fun v => (b.getD 2 0 - v).toNat == 1) = true

/-- The Weighbridge's log has a record of a kind and a detail as its newest (R385, R386). -/
def logged (s : State) (kind detail : Nat) : Bool :=
  s.wb.log.head?.any fun r => r.kind == BitVec.ofNat 8 kind && r.detail == BitVec.ofNat 8 detail

/-- Descriptor `d`, with acceptance number `n` and opcode `op`, is due: it stands at the head of its queues (R85) and no check
refuses it there (R104, R108), its start has come (R86 to R88, R149), and the Granary grants it (R331). -/
def Due (s : State) (n op : Nat) (d : Desc) : Prop :=
  s.sys.powered = true ∧ s.desc? n = some d ∧ d.op = op ∧ s.stands d = true ∧ (s.settleOne d).isNone = true ∧
    s.canStart d = true ∧ (s.decideOne d).2 = .granted

/-- The state in which a due descriptor takes effect in the next frame: the Granary has decided (R332), its axes are kept as it finds
them, and it stands among those in effect (R86). What it replaces ends, and the faults that it clears are cleared, with the tick of
that frame (R90, R104). -/
def onset (s : State) (d : Desc) : State := (s.decideOne d).1.takeOver ((s.decideOne d).1.fresh d)

/-- The descriptor as it takes effect. -/
def onsetOf (s : State) (d : Desc) : Desc := (onset s d).fresh ((s.decideOne d).1.fresh d)

end Sys2Proof.Safety
end

