-- ==== Sys2Proof/Certificates/Slice0/Obligations.lean ====
section
/-! DEFINITION. What the prover is asked to prove, one definition each. A command completes where `Completes` says so of the next
state. -/

set_option linter.unusedVariables false

open Sys2Proof Sys2Proof.Machine Sys2Proof.Safety

/-! ### The whole machine -/

/-- A step runs the command at the front of the queue on the state with the rest of the queue. On an empty queue the block idles, which
is the model's choice (log entry 3). -/
def Obligations.StepRunsFrontCommand : Prop :=
  (∀ (c : Instr) (rest : List Instr) (s : State), s.pending = c :: rest → step s = exec c { s with pending := rest }) ∧
  (∀ s : State, s.pending = [] → step s = .next s)

/-- The state after reset meets the invariants of `CanonicalKept` and `AcceptanceOrderKept`; the frame counter is 0, no tick has come,
every axis is DISABLED with its phase OFF, every ring is disabled, and nothing waits in the queue (R26, R42, R81, R105, R205). -/
def Obligations.ResetState : Prop :=
  Canonical State.reset ∧ Ordered State.reset ∧ State.reset.pending = [] ∧ State.reset.frm.count = 0 ∧
  State.reset.frm.started = false ∧
  (∀ x : AxisId, (State.reset.ax.get x).tt.mode = .disabled ∧ (State.reset.ax.get x).cd.phase = .off) ∧
  (∀ q : RingId, (State.reset.sq.get q).state = .disabled ∧ (State.reset.cq.get q).enabled = false) ∧
  State.reset.eq.enabled = false ∧ State.reset.reg Adr.FRM_ADMIT_CTL = 0x800#32

/-- Every step keeps the canonical form of the register file, from every state that has it. -/
def Obligations.CanonicalKept : Prop :=
  ∀ s t : State, Canonical s → step s = .next t → Canonical t

/-- Every step keeps the acceptance sequence (R82): the descriptors in the device stand in acceptance order, each below the next number. -/
def Obligations.AcceptanceOrderKept : Prop :=
  ∀ s t : State, Ordered s → step s = .next t → Ordered t

/-- No command touches the queue of waiting commands; what has been sent out stays sent (in the order that is the model's choice, log entry
186). A draw takes the free value of its number and counts it, and no command takes the count back, so that no draw gives the value of a
number drawn before (the model's choice of how a value that the spec does not state is free, log entry 9). -/
def Obligations.QueueAndOutputs : Prop :=
  (∀ (c : Instr) (s t : State), exec c s = .next t → t.pending = s.pending ∧ s.out <+: t.out ∧ s.free ≤ t.free) ∧
  ∀ s : State, s.drawFree = (Config.freeWord s.free, { s with free := s.free + 1 })

/-- No command is refused, and one stops only where it names a register offset outside BAR0 and the BAR2 of its
function, or off a word, or an SRAM offset of 1 MiB
or more (R44, R391, R393, R406): everything else ends in a next state. -/
def Obligations.StopsOnlyOutsideTheBlock : Prop :=
  (∀ (c : Instr) (s : State) (r : Refusal), exec c s ≠ .refused r) ∧
  (∀ (c : Instr) (s : State) (f : Fault), exec c s = .fault f ↔ f = .outsideBlock ∧ outside c = true)

/-- FRAME_TICK counts one (R26): the first tick after reset begins frame 0 and each further one adds 1; without power, the boot image or
the lock nothing changes (R18, R19). -/
def Obligations.FrameTickCountsOne : Prop :=
  ∀ (t : TickIn) (s : State),
    (s.sys.powered = true → s.sys.booted = true → s.frm.lock = true →
      Completes (.frameTick t) s fun u => u.frm.started = true ∧ u.frm.count = if s.frm.started then s.frm.count + 1 else 0) ∧
    (s.sys.powered = false ∨ s.sys.booted = false ∨ s.frm.lock = false → exec (.frameTick t) s = .next s)

/-- The frame counter holds its value, power and the boot image stay, and a locked word stays locked, through every command but the tick,
the two events of the line that set the counter, the commands of the supply and the boot, and what can write GCTL_RESET (R26, R28,
R402, R416, R420). -/
def Obligations.QuietBetweenTicks : Prop :=
  ∀ (c : Instr) (s t : State), unquiet c = false → exec c s = .next t →
    t.frm.count = s.frm.count ∧ t.frm.started = s.frm.started ∧ t.sys.powered = s.sys.powered ∧ t.sys.booted = s.sys.booted ∧
      ∀ a ∈ s.acc.locked, a ∈ t.acc.locked

/-! ### The frame, the clock, the watchdog and admission -/

/-- CLOCK_LOSS ends the lock and begins an outage with its cause: the counter holds its value, every unit goes to its safe state for the
clock, FRM_CLK.LOSS is set and CLOCK_FAIL is pending; a further loss belongs to the same outage and adds only the loss of the lock;
PLL_RELOCK brings the lock back and nothing else (R19, R42, R228). -/
def Obligations.ClockLossAndRelock : Prop :=
  ∀ s : State, s.sys.powered = true →
    (∀ b : Bool, s.frm.lock = true → s.frm.outage = none →
      Completes (.clockLoss b) s fun t =>
        t.frm = { s.frm with lock := false, outage := some (b2n b) } ∧ (∀ u : CarrierId, (t.cu.get u).cClock = true) ∧
        t.rb Adr.FRM_CLK 3 = true ∧ t.rb Adr.EVT_PEND_HI 15 = true) ∧
    (∀ (b : Bool) (c : Nat), s.frm.lock = true → s.frm.outage = some c →
      exec (.clockLoss b) s = .next ({ s with frm := { s.frm with lock := false } }.setReg Adr.FRM_CLK (s.reg Adr.FRM_CLK ||| 8#32))) ∧
    (∀ b : Bool, s.frm.lock = false → exec (.clockLoss b) s = .next s) ∧
    (∀ c : Nat, s.frm.outage = some c → exec .pllRelock s = .next { s with frm := { s.frm with lock := true } }) ∧
    (s.frm.outage = none → exec .pllRelock s = .next s)

/-- WATCHDOG_CHECK fires where a check fails: FIRED is set and TEST cleared, every unit has the watchdog as a cause of its safe state, and
event 55 is pending; where the check is passed, nothing changes (R38, R39, R41). WDOG_FIRED_CLEAR by a master that reaches FIRED clears
it and that cause in every unit (R40, R229); WDOG_TEST by an admin master sets TEST and nothing else, and by any other master
nothing but the count of the violation (R41, R396). -/
def Obligations.FrameWatchdog : Prop :=
  (∀ (s : State) (u : Nat), s.carriers = true → s.refsFailed = some u →
    Completes (.watchdogCheck .references) s fun t => t.rb Adr.FRM_WDOG 0 = true ∧ t.rb Adr.FRM_WDOG 1 = false ∧
      (∀ v : CarrierId, (t.cu.get v).cWdog = true) ∧ t.rb Adr.EVT_PEND_HI 23 = true) ∧
  (∀ (s : State) (v : CarrierId) (k : Nat), s.carriers = true → s.dutiesFailed v = some k →
    Completes (.watchdogCheck (.duties v)) s fun t => t.rb Adr.FRM_WDOG 0 = true ∧ t.rb Adr.FRM_WDOG 1 = false ∧
      (∀ w : CarrierId, (t.cu.get w).cWdog = true) ∧ t.rb Adr.EVT_PEND_HI 23 = true) ∧
  (∀ s : State, s.refsFailed = none → exec (.watchdogCheck .references) s = .next s) ∧
  (∀ (s : State) (v : CarrierId), s.dutiesFailed v = none → exec (.watchdogCheck (.duties v)) s = .next s) ∧
  (∀ (s : State) (m : Master), s.sys.powered = true → m ≠ .spiOpen →
    Completes (.wdogFiredClear m) s fun t => t.rb Adr.FRM_WDOG 0 = false ∧ t.rb Adr.FRM_WDOG 1 = s.rb Adr.FRM_WDOG 1 ∧
      (∀ u : CarrierId, t.cu.get u = { s.cu.get u with cWdog := false }) ∧ t.ax = s.ax) ∧
  (∀ (s : State) (m : Master), s.sys.powered = true → m.admin = true →
    exec (.wdogTest m) s = .next (s.setReg Adr.FRM_WDOG (s.reg Adr.FRM_WDOG ||| 2#32))) ∧
  (∀ s : State, s.sys.powered = true → exec (.wdogTest .spiOpen) s = .next s ∧
    Completes (.wdogTest .pf1) s fun t => t.reg Adr.FRM_WDOG = s.reg Adr.FRM_WDOG ∧ t = { s with regs := t.regs } ∧
      fld (t.reg Adr.ACC_PRVV_INFO) 15 0 = min (fld (s.reg Adr.ACC_PRVV_INFO) 15 0 + 1) 65535)

/-- FRM_ADMIT_GO (R31, R36): with no request made that is in progress it puts one in progress for this frame, with the slack held to
8 to 50 %; with one in progress it sets GO_IGNORED and leaves those in progress. ADMISSION_RESULT posts the first request whose result is
due (R30): the request is in progress no more. A GO whose verdict is to accept it brings its rate and offsets into force, one that is
refused leaves the rate and the offsets in force (R31, R37); with no result due nothing changes. The verdict about a request is formed
once, at the end of the frame after it, and stands from then on. -/
def Obligations.Admission : Prop :=
(∀ (s : State) (m : Master) (w : Word), s.sys.powered = true → m.admin = true → bitOf w 0 = true →
    (s.admBusy = false →
      Completes (.frmAdmitGo m w) s fun t =>
        (∃ rate hvy ofs slack, t.frm = (s.ask (.go rate hvy ofs slack) s.frm.count).frm ∧
          slack = clampNat 8 50 (fld w 13 8) ∧ rate = Fin.ofNat 4 (s.rf Adr.FRM_CFG 1 0) ∧ hvy = BitVec.ofNat 3 (s.rf Adr.FRM_CFG 5 3)) ∧
        t.admBusy = true ∧ t.rf Adr.FRM_ADMIT_CTL 13 8 = clampNat 8 50 (fld w 13 8)) ∧
    (s.admBusy = true →
      Completes (.frmAdmitGo m w) s fun t => t.frm = s.frm ∧ t.rb Adr.FRM_ADMIT_STAT 3 = true)) ∧
  ((∀ s : State, (∀ r ∈ s.frm.adm, frameLe (r.frame + 2) s.frm.count = false) → exec .admissionResult s = .next s) ∧
  (∀ (s : State) (r : AdmReq) (rate : Fin 4) (hvy : BitVec 3) (ofs : List (BitVec 3)) (slack : Nat),
    s.frm.adm.find? (fun q => frameLe (q.frame + 2) s.frm.count) = some r → r.kind = .go rate hvy ofs slack →
      (s.verdictOf s.admCfg r = .accepted →
        Completes .admissionResult s fun t => t.frm.adm = s.frm.adm.erase r ∧ t.frm.rate = rate ∧
          (∀ u : CarrierId, (t.cu.get u).ofs = (ofs ++ [hvy]).getD u (s.cu.get u).ofs) ∧ t.rf Adr.FRM_ADMIT_STAT 2 1 = 1) ∧
      (s.verdictOf s.admCfg r ≠ .accepted →
        Completes .admissionResult s fun t => t.frm = { s.frm with adm := s.frm.adm.erase r } ∧ t.cu = s.cu ∧
          t.rf Adr.FRM_ADMIT_STAT 2 1 = 2))) ∧
  (∀ (s : State) (r : AdmReq) (v : AdmVerdict), s.frm.adm = [r] → s.dropped r.kind = false → frameLe (r.frame + 1) s.frm.count = true →
    s.verdictOf s.admCfg r = v → s.judgeAll.frm.adm = [{ r with verdict := some v }])

/-! ### Reads and writes of registers -/

/-- A read of the register at `a` that holds no capture for the master (R399, R401): it returns the register as that master sees it, clears
the RC bits that the master may clear, captures the companions for that master, and changes no other register and nothing else. The
three commands of reads act alike. -/
def Obligations.RegisterReads : Prop :=
  ∀ (s : State) (m : Master) (a : Nat) (c : Instr), c ∈ [.captureRead m a, .rcFieldRead m a, .resultRegisterRead m a] →
    inBar a = true → a < 0x200000 ∨ 0x300000 ≤ a → s.sys.powered = true → s.maySee m a = true →
      (s.capOf m a = none →
        Completes c s fun t => t.bus = s.view m a ∧ t.reg a = s.reg a &&& ~~~(wd (rcFor m a)) ∧
          (∀ b : Nat, b ≠ a → t.reg b = s.reg b) ∧ (∀ b ∈ companions a, t.capOf m b = some (s.view m b)) ∧
          t = { s with bus := t.bus, caps := t.caps, regs := t.regs }) ∧
      (∀ v : Word, s.capOf m a = some v → Completes c s fun t => t.bus = v ∧ (∀ b : Nat, b ≠ a → t.reg b = s.reg b))

/-- The copy of FRM_COUNT_HI (R27): a read of FRM_COUNT_LO captures the high word for its master, in place of the copy it had, and no
other master's; a read of FRM_COUNT_HI returns the copy and keeps it, or the live high word where the master has none; no read of
another register, and no other master's read, changes the copy; after reset there is none. -/
def Obligations.FrameCountCopy : Prop :=
  (∀ (s : State) (m : Master), s.sys.powered = true → m ≠ .spiOpen →
    let high : Word := (s.frm.count >>> 32).setWidth 32
    (Completes (.frmCountLoRead m) s fun t => t.capOf m Adr.FRM_COUNT_HI = some high ∧
      ∀ k : Master, k ≠ m → t.capOf k Adr.FRM_COUNT_HI = s.capOf k Adr.FRM_COUNT_HI) ∧
    (∀ v : Word, s.capOf m Adr.FRM_COUNT_HI = some v → Completes (.captureRead m Adr.FRM_COUNT_HI) s fun t =>
      t.bus = v ∧ t.capOf m Adr.FRM_COUNT_HI = some v) ∧
    (s.capOf m Adr.FRM_COUNT_HI = none → Completes (.captureRead m Adr.FRM_COUNT_HI) s fun t =>
      t.bus = high ∧ t.capOf m Adr.FRM_COUNT_HI = none)) ∧
  (∀ (s : State) (m k : Master) (a : Nat) (c : Instr), c ∈ [.captureRead k a, .rcFieldRead k a, .resultRegisterRead k a] →
    inBar a = true → a ≠ Adr.FRM_COUNT_LO ∨ k ≠ m →
    Completes c s fun t => t.capOf m Adr.FRM_COUNT_HI = s.capOf m Adr.FRM_COUNT_HI) ∧
  ∀ m : Master, State.reset.capOf m Adr.FRM_COUNT_HI = none

/-- REGISTER_WRITE (R393, R396): one whose byte enables do not cover the word is dropped and counted in ACC_BADACC. A whole-word write of
GCTL_SCRATCH stores the word; one of the configuration register FRM_CFG by an admin master stores its fields, and by an application
master leaves them and is counted. Without power nothing happens. -/
def Obligations.RegisterWrites : Prop :=
  ∀ (s : State) (m : Master) (w : Word),
    (∀ (a : Nat) (be : BitVec 4), inBar a = true → be ≠ 15 → s.sys.powered = true → m ≠ .spiOpen →
      exec (.registerWrite m a be w) s = .next (s.setReg Adr.ACC_BADACC (satInc (s.reg Adr.ACC_BADACC)))) ∧
    (∀ (a : Nat) (be : BitVec 4), inBar a = true → s.sys.powered = false → exec (.registerWrite m a be w) s = .next s) ∧
    (s.sys.powered = true → m ≠ .spiOpen →
      Completes (.registerWrite m Adr.GCTL_SCRATCH 15 w) s fun t => t.reg Adr.GCTL_SCRATCH = w ∧
        (∀ b : Nat, b ≠ Adr.GCTL_SCRATCH → t.reg b = s.reg b) ∧ t.ax = s.ax ∧ t.frm = s.frm ∧ t.ord = s.ord ∧ t.out = s.out) ∧
    (s.sys.powered = true → m.admin = true →
      Completes (.registerWrite m Adr.FRM_CFG 15 w) s fun t => t.rf Adr.FRM_CFG 1 0 = fld w 1 0 ∧ t.rf Adr.FRM_CFG 5 3 = fld w 5 3 ∧
        t.frm = s.frm) ∧
    (s.sys.powered = true →
      Completes (.registerWrite .pf1 Adr.FRM_CFG 15 w) s fun t => t.reg Adr.FRM_CFG = s.reg Adr.FRM_CFG ∧
        fld (t.reg Adr.ACC_PRVV_INFO) 15 0 = min (fld (s.reg Adr.ACC_PRVV_INFO) 15 0 + 1) 65535)

/-- WL_WORD_WRITE (R402): an admin master's first write of a WL word since reset stores it and locks it; a write to a locked word leaves
the word and the lock, counts in ACC_LOCKV_INFO, and raises LOCK_VIOLATION for the first one in a window. An application master's
write neither stores nor locks. -/
def Obligations.LockedWords : Prop :=
  ∀ (s : State) (m : Master) (a : Nat) (w : Word), s.sys.powered = true → inBar a = true → isWl a = true →
    (m.admin = true → s.acc.locked.contains a = false →
      Completes (.wlWordWrite m a 15 w) s fun t => t.reg a = (if a = Adr.ACC_OPT then w &&& 3#32 else w) ∧
        t.acc = { s.acc with locked := s.acc.locked ++ [a] } ∧ (∀ b : Nat, b ≠ a → t.reg b = s.reg b)) ∧
    (m.admin = true → s.acc.locked.contains a = true →
      Completes (.wlWordWrite m a 15 w) s fun t => t.reg a = s.reg a ∧ t.acc.locked = s.acc.locked ∧
        fld (t.reg Adr.ACC_LOCKV_INFO) 15 0 = min (fld (s.reg Adr.ACC_LOCKV_INFO) 15 0 + 1) 65535 ∧
        t.acc.lockWin = s.acc.lockWin + 1 ∧ (s.acc.lockWin = 0 → t.rb Adr.EVT_PEND_HI 27 = true)) ∧
    (m = .pf1 → Completes (.wlWordWrite m a 15 w) s fun t => t.reg a = s.reg a ∧ t.acc = s.acc)

/-- The SRAM (R405 to R407). SRAM_APERTURE_READ: the aperture is PF0's alone while APERTURE_EN is 1, and reads zero for every other master; it
completes with the word of an active or staged card, where a good word is read there; an uncorrectable word reads all ones and sets
APER_UE and nothing else, and a corrected one is counted. SCRUB_READ: the scrubber moves to the next word, and an error that it, a
functional access or a bus meets is counted: a corrected one with event 56 pending for the first of a window, an uncorrectable one with
its offset captured and event 57 pending; the word of a register that a bus read goes out poisoned. CORE_RESTART ends the restart of its core. -/
def Obligations.SramProtection : Prop :=
  ∀ s : State, s.sys.powered = true →
    (∀ (m : Master) (o : Nat) (e : EccResult), o < 0x100000 → (m ≠ .pf0 ∨ s.rb Adr.ACC_OPT 1 = false) →
      exec (.sramApertureRead m o e) s = .next { s with bus := 0 }) ∧
    (∀ (o : Nat) (y : Byte), o < 0x100000 → s.rb Adr.ACC_OPT 1 = true →
      exec (.sramApertureRead .pf0 o (.uncorrectable y)) s =
        .next { s.setReg Adr.ACC_ECC_STAT (s.reg Adr.ACC_ECC_STAT ||| 4#32) with bus := 0xFFFFFFFF#32 }) ∧
    (∀ o : Nat, o < 0x100000 → s.rb Adr.ACC_OPT 1 = true → Completes (.sramApertureRead .pf0 o .good) s fun t =>
      t.bus = (s.sramWord o).1 ∧ t.regs = s.regs ∧ t.ax = s.ax ∧ t.ord = s.ord ∧ t.cards = s.cards) ∧
    (∀ (o : Nat) (y : Byte), o < 0x100000 → s.rb Adr.ACC_OPT 1 = true → Completes (.sramApertureRead .pf0 o (.correctable y)) s fun t =>
      t.bus = (s.sramWord o).1 ∧ t.reg Adr.ACC_ECC_CECNT = satInc (s.reg Adr.ACC_ECC_CECNT) ∧ t.rb Adr.ACC_ECC_STAT 0 = true ∧
      t.ax = s.ax ∧ t.ord = s.ord) ∧
    (∀ (f : EccFinder) (o : Fin 0x100000), exec (.scrubRead f o .good) s =
      .next (if f = .scrubber then s.setReg Adr.ACC_SCRUB_POS (wd ((s.rf Adr.ACC_SCRUB_POS 19 0 + 4) % 2 ^ 20)) else s)) ∧
    (∀ (f : EccFinder) (o : Fin 0x100000) (y : Byte), Completes (.scrubRead f o (.correctable y)) s fun t =>
      t.reg Adr.ACC_ECC_CECNT = satInc (s.reg Adr.ACC_ECC_CECNT) ∧ t.rb Adr.ACC_ECC_STAT 0 = true ∧ t.acc.ceWin = s.acc.ceWin + 1 ∧
      (s.acc.ceWin = 0 → t.rb Adr.EVT_PEND_HI 24 = true) ∧ t.ax = s.ax ∧ t.ord = s.ord) ∧
    (∀ (f : EccFinder) (o : Fin 0x100000) (y : Byte), Completes (.scrubRead f o (.uncorrectable y)) s fun t =>
      t.reg Adr.ACC_ECC_UECNT = satInc (s.reg Adr.ACC_ECC_UECNT) ∧
      (onRegister f = false → t.reg Adr.ACC_ECC_ADDR = wd (if f = .scrubber then s.rf Adr.ACC_SCRUB_POS 19 0 else o.val)) ∧
      t.rb Adr.ACC_ECC_STAT 1 = true ∧ t.rb Adr.EVT_PEND_HI 25 = true ∧ (onRegister f = true → t.ax = s.ax ∧ t.ord = s.ord) ∧
      (f = .registerRead → t.out.getLast? = some .poisonedRead)) ∧
    (∀ u : Fin 7, s.upd.restart.getLsbD u = true → Completes (.coreRestart u) s fun t => t.upd.restart.getLsbD u = false ∧
      (∀ v : Fin 7, v ≠ u → t.upd.restart.getLsbD v = s.upd.restart.getLsbD v) ∧ 
      t.upd.coreVer = s.upd.coreVer.set u (s.upd.slot (s.upd.coreSlot.getLsbD u)).version ∧ t = { s with upd := t.upd }) ∧
    (∀ u : Fin 7, s.upd.restart.getLsbD u = false → exec (.coreRestart u) s = .next s)

/-! ### The host link, functions and rings -/

/-- HOST_LINK_DOWN, HOST_LINK_UP, PERST and PERST_RELEASE (R48, R419). The link goes down once: its frame is kept, HIF_STAT.LINK_LOST is
set, and but for the axes, the descriptors and what the host is told the block goes on; with LINKLOSS 2 the axes and
descriptors go on too, but for the reads in flight, which wait for the link. It comes up again, where the block has
power and
PERST# is not asserted, with event 7 pending. PERST# takes the link down; its release leaves every ring of both functions disabled, every
vector masked (the masks are presumed, log entry 8) and the MSI-X tables empty (R44; the model's choice, log entry
190). FUNCTION_LEVEL_RESET (R47): the rings of the function are disabled and its vectors masked, and the event ring
if it is the
function's; the rings and the vectors of the other function stand as they were, and so do the frame, the units and the line's port. -/
def Obligations.HostLinkAndReset : Prop :=
(∀ s : State,
    (s.hif.linkUp = true →
      Completes .hostLinkDown s fun t => t.hif.linkUp = false ∧ t.hif.lostAt = some s.frm.count ∧ t.rb Adr.HIF_STAT 3 = true ∧
        t.frm = s.frm ∧ t.cu = s.cu ∧ t.line = s.line ∧ (∀ q : RingId, (t.sq.get q).state = (s.sq.get q).state) ∧
        (∀ a : Nat, evReg a = false → a ≠ Adr.HIF_STAT → a ≠ Adr.GRN_REFCNT → t.reg a = s.reg a) ∧
        (s.rf Adr.HIF_CFG 11 10 = 2 → t.ax = s.ax ∧ t.ord = s.loseReads.ord)) ∧
    (s.hif.linkUp = false → exec .hostLinkDown s = .next s) ∧
    (s.hif.linkUp = false → s.hif.perst = false → s.sys.powered = true →
      Completes .hostLinkUp s fun t => t.hif.linkUp = true ∧ t.frm = s.frm ∧ t.cu = s.cu ∧ t.sq = s.sq ∧
        (s.hif.lostAt ≠ none → t.rb Adr.EVT_PEND_LO 7 = true) ∧ ∀ a : Nat, evReg a = false → t.reg a = s.reg a) ∧
    (s.hif.linkUp = true ∨ s.hif.perst = true ∨ s.sys.powered = false → exec .hostLinkUp s = .next s) ∧
    (Completes .perst s fun t => t.hif.perst = true ∧ t.hif.linkUp = false ∧ t.frm = s.frm ∧ t.cu = s.cu) ∧
    (s.hif.perst = true →
      Completes .perstRelease s fun t => t.hif.perst = false ∧ t.hif.linkUp = s.hif.linkUp ∧ t.hif.mask0 = 0xFFFF#16 ∧
        t.hif.mask1 = 0xFFFF#16 ∧ (∀ (f : Fin 2) (v : Fin 16), t.hif.vector f v = ⟨0, 0⟩) ∧ t.frm = s.frm ∧
        (∀ q : RingId, (t.sq.get q).state = .disabled ∧ (t.cq.get q).enabled = false) ∧ t.eq.enabled = false) ∧
    (s.hif.perst = false → exec .perstRelease s = .next s)) ∧
  (∀ (f : Fin 2) (s : State),
    Completes (.functionLevelReset f) s fun t =>
      (∀ q : RingId, s.owner q = f → (t.sq.get q).state = .disabled ∧ (t.cq.get q).enabled = false) ∧
      (∀ q : RingId, s.owner q ≠ f → t.sq.get q = s.sq.get q ∧ (t.cq.get q).enabled = (s.cq.get q).enabled) ∧
      (s.eqOwner = f → t.eq.enabled = false) ∧ (s.eqOwner ≠ f → t.eq.enabled = s.eq.enabled) ∧
      (if f = 0 then t.hif.mask0 = 0xFFFF#16 ∧ t.hif.pend0 = 0 ∧ t.hif.mask1 = s.hif.mask1 ∧ t.hif.table1 = s.hif.table1
        else t.hif.mask1 = 0xFFFF#16 ∧ t.hif.pend1 = 0 ∧ t.hif.mask0 = s.hif.mask0 ∧ t.hif.table0 = s.hif.table0) ∧
      (∀ v : Fin 16, t.hif.vector f v = ⟨0, 0⟩) ∧
      t.frm = s.frm ∧ t.cu = s.cu ∧ t.hif.linkUp = s.hif.linkUp ∧ t.sys = s.sys)

/-- The enables of the rings, by a master that reaches them (R50, R51, R60, R61). CQ_ENABLE and CQ_DISABLE: a completion ring starts empty,
and stays enabled while its submission ring is not DISABLED. SQ_ENABLE and SQ_DISABLE: a submission ring starts from DISABLED with its
first alive counter where its completion ring is enabled, is ignored with CFG_IGNORED where that is not, and drains from each of the
other states; SQ_DRAIN_DONE ends the draining when no descriptor of the ring is left. EQ_ENABLE and EQ_DISABLE: the event ring starts
and stops. -/
def Obligations.RingEnables : Prop :=
  ∀ (s : State) (m : Master) (q : RingId) (w : Word),
    (Acts s m (Adr.HIF_CQ_CFG q) 0 → bitOf w 28 = true → (s.cq.get q).enabled = false →
      Completes (.cqEnable m q w) s fun t => t.cq = s.cq.set q { Cq.reset with enabled := true } ∧ t.sq = s.sq ∧ t.ord = s.ord) ∧
    (Acts s m (Adr.HIF_CQ_CFG q) 0 → bitOf w 28 = false → (s.cq.get q).enabled = true → (s.sq.get q).state ≠ .disabled →
      Completes (.cqDisable m q w) s fun t => t.cq = s.cq ∧ t.rb (Adr.HIF_CQ_STAT q) 7 = true) ∧
    (Acts s m (Adr.HIF_CQ_CFG q) 0 → bitOf w 28 = false → (s.cq.get q).enabled = false ∨ ((s.sq.get q).state = .disabled ∧
        differIn (s.written m (Adr.HIF_CQ_CFG q) w) (s.reg (Adr.HIF_CQ_CFG q)) cqFixed = false) →
      Completes (.cqDisable m q w) s fun t => (t.cq.get q).enabled = false ∧ t.sq = s.sq) ∧
    (Acts s m (Adr.HIF_SQ_CFG q) 0 → bitOf w 28 = true → (s.sq.get q).state = .disabled → (s.cq.get q).enabled = true →
      Completes (.sqEnable m q w) s fun t => (t.sq.get q).state = .running ∧ (t.sq.get q).fcount = 0 ∧ (t.sq.get q).pcount = 0 ∧
        (t.sq.get q).lastAc = BitVec.ofNat 8 (fld w 15 8 + 255) ∧ t.cq = s.cq ∧ t.ord = s.ord ∧
        ∀ p : RingId, p ≠ q → t.sq.get p = s.sq.get p) ∧
    (Acts s m (Adr.HIF_SQ_CFG q) 0 → bitOf w 28 = true → (s.sq.get q).state = .disabled → (s.cq.get q).enabled = false →
      Completes (.sqEnable m q w) s fun t => t.sq = s.sq ∧ t.rb (Adr.HIF_SQ_STAT q) 7 = true) ∧
    (Acts s m (Adr.HIF_SQ_CFG q) 0 → (s.sq.get q).state ≠ .disabled → (s.sq.get q).state ≠ .draining → bitOf w 28 = false →
      differIn (s.written m (Adr.HIF_SQ_CFG q) w) (s.reg (Adr.HIF_SQ_CFG q)) sqFixed = false →
      Completes (.sqDisable m q w) s fun t => (t.sq.get q).state = .draining ∧ t.cq = s.cq ∧ t.ord = s.ord) ∧
    (Acts s m (Adr.HIF_SQ_CFG q) 0 → (s.sq.get q).state = .disabled → bitOf w 28 = false →
      Completes (.sqDisable m q w) s fun t => t.sq = s.sq ∧ t.cq = s.cq ∧ t.ord = s.ord) ∧
    ((s.sq.get q).state = .draining → (∀ d ∈ s.ord.descs, d.ring ≠ q ∨ d.mute = true) →
      exec (.sqDrainDone q) s = .next (s.modSq q fun x => { x with state := .disabled })) ∧
    ((s.sq.get q).state ≠ .draining → exec (.sqDrainDone q) s = .next s) ∧
    (Acts s m Adr.HIF_EQ_CFG 0 → bitOf w 28 = true → s.eq.enabled = false →
      Completes (.eqEnable m w) s fun t => t.eq = { EvRing.reset with enabled := true } ∧ t.cq = s.cq) ∧
    (Acts s m Adr.HIF_EQ_CFG 0 → bitOf w 28 = false →
      s.eq.enabled = false ∨ differIn (s.written m Adr.HIF_EQ_CFG w) (s.reg Adr.HIF_EQ_CFG) cqFixed = false →
      Completes (.eqDisable m w) s fun t => t.eq.enabled = false ∧ t.cq = s.cq ∧ t.sq = s.sq) ∧
    (bitOf w 28 = false → exec (.sqEnable m q w) s = .next s ∧ exec (.cqEnable m q w) s = .next s ∧ exec (.eqEnable m w) s = .next s) ∧
    (bitOf w 28 = true → exec (.sqDisable m q w) s = .next s ∧ exec (.cqDisable m q w) s = .next s ∧ exec (.eqDisable m w) s = .next s)

/-- The block reads (R54 to R56, R61): HIF_KICK.GO issues the reads of both blocks, or remembers one pair more while the doorbell block
is being read; a failed read sets HIF_STAT.DB_FETCH_ERR with event 3 pending and is asked again; DOORBELL_BLOCK_READ_DONE takes each
ring's producer count where it is valid, and RETURN_BLOCK_READ_DONE a completion ring's head count where it is valid. Messages to the
host (R80): MSIX_COALESCE_TIMEOUT of a completion ring with a record that has waited for the coalescing time, or of the event ring,
sends the ring's message, and with none due does nothing; MSIX_VECTOR_UNMASK clears the mask and the pending bit of a vector, and sends
the message of its table entry where it was pending. -/
def Obligations.HostTraffic : Prop :=
  (∀ s : State,
    (∀ m : Master, Acts s m 0x20008 0 → s.hif.linkUp = true → s.hif.dbFlight = [] →
      Completes (.hifKick m) s fun t => t.hif.dbFlight = [⟨true, 1⟩] ∧ t.hif.rbFlight = s.hif.rbFlight ++ [⟨true, 1⟩] ∧
        t.out = s.out ++ [.dmaRead 0 (s.reg64 Adr.HIF_DBA_LO) 64, .dmaRead 0 (s.reg64 Adr.HIF_RBA_LO) 128] ∧
        t = { s with hif := t.hif, out := t.out }) ∧
    (∀ m : Master, Acts s m 0x20008 0 → s.hif.linkUp = true → s.hif.dbFlight ≠ [] →
      exec (.hifKick m) s = .next { s with hif := { s.hif with dbPending := true } }) ∧
    (∀ (e : BitVec 8) (f : BlockRead) (l : List BlockRead), s.hif.dbFlight = f :: l →
      Completes (.doorbellBlockReadDone (.failed e)) s fun t => t.rb Adr.HIF_STAT 2 = true ∧ t.rb Adr.EVT_PEND_LO 3 = true ∧
        t.hif.dbAgain = f.attempt ∧ ∀ q : RingId, (t.sq.get q).pcount = (s.sq.get q).pcount) ∧
    (∀ (b : List Byte) (q : RingId) (f : BlockRead) (l : List BlockRead), s.hif.dbFlight = f :: l → (s.sq.get q).state = .running →
      s.pcountOk q (BitVec.setWidth 24 (wd (u32 b (4 * q.val)))) = true →
      ((s.sq.get q).fresh = 0 → Completes (.doorbellBlockReadDone (.data b)) s fun t =>
        (t.sq.get q).pcount = BitVec.setWidth 24 (wd (u32 b (4 * q.val))) ∧ (t.sq.get q).retryRef = (s.sq.get q).retryRef ∧
          (t.sq.get q).state = .running ∧ t.ax = s.ax ∧ t.ord = s.ord) ∧
      ((s.sq.get q).fresh = 1 → Completes (.doorbellBlockReadDone (.data b)) s fun t =>
        (t.sq.get q).pcount = BitVec.setWidth 24 (wd (u32 b (4 * q.val))) ∧ (t.sq.get q).fresh = 0 ∧
          (t.sq.get q).retryRef = BitVec.ofNat 8 (fld (wd (u32 b (4 * q.val))) 31 24) ∧ t.ord = s.ord)) ∧
    (s.hif.dbFlight = [] → ∀ r : HostRead, exec (.doorbellBlockReadDone r) s = .next s) ∧
    (∀ (e : BitVec 8) (f : BlockRead) (l : List BlockRead), s.hif.rbFlight = f :: l →
      Completes (.returnBlockReadDone (.failed e)) s fun t => t.rb Adr.HIF_STAT 2 = true ∧ t.rb Adr.EVT_PEND_LO 3 = true ∧ t.cq = s.cq ∧
        t.hif.rbFlight = l ∧ t.hif.rbAgain = f.attempt) ∧
    (∀ (b : List Byte) (q : RingId), s.hif.rbFlight ≠ [] → (s.cq.get q).enabled = true → (s.cq.get q).waiting = [] →
      headOk (s.cq.get q).wcount (s.cq.get q).head (BitVec.setWidth 24 (wd (u32 b (4 * q.val)))) (s.cqSize q) = true →
      Completes (.returnBlockReadDone (.data b)) s fun t => (t.cq.get q).head = BitVec.setWidth 24 (wd (u32 b (4 * q.val))) ∧
        t.frm = s.frm ∧ ∀ p : RingId, (t.sq.get p).state = (s.sq.get p).state) ∧
    (s.hif.rbFlight = [] → ∀ r : HostRead, exec (.returnBlockReadDone r) s = .next s)) ∧
  ((∀ (s : State) (q : RingId), s.coalesced (s.reg (Adr.HIF_CQ_CFG q)) (s.cq.get q).oldest = true →
    exec (.msixCoalesceTimeout (q.castSucc)) s = .next (s.signalCq q)) ∧
  (∀ (s : State) (q : RingId), s.coalesced (s.reg (Adr.HIF_CQ_CFG q)) (s.cq.get q).oldest = false →
    exec (.msixCoalesceTimeout (q.castSucc)) s = .next s) ∧
  (∀ s : State, exec (.msixCoalesceTimeout (Fin.last 16)) s =
    .next (if s.coalesced (s.reg Adr.HIF_EQ_CFG) s.eq.oldest then s.signalEq else s)) ∧
  (∀ (s : State) (f : Fin 2) (v : Fin 16), Completes (.msixVectorUnmask f v) s fun t =>
    t.out = s.out ++ (if (if f = 0 then s.hif.pend0 else s.hif.pend1).getLsbD v
      then [.msix f v (s.hif.vector f v).addr (s.hif.vector f v).data] else []) ∧
    (if f = 0 then t.hif.mask0 else t.hif.mask1).getLsbD v = false ∧ (if f = 0 then t.hif.pend0 else t.hif.pend1).getLsbD v = false ∧
    (if f = 0 then t.hif.mask1 = s.hif.mask1 else t.hif.mask0 = s.hif.mask0) ∧
    t = { s with hif := t.hif, out := t.out }))

/-- DESCRIPTOR_READ_DONE with one entry (R60, R62, R69): a wrong CRC stalls the ring with STALLED_CHECK and event 0 pending; a repeated alive
counter is passed over with event 2 pending; a gap of the counter stalls the ring with STALLED_GAP and event 1 pending; the next
counter is taken, and the entry is accepted with the next number of the acceptance sequence (R82). A failed read with no retries left
ends in ERROR, else waits for the next attempt; event 3 is pending. -/
def Obligations.Acceptance : Prop :=
  ∀ (s : State) (q : RingId) (c : BitVec 24) (b : List Byte),
    (s.sq.get q).flight = some (c, 1) → (s.sq.get q).wait = false → (s.sq.get q).state = .running → s.cqOpen q = true → b.length = 64 →
    let step := (b.getD 2 0 - (s.sq.get q).lastAc).toNat
    (crc32c (b.take 60) ≠ wd (u32 b 60) →
      Completes (.descriptorReadDone q (.data b)) s fun t => (t.sq.get q).state = .stalledCheck ∧
        (t.sq.get q).attempts = (s.sq.get q).attempts + 1 ∧ (t.sq.get q).fcount = (s.sq.get q).fcount ∧ t.ord.next = s.ord.next ∧
        t.rb Adr.EVT_PEND_LO 0 = true) ∧
    (crc32c (b.take 60) = wd (u32 b 60) → step = 0 ∨ 129 ≤ step →
      Completes (.descriptorReadDone q (.data b)) s fun t => (t.sq.get q).state = .running ∧
        (t.sq.get q).fcount = (s.sq.get q).fcount + 1 ∧ (t.sq.get q).lastAc = (s.sq.get q).lastAc ∧ t.ord.next = s.ord.next ∧
        t.rb Adr.EVT_PEND_LO 2 = true) ∧
    (crc32c (b.take 60) = wd (u32 b 60) → 2 ≤ step → step ≤ 128 →
      Completes (.descriptorReadDone q (.data b)) s fun t => (t.sq.get q).state = .stalledGap ∧
        (t.sq.get q).fcount = (s.sq.get q).fcount ∧ t.ord.next = s.ord.next ∧ t.rb Adr.EVT_PEND_LO 1 = true) ∧
    (crc32c (b.take 60) = wd (u32 b 60) → step = 1 →
      Completes (.descriptorReadDone q (.data b)) s fun t => (t.sq.get q).state = .running ∧
        (t.sq.get q).fcount = (s.sq.get q).fcount + 1 ∧ (t.sq.get q).lastAc = b.getD 2 0 ∧ (t.sq.get q).attempts = 0 ∧
        t.ord.next = s.ord.next + 1 ∧ t.frm = s.frm) ∧
    (∀ e : BitVec 8,
      Completes (.descriptorReadDone q (.failed e)) s fun t => t.rb Adr.EVT_PEND_LO 3 = true ∧ t.ord.next = s.ord.next ∧
        (t.sq.get q).state = if s.rf Adr.HIF_CFG 6 4 = 0 then .error else .fetchWait)

/-- ENTER_ORDERING and DESCRIPTOR_REFETCH_DONE. With nothing staged, or a FENCE or BARRIER before the first staged descriptor of the
ring, or no room for it, nothing enters (R83, R84, R93); one that can enter, with nothing staged behind it, stands in ordering then.
A refetch that passes its check with the descriptor's alive counter ends with its bytes in place of the held copy; one that fails its
check, or carries another counter, ends the descriptor in FAULT_ABORT with D0 = 57, and its axes are FAULTED; one whose read has failed
is asked again while retries are left, and with none left ends it in FAULT_ABORT with D0 = 3 and moves its ring to ERROR, but leaves a
ring that is DRAINING or DISABLED so, which is the model's choice (R100, log entry 194). Nothing answers a read that is not in flight. -/
def Obligations.EnteringOrdering : Prop :=
  (∀ (s : State) (q : RingId), s.firstStaged q = none → exec (.enterOrdering q) s = .next (s.fetchOne q)) ∧
  (∀ (s : State) (q : RingId) (d : Desc), s.firstStaged q = some d → s.gated d.ring d.acc = true →
    exec (.enterOrdering q) s = .next (s.fetchOne q)) ∧
  (∀ (s : State) (q : RingId) (d : Desc), s.firstStaged q = some d → d.op ≠ 0x10 → s.roomFor d = false →
    exec (.enterOrdering q) s = .next (s.fetchOne q)) ∧
  (∀ (s : State) (q : RingId) (d : Desc), Ordered s → s.firstStaged q = some d → d.op ≠ 0x10 → s.gated d.ring d.acc = false → s.roomFor d = true →
    (∀ e ∈ s.ord.descs, e.ring = q → e.stage = .staged → e.acc = d.acc) →
    Completes (.enterOrdering q) s fun t => (t.desc? d.acc).any (fun e => e.stage == .queued && e.bytes == d.bytes) = true ∧
      t.frm = s.frm ∧ t.ord.next = s.ord.next ∧ ∀ a : Nat, t.reg a = s.reg a) ∧
  (∀ (s : State) (n k : Nat) (d : Desc) (b : List Byte), s.desc? n = some d → d.refetch = true → d.tries = some k → b.length = 64 →
    (d.readAt = BitVec.allOnes 64 → crc32c (b.take 60) = wd (u32 b 60) → b.getD 2 0 = d.bytes.getD 2 0 →
      Completes (.descriptorRefetchDone n (.data b)) s fun t => t.ax = s.ax ∧ t.regs = s.regs ∧
        (t.desc? n).any (fun e => !e.refetch && e.bytes == b && e.stage == d.stage) = true) ∧
    (d.readAt = BitVec.allOnes 64 → crc32c (b.take 60) ≠ wd (u32 b 60) ∨ b.getD 2 0 ≠ d.bytes.getD 2 0 →
      exec (.descriptorRefetchDone n (.data b)) s =
        .next ((s.finish d 8 57 (s.posWord d) s.frm.count).forAll d.axes fun t x => t.faultAxis x 57) ∧
      Completes (.descriptorRefetchDone n (.data b)) s fun t => ∀ x ∈ d.axes, (t.ax.get x).tt.faulted.isSome = true) ∧
    (∀ e : BitVec 8, d.readAt = BitVec.allOnes 64 → k = 0 → Completes (.descriptorRefetchDone n (.failed e)) s fun t =>
      t.rb Adr.EVT_PEND_LO 3 = true ∧
      (t.sq.get d.ring).state = (if (s.sq.get d.ring).state = .disabled ∨ (s.sq.get d.ring).state = .draining
        then (s.sq.get d.ring).state else .error) ∧ (∀ y : AxisId, (t.ax.get y).tt = (s.ax.get y).tt) ∧
      ∃ u : State, u.ax = s.ax ∧ u.ord = s.ord ∧ u.frm = s.frm ∧ t.out = (u.finish d 8 3 (s.posWord d) s.frm.count).out) ∧
    (∀ e : BitVec 8, d.readAt = BitVec.allOnes 64 → 0 < k → Completes (.descriptorRefetchDone n (.failed e)) s fun t =>
      (t.desc? n).any (fun e => e.refetch && e.tries == some (k - 1) && e.readAt == s.frm.count) = true ∧ t = { s with ord := t.ord }) ∧
    (∀ r : HostRead, d.readAt ≠ BitVec.allOnes 64 → exec (.descriptorRefetchDone n r) s = .next s)) ∧
  (∀ (s : State) (n : Nat) (r : HostRead), s.desc? n = none → exec (.descriptorRefetchDone n r) s = .next s)

/-! ### Descriptors -/

/-- A due descriptor takes effect in the next frame (R86): it stands in effect with its own bytes, not yet begun, and but for the axes,
the descriptors and the pools, the block is as it was, unless the descriptor was held for the Granary and no event 15 has told it yet,
which then is pending (R101); an axis that it does not touch is as it was, where it replaces nothing. A replacing
descriptor ends what stands before it on its axes when its frame of effect comes (R90): nothing accepted before it
stays
active there but an ENERGIZE, IDENTIFY or SET_PARAM in effect; it clears the faults that it may (R104), and one whose outcome stands
leaves the device, or waits with its record (R83, R102). -/
def Obligations.TakesEffect : Prop :=
  (∀ (s : State) (n op : Nat) (d : Desc), Due s n op d →
    (onset s d).desc? n = some (onsetOf s d) ∧ (onsetOf s d).acc = n ∧ (onsetOf s d).op = op ∧ (onsetOf s d).bytes = d.bytes ∧
      (onsetOf s d).ring = d.ring ∧ (onsetOf s d).stage = .effect ∧ (onsetOf s d).eff = s.frm.count + 1 ∧ (onsetOf s d).begun = false ∧
      (onsetOf s d).repl = d.replaces ∧
      (d.held.isNone = true ∨ d.holdTold = true →
        onset s d = { s with ax := (onset s d).ax, ord := (onset s d).ord, pool := (onset s d).pool }) ∧
      (s.needsGrant d = true → d.held.isSome = true → d.holdTold = false →
        (onset s d).rb Adr.EVT_PEND_LO 15 = true ∧ (onset s d).frm = s.frm ∧ (onset s d).cu = s.cu) ∧
      (d.replaces = false → ∀ x : AxisId, x ∉ d.touches → (onset s d).ax.get x = s.ax.get x)) ∧
  (∀ (s : State) (n : Nat) (d : Desc), s.desc? n = some d → d.stage = .effect →
    (d.repl = true → ∀ x ∈ d.axes, ∀ e ∈ (s.settle n).queueOf x, n ≤ e.acc ∨ (e.stage = .effect ∧ e.kept = true)) ∧
    (∀ x ∈ d.axes, ∀ f : FaultInfo, (s.ax.get x).tt.faulted = some f → d.clears f = true → ((s.settle n).ax.get x).tt.faulted = none) ∧
    (d.out.isSome = true → ∀ e ∈ (s.settle n).ord.descs, e.acc = n → e.stage = .recordWaits))

/-- A completion record (R71): 32 bytes written in one request at the next entry of the completion ring, with the status, the axis, the
alive counter, the opcode and the TAG of the descriptor, the frame, both detail words 0, and the CRC-32C of the 28 bytes before it in
the last four. Here it is the record of NOP (R86), which leaves the device with it. -/
def Obligations.CompletionRecord : Prop :=
  ∀ (s : State) (n : Nat) (d : Desc), s.desc? n = some d → d.op = 0 → d.rej = none → d.refetch = false →
    d.stage = .staged ∨ d.stage = .queued → d.isQuiet = false → d.mute = false → (s.cq.get d.ring).enabled = true →
    s.hif.linkUp = true → s.cqFull d.ring = false → (s.cq.get d.ring).waiting = [] →
    Completes (.nop n) s fun t =>
      (∀ e ∈ t.ord.descs, e.acc ≠ n) ∧ t.frm = s.frm ∧ t.cu = s.cu ∧ (∀ a : Nat, evReg a = false → t.reg a = s.reg a) ∧
      ∃ b : List Byte,
        s.out ++ [.dmaWrite (s.owner d.ring)
          (s.reg64 (Adr.HIF_CQ_BASE_LO d.ring) + 32 * ((s.cq.get d.ring).wcount.toNat % 2 ^ s.cqSize d.ring)) b] <+: t.out ∧
        b.length = 32 ∧ b.getD 0 0 = 0 ∧ b.getD 1 0 = d.bytes.getD 1 0 ∧ b.getD 2 0 = d.bytes.getD 2 0 ∧ b.getD 3 0 = d.bytes.getD 0 0 ∧
        leNat ((b.drop 4).take 4) = d.tag.toNat ∧ leNat ((b.drop 8).take 8) = s.frm.count.toNat ∧ leNat ((b.drop 16).take 8) = 0 ∧
        leNat (b.drop 28) = (crc32c (b.take 28)).toNat

/-- FENCE and FENCE_COMPLETE (R92, R93): a FENCE that takes effect waits; once every descriptor accepted before it on its own ring and
the rings it names has completed, it completes with status OK, and what waited behind it in its ring may enter. Before that nothing
happens. BARRIER, BARRIER_ARRIVE and BARRIER_RELEASE within the device (R94, R95): a barrier that takes effect waits; it arrives once all
before it in its ring has completed, and its arrival opens a barrier of its id with its number of participants, full at once where
that is 1, or joins the one that is open, which is full with the last; one that would open a 65th id, or that has another number than
the open one, is refused with status REJECTED_PARAM, reason 7 and the offset (R95). An arrival of line scope is sent at the next tick
(R357), and ends with D0 = 48 on a station that is cut off (R358). A full barrier of an earlier frame is released, and
its participants complete; one that is not full, or in whose frame the last arrived, stays. -/
def Obligations.FencesAndBarriers : Prop :=
((∀ (s : State) (n : Nat) (d : Desc), Due s n 9 d → exec (.fence n) s = .next (onset s d)) ∧
  (∀ (s : State) (n : Nat) (d : Desc), s.desc? n = some d → d.op = 9 → d.stage = .effect → d.begun = true →
    ((∀ e ∈ s.ord.descs, s.fenceRings d e.ring = true → e.acc < d.acc → e.stage = .recordWaits ∨ e.mute = true) →
      exec (.fenceComplete n) s = .next ((s.finish d 0 0 0 s.frm.count).enterRing d.ring 64)) ∧
    (∀ e ∈ s.ord.descs, s.fenceRings d e.ring = true → e.acc < d.acc → e.stage ≠ .recordWaits → e.mute = false →
      exec (.fenceComplete n) s = .next s)) ∧
  (∀ (s : State) (n : Nat), s.desc? n = none → exec (.fence n) s = .next s ∧ exec (.fenceComplete n) s = .next s)) ∧
  ((∀ (s : State) (n : Nat) (d : Desc), Due s n 0xA d → exec (.barrier n) s = .next (onset s d)) ∧
  (∀ (s : State) (n : Nat) (d : Desc), s.desc? n = some d → d.op = 0xA → d.waits = true → d.arrived = none →
    s.doneBefore d.acc (· == d.ring) = true →
    let i := wd (u32 d.bytes 16)
    let parts := u8 d.bytes 20
    (u8 d.bytes 21 ≠ 1 → (∀ b ∈ s.ord.barriers, b.id ≠ i) →
      ((openIds s.ord.barriers).length < 64 → Completes (.barrierArrive n) s fun t =>
        t.ord.barriers = s.ord.barriers ++ [⟨i, parts, [d.acc], if parts ≤ 1 then some s.frm.count else none⟩] ∧
          (t.desc? n).any (fun e => e.arrived == some s.frm.count) = true ∧ t = { s with ord := t.ord }) ∧
      (64 ≤ (openIds s.ord.barriers).length →
        exec (.barrierArrive n) s = .next ((s.finish d 4 7 16 s.frm.count).enterRing d.ring 64))) ∧
    (u8 d.bytes 21 ≠ 1 → ∀ (l r : List OpenBarrier) (b : OpenBarrier), s.ord.barriers = l ++ b :: r → (∀ c ∈ l, c.id ≠ i) → b.id = i →
      (b.parts = parts → b.full = none → Completes (.barrierArrive n) s fun t =>
        t.ord.barriers = l ++ { b with who := b.who ++ [d.acc],
                                       full := if parts ≤ b.who.length + 1 then some s.frm.count else none } :: r ∧
          (t.desc? n).any (fun e => e.arrived == some s.frm.count) = true ∧ t = { s with ord := t.ord }) ∧
      (b.parts ≠ parts → exec (.barrierArrive n) s = .next ((s.finish d 4 7 20 s.frm.count).enterRing d.ring 64))) ∧
    (u8 d.bytes 21 = 1 →
      (s.line.mode ≠ .isolated → Completes (.barrierArrive n) s fun t =>
        t.line = { s.line with toSend := s.line.toSend ++ [⟨i, parts, s.frm.count, s.station, some d.acc⟩] } ∧
          (t.desc? n).any (fun e => e.arrived == some s.frm.count) = true ∧ t = { s with line := t.line, ord := t.ord }) ∧
      (s.line.mode = .isolated → exec (.barrierArrive n) s = .next ((s.finish d 8 48 0 s.frm.count).enterRing d.ring 64)))) ∧
  (∀ (s : State) (b : OpenBarrier) (f : FrameNo), s.ord.barriers = [b] → b.full = some f → frameLt f s.frm.count = true →
    exec (.barrierRelease b.id) s = .next ({ s with ord := { s.ord with barriers := [] } }.releaseAll b.who)) ∧
  (∀ (s : State) (i : Word), (∀ b ∈ s.ord.barriers, b.id = i → b.full.any (fun f => frameLt f s.frm.count) = false) →
    exec (.barrierRelease i) s = .next s))

/-- SNAPSHOT within the device, and SNAPSHOT_COMPLETE (R359 to R361): the capture frame is the one asked for, or the first possible one
where none is asked; a frame that has passed is refused with REJECTED_LIMIT. It completes in a frame after the capture frame with
that frame's low word and the number of axes captured, with event 50 pending; one of the line completes two frames after it (R360), with
event 50 where every station present has reported, and else in FAULT_ABORT with D0 = 54. A frame is told by the counter that stood at
its capture, and its end by the one that now stands (R353). -/
def Obligations.Snapshots : Prop :=
  (∀ (s : State) (n : Nat) (d : Desc), Due s n 0xB d → u8 d.bytes 57 ≠ 1 →
    (u64 d.bytes 16 = 0 → Completes (.snapshot n) s fun t => t.ax = (onset s d).ax ∧
      (t.desc? n).any (fun e => e.snapF == s.frm.count + 2 && e.stage == .effect) = true) ∧
    ((s.frm.count + 2).toNat ≤ u64 d.bytes 16 → Completes (.snapshot n) s fun t => t.ax = (onset s d).ax ∧
      (t.desc? n).any (fun e => e.snapF == BitVec.ofNat 64 (u64 d.bytes 16) && e.stage == .effect) = true) ∧
    (u64 d.bytes 16 ≠ 0 → u64 d.bytes 16 < (s.frm.count + 2).toNat →
      exec (.snapshot n) s = .next ((onset s d).later (onsetOf s d) 5 16 (wd (s.frm.count + 2).toNat)))) ∧
  (∀ (s : State) (n : Nat) (d : Desc), s.desc? n = some d → d.op = 0xB → d.stage = .effect → d.snapDone = true → u8 d.bytes 57 ≠ 1 →
    (frameLe s.frm.count (d.snapF + d.snapBy) = false →
      exec (.snapshotComplete n) s = .next ((s.finish d 0 (wd d.snapF.toNat) (wd d.snapN) s.frm.count).raise 50 (stationCode s.station)
        (wd d.snapF.toNat) (wd (if d.snapW then 2 ^ s.station else 0))) ∧
      Completes (.snapshotComplete n) s fun t => t.rb Adr.EVT_PEND_HI 18 = true) ∧
    (frameLe s.frm.count (d.snapF + d.snapBy) = true → exec (.snapshotComplete n) s = .next s)) ∧
  (∀ (s : State) (n : Nat) (d : Desc), s.desc? n = some d → d.op = 0xB → d.stage = .effect → d.snapDone = true → u8 d.bytes 57 = 1 →
    let l := s.line.reports s.station d.snapF
    (frameLt s.frm.count (d.snapF + d.snapBy + 2) = true → exec (.snapshotComplete n) s = .next s) ∧
    (frameLt s.frm.count (d.snapF + d.snapBy + 2) = false →
      ((∀ i : Fin 8, i.val ≠ s.station → s.line.present.getLsbD i = true → ∃ r ∈ l, r.station = i.val) →
        Completes (.snapshotComplete n) s fun t => t.rb Adr.EVT_PEND_HI 18 = true ∧
          t.line = { s.line with dones := s.line.dones.filter fun r => !(r.issuer == s.station && r.frame == d.snapF) }) ∧
      (∀ i : Fin 8, i.val ≠ s.station → s.line.present.getLsbD i = true → (∀ r ∈ l, r.station ≠ i.val) →
        exec (.snapshotComplete n) s = .next (s.finish d 8 54 0 s.frm.count))))

/-- MOVE_ABS and MOVE_REL (R113, R120, R127, R184): the axis takes the target, relative or not, held inside its soft limits (R138), becomes
the move's, under the move's own limits, ends a following, goes back to RUN and enters POSITION in the next frame; no other axis
changes. -/
def Obligations.Moves : Prop :=
  ∀ (s : State) (n : Nat) (d : Desc) (x : AxisId), d.axis? = some x →
    ∀ p ∈ [(1, Instr.moveAbs n, (0 : Int)), (2, Instr.moveRel n, s.relBase x)], Due s n p.1 d →
      Completes p.2.1 s fun t =>
        (t.ax.get x).tt.target = clipTarget ((onset s d).ax.get x).act.limLo ((onset s d).ax.get x).act.limHi (p.2.2 + s32 d.bytes 16)
          ((onset s d).ax.get x).tt.u0.p ∧
        (t.ax.get x).tt.running = .move n ∧ (t.ax.get x).tt.modeNext = some .position ∧ (t.ax.get x).tt.effFrame = s.frm.count + 1 ∧
        (t.ax.get x).tt.bypass = (u8 d.bytes 40 == 1) ∧ (t.ax.get x).fol = none ∧ (t.ax.get x).act = ((onset s d).ax.get x).act ∧
        (t.ax.get x).tt.own = moveLimits ((onset s d).ax.get x).act s.hz (u32 d.bytes 20) d.bytes ∧
        (t.ax.get x).tt.u0 = ((onset s d).ax.get x).tt.u0 ∧ (t.ax.get x).cd.phaseNext = some .run ∧
        (∀ y : AxisId, y ≠ x → t.ax.get y = (onset s d).ax.get y) ∧ t = { onset s d with ax := t.ax }

/-- MOVE_VEL (R113, R115, R125, R184): the axis becomes the descriptor's at its speed and direction, and goes back to RUN; with speed 0 and
an axis in HOLD it stays there at rest, with speed 0 and another it brakes to a rest at a whole microstep, and with a speed it makes for
that velocity, held to VMAX, or, where its next step would leave no room to stop at the virtual limit ahead, for that limit (R134 to R136);
both enter VELOCITY in the next frame. No other axis changes. -/
def Obligations.VelocityMoves : Prop :=
  ∀ (s : State) (n : Nat) (d : Desc) (x : AxisId), Due s n 3 d → d.axis? = some x →
    Completes (.moveVel n) s fun t =>
      (t.ax.get x).tt.running = .vel (some n) (u32 d.bytes 16) (u8 d.bytes 20 == 1) ∧ (t.ax.get x).tt.effFrame = s.frm.count + 1 ∧
      (if u32 d.bytes 16 = 0 ∧ ((onset s d).ax.get x).tt.modeAhead = .hold then (t.ax.get x).tt.goal = .rest
        else (t.ax.get x).tt.modeNext = some .velocity ∧ (t.ax.get x).fol = none ∧ (t.ax.get x).tt.bypass = false ∧
          (u32 d.bytes 16 = 0 → (t.ax.get x).tt.goal = .stop (t.ax.get x).tt.target false) ∧
          (u32 d.bytes 16 ≠ 0 →
            let b := t.ax.get x
            let w := (b.tt.own.capV (velForm s.hz b.act.vmax)).signed (u8 d.bytes 20 == 1)
            let u := stepVelocity (b.tt.lim.plim b.tt.sc) b.tt.u0 w
            b.tt.own = { moveLimits b.act s.hz (u32 d.bytes 16) d.bytes with v := velForm s.hz (u32 d.bytes 16) } ∧
            (breaksGuard b.tt.sc b.tt.lim b.act.limLo b.act.limHi u = false → b.tt.goal = .velocity w ∧ b.tt.uNext = u) ∧
            (breaksGuard b.tt.sc b.tt.lim b.act.limLo b.act.limHi u = true → b.tt.goal = .target ∧
              b.tt.target = limitPoint b.act.limLo b.act.limHi b.tt.u0.p (decide (0 < u.dir))))) ∧
      (t.ax.get x).cd.phaseNext = some .run ∧
      (∀ y : AxisId, y ≠ x → t.ax.get y = (onset s d).ax.get y) ∧ t = { onset s d with ax := t.ax }

/-- STOP and PARK (R118, R119, R123): the axis runs the stop of its kind, PARK as kind 1; in HOLD or PARKED it stays where it is, else it
ends a following and makes for a stop, to be parked after it where the kind is 1. No other axis changes. -/
def Obligations.StopsAndParks : Prop :=
  ∀ (s : State) (n : Nat) (d : Desc) (x : AxisId), d.axis? = some x →
    ∀ p ∈ [(4, Instr.stop n, u8 d.bytes 16), (8, Instr.park n, 1)], Due s n p.1 d →
      Completes p.2.1 s fun t =>
        (t.ax.get x).tt.running = .stop (some n) p.2.2 ∧ (t.ax.get x).tt.effFrame = s.frm.count + 1 ∧
        (if ((onset s d).ax.get x).tt.modeAhead = .parked ∨ ((onset s d).ax.get x).tt.modeAhead = .hold
          then (t.ax.get x).tt.goal = ((onset s d).ax.get x).tt.goal ∧ (t.ax.get x).fol = ((onset s d).ax.get x).fol
          else (t.ax.get x).fol = none ∧ (t.ax.get x).tt.reversal = none ∧
            (t.ax.get x).tt.goal = .stop (t.ax.get x).tt.target (p.2.2 == 1)) ∧
        (∀ y : AxisId, y ≠ x → t.ax.get y = (onset s d).ax.get y) ∧ t = { onset s d with ax := t.ax }

/-- MOVE_COMPLETE and MOVE_VEL_COMPLETE (R107, R121, R122, R126): a move whose references are at rest at its target ends, and its
descriptor completes; one that has not come to rest there goes on. Where nothing takes effect in the next frame the axis is then in HOLD
with nothing running, or after a stop of kind 1 PARKED with its phase OFF; so is one in POSITION or VELOCITY that comes to rest at its
target with nothing running any more. A velocity that is reached completes its descriptor and runs
on. -/
def Obligations.MotionEnds : Prop :=
  ∀ (s : State) (x : AxisId),
    let a := (s.ax.get x).now
    (∀ n : Nat, a.tt.running = .move n → frameLe a.tt.effFrame s.frm.count = true → a.fol = none →
      (s.inEffect n = true → a.tt.reversal = none → restedAt a.tt.o1 a.tt.u1 a.tt.target = true →
        exec (.moveComplete x) s = .next ((s.holdRest x).motionDone n) ∧
        (Completes (.moveComplete x) s fun t => t.frm = s.frm ∧ t.cu = s.cu ∧
          ((s.ax.get x).back = [] → a.tt.mode = .position → a.tt.modeNext = none →
            (t.ax.get x).tt.mode = .hold ∧ (t.ax.get x).tt.running = .none ∧ (t.ax.get x).tt.u0 = a.tt.u0))) ∧
      (restedAt a.tt.o1 a.tt.u1 a.tt.target = false → exec (.moveComplete x) s = .next s)) ∧
    (∀ n : Nat, (s.ax.get x).back = [] → a.tt.running = .stop (some n) 1 → frameLe a.tt.effFrame s.frm.count = true → a.fol = none →
      a.tt.mode ≠ .parked → a.tt.modeNext = none → s.inEffect n = true → restedTogether a.tt.o1 a.tt.u1 = true →
      Completes (.moveComplete x) s fun t => (t.ax.get x).tt.mode = .parked ∧ (t.ax.get x).cd.phase = .off ∧ t.frm = s.frm) ∧
    (a.tt.running = .none → exec (.moveVelComplete x) s = .next s ∧
      (a.tt.mode ≠ .position → a.tt.mode ≠ .velocity → exec (.moveComplete x) s = .next s) ∧
      (a.tt.mode = .position ∨ a.tt.mode = .velocity → a.tt.reversal = none → restedAt a.tt.o1 a.tt.u1 a.tt.target = true →
        frameLe a.tt.effFrame s.frm.count = true → a.fol = none → (s.ax.get x).back = [] → a.tt.modeNext = none →
        Completes (.moveComplete x) s fun t => (t.ax.get x).tt.mode = .hold ∧ (t.ax.get x).tt.running = .none ∧
          (t.ax.get x).tt.u0 = a.tt.u0 ∧ t.frm = s.frm ∧ t.regs = s.regs)) ∧
    (∀ (n v : Nat) (neg : Bool) (w : Int), a.tt.running = .vel (some n) v neg → a.tt.goal = .velocity w → v ≠ 0 →
      (s.inEffect n = true → a.tt.o1.v = w → a.tt.u1.v = w → (s.ax.get x).back = [] →
        Completes (.moveVelComplete x) s fun t => (t.ax.get x).tt.running = .vel none v neg ∧ (t.ax.get x).tt.mode = a.tt.mode ∧
          (t.ax.get x).tt.goal = .velocity w ∧ t.frm = s.frm) ∧
      (a.tt.o1.v ≠ w ∨ a.tt.u1.v ≠ w → exec (.moveVelComplete x) s = .next s))

/-- FOLLOW_STEP (R160 to R162): an axis follows the pair named, from the pair's count and its own position at the tick, at the gain of
the operand, negative where the operand says so; the descriptor completes with its frame of effect, and no other axis changes. -/
def Obligations.FollowsSteps : Prop :=
  ∀ (s : State) (n : Nat) (d : Desc) (x : AxisId), Due s n 5 d → d.axis? = some x →
    Completes (.followStep n) s fun t =>
      (t.ax.get x).tt.modeNext = some .step ∧ (t.ax.get x).tt.running = .none ∧ (t.ax.get x).tt.effFrame = s.frm.count + 1 ∧
      (t.ax.get x).fol.any (fun f => f.idx == u8 d.bytes 16 % 16 && f.base == ((onset s d).ax.get x).tt.u0.p &&
        f.gain == (if u8 d.bytes 17 = 1 then -1 else 1) * ((u16 d.bytes 18 : Int) * u32 d.bytes 20) && f.clamp == u32 d.bytes 24) = true ∧
      (∀ y : AxisId, y ≠ x → t.ax.get y = (onset s d).ax.get y) ∧
      (t.desc? n).any (fun e => e.stage == .effect && e.out.any fun r => r.1 == if d.held.isSome then 9 else 0) = true ∧ t.frm = s.frm

/-- FOLLOW_CAM and CAM_LINE_READ_DONE (R163, R165, R167, R168): a table for which the point store has no room is refused with
REJECTED_LIMIT; without the first points the axis does not follow, and the descriptor ends in FAULT_ABORT, both with the frame of effect. A line read
brings its sixteen points to the store that asked; a failed one raises event 3. -/
def Obligations.Cams : Prop :=
  (∀ (s : State) (n : Nat) (d : Desc) (x : AxisId) (o v : Nat), Due s n 6 d → d.axis? = some x → (s.decideOne d).1 = s →
    s.camRefusal ((((s.ax.get x).ahead).getD d.camStore).note) = some (o, v) →
    exec (.followCam n) s = .next (s.refuseAhead d 5 (wd o) (wd v))) ∧
  (∀ (s : State) (n : Nat) (d : Desc) (x : AxisId) (i : Nat), Due s n 6 d → d.axis? = some x → (s.decideOne d).1 = s →
    s.camRefusal ((((s.ax.get x).ahead).getD d.camStore).note) = none →
    ((((s.ax.get x).ahead).getD d.camStore).note).camDemand (((((s.ax.get x).ahead).getD d.camStore).note).first * 65536) = .inr i →
    exec (.followCam n) s = .next (((s.keepAxis d x).camUnderrun x i 2).refuseAhead d 8 14 (wdI (s.posOf x)))) ∧
  (∀ (s : State) (n : Nat) (d : Desc) (x : AxisId) (i : Int), Due s n 6 d → d.axis? = some x → (s.decideOne d).1 = s →
    s.camRefusal ((((s.ax.get x).ahead).getD d.camStore).note) = none →
    ((((s.ax.get x).ahead).getD d.camStore).note).camDemand (((((s.ax.get x).ahead).getD d.camStore).note).first * 65536) = .inl i →
    Completes (.followCam n) s fun t => t.frm = s.frm ∧ t.cu = s.cu ∧ (t.ax.get x).tt.effFrame = s.frm.count + 1 ∧
      ∀ y : AxisId, y ≠ x → t.ax.get y = (onset s d).ax.get y) ∧
  (∀ (s : State) (x : AxisId) (l : Nat) (b : List Byte) (f : FollowSt), (s.ax.get x).fol = some f → f.asked.contains l = true →
    b.length = 64 →
    exec (.camLineReadDone x l (.data b)) s =
      .next (s.modAx x fun a => { a with fol := some (f.takeLine l (some (wordsOf b))) })) ∧
  (∀ (s : State) (x : AxisId) (l : Nat) (b : List Byte) (f : FollowSt), (s.ax.get x).fol = none → (s.ax.get x).ahead = some f →
    f.asked.contains l = true → b.length = 64 →
    exec (.camLineReadDone x l (.data b)) s =
      .next (s.modAx x fun a => { a with ahead := some (f.takeLine l (some (wordsOf b))) })) ∧
  (∀ (s : State) (x : AxisId) (l : Nat) (e : BitVec 8) (f : FollowSt), (s.ax.get x).fol = some f → f.asked.contains l = true →
    Completes (.camLineReadDone x l (.failed e)) s fun t => t.rb Adr.EVT_PEND_LO 3 = true ∧
      (t.ax.get x).fol = some (f.takeLine l none) ∧ ∀ y : AxisId, y ≠ x → t.ax.get y = s.ax.get y) ∧
  (∀ (s : State) (x : AxisId) (l : Nat) (r : HostRead), (s.ax.get x).fol = none → (s.ax.get x).ahead = none →
    exec (.camLineReadDone x l r) s = .next s)

/-! ### Parameters, groups and sequences -/

/-- SET_PARAM (R127 to R129, R199 to R201, R203, R204, R282, R300). Without COMMIT a parameter of the Timetable set or of the coil set goes to
its staged value and the active sets stand; with it, a set that its conditions refuse leaves the active one, one that they allow becomes
the active set of the next frame, and a Timetable set that bears costs asks for admission with its frame of effect. A parameter of
another kind acts with the tick of its frame of effect, not before: QLOW and LAGMAX take their value; one of the stall set, the feedback
set or a card goes to its staged value, and with COMMIT the staged values become the active ones where the conditions allow it, but a
feedback set that changes what the axis' frame costs asks for admission. The identifiers of POS_SET, GRP_DEF and TRG_DISARM are not this
command's. POS_SET (R127): an axis takes the position given, inside its soft limits, at rest, and its electrical angle does not move; a
position outside them changes nothing of the axis; with the tick of its frame of effect it is what the axis' association is made from
(R300). -/
def Obligations.SetsParametersAndPosition : Prop :=
  (∀ (s : State) (n : Nat) (d : Desc), Due s n 0xF d →
    let x := d.paramAxis
    let o := onset s d
    (d.plans = false → paramOf (u16 d.bytes 16) ∉ [some .posSet, some .grpDef, some .trgDisarm] →
      exec (.setParam n) s = .next o) ∧
    (∀ i : Fin 16, paramOf (u16 d.bytes 16) = some (.tt i) →
      let v := (o.ax.get x).stg.put i (paramValue (.tt i) d.bytes)
      let r := (o.stage x 0 (.tt i) (paramValue (.tt i) d.bytes) d.bytes).ttRefusal x v
      (u8 d.bytes 19 ≠ 1 → Completes (.setParam n) s fun t => (t.ax.get x).stg = v ∧
        (∀ y : AxisId, (t.ax.get y).act = (o.ax.get y).act ∧ (t.ax.get y).tt = (o.ax.get y).tt ∧
          (y ≠ x → (t.ax.get y).stg = (o.ax.get y).stg)) ∧ t.cards = s.cards ∧ t.frm = s.frm) ∧
      (u8 d.bytes 19 = 1 → r ≠ none → Completes (.setParam n) s fun t => ∀ y : AxisId, (t.ax.get y).act = (o.ax.get y).act) ∧
      (u8 d.bytes 19 = 1 → r = none → v.costs (o.ax.get x).act = false → Completes (.setParam n) s fun t => (t.ax.get x).act = v ∧
        t.frm = s.frm ∧ ∀ y : AxisId, y ≠ x → t.ax.get y = o.ax.get y) ∧
      (u8 d.bytes 19 = 1 → r = none → v.costs (o.ax.get x).act = true → Completes (.setParam n) s fun t =>
        t.frm = (s.ask (.commitTt n v) (s.frm.count + 1)).frm ∧ ∀ y : AxisId, (t.ax.get y).act = (o.ax.get y).act)) ∧
    (∀ i : Fin 4, paramOf (u16 d.bytes 16) = some (.coil i) →
      let v := (o.ax.get x).coilS.put i (paramValue (.coil i) d.bytes).toNat
      let r := (o.stage x 0 (.coil i) (paramValue (.coil i) d.bytes) d.bytes).coilRefusal n x v
      (u8 d.bytes 19 ≠ 1 ∨ r ≠ none → Completes (.setParam n) s fun t => (t.ax.get x).coilS = v ∧ t.frm = s.frm ∧
        ∀ y : AxisId, (t.ax.get y).coilA = (o.ax.get y).coilA ∧ (t.ax.get y).tt = (o.ax.get y).tt) ∧
      (u8 d.bytes 19 = 1 → r = none → Completes (.setParam n) s fun t => (t.ax.get x).coilA = v ∧ t.frm = s.frm ∧
        (t.ax.get x).act = (o.ax.get x).act ∧ ∀ y : AxisId, y ≠ x → t.ax.get y = o.ax.get y))) ∧
  (∀ (s : State) (n : Nat) (d : Desc), s.desc? n = some d → paramOf (u16 d.bytes 16) ∈ [some .posSet, some .grpDef, some .trgDisarm] →
    exec (.setParam n) s = .next s) ∧
  (∀ (s : State) (d : Desc), d.op = 0xF →
    let x := d.paramAxis
    let c := cardIx (u8 d.bytes 18)
    let t := s.tickAct d
    (paramOf (u16 d.bytes 16) = some .qlow → (t.ax.get x).qlow = (paramValue .qlow d.bytes).toNat ∧ t.frm = s.frm) ∧
    (paramOf (u16 d.bytes 16) = some .lagmax → (t.ax.get x).lagmax = (paramValue .lagmax d.bytes).toNat ∧ t.frm = s.frm) ∧
    (∀ i : Fin 2, paramOf (u16 d.bytes 16) = some (.sg i) →
      let v := (s.ax.get x).sgS.put i (paramValue (.sg i) d.bytes).toNat
      (t.ax.get x).sgS = v ∧ (t.ax.get x).sgA = (if u8 d.bytes 19 = 1 then v else (s.ax.get x).sgA) ∧
        (∀ y : AxisId, y ≠ x → t.ax.get y = s.ax.get y) ∧ t.frm = s.frm) ∧
    (∀ i : Fin 6, paramOf (u16 d.bytes 16) = some (.fb i) →
      let v := (s.ax.get x).fbS.put i (paramValue (.fb i) d.bytes)
      let r := (s.stage x c (.fb i) (paramValue (.fb i) d.bytes) d.bytes).fbRefusal x v
      let costs := v.chan ≠ (s.ax.get x).fbA.chan ∨ v.corr ≠ (s.ax.get x).fbA.corr
      (t.ax.get x).fbS = v ∧ (∀ y : AxisId, y ≠ x → t.ax.get y = s.ax.get y) ∧
      (u8 d.bytes 19 ≠ 1 ∨ r ≠ none → (t.ax.get x).fbA = (s.ax.get x).fbA ∧ t.frm = s.frm) ∧
      (u8 d.bytes 19 = 1 → r = none → costs → (t.ax.get x).fbA = (s.ax.get x).fbA ∧
        t.frm = (s.ask (.commitFb d.acc v) s.frm.count).frm) ∧
      (u8 d.bytes 19 = 1 → r = none → ¬ costs → (t.ax.get x).fbA = v ∧ t.frm = s.frm)) ∧
    (∀ p : ParamId, (∃ i : Fin 46, p = .card i) ∨ (∃ k : Fin 16, p = .table k) → paramOf (u16 d.bytes 16) = some p →
      let u := s.stage x c p (paramValue p d.bytes) d.bytes
      (t.cards.get c).stg = (u.cards.get c).stg ∧ (∀ k : Fin 64, k ≠ c → t.cards.get k = s.cards.get k) ∧ t.frm = s.frm ∧
      (∀ i : Fin 46, p = .card i → (t.cards.get c).stg = (s.cards.get c).stg.put i (paramValue p d.bytes).toNat) ∧
      (u8 d.bytes 19 ≠ 1 ∨ u.cardRefusal c ≠ none → (t.cards.get c).act = (s.cards.get c).act ∧ t.ax = s.ax) ∧
      (u8 d.bytes 19 = 1 → u.cardRefusal c = none → (t.cards.get c).act = (t.cards.get c).stg))) ∧
  (∀ (s : State) (n : Nat) (d : Desc) (x : AxisId), Due s n 0xF d → d.isPosSet = true → d.axis? = some x →
    let a := (onset s d).ax.get x
    let v := paramValue .posSet d.bytes
    (a.act.limLo ≤ v → v ≤ a.act.limHi →
      Completes (.posSet n) s fun t => (t.ax.get x).tt.target = v ∧ (t.ax.get x).tt.u0 = restAt (v * 65536) ∧
        (t.ax.get x).tt.oNext = restAt (v * 65536) ∧
        (t.ax.get x).tt.oNext.p + (t.ax.get x).cd.angNext = a.tt.oNext.p + a.cd.angNext ∧
        (t.ax.get x).tt.posSetAt.contains (s.frm.count + 1) = true ∧ ∀ y : AxisId, y ≠ x → t.ax.get y = (onset s d).ax.get y) ∧
    (v < a.act.limLo ∨ a.act.limHi < v → Completes (.posSet n) s fun t => t.ax = (onset s d).ax)) ∧
  (∀ (s : State) (d : Desc) (x : AxisId) (st : Nat) (w0 w1 : Word), d.isPosSet = true → d.axis? = some x → d.out = some (st, w0, w1) →
    (st ≠ 5 → ((s.tickAct d).ax.get x).fb.assocAt = some (paramValue .posSet d.bytes)) ∧ (st = 5 → s.tickAct d = s))

/-- GRP_DEF and TRG_DISARM (R151, R153): the commands let their descriptors take effect, and the tick of the frame of effect does the rest. A
group that no waiting or running GROUP_MOVE names takes the members of the mask, the other groups as they were; one that is named keeps
its members, with status REJECTED_LIMIT. TRG_DISARM disarms its trigger and no other. -/
def Obligations.GroupsAndTriggers : Prop :=
  (∀ (s : State) (n : Nat) (d : Desc), Due s n 0xF d →
    (paramOf (u16 d.bytes 16) = some .grpDef → exec (.grpDef n) s = .next (onset s d)) ∧
    (paramOf (u16 d.bytes 16) = some .trgDisarm → exec (.trgDisarm n) s = .next (onset s d))) ∧
  (∀ (s : State) (d : Desc), d.op = 0xF → d.out = none →
    let t := s.tickAct d
    (paramOf (u16 d.bytes 16) = some .grpDef → s.groupPending (u8 d.bytes 18) = 0 →
      t.grp = s.grp.set (Fin.ofNat 32 (u8 d.bytes 18)) (axisMask d.bytes 28) ∧ t = { s with grp := t.grp, ord := t.ord }) ∧
    (paramOf (u16 d.bytes 16) = some .grpDef → s.groupPending (u8 d.bytes 18) ≠ 0 →
      t = s.later d 5 28 (wd (s.groupPending (u8 d.bytes 18)))) ∧
    (paramOf (u16 d.bytes 16) = some .trgDisarm →
      (t.trg.get (Fin.ofNat 64 (u8 d.bytes 18))).armed = false ∧
        (∀ m : Fin 64, m ≠ Fin.ofNat 64 (u8 d.bytes 18) → t.trg.get m = s.trg.get m) ∧ t = { s with trg := t.trg, ord := t.ord }))

/-- TRIGGER_ARM and MASK_SET (R146, R147, R150 to R152, R225): with the tick of its frame of effect a trigger is armed with its kind, source,
position or frame, the other triggers as they were; a frame that has passed is refused with REJECTED_LIMIT and arms nothing. MASK_SET
hands its mask to the axis' bridge. -/
def Obligations.ArmsAndMasks : Prop :=
  (∀ (s : State) (n : Nat) (d : Desc),
    (Due s n 0xC d → exec (.triggerArm n) s = .next (onset s d)) ∧
    (∀ x : AxisId, Due s n 0xD d → d.axis? = some x →
      Completes (.maskSet n) s fun t => (t.ax.get x).br.wait.any (fun w => w.desc == n && w.next == d.bytes.getD 16 0) = true ∧
        (t.ax.get x).br.wait.any (fun w => w.slot == if u8 d.bytes 17 = 1 then some (u8 d.bytes 18) else none) = true ∧
        (t.ax.get x).tt = ((onset s d).ax.get x).tt ∧ (∀ y : AxisId, y ≠ x → t.ax.get y = (onset s d).ax.get y) ∧
        t = { onset s d with ax := t.ax })) ∧
  (∀ (s : State) (d : Desc), d.op = 0xC → d.out = none →
    let t := s.tickAct d
    let m := t.trg.get (Fin.ofNat 64 (u8 d.bytes 16))
    (u8 d.bytes 17 = 0 → m.armed = true ∧ m.kind = 0 ∧ m.source = u8 d.bytes 19 ∧ m.edge = u8 d.bytes 18 ∧ m.pos = s32 d.bytes 20 ∧
      m.auto = (u8 d.bytes 32 == 1)) ∧
    (u8 d.bytes 17 = 1 → m.armed = true ∧ m.kind = 1 ∧ m.source = u8 d.bytes 19 ∧ m.edge = u8 d.bytes 18) ∧
    (u8 d.bytes 17 = 2 → frameLt (BitVec.ofNat 64 (u64 d.bytes 24)) s.frm.count = false → m.armed = true ∧ m.kind = 2 ∧
      m.frame = BitVec.ofNat 64 (u64 d.bytes 24)) ∧
    (u8 d.bytes 17 = 2 → frameLt (BitVec.ofNat 64 (u64 d.bytes 24)) s.frm.count = true →
      t = s.later d 5 24 (wd s.frm.count.toNat)) ∧
    (∀ j : Fin 64, j ≠ Fin.ofNat 64 (u8 d.bytes 16) → t.trg.get j = s.trg.get j) ∧ t = { s with trg := t.trg, ord := t.ord })

/-- GROUP_MOVE and its target list (R154, R155): its members go to their targets together, for kind 1 each by its entry from its own
commanded target, each inside its soft limits and each under its own limits, which timing 1 scales by the member's part of the longest
duration in whole frames; no other axis moves. With timing 1 and a member still moving it is refused with that member's number. A list of
the length asked is its targets; a failed read is asked again while retries are left, and with none left ends it in FAULT_ABORT with
event 3 pending; nothing answers a read that is not in flight. -/
def Obligations.GroupMoves : Prop :=
  (∀ (s : State) (n : Nat) (d : Desc), Due s n 0x10 d → d.members.Nodup →
    (u8 d.bytes 18 = 0 ∨ (u8 d.bytes 18 = 1 ∧ ∀ y ∈ d.members, (s.ax.get y).tt.atRest = true)) →
    let ts := (d.members.zip (d.targets.getD [])).map fun p => (p.1, if u8 d.bytes 17 = 1 then s.relBase p.1 + p.2 else p.2)
    let own (y : AxisId) : Limits :=
      let a := (s.ax.get y).act
      limitsOf s.hz (orStored (u32 d.bytes 20) a.speed) a.acc a.dec a.jacc a.jdec
    let clip (p : AxisId × Int) : Int := clipTarget (s.ax.get p.1).act.limLo (s.ax.get p.1).act.limHi p.2 (s.ax.get p.1).tt.u0.p
    let dur (p : AxisId × Int) : Nat :=
      durationOf ((own p.1).plim ((s.ax.get p.1).act.profile == 1)) (clip p - intPart (s.ax.get p.1).tt.u0.p)
    let whole := ((ts.map dur).foldl max 0 + 2 ^ 64 - 1) / 2 ^ 64
    Completes (.groupMove n) s fun t =>
      (∀ p ∈ ts, (t.ax.get p.1).tt.running = .group n ∧ (t.ax.get p.1).tt.modeNext = some .position ∧
        (t.ax.get p.1).tt.target = clipTarget ((onset s d).ax.get p.1).act.limLo ((onset s d).ax.get p.1).act.limHi p.2
          ((onset s d).ax.get p.1).tt.u0.p ∧
        (t.ax.get p.1).tt.own = if u8 d.bytes 18 = 0 ∨ dur p = 0 then own p.1
          else (own p.1).scale (roundDiv (dur p : Int) (whole * 2 ^ 48)).toNat) ∧
      (∀ y : AxisId, y ∉ d.members → t.ax.get y = (onset s d).ax.get y) ∧ t.ord = (onset s d).ord ∧ t.frm = s.frm) ∧
  (∀ (s : State) (n : Nat) (d : Desc) (x : AxisId), Due s n 0x10 d → u8 d.bytes 18 = 1 →
    (d.members.find? fun y => !(s.ax.get y).tt.atRest) = some x →
    exec (.groupMove n) s = .next ((s.decideOne d).1.refuseAhead ((s.decideOne d).1.fresh d) 5 18 (wd x.val))) ∧
  (∀ (s : State) (n k : Nat) (d : Desc), s.desc? n = some d → d.op = 0x10 → d.tries = some k → d.targets = none → d.refetch = false →
    d.stage = .staged ∨ d.stage = .queued →
    (d.readAt = BitVec.allOnes 64 → ∀ b : List Byte, b.length = 4 * u16 d.bytes 32 →
      Completes (.groupTargetListReadDone n (.data b)) s fun t => (t.desc? n).any (fun e => e.targets == some (wordsOf b)) = true ∧
        t = { s with ord := t.ord }) ∧
    (d.readAt = BitVec.allOnes 64 → ∀ e : BitVec 8, k = 0 →
      exec (.groupTargetListReadDone n (.failed e)) s = .next ((s.raise 3 (0x100 + d.ring.val)
        (wd (e.toNat + 256 * (d.tried + 1))) 0).finish d 8 3 (s.posWord d) s.frm.count) ∧
      Completes (.groupTargetListReadDone n (.failed e)) s fun t => t.rb Adr.EVT_PEND_LO 3 = true ∧
        ∀ y : AxisId, (t.ax.get y).tt = (s.ax.get y).tt) ∧
    (d.readAt = BitVec.allOnes 64 → ∀ e : BitVec 8, 0 < k → Completes (.groupTargetListReadDone n (.failed e)) s fun t =>
      (t.desc? n).any (fun e => e.tries == some (k - 1)) = true ∧ t = { s with ord := t.ord }) ∧
    (d.readAt ≠ BitVec.allOnes 64 → ∀ r : HostRead, exec (.groupTargetListReadDone n r) s = .next s))

/-- CONSIST_SELECT and CONSIST_SLOT_READ_END (R433, R434): none begins while one is in effect. With the tick of its frame of effect one that
names no unit is refused with REJECTED_PARAM, and one with an axis of its units not parked with REJECTED_LIMIT and that axis; else the slot
is read. At the end of the read an empty slot, or one whose check fails, refuses it, and a slot with an image asks for its admission. -/
def Obligations.ConsistSelects : Prop :=
  (∀ (s : State) (n : Nat), (∃ e ∈ s.ord.descs, e.op = 0x11 ∧ e.stage = .effect) → exec (.consistSelect n) s = .next s) ∧
  (∀ (s : State) (n : Nat) (d : Desc), Due s n 0x11 d → (∀ e ∈ s.ord.descs, e.op = 0x11 → e.stage ≠ .effect) →
    exec (.consistSelect n) s = .next (onset s d)) ∧
  (∀ (s : State) (d : Desc), d.op = 0x11 → d.out = none →
    let t := s.tickAct d
    (u8 d.bytes 17 = 0 ∨ 128 ≤ u8 d.bytes 17 → t = s.later d 4 7 17) ∧
    (∀ x : AxisId, 0 < u8 d.bytes 17 → u8 d.bytes 17 < 128 → s.notParked d.units = some x → t = s.later d 5 17 (wd x.val)) ∧
    (0 < u8 d.bytes 17 → u8 d.bytes 17 < 128 → s.notParked d.units = none →
      (∀ e : Desc, s.desc? d.acc = some e →
        t.desc? d.acc = some { e with slotEnd := d.eff + BitVec.ofNat 64 ((2 * s.hz + 999) / 1000 - 1) }) ∧ t = { s with ord := t.ord })) ∧
  (∀ (s : State) (n : Nat) (d : Desc), s.desc? n = some d → d.op = 0x11 → d.stage = .effect → d.begun = true → d.out = none →
    (∀ r ∈ s.frm.adm, r.kind ≠ .consist n) →
    (frameLe d.slotEnd s.frm.count = false → exec (.consistSlotReadEnd n) s = .next s) ∧
    (frameLe d.slotEnd s.frm.count = true → s.slotItems (u8 d.bytes 16) = none →
      exec (.consistSlotReadEnd n) s = .next (s.finish d 5 16 0 s.frm.count)) ∧
    (frameLe d.slotEnd s.frm.count = true → s.slotItems (u8 d.bytes 16) ≠ none →
      exec (.consistSlotReadEnd n) s = .next (s.ask (.consist n) s.frm.count)))

/-- ENERGIZE and IDENTIFY (R177, R180, R182, R187): an axis that is not in HOLD begins its energising ramp in the
next frame; in HOLD the descriptor without
identification has its result with its effect, and the one with identification begins with the measurement of R; IDENTIFY begins with the
measurement of R, kind 2 with its test move. No other axis changes in its motion. -/
def Obligations.EnergizesAndIdentifies : Prop :=
  ∀ (s : State) (n : Nat) (d : Desc) (x : AxisId), d.axis? = some x →
    (Due s n 7 d → ((onset s d).ax.get x).tt.modeAhead ≠ .hold →
      Completes (.energize n) s fun t => (t.ax.get x).cd.phaseNext = some .energising ∧
        (t.ax.get x).cd.seq.any (fun q => q.desc == n && q.start == s.frm.count + 1 &&
          q.final == !(identRuns ((onset s d).ax.get x) (u8 d.bytes 17)) && q.boot == heavy x) = true ∧
        (t.ax.get x).tt = ((onset s d).ax.get x).tt ∧ (t.ax.get x).coilA.pdEn = u8 d.bytes 16 ∧
        (∀ y : AxisId, y ≠ x → t.ax.get y = (onset s d).ax.get y) ∧ t.frm = s.frm) ∧
    (Due s n 7 d → ((onset s d).ax.get x).tt.modeAhead = .hold → u8 d.bytes 17 ≠ 1 →
      Completes (.energize n) s fun t => (t.desc? n).any (fun e => e.stage == .effect && e.out.isSome) = true ∧
        (t.ax.get x).tt = ((onset s d).ax.get x).tt ∧ (t.ax.get x).coilA.pdEn = u8 d.bytes 16 ∧
        (t.ax.get x).cd.seq = ((onset s d).ax.get x).cd.seq) ∧
    (Due s n 7 d → ((onset s d).ax.get x).tt.modeAhead = .hold → u8 d.bytes 17 = 1 →
      Completes (.energize n) s fun t => (t.ax.get x).cd.phaseNext = some .identR ∧
        (t.ax.get x).cd.seq.any (fun q => q.desc == n && q.fromHold && !q.identify && q.start == s.frm.count + 1) = true ∧
        (t.ax.get x).tt = ((onset s d).ax.get x).tt ∧ (t.ax.get x).coilA.pdEn = u8 d.bytes 16) ∧
    (Due s n 0xE d → u8 d.bytes 16 ≠ 2 →
      Completes (.identify n) s fun t => (t.ax.get x).cd.phaseNext = some .identR ∧
        (t.ax.get x).cd.seq.any (fun q => q.desc == n && q.identify && q.rOnly == (u8 d.bytes 16 == 1) && q.start == s.frm.count + 1) = true ∧
        (t.ax.get x).tt = ((onset s d).ax.get x).tt ∧ (∀ y : AxisId, y ≠ x → t.ax.get y = (onset s d).ax.get y)) ∧
    (Due s n 0xE d → u8 d.bytes 16 = 2 →
      Completes (.identify n) s fun t => (t.ax.get x).tt.running = .ident n ∧ (t.ax.get x).tt.ring.any (fun r => r.desc == n) = true ∧
        (t.ax.get x).tt.bypass = true ∧ (∀ y : AxisId, y ≠ x → t.ax.get y = (onset s d).ax.get y))

/-- The steps of ENERGIZE and IDENTIFY end after their frames and not before (R180 to R182, R187, R188), which are ERAMP of the card in force
for a ramp, 2 ms for the measurement of R, both at least one, and 64 frames for that of L: the ramp leads to the measurement of R, R in band leads on
to that of L, the last ramp of ENERGIZE to HOLD with nothing in progress, and IDENTIFY's to HOLD with its results; before that nothing
changes. -/
def Obligations.SequenceSteps : Prop :=
  ∀ (s : State) (x : AxisId) (q : SeqSt), (s.ax.get x).cd.seq = some q →
    let len : Nat := match (s.ax.get x).cd.phase with
      | .energising => max 1 (s.msFrames (s.cardOf x).eramp)
      | .identR => max 1 (s.msFrames 2)
      | .identL => 64
      | .off | .run | .pdWait | .pdRamp | .holdLow => 0
    (s.stepOver x q = true ↔ q.boot = false ∧ len ≤ framesFrom q.start s.frm.count) ∧
    ((s.ax.get x).cd.phase = .energising → q.final = false → s.stepOver x q = true →
      Completes (.energisingRampEnd x) s fun t => (t.ax.get x).cd.phase = .identR ∧
        (t.ax.get x).cd.seq.any (fun r => r.start == q.start + BitVec.ofNat 64 len && r.desc == q.desc) = true ∧
        (t.ax.get x).tt = (s.ax.get x).tt ∧ (∀ y : AxisId, y ≠ x → t.ax.get y = s.ax.get y) ∧ t = { s with ax := t.ax }) ∧
    (∀ ra rb : Int, (s.ax.get x).cd.phase = .identR → s.stepOver x q = true → q.rOnly = false → (s.ax.get x).cd.ca.rFormed = some ra →
      (s.ax.get x).cd.cb.rFormed = some rb → 50 ≤ ra → ra ≤ 60000 → 50 ≤ rb → rb ≤ 60000 →
      Completes (.identREnd x) s fun t => (t.ax.get x).cd.phase = .identL ∧ (t.ax.get x).cd.ca.rMeas = some ra.toNat ∧
        (t.ax.get x).cd.cb.rMeas = some rb.toNat ∧ t.regs = s.regs ∧
        (t.ax.get x).cd.seq.any (fun r => r.start == q.start + BitVec.ofNat 64 len && r.desc == q.desc) = true) ∧
    ((s.ax.get x).cd.phase = .identL → s.stepOver x q = false → exec (.identLEnd x) s = .next s) ∧
    ((s.ax.get x).cd.phase = .identL → s.stepOver x q = true → q.identify = true →
      Completes (.identLEnd x) s fun t => (t.ax.get x).cd.phase = .energising ∧ t.rb (Adr.AX_ID_STAT x) 31 = true ∧
        (t.ax.get x).cd.seq.any (fun r => r.final && r.desc == q.desc && r.start == q.start + BitVec.ofNat 64 len) = true ∧ t.frm = s.frm) ∧
    ((s.ax.get x).cd.phase = .energising → q.final = true → q.identify = false → s.stepOver x q = true →
      Completes (.energizeComplete x) s fun t => (t.ax.get x).tt.mode = .hold ∧
        ((s.ax.get x).back = [] → (s.ax.get x).tt.modeNext = none → (t.ax.get x).cd.seq = none) ∧
        (t.ax.get x).tt.u0 = (s.ax.get x).tt.u0 ∧ t.frm = s.frm) ∧
    ((s.ax.get x).cd.phase = .energising → q.final = true → q.identify = true → s.stepOver x q = true →
      Completes (.identifyComplete x) s fun t => (t.ax.get x).tt.mode = .hold ∧
        ((s.ax.get x).back = [] → (s.ax.get x).tt.modeNext = none → (t.ax.get x).cd.seq = none) ∧
        (t.ax.get x).cd.ca.rMeas = (s.ax.get x).cd.ca.rMeas ∧ t.frm = s.frm) ∧
    (s.stepOver x q = false → exec (.energisingRampEnd x) s = .next s ∧ exec (.identREnd x) s = .next s ∧
      exec (.energizeComplete x) s = .next s ∧ exec (.identifyComplete x) s = .next s)

/-- SHAPER_IDENT_COMPLETE, the power-down of a coil and the tracking at standstill (R144, R184, R191, R192, R280). The ringing test gives
the axis' staged shaper the frequency and damping of the fit where one qualifies, of 5 to 500 Hz, and else leaves it; the power-down delay leads
to the ramp, or to HOLD_LOW where the card has none, and the ramp to HOLD_LOW; a window of 256 frames at standstill makes the R that it
formed the axis' resistance where it is in band. -/
def Obligations.HoldingCoils : Prop :=
  (∀ (s : State) (x : AxisId) (f z : Nat) (r : RingDown) (g : FrameNo) (d : Desc), (s.ax.get x).tt.ring = some r → r.arrived = some g →
    s.desc? r.desc = some d → d.stage = .effect → s.msFrames 400 ≤ s.since g →
    let p := s.ringFit r f z
    (p.1 = 0 ∨ 50 ≤ p.1 ∧ p.1 ≤ 5000 ∧ p.2 ≤ 300) ∧
    Completes (.shaperIdentComplete x f z) s fun t =>
      (if p.1 = 0 then (t.ax.get x).stg = (s.ax.get x).stg
        else (t.ax.get x).stg.shpFreq = p.1 ∧ (t.ax.get x).stg.shpDamp = p.2) ∧
      (t.ax.get x).tt.ring = none ∧ (t.ax.get x).act = (s.ax.get x).act ∧ t.rb (Adr.AX_IDSHP x) 31 = true) ∧
  (∀ (s : State) (x : AxisId), (s.ax.get x).cd.phase = .pdWait → s.msFrames (s.cardOf x).pddelay ≤ s.since (s.ax.get x).cd.phaseAt →
    Completes (.powerDownDelayEnd x) s fun t =>
      (t.ax.get x).cd.phase = (if (s.cardOf x).pdramp = 0 then .holdLow else .pdRamp) ∧
      (t.ax.get x).cd.phaseAt = (s.ax.get x).cd.phaseAt + BitVec.ofNat 64 (s.msFrames (s.cardOf x).pddelay) ∧ t = { s with ax := t.ax }) ∧
  (∀ (s : State) (x : AxisId), (s.ax.get x).cd.phase = .pdRamp → s.msFrames (s.cardOf x).pdramp ≤ s.since (s.ax.get x).cd.phaseAt →
    Completes (.powerDownRampEnd x) s fun t => (t.ax.get x).cd.phase = .holdLow ∧ (t.ax.get x).tt = (s.ax.get x).tt ∧ t = { s with ax := t.ax }) ∧
  (∀ (s : State) (x : AxisId), (s.ax.get x).cd.phase = .run →
    exec (.powerDownDelayEnd x) s = .next s ∧ exec (.powerDownRampEnd x) s = .next s) ∧
  (∀ (s : State) (x : AxisId) (ra rb : Int), 256 ≤ (s.ax.get x).cd.still →
    (s.ax.get x).cd.smallA = false → (s.ax.get x).cd.smallB = false →
    (s.ax.get x).cd.ca.rFormed = some ra → (s.ax.get x).cd.cb.rFormed = some rb → 50 ≤ ra → ra ≤ 60000 → 50 ≤ rb → rb ≤ 60000 →
    (s.cardOf x).rInBand ra = true → (s.cardOf x).rInBand rb = true →
    Completes (.standstillWindowEnd x) s fun t => (t.ax.get x).cd.ca.rhat = ra.toNat ∧ (t.ax.get x).cd.cb.rhat = rb.toNat ∧
      (t.ax.get x).cd.rsrc = 3 ∧ (t.ax.get x).cd.idValid = true ∧ (t.ax.get x).cd.still = 0 ∧ (t.ax.get x).tt = (s.ax.get x).tt) ∧
  (∀ (s : State) (x : AxisId), (s.ax.get x).cd.still < 256 → exec (.standstillWindowEnd x) s = .next s)

/-! ### Step inputs, bridges and the heavy group -/

/-- Step inputs (R157, R158): a pair that is open counts nothing; an edge after a phase shorter than the filter counts nothing and is
counted as lost; in STEP and DIR mode an active STEP edge counts one up or down by the direction that held before the setup
window and the inversion, and a direction that changed within it is counted; in the two-line mode one line counts up and the other down; in
quadrature an edge counts one place of the cycle. A pair that opens is marked, and a restored one counts again. -/
def Obligations.StepInputs : Prop :=
  ∀ (s : State) (p : Fin 16) (e : StepEdge), s.sys.powered = true →
    let i := s.sd.get p
    (i.opened = true → Completes (.stepInputEdge p e) s fun t => (t.sd.get p).count = i.count ∧ (t.sd.get p).stepLv = e.stepLevel ∧
      t = { s with sd := t.sd }) ∧
    (i.opened = false → e.phaseNs < 10 * fld i.cfg 11 8 →
      Completes (.stepInputEdge p e) s fun t => (t.sd.get p).count = i.count ∧ t.reg (Adr.SD_LOST p) = satInc (s.reg (Adr.SD_LOST p))) ∧
    (i.opened = false → 10 * fld i.cfg 11 8 ≤ e.phaseNs → fld i.cfg 1 0 = 0 → e.line = .step → i.stepLv ≠ e.stepLevel →
      (e.stepLevel = bitOf i.cfg 2 → Completes (.stepInputEdge p e) s fun t => (t.sd.get p).count = i.count) ∧
      (e.stepLevel ≠ bitOf i.cfg 2 →
        let late := e.dirAgo.filter fun n => decide (n < 10 * fld i.cfg 15 12)
        let held := e.dirLevel != (late.length % 2 == 1)
        Completes (.stepInputEdge p e) s fun t =>
        (t.sd.get p).count = i.count + (if held = bitOf i.cfg 3 then 1 else BitVec.allOnes 32) ∧
        (late = [] → t = { s with sd := t.sd }) ∧
        (late ≠ [] → t.reg (Adr.SD_DIRLATE p) = satInc (s.reg (Adr.SD_DIRLATE p))) ∧ ∀ q : Fin 16, q ≠ p → t.sd.get q = s.sd.get q)) ∧
    (i.opened = false → 10 * fld i.cfg 11 8 ≤ e.phaseNs → fld i.cfg 1 0 = 1 → i.stepLv ≠ e.stepLevel → i.dirLv = e.dirLevel →
      e.line = .step → e.stepLevel ≠ bitOf i.cfg 2 → Completes (.stepInputEdge p e) s fun t => (t.sd.get p).count = i.count + 1) ∧
    (i.opened = false → 10 * fld i.cfg 11 8 ≤ e.phaseNs → fld i.cfg 1 0 = 1 → i.dirLv ≠ e.dirLevel → i.stepLv = e.stepLevel →
      e.line = .dir → e.dirLevel ≠ bitOf i.cfg 2 →
      Completes (.stepInputEdge p e) s fun t => (t.sd.get p).count = i.count + BitVec.allOnes 32) ∧
    (i.opened = false → 10 * fld i.cfg 11 8 ≤ e.phaseNs → fld i.cfg 1 0 = 2 → i.stepLv = false → i.dirLv = false →
      Completes (.stepInputEdge p e) s fun t => (t.sd.get p).count = i.count +
        (if e.stepLevel = true ∧ e.dirLevel = false then 1 else if e.stepLevel = false ∧ e.dirLevel = true then BitVec.allOnes 32 else 0)) ∧
    (Completes (.stepPairOpen p) s fun t => (t.sd.get p).opened = true ∧ (t.sd.get p).count = i.count ∧ t.rb (Adr.SD_STAT p) 1 = true) ∧
    Completes (.stepPairRestore p) s fun t => (t.sd.get p).opened = false ∧ (t.sd.get p).count = i.count ∧
      (i.opened = true → t.rb (Adr.SD_STAT p) 1 = true) ∧ (i.opened = false → t = { s with sd := t.sd })

/-- BR_SRC_WRITE and BAY_COMMIT_WRITE (R208 to R210): a parked light axis takes its duties from the host where its
pool, and on a tile the module, has room for its grant at 1,200 mA (R329, R330), is left as it
was with CFG_IGNORED where it has not, and gives them back; a heavy axis, or one that is not parked, is left as it
was with CFG_IGNORED. A commit of a slot that is in direct mode
waits for the next shadow load; one of another slot is refused with COMMIT_IGNORED. LEG_LATCH_RELEASE asks the release of the latches
named, and of no other. -/
def Obligations.BridgeSources : Prop :=
  ∀ (s : State) (m : Master) (x : AxisId) (w : Word),
    (Acts s m (Adr.AX_BR_CFG x) 1 → heavy x = true ∨ (s.ax.get x).isParked = false →
      Completes (.brSrcWrite m x w) s fun t => t.rb (Adr.AX_BR_STAT x) 18 = true ∧ t.ax = s.ax ∧
        t.reg (Adr.AX_BR_CFG x) = s.reg (Adr.AX_BR_CFG x)) ∧
    (Acts s m (Adr.AX_BR_CFG x) 1 → heavy x = false → (s.ax.get x).isParked = true → bitOf w 0 = false → s.direct x = true →
      Completes (.brSrcWrite m x w) s fun t => t.direct x = false ∧ (t.ax.get x).br.tail = true ∧
        ∀ y : AxisId, y ≠ x → t.ax.get y = s.ax.get y) ∧
    (Acts s m (Adr.AX_BR_CFG x) 1 → heavy x = false → (s.ax.get x).isParked = true → bitOf w 0 = true → s.direct x = false →
      let u := s.setReg (Adr.AX_BR_CFG x) 1#32
      let p := s.pool.get (domOf x)
      (u.poolOk (domOf x) p.gr p.gh = true → Completes (.brSrcWrite m x w) s fun t => t.direct x = true ∧ (t.ax.get x).br.code = 0 ∧
        (t.ax.get x).br.tail = false ∧ ∀ y : AxisId, y ≠ x → t.ax.get y = s.ax.get y) ∧
      (u.poolOk (domOf x) p.gr p.gh = false → Completes (.brSrcWrite m x w) s fun t => t.direct x = false ∧ t.ax = s.ax ∧
        t.rb (Adr.AX_BR_STAT x) 18 = true)) ∧
    (∀ (b : BayId) (j : Fin 8), Acts s m (Adr.BAY_COMMIT b) 0xFF → w = wd (2 ^ j.val) →
      (s.direct (axisAt (bayUnit b) j) = true → Completes (.bayCommitWrite m b w) s fun t =>
        (t.cu.get (bayUnit b)).commit = (s.cu.get (bayUnit b)).commit ||| BitVec.ofNat 8 (2 ^ j.val) ∧ t.ax = s.ax) ∧
      (s.direct (axisAt (bayUnit b) j) = false → Completes (.bayCommitWrite m b w) s fun t =>
        t.rb (Adr.BAY_BR_STAT b) 2 = true ∧ t.cu = s.cu)) ∧
    (∀ u : CarrierId, Acts s m (latchAdr u) 0xFFFFFFFF → Completes (.legLatchRelease m u w) s fun t =>
      (t.cu.get u).relPend = (s.cu.get u).relPend ||| ((s.cu.get u).latch &&& w) ∧ (t.cu.get u).latch = (s.cu.get u).latch ∧
        ∀ v : CarrierId, v ≠ u → t.cu.get v = s.cu.get v)

/-- COIL_WINDOW_TRIP (R220 to R222): a comparator that is out for its test, or whose coil is blanked, does nothing; else its output is set,
the bay's sticky bit with it, and the legs of the coil are held off for the rest of the half period; a coil that has tripped in it already is not
counted again. -/
def Obligations.WindowTrips : Prop :=
  ∀ (s : State) (u : CarrierId) (c : Fin 16) (hi : Bool) (k : Nat) (edges : List HeavyEdge) (same : Bool),
    (s.sys.powered = false ∨ s.cmpOut (coilCmp u c) = true ∨ s.blanked (coilOf u c).1 (coilOf u c).2 (s.halfClock u k) (edges.map s.edgeNow) = true ∨
        (if hi then (s.cu.get u).cmpHi else (s.cu.get u).cmpLo).getLsbD c = true →
      exec (.coilWindowTrip u c hi ⟨k, edges, same⟩) s = .next s) ∧
    (s.sys.powered = true → s.cmpOut (coilCmp u c) = false → s.blanked (coilOf u c).1 (coilOf u c).2 (s.halfClock u k) (edges.map s.edgeNow) = false →
      (if hi then (s.cu.get u).cmpHi else (s.cu.get u).cmpLo).getLsbD c = false →
      Completes (.coilWindowTrip u c hi ⟨k, edges, same⟩) s fun t =>
        (if hi then (t.cu.get u).cmpHi else (t.cu.get u).cmpLo).getLsbD c = true ∧ (t.cu.get u).tripped.getLsbD c = true ∧
        (u.val < 24 → (t.reg (Adr.BAY_TRIP_STICKY u)).getLsbD c = true) ∧ t.frm = s.frm ∧
        ((s.cu.get u).tripped.getLsbD c = false →
          ∀ i ∈ coilLegs (coilOf u c).2, legBit (t.cu.get u).held (slotOf (coilOf u c).1).val i = true) ∧
        ((s.cu.get u).tripped.getLsbD c = true → (t.cu.get u).trips = (s.cu.get u).trips ∧ t.ax = s.ax))

/-- DEBUG_HALT and its release (R38, R229): a core that halts puts every unit in its safe state for it, and its references and duties
are no longer finished; the unit leaves that cause when no core is halted. A core that does not exist does nothing. -/
def Obligations.DebugHalts : Prop :=
  ∀ (s : State) (k : Fin 14),
    (s.sys.powered = true → k.val ≠ 7 → Completes (.debugHalt k) s fun t => t.upd.halted.getLsbD k = true ∧
      (∀ j : Fin 14, j ≠ k → t.upd.halted.getLsbD j = s.upd.halted.getLsbD j) ∧
      (∀ u : CarrierId, (t.cu.get u).safe = true ∧ (t.cu.get u).cHalt = true) ∧ t.frm.count = s.frm.count ∧ t.regs = s.regs ∧
      (k.val < 7 → t.frm.refsOk.getLsbD k = false)) ∧
    (s.sys.powered = false ∨ k.val = 7 → exec (.debugHalt k) s = .next s) ∧
    (Completes (.debugHaltRelease k) s fun t => t.upd.halted = s.upd.halted &&& ~~~(BitVec.ofNat 14 (2 ^ k.val)) ∧
      (t.upd.halted = 0 → ∀ u : CarrierId, (t.cu.get u).cHalt = false) ∧ (t.upd.halted ≠ 0 → t.cu = s.cu) ∧ t.ax = s.ax ∧ t.regs = s.regs)

/-- Safe torque off (R230, R231). STO_INPUT_LOW gives the levels of the two inputs after their filters (log entry 227): with either low it is
active, no gate is driven, its event waits for the next tick, and it goes out on the line as an emergency stop where STO_PROP says so
(R354); with both high it changes nothing but the levels. Its release brings both inputs and the gates back, with event 46 pending where it
was active, and the legs of an axis in direct mode stay off. -/
def Obligations.SafeTorqueOff : Prop :=
  ∀ (s : State) (us : Nat),
    (∀ a b : Bool, a = true ∨ b = true → Completes (.stoInputLow a b us) s fun t => t.sys.stoActive = true ∧ t.sys.gateOk = false ∧
      t.sys.stoA = !a ∧ t.sys.stoB = !b ∧ t.frm = s.frm ∧ (∀ x : AxisId, t.noDrive x = true) ∧
      (s.sys.powered = true → s.sys.stoActive = false → t.sys.stoDue = some us) ∧
      (s.sys.powered = false ∨ s.sys.stoActive = true ∨ s.rb Adr.LINE_CFG 12 = false → t = { s with sys := t.sys }) ∧
      (s.sys.powered = true → s.sys.stoActive = false → s.rb Adr.LINE_CFG 12 = true → s.line.own = none → t.line.own = some 1)) ∧
    exec (.stoInputLow false false us) s = .next { s with sys := { s.sys with stoA := true, stoB := true } } ∧
    (Completes (.stoRelease us) s fun t => t.sys.stoActive = false ∧ t.sys.stoA = true ∧ t.sys.stoB = true ∧ t.sys.gateOk = true ∧
      (s.sys.stoActive = true → s.sys.powered = true → t.rb Adr.EVT_PEND_HI 14 = true) ∧ t.cu = s.cu ∧ t.ord = s.ord ∧
      (s.sys.stoActive = false → t.ax = s.ax) ∧ (∀ x : AxisId, s.direct x = false → t.ax.get x = s.ax.get x) ∧
      (s.sys.stoActive = true → ∀ x : AxisId, s.direct x = true → (t.ax.get x).br.code = 0 ∧ (t.ax.get x).tt = (s.ax.get x).tt))

/-- Inputs of safe torque off that differ for longer than DISC_T (R232): STO_DISCREPANCY, which is that event, sets GCTL_STO.DISC and does
nothing else; DISC_T holds 1 to 65,535, and is 100 after reset. -/
def Obligations.StoDiscrepancy : Prop :=
  (∀ s : State, s.sys.powered = true → s.sys.stoA ≠ s.sys.stoB →
    exec .stoDiscrepancy s = .next (s.setReg Adr.GCTL_STO (s.reg Adr.GCTL_STO ||| 16#32))) ∧
  (∀ s : State, s.sys.stoA = s.sys.stoB → exec .stoDiscrepancy s = .next s) ∧
  (∀ (s : State) (m : Master) (w : Word), s.sys.powered = true → m.admin = true →
    Completes (.registerWrite m Adr.GCTL_STO 15 w) s fun t => t.rf Adr.GCTL_STO 23 8 = clampNat 1 65535 (fld w 23 8)) ∧
  State.reset.rf Adr.GCTL_STO 23 8 = 100

/-- Faults of a light bridge (R233 to R237): a fast overcurrent latches its leg, marks it seen, faults its axis and opens its bridge, with
event 20 pending, and a latched leg does nothing; a coil found open while the axis is energised raises event 19, and both coils event
22 with the axis faulted; a probe that is due stores its current, and one above 240 mA is a short. -/
def Obligations.LightBridgeFaults : Prop :=
  (∀ (s : State) (l : Fin 768) (low : Bool), s.sys.powered = true →
    (legBit (s.cu.get (unitOf (lightAxis l))).latch (slotOf (lightAxis l)).val (l.val % 4) = true →
      exec (.fastOvercurrent l low) s = .next s) ∧
    (legBit (s.cu.get (unitOf (lightAxis l))).latch (slotOf (lightAxis l)).val (l.val % 4) = false →
      Completes (.fastOvercurrent l low) s fun t =>
        legBit (t.cu.get (unitOf (lightAxis l))).latch (slotOf (lightAxis l)).val (l.val % 4) = true ∧
        (t.reg (Adr.BAY_SHORT_SEEN (unitOf (lightAxis l)))).getLsbD (4 * (slotOf (lightAxis l)).val + l.val % 4) = true ∧
        (t.ax.get (lightAxis l)).tt.faulted.isSome = true ∧ (t.ax.get (lightAxis l)).cd.phase = .off ∧
        (t.ax.get (lightAxis l)).br.faultOff = true ∧ t.rb Adr.EVT_PEND_LO 20 = true ∧ t.frm = s.frm)) ∧
  (∀ (s : State) (x : AxisId),
    ((s.ax.get x).cd.ca.openCnt = 64 → (s.ax.get x).cd.cb.openCnt < 64 → (s.ax.get x).energised = true →
      Completes (.openLoadCountEnd x) s fun t => (t.ax.get x).cd.ca.openCnt = 65 ∧ (t.ax.get x).tt = (s.ax.get x).tt ∧
        t.rb Adr.EVT_PEND_LO 19 = true ∧ t.frm = s.frm) ∧
    ((s.ax.get x).cd.ca.openCnt = 64 → 64 ≤ (s.ax.get x).cd.cb.openCnt → (s.ax.get x).energised = true →
      Completes (.openLoadCountEnd x) s fun t => (t.ax.get x).tt.faulted.isSome = true ∧ (t.ax.get x).cd.phase = .off ∧
        t.rb Adr.EVT_PEND_LO 22 = true) ∧
    ((s.ax.get x).cd.ca.openCnt ≠ 64 → (s.ax.get x).cd.cb.openCnt ≠ 64 → exec (.openLoadCountEnd x) s = .next s)) ∧
  (∀ (s : State) (x : AxisId) (c : Nat), s.sys.powered = true →
    (s.probes x = false → exec (.parkedAxisProbe x c) s = .next s) ∧
    (s.probes x = true → (s.current (unitOf x) (chanOf x (s.probesB x)) c).natAbs < 15360 →
      Completes (.parkedAxisProbe x c) s fun t => t.frm = s.frm ∧
        (if s.probesB x
          then (t.ax.get x).br.prB = (s.ax.get x).br.prB.take (s.current (unitOf x) (chanOf x true) c) ∧
            (t.ax.get x).br.prA = (s.ax.get x).br.prA
          else (t.ax.get x).br.prA = (s.ax.get x).br.prA.take (s.current (unitOf x) (chanOf x false) c) ∧
            (t.ax.get x).br.prB = (s.ax.get x).br.prB)) ∧
    (s.probes x = true → 15360 ≤ (s.current (unitOf x) (chanOf x (s.probesB x)) c).natAbs →
      Completes (.parkedAxisProbe x c) s fun t => (t.ax.get x).tt.faulted.isSome = true ∧ (t.ax.get x).br.faultOff = true ∧
        (∀ i < 4, legBit (t.cu.get (unitOf x)).latch (slotOf x).val i = true) ∧ t.rb Adr.EVT_PEND_LO 20 = true))

/-- The samples of a unit while its carriers run (R23, R193, R209, R221, R316). BAY_SHADOW_LOAD completes: the valley sample stores its
codes, the latches asked for are released, and the shadow is loaded; a valley at which an offset that changed has no load (R23) does all
but the load. BAY_PEAK_SAMPLE completes: it stores its codes, judges the internal reference, and ends the trips of the half before,
but those whose cut lies past the peak (log entry 225) and those of a comparator that firmware stands in for (R321). Without carriers
neither does anything. -/
def Obligations.UnitSamples : Prop :=
  ∀ (s : State) (u : CarrierId),
    (s.carriers = false → (∀ v : ValleyIn, exec (.bayShadowLoad u v) s = .next s) ∧ ∀ p : PeakIn, exec (.bayPeakSample u p) s = .next s) ∧
    (∀ v : ValleyIn, s.carriers = true → Completes (.bayShadowLoad u v) s fun t =>
      (t.cu.get u).valley = v.cur ∧ (t.cu.get u).vmV = v.vm ∧ (t.cu.get u).afterPeak = false ∧ (t.cu.get u).relPend = 0 ∧
      (t.cu.get u).dutiesOk = false ∧ t.frm.count = s.frm.count ∧
      ((s.cu.get u).skipLoad = some 0 → (t.cu.get u).commit = (s.cu.get u).commit ∧ (t.cu.get u).skipLoad = none) ∧
      ((s.cu.get u).skipLoad ≠ some 0 → (t.cu.get u).commit = 0)) ∧
    (∀ p : PeakIn, s.carriers = true → Completes (.bayPeakSample u p) s fun t =>
      (t.cu.get u).peak = p.cur ∧ (t.cu.get u).vmP = p.vm ∧ (t.cu.get u).afterPeak = true ∧
      ((∀ id : Nat, s.onFallback id = false) → ((p.ref : Int) - 2867).natAbs ≤ 4 →
        (t.cu.get u).tripped = 0 ∧ (t.cu.get u).held = heldBy (s.cu.get u).cutP) ∧
      (t.cu.get u).refErr = decide (4 < ((p.ref : Int) - 2867).natAbs) ∧
      (4 < ((p.ref : Int) - 2867).natAbs → u.val < 24 → t.rb (Adr.BAY_SMP_STAT u) 1 = true) ∧ t.frm.count = s.frm.count)

/-- The heavy bridges (R250, R251, R253, R255, R257, R258): a bootstrap that falls while its axis is energised is no longer released, with
event 26 pending; the release of all four starts the ramp that waited for them, and 40 frames without it fault the axis; a gate supply
that falls is locked out until it is released, with event 27 pending where STO_A did not cause it; desaturation in mode 2, a
hard overcurrent and a feedback mismatch set their bit of HVYh_STAT, latch their legs, fault the axis and open its bridge, with events 24,
30 and 29 pending, also where the leg is latched already; but on a leg that was latched at an earlier clock there is no switch told to be
on, and so no desaturation. In mode 1 it tells the first of a window and does nothing else. -/
def Obligations.HeavyBridges : Prop :=
  (∀ (s : State) (l : Fin 32),
    ((s.ax.get (hvAxis (heavyLeg l).1)).energised = true → Completes (.bootstrapUndervoltage l) s fun t =>
      (t.hv.get (heavyLeg l).1).rel = (s.hv.get (heavyLeg l).1).rel &&& ~~~(BitVec.ofNat 4 (2 ^ (heavyLeg l).2)) ∧
      (t.ax.get (hvAxis (heavyLeg l).1)).tt.faulted.isSome = true ∧ t.rb Adr.EVT_PEND_LO 26 = true) ∧
    ((s.ax.get (hvAxis (heavyLeg l).1)).energised = false → exec (.bootstrapUndervoltage l) s = .next s)) ∧
  (∀ (s : State) (h : HeavyId) (q : SeqSt), (s.ax.get (hvAxis h)).cd.seq = some q → q.boot = true →
    (s.ax.get (hvAxis h)).cd.phase = .energising →
    (Completes (.bootstrapRelease h) s fun t => (t.hv.get h).rel = 0xF#4 ∧
      (t.ax.get (hvAxis h)).cd.seq = some { q with boot := false, start := s.frm.count + 1 } ∧ t.regs = s.regs) ∧
    (40 ≤ s.since q.start → Completes (.bootstrapReleaseTimeout h) s fun t => (t.ax.get (hvAxis h)).tt.faulted.isSome = true ∧
      (t.ax.get (hvAxis h)).cd.phase = .off ∧ t.rb Adr.EVT_PEND_LO 26 = true) ∧
    (s.since q.start < 40 → exec (.bootstrapReleaseTimeout h) s = .next s)) ∧
  (∀ (s : State) (r : Fin 2), s.sys.powered = true →
    (s.cmp.vghLock.getLsbD r = false → Completes (.gateSupplyFall r) s fun t => t.cmp.vghLock.getLsbD r = true ∧ t.frm = s.frm ∧
      (s.sys.stoActive = false ∨ s.sys.stoA = true → t.rb Adr.EVT_PEND_LO 27 = true) ∧
      (s.sys.stoActive = true → s.sys.stoA = false → t.ax = s.ax ∧ t.regs = s.regs)) ∧
    (s.cmp.vghLock.getLsbD r = true → exec (.gateSupplyFall r) s = .next s) ∧
    (Completes (.gateSupplyRelease r) s fun t => t.cmp.vghLock.getLsbD r = false ∧ t = { s with cmp := t.cmp })) ∧
  (∀ (s : State) (l : Fin 32) (low : Bool) (k : Nat) (same : Bool), s.sys.powered = true →
    let h := (heavyLeg l).1
    (same = true ∨ legBit (s.cu.get 24).latch h.val (heavyLeg l).2 = false → s.rf (Adr.HVY_VDS_CFG h) 17 16 = 2 →
      Completes (.vdsDetection l low ⟨k, same⟩) s fun t =>
        legBit (t.cu.get 24).latch h.val (heavyLeg l).2 = true ∧ (t.ax.get (hvAxis h)).tt.faulted.isSome = true ∧
        (t.ax.get (hvAxis h)).br.faultOff = true ∧ t.rb (Adr.HVY_STAT h) 3 = true ∧ t.rb Adr.EVT_PEND_LO 24 = true) ∧
    (same = true ∨ legBit (s.cu.get 24).latch h.val (heavyLeg l).2 = false → s.rf (Adr.HVY_VDS_CFG h) 17 16 = 1 →
      Completes (.vdsDetection l low ⟨k, same⟩) s fun t => t.ax = s.ax ∧ (t.cu.get 24).latch = (s.cu.get 24).latch ∧
        t.rb (Adr.HVY_STAT h) 3 = true ∧ (t.hv.get h).vdsSeen.getLsbD (heavyLeg l).2 = true ∧
        ((s.hv.get h).vdsSeen.getLsbD (heavyLeg l).2 = false → t.rb Adr.EVT_PEND_LO 24 = true)) ∧
    (s.rf (Adr.HVY_VDS_CFG h) 17 16 = 0 ∨ (same = false ∧ legBit (s.cu.get 24).latch h.val (heavyLeg l).2 = true) →
      exec (.vdsDetection l low ⟨k, same⟩) s = .next s) ∧
    (∀ kind : Fin 4, Completes (.gateFeedbackMismatch l low ⟨kind, same⟩) s fun t =>
      legBit (t.cu.get 24).latch h.val (heavyLeg l).2 = true ∧ (t.ax.get (hvAxis h)).tt.faulted.isSome = true ∧
      (t.ax.get (hvAxis h)).br.faultOff = true ∧ t.rb (Adr.HVY_STAT h) 2 = true ∧ t.rb Adr.EVT_PEND_LO 29 = true)) ∧
  (∀ (s : State) (c : Fin 16) (k : Nat) (same : Bool), s.sys.powered = true →
    let h := slotOf (coilOf 24 c).1
    (((k : Int) - 2048).natAbs < s.rf (Adr.HVY_HOC h) 10 0 → exec (.hardOvercurrent c ⟨k, same⟩) s = .next s) ∧
    (s.rf (Adr.HVY_HOC h) 10 0 ≤ ((k : Int) - 2048).natAbs →
      Completes (.hardOvercurrent c ⟨k, same⟩) s fun t => (t.ax.get (coilOf 24 c).1).tt.faulted.isSome = true ∧
        (t.ax.get (coilOf 24 c).1).cd.phase = .off ∧ t.rb (Adr.HVY_STAT h) 1 = true ∧ t.rb Adr.EVT_PEND_LO 30 = true ∧
        ∀ i ∈ coilLegs (coilOf 24 c).2, legBit (t.cu.get 24).latch h.val i = true))

/-! ### Feedback, probes and emulation -/

/-- Position feedback (R287 to R290, R293, R294, R296): in quadrature a legal transition counts one in its direction and an illegal one
counts nothing and sets LOST; a conversion stores its phase and amplitude, and a VALID channel counts the phase's step, or is illegal
where that step is too long; a channel that is not VALID counts nothing. A wire check that fails, or the third conversion in a row whose
amplitude lies outside its window, ends VALID, with event 35 pending and the axes that correct by the channel FAULTED (that the third
conversion itself counts nothing is the model's reading, log 205); checks that have passed make the channel VALID, whose count in
mode 1 takes the phase in its low bits and is held at the soft limits. An index is one only
at the active level of Z and where its gate holds: a first one takes the count as its reference; a later one is judged by the distance
from where it is expected, and one too far off makes the channel suspect and faults its axes. -/
def Obligations.FeedbackInputs : Prop :=
  ∀ (s : State) (c : Fin 24) (k : Nat), s.sys.powered = true →
    let h := s.fbc.get c
    (∀ a b : Bool, s.fbMode c = 2 →
      let one : Int := if s.fbInv c then -1 else 1
      (h.valid = false ∨ lineState a b = h.st → exec (.fbStateChange c a b k) s = .next (s.modFbc c fun h => { h with st := lineState a b })) ∧
      (∀ d : Int, h.valid = true → (lineState a b = h.st + 1 ∧ d = one) ∨ (lineState a b = h.st + 3 ∧ d = -one) →
        s.slMin c ≤ h.count + d → h.count + d ≤ s.slMax c →
        Completes (.fbStateChange c a b k) s fun t => (t.fbc.get c).count = h.count + d ∧ (t.fbc.get c).lost = h.lost ∧
          (t.fbc.get c).st = lineState a b ∧ t.regs = s.regs ∧ t.ax = s.ax) ∧
      (h.valid = true → lineState a b = h.st + 2 → Completes (.fbStateChange c a b k) s fun t => (t.fbc.get c).count = h.count ∧
        (t.fbc.get c).lost = true ∧ t.rb (Adr.FB_STAT c) 10 = true ∧ (h.illSeen = false → t.rb Adr.EVT_PEND_HI 4 = true))) ∧
    (∀ ca cb : Nat, s.fbMode c = 1 →
      let p := s.sinCos c ca cb
      let phi := phaseOfPair p
      let out := if s.amplitudeOk c p then 0 else min 3 (h.ampOut + 1)
      let step := Int.fmod (phi - h.phi + 2048) 4096 - 2048
      let v := h.count + (if s.fbInv c then -step else step)
      (out < 3 ∨ 3 ≤ h.ampOut →
        (h.valid = false → Completes (.fbSincosConversion c ca cb k) s fun t => (t.fbc.get c).phi = phi ∧ (t.fbc.get c).count = h.count ∧
          (t.fbc.get c).amp = satU 12 (amplitudeOf p) ∧ (t.fbc.get c).ampOut = out ∧ t = { s with fbc := t.fbc }) ∧
        (h.valid = true → h.satLo = false → h.satHi = false → step.natAbs ≤ 1024 → s.slMin c ≤ v → v ≤ s.slMax c →
          Completes (.fbSincosConversion c ca cb k) s fun t => (t.fbc.get c).phi = phi ∧ (t.fbc.get c).count = v ∧
            (t.fbc.get c).amp = satU 12 (amplitudeOf p) ∧ (t.fbc.get c).lost = h.lost ∧ t = { s with fbc := t.fbc }) ∧
        (h.valid = true → 1024 < step.natAbs → Completes (.fbSincosConversion c ca cb k) s fun t => (t.fbc.get c).lost = true ∧
          t.rb (Adr.FB_STAT c) 10 = true ∧ t.ax = s.ax)) ∧
      (out = 3 → h.ampOut < 3 → h.valid = true → Completes (.fbSincosConversion c ca cb k) s fun t => (t.fbc.get c).valid = false ∧
        (t.fbc.get c).lost = true ∧ (t.fbc.get c).count = h.count ∧ t.rb Adr.EVT_PEND_HI 3 = true ∧
        ∀ x : AxisId, (s.ax.get x).fbA.chan = c.val → (s.ax.get x).fbA.corr = 1 → (t.ax.get x).tt.faulted.isSome = true)) ∧
    (∀ (pair : Fin 3) (amp : Bool), s.fbMode c ≠ 0 → h.valid = true → (amp = true → s.fbMode c = 1 ∧ h.ampOut = 3) →
      (amp = false → pair = 2 → s.rb (Adr.FB_IDX_CFG c) 0 = true) →
      Completes (.fbWireCheckFail c pair amp) s fun t => (t.fbc.get c).valid = false ∧
      (t.fbc.get c).lost = true ∧ (t.fbc.get c).count = h.count ∧ t.rb Adr.EVT_PEND_HI 3 = true ∧
      ∀ x : AxisId, (s.ax.get x).fbA.chan = c.val → (s.ax.get x).fbA.corr = 1 → (t.ax.get x).tt.faulted.isSome = true) ∧
    (s.fbMode c ≠ 0 → h.check = true → (s.fbMode c = 1 → h.ampOut = 0) → s.slMin c ≤ s.slMax c →
      let v := withLow h.count (s.phaseBits c h.phi)
      Completes (.fbChannelValid c) s fun t => (t.fbc.get c).valid = true ∧ (t.fbc.get c).check = false ∧ t.ax = s.ax ∧
        (t.fbc.get c).count = (if s.fbMode c = 1 then clampInt (s.slMin c) (s.slMax c) v else h.count) ∧
        (s.fbMode c = 1 → (t.fbc.get c).satHi = decide (s.slMax c < v) ∧ (t.fbc.get c).satLo = decide (v < s.slMin c)) ∧
        (s.fbMode c ≠ 1 ∨ (s.slMin c ≤ v ∧ v ≤ s.slMax c) → t = { s with fbc := t.fbc })) ∧
    (h.check = false → exec (.fbChannelValid c) s = .next s) ∧
    (∀ z : Bool,
      let gate := s.rf (Adr.FB_IDX_CFG c) 6 4
      let e := expectedIndex h.org h.count (s.reg (Adr.FB_IDX_PERIOD c)).toNat
      let on := (s.fbMode c = 2 ∧ h.valid = true ∧ s.rb (Adr.FB_IDX_CFG c) 0 = true ∧ z ≠ s.rb (Adr.FB_IDX_CFG c) 3 ∧
        (4 ≤ gate ∨ h.st.toNat = gate))
      (on → h.refd = false → s.rb (Adr.FB_IDX_CFG c) 2 = false → Completes (.indexQualified c ⟨z, k⟩) s fun t =>
        (t.fbc.get c).org = h.count ∧ (t.fbc.get c).refd = true ∧ (t.fbc.get c).count = h.count ∧
        t.reg (Adr.FB_IDXCNT c) = s.reg (Adr.FB_IDXCNT c) + 1) ∧
      (on → h.refd = true → h.suspect = false → h.count = e → Completes (.indexQualified c ⟨z, k⟩) s fun t =>
        (t.fbc.get c).lost = false ∧ (t.fbc.get c).delta = 0 ∧ (t.fbc.get c).count = h.count ∧ t.ax = s.ax) ∧
      (on → h.refd = true → h.suspect = false →
        indexTol (s.rf (Adr.FB_IDX_TOL c) 15 0) (s.reg (Adr.FB_IDX_PERIOD c)).toNat < (h.count - e).natAbs →
        Completes (.indexQualified c ⟨z, k⟩) s fun t => (t.fbc.get c).suspect = true ∧ (t.fbc.get c).count = h.count ∧
          t.rb Adr.EVT_PEND_HI 6 = true ∧
          ∀ x : AxisId, (s.ax.get x).fbA.chan = c.val → (s.ax.get x).fbA.corr = 1 → (t.ax.get x).tt.faulted.isSome = true) ∧
      (s.fbMode c = 0 ∨ h.valid = false ∨ s.rb (Adr.FB_IDX_CFG c) 0 = false ∨ z = s.rb (Adr.FB_IDX_CFG c) 3 →
        Completes (.indexQualified c ⟨z, k⟩) s fun t => (t.fbc.get c).z = z ∧ (t.fbc.get c).count = h.count ∧
          (t.fbc.get c).org = h.org ∧ t.regs = s.regs ∧ t.ax = s.ax))

/-- The writes of feedback (R286, R294, R295, R297): a mode that is not 0 changes to another only by way of 0, else CFG_IGNORED is set;
a mode that changes ends VALID. REVAL checks a channel that is not VALID, SETCNT takes FBc_SET as the count and clears LOST, a 1
written to SUSPECT clears it and REF, and so does every write of an index setting; soft limits that would stand in the wrong order are
ignored, and others clamp the count,
which then counts as held at the limit (the model's reading, log 206). -/
def Obligations.FeedbackWrites : Prop :=
  ∀ (s : State) (m : Master) (c : Fin 24) (w : Word),
    let h := s.fbc.get c
    let n := fld (s.written m (Adr.FB_CFG c) w) 1 0
    (Acts s m (Adr.FB_CFG c) 0xFF → s.fbMode c ≠ 0 → n ≠ 0 → Completes (.fbCfgWrite m c w) s fun t =>
      t.rb (Adr.FB_STAT c) 11 = true ∧ t.reg (Adr.FB_CFG c) = s.reg (Adr.FB_CFG c) ∧ t.fbc = s.fbc) ∧
    (Acts s m (Adr.FB_CFG c) 0xFF → s.fbMode c = 0 ∨ n = 0 → n ≠ s.fbMode c → Completes (.fbCfgWrite m c w) s fun t =>
      t.fbMode c = n ∧ (t.fbc.get c).valid = false ∧ (t.fbc.get c).check = decide (n ≠ 0) ∧ (t.fbc.get c).count = h.count ∧
      ∀ d : Fin 24, d ≠ c → t.fbc.get d = s.fbc.get d) ∧
    (Acts s m (Adr.FB_CTL c) 1 → s.fbMode c ≠ 0 → h.valid = false → Completes (.fbReval m c) s fun t =>
      t.fbc.get c = { h with check := true, reval := true, ampOut := 0 }) ∧
    (Acts s m (Adr.FB_CTL c) 1 → s.fbMode c = 0 ∨ h.valid = true → Completes (.fbReval m c) s fun t => t.fbc = s.fbc) ∧
    (Acts s m (Adr.FB_CTL c) 2 → s.slMin c ≤ s.slMax c →
      let v := if s.fbMode c = 1 then withLow (s.reg48 (Adr.FB_SET_LO c)) (s.phaseBits c h.phi) else s.reg48 (Adr.FB_SET_LO c)
      Completes (.fbSetcnt m c) s fun t => (t.fbc.get c).count = clampInt (s.slMin c) (s.slMax c) v ∧ t.ax = s.ax ∧
        (s.slMin c ≤ v → v ≤ s.slMax c → (t.fbc.get c).lost = false ∧ (t.fbc.get c).satLo = false ∧ (t.fbc.get c).satHi = false)) ∧
    (Acts s m (Adr.FB_STAT c) 16 → exec (.fbSuspectClear m c) s = .next (s.modFbc c fun h => { h with suspect := false, refd := false })) ∧
    (∀ a ∈ [Adr.FB_IDX_CFG c, Adr.FB_IDX_TOL c, Adr.FB_IDX_PERIOD c, Adr.FB_IDX_REF_LO c, Adr.FB_IDX_REF_LO c + 4],
      Acts s m a 0xFFFFFFFF → Completes (.fbIndexConfigWrite m a w) s fun t =>
        (t.fbc.get c).refd = false ∧ (t.fbc.get c).suspect = false ∧ (t.fbc.get c).count = h.count ∧ t.reg a = s.written m a w ∧
        (∀ d : Fin 24, d ≠ c → t.fbc.get d = s.fbc.get d) ∧ (a = Adr.FB_IDX_PERIOD c ∨ a = Adr.FB_IDX_REF_LO c → t.reg a = w) ∧
        (a = Adr.FB_IDX_TOL c ∨ a = Adr.FB_IDX_REF_LO c + 4 → t.rf a 15 0 = fld w 15 0) ∧
        (a = Adr.FB_IDX_CFG c → t.rf a 3 0 = fld w 3 0 ∧ t.rf a 6 4 = min 4 (fld w 6 4))) ∧
    (∀ a ∈ [Adr.FB_SLMIN_LO c, Adr.FB_SLMIN_LO c + 4, Adr.FB_SLMAX_LO c, Adr.FB_SLMAX_LO c + 4], Acts s m a 0xFFFFFFFF →
      let u := s.setReg a (s.written m a w)
      (u.slMax c ≤ u.slMin c → Completes (.fbSoftLimitWrite m a w) s fun t => t.reg a = s.reg a ∧ t.fbc = s.fbc ∧
        t.rb (Adr.FB_STAT c) 11 = true) ∧
      (u.slMin c < u.slMax c → Completes (.fbSoftLimitWrite m a w) s fun t => t.reg a = s.written m a w ∧
        (a = Adr.FB_SLMIN_LO c ∨ a = Adr.FB_SLMAX_LO c → t.reg a = w) ∧
        (a = Adr.FB_SLMIN_LO c + 4 ∨ a = Adr.FB_SLMAX_LO c + 4 → t.rf a 15 0 = fld w 15 0) ∧
        (t.fbc.get c).count = clampInt (u.slMin c) (u.slMax c) h.count ∧
        ((t.fbc.get c).count = h.count → (t.fbc.get c).lost = h.lost) ∧
        (t.fbc.get c).satHi = (decide (u.slMax c < h.count) || (h.satHi && h.count == u.slMax c)) ∧ t.ax = s.ax))

/-- Probes and emulation (R303 to R306): a level that does not change does nothing; a probe that is off notes its edge and takes no
snapshot; one in single mode that is armed takes one at its edge, with the frame and the clock of the edge less the filter, and disarms.
An output's mode that is not 0 changes to another only by way of 0, else CFG_IGNORED is set; mode 0 ends its backlog and drives
state 0 with Z low, and so does mode 3, which is stored as 0 with CFG_IGNORED; mode 1 with a source that is no
channel in quadrature is stored as mode 0, with CFG_IGNORED. -/
def Obligations.ProbesAndEmulation : Prop :=
  (∀ (s : State) (q : Fin 16) (lv : Bool) (k : Nat), s.sys.powered = true →
    let cfg := s.reg (Adr.PRB_CFG q)
    ((lv != bitOf cfg 6) = (s.prb.get q).level → exec (.probeEdge q lv k) s = .next s) ∧
    ((lv != bitOf cfg 6) ≠ (s.prb.get q).level → fld cfg 5 4 = 0 → Completes (.probeEdge q lv k) s fun t =>
      (t.prb.get q).level = (lv != bitOf cfg 6) ∧ (∀ p : Fin 16, p ≠ q → t.prb.get p = s.prb.get p) ∧ t = { s with prb := t.prb }) ∧
    ((lv != bitOf cfg 6) = true → (s.prb.get q).level = false → fld cfg 5 4 = 1 → fld cfg 3 2 = 0 → bitOf cfg 0 = true →
      8 * fld cfg 23 16 + 2 ≤ k → Completes (.probeEdge q lv k) s fun t =>
        (t.prb.get q).level = true ∧ t.rb (Adr.PRB_CFG q) 0 = false ∧ t.rb (Adr.PRB_STAT q) 31 = true ∧
        t.rf (Adr.PRB_STAT q) 30 23 = (s.rf (Adr.PRB_STAT q) 30 23 + 1) % 256 ∧ t.rb (Adr.PRB_STAT q) 1 = false ∧
        t.reg (Adr.PRB_TS_FRAME q) = wd s.frm.count.toNat ∧ t.reg (Adr.PRB_TS_CLK q) = wd (k - (8 * fld cfg 23 16 + 2)) ∧
        t.rb Adr.EVT_PEND_HI 7 = true ∧ t.ax = s.ax)) ∧
  (∀ (s : State) (m : Master) (e : Fin 4) (w : Word), Acts s m (Adr.EMU_CFG e) 0xFFFFFF →
    let n := fld (s.written m (Adr.EMU_CFG e) w) 1 0
    (s.rf (Adr.EMU_CFG e) 1 0 ≠ 0 → n ≠ 0 → Completes (.emuCfgWrite m e w) s fun t => t.rb (Adr.EMU_STAT e) 2 = true ∧
      t.reg (Adr.EMU_CFG e) = s.reg (Adr.EMU_CFG e) ∧ t.emu = s.emu) ∧
    (n = 0 → Completes (.emuCfgWrite m e w) s fun t => t.rf (Adr.EMU_CFG e) 1 0 = 0 ∧ (fld w 1 0 = 3 →
      t.rb (Adr.EMU_STAT e) 2 = true) ∧ (t.emu.get e).backlog = 0 ∧
      (t.emu.get e).lines = 0 ∧ (t.emu.get e).z = false ∧ (t.emu.get e).count = (s.emu.get e).count ∧
        ∀ f : Fin 4, f ≠ e → t.emu.get f = s.emu.get f) ∧
    (s.rf (Adr.EMU_CFG e) 1 0 = 0 → n = 2 → Completes (.emuCfgWrite m e w) s fun t => t.rf (Adr.EMU_CFG e) 1 0 = 2 ∧
      (t.emu.get e).count = 0 ∧ (t.emu.get e).backlog = 0 ∧ (t.emu.get e).lines = 0) ∧
    (s.rf (Adr.EMU_CFG e) 1 0 = 0 → n = 1 → bitOf (s.written m (Adr.EMU_CFG e) w) 4 = false → Completes (.emuCfgWrite m e w) s fun t =>
      t.rf (Adr.EMU_CFG e) 1 0 = 0 ∧ t.rb (Adr.EMU_STAT e) 2 = true))

/-! ### Supervision and the Granary -/

/-- Monitors and supplies (R318, R319, R321 to R323, R326, R327, R335): a side of a VM entry, of a rail or of an
over-voltage monitor that registers is
set with its sticky bit, and its event where the rule gives one; a side that stands already does nothing. A chopper at its limit is held
off. A sweep starts with comparator 0 and event 45, by
itself where its interval has run out; a test that ends, after its 32 frames, goes on with the next comparator, and a failed one joins the
list; the unit's REF_ERR ends one at once without a verdict. A threshold whose HI is not above its LO is ignored; one of the comparator
under test is held until the test has ended; any other is stored, and a side of a VM entry whose value now lies beyond it registers
(R318). -/
def Obligations.Supplies : Prop :=
  ∀ s : State, s.sys.powered = true →
    (∀ d : DomainId, s.cmpOut (400 + d.val) = false →
      (s.cmp.vmLo.getLsbD d = false → Completes (.vmEntryLoTrip d) s fun t => t.cmp.vmLo.getLsbD d = true ∧
        t.rb Adr.CMP_VSTICKY d.val = true ∧ t.rb Adr.EVT_PEND_HI 9 = true ∧
        ∀ x ∈ axesOfDom d, (s.ax.get x).energised = true → (t.ax.get x).tt.faulted.isSome = true) ∧
      (s.cmp.vmLo.getLsbD d = true → exec (.vmEntryLoTrip d) s = .next s)) ∧
    (∀ u : CarrierId, s.cmpOut (ovCmp u) = false → (s.cu.get u).ov = false → Completes (.overvoltageMonitorTrip u) s fun t =>
      (t.cu.get u).ov = true ∧ (t.cu.get u).regen = true ∧ t.ax = s.ax ∧ ((s.cu.get u).ovSeen = false → t.rb Adr.EVT_PEND_HI 8 = true)) ∧
    (∀ u : CarrierId, s.cmpOut (ovCmp u) = true ∨ (s.cu.get u).ov = true → exec (.overvoltageMonitorTrip u) s = .next s) ∧
    (∀ b : DomainId, (s.atLimit b = true → Completes (.brakeChopperLimit b) s fun t => t.cmp.brkOff.getLsbD b = true ∧
        t.cmp.brkOn.getLsbD b = false ∧ t.rb Adr.CMP_BRKSTAT (16 + b.val) = true ∧ t.rb Adr.EVT_PEND_LO 31 = true ∧ t.ax = s.ax) ∧
      (s.atLimit b = false → exec (.brakeChopperLimit b) s = .next s)) ∧
    (∀ r : Fin 13, (s.cmp.railLo.getLsbD r = false → Completes (.railLoTrip r) s fun t => t.cmp.railLo.getLsbD r = true ∧
        t.rb Adr.CMP_RSTICKY r.val = true ∧ (s.railSilent r = true → t.ax = s.ax ∧ t.eq = s.eq) ∧
        (s.railSilent r = false → (if 5 ≤ r.val ∧ r.val ≤ 10 then t.rb Adr.EVT_PEND_HI 9 else t.rb Adr.EVT_PEND_HI 10) = true)) ∧
      (s.cmp.railHi.getLsbD r = false → Completes (.railHiTrip r) s fun t => t.cmp.railHi.getLsbD r = true ∧
        t.rb Adr.CMP_RSTICKY (16 + r.val) = true ∧ t.ax = s.ax ∧ (s.railSilent r = false → t.rb Adr.EVT_PEND_HI 10 = true)) ∧
      (s.cmp.railLo.getLsbD r = true → exec (.railLoTrip r) s = .next s) ∧ (s.cmp.railHi.getLsbD r = true → exec (.railHiTrip r) s = .next s)) ∧
    (∀ m : Master, s.cmp.sweep = none → m.admin = true → Completes (.cmpSweepWrite m) s fun t =>
      t.cmp = { s.cmp with sweep := some (0, 0), sweepAt := s.frm.count } ∧ t.rb Adr.EVT_PEND_HI 13 = true ∧ t.ax = s.ax ∧ t.cu = s.cu) ∧
    (s.rf Adr.CMP_CFG 27 16 = 0 ∨ s.since s.cmp.sweepFrom < s.rf Adr.CMP_CFG 27 16 * s.hz → exec .comparatorSweepStart s = .next s) ∧
    (s.cmp.sweep = none → s.rf Adr.CMP_CFG 27 16 ≠ 0 → s.rf Adr.CMP_CFG 27 16 * s.hz ≤ s.since s.cmp.sweepFrom →
      Completes .comparatorSweepStart s fun t =>
        t.cmp = { s.cmp with sweep := some (0, 0), sweepAt := s.frm.count, sweepFrom := s.frm.count } ∧
        t.rb Adr.EVT_PEND_HI 13 = true ∧ t.ax = s.ax ∧ t.cu = s.cu) ∧
    (∀ (id n : Nat) (o : TestOutcome), s.cmp.sweep = some (id, n) → id < 431 →
      (s.refErrOf id = true → Completes (.comparatorTestEnd o) s fun t => t.cmp.sweep = some (id + 1, n) ∧ t.cmp.failed = s.cmp.failed ∧
        id ∈ t.cmp.fallback ∧ t.rb Adr.EVT_PEND_HI 13 = true) ∧
      (s.refErrOf id = false → s.since s.cmp.sweepAt < 32 ∨ o = .refErr → exec (.comparatorTestEnd o) s = .next s) ∧
      (s.refErrOf id = false → 32 ≤ s.since s.cmp.sweepAt → o ≠ .refErr →
        (s.cmp.heldWr = none → Completes (.comparatorTestEnd o) s fun t =>
          t.cmp.sweep = some (id + 1, n + if o = .failed then 1 else 0) ∧ t.cmp.sweepAt = s.frm.count ∧
          (o = .failed → id ∈ t.cmp.failed ∧ t.cu = s.cu) ∧ (o = .passed → id ∈ t.cmp.fallback ∧ id ∉ t.cmp.failed)) ∧
        (∀ (a : Nat) (v : Word), s.cmp.heldWr = some (a, v) → cmpOfReg a = some id → Completes (.comparatorTestEnd o) s fun t =>
          t.reg a = v ∧ t.cmp.heldWr = none))) ∧
    (∀ (m : Master) (a id : Nat) (w : Word), cmpOfReg a = some id → Acts s m a 0xFFFFFFFF →
      let v := s.written m a w
      (id < 407 ∨ 432 ≤ id → winHi v ≤ winLo v → Completes (.cmpThresholdWrite m a w) s fun t =>
        t.reg a = s.reg a ∧ t.cmp = s.cmp ∧ t.cu = s.cu ∧ t.rb Adr.CMP_STAT 30 = true) ∧
      ((407 ≤ id ∧ id < 432) ∨ winLo v < winHi v →
        (∀ n : Nat, s.cmp.sweep = some (id, n) →
          exec (.cmpThresholdWrite m a w) s = .next { s with cmp := { s.cmp with heldWr := some (a, v) } }) ∧
        (s.cmp.sweep.map Prod.fst ≠ some id → Completes (.cmpThresholdWrite m a w) s fun t => t.reg a = v ∧ t.frm = s.frm ∧
          t.cmp.sweep = s.cmp.sweep ∧ t.cmp.heldWr = s.cmp.heldWr ∧
          ∀ d : DomainId, id = 400 + d.val → s.cmpOut id = false →
            let mv := s.cmp.vmMv.getD d 0
            let step := vmStep (d.val == 6)
            (mv < winLo v * step → t.cmp.vmLo.getLsbD d = true) ∧ (winHi v * step < mv → t.cmp.vmHi.getLsbD d = true) ∧
            (winLo v * step ≤ mv → mv ≤ winHi v * step → t.cmp = s.cmp ∧ t.ax = s.ax ∧ ∀ b : Nat, b ≠ a → t.reg b = s.reg b)))) ∧
    (s.carriers = false ∨ s.frm.count.toNat % 1024 ≠ 0 → exec .granaryDeratingUpdate s = .next s) ∧
    (s.carriers = true → s.frm.count.toNat % 1024 = 0 → Completes .granaryDeratingUpdate s fun t =>
      ∀ p : DomainId, p.val < 6 → (t.pool.get p).d = s.derating (s.tileTemp p))

/-- The HI side of a VM entry (R324): its trip blocks regeneration in every bay of the domain and requests the domain's chopper, and raises
VM_OV with cause 1 once for each registration, whose record goes out at once where no chopper that it starts is told first (R410); no
axis is faulted. A side that stands does not register again. -/
def Obligations.HighVmEntry : Prop :=
  ∀ (s : State) (d : DomainId), s.sys.powered = true → s.cmpOut (400 + d.val) = false →
    (s.cmp.vmHi.getLsbD d = false → s.cmp.vmHiUnset.getLsbD d = false → Completes (.vmEntryHiTrip d) s fun t =>
      t.cmp.vmHi.getLsbD d = true ∧ (∀ u ∈ unitsOf d, (t.cu.get u).regen = true) ∧ t.cmp.brkReq.getLsbD d = true ∧
      t.reg (Adr.EVT_CNT 40) = satInc (s.reg (Adr.EVT_CNT 40)) ∧ t.rb Adr.EVT_PEND_HI 8 = true ∧ t.ax = s.ax ∧
      (s.evEnabled 40 = true → s.eq.enabled = true → s.hif.linkUp = true → s.eqUsed < 2 ^ s.eqSize - 1 → s.eq.dropped = 0 →
        s.gather = none → (∀ b : DomainId, s.rb (Adr.CMP_BRK b) 31 = false) →
        ∃ o a f l, t.out = s.out ++ .dmaWrite o a
          ((⟨40, 0x1D0 + d.val, s.eq.seq, s.frm.count, 1, wd (s.cmp.vmMv.getD d 0)⟩ : EvRec).bytes f) :: l)) ∧
    (s.cmp.vmHi.getLsbD d = true → exec (.vmEntryHiTrip d) s = .next s)

/-! ### The line -/

/-- Frames of the line (R344, R346 to R348, R351, R352, R356, R357, R360): a station that is off takes none, and its own frame that comes
back ends there; one that fails its check is counted and does nothing else; one that is accepted is forwarded, and brings what its type
carries: arrivals join the tally the first time that their frame comes, a snapshot command the schedule, a report the reports; a ping
from station 0 measures the delay of its port at a station that is not joined and begins its lock, and station 0 answers a ping; a status
marks its station as joined, at its ring position, with its stop or without; a reset from station 0 begins the follower's part in it, at
the place that it finds (log 210), where it has or can take the rate, and one that comes again adds its stations. -/
def Obligations.LineFrames : Prop :=
  ∀ (s : State) (p : Fin 2) (b : List Byte) (ns clk : Nat) (pos : Fin 8) (size : Fin 9) (rate : Fin 4),
    let o := u8 b 1 % 8
    let y := payload b
    let fw : List Output := if s.portUp (1 - p) then [.lineFrame (1 - p) b] else []
    let theirs := (List.range 8).map (placeOf y)
    (∀ c : Instr, c ∈ [.lineStatusReceive p ⟨b, pos⟩, .lineArriveReceive p b, .lineSnapCmdReceive p b, .lineSnapDoneReceive p b,
        .linePingReceive p b ⟨ns, clk⟩, .lineResetReceive p ⟨b, pos, size, rate⟩] →
      (s.line.mode = .off → exec c s = .next s) ∧
      (s.line.mode ≠ .off → o = s.station → frameOk b = true → exec c s = .next (s.modLine fun l =>
        { l with round := l.round.map fun r => r || u64 b 4 == s.frm.count.toNat })) ∧
      (s.line.mode ≠ .off → frameOk b = false → Completes c s fun t => t.line.peers = s.line.peers ∧ t.line.mode = s.line.mode ∧
        t.line.tally = s.line.tally ∧ t.rf (Adr.LINE_PORT_ERR p) 15 0 = min (s.rf (Adr.LINE_PORT_ERR p) 15 0 + 1) 65535 ∧ t.frm = s.frm ∧
        t.ax = s.ax)) ∧
    (Accepted s 2 b → Completes (.lineArriveReceive p b) s fun t => t.out = s.out ++ fw ∧ t.regs = s.regs ∧ t.ax = s.ax ∧
      t.line.tally = s.line.tally ++ if ((s.line.peer o).take (128 ≤ u8 b 1) 2 (frameOf b) (b.getD 2 0)).2
        then arrivalsOf o (frameOf b - 1) (y.length / 8) y else []) ∧
    (Accepted s 3 b → s.line.mode = .joined → (∀ x ∈ s.line.snaps, ¬ (x.issuer = o ∧ x.frame = BitVec.ofNat 64 (u64 y 0))) →
      Completes (.lineSnapCmdReceive p b) s fun t => t.out = s.out ++ fw ∧ t.regs = s.regs ∧
        t.line.snaps = s.line.snaps ++ [⟨o, BitVec.ofNat 64 (u64 y 0), axisMask y 8, false, 0⟩]) ∧
    (Accepted s 4 b → (∀ r ∈ s.line.dones, ¬ (r.issuer = u8 y 8 ∧ r.frame = BitVec.ofNat 64 (u64 y 0) ∧ r.station = o)) →
      Completes (.lineSnapDoneReceive p b) s fun t => t.out = s.out ++ fw ∧ t.regs = s.regs ∧
        t.line.dones = s.line.dones ++ [⟨u8 y 8, BitVec.ofNat 64 (u64 y 0), o, u8 y 9 == 1, u16 y 10⟩]) ∧
    (Accepted s 6 b → o = 0 → Completes (.linePingReceive p b ⟨ns, clk⟩) s fun t => t.out = s.out ++ fw ∧ t.regs = s.regs ∧
      if s.line.mode = .joined then t.line.mode = .joined ∧ t.line.measured = s.line.measured ∧ t.line.delay0 = s.line.delay0 ∧
        t.line.delay1 = s.line.delay1
      else t.line.measured = s.line.measured ||| BitVec.ofNat 2 (2 ^ p.val) ∧
        t.line.delay0 = (if p = 0 then min ns 65535 else s.line.delay0) ∧
        t.line.delay1 = (if p = 0 then s.line.delay1 else min ns 65535) ∧ (p = t.line.lockPort → t.line.port = p) ∧
        if s.line.mode = .search ∨ s.line.mode = .isolated then t.line.mode = .locking ∧ t.line.joinAt = some s.frm.count
        else t.line.mode = s.line.mode ∧ t.line.joinAt = s.line.joinAt) ∧
    (Accepted s 6 b → s.station = 0 → s.line.mode = .joined → Completes (.linePingReceive p b ⟨ns, clk⟩) s fun t => t.regs = s.regs ∧
      t.line.tx0 = s.line.tx0 + BitVec.ofNat 8 (b2n (s.portUp 0)) ∧ t.line.tx1 = s.line.tx1 + BitVec.ofNat 8 (b2n (s.portUp 1)) ∧
      t.line.mode = .joined) ∧
    (Accepted s 1 b → s.line.mode = .joined → Completes (.lineStatusReceive p ⟨b, pos⟩) s fun t => t.line.mode = .joined ∧
      t.line.present.getLsbD o = true ∧ t.frm.count = s.frm.count ∧
      t.line.map = (s.line.map.map fun q => if q = some o then none else q).set pos.val (some o) ∧
      (u8 y 0 ≠ 0 → t.line.estop.getLsbD o = true) ∧
      (u8 y 0 = 0 → (s.line.peer o).estop = true ∨ frameLt (s.line.peer o).stopAt (frameOf b) = true → t.line.estop.getLsbD o = false)) ∧
    (Accepted s 5 b → o = 0 → s.line.reset = none →
      (rate = s.frm.rate → Completes (.lineResetReceive p ⟨b, pos, size, rate⟩) s fun t => t.line.mode = .locking ∧ t.line.pos = pos.val ∧
        t.line.size = size.val ∧ t.line.measured = 0 ∧ t.line.map = theirs ∧
        t.frm = s.frm ∧ t.regs = s.regs ∧ t.line.reset = some ⟨s.frm.count, theirs, theirs.contains (some s.station)⟩) ∧
      (rate ≠ s.frm.rate → (∀ x : AxisId, (s.ax.get x).isParked = true) → Completes (.lineResetReceive p ⟨b, pos, size, rate⟩) s fun t =>
        t.line.mode = .locking ∧ t.frm = { s.frm with rate := rate } ∧ t.line.reset.isSome = true) ∧
      (rate ≠ s.frm.rate → (∃ x : AxisId, (s.ax.get x).isParked = false) → Completes (.lineResetReceive p ⟨b, pos, size, rate⟩) s fun t =>
        t.line.mode = .search ∧ t.line.reset = none ∧ t.frm = s.frm ∧ t.regs = s.regs)) ∧
    (∀ r : LineReset, Accepted s 5 b → s.line.reset = some r → r.places.contains (some s.station) = false →
      Completes (.lineResetReceive p ⟨b, pos, size, rate⟩) s fun t => t.line.map = mergePlaces r.places theirs ∧ t.frm = s.frm ∧
        t.line.reset = some ⟨r.start, mergePlaces r.places theirs, r.twin || theirs.contains (some s.station)⟩)

/-- The line between frames (R28, R345, R348, R349, R351 to R356, R358, R363): a tick marker on the lock port, or on the one port of
a chain, gives the phase error and the trim of the next frame, and a slip's event 52; a stop is set for its station, the first with event
51 and, with ACT 0, every energised axis FAULTED, and bytes that do not match are no stop; a stop that the station originated is cleared by
it. A cut station is isolated and joins none; a port goes down with event 48 and comes up again; a station that has measured and locked for
two frames, and has or can take the rate, joins with the counter, and a reset makes its stations joined at counter 0. A station that is
disabled keeps its own stop, its ports and its ALIVE counts. -/
def Obligations.LineState : Prop :=
  ∀ (s : State) (p : Fin 2),
    (∀ k : Nat, (s.line.mode = .off ∨ s.station = 0 → exec (.tickMarkerReceive p k) s = .next s) ∧
      (s.line.mode ≠ .off → s.station ≠ 0 → p = s.line.lockPort ∨ s.line.topo = 1 →
        let e := s.phaseError (s.line.delayOn p) k
        Completes (.tickMarkerReceive p k) s fun t =>
          t.line.err = e ∧ t.line.port = p ∧ t.line.gotTick = true ∧ t.line.missed = 0 ∧ t.line.locked = decide (e.natAbs ≤ 10) ∧ t.ax = s.ax ∧
          t.line.trimNext = (if 10 < e.natAbs then e else clampInt (-2) 2 e) ∧
          (s.line.mode = .joined → 10 < e.natAbs → t.rb Adr.EVT_PEND_HI 20 = true) ∧ (e.natAbs ≤ 10 → t.regs = s.regs)) ∧
      (s.line.mode ≠ .off → s.station ≠ 0 → p ≠ s.line.lockPort → s.line.topo ≠ 1 → Completes (.tickMarkerReceive p k) s fun t =>
        t.line = (if p = 0 then { s.line with tick0 := some k } else { s.line with tick1 := some k }) ∧ t.regs = s.regs ∧ t.ax = s.ax)) ∧
    (∀ data inv : Byte,
      let o := data.toNat % 8
      (inv ≠ ~~~data → exec (.estopMarkerReceive p data inv) s = .next s) ∧
      (inv = ~~~data → s.line.mode ≠ .off → o ≠ s.station →
        (data.getLsbD 7 = true → s.line.estop = 0 → Completes (.estopMarkerReceive p data inv) s fun t => t.line.estop.getLsbD o = true ∧
          t.rb Adr.EVT_PEND_HI 19 = true ∧ (s.rf Adr.LINE_CFG 8 8 = 0 → ∀ x : AxisId, (s.ax.get x).energised = true →
            (t.ax.get x).tt.faulted.isSome = true)) ∧
        (data.getLsbD 7 = true → s.line.estop ≠ 0 → Completes (.estopMarkerReceive p data inv) s fun t =>
          t.line.estop = s.line.estop ||| BitVec.ofNat 8 (2 ^ o) ∧ t.ax = s.ax ∧ t.regs = s.regs) ∧
        (data.getLsbD 7 = false → Completes (.estopMarkerReceive p data inv) s fun t => t.line.estop.getLsbD o = false ∧ t.ax = s.ax))) ∧
    (∀ m : Master, Acts s m Adr.LINE_CTL 0 →
      (s.line.own = none → Completes (.lineCtlEstop m) s fun t => t.line.own = some 0 ∧ t.line.estop.getLsbD s.station = true) ∧
      (s.line.own.isSome = true → Completes (.lineCtlEstop m) s fun t => t.line = s.line ∧ t.ax = s.ax) ∧
      (s.line.own.isSome = true → Completes (.lineCtlEstopClr m) s fun t => t.line.own = none ∧
        t.line.estop.getLsbD s.station = false ∧ t.ax = s.ax) ∧
      (s.line.own = none → Completes (.lineCtlEstopClr m) s fun t => t.line = s.line ∧ t.ax = s.ax)) ∧
    (∀ m : Master, Acts s m Adr.LINE_CTL 1 → s.line.mode ≠ .off → Completes (.lineCtlReset m) s fun t => t.frm = s.frm ∧
      if s.station = 0 then t.line.reset.any (fun r => r.start == s.frm.count + 1 && r.places.filterMap id == [0]) = true ∧ t.line.pos = 0
      else t.line = s.line) ∧
    (s.station ≠ 0 → s.line.mode = .joined ∨ s.line.mode = .locking → s.line.gotTick = false ∨ s.line.up = 0 →
      Completes .lineCutOff s fun t => t.line.mode = .isolated ∧ t.line.present = 0 ∧ t.line.bars = [] ∧ t.line.tally = [] ∧
      t.frm.count = s.frm.count ∧ ∀ o < 8, o ≠ s.station → t.line.estop.getLsbD o = false) ∧
    (s.station = 0 ∨ (s.line.gotTick = true ∧ s.line.up ≠ 0) → exec .lineCutOff s = .next s) ∧
    (s.portUp p = true → Completes (.linePortDown p false) s fun t => t.portUp p = false ∧ t.portUp (1 - p) = s.portUp (1 - p) ∧
      t.rb Adr.EVT_PEND_HI 16 = true) ∧
    (s.portUp p = false → exec (.linePortDown p false) s = .next s ∧
      Completes (.linePortUp p) s fun t => t.portUp p = true ∧ t.portUp (1 - p) = s.portUp (1 - p) ∧ t.frm = s.frm ∧ t.ax = s.ax) ∧
    (s.portUp p = true → exec (.linePortUp p) s = .next s) ∧
    (∀ (n : FrameNo) (places : List (Option Nat)),
      (s.station ≠ 0 → s.line.mode = .locking → s.line.locked = true → s.line.missed = 0 →
        s.line.joinAt.any (fun f => frameLe (f + 2) s.frm.count) = true →
        (s.line.peer 0).seen = none ∨ (Fin.ofNat 4 (s.line.peer 0).rate = s.frm.rate) ∨ (∀ x : AxisId, (s.ax.get x).isParked = true) →
        Completes (.lineJoin ⟨n, places⟩) s fun t => t.line.mode = .joined ∧ t.frm.count = n ∧
        t.line.present.getLsbD s.station = true ∧ t.line.map = (List.range 8).map (fun i => places.getD i none) ∧
        t.rb Adr.EVT_PEND_HI 20 = true) ∧
      (s.station = 0 ∨ s.line.mode ≠ .locking ∨ s.line.locked = false ∨ s.line.joinAt = none → exec (.lineJoin ⟨n, places⟩) s = .next s)) ∧
    (∀ r : LineReset, s.line.reset = some r →
      (∀ n : Fin 9, s.frm.count = r.start + BitVec.ofNat 64 n.val → n ≠ 0 → (r.places.drop n.val).any Option.isSome = false →
        Completes .lineEpoch s fun t => t.line.mode = .joined ∧ t.line.map = onceOnly r.places ∧ t.line.size = n.val ∧
        t.frm.count = 0 ∧ t.line.present.getLsbD s.station = true ∧ t.line.reset = none ∧ t.rb Adr.EVT_PEND_HI 21 = true) ∧
      ((∀ n : Fin 9, n ≠ 0 → s.frm.count ≠ r.start + BitVec.ofNat 64 n.val) → exec .lineEpoch s = .next s)) ∧
    (s.line.reset = none → exec .lineEpoch s = .next s) ∧
    (∀ (i : Word) (b : LineBar),
      s.line.bars.find? (fun b => b.id == i && !b.released && b.full.any fun f => frameLe (f + 2) s.frm.count) = some b →
      Completes (.lineBarrierRelease i) s fun t => t.line.bars = s.line.bars.replace b { b with who := [], released := true } ∧
        t.rb Adr.EVT_PEND_HI 17 = true) ∧
    (∀ (m : Master) (w : Word), Acts s m Adr.LINE_CFG 0 →
      (s.rb Adr.LINE_CFG 0 = false → bitOf (s.written m Adr.LINE_CFG w) 0 = true → (∀ r ∈ s.frm.adm, r.kind ≠ .line) →
        Completes (.lineEnable m w) s fun t => t.rb Adr.LINE_CFG 0 = false ∧ t.line = s.line ∧
          t.frm = (s.ask .line s.frm.count).frm) ∧
      (s.rb Adr.LINE_CFG 0 = true → bitOf (s.written m Adr.LINE_CFG w) 0 = false → Completes (.lineEnable m w) s fun t =>
        t.rb Adr.LINE_CFG 0 = false ∧ t.line.mode = .off ∧ t.frm.lineCost = false ∧ t.line.up = s.line.up ∧ t.line.own = s.line.own ∧
        t.line.tx0 = s.line.tx0 ∧ t.line.tx1 = s.line.tx1))

/-! ### The Weighbridge -/

/-- Metering and standby (R367, R369, R370, R373 to R379, R382, R404): a sample adds each domain's energy by its shunt, tells over-range, and
installs a committed table; a second counts power-on time, and run time where an axis ran. A checkpoint that finishes copies the standby
contents. VBAT may be lost with VAUX on or off, and the contents go with the second of the two. The check at power-up restores them where
they went, with a record; the clock counts at each edge or takes its setting; a tamper input that departs or returns is counted, with VAUX
or without, and so is one that a new normal level makes depart (log 234). -/
def Obligations.Metering : Prop :=
  ∀ s : State,
    (s.sys.powered = false → (∀ l : List (Int × Nat), exec (.wbEnergySample l) s = .next s) ∧ exec .wbRtcSecond s = .next s ∧
      ∀ f : Bool, exec (.wbCheckpoint f) s = .next s) ∧
    (∀ (l : List (Int × Nat)) (d : Nat) (n : Int) (v : Nat), s.sys.powered = true → s.wb.tblGo = false → d < 7 → l.length = 7 →
      l[d]? = some (n, v) → Completes (.wbEnergySample l) s fun t =>
        t.wb.sb.energy.getD d ⟨0, 0, (0, 1), (0, 1)⟩ = (s.wb.sb.energy.getD d ⟨0, 0, (0, 1), (0, 1)⟩).take n v (s.wb.table.rs.getD d 5000) ∧
        t.rb Adr.WB_DOM_STAT d = decide (50000000 < n.natAbs) ∧ t.wb.table = s.wb.table ∧ t.wb.log = s.wb.log ∧ t.ax = s.ax) ∧
    (∀ l : List (Int × Nat), s.sys.powered = true → s.wb.tblGo = true → Completes (.wbEnergySample l) s fun t =>
      t.wb.table = s.stagedTable ∧ t.wb.tblGo = false ∧ logged t 6 0 = true ∧
      (s.stagedTable.tampNorm ≠ s.wb.table.tampNorm → t.wb.tampDue = 131)) ∧
    (s.sys.powered = true → Completes .wbRtcSecond s fun t => t.wb.sb.powerS = s.wb.sb.powerS + 1 ∧
      t.wb.sb.runS = s.wb.sb.runS + b2n s.wb.ran ∧ t.wb.ran = false ∧ t.wb.sb.energy = s.wb.sb.energy ∧ t = { s with wb := t.wb }) ∧
    (s.sys.powered = true → exec (.wbCheckpoint false) s = .next s ∧ Completes (.wbCheckpoint true) s fun t => t.wb.ckpt = s.wb.sb ∧
      t.wb.sb = s.wb.sb ∧ (s.rb Adr.GCTL_PWR 0 = true → t.sys.prepCkpt = true) ∧ t.regs = s.regs) ∧
    (s.sys.powered = true → exec .vbatFall s = .next (s.modWb fun w => { w with vbatLow := true })) ∧
    (s.sys.powered = false → Completes .vbatFall s fun t => t.wb.vbatLow = true ∧ t.wb.lostSb = true ∧ t.wb.away = 0 ∧
      t.rf Adr.WB_STAT 11 10 = 0 ∧ t.ax = s.ax) ∧
    (s.sys.powered = true → Completes .vauxFall s fun t => t.wb.lostSb = (s.wb.vbatLow || s.wb.lostSb)) ∧
    (s.sys.powered = true → s.wb.checked = false → (s.wb.lostSb = false →
      exec .wbStandbyCheck s = .next (s.modWb fun w => { w with checked := true })) ∧
      (s.wb.lostSb = true → Completes .wbStandbyCheck s fun t => t.wb.checked = true ∧ t.wb.lostSb = false ∧
        t.wb.sb = { s.wb.ckpt with rtcValid := false, audit := max s.wb.ckpt.audit s.wb.logAudit } ∧ logged t 4 0 = true)) ∧
    (∀ m : Master, Acts s m Adr.WB_CTL 4 → (s.seal = 0 → Completes (.wbRtcGo m) s fun t =>
        t.wb = { s.wb with rtcSet := some (s.reg64 Adr.WB_RTC_SET_LO) }) ∧
      (s.seal ≠ 0 → s.wb.sb.rtcValid = true → 300 * 32768 < ((s.reg64 Adr.WB_RTC_SET_LO : Int) - s.wb.sb.rtc).natAbs →
        Completes (.wbRtcGo m) s fun t => t.wb = s.wb ∧ t.rb Adr.WB_STAT 15 = true)) ∧
    (s.sys.powered = true → s.wb.rtcSet = none → s.wb.tampDue ≠ 1 → Completes .wbSlowClockEdge s fun t => t.wb.sb.rtc = (s.wb.sb.rtc + 1) % 2 ^ 64 ∧
      t.wb.copy = (if s.wb.snap = false ∧ s.wb.hold = true then s.wb.copy else t.wb.sb) ∧ t.wb.hold = (s.wb.snap || s.wb.hold) ∧
      t.wb.snap = false ∧ t = { s with wb := t.wb }) ∧
    (s.wb.lostSb = false → s.wb.tampDue = 1 → Completes .wbSlowClockEdge s fun t => t.wb.tampDue = 0 ∧ ∀ i : Fin 2,
      s.wb.table.tampEn.getLsbD i = true → t.wb.away.getLsbD i = (s.wb.level.getLsbD i != s.wb.table.tampNorm.getLsbD i)) ∧
    (∀ v : Nat, s.sys.powered = true → s.wb.rtcSet = some v → s.wb.tampDue ≠ 1 → Completes .wbSlowClockEdge s fun t => t.wb.sb.rtc = v ∧
      t.wb.sb.rtcValid = true ∧ t.wb.rtcSet = none ∧ logged t 5 0 = true) ∧
    (∀ m : Master, Acts s m Adr.WB_CTL 1 → Completes (.wbSnap m) s fun t => t.wb = { s.wb with snap := true } ∧ t.ax = s.ax) ∧
    (exec .wbSnapHoldEnd s = .next (s.modWb fun w => { w with hold := false })) ∧
    (∀ (i : Fin 2) (away : Bool),
      (s.sys.powered = false → s.wb.lostSb = true → exec (.tamperChange i away) s = .next s) ∧
      (s.wb.lostSb = false → s.wb.table.tampEn.getLsbD i = false ∨ s.wb.away.getLsbD i = away → exec (.tamperChange i away) s =
        .next (s.modWb fun w => { w with level := withBit w.level i (away != w.table.tampNorm.getLsbD i) })) ∧
      (s.wb.lostSb = false → s.wb.table.tampEn.getLsbD i = true → s.wb.away.getLsbD i ≠ away → Completes (.tamperChange i away) s fun t =>
        t.wb.level.getLsbD i = (away != s.wb.table.tampNorm.getLsbD i) ∧
        t.wb.away.getLsbD i = away ∧ t.rb Adr.WB_STAT (10 + i.val) = true ∧
        (if i = 0 then t.wb.sb.tamp0 = min (s.wb.sb.tamp0 + 1) 65535 ∧ t.wb.sb.tamp1 = s.wb.sb.tamp1
          else t.wb.sb.tamp1 = min (s.wb.sb.tamp1 + 1) 65535 ∧ t.wb.sb.tamp0 = s.wb.sb.tamp0) ∧ t.ax = s.ax))

/-- Seal, installs and signed records (R381 to R385, R388): a change of the pad is recorded; an install runs only while the pad is strapped,
on the package that INSTALL found staged (log 237), through VERIFY, WRITE, COMMIT and RESTART, each refused with its reason in a record,
and COMMIT adds one to the audit counter; the table is not committed on a sealed variant. A request that is in range
takes the nonce and the frame, one that is not or that finds the
Weighbridge busy is ignored; its record is delivered with the next record number. -/
def Obligations.SealAndRecords : Prop :=
  ∀ (s : State) (m : Master),
    (∀ b : Bool, (s.wb.pad = b → exec (.sealPadChange b) s = .next s) ∧
      (s.sys.powered = true → s.wb.pad ≠ b → s.wb.inst = 0 → Completes (.sealPadChange b) s fun t => t.wb.pad = b ∧
        logged t 7 (b2n b) = true ∧ t.wb.inst = 0 ∧ t.ax = s.ax)) ∧
    (s.sys.powered = true → s.wb.pad = true → s.wb.inst = 1 ∨ s.wb.inst = 2 → Completes (.sealPadChange false) s fun t => t.wb.pad = false ∧
      t.wb.inst = 0 ∧ t.wb.work = none ∧ t.wb.pkg = none ∧ t.wb.reason = 3 ∧ logged t 2 3 = true) ∧
    (Acts s m Adr.WB_TBL_COMMIT 1 → Completes (.wbTblCommit m) s fun t => t.ax = s.ax ∧
      if s.sys.sealedVariant then t.wb = s.wb ∧ t.rb Adr.WB_STAT 14 = true else t.wb = { s.wb with tblGo := true }) ∧
    (Acts s m Adr.WB_CTL 8 → Completes (.wbInstall m) s fun t => t.ax = s.ax ∧
      if s.wb.pad = true ∧ s.wb.inst = 0 then t.wb = { s.wb with inst := 1, work := s.wb.pkg } else t.wb = s.wb ∧ t.rb Adr.WB_STAT 14 = true) ∧
    (∀ g : Bool, s.wb.inst = 1 → (s.verifyReason g = none → exec (.wbInstallVerifyDone g) s = .next (s.modWb fun w => { w with inst := 2 })) ∧
      ∀ r : Nat, s.verifyReason g = some r → Completes (.wbInstallVerifyDone g) s fun t => t.wb.inst = 0 ∧ t.wb.pkg = none ∧
        t.wb.reason = r ∧ t.wb.sb = s.wb.sb ∧ logged t 2 r = true) ∧
    (∀ g : Bool, s.wb.inst ≠ 1 → exec (.wbInstallVerifyDone g) s = .next s) ∧
    (s.wb.inst = 2 → exec (.wbInstallWriteDone true) s = .next (s.modWb fun w => { w with inst := 3 }) ∧
      Completes (.wbInstallWriteDone false) s fun t => t.wb.inst = 0 ∧ t.wb.pkg = none ∧ t.wb.reason = 5 ∧ logged t 2 5 = true) ∧
    (∀ q : WbPkg, s.wb.inst = 3 → s.wb.work = some q → Completes .wbInstallCommitDone s fun t => t.wb.inst = 4 ∧
      t.wb.sb.audit = s.wb.sb.audit + 1 ∧ t.wb.table = (if q.isTable then tableOf q.table else s.wb.table) ∧ logged t 1 0 = true) ∧
    (∀ q : WbPkg, s.wb.inst = 4 → s.wb.work = some q → Completes .wbInstallRestartDone s fun t => t.wb.inst = 0 ∧ t.wb.work = none ∧
      t.wb.pkg = s.wb.pkg ∧
      (q.isTable = false → t.wb.ver = q.version ∧ t.wb.crc = q.crc) ∧ (q.isTable = true → t.wb.ver = s.wb.ver ∧ t.wb.crc = s.wb.crc) ∧
      t = { s with wb := t.wb }) ∧
    (s.wb.inst ≠ 4 → exec .wbInstallRestartDone s = .next s) ∧
    (let k := s.rf Adr.WB_REQ 2 0
     let a := s.reg Adr.WB_REQ_ARG
     Acts s m Adr.WB_CTL 2 → Completes (.wbReqGo m) s fun t => t.ax = s.ax ∧
      if s.wb.busy = true ∨ wbReqOk k a.toNat = false then t.wb = s.wb ∧ t.rb Adr.WB_STAT 13 = true
      else t.wb = { s.wb with req := some ⟨k, a, (List.range 4).map fun n => s.reg (Adr.WB_NONCE n), wd s.frm.count.toNat⟩, taken := none }) ∧
    (∀ (q : WbReq) (b : List Byte), s.wb.req = some q → s.wb.taken = some b → q.kind < 8 → Completes .wbRecordReady s fun t =>
      t.wb.record = b ∧ t.wb.req = none ∧ t.wb.sb.recSeq = s.wb.sb.recSeq + 1 ∧ t.rb Adr.WB_RECSTAT 31 = true ∧
      t.rf Adr.WB_RECSTAT 2 0 = q.kind ∧ t.rf Adr.WB_RECSTAT 30 23 = (s.rf Adr.WB_RECSTAT 30 23 + 1) % 256 ∧ t.ax = s.ax) ∧
    (s.wb.req = none → exec .wbRecordReady s = .next s)

/-! ### The service port, parity, power and updates -/

/-- The SPI port and parity (R396 to R398, R408): a transaction of a disabled port, or that is no write or read, does nothing; a write
whose length or check is wrong is counted; without Admin rights the port stores nothing but its response, with them a word is stored. A
response that matches the challenge gives Admin rights, one that does not is counted, and the third blocks. A configuration register that
fails parity brings its units to their safe state and faults every axis of them (R103), with event 58 pending, until
ERR is cleared with no register failing. -/
def Obligations.ServicePort : Prop :=
  ∀ (s : State) (b : List Byte) (m : Master) (w : Word),
    (s.spiOn = false ∨ u8 b 0 ≠ 2 → exec (.spiWriteTransaction b) s = .next s) ∧
    (s.spiOn = false ∨ u8 b 0 ≠ 0x0B → exec (.spiReadTransaction b) s = .next s) ∧
    (s.spiOn = true → u8 b 0 = 2 → b.length ≠ 9 + 4 * spiCount b ∨ crc32c (b.take (b.length - 4)) ≠ wd (u32 b (b.length - 4)) →
      exec (.spiWriteTransaction b) s = .next (s.setReg Adr.ACC_SPI_ERR (satInc (s.reg Adr.ACC_SPI_ERR)))) ∧
    (s.spiOn = true → u8 b 0 = 2 → b.length = 13 → u8 b 4 = 1 → crc32c (b.take 9) = wd (u32 b 9) → spiAddr b = Adr.GCTL_SCRATCH →
      (s.acc.admin = false → exec (.spiWriteTransaction b) s = .next s) ∧
      (s.acc.admin = true → Completes (.spiWriteTransaction b) s fun t => t.reg Adr.GCTL_SCRATCH = wd (leNat ((b.drop 5).take 4)) ∧
        (∀ a : Nat, a ≠ Adr.GCTL_SCRATCH → t.reg a = s.reg a) ∧ t.ax = s.ax)) ∧
    (s.spiOn = true → u8 b 0 = 0x0B → 5 ≤ b.length → u8 b 4 = 1 → spiAddr b < 0x400000 →
      let u := s.readReg s.spiMaster (spiAddr b)
      Completes (.spiReadTransaction b) s fun t => t.regs = u.regs ∧ t.ax = s.ax ∧
        t.out = s.out ++ [.spi (leBytes 4 u.bus.toNat ++ leBytes 4 (crc32c (leBytes 4 u.bus.toNat)).toNat)]) ∧
    (Acts s m Adr.ACC_SPI_RESP_HI 0 →
      let ok := s.keySet && !s.acc.blocked && s.spiAnswer == s.acc.respLo.toNat + 2 ^ 32 * w.toNat
      (ok = true → Completes (.spiResponseWrite m w) s fun t => t.acc = { s.acc with chal := s.acc.chal + 1, admin := true, fails := 0 } ∧
        t = { s with acc := t.acc }) ∧
      (ok = false → Completes (.spiResponseWrite m w) s fun t => t.acc.admin = s.acc.admin ∧ t.acc.fails = min 15 (s.acc.fails + 1) ∧
        t.acc.chal = s.acc.chal + 1 ∧ t.acc.blocked = (s.acc.blocked || decide (2 ≤ s.acc.fails)) ∧ t = { s with acc := t.acc })) ∧
    (Acts s m 0x40034 0 → exec (.spiLeave m) s = .next { s with acc := { s.acc with admin := false } }) ∧
    exec .spiIdleTimeout s = .next { s with acc := { s.acc with admin := false } } ∧
    exec .spiBlockEnd s = .next { s with acc := { s.acc with blocked := false } } ∧
    (∀ a : Nat, s.sys.powered = true → isCfg a = true → a < 0x1A0000 → s.acc.parity.contains a = false →
      Completes (.configParityFail a) s fun t => t.acc.parity = s.acc.parity ++ [a] ∧ t.rb Adr.ACC_PAR_STAT 0 = true ∧
        (∀ u ∈ parityUnits a, (t.cu.get u).safe = true ∧ (t.cu.get u).cParity = true ∧
          ∀ x ∈ axesOf u, (t.ax.get x).tt.faulted.isSome = true) ∧ t.rb Adr.EVT_PEND_HI 26 = true) ∧
    (∀ a : Nat, isCfg a = false → a < 0x1A0000 → exec (.configParityFail a) s = .next s) ∧
    (Acts s m Adr.ACC_PAR_STAT 1 → Completes (.parErrClear m) s fun t =>
      if s.acc.parity = [] then t.rb Adr.ACC_PAR_STAT 0 = false ∧ t.acc.parUnits = 0 ∧
        ∀ u : CarrierId, s.acc.parUnits.getLsbD u.val = true → (t.cu.get u).cParity = false
      else t.rb Adr.ACC_PAR_STAT 0 = s.rb Adr.ACC_PAR_STAT 0 ∧ t.cu = s.cu)

/-- Power, reset and boot (R374, R383, R398, R416, R417, R420, R437, R441, R443): the loss of VAUX turns every leg off and leaves the
Weighbridge its contents; its return is a power-on reset that samples CFGSEL, and the Consist that CFGSEL names shows as the one in force;
the key in GCTL_RESET resets all but the Weighbridge, and samples CFGSEL again (a free value, log 235); the written
choice of the clock source comes into force with the reset (R14, R42). LOCK is set when the boot image loads (log 16). A boot loads the cores
from the boot slot, or from the other where its image fails, and with neither every unit stays in its safe state. PREP asks for the
preparation, and DONE answers when every axis is parked and a checkpoint is written. -/
def Obligations.PowerAndBoot : Prop :=
  ∀ (s : State) (m : Master) (w : Word) (c : BitVec 2),
    (s.sys.powered = true → exec (.vauxRise c) s = .next s) ∧ (s.sys.powered = false → exec .vauxFall s = .next s) ∧
    (s.sys.powered = false → Completes (.vauxRise c) s fun t => t.sys.powered = true ∧ t.sys.booted = false ∧ t.sys.cfgsel = c ∧
      t.frm = { Frm.reset with src := s.frm.src } ∧ t.wb = { s.wb with vbatLow := false } ∧
        t.upd.inForce = List.replicate 7 c.toNat ∧ t.acc.locked = [] ∧ t.ord = State.reset.ord ∧
        ∀ x : AxisId, (t.ax.get x).cd.phase = .off) ∧
    (s.sys.powered = true → Completes .vauxFall s fun t => t.sys.powered = false ∧
      t.frm = { Frm.reset with src := s.rb Adr.FRM_CLK 0 } ∧ t.wb.sb = s.wb.sb ∧ t.wb.log = s.wb.log ∧
      t.wb.req = none ∧ t.wb.reason = 0 ∧ t.wb.pad = false ∧ ∀ x : AxisId, (t.ax.get x).cd.phase = .off) ∧
    (Acts s m Adr.GCTL_RESET 0xFFFF0001 →
      (fld w 31 16 = 0x5A5A → bitOf w 0 = true → Completes (.softwareReset m w) s fun t => t.sys.powered = true ∧ t.sys.booted = false ∧
        t.sys.cause = 1 ∧ t.sys.cfgsel = (s.drawFree.1).setWidth 2 ∧
          t.upd.inForce = List.replicate 7 t.sys.cfgsel.toNat ∧ t.frm = { Frm.reset with src := s.rb Adr.FRM_CLK 0 } ∧
          t.wb = s.wb ∧ t.acc.locked = [] ∧ t.acc.chal = s.acc.chal + 1 ∧
        (∀ x : AxisId, (t.ax.get x).cd.phase = .off) ∧ ∀ a : Nat, 0x1A0000 ≤ a → a < 0x1B0000 → t.reg a = s.reg a) ∧
      (fld w 31 16 ≠ 0x5A5A ∨ bitOf w 0 = false → exec (.softwareReset m w) s = .next s)) ∧
    (∀ a b : Bool, s.sys.powered = true → s.sys.booted = false →
      let ok (k : Bool) : Bool := (if k then b else a) && (s.upd.slot k).good
      (∀ k : Bool, ok k = true → (k = s.upd.boot ∨ ok s.upd.boot = false) → Completes (.bootImageLoaded a b) s fun t =>
        t.sys.booted = true ∧ t.frm.lock = (s.frm.lock || s.frm.outage.isNone) ∧ t.sys.bootSlot = k ∧
          t.sys.fallback = (k != s.upd.boot) ∧ t.cmp.sweep = none) ∧
      (ok true = false → ok false = false → Completes (.bootImageLoaded a b) s fun t => t.sys.booted = false ∧ t.upd.halted = 0x3F7F#14 ∧
        t.frm.lock = (s.frm.lock || s.frm.outage.isNone) ∧
        ∀ u : CarrierId, (t.cu.get u).safe = true ∧ (t.cu.get u).cHalt = true)) ∧
    (∀ a b : Bool, s.sys.powered = false ∨ s.sys.booted = true → exec (.bootImageLoaded a b) s = .next s) ∧
    (Acts s m Adr.GCTL_PWR 1 →
      (Completes (.pwrPrep m) s fun t => t.rb Adr.GCTL_PWR 0 = true ∧ t = { s with regs := t.regs }) ∧
      (Completes (.pwrPrepWithdraw m) s fun t => t.rb Adr.GCTL_PWR 0 = false ∧ t.sys = { s.sys with done := false, prepCkpt := false } ∧
        t.ax = s.ax ∧ t.wb = s.wb)) ∧
    (s.sys.powered = true → s.rb Adr.GCTL_PWR 0 = true → s.sys.prepCkpt = true →
      (∀ x : AxisId, (s.ax.get x).tt.mode = .parked ∨ (s.ax.get x).tt.mode = .disabled) →
      exec .pwrDone s = .next { s with sys := { s.sys with done := true } }) ∧
    (s.sys.prepCkpt = false → exec .pwrDone s = .next s)

/-- Calibration and updates (R426 to R428, R431, R435 to R438): a calibration that ends with all channels good stores their constants, and
every one ends with event 62; a pass begins INT seconds after the last where none runs. GO begins a write where none
is in progress; its image goes to the slot that
is not the boot slot, a Consist whose CRC fails leaves its slot bad, a failed write leaves its reason. A switch
begins with a verified image, copies the banks and asks for admission; a core
whose bank fails its check, or whose data has a new format while its axes are not at rest, ends it with the reason. -/
def Obligations.CalibrationAndUpdates : Prop :=
  ∀ (s : State) (m : Master) (w : Word),
    (∀ (u : CarrierId) (zr : List (Nat × Nat)) (g : Bool),
      ((s.cu.get u).cal = none → exec (.bayCalibrationEnd u zr g) s = .next s) ∧
      (∀ f : FrameNo, (s.cu.get u).cal = some f → s.carriers = true → 80 ≤ s.since f →
        (g = true → (∀ c < 16, ((zr[c]?).bind calPair).isSome = true) → Completes (.bayCalibrationEnd u zr g) s fun t =>
          (t.cu.get u).calOk = true ∧ t.rb Adr.EVT_PEND_HI 30 = true ∧
          ∀ (c : Nat) (z : Nat × Nat) (e : Nat × Int), c < 16 → zr[c]? = some z → calPair z = some e → t.rf (calAdr u c) 31 16 = e.1) ∧
        (g = false → Completes (.bayCalibrationEnd u zr g) s fun t => (t.cu.get u).calOk = (s.cu.get u).calOk ∧
          t.rb Adr.EVT_PEND_HI 30 = true ∧ ∀ c < 16, t.reg (calAdr u c) = s.reg (calAdr u c)))) ∧
    (s.sys.powered = true → s.frm.started = true → s.rf Adr.UPD_CAL_CFG 15 0 ≠ 0 →
      (s.since s.upd.passFrom < s.rf Adr.UPD_CAL_CFG 15 0 * s.hz → exec .calibrationPassStart s = .next s) ∧
      (s.rf Adr.UPD_CAL_CFG 15 0 * s.hz ≤ s.since s.upd.passFrom → s.upd.pass = none →
        Completes .calibrationPassStart s fun t => t.upd.pass.isSome = true ∧ t.upd.passFrom = s.frm.count ∧
        t.regs = s.regs ∧ t.ax = s.ax) ∧
      (s.rf Adr.UPD_CAL_CFG 15 0 * s.hz ≤ s.since s.upd.passFrom → s.upd.pass.isSome = true → exec .calibrationPassStart s =
        .next { s with upd := { s.upd with passFrom := s.frm.count } })) ∧
    (Acts s m Adr.UPD_CAL_CFG (bits 31 31) → Completes (.updCalGo m w) s fun t => t.rf Adr.UPD_CAL_CFG 15 0 = fld w 15 0 ∧ t.ax = s.ax ∧
      if bitOf w 31 then t.upd.pass.isSome = true else t.upd = s.upd) ∧
    (Acts s m Adr.UPD_CTL 3 →
      (bitOf w 1 = true → bitOf w 0 = false → fld w 10 8 = 1 → Completes (.updCapture m w) s fun t => t.upd = { s.upd with
        consists := s.upd.consists.set (fld w 13 12) (some (s.plainWrite m Adr.UPD_CTL w).captureItems) }) ∧
      (bitOf w 1 = false → bitOf w 0 = true → s.upd.state = 0 ∨ s.upd.state = 4 ∨ s.upd.state = 5 → fld w 10 8 < 3 →
        fld w 10 8 ≠ 0 ∨ s.mixedCores = false → Completes (.updGo m w) s fun t =>
          t.upd = { s.upd with state := 1, job := some (fld w 10 8, fld w 13 12) } ∧
          t.out = s.out ++ [.dmaRead 0 (s.reg64 Adr.UPD_SRC_LO) (s.rf Adr.UPD_LEN 21 0)]) ∧
      (bitOf w 1 = false → bitOf w 0 = true → s.upd.state ∈ [1, 2, 3] → Completes (.updGo m w) s fun t => t.upd = s.upd ∧ t.out = s.out ∧
        t.rb Adr.UPD_STAT 17 = true)) ∧
    (∀ r : UpdResult, s.upd.job = none → exec (.updWriteDone r) s = .next s) ∧
    (∀ (k : Nat) (v : Word) (l g : List Nat), s.upd.job = some (0, k) → Completes (.updWriteDone (.image v l g)) s fun t => t.upd.state = 4 ∧
      t.upd.job = none ∧ t.upd.slot (!s.upd.boot) = ⟨v, l, g, true⟩ ∧ t.upd.slot s.upd.boot = s.upd.slot s.upd.boot ∧ t.upd.boot = s.upd.boot ∧
      t.rb Adr.EVT_PEND_HI 29 = true) ∧
    (∀ (k : Nat) (l : List ConsistItem) (g : Bool), s.upd.job = some (1, k) → exec (.updWriteDone (.consist l g)) s =
      .next { s with upd := { s.upd with state := 4, job := none, consists := s.upd.consists.set k (if g then some l else none) } }) ∧
    (∀ (g k n : Nat) (v : Word), s.upd.job = some (g, k) → Completes (.updWriteDone (.failed n v)) s fun t => t.upd.state = 5 ∧
      t.upd.reason = n ∧ t.upd.job = none ∧ t.upd.slot s.upd.boot = s.upd.slot s.upd.boot ∧ t.wb = s.wb ∧
      (g ≠ 1 ∨ n ≠ 4 → t.upd.consists = s.upd.consists) ∧
      (∀ i : Nat, i ≠ k → t.upd.consists.getD i none = s.upd.consists.getD i none) ∧ (g = 0 → t.rb Adr.EVT_PEND_HI 29 = true)) ∧
    (Acts s m Adr.UPD_SWITCH (bits 31 31) → s.sys.booted = true → s.upd.switching = none → fld w 6 0 ≠ 0 → bitOf w 31 = true →
      Completes (.updSwitchGo m w) s fun t => t.ax = s.ax ∧ t.upd = if (s.upd.slot (!s.upd.boot)).good = true
        then { s.upd with switching := some (BitVec.ofNat 7 (fld w 6 0)) } else s.upd) ∧
    (∀ g : BitVec 7, s.upd.switching = none → exec (.updBankCopyDone g) s = .next s) ∧
    (∀ g k : BitVec 7, s.upd.switching = some k → s.switchAsked = false →
      let bad := (coresOf k).filterMap (s.copyFails (s.upd.slot (!s.upd.boot)) g)
      (bad = [] → Completes (.updBankCopyDone g) s fun t => t.upd = s.upd ∧
        t.frm = (s.ask (.firmware k (s.upd.slot (!s.upd.boot)).costs) s.frm.count).frm) ∧
      (∀ r : Nat, bad.head? = some r → Completes (.updBankCopyDone g) s fun t => t.upd.switching = none ∧ t.upd.reason = r ∧
        t.frm = s.frm ∧ t.rb Adr.EVT_PEND_HI 29 = true))
end

