-- ==== Sys2Proof/Laws/State.lean ====
section
/-! SUPPORT. What each update of one part of the state leaves alone, and what it writes: one lemma for each field and each update. -/

namespace Sys2Proof.Machine

/-! ### modAx -/

@[simp] theorem State.modAx_frm (s : State) (x : AxisId) (f : Axis → Axis) : (s.modAx x f).frm = s.frm := rfl
@[simp] theorem State.modAx_hif (s : State) (x : AxisId) (f : Axis → Axis) : (s.modAx x f).hif = s.hif := rfl
@[simp] theorem State.modAx_sq (s : State) (x : AxisId) (f : Axis → Axis) : (s.modAx x f).sq = s.sq := rfl
@[simp] theorem State.modAx_cq (s : State) (x : AxisId) (f : Axis → Axis) : (s.modAx x f).cq = s.cq := rfl
@[simp] theorem State.modAx_eq (s : State) (x : AxisId) (f : Axis → Axis) : (s.modAx x f).eq = s.eq := rfl
@[simp] theorem State.modAx_ord (s : State) (x : AxisId) (f : Axis → Axis) : (s.modAx x f).ord = s.ord := rfl
@[simp] theorem State.modAx_cards (s : State) (x : AxisId) (f : Axis → Axis) : (s.modAx x f).cards = s.cards := rfl
@[simp] theorem State.modAx_cu (s : State) (x : AxisId) (f : Axis → Axis) : (s.modAx x f).cu = s.cu := rfl
@[simp] theorem State.modAx_hv (s : State) (x : AxisId) (f : Axis → Axis) : (s.modAx x f).hv = s.hv := rfl
@[simp] theorem State.modAx_fbc (s : State) (x : AxisId) (f : Axis → Axis) : (s.modAx x f).fbc = s.fbc := rfl
@[simp] theorem State.modAx_sd (s : State) (x : AxisId) (f : Axis → Axis) : (s.modAx x f).sd = s.sd := rfl
@[simp] theorem State.modAx_trg (s : State) (x : AxisId) (f : Axis → Axis) : (s.modAx x f).trg = s.trg := rfl
@[simp] theorem State.modAx_grp (s : State) (x : AxisId) (f : Axis → Axis) : (s.modAx x f).grp = s.grp := rfl
@[simp] theorem State.modAx_prb (s : State) (x : AxisId) (f : Axis → Axis) : (s.modAx x f).prb = s.prb := rfl
@[simp] theorem State.modAx_emu (s : State) (x : AxisId) (f : Axis → Axis) : (s.modAx x f).emu = s.emu := rfl
@[simp] theorem State.modAx_cmp (s : State) (x : AxisId) (f : Axis → Axis) : (s.modAx x f).cmp = s.cmp := rfl
@[simp] theorem State.modAx_gran (s : State) (x : AxisId) (f : Axis → Axis) : (s.modAx x f).gran = s.gran := rfl
@[simp] theorem State.modAx_pool (s : State) (x : AxisId) (f : Axis → Axis) : (s.modAx x f).pool = s.pool := rfl
@[simp] theorem State.modAx_line (s : State) (x : AxisId) (f : Axis → Axis) : (s.modAx x f).line = s.line := rfl
@[simp] theorem State.modAx_wb (s : State) (x : AxisId) (f : Axis → Axis) : (s.modAx x f).wb = s.wb := rfl
@[simp] theorem State.modAx_acc (s : State) (x : AxisId) (f : Axis → Axis) : (s.modAx x f).acc = s.acc := rfl
@[simp] theorem State.modAx_upd (s : State) (x : AxisId) (f : Axis → Axis) : (s.modAx x f).upd = s.upd := rfl
@[simp] theorem State.modAx_sys (s : State) (x : AxisId) (f : Axis → Axis) : (s.modAx x f).sys = s.sys := rfl
@[simp] theorem State.modAx_regs (s : State) (x : AxisId) (f : Axis → Axis) : (s.modAx x f).regs = s.regs := rfl
@[simp] theorem State.modAx_caps (s : State) (x : AxisId) (f : Axis → Axis) : (s.modAx x f).caps = s.caps := rfl
@[simp] theorem State.modAx_bus (s : State) (x : AxisId) (f : Axis → Axis) : (s.modAx x f).bus = s.bus := rfl
@[simp] theorem State.modAx_gather (s : State) (x : AxisId) (f : Axis → Axis) : (s.modAx x f).gather = s.gather := rfl
@[simp] theorem State.modAx_out (s : State) (x : AxisId) (f : Axis → Axis) : (s.modAx x f).out = s.out := rfl
@[simp] theorem State.modAx_free (s : State) (x : AxisId) (f : Axis → Axis) : (s.modAx x f).free = s.free := rfl
@[simp] theorem State.modAx_pending (s : State) (x : AxisId) (f : Axis → Axis) : (s.modAx x f).pending = s.pending := rfl
theorem State.modAx_ax (s : State) (x : AxisId) (f : Axis → Axis) : (s.modAx x f).ax = s.ax.set x (f (s.ax.get x)) := rfl

/-! ### modTt -/

@[simp] theorem State.modTt_frm (s : State) (x : AxisId) (f : TtState → TtState) : (s.modTt x f).frm = s.frm := rfl
@[simp] theorem State.modTt_hif (s : State) (x : AxisId) (f : TtState → TtState) : (s.modTt x f).hif = s.hif := rfl
@[simp] theorem State.modTt_sq (s : State) (x : AxisId) (f : TtState → TtState) : (s.modTt x f).sq = s.sq := rfl
@[simp] theorem State.modTt_cq (s : State) (x : AxisId) (f : TtState → TtState) : (s.modTt x f).cq = s.cq := rfl
@[simp] theorem State.modTt_eq (s : State) (x : AxisId) (f : TtState → TtState) : (s.modTt x f).eq = s.eq := rfl
@[simp] theorem State.modTt_ord (s : State) (x : AxisId) (f : TtState → TtState) : (s.modTt x f).ord = s.ord := rfl
@[simp] theorem State.modTt_cards (s : State) (x : AxisId) (f : TtState → TtState) : (s.modTt x f).cards = s.cards := rfl
@[simp] theorem State.modTt_cu (s : State) (x : AxisId) (f : TtState → TtState) : (s.modTt x f).cu = s.cu := rfl
@[simp] theorem State.modTt_hv (s : State) (x : AxisId) (f : TtState → TtState) : (s.modTt x f).hv = s.hv := rfl
@[simp] theorem State.modTt_fbc (s : State) (x : AxisId) (f : TtState → TtState) : (s.modTt x f).fbc = s.fbc := rfl
@[simp] theorem State.modTt_sd (s : State) (x : AxisId) (f : TtState → TtState) : (s.modTt x f).sd = s.sd := rfl
@[simp] theorem State.modTt_trg (s : State) (x : AxisId) (f : TtState → TtState) : (s.modTt x f).trg = s.trg := rfl
@[simp] theorem State.modTt_grp (s : State) (x : AxisId) (f : TtState → TtState) : (s.modTt x f).grp = s.grp := rfl
@[simp] theorem State.modTt_prb (s : State) (x : AxisId) (f : TtState → TtState) : (s.modTt x f).prb = s.prb := rfl
@[simp] theorem State.modTt_emu (s : State) (x : AxisId) (f : TtState → TtState) : (s.modTt x f).emu = s.emu := rfl
@[simp] theorem State.modTt_cmp (s : State) (x : AxisId) (f : TtState → TtState) : (s.modTt x f).cmp = s.cmp := rfl
@[simp] theorem State.modTt_gran (s : State) (x : AxisId) (f : TtState → TtState) : (s.modTt x f).gran = s.gran := rfl
@[simp] theorem State.modTt_pool (s : State) (x : AxisId) (f : TtState → TtState) : (s.modTt x f).pool = s.pool := rfl
@[simp] theorem State.modTt_line (s : State) (x : AxisId) (f : TtState → TtState) : (s.modTt x f).line = s.line := rfl
@[simp] theorem State.modTt_wb (s : State) (x : AxisId) (f : TtState → TtState) : (s.modTt x f).wb = s.wb := rfl
@[simp] theorem State.modTt_acc (s : State) (x : AxisId) (f : TtState → TtState) : (s.modTt x f).acc = s.acc := rfl
@[simp] theorem State.modTt_upd (s : State) (x : AxisId) (f : TtState → TtState) : (s.modTt x f).upd = s.upd := rfl
@[simp] theorem State.modTt_sys (s : State) (x : AxisId) (f : TtState → TtState) : (s.modTt x f).sys = s.sys := rfl
@[simp] theorem State.modTt_regs (s : State) (x : AxisId) (f : TtState → TtState) : (s.modTt x f).regs = s.regs := rfl
@[simp] theorem State.modTt_caps (s : State) (x : AxisId) (f : TtState → TtState) : (s.modTt x f).caps = s.caps := rfl
@[simp] theorem State.modTt_bus (s : State) (x : AxisId) (f : TtState → TtState) : (s.modTt x f).bus = s.bus := rfl
@[simp] theorem State.modTt_gather (s : State) (x : AxisId) (f : TtState → TtState) : (s.modTt x f).gather = s.gather := rfl
@[simp] theorem State.modTt_out (s : State) (x : AxisId) (f : TtState → TtState) : (s.modTt x f).out = s.out := rfl
@[simp] theorem State.modTt_free (s : State) (x : AxisId) (f : TtState → TtState) : (s.modTt x f).free = s.free := rfl
@[simp] theorem State.modTt_pending (s : State) (x : AxisId) (f : TtState → TtState) : (s.modTt x f).pending = s.pending := rfl
theorem State.modTt_ax (s : State) (x : AxisId) (f : TtState → TtState) :
    (s.modTt x f).ax = s.ax.set x { s.ax.get x with tt := f (s.ax.get x).tt } := rfl

/-! ### modCd -/

@[simp] theorem State.modCd_frm (s : State) (x : AxisId) (f : CdState → CdState) : (s.modCd x f).frm = s.frm := rfl
@[simp] theorem State.modCd_hif (s : State) (x : AxisId) (f : CdState → CdState) : (s.modCd x f).hif = s.hif := rfl
@[simp] theorem State.modCd_sq (s : State) (x : AxisId) (f : CdState → CdState) : (s.modCd x f).sq = s.sq := rfl
@[simp] theorem State.modCd_cq (s : State) (x : AxisId) (f : CdState → CdState) : (s.modCd x f).cq = s.cq := rfl
@[simp] theorem State.modCd_eq (s : State) (x : AxisId) (f : CdState → CdState) : (s.modCd x f).eq = s.eq := rfl
@[simp] theorem State.modCd_ord (s : State) (x : AxisId) (f : CdState → CdState) : (s.modCd x f).ord = s.ord := rfl
@[simp] theorem State.modCd_cards (s : State) (x : AxisId) (f : CdState → CdState) : (s.modCd x f).cards = s.cards := rfl
@[simp] theorem State.modCd_cu (s : State) (x : AxisId) (f : CdState → CdState) : (s.modCd x f).cu = s.cu := rfl
@[simp] theorem State.modCd_hv (s : State) (x : AxisId) (f : CdState → CdState) : (s.modCd x f).hv = s.hv := rfl
@[simp] theorem State.modCd_fbc (s : State) (x : AxisId) (f : CdState → CdState) : (s.modCd x f).fbc = s.fbc := rfl
@[simp] theorem State.modCd_sd (s : State) (x : AxisId) (f : CdState → CdState) : (s.modCd x f).sd = s.sd := rfl
@[simp] theorem State.modCd_trg (s : State) (x : AxisId) (f : CdState → CdState) : (s.modCd x f).trg = s.trg := rfl
@[simp] theorem State.modCd_grp (s : State) (x : AxisId) (f : CdState → CdState) : (s.modCd x f).grp = s.grp := rfl
@[simp] theorem State.modCd_prb (s : State) (x : AxisId) (f : CdState → CdState) : (s.modCd x f).prb = s.prb := rfl
@[simp] theorem State.modCd_emu (s : State) (x : AxisId) (f : CdState → CdState) : (s.modCd x f).emu = s.emu := rfl
@[simp] theorem State.modCd_cmp (s : State) (x : AxisId) (f : CdState → CdState) : (s.modCd x f).cmp = s.cmp := rfl
@[simp] theorem State.modCd_gran (s : State) (x : AxisId) (f : CdState → CdState) : (s.modCd x f).gran = s.gran := rfl
@[simp] theorem State.modCd_pool (s : State) (x : AxisId) (f : CdState → CdState) : (s.modCd x f).pool = s.pool := rfl
@[simp] theorem State.modCd_line (s : State) (x : AxisId) (f : CdState → CdState) : (s.modCd x f).line = s.line := rfl
@[simp] theorem State.modCd_wb (s : State) (x : AxisId) (f : CdState → CdState) : (s.modCd x f).wb = s.wb := rfl
@[simp] theorem State.modCd_acc (s : State) (x : AxisId) (f : CdState → CdState) : (s.modCd x f).acc = s.acc := rfl
@[simp] theorem State.modCd_upd (s : State) (x : AxisId) (f : CdState → CdState) : (s.modCd x f).upd = s.upd := rfl
@[simp] theorem State.modCd_sys (s : State) (x : AxisId) (f : CdState → CdState) : (s.modCd x f).sys = s.sys := rfl
@[simp] theorem State.modCd_regs (s : State) (x : AxisId) (f : CdState → CdState) : (s.modCd x f).regs = s.regs := rfl
@[simp] theorem State.modCd_caps (s : State) (x : AxisId) (f : CdState → CdState) : (s.modCd x f).caps = s.caps := rfl
@[simp] theorem State.modCd_bus (s : State) (x : AxisId) (f : CdState → CdState) : (s.modCd x f).bus = s.bus := rfl
@[simp] theorem State.modCd_gather (s : State) (x : AxisId) (f : CdState → CdState) : (s.modCd x f).gather = s.gather := rfl
@[simp] theorem State.modCd_out (s : State) (x : AxisId) (f : CdState → CdState) : (s.modCd x f).out = s.out := rfl
@[simp] theorem State.modCd_free (s : State) (x : AxisId) (f : CdState → CdState) : (s.modCd x f).free = s.free := rfl
@[simp] theorem State.modCd_pending (s : State) (x : AxisId) (f : CdState → CdState) : (s.modCd x f).pending = s.pending := rfl
theorem State.modCd_ax (s : State) (x : AxisId) (f : CdState → CdState) :
    (s.modCd x f).ax = s.ax.set x { s.ax.get x with cd := f (s.ax.get x).cd } := rfl

/-! ### modBr -/

@[simp] theorem State.modBr_frm (s : State) (x : AxisId) (f : BrState → BrState) : (s.modBr x f).frm = s.frm := rfl
@[simp] theorem State.modBr_hif (s : State) (x : AxisId) (f : BrState → BrState) : (s.modBr x f).hif = s.hif := rfl
@[simp] theorem State.modBr_sq (s : State) (x : AxisId) (f : BrState → BrState) : (s.modBr x f).sq = s.sq := rfl
@[simp] theorem State.modBr_cq (s : State) (x : AxisId) (f : BrState → BrState) : (s.modBr x f).cq = s.cq := rfl
@[simp] theorem State.modBr_eq (s : State) (x : AxisId) (f : BrState → BrState) : (s.modBr x f).eq = s.eq := rfl
@[simp] theorem State.modBr_ord (s : State) (x : AxisId) (f : BrState → BrState) : (s.modBr x f).ord = s.ord := rfl
@[simp] theorem State.modBr_cards (s : State) (x : AxisId) (f : BrState → BrState) : (s.modBr x f).cards = s.cards := rfl
@[simp] theorem State.modBr_cu (s : State) (x : AxisId) (f : BrState → BrState) : (s.modBr x f).cu = s.cu := rfl
@[simp] theorem State.modBr_hv (s : State) (x : AxisId) (f : BrState → BrState) : (s.modBr x f).hv = s.hv := rfl
@[simp] theorem State.modBr_fbc (s : State) (x : AxisId) (f : BrState → BrState) : (s.modBr x f).fbc = s.fbc := rfl
@[simp] theorem State.modBr_sd (s : State) (x : AxisId) (f : BrState → BrState) : (s.modBr x f).sd = s.sd := rfl
@[simp] theorem State.modBr_trg (s : State) (x : AxisId) (f : BrState → BrState) : (s.modBr x f).trg = s.trg := rfl
@[simp] theorem State.modBr_grp (s : State) (x : AxisId) (f : BrState → BrState) : (s.modBr x f).grp = s.grp := rfl
@[simp] theorem State.modBr_prb (s : State) (x : AxisId) (f : BrState → BrState) : (s.modBr x f).prb = s.prb := rfl
@[simp] theorem State.modBr_emu (s : State) (x : AxisId) (f : BrState → BrState) : (s.modBr x f).emu = s.emu := rfl
@[simp] theorem State.modBr_cmp (s : State) (x : AxisId) (f : BrState → BrState) : (s.modBr x f).cmp = s.cmp := rfl
@[simp] theorem State.modBr_gran (s : State) (x : AxisId) (f : BrState → BrState) : (s.modBr x f).gran = s.gran := rfl
@[simp] theorem State.modBr_pool (s : State) (x : AxisId) (f : BrState → BrState) : (s.modBr x f).pool = s.pool := rfl
@[simp] theorem State.modBr_line (s : State) (x : AxisId) (f : BrState → BrState) : (s.modBr x f).line = s.line := rfl
@[simp] theorem State.modBr_wb (s : State) (x : AxisId) (f : BrState → BrState) : (s.modBr x f).wb = s.wb := rfl
@[simp] theorem State.modBr_acc (s : State) (x : AxisId) (f : BrState → BrState) : (s.modBr x f).acc = s.acc := rfl
@[simp] theorem State.modBr_upd (s : State) (x : AxisId) (f : BrState → BrState) : (s.modBr x f).upd = s.upd := rfl
@[simp] theorem State.modBr_sys (s : State) (x : AxisId) (f : BrState → BrState) : (s.modBr x f).sys = s.sys := rfl
@[simp] theorem State.modBr_regs (s : State) (x : AxisId) (f : BrState → BrState) : (s.modBr x f).regs = s.regs := rfl
@[simp] theorem State.modBr_caps (s : State) (x : AxisId) (f : BrState → BrState) : (s.modBr x f).caps = s.caps := rfl
@[simp] theorem State.modBr_bus (s : State) (x : AxisId) (f : BrState → BrState) : (s.modBr x f).bus = s.bus := rfl
@[simp] theorem State.modBr_gather (s : State) (x : AxisId) (f : BrState → BrState) : (s.modBr x f).gather = s.gather := rfl
@[simp] theorem State.modBr_out (s : State) (x : AxisId) (f : BrState → BrState) : (s.modBr x f).out = s.out := rfl
@[simp] theorem State.modBr_free (s : State) (x : AxisId) (f : BrState → BrState) : (s.modBr x f).free = s.free := rfl
@[simp] theorem State.modBr_pending (s : State) (x : AxisId) (f : BrState → BrState) : (s.modBr x f).pending = s.pending := rfl
theorem State.modBr_ax (s : State) (x : AxisId) (f : BrState → BrState) :
    (s.modBr x f).ax = s.ax.set x { s.ax.get x with br := f (s.ax.get x).br } := rfl

/-! ### modSg -/

@[simp] theorem State.modSg_frm (s : State) (x : AxisId) (f : SgState → SgState) : (s.modSg x f).frm = s.frm := rfl
@[simp] theorem State.modSg_hif (s : State) (x : AxisId) (f : SgState → SgState) : (s.modSg x f).hif = s.hif := rfl
@[simp] theorem State.modSg_sq (s : State) (x : AxisId) (f : SgState → SgState) : (s.modSg x f).sq = s.sq := rfl
@[simp] theorem State.modSg_cq (s : State) (x : AxisId) (f : SgState → SgState) : (s.modSg x f).cq = s.cq := rfl
@[simp] theorem State.modSg_eq (s : State) (x : AxisId) (f : SgState → SgState) : (s.modSg x f).eq = s.eq := rfl
@[simp] theorem State.modSg_ord (s : State) (x : AxisId) (f : SgState → SgState) : (s.modSg x f).ord = s.ord := rfl
@[simp] theorem State.modSg_cards (s : State) (x : AxisId) (f : SgState → SgState) : (s.modSg x f).cards = s.cards := rfl
@[simp] theorem State.modSg_cu (s : State) (x : AxisId) (f : SgState → SgState) : (s.modSg x f).cu = s.cu := rfl
@[simp] theorem State.modSg_hv (s : State) (x : AxisId) (f : SgState → SgState) : (s.modSg x f).hv = s.hv := rfl
@[simp] theorem State.modSg_fbc (s : State) (x : AxisId) (f : SgState → SgState) : (s.modSg x f).fbc = s.fbc := rfl
@[simp] theorem State.modSg_sd (s : State) (x : AxisId) (f : SgState → SgState) : (s.modSg x f).sd = s.sd := rfl
@[simp] theorem State.modSg_trg (s : State) (x : AxisId) (f : SgState → SgState) : (s.modSg x f).trg = s.trg := rfl
@[simp] theorem State.modSg_grp (s : State) (x : AxisId) (f : SgState → SgState) : (s.modSg x f).grp = s.grp := rfl
@[simp] theorem State.modSg_prb (s : State) (x : AxisId) (f : SgState → SgState) : (s.modSg x f).prb = s.prb := rfl
@[simp] theorem State.modSg_emu (s : State) (x : AxisId) (f : SgState → SgState) : (s.modSg x f).emu = s.emu := rfl
@[simp] theorem State.modSg_cmp (s : State) (x : AxisId) (f : SgState → SgState) : (s.modSg x f).cmp = s.cmp := rfl
@[simp] theorem State.modSg_gran (s : State) (x : AxisId) (f : SgState → SgState) : (s.modSg x f).gran = s.gran := rfl
@[simp] theorem State.modSg_pool (s : State) (x : AxisId) (f : SgState → SgState) : (s.modSg x f).pool = s.pool := rfl
@[simp] theorem State.modSg_line (s : State) (x : AxisId) (f : SgState → SgState) : (s.modSg x f).line = s.line := rfl
@[simp] theorem State.modSg_wb (s : State) (x : AxisId) (f : SgState → SgState) : (s.modSg x f).wb = s.wb := rfl
@[simp] theorem State.modSg_acc (s : State) (x : AxisId) (f : SgState → SgState) : (s.modSg x f).acc = s.acc := rfl
@[simp] theorem State.modSg_upd (s : State) (x : AxisId) (f : SgState → SgState) : (s.modSg x f).upd = s.upd := rfl
@[simp] theorem State.modSg_sys (s : State) (x : AxisId) (f : SgState → SgState) : (s.modSg x f).sys = s.sys := rfl
@[simp] theorem State.modSg_regs (s : State) (x : AxisId) (f : SgState → SgState) : (s.modSg x f).regs = s.regs := rfl
@[simp] theorem State.modSg_caps (s : State) (x : AxisId) (f : SgState → SgState) : (s.modSg x f).caps = s.caps := rfl
@[simp] theorem State.modSg_bus (s : State) (x : AxisId) (f : SgState → SgState) : (s.modSg x f).bus = s.bus := rfl
@[simp] theorem State.modSg_gather (s : State) (x : AxisId) (f : SgState → SgState) : (s.modSg x f).gather = s.gather := rfl
@[simp] theorem State.modSg_out (s : State) (x : AxisId) (f : SgState → SgState) : (s.modSg x f).out = s.out := rfl
@[simp] theorem State.modSg_free (s : State) (x : AxisId) (f : SgState → SgState) : (s.modSg x f).free = s.free := rfl
@[simp] theorem State.modSg_pending (s : State) (x : AxisId) (f : SgState → SgState) : (s.modSg x f).pending = s.pending := rfl
theorem State.modSg_ax (s : State) (x : AxisId) (f : SgState → SgState) :
    (s.modSg x f).ax = s.ax.set x { s.ax.get x with sg := f (s.ax.get x).sg } := rfl

/-! ### modFbx -/

@[simp] theorem State.modFbx_frm (s : State) (x : AxisId) (f : FbState → FbState) : (s.modFbx x f).frm = s.frm := rfl
@[simp] theorem State.modFbx_hif (s : State) (x : AxisId) (f : FbState → FbState) : (s.modFbx x f).hif = s.hif := rfl
@[simp] theorem State.modFbx_sq (s : State) (x : AxisId) (f : FbState → FbState) : (s.modFbx x f).sq = s.sq := rfl
@[simp] theorem State.modFbx_cq (s : State) (x : AxisId) (f : FbState → FbState) : (s.modFbx x f).cq = s.cq := rfl
@[simp] theorem State.modFbx_eq (s : State) (x : AxisId) (f : FbState → FbState) : (s.modFbx x f).eq = s.eq := rfl
@[simp] theorem State.modFbx_ord (s : State) (x : AxisId) (f : FbState → FbState) : (s.modFbx x f).ord = s.ord := rfl
@[simp] theorem State.modFbx_cards (s : State) (x : AxisId) (f : FbState → FbState) : (s.modFbx x f).cards = s.cards := rfl
@[simp] theorem State.modFbx_cu (s : State) (x : AxisId) (f : FbState → FbState) : (s.modFbx x f).cu = s.cu := rfl
@[simp] theorem State.modFbx_hv (s : State) (x : AxisId) (f : FbState → FbState) : (s.modFbx x f).hv = s.hv := rfl
@[simp] theorem State.modFbx_fbc (s : State) (x : AxisId) (f : FbState → FbState) : (s.modFbx x f).fbc = s.fbc := rfl
@[simp] theorem State.modFbx_sd (s : State) (x : AxisId) (f : FbState → FbState) : (s.modFbx x f).sd = s.sd := rfl
@[simp] theorem State.modFbx_trg (s : State) (x : AxisId) (f : FbState → FbState) : (s.modFbx x f).trg = s.trg := rfl
@[simp] theorem State.modFbx_grp (s : State) (x : AxisId) (f : FbState → FbState) : (s.modFbx x f).grp = s.grp := rfl
@[simp] theorem State.modFbx_prb (s : State) (x : AxisId) (f : FbState → FbState) : (s.modFbx x f).prb = s.prb := rfl
@[simp] theorem State.modFbx_emu (s : State) (x : AxisId) (f : FbState → FbState) : (s.modFbx x f).emu = s.emu := rfl
@[simp] theorem State.modFbx_cmp (s : State) (x : AxisId) (f : FbState → FbState) : (s.modFbx x f).cmp = s.cmp := rfl
@[simp] theorem State.modFbx_gran (s : State) (x : AxisId) (f : FbState → FbState) : (s.modFbx x f).gran = s.gran := rfl
@[simp] theorem State.modFbx_pool (s : State) (x : AxisId) (f : FbState → FbState) : (s.modFbx x f).pool = s.pool := rfl
@[simp] theorem State.modFbx_line (s : State) (x : AxisId) (f : FbState → FbState) : (s.modFbx x f).line = s.line := rfl
@[simp] theorem State.modFbx_wb (s : State) (x : AxisId) (f : FbState → FbState) : (s.modFbx x f).wb = s.wb := rfl
@[simp] theorem State.modFbx_acc (s : State) (x : AxisId) (f : FbState → FbState) : (s.modFbx x f).acc = s.acc := rfl
@[simp] theorem State.modFbx_upd (s : State) (x : AxisId) (f : FbState → FbState) : (s.modFbx x f).upd = s.upd := rfl
@[simp] theorem State.modFbx_sys (s : State) (x : AxisId) (f : FbState → FbState) : (s.modFbx x f).sys = s.sys := rfl
@[simp] theorem State.modFbx_regs (s : State) (x : AxisId) (f : FbState → FbState) : (s.modFbx x f).regs = s.regs := rfl
@[simp] theorem State.modFbx_caps (s : State) (x : AxisId) (f : FbState → FbState) : (s.modFbx x f).caps = s.caps := rfl
@[simp] theorem State.modFbx_bus (s : State) (x : AxisId) (f : FbState → FbState) : (s.modFbx x f).bus = s.bus := rfl
@[simp] theorem State.modFbx_gather (s : State) (x : AxisId) (f : FbState → FbState) : (s.modFbx x f).gather = s.gather := rfl
@[simp] theorem State.modFbx_out (s : State) (x : AxisId) (f : FbState → FbState) : (s.modFbx x f).out = s.out := rfl
@[simp] theorem State.modFbx_free (s : State) (x : AxisId) (f : FbState → FbState) : (s.modFbx x f).free = s.free := rfl
@[simp] theorem State.modFbx_pending (s : State) (x : AxisId) (f : FbState → FbState) : (s.modFbx x f).pending = s.pending := rfl
theorem State.modFbx_ax (s : State) (x : AxisId) (f : FbState → FbState) :
    (s.modFbx x f).ax = s.ax.set x { s.ax.get x with fb := f (s.ax.get x).fb } := rfl

/-! ### modSq -/

@[simp] theorem State.modSq_frm (s : State) (q : RingId) (f : Sq → Sq) : (s.modSq q f).frm = s.frm := rfl
@[simp] theorem State.modSq_hif (s : State) (q : RingId) (f : Sq → Sq) : (s.modSq q f).hif = s.hif := rfl
@[simp] theorem State.modSq_cq (s : State) (q : RingId) (f : Sq → Sq) : (s.modSq q f).cq = s.cq := rfl
@[simp] theorem State.modSq_eq (s : State) (q : RingId) (f : Sq → Sq) : (s.modSq q f).eq = s.eq := rfl
@[simp] theorem State.modSq_ord (s : State) (q : RingId) (f : Sq → Sq) : (s.modSq q f).ord = s.ord := rfl
@[simp] theorem State.modSq_ax (s : State) (q : RingId) (f : Sq → Sq) : (s.modSq q f).ax = s.ax := rfl
@[simp] theorem State.modSq_cards (s : State) (q : RingId) (f : Sq → Sq) : (s.modSq q f).cards = s.cards := rfl
@[simp] theorem State.modSq_cu (s : State) (q : RingId) (f : Sq → Sq) : (s.modSq q f).cu = s.cu := rfl
@[simp] theorem State.modSq_hv (s : State) (q : RingId) (f : Sq → Sq) : (s.modSq q f).hv = s.hv := rfl
@[simp] theorem State.modSq_fbc (s : State) (q : RingId) (f : Sq → Sq) : (s.modSq q f).fbc = s.fbc := rfl
@[simp] theorem State.modSq_sd (s : State) (q : RingId) (f : Sq → Sq) : (s.modSq q f).sd = s.sd := rfl
@[simp] theorem State.modSq_trg (s : State) (q : RingId) (f : Sq → Sq) : (s.modSq q f).trg = s.trg := rfl
@[simp] theorem State.modSq_grp (s : State) (q : RingId) (f : Sq → Sq) : (s.modSq q f).grp = s.grp := rfl
@[simp] theorem State.modSq_prb (s : State) (q : RingId) (f : Sq → Sq) : (s.modSq q f).prb = s.prb := rfl
@[simp] theorem State.modSq_emu (s : State) (q : RingId) (f : Sq → Sq) : (s.modSq q f).emu = s.emu := rfl
@[simp] theorem State.modSq_cmp (s : State) (q : RingId) (f : Sq → Sq) : (s.modSq q f).cmp = s.cmp := rfl
@[simp] theorem State.modSq_gran (s : State) (q : RingId) (f : Sq → Sq) : (s.modSq q f).gran = s.gran := rfl
@[simp] theorem State.modSq_pool (s : State) (q : RingId) (f : Sq → Sq) : (s.modSq q f).pool = s.pool := rfl
@[simp] theorem State.modSq_line (s : State) (q : RingId) (f : Sq → Sq) : (s.modSq q f).line = s.line := rfl
@[simp] theorem State.modSq_wb (s : State) (q : RingId) (f : Sq → Sq) : (s.modSq q f).wb = s.wb := rfl
@[simp] theorem State.modSq_acc (s : State) (q : RingId) (f : Sq → Sq) : (s.modSq q f).acc = s.acc := rfl
@[simp] theorem State.modSq_upd (s : State) (q : RingId) (f : Sq → Sq) : (s.modSq q f).upd = s.upd := rfl
@[simp] theorem State.modSq_sys (s : State) (q : RingId) (f : Sq → Sq) : (s.modSq q f).sys = s.sys := rfl
@[simp] theorem State.modSq_regs (s : State) (q : RingId) (f : Sq → Sq) : (s.modSq q f).regs = s.regs := rfl
@[simp] theorem State.modSq_caps (s : State) (q : RingId) (f : Sq → Sq) : (s.modSq q f).caps = s.caps := rfl
@[simp] theorem State.modSq_bus (s : State) (q : RingId) (f : Sq → Sq) : (s.modSq q f).bus = s.bus := rfl
@[simp] theorem State.modSq_gather (s : State) (q : RingId) (f : Sq → Sq) : (s.modSq q f).gather = s.gather := rfl
@[simp] theorem State.modSq_out (s : State) (q : RingId) (f : Sq → Sq) : (s.modSq q f).out = s.out := rfl
@[simp] theorem State.modSq_free (s : State) (q : RingId) (f : Sq → Sq) : (s.modSq q f).free = s.free := rfl
@[simp] theorem State.modSq_pending (s : State) (q : RingId) (f : Sq → Sq) : (s.modSq q f).pending = s.pending := rfl
theorem State.modSq_sq (s : State) (q : RingId) (f : Sq → Sq) : (s.modSq q f).sq = s.sq.set q (f (s.sq.get q)) := rfl

/-! ### modCq -/

@[simp] theorem State.modCq_frm (s : State) (q : RingId) (f : Cq → Cq) : (s.modCq q f).frm = s.frm := rfl
@[simp] theorem State.modCq_hif (s : State) (q : RingId) (f : Cq → Cq) : (s.modCq q f).hif = s.hif := rfl
@[simp] theorem State.modCq_sq (s : State) (q : RingId) (f : Cq → Cq) : (s.modCq q f).sq = s.sq := rfl
@[simp] theorem State.modCq_eq (s : State) (q : RingId) (f : Cq → Cq) : (s.modCq q f).eq = s.eq := rfl
@[simp] theorem State.modCq_ord (s : State) (q : RingId) (f : Cq → Cq) : (s.modCq q f).ord = s.ord := rfl
@[simp] theorem State.modCq_ax (s : State) (q : RingId) (f : Cq → Cq) : (s.modCq q f).ax = s.ax := rfl
@[simp] theorem State.modCq_cards (s : State) (q : RingId) (f : Cq → Cq) : (s.modCq q f).cards = s.cards := rfl
@[simp] theorem State.modCq_cu (s : State) (q : RingId) (f : Cq → Cq) : (s.modCq q f).cu = s.cu := rfl
@[simp] theorem State.modCq_hv (s : State) (q : RingId) (f : Cq → Cq) : (s.modCq q f).hv = s.hv := rfl
@[simp] theorem State.modCq_fbc (s : State) (q : RingId) (f : Cq → Cq) : (s.modCq q f).fbc = s.fbc := rfl
@[simp] theorem State.modCq_sd (s : State) (q : RingId) (f : Cq → Cq) : (s.modCq q f).sd = s.sd := rfl
@[simp] theorem State.modCq_trg (s : State) (q : RingId) (f : Cq → Cq) : (s.modCq q f).trg = s.trg := rfl
@[simp] theorem State.modCq_grp (s : State) (q : RingId) (f : Cq → Cq) : (s.modCq q f).grp = s.grp := rfl
@[simp] theorem State.modCq_prb (s : State) (q : RingId) (f : Cq → Cq) : (s.modCq q f).prb = s.prb := rfl
@[simp] theorem State.modCq_emu (s : State) (q : RingId) (f : Cq → Cq) : (s.modCq q f).emu = s.emu := rfl
@[simp] theorem State.modCq_cmp (s : State) (q : RingId) (f : Cq → Cq) : (s.modCq q f).cmp = s.cmp := rfl
@[simp] theorem State.modCq_gran (s : State) (q : RingId) (f : Cq → Cq) : (s.modCq q f).gran = s.gran := rfl
@[simp] theorem State.modCq_pool (s : State) (q : RingId) (f : Cq → Cq) : (s.modCq q f).pool = s.pool := rfl
@[simp] theorem State.modCq_line (s : State) (q : RingId) (f : Cq → Cq) : (s.modCq q f).line = s.line := rfl
@[simp] theorem State.modCq_wb (s : State) (q : RingId) (f : Cq → Cq) : (s.modCq q f).wb = s.wb := rfl
@[simp] theorem State.modCq_acc (s : State) (q : RingId) (f : Cq → Cq) : (s.modCq q f).acc = s.acc := rfl
@[simp] theorem State.modCq_upd (s : State) (q : RingId) (f : Cq → Cq) : (s.modCq q f).upd = s.upd := rfl
@[simp] theorem State.modCq_sys (s : State) (q : RingId) (f : Cq → Cq) : (s.modCq q f).sys = s.sys := rfl
@[simp] theorem State.modCq_regs (s : State) (q : RingId) (f : Cq → Cq) : (s.modCq q f).regs = s.regs := rfl
@[simp] theorem State.modCq_caps (s : State) (q : RingId) (f : Cq → Cq) : (s.modCq q f).caps = s.caps := rfl
@[simp] theorem State.modCq_bus (s : State) (q : RingId) (f : Cq → Cq) : (s.modCq q f).bus = s.bus := rfl
@[simp] theorem State.modCq_gather (s : State) (q : RingId) (f : Cq → Cq) : (s.modCq q f).gather = s.gather := rfl
@[simp] theorem State.modCq_out (s : State) (q : RingId) (f : Cq → Cq) : (s.modCq q f).out = s.out := rfl
@[simp] theorem State.modCq_free (s : State) (q : RingId) (f : Cq → Cq) : (s.modCq q f).free = s.free := rfl
@[simp] theorem State.modCq_pending (s : State) (q : RingId) (f : Cq → Cq) : (s.modCq q f).pending = s.pending := rfl
theorem State.modCq_cq (s : State) (q : RingId) (f : Cq → Cq) : (s.modCq q f).cq = s.cq.set q (f (s.cq.get q)) := rfl

/-! ### modCu -/

@[simp] theorem State.modCu_frm (s : State) (u : CarrierId) (f : CUnit → CUnit) : (s.modCu u f).frm = s.frm := rfl
@[simp] theorem State.modCu_hif (s : State) (u : CarrierId) (f : CUnit → CUnit) : (s.modCu u f).hif = s.hif := rfl
@[simp] theorem State.modCu_sq (s : State) (u : CarrierId) (f : CUnit → CUnit) : (s.modCu u f).sq = s.sq := rfl
@[simp] theorem State.modCu_cq (s : State) (u : CarrierId) (f : CUnit → CUnit) : (s.modCu u f).cq = s.cq := rfl
@[simp] theorem State.modCu_eq (s : State) (u : CarrierId) (f : CUnit → CUnit) : (s.modCu u f).eq = s.eq := rfl
@[simp] theorem State.modCu_ord (s : State) (u : CarrierId) (f : CUnit → CUnit) : (s.modCu u f).ord = s.ord := rfl
@[simp] theorem State.modCu_ax (s : State) (u : CarrierId) (f : CUnit → CUnit) : (s.modCu u f).ax = s.ax := rfl
@[simp] theorem State.modCu_cards (s : State) (u : CarrierId) (f : CUnit → CUnit) : (s.modCu u f).cards = s.cards := rfl
@[simp] theorem State.modCu_hv (s : State) (u : CarrierId) (f : CUnit → CUnit) : (s.modCu u f).hv = s.hv := rfl
@[simp] theorem State.modCu_fbc (s : State) (u : CarrierId) (f : CUnit → CUnit) : (s.modCu u f).fbc = s.fbc := rfl
@[simp] theorem State.modCu_sd (s : State) (u : CarrierId) (f : CUnit → CUnit) : (s.modCu u f).sd = s.sd := rfl
@[simp] theorem State.modCu_trg (s : State) (u : CarrierId) (f : CUnit → CUnit) : (s.modCu u f).trg = s.trg := rfl
@[simp] theorem State.modCu_grp (s : State) (u : CarrierId) (f : CUnit → CUnit) : (s.modCu u f).grp = s.grp := rfl
@[simp] theorem State.modCu_prb (s : State) (u : CarrierId) (f : CUnit → CUnit) : (s.modCu u f).prb = s.prb := rfl
@[simp] theorem State.modCu_emu (s : State) (u : CarrierId) (f : CUnit → CUnit) : (s.modCu u f).emu = s.emu := rfl
@[simp] theorem State.modCu_cmp (s : State) (u : CarrierId) (f : CUnit → CUnit) : (s.modCu u f).cmp = s.cmp := rfl
@[simp] theorem State.modCu_gran (s : State) (u : CarrierId) (f : CUnit → CUnit) : (s.modCu u f).gran = s.gran := rfl
@[simp] theorem State.modCu_pool (s : State) (u : CarrierId) (f : CUnit → CUnit) : (s.modCu u f).pool = s.pool := rfl
@[simp] theorem State.modCu_line (s : State) (u : CarrierId) (f : CUnit → CUnit) : (s.modCu u f).line = s.line := rfl
@[simp] theorem State.modCu_wb (s : State) (u : CarrierId) (f : CUnit → CUnit) : (s.modCu u f).wb = s.wb := rfl
@[simp] theorem State.modCu_acc (s : State) (u : CarrierId) (f : CUnit → CUnit) : (s.modCu u f).acc = s.acc := rfl
@[simp] theorem State.modCu_upd (s : State) (u : CarrierId) (f : CUnit → CUnit) : (s.modCu u f).upd = s.upd := rfl
@[simp] theorem State.modCu_sys (s : State) (u : CarrierId) (f : CUnit → CUnit) : (s.modCu u f).sys = s.sys := rfl
@[simp] theorem State.modCu_regs (s : State) (u : CarrierId) (f : CUnit → CUnit) : (s.modCu u f).regs = s.regs := rfl
@[simp] theorem State.modCu_caps (s : State) (u : CarrierId) (f : CUnit → CUnit) : (s.modCu u f).caps = s.caps := rfl
@[simp] theorem State.modCu_bus (s : State) (u : CarrierId) (f : CUnit → CUnit) : (s.modCu u f).bus = s.bus := rfl
@[simp] theorem State.modCu_gather (s : State) (u : CarrierId) (f : CUnit → CUnit) : (s.modCu u f).gather = s.gather := rfl
@[simp] theorem State.modCu_out (s : State) (u : CarrierId) (f : CUnit → CUnit) : (s.modCu u f).out = s.out := rfl
@[simp] theorem State.modCu_free (s : State) (u : CarrierId) (f : CUnit → CUnit) : (s.modCu u f).free = s.free := rfl
@[simp] theorem State.modCu_pending (s : State) (u : CarrierId) (f : CUnit → CUnit) : (s.modCu u f).pending = s.pending := rfl
theorem State.modCu_cu (s : State) (u : CarrierId) (f : CUnit → CUnit) : (s.modCu u f).cu = s.cu.set u (f (s.cu.get u)) := rfl

/-! ### modHv -/

@[simp] theorem State.modHv_frm (s : State) (h : HeavyId) (f : HvState → HvState) : (s.modHv h f).frm = s.frm := rfl
@[simp] theorem State.modHv_hif (s : State) (h : HeavyId) (f : HvState → HvState) : (s.modHv h f).hif = s.hif := rfl
@[simp] theorem State.modHv_sq (s : State) (h : HeavyId) (f : HvState → HvState) : (s.modHv h f).sq = s.sq := rfl
@[simp] theorem State.modHv_cq (s : State) (h : HeavyId) (f : HvState → HvState) : (s.modHv h f).cq = s.cq := rfl
@[simp] theorem State.modHv_eq (s : State) (h : HeavyId) (f : HvState → HvState) : (s.modHv h f).eq = s.eq := rfl
@[simp] theorem State.modHv_ord (s : State) (h : HeavyId) (f : HvState → HvState) : (s.modHv h f).ord = s.ord := rfl
@[simp] theorem State.modHv_ax (s : State) (h : HeavyId) (f : HvState → HvState) : (s.modHv h f).ax = s.ax := rfl
@[simp] theorem State.modHv_cards (s : State) (h : HeavyId) (f : HvState → HvState) : (s.modHv h f).cards = s.cards := rfl
@[simp] theorem State.modHv_cu (s : State) (h : HeavyId) (f : HvState → HvState) : (s.modHv h f).cu = s.cu := rfl
@[simp] theorem State.modHv_fbc (s : State) (h : HeavyId) (f : HvState → HvState) : (s.modHv h f).fbc = s.fbc := rfl
@[simp] theorem State.modHv_sd (s : State) (h : HeavyId) (f : HvState → HvState) : (s.modHv h f).sd = s.sd := rfl
@[simp] theorem State.modHv_trg (s : State) (h : HeavyId) (f : HvState → HvState) : (s.modHv h f).trg = s.trg := rfl
@[simp] theorem State.modHv_grp (s : State) (h : HeavyId) (f : HvState → HvState) : (s.modHv h f).grp = s.grp := rfl
@[simp] theorem State.modHv_prb (s : State) (h : HeavyId) (f : HvState → HvState) : (s.modHv h f).prb = s.prb := rfl
@[simp] theorem State.modHv_emu (s : State) (h : HeavyId) (f : HvState → HvState) : (s.modHv h f).emu = s.emu := rfl
@[simp] theorem State.modHv_cmp (s : State) (h : HeavyId) (f : HvState → HvState) : (s.modHv h f).cmp = s.cmp := rfl
@[simp] theorem State.modHv_gran (s : State) (h : HeavyId) (f : HvState → HvState) : (s.modHv h f).gran = s.gran := rfl
@[simp] theorem State.modHv_pool (s : State) (h : HeavyId) (f : HvState → HvState) : (s.modHv h f).pool = s.pool := rfl
@[simp] theorem State.modHv_line (s : State) (h : HeavyId) (f : HvState → HvState) : (s.modHv h f).line = s.line := rfl
@[simp] theorem State.modHv_wb (s : State) (h : HeavyId) (f : HvState → HvState) : (s.modHv h f).wb = s.wb := rfl
@[simp] theorem State.modHv_acc (s : State) (h : HeavyId) (f : HvState → HvState) : (s.modHv h f).acc = s.acc := rfl
@[simp] theorem State.modHv_upd (s : State) (h : HeavyId) (f : HvState → HvState) : (s.modHv h f).upd = s.upd := rfl
@[simp] theorem State.modHv_sys (s : State) (h : HeavyId) (f : HvState → HvState) : (s.modHv h f).sys = s.sys := rfl
@[simp] theorem State.modHv_regs (s : State) (h : HeavyId) (f : HvState → HvState) : (s.modHv h f).regs = s.regs := rfl
@[simp] theorem State.modHv_caps (s : State) (h : HeavyId) (f : HvState → HvState) : (s.modHv h f).caps = s.caps := rfl
@[simp] theorem State.modHv_bus (s : State) (h : HeavyId) (f : HvState → HvState) : (s.modHv h f).bus = s.bus := rfl
@[simp] theorem State.modHv_gather (s : State) (h : HeavyId) (f : HvState → HvState) : (s.modHv h f).gather = s.gather := rfl
@[simp] theorem State.modHv_out (s : State) (h : HeavyId) (f : HvState → HvState) : (s.modHv h f).out = s.out := rfl
@[simp] theorem State.modHv_free (s : State) (h : HeavyId) (f : HvState → HvState) : (s.modHv h f).free = s.free := rfl
@[simp] theorem State.modHv_pending (s : State) (h : HeavyId) (f : HvState → HvState) : (s.modHv h f).pending = s.pending := rfl
theorem State.modHv_hv (s : State) (h : HeavyId) (f : HvState → HvState) : (s.modHv h f).hv = s.hv.set h (f (s.hv.get h)) := rfl

/-! ### modFbc -/

@[simp] theorem State.modFbc_frm (s : State) (c : Fin 24) (f : FbChan → FbChan) : (s.modFbc c f).frm = s.frm := rfl
@[simp] theorem State.modFbc_hif (s : State) (c : Fin 24) (f : FbChan → FbChan) : (s.modFbc c f).hif = s.hif := rfl
@[simp] theorem State.modFbc_sq (s : State) (c : Fin 24) (f : FbChan → FbChan) : (s.modFbc c f).sq = s.sq := rfl
@[simp] theorem State.modFbc_cq (s : State) (c : Fin 24) (f : FbChan → FbChan) : (s.modFbc c f).cq = s.cq := rfl
@[simp] theorem State.modFbc_eq (s : State) (c : Fin 24) (f : FbChan → FbChan) : (s.modFbc c f).eq = s.eq := rfl
@[simp] theorem State.modFbc_ord (s : State) (c : Fin 24) (f : FbChan → FbChan) : (s.modFbc c f).ord = s.ord := rfl
@[simp] theorem State.modFbc_ax (s : State) (c : Fin 24) (f : FbChan → FbChan) : (s.modFbc c f).ax = s.ax := rfl
@[simp] theorem State.modFbc_cards (s : State) (c : Fin 24) (f : FbChan → FbChan) : (s.modFbc c f).cards = s.cards := rfl
@[simp] theorem State.modFbc_cu (s : State) (c : Fin 24) (f : FbChan → FbChan) : (s.modFbc c f).cu = s.cu := rfl
@[simp] theorem State.modFbc_hv (s : State) (c : Fin 24) (f : FbChan → FbChan) : (s.modFbc c f).hv = s.hv := rfl
@[simp] theorem State.modFbc_sd (s : State) (c : Fin 24) (f : FbChan → FbChan) : (s.modFbc c f).sd = s.sd := rfl
@[simp] theorem State.modFbc_trg (s : State) (c : Fin 24) (f : FbChan → FbChan) : (s.modFbc c f).trg = s.trg := rfl
@[simp] theorem State.modFbc_grp (s : State) (c : Fin 24) (f : FbChan → FbChan) : (s.modFbc c f).grp = s.grp := rfl
@[simp] theorem State.modFbc_prb (s : State) (c : Fin 24) (f : FbChan → FbChan) : (s.modFbc c f).prb = s.prb := rfl
@[simp] theorem State.modFbc_emu (s : State) (c : Fin 24) (f : FbChan → FbChan) : (s.modFbc c f).emu = s.emu := rfl
@[simp] theorem State.modFbc_cmp (s : State) (c : Fin 24) (f : FbChan → FbChan) : (s.modFbc c f).cmp = s.cmp := rfl
@[simp] theorem State.modFbc_gran (s : State) (c : Fin 24) (f : FbChan → FbChan) : (s.modFbc c f).gran = s.gran := rfl
@[simp] theorem State.modFbc_pool (s : State) (c : Fin 24) (f : FbChan → FbChan) : (s.modFbc c f).pool = s.pool := rfl
@[simp] theorem State.modFbc_line (s : State) (c : Fin 24) (f : FbChan → FbChan) : (s.modFbc c f).line = s.line := rfl
@[simp] theorem State.modFbc_wb (s : State) (c : Fin 24) (f : FbChan → FbChan) : (s.modFbc c f).wb = s.wb := rfl
@[simp] theorem State.modFbc_acc (s : State) (c : Fin 24) (f : FbChan → FbChan) : (s.modFbc c f).acc = s.acc := rfl
@[simp] theorem State.modFbc_upd (s : State) (c : Fin 24) (f : FbChan → FbChan) : (s.modFbc c f).upd = s.upd := rfl
@[simp] theorem State.modFbc_sys (s : State) (c : Fin 24) (f : FbChan → FbChan) : (s.modFbc c f).sys = s.sys := rfl
@[simp] theorem State.modFbc_regs (s : State) (c : Fin 24) (f : FbChan → FbChan) : (s.modFbc c f).regs = s.regs := rfl
@[simp] theorem State.modFbc_caps (s : State) (c : Fin 24) (f : FbChan → FbChan) : (s.modFbc c f).caps = s.caps := rfl
@[simp] theorem State.modFbc_bus (s : State) (c : Fin 24) (f : FbChan → FbChan) : (s.modFbc c f).bus = s.bus := rfl
@[simp] theorem State.modFbc_gather (s : State) (c : Fin 24) (f : FbChan → FbChan) : (s.modFbc c f).gather = s.gather := rfl
@[simp] theorem State.modFbc_out (s : State) (c : Fin 24) (f : FbChan → FbChan) : (s.modFbc c f).out = s.out := rfl
@[simp] theorem State.modFbc_free (s : State) (c : Fin 24) (f : FbChan → FbChan) : (s.modFbc c f).free = s.free := rfl
@[simp] theorem State.modFbc_pending (s : State) (c : Fin 24) (f : FbChan → FbChan) : (s.modFbc c f).pending = s.pending := rfl
theorem State.modFbc_fbc (s : State) (c : Fin 24) (f : FbChan → FbChan) : (s.modFbc c f).fbc = s.fbc.set c (f (s.fbc.get c)) := rfl

/-! ### modSd -/

@[simp] theorem State.modSd_frm (s : State) (p : Fin 16) (f : StepIn → StepIn) : (s.modSd p f).frm = s.frm := rfl
@[simp] theorem State.modSd_hif (s : State) (p : Fin 16) (f : StepIn → StepIn) : (s.modSd p f).hif = s.hif := rfl
@[simp] theorem State.modSd_sq (s : State) (p : Fin 16) (f : StepIn → StepIn) : (s.modSd p f).sq = s.sq := rfl
@[simp] theorem State.modSd_cq (s : State) (p : Fin 16) (f : StepIn → StepIn) : (s.modSd p f).cq = s.cq := rfl
@[simp] theorem State.modSd_eq (s : State) (p : Fin 16) (f : StepIn → StepIn) : (s.modSd p f).eq = s.eq := rfl
@[simp] theorem State.modSd_ord (s : State) (p : Fin 16) (f : StepIn → StepIn) : (s.modSd p f).ord = s.ord := rfl
@[simp] theorem State.modSd_ax (s : State) (p : Fin 16) (f : StepIn → StepIn) : (s.modSd p f).ax = s.ax := rfl
@[simp] theorem State.modSd_cards (s : State) (p : Fin 16) (f : StepIn → StepIn) : (s.modSd p f).cards = s.cards := rfl
@[simp] theorem State.modSd_cu (s : State) (p : Fin 16) (f : StepIn → StepIn) : (s.modSd p f).cu = s.cu := rfl
@[simp] theorem State.modSd_hv (s : State) (p : Fin 16) (f : StepIn → StepIn) : (s.modSd p f).hv = s.hv := rfl
@[simp] theorem State.modSd_fbc (s : State) (p : Fin 16) (f : StepIn → StepIn) : (s.modSd p f).fbc = s.fbc := rfl
@[simp] theorem State.modSd_trg (s : State) (p : Fin 16) (f : StepIn → StepIn) : (s.modSd p f).trg = s.trg := rfl
@[simp] theorem State.modSd_grp (s : State) (p : Fin 16) (f : StepIn → StepIn) : (s.modSd p f).grp = s.grp := rfl
@[simp] theorem State.modSd_prb (s : State) (p : Fin 16) (f : StepIn → StepIn) : (s.modSd p f).prb = s.prb := rfl
@[simp] theorem State.modSd_emu (s : State) (p : Fin 16) (f : StepIn → StepIn) : (s.modSd p f).emu = s.emu := rfl
@[simp] theorem State.modSd_cmp (s : State) (p : Fin 16) (f : StepIn → StepIn) : (s.modSd p f).cmp = s.cmp := rfl
@[simp] theorem State.modSd_gran (s : State) (p : Fin 16) (f : StepIn → StepIn) : (s.modSd p f).gran = s.gran := rfl
@[simp] theorem State.modSd_pool (s : State) (p : Fin 16) (f : StepIn → StepIn) : (s.modSd p f).pool = s.pool := rfl
@[simp] theorem State.modSd_line (s : State) (p : Fin 16) (f : StepIn → StepIn) : (s.modSd p f).line = s.line := rfl
@[simp] theorem State.modSd_wb (s : State) (p : Fin 16) (f : StepIn → StepIn) : (s.modSd p f).wb = s.wb := rfl
@[simp] theorem State.modSd_acc (s : State) (p : Fin 16) (f : StepIn → StepIn) : (s.modSd p f).acc = s.acc := rfl
@[simp] theorem State.modSd_upd (s : State) (p : Fin 16) (f : StepIn → StepIn) : (s.modSd p f).upd = s.upd := rfl
@[simp] theorem State.modSd_sys (s : State) (p : Fin 16) (f : StepIn → StepIn) : (s.modSd p f).sys = s.sys := rfl
@[simp] theorem State.modSd_regs (s : State) (p : Fin 16) (f : StepIn → StepIn) : (s.modSd p f).regs = s.regs := rfl
@[simp] theorem State.modSd_caps (s : State) (p : Fin 16) (f : StepIn → StepIn) : (s.modSd p f).caps = s.caps := rfl
@[simp] theorem State.modSd_bus (s : State) (p : Fin 16) (f : StepIn → StepIn) : (s.modSd p f).bus = s.bus := rfl
@[simp] theorem State.modSd_gather (s : State) (p : Fin 16) (f : StepIn → StepIn) : (s.modSd p f).gather = s.gather := rfl
@[simp] theorem State.modSd_out (s : State) (p : Fin 16) (f : StepIn → StepIn) : (s.modSd p f).out = s.out := rfl
@[simp] theorem State.modSd_free (s : State) (p : Fin 16) (f : StepIn → StepIn) : (s.modSd p f).free = s.free := rfl
@[simp] theorem State.modSd_pending (s : State) (p : Fin 16) (f : StepIn → StepIn) : (s.modSd p f).pending = s.pending := rfl
theorem State.modSd_sd (s : State) (p : Fin 16) (f : StepIn → StepIn) : (s.modSd p f).sd = s.sd.set p (f (s.sd.get p)) := rfl

/-! ### modTrg -/

@[simp] theorem State.modTrg_frm (s : State) (m : Fin 64) (f : Trig → Trig) : (s.modTrg m f).frm = s.frm := rfl
@[simp] theorem State.modTrg_hif (s : State) (m : Fin 64) (f : Trig → Trig) : (s.modTrg m f).hif = s.hif := rfl
@[simp] theorem State.modTrg_sq (s : State) (m : Fin 64) (f : Trig → Trig) : (s.modTrg m f).sq = s.sq := rfl
@[simp] theorem State.modTrg_cq (s : State) (m : Fin 64) (f : Trig → Trig) : (s.modTrg m f).cq = s.cq := rfl
@[simp] theorem State.modTrg_eq (s : State) (m : Fin 64) (f : Trig → Trig) : (s.modTrg m f).eq = s.eq := rfl
@[simp] theorem State.modTrg_ord (s : State) (m : Fin 64) (f : Trig → Trig) : (s.modTrg m f).ord = s.ord := rfl
@[simp] theorem State.modTrg_ax (s : State) (m : Fin 64) (f : Trig → Trig) : (s.modTrg m f).ax = s.ax := rfl
@[simp] theorem State.modTrg_cards (s : State) (m : Fin 64) (f : Trig → Trig) : (s.modTrg m f).cards = s.cards := rfl
@[simp] theorem State.modTrg_cu (s : State) (m : Fin 64) (f : Trig → Trig) : (s.modTrg m f).cu = s.cu := rfl
@[simp] theorem State.modTrg_hv (s : State) (m : Fin 64) (f : Trig → Trig) : (s.modTrg m f).hv = s.hv := rfl
@[simp] theorem State.modTrg_fbc (s : State) (m : Fin 64) (f : Trig → Trig) : (s.modTrg m f).fbc = s.fbc := rfl
@[simp] theorem State.modTrg_sd (s : State) (m : Fin 64) (f : Trig → Trig) : (s.modTrg m f).sd = s.sd := rfl
@[simp] theorem State.modTrg_grp (s : State) (m : Fin 64) (f : Trig → Trig) : (s.modTrg m f).grp = s.grp := rfl
@[simp] theorem State.modTrg_prb (s : State) (m : Fin 64) (f : Trig → Trig) : (s.modTrg m f).prb = s.prb := rfl
@[simp] theorem State.modTrg_emu (s : State) (m : Fin 64) (f : Trig → Trig) : (s.modTrg m f).emu = s.emu := rfl
@[simp] theorem State.modTrg_cmp (s : State) (m : Fin 64) (f : Trig → Trig) : (s.modTrg m f).cmp = s.cmp := rfl
@[simp] theorem State.modTrg_gran (s : State) (m : Fin 64) (f : Trig → Trig) : (s.modTrg m f).gran = s.gran := rfl
@[simp] theorem State.modTrg_pool (s : State) (m : Fin 64) (f : Trig → Trig) : (s.modTrg m f).pool = s.pool := rfl
@[simp] theorem State.modTrg_line (s : State) (m : Fin 64) (f : Trig → Trig) : (s.modTrg m f).line = s.line := rfl
@[simp] theorem State.modTrg_wb (s : State) (m : Fin 64) (f : Trig → Trig) : (s.modTrg m f).wb = s.wb := rfl
@[simp] theorem State.modTrg_acc (s : State) (m : Fin 64) (f : Trig → Trig) : (s.modTrg m f).acc = s.acc := rfl
@[simp] theorem State.modTrg_upd (s : State) (m : Fin 64) (f : Trig → Trig) : (s.modTrg m f).upd = s.upd := rfl
@[simp] theorem State.modTrg_sys (s : State) (m : Fin 64) (f : Trig → Trig) : (s.modTrg m f).sys = s.sys := rfl
@[simp] theorem State.modTrg_regs (s : State) (m : Fin 64) (f : Trig → Trig) : (s.modTrg m f).regs = s.regs := rfl
@[simp] theorem State.modTrg_caps (s : State) (m : Fin 64) (f : Trig → Trig) : (s.modTrg m f).caps = s.caps := rfl
@[simp] theorem State.modTrg_bus (s : State) (m : Fin 64) (f : Trig → Trig) : (s.modTrg m f).bus = s.bus := rfl
@[simp] theorem State.modTrg_gather (s : State) (m : Fin 64) (f : Trig → Trig) : (s.modTrg m f).gather = s.gather := rfl
@[simp] theorem State.modTrg_out (s : State) (m : Fin 64) (f : Trig → Trig) : (s.modTrg m f).out = s.out := rfl
@[simp] theorem State.modTrg_free (s : State) (m : Fin 64) (f : Trig → Trig) : (s.modTrg m f).free = s.free := rfl
@[simp] theorem State.modTrg_pending (s : State) (m : Fin 64) (f : Trig → Trig) : (s.modTrg m f).pending = s.pending := rfl
theorem State.modTrg_trg (s : State) (m : Fin 64) (f : Trig → Trig) : (s.modTrg m f).trg = s.trg.set m (f (s.trg.get m)) := rfl

/-! ### modEmu -/

@[simp] theorem State.modEmu_frm (s : State) (e : Fin 4) (f : Emu → Emu) : (s.modEmu e f).frm = s.frm := rfl
@[simp] theorem State.modEmu_hif (s : State) (e : Fin 4) (f : Emu → Emu) : (s.modEmu e f).hif = s.hif := rfl
@[simp] theorem State.modEmu_sq (s : State) (e : Fin 4) (f : Emu → Emu) : (s.modEmu e f).sq = s.sq := rfl
@[simp] theorem State.modEmu_cq (s : State) (e : Fin 4) (f : Emu → Emu) : (s.modEmu e f).cq = s.cq := rfl
@[simp] theorem State.modEmu_eq (s : State) (e : Fin 4) (f : Emu → Emu) : (s.modEmu e f).eq = s.eq := rfl
@[simp] theorem State.modEmu_ord (s : State) (e : Fin 4) (f : Emu → Emu) : (s.modEmu e f).ord = s.ord := rfl
@[simp] theorem State.modEmu_ax (s : State) (e : Fin 4) (f : Emu → Emu) : (s.modEmu e f).ax = s.ax := rfl
@[simp] theorem State.modEmu_cards (s : State) (e : Fin 4) (f : Emu → Emu) : (s.modEmu e f).cards = s.cards := rfl
@[simp] theorem State.modEmu_cu (s : State) (e : Fin 4) (f : Emu → Emu) : (s.modEmu e f).cu = s.cu := rfl
@[simp] theorem State.modEmu_hv (s : State) (e : Fin 4) (f : Emu → Emu) : (s.modEmu e f).hv = s.hv := rfl
@[simp] theorem State.modEmu_fbc (s : State) (e : Fin 4) (f : Emu → Emu) : (s.modEmu e f).fbc = s.fbc := rfl
@[simp] theorem State.modEmu_sd (s : State) (e : Fin 4) (f : Emu → Emu) : (s.modEmu e f).sd = s.sd := rfl
@[simp] theorem State.modEmu_trg (s : State) (e : Fin 4) (f : Emu → Emu) : (s.modEmu e f).trg = s.trg := rfl
@[simp] theorem State.modEmu_grp (s : State) (e : Fin 4) (f : Emu → Emu) : (s.modEmu e f).grp = s.grp := rfl
@[simp] theorem State.modEmu_prb (s : State) (e : Fin 4) (f : Emu → Emu) : (s.modEmu e f).prb = s.prb := rfl
@[simp] theorem State.modEmu_cmp (s : State) (e : Fin 4) (f : Emu → Emu) : (s.modEmu e f).cmp = s.cmp := rfl
@[simp] theorem State.modEmu_gran (s : State) (e : Fin 4) (f : Emu → Emu) : (s.modEmu e f).gran = s.gran := rfl
@[simp] theorem State.modEmu_pool (s : State) (e : Fin 4) (f : Emu → Emu) : (s.modEmu e f).pool = s.pool := rfl
@[simp] theorem State.modEmu_line (s : State) (e : Fin 4) (f : Emu → Emu) : (s.modEmu e f).line = s.line := rfl
@[simp] theorem State.modEmu_wb (s : State) (e : Fin 4) (f : Emu → Emu) : (s.modEmu e f).wb = s.wb := rfl
@[simp] theorem State.modEmu_acc (s : State) (e : Fin 4) (f : Emu → Emu) : (s.modEmu e f).acc = s.acc := rfl
@[simp] theorem State.modEmu_upd (s : State) (e : Fin 4) (f : Emu → Emu) : (s.modEmu e f).upd = s.upd := rfl
@[simp] theorem State.modEmu_sys (s : State) (e : Fin 4) (f : Emu → Emu) : (s.modEmu e f).sys = s.sys := rfl
@[simp] theorem State.modEmu_regs (s : State) (e : Fin 4) (f : Emu → Emu) : (s.modEmu e f).regs = s.regs := rfl
@[simp] theorem State.modEmu_caps (s : State) (e : Fin 4) (f : Emu → Emu) : (s.modEmu e f).caps = s.caps := rfl
@[simp] theorem State.modEmu_bus (s : State) (e : Fin 4) (f : Emu → Emu) : (s.modEmu e f).bus = s.bus := rfl
@[simp] theorem State.modEmu_gather (s : State) (e : Fin 4) (f : Emu → Emu) : (s.modEmu e f).gather = s.gather := rfl
@[simp] theorem State.modEmu_out (s : State) (e : Fin 4) (f : Emu → Emu) : (s.modEmu e f).out = s.out := rfl
@[simp] theorem State.modEmu_free (s : State) (e : Fin 4) (f : Emu → Emu) : (s.modEmu e f).free = s.free := rfl
@[simp] theorem State.modEmu_pending (s : State) (e : Fin 4) (f : Emu → Emu) : (s.modEmu e f).pending = s.pending := rfl
theorem State.modEmu_emu (s : State) (e : Fin 4) (f : Emu → Emu) : (s.modEmu e f).emu = s.emu.set e (f (s.emu.get e)) := rfl

/-! ### modPool -/

@[simp] theorem State.modPool_frm (s : State) (p : Fin 7) (f : Pool → Pool) : (s.modPool p f).frm = s.frm := rfl
@[simp] theorem State.modPool_hif (s : State) (p : Fin 7) (f : Pool → Pool) : (s.modPool p f).hif = s.hif := rfl
@[simp] theorem State.modPool_sq (s : State) (p : Fin 7) (f : Pool → Pool) : (s.modPool p f).sq = s.sq := rfl
@[simp] theorem State.modPool_cq (s : State) (p : Fin 7) (f : Pool → Pool) : (s.modPool p f).cq = s.cq := rfl
@[simp] theorem State.modPool_eq (s : State) (p : Fin 7) (f : Pool → Pool) : (s.modPool p f).eq = s.eq := rfl
@[simp] theorem State.modPool_ord (s : State) (p : Fin 7) (f : Pool → Pool) : (s.modPool p f).ord = s.ord := rfl
@[simp] theorem State.modPool_ax (s : State) (p : Fin 7) (f : Pool → Pool) : (s.modPool p f).ax = s.ax := rfl
@[simp] theorem State.modPool_cards (s : State) (p : Fin 7) (f : Pool → Pool) : (s.modPool p f).cards = s.cards := rfl
@[simp] theorem State.modPool_cu (s : State) (p : Fin 7) (f : Pool → Pool) : (s.modPool p f).cu = s.cu := rfl
@[simp] theorem State.modPool_hv (s : State) (p : Fin 7) (f : Pool → Pool) : (s.modPool p f).hv = s.hv := rfl
@[simp] theorem State.modPool_fbc (s : State) (p : Fin 7) (f : Pool → Pool) : (s.modPool p f).fbc = s.fbc := rfl
@[simp] theorem State.modPool_sd (s : State) (p : Fin 7) (f : Pool → Pool) : (s.modPool p f).sd = s.sd := rfl
@[simp] theorem State.modPool_trg (s : State) (p : Fin 7) (f : Pool → Pool) : (s.modPool p f).trg = s.trg := rfl
@[simp] theorem State.modPool_grp (s : State) (p : Fin 7) (f : Pool → Pool) : (s.modPool p f).grp = s.grp := rfl
@[simp] theorem State.modPool_prb (s : State) (p : Fin 7) (f : Pool → Pool) : (s.modPool p f).prb = s.prb := rfl
@[simp] theorem State.modPool_emu (s : State) (p : Fin 7) (f : Pool → Pool) : (s.modPool p f).emu = s.emu := rfl
@[simp] theorem State.modPool_cmp (s : State) (p : Fin 7) (f : Pool → Pool) : (s.modPool p f).cmp = s.cmp := rfl
@[simp] theorem State.modPool_line (s : State) (p : Fin 7) (f : Pool → Pool) : (s.modPool p f).line = s.line := rfl
@[simp] theorem State.modPool_wb (s : State) (p : Fin 7) (f : Pool → Pool) : (s.modPool p f).wb = s.wb := rfl
@[simp] theorem State.modPool_acc (s : State) (p : Fin 7) (f : Pool → Pool) : (s.modPool p f).acc = s.acc := rfl
@[simp] theorem State.modPool_upd (s : State) (p : Fin 7) (f : Pool → Pool) : (s.modPool p f).upd = s.upd := rfl
@[simp] theorem State.modPool_sys (s : State) (p : Fin 7) (f : Pool → Pool) : (s.modPool p f).sys = s.sys := rfl
@[simp] theorem State.modPool_regs (s : State) (p : Fin 7) (f : Pool → Pool) : (s.modPool p f).regs = s.regs := rfl
@[simp] theorem State.modPool_caps (s : State) (p : Fin 7) (f : Pool → Pool) : (s.modPool p f).caps = s.caps := rfl
@[simp] theorem State.modPool_bus (s : State) (p : Fin 7) (f : Pool → Pool) : (s.modPool p f).bus = s.bus := rfl
@[simp] theorem State.modPool_gather (s : State) (p : Fin 7) (f : Pool → Pool) : (s.modPool p f).gather = s.gather := rfl
@[simp] theorem State.modPool_out (s : State) (p : Fin 7) (f : Pool → Pool) : (s.modPool p f).out = s.out := rfl
@[simp] theorem State.modPool_free (s : State) (p : Fin 7) (f : Pool → Pool) : (s.modPool p f).free = s.free := rfl
@[simp] theorem State.modPool_pending (s : State) (p : Fin 7) (f : Pool → Pool) : (s.modPool p f).pending = s.pending := rfl
@[simp] theorem State.modPool_gran (s : State) (p : Fin 7) (f : Pool → Pool) : (s.modPool p f).gran = s.gran := rfl
theorem State.modPool_pool (s : State) (p : Fin 7) (f : Pool → Pool) : (s.modPool p f).pool = s.pool.set p (f (s.pool.get p)) := rfl

/-! ### modCard -/

@[simp] theorem State.modCard_frm (s : State) (c : Fin 64) (f : Card → Card) : (s.modCard c f).frm = s.frm := rfl
@[simp] theorem State.modCard_hif (s : State) (c : Fin 64) (f : Card → Card) : (s.modCard c f).hif = s.hif := rfl
@[simp] theorem State.modCard_sq (s : State) (c : Fin 64) (f : Card → Card) : (s.modCard c f).sq = s.sq := rfl
@[simp] theorem State.modCard_cq (s : State) (c : Fin 64) (f : Card → Card) : (s.modCard c f).cq = s.cq := rfl
@[simp] theorem State.modCard_eq (s : State) (c : Fin 64) (f : Card → Card) : (s.modCard c f).eq = s.eq := rfl
@[simp] theorem State.modCard_ord (s : State) (c : Fin 64) (f : Card → Card) : (s.modCard c f).ord = s.ord := rfl
@[simp] theorem State.modCard_ax (s : State) (c : Fin 64) (f : Card → Card) : (s.modCard c f).ax = s.ax := rfl
@[simp] theorem State.modCard_cu (s : State) (c : Fin 64) (f : Card → Card) : (s.modCard c f).cu = s.cu := rfl
@[simp] theorem State.modCard_hv (s : State) (c : Fin 64) (f : Card → Card) : (s.modCard c f).hv = s.hv := rfl
@[simp] theorem State.modCard_fbc (s : State) (c : Fin 64) (f : Card → Card) : (s.modCard c f).fbc = s.fbc := rfl
@[simp] theorem State.modCard_sd (s : State) (c : Fin 64) (f : Card → Card) : (s.modCard c f).sd = s.sd := rfl
@[simp] theorem State.modCard_trg (s : State) (c : Fin 64) (f : Card → Card) : (s.modCard c f).trg = s.trg := rfl
@[simp] theorem State.modCard_grp (s : State) (c : Fin 64) (f : Card → Card) : (s.modCard c f).grp = s.grp := rfl
@[simp] theorem State.modCard_prb (s : State) (c : Fin 64) (f : Card → Card) : (s.modCard c f).prb = s.prb := rfl
@[simp] theorem State.modCard_emu (s : State) (c : Fin 64) (f : Card → Card) : (s.modCard c f).emu = s.emu := rfl
@[simp] theorem State.modCard_cmp (s : State) (c : Fin 64) (f : Card → Card) : (s.modCard c f).cmp = s.cmp := rfl
@[simp] theorem State.modCard_gran (s : State) (c : Fin 64) (f : Card → Card) : (s.modCard c f).gran = s.gran := rfl
@[simp] theorem State.modCard_pool (s : State) (c : Fin 64) (f : Card → Card) : (s.modCard c f).pool = s.pool := rfl
@[simp] theorem State.modCard_line (s : State) (c : Fin 64) (f : Card → Card) : (s.modCard c f).line = s.line := rfl
@[simp] theorem State.modCard_wb (s : State) (c : Fin 64) (f : Card → Card) : (s.modCard c f).wb = s.wb := rfl
@[simp] theorem State.modCard_acc (s : State) (c : Fin 64) (f : Card → Card) : (s.modCard c f).acc = s.acc := rfl
@[simp] theorem State.modCard_upd (s : State) (c : Fin 64) (f : Card → Card) : (s.modCard c f).upd = s.upd := rfl
@[simp] theorem State.modCard_sys (s : State) (c : Fin 64) (f : Card → Card) : (s.modCard c f).sys = s.sys := rfl
@[simp] theorem State.modCard_regs (s : State) (c : Fin 64) (f : Card → Card) : (s.modCard c f).regs = s.regs := rfl
@[simp] theorem State.modCard_caps (s : State) (c : Fin 64) (f : Card → Card) : (s.modCard c f).caps = s.caps := rfl
@[simp] theorem State.modCard_bus (s : State) (c : Fin 64) (f : Card → Card) : (s.modCard c f).bus = s.bus := rfl
@[simp] theorem State.modCard_gather (s : State) (c : Fin 64) (f : Card → Card) : (s.modCard c f).gather = s.gather := rfl
@[simp] theorem State.modCard_out (s : State) (c : Fin 64) (f : Card → Card) : (s.modCard c f).out = s.out := rfl
@[simp] theorem State.modCard_free (s : State) (c : Fin 64) (f : Card → Card) : (s.modCard c f).free = s.free := rfl
@[simp] theorem State.modCard_pending (s : State) (c : Fin 64) (f : Card → Card) : (s.modCard c f).pending = s.pending := rfl
theorem State.modCard_cards (s : State) (c : Fin 64) (f : Card → Card) : (s.modCard c f).cards = s.cards.set c (f (s.cards.get c)) := rfl

/-! ### modLine -/

@[simp] theorem State.modLine_frm (s : State) (f : Line → Line) : (s.modLine f).frm = s.frm := rfl
@[simp] theorem State.modLine_hif (s : State) (f : Line → Line) : (s.modLine f).hif = s.hif := rfl
@[simp] theorem State.modLine_sq (s : State) (f : Line → Line) : (s.modLine f).sq = s.sq := rfl
@[simp] theorem State.modLine_cq (s : State) (f : Line → Line) : (s.modLine f).cq = s.cq := rfl
@[simp] theorem State.modLine_eq (s : State) (f : Line → Line) : (s.modLine f).eq = s.eq := rfl
@[simp] theorem State.modLine_ord (s : State) (f : Line → Line) : (s.modLine f).ord = s.ord := rfl
@[simp] theorem State.modLine_ax (s : State) (f : Line → Line) : (s.modLine f).ax = s.ax := rfl
@[simp] theorem State.modLine_cards (s : State) (f : Line → Line) : (s.modLine f).cards = s.cards := rfl
@[simp] theorem State.modLine_cu (s : State) (f : Line → Line) : (s.modLine f).cu = s.cu := rfl
@[simp] theorem State.modLine_hv (s : State) (f : Line → Line) : (s.modLine f).hv = s.hv := rfl
@[simp] theorem State.modLine_fbc (s : State) (f : Line → Line) : (s.modLine f).fbc = s.fbc := rfl
@[simp] theorem State.modLine_sd (s : State) (f : Line → Line) : (s.modLine f).sd = s.sd := rfl
@[simp] theorem State.modLine_trg (s : State) (f : Line → Line) : (s.modLine f).trg = s.trg := rfl
@[simp] theorem State.modLine_grp (s : State) (f : Line → Line) : (s.modLine f).grp = s.grp := rfl
@[simp] theorem State.modLine_prb (s : State) (f : Line → Line) : (s.modLine f).prb = s.prb := rfl
@[simp] theorem State.modLine_emu (s : State) (f : Line → Line) : (s.modLine f).emu = s.emu := rfl
@[simp] theorem State.modLine_cmp (s : State) (f : Line → Line) : (s.modLine f).cmp = s.cmp := rfl
@[simp] theorem State.modLine_gran (s : State) (f : Line → Line) : (s.modLine f).gran = s.gran := rfl
@[simp] theorem State.modLine_pool (s : State) (f : Line → Line) : (s.modLine f).pool = s.pool := rfl
@[simp] theorem State.modLine_wb (s : State) (f : Line → Line) : (s.modLine f).wb = s.wb := rfl
@[simp] theorem State.modLine_acc (s : State) (f : Line → Line) : (s.modLine f).acc = s.acc := rfl
@[simp] theorem State.modLine_upd (s : State) (f : Line → Line) : (s.modLine f).upd = s.upd := rfl
@[simp] theorem State.modLine_sys (s : State) (f : Line → Line) : (s.modLine f).sys = s.sys := rfl
@[simp] theorem State.modLine_regs (s : State) (f : Line → Line) : (s.modLine f).regs = s.regs := rfl
@[simp] theorem State.modLine_caps (s : State) (f : Line → Line) : (s.modLine f).caps = s.caps := rfl
@[simp] theorem State.modLine_bus (s : State) (f : Line → Line) : (s.modLine f).bus = s.bus := rfl
@[simp] theorem State.modLine_gather (s : State) (f : Line → Line) : (s.modLine f).gather = s.gather := rfl
@[simp] theorem State.modLine_out (s : State) (f : Line → Line) : (s.modLine f).out = s.out := rfl
@[simp] theorem State.modLine_free (s : State) (f : Line → Line) : (s.modLine f).free = s.free := rfl
@[simp] theorem State.modLine_pending (s : State) (f : Line → Line) : (s.modLine f).pending = s.pending := rfl

/-! ### modWb -/

@[simp] theorem State.modWb_frm (s : State) (f : Wb → Wb) : (s.modWb f).frm = s.frm := rfl
@[simp] theorem State.modWb_hif (s : State) (f : Wb → Wb) : (s.modWb f).hif = s.hif := rfl
@[simp] theorem State.modWb_sq (s : State) (f : Wb → Wb) : (s.modWb f).sq = s.sq := rfl
@[simp] theorem State.modWb_cq (s : State) (f : Wb → Wb) : (s.modWb f).cq = s.cq := rfl
@[simp] theorem State.modWb_eq (s : State) (f : Wb → Wb) : (s.modWb f).eq = s.eq := rfl
@[simp] theorem State.modWb_ord (s : State) (f : Wb → Wb) : (s.modWb f).ord = s.ord := rfl
@[simp] theorem State.modWb_ax (s : State) (f : Wb → Wb) : (s.modWb f).ax = s.ax := rfl
@[simp] theorem State.modWb_cards (s : State) (f : Wb → Wb) : (s.modWb f).cards = s.cards := rfl
@[simp] theorem State.modWb_cu (s : State) (f : Wb → Wb) : (s.modWb f).cu = s.cu := rfl
@[simp] theorem State.modWb_hv (s : State) (f : Wb → Wb) : (s.modWb f).hv = s.hv := rfl
@[simp] theorem State.modWb_fbc (s : State) (f : Wb → Wb) : (s.modWb f).fbc = s.fbc := rfl
@[simp] theorem State.modWb_sd (s : State) (f : Wb → Wb) : (s.modWb f).sd = s.sd := rfl
@[simp] theorem State.modWb_trg (s : State) (f : Wb → Wb) : (s.modWb f).trg = s.trg := rfl
@[simp] theorem State.modWb_grp (s : State) (f : Wb → Wb) : (s.modWb f).grp = s.grp := rfl
@[simp] theorem State.modWb_prb (s : State) (f : Wb → Wb) : (s.modWb f).prb = s.prb := rfl
@[simp] theorem State.modWb_emu (s : State) (f : Wb → Wb) : (s.modWb f).emu = s.emu := rfl
@[simp] theorem State.modWb_cmp (s : State) (f : Wb → Wb) : (s.modWb f).cmp = s.cmp := rfl
@[simp] theorem State.modWb_gran (s : State) (f : Wb → Wb) : (s.modWb f).gran = s.gran := rfl
@[simp] theorem State.modWb_pool (s : State) (f : Wb → Wb) : (s.modWb f).pool = s.pool := rfl
@[simp] theorem State.modWb_line (s : State) (f : Wb → Wb) : (s.modWb f).line = s.line := rfl
@[simp] theorem State.modWb_acc (s : State) (f : Wb → Wb) : (s.modWb f).acc = s.acc := rfl
@[simp] theorem State.modWb_upd (s : State) (f : Wb → Wb) : (s.modWb f).upd = s.upd := rfl
@[simp] theorem State.modWb_sys (s : State) (f : Wb → Wb) : (s.modWb f).sys = s.sys := rfl
@[simp] theorem State.modWb_regs (s : State) (f : Wb → Wb) : (s.modWb f).regs = s.regs := rfl
@[simp] theorem State.modWb_caps (s : State) (f : Wb → Wb) : (s.modWb f).caps = s.caps := rfl
@[simp] theorem State.modWb_bus (s : State) (f : Wb → Wb) : (s.modWb f).bus = s.bus := rfl
@[simp] theorem State.modWb_gather (s : State) (f : Wb → Wb) : (s.modWb f).gather = s.gather := rfl
@[simp] theorem State.modWb_out (s : State) (f : Wb → Wb) : (s.modWb f).out = s.out := rfl
@[simp] theorem State.modWb_free (s : State) (f : Wb → Wb) : (s.modWb f).free = s.free := rfl
@[simp] theorem State.modWb_pending (s : State) (f : Wb → Wb) : (s.modWb f).pending = s.pending := rfl

/-! ### setReg -/

@[simp] theorem State.setReg_frm (s : State) (a : Nat) (w : Word) : (s.setReg a w).frm = s.frm := rfl
@[simp] theorem State.setReg_hif (s : State) (a : Nat) (w : Word) : (s.setReg a w).hif = s.hif := rfl
@[simp] theorem State.setReg_sq (s : State) (a : Nat) (w : Word) : (s.setReg a w).sq = s.sq := rfl
@[simp] theorem State.setReg_cq (s : State) (a : Nat) (w : Word) : (s.setReg a w).cq = s.cq := rfl
@[simp] theorem State.setReg_eq (s : State) (a : Nat) (w : Word) : (s.setReg a w).eq = s.eq := rfl
@[simp] theorem State.setReg_ord (s : State) (a : Nat) (w : Word) : (s.setReg a w).ord = s.ord := rfl
@[simp] theorem State.setReg_ax (s : State) (a : Nat) (w : Word) : (s.setReg a w).ax = s.ax := rfl
@[simp] theorem State.setReg_cards (s : State) (a : Nat) (w : Word) : (s.setReg a w).cards = s.cards := rfl
@[simp] theorem State.setReg_cu (s : State) (a : Nat) (w : Word) : (s.setReg a w).cu = s.cu := rfl
@[simp] theorem State.setReg_hv (s : State) (a : Nat) (w : Word) : (s.setReg a w).hv = s.hv := rfl
@[simp] theorem State.setReg_fbc (s : State) (a : Nat) (w : Word) : (s.setReg a w).fbc = s.fbc := rfl
@[simp] theorem State.setReg_sd (s : State) (a : Nat) (w : Word) : (s.setReg a w).sd = s.sd := rfl
@[simp] theorem State.setReg_trg (s : State) (a : Nat) (w : Word) : (s.setReg a w).trg = s.trg := rfl
@[simp] theorem State.setReg_grp (s : State) (a : Nat) (w : Word) : (s.setReg a w).grp = s.grp := rfl
@[simp] theorem State.setReg_prb (s : State) (a : Nat) (w : Word) : (s.setReg a w).prb = s.prb := rfl
@[simp] theorem State.setReg_emu (s : State) (a : Nat) (w : Word) : (s.setReg a w).emu = s.emu := rfl
@[simp] theorem State.setReg_cmp (s : State) (a : Nat) (w : Word) : (s.setReg a w).cmp = s.cmp := rfl
@[simp] theorem State.setReg_gran (s : State) (a : Nat) (w : Word) : (s.setReg a w).gran = s.gran := rfl
@[simp] theorem State.setReg_pool (s : State) (a : Nat) (w : Word) : (s.setReg a w).pool = s.pool := rfl
@[simp] theorem State.setReg_line (s : State) (a : Nat) (w : Word) : (s.setReg a w).line = s.line := rfl
@[simp] theorem State.setReg_wb (s : State) (a : Nat) (w : Word) : (s.setReg a w).wb = s.wb := rfl
@[simp] theorem State.setReg_acc (s : State) (a : Nat) (w : Word) : (s.setReg a w).acc = s.acc := rfl
@[simp] theorem State.setReg_upd (s : State) (a : Nat) (w : Word) : (s.setReg a w).upd = s.upd := rfl
@[simp] theorem State.setReg_sys (s : State) (a : Nat) (w : Word) : (s.setReg a w).sys = s.sys := rfl
@[simp] theorem State.setReg_caps (s : State) (a : Nat) (w : Word) : (s.setReg a w).caps = s.caps := rfl
@[simp] theorem State.setReg_bus (s : State) (a : Nat) (w : Word) : (s.setReg a w).bus = s.bus := rfl
@[simp] theorem State.setReg_gather (s : State) (a : Nat) (w : Word) : (s.setReg a w).gather = s.gather := rfl
@[simp] theorem State.setReg_out (s : State) (a : Nat) (w : Word) : (s.setReg a w).out = s.out := rfl
@[simp] theorem State.setReg_free (s : State) (a : Nat) (w : Word) : (s.setReg a w).free = s.free := rfl
@[simp] theorem State.setReg_pending (s : State) (a : Nat) (w : Word) : (s.setReg a w).pending = s.pending := rfl

/-! ### orReg -/

@[simp] theorem State.orReg_frm (s : State) (a m : Nat) : (s.orReg a m).frm = s.frm := rfl
@[simp] theorem State.orReg_hif (s : State) (a m : Nat) : (s.orReg a m).hif = s.hif := rfl
@[simp] theorem State.orReg_sq (s : State) (a m : Nat) : (s.orReg a m).sq = s.sq := rfl
@[simp] theorem State.orReg_cq (s : State) (a m : Nat) : (s.orReg a m).cq = s.cq := rfl
@[simp] theorem State.orReg_eq (s : State) (a m : Nat) : (s.orReg a m).eq = s.eq := rfl
@[simp] theorem State.orReg_ord (s : State) (a m : Nat) : (s.orReg a m).ord = s.ord := rfl
@[simp] theorem State.orReg_ax (s : State) (a m : Nat) : (s.orReg a m).ax = s.ax := rfl
@[simp] theorem State.orReg_cards (s : State) (a m : Nat) : (s.orReg a m).cards = s.cards := rfl
@[simp] theorem State.orReg_cu (s : State) (a m : Nat) : (s.orReg a m).cu = s.cu := rfl
@[simp] theorem State.orReg_hv (s : State) (a m : Nat) : (s.orReg a m).hv = s.hv := rfl
@[simp] theorem State.orReg_fbc (s : State) (a m : Nat) : (s.orReg a m).fbc = s.fbc := rfl
@[simp] theorem State.orReg_sd (s : State) (a m : Nat) : (s.orReg a m).sd = s.sd := rfl
@[simp] theorem State.orReg_trg (s : State) (a m : Nat) : (s.orReg a m).trg = s.trg := rfl
@[simp] theorem State.orReg_grp (s : State) (a m : Nat) : (s.orReg a m).grp = s.grp := rfl
@[simp] theorem State.orReg_prb (s : State) (a m : Nat) : (s.orReg a m).prb = s.prb := rfl
@[simp] theorem State.orReg_emu (s : State) (a m : Nat) : (s.orReg a m).emu = s.emu := rfl
@[simp] theorem State.orReg_cmp (s : State) (a m : Nat) : (s.orReg a m).cmp = s.cmp := rfl
@[simp] theorem State.orReg_gran (s : State) (a m : Nat) : (s.orReg a m).gran = s.gran := rfl
@[simp] theorem State.orReg_pool (s : State) (a m : Nat) : (s.orReg a m).pool = s.pool := rfl
@[simp] theorem State.orReg_line (s : State) (a m : Nat) : (s.orReg a m).line = s.line := rfl
@[simp] theorem State.orReg_wb (s : State) (a m : Nat) : (s.orReg a m).wb = s.wb := rfl
@[simp] theorem State.orReg_acc (s : State) (a m : Nat) : (s.orReg a m).acc = s.acc := rfl
@[simp] theorem State.orReg_upd (s : State) (a m : Nat) : (s.orReg a m).upd = s.upd := rfl
@[simp] theorem State.orReg_sys (s : State) (a m : Nat) : (s.orReg a m).sys = s.sys := rfl
@[simp] theorem State.orReg_caps (s : State) (a m : Nat) : (s.orReg a m).caps = s.caps := rfl
@[simp] theorem State.orReg_bus (s : State) (a m : Nat) : (s.orReg a m).bus = s.bus := rfl
@[simp] theorem State.orReg_gather (s : State) (a m : Nat) : (s.orReg a m).gather = s.gather := rfl
@[simp] theorem State.orReg_out (s : State) (a m : Nat) : (s.orReg a m).out = s.out := rfl
@[simp] theorem State.orReg_free (s : State) (a m : Nat) : (s.orReg a m).free = s.free := rfl
@[simp] theorem State.orReg_pending (s : State) (a m : Nat) : (s.orReg a m).pending = s.pending := rfl

/-! ### clrReg -/

@[simp] theorem State.clrReg_frm (s : State) (a m : Nat) : (s.clrReg a m).frm = s.frm := rfl
@[simp] theorem State.clrReg_hif (s : State) (a m : Nat) : (s.clrReg a m).hif = s.hif := rfl
@[simp] theorem State.clrReg_sq (s : State) (a m : Nat) : (s.clrReg a m).sq = s.sq := rfl
@[simp] theorem State.clrReg_cq (s : State) (a m : Nat) : (s.clrReg a m).cq = s.cq := rfl
@[simp] theorem State.clrReg_eq (s : State) (a m : Nat) : (s.clrReg a m).eq = s.eq := rfl
@[simp] theorem State.clrReg_ord (s : State) (a m : Nat) : (s.clrReg a m).ord = s.ord := rfl
@[simp] theorem State.clrReg_ax (s : State) (a m : Nat) : (s.clrReg a m).ax = s.ax := rfl
@[simp] theorem State.clrReg_cards (s : State) (a m : Nat) : (s.clrReg a m).cards = s.cards := rfl
@[simp] theorem State.clrReg_cu (s : State) (a m : Nat) : (s.clrReg a m).cu = s.cu := rfl
@[simp] theorem State.clrReg_hv (s : State) (a m : Nat) : (s.clrReg a m).hv = s.hv := rfl
@[simp] theorem State.clrReg_fbc (s : State) (a m : Nat) : (s.clrReg a m).fbc = s.fbc := rfl
@[simp] theorem State.clrReg_sd (s : State) (a m : Nat) : (s.clrReg a m).sd = s.sd := rfl
@[simp] theorem State.clrReg_trg (s : State) (a m : Nat) : (s.clrReg a m).trg = s.trg := rfl
@[simp] theorem State.clrReg_grp (s : State) (a m : Nat) : (s.clrReg a m).grp = s.grp := rfl
@[simp] theorem State.clrReg_prb (s : State) (a m : Nat) : (s.clrReg a m).prb = s.prb := rfl
@[simp] theorem State.clrReg_emu (s : State) (a m : Nat) : (s.clrReg a m).emu = s.emu := rfl
@[simp] theorem State.clrReg_cmp (s : State) (a m : Nat) : (s.clrReg a m).cmp = s.cmp := rfl
@[simp] theorem State.clrReg_gran (s : State) (a m : Nat) : (s.clrReg a m).gran = s.gran := rfl
@[simp] theorem State.clrReg_pool (s : State) (a m : Nat) : (s.clrReg a m).pool = s.pool := rfl
@[simp] theorem State.clrReg_line (s : State) (a m : Nat) : (s.clrReg a m).line = s.line := rfl
@[simp] theorem State.clrReg_wb (s : State) (a m : Nat) : (s.clrReg a m).wb = s.wb := rfl
@[simp] theorem State.clrReg_acc (s : State) (a m : Nat) : (s.clrReg a m).acc = s.acc := rfl
@[simp] theorem State.clrReg_upd (s : State) (a m : Nat) : (s.clrReg a m).upd = s.upd := rfl
@[simp] theorem State.clrReg_sys (s : State) (a m : Nat) : (s.clrReg a m).sys = s.sys := rfl
@[simp] theorem State.clrReg_caps (s : State) (a m : Nat) : (s.clrReg a m).caps = s.caps := rfl
@[simp] theorem State.clrReg_bus (s : State) (a m : Nat) : (s.clrReg a m).bus = s.bus := rfl
@[simp] theorem State.clrReg_gather (s : State) (a m : Nat) : (s.clrReg a m).gather = s.gather := rfl
@[simp] theorem State.clrReg_out (s : State) (a m : Nat) : (s.clrReg a m).out = s.out := rfl
@[simp] theorem State.clrReg_free (s : State) (a m : Nat) : (s.clrReg a m).free = s.free := rfl
@[simp] theorem State.clrReg_pending (s : State) (a m : Nat) : (s.clrReg a m).pending = s.pending := rfl

/-! ### putReg -/

@[simp] theorem State.putReg_frm (s : State) (a m v : Nat) : (s.putReg a m v).frm = s.frm := rfl
@[simp] theorem State.putReg_hif (s : State) (a m v : Nat) : (s.putReg a m v).hif = s.hif := rfl
@[simp] theorem State.putReg_sq (s : State) (a m v : Nat) : (s.putReg a m v).sq = s.sq := rfl
@[simp] theorem State.putReg_cq (s : State) (a m v : Nat) : (s.putReg a m v).cq = s.cq := rfl
@[simp] theorem State.putReg_eq (s : State) (a m v : Nat) : (s.putReg a m v).eq = s.eq := rfl
@[simp] theorem State.putReg_ord (s : State) (a m v : Nat) : (s.putReg a m v).ord = s.ord := rfl
@[simp] theorem State.putReg_ax (s : State) (a m v : Nat) : (s.putReg a m v).ax = s.ax := rfl
@[simp] theorem State.putReg_cards (s : State) (a m v : Nat) : (s.putReg a m v).cards = s.cards := rfl
@[simp] theorem State.putReg_cu (s : State) (a m v : Nat) : (s.putReg a m v).cu = s.cu := rfl
@[simp] theorem State.putReg_hv (s : State) (a m v : Nat) : (s.putReg a m v).hv = s.hv := rfl
@[simp] theorem State.putReg_fbc (s : State) (a m v : Nat) : (s.putReg a m v).fbc = s.fbc := rfl
@[simp] theorem State.putReg_sd (s : State) (a m v : Nat) : (s.putReg a m v).sd = s.sd := rfl
@[simp] theorem State.putReg_trg (s : State) (a m v : Nat) : (s.putReg a m v).trg = s.trg := rfl
@[simp] theorem State.putReg_grp (s : State) (a m v : Nat) : (s.putReg a m v).grp = s.grp := rfl
@[simp] theorem State.putReg_prb (s : State) (a m v : Nat) : (s.putReg a m v).prb = s.prb := rfl
@[simp] theorem State.putReg_emu (s : State) (a m v : Nat) : (s.putReg a m v).emu = s.emu := rfl
@[simp] theorem State.putReg_cmp (s : State) (a m v : Nat) : (s.putReg a m v).cmp = s.cmp := rfl
@[simp] theorem State.putReg_gran (s : State) (a m v : Nat) : (s.putReg a m v).gran = s.gran := rfl
@[simp] theorem State.putReg_pool (s : State) (a m v : Nat) : (s.putReg a m v).pool = s.pool := rfl
@[simp] theorem State.putReg_line (s : State) (a m v : Nat) : (s.putReg a m v).line = s.line := rfl
@[simp] theorem State.putReg_wb (s : State) (a m v : Nat) : (s.putReg a m v).wb = s.wb := rfl
@[simp] theorem State.putReg_acc (s : State) (a m v : Nat) : (s.putReg a m v).acc = s.acc := rfl
@[simp] theorem State.putReg_upd (s : State) (a m v : Nat) : (s.putReg a m v).upd = s.upd := rfl
@[simp] theorem State.putReg_sys (s : State) (a m v : Nat) : (s.putReg a m v).sys = s.sys := rfl
@[simp] theorem State.putReg_caps (s : State) (a m v : Nat) : (s.putReg a m v).caps = s.caps := rfl
@[simp] theorem State.putReg_bus (s : State) (a m v : Nat) : (s.putReg a m v).bus = s.bus := rfl
@[simp] theorem State.putReg_gather (s : State) (a m v : Nat) : (s.putReg a m v).gather = s.gather := rfl
@[simp] theorem State.putReg_out (s : State) (a m v : Nat) : (s.putReg a m v).out = s.out := rfl
@[simp] theorem State.putReg_free (s : State) (a m v : Nat) : (s.putReg a m v).free = s.free := rfl
@[simp] theorem State.putReg_pending (s : State) (a m v : Nat) : (s.putReg a m v).pending = s.pending := rfl

/-! ### incReg -/

@[simp] theorem State.incReg_frm (s : State) (a : Nat) : (s.incReg a).frm = s.frm := rfl
@[simp] theorem State.incReg_hif (s : State) (a : Nat) : (s.incReg a).hif = s.hif := rfl
@[simp] theorem State.incReg_sq (s : State) (a : Nat) : (s.incReg a).sq = s.sq := rfl
@[simp] theorem State.incReg_cq (s : State) (a : Nat) : (s.incReg a).cq = s.cq := rfl
@[simp] theorem State.incReg_eq (s : State) (a : Nat) : (s.incReg a).eq = s.eq := rfl
@[simp] theorem State.incReg_ord (s : State) (a : Nat) : (s.incReg a).ord = s.ord := rfl
@[simp] theorem State.incReg_ax (s : State) (a : Nat) : (s.incReg a).ax = s.ax := rfl
@[simp] theorem State.incReg_cards (s : State) (a : Nat) : (s.incReg a).cards = s.cards := rfl
@[simp] theorem State.incReg_cu (s : State) (a : Nat) : (s.incReg a).cu = s.cu := rfl
@[simp] theorem State.incReg_hv (s : State) (a : Nat) : (s.incReg a).hv = s.hv := rfl
@[simp] theorem State.incReg_fbc (s : State) (a : Nat) : (s.incReg a).fbc = s.fbc := rfl
@[simp] theorem State.incReg_sd (s : State) (a : Nat) : (s.incReg a).sd = s.sd := rfl
@[simp] theorem State.incReg_trg (s : State) (a : Nat) : (s.incReg a).trg = s.trg := rfl
@[simp] theorem State.incReg_grp (s : State) (a : Nat) : (s.incReg a).grp = s.grp := rfl
@[simp] theorem State.incReg_prb (s : State) (a : Nat) : (s.incReg a).prb = s.prb := rfl
@[simp] theorem State.incReg_emu (s : State) (a : Nat) : (s.incReg a).emu = s.emu := rfl
@[simp] theorem State.incReg_cmp (s : State) (a : Nat) : (s.incReg a).cmp = s.cmp := rfl
@[simp] theorem State.incReg_gran (s : State) (a : Nat) : (s.incReg a).gran = s.gran := rfl
@[simp] theorem State.incReg_pool (s : State) (a : Nat) : (s.incReg a).pool = s.pool := rfl
@[simp] theorem State.incReg_line (s : State) (a : Nat) : (s.incReg a).line = s.line := rfl
@[simp] theorem State.incReg_wb (s : State) (a : Nat) : (s.incReg a).wb = s.wb := rfl
@[simp] theorem State.incReg_acc (s : State) (a : Nat) : (s.incReg a).acc = s.acc := rfl
@[simp] theorem State.incReg_upd (s : State) (a : Nat) : (s.incReg a).upd = s.upd := rfl
@[simp] theorem State.incReg_sys (s : State) (a : Nat) : (s.incReg a).sys = s.sys := rfl
@[simp] theorem State.incReg_caps (s : State) (a : Nat) : (s.incReg a).caps = s.caps := rfl
@[simp] theorem State.incReg_bus (s : State) (a : Nat) : (s.incReg a).bus = s.bus := rfl
@[simp] theorem State.incReg_gather (s : State) (a : Nat) : (s.incReg a).gather = s.gather := rfl
@[simp] theorem State.incReg_out (s : State) (a : Nat) : (s.incReg a).out = s.out := rfl
@[simp] theorem State.incReg_free (s : State) (a : Nat) : (s.incReg a).free = s.free := rfl
@[simp] theorem State.incReg_pending (s : State) (a : Nat) : (s.incReg a).pending = s.pending := rfl

/-! ### addReg -/

@[simp] theorem State.addReg_frm (s : State) (a n : Nat) : (s.addReg a n).frm = s.frm := rfl
@[simp] theorem State.addReg_hif (s : State) (a n : Nat) : (s.addReg a n).hif = s.hif := rfl
@[simp] theorem State.addReg_sq (s : State) (a n : Nat) : (s.addReg a n).sq = s.sq := rfl
@[simp] theorem State.addReg_cq (s : State) (a n : Nat) : (s.addReg a n).cq = s.cq := rfl
@[simp] theorem State.addReg_eq (s : State) (a n : Nat) : (s.addReg a n).eq = s.eq := rfl
@[simp] theorem State.addReg_ord (s : State) (a n : Nat) : (s.addReg a n).ord = s.ord := rfl
@[simp] theorem State.addReg_ax (s : State) (a n : Nat) : (s.addReg a n).ax = s.ax := rfl
@[simp] theorem State.addReg_cards (s : State) (a n : Nat) : (s.addReg a n).cards = s.cards := rfl
@[simp] theorem State.addReg_cu (s : State) (a n : Nat) : (s.addReg a n).cu = s.cu := rfl
@[simp] theorem State.addReg_hv (s : State) (a n : Nat) : (s.addReg a n).hv = s.hv := rfl
@[simp] theorem State.addReg_fbc (s : State) (a n : Nat) : (s.addReg a n).fbc = s.fbc := rfl
@[simp] theorem State.addReg_sd (s : State) (a n : Nat) : (s.addReg a n).sd = s.sd := rfl
@[simp] theorem State.addReg_trg (s : State) (a n : Nat) : (s.addReg a n).trg = s.trg := rfl
@[simp] theorem State.addReg_grp (s : State) (a n : Nat) : (s.addReg a n).grp = s.grp := rfl
@[simp] theorem State.addReg_prb (s : State) (a n : Nat) : (s.addReg a n).prb = s.prb := rfl
@[simp] theorem State.addReg_emu (s : State) (a n : Nat) : (s.addReg a n).emu = s.emu := rfl
@[simp] theorem State.addReg_cmp (s : State) (a n : Nat) : (s.addReg a n).cmp = s.cmp := rfl
@[simp] theorem State.addReg_gran (s : State) (a n : Nat) : (s.addReg a n).gran = s.gran := rfl
@[simp] theorem State.addReg_pool (s : State) (a n : Nat) : (s.addReg a n).pool = s.pool := rfl
@[simp] theorem State.addReg_line (s : State) (a n : Nat) : (s.addReg a n).line = s.line := rfl
@[simp] theorem State.addReg_wb (s : State) (a n : Nat) : (s.addReg a n).wb = s.wb := rfl
@[simp] theorem State.addReg_acc (s : State) (a n : Nat) : (s.addReg a n).acc = s.acc := rfl
@[simp] theorem State.addReg_upd (s : State) (a n : Nat) : (s.addReg a n).upd = s.upd := rfl
@[simp] theorem State.addReg_sys (s : State) (a n : Nat) : (s.addReg a n).sys = s.sys := rfl
@[simp] theorem State.addReg_caps (s : State) (a n : Nat) : (s.addReg a n).caps = s.caps := rfl
@[simp] theorem State.addReg_bus (s : State) (a n : Nat) : (s.addReg a n).bus = s.bus := rfl
@[simp] theorem State.addReg_gather (s : State) (a n : Nat) : (s.addReg a n).gather = s.gather := rfl
@[simp] theorem State.addReg_out (s : State) (a n : Nat) : (s.addReg a n).out = s.out := rfl
@[simp] theorem State.addReg_free (s : State) (a n : Nat) : (s.addReg a n).free = s.free := rfl
@[simp] theorem State.addReg_pending (s : State) (a n : Nat) : (s.addReg a n).pending = s.pending := rfl

/-! ### emit -/

@[simp] theorem State.emit_frm (s : State) (o : Output) : (s.emit o).frm = s.frm := rfl
@[simp] theorem State.emit_hif (s : State) (o : Output) : (s.emit o).hif = s.hif := rfl
@[simp] theorem State.emit_sq (s : State) (o : Output) : (s.emit o).sq = s.sq := rfl
@[simp] theorem State.emit_cq (s : State) (o : Output) : (s.emit o).cq = s.cq := rfl
@[simp] theorem State.emit_eq (s : State) (o : Output) : (s.emit o).eq = s.eq := rfl
@[simp] theorem State.emit_ord (s : State) (o : Output) : (s.emit o).ord = s.ord := rfl
@[simp] theorem State.emit_ax (s : State) (o : Output) : (s.emit o).ax = s.ax := rfl
@[simp] theorem State.emit_cards (s : State) (o : Output) : (s.emit o).cards = s.cards := rfl
@[simp] theorem State.emit_cu (s : State) (o : Output) : (s.emit o).cu = s.cu := rfl
@[simp] theorem State.emit_hv (s : State) (o : Output) : (s.emit o).hv = s.hv := rfl
@[simp] theorem State.emit_fbc (s : State) (o : Output) : (s.emit o).fbc = s.fbc := rfl
@[simp] theorem State.emit_sd (s : State) (o : Output) : (s.emit o).sd = s.sd := rfl
@[simp] theorem State.emit_trg (s : State) (o : Output) : (s.emit o).trg = s.trg := rfl
@[simp] theorem State.emit_grp (s : State) (o : Output) : (s.emit o).grp = s.grp := rfl
@[simp] theorem State.emit_prb (s : State) (o : Output) : (s.emit o).prb = s.prb := rfl
@[simp] theorem State.emit_emu (s : State) (o : Output) : (s.emit o).emu = s.emu := rfl
@[simp] theorem State.emit_cmp (s : State) (o : Output) : (s.emit o).cmp = s.cmp := rfl
@[simp] theorem State.emit_gran (s : State) (o : Output) : (s.emit o).gran = s.gran := rfl
@[simp] theorem State.emit_pool (s : State) (o : Output) : (s.emit o).pool = s.pool := rfl
@[simp] theorem State.emit_line (s : State) (o : Output) : (s.emit o).line = s.line := rfl
@[simp] theorem State.emit_wb (s : State) (o : Output) : (s.emit o).wb = s.wb := rfl
@[simp] theorem State.emit_acc (s : State) (o : Output) : (s.emit o).acc = s.acc := rfl
@[simp] theorem State.emit_upd (s : State) (o : Output) : (s.emit o).upd = s.upd := rfl
@[simp] theorem State.emit_sys (s : State) (o : Output) : (s.emit o).sys = s.sys := rfl
@[simp] theorem State.emit_regs (s : State) (o : Output) : (s.emit o).regs = s.regs := rfl
@[simp] theorem State.emit_caps (s : State) (o : Output) : (s.emit o).caps = s.caps := rfl
@[simp] theorem State.emit_bus (s : State) (o : Output) : (s.emit o).bus = s.bus := rfl
@[simp] theorem State.emit_gather (s : State) (o : Output) : (s.emit o).gather = s.gather := rfl
@[simp] theorem State.emit_free (s : State) (o : Output) : (s.emit o).free = s.free := rfl
@[simp] theorem State.emit_pending (s : State) (o : Output) : (s.emit o).pending = s.pending := rfl

/-! ### modDesc -/

@[simp] theorem State.modDesc_frm (s : State) (d : Nat) (f : Desc → Desc) : (s.modDesc d f).frm = s.frm := rfl
@[simp] theorem State.modDesc_hif (s : State) (d : Nat) (f : Desc → Desc) : (s.modDesc d f).hif = s.hif := rfl
@[simp] theorem State.modDesc_sq (s : State) (d : Nat) (f : Desc → Desc) : (s.modDesc d f).sq = s.sq := rfl
@[simp] theorem State.modDesc_cq (s : State) (d : Nat) (f : Desc → Desc) : (s.modDesc d f).cq = s.cq := rfl
@[simp] theorem State.modDesc_eq (s : State) (d : Nat) (f : Desc → Desc) : (s.modDesc d f).eq = s.eq := rfl
@[simp] theorem State.modDesc_ax (s : State) (d : Nat) (f : Desc → Desc) : (s.modDesc d f).ax = s.ax := rfl
@[simp] theorem State.modDesc_cards (s : State) (d : Nat) (f : Desc → Desc) : (s.modDesc d f).cards = s.cards := rfl
@[simp] theorem State.modDesc_cu (s : State) (d : Nat) (f : Desc → Desc) : (s.modDesc d f).cu = s.cu := rfl
@[simp] theorem State.modDesc_hv (s : State) (d : Nat) (f : Desc → Desc) : (s.modDesc d f).hv = s.hv := rfl
@[simp] theorem State.modDesc_fbc (s : State) (d : Nat) (f : Desc → Desc) : (s.modDesc d f).fbc = s.fbc := rfl
@[simp] theorem State.modDesc_sd (s : State) (d : Nat) (f : Desc → Desc) : (s.modDesc d f).sd = s.sd := rfl
@[simp] theorem State.modDesc_trg (s : State) (d : Nat) (f : Desc → Desc) : (s.modDesc d f).trg = s.trg := rfl
@[simp] theorem State.modDesc_grp (s : State) (d : Nat) (f : Desc → Desc) : (s.modDesc d f).grp = s.grp := rfl
@[simp] theorem State.modDesc_prb (s : State) (d : Nat) (f : Desc → Desc) : (s.modDesc d f).prb = s.prb := rfl
@[simp] theorem State.modDesc_emu (s : State) (d : Nat) (f : Desc → Desc) : (s.modDesc d f).emu = s.emu := rfl
@[simp] theorem State.modDesc_cmp (s : State) (d : Nat) (f : Desc → Desc) : (s.modDesc d f).cmp = s.cmp := rfl
@[simp] theorem State.modDesc_gran (s : State) (d : Nat) (f : Desc → Desc) : (s.modDesc d f).gran = s.gran := rfl
@[simp] theorem State.modDesc_pool (s : State) (d : Nat) (f : Desc → Desc) : (s.modDesc d f).pool = s.pool := rfl
@[simp] theorem State.modDesc_line (s : State) (d : Nat) (f : Desc → Desc) : (s.modDesc d f).line = s.line := rfl
@[simp] theorem State.modDesc_wb (s : State) (d : Nat) (f : Desc → Desc) : (s.modDesc d f).wb = s.wb := rfl
@[simp] theorem State.modDesc_acc (s : State) (d : Nat) (f : Desc → Desc) : (s.modDesc d f).acc = s.acc := rfl
@[simp] theorem State.modDesc_upd (s : State) (d : Nat) (f : Desc → Desc) : (s.modDesc d f).upd = s.upd := rfl
@[simp] theorem State.modDesc_sys (s : State) (d : Nat) (f : Desc → Desc) : (s.modDesc d f).sys = s.sys := rfl
@[simp] theorem State.modDesc_regs (s : State) (d : Nat) (f : Desc → Desc) : (s.modDesc d f).regs = s.regs := rfl
@[simp] theorem State.modDesc_caps (s : State) (d : Nat) (f : Desc → Desc) : (s.modDesc d f).caps = s.caps := rfl
@[simp] theorem State.modDesc_bus (s : State) (d : Nat) (f : Desc → Desc) : (s.modDesc d f).bus = s.bus := rfl
@[simp] theorem State.modDesc_gather (s : State) (d : Nat) (f : Desc → Desc) : (s.modDesc d f).gather = s.gather := rfl
@[simp] theorem State.modDesc_out (s : State) (d : Nat) (f : Desc → Desc) : (s.modDesc d f).out = s.out := rfl
@[simp] theorem State.modDesc_free (s : State) (d : Nat) (f : Desc → Desc) : (s.modDesc d f).free = s.free := rfl
@[simp] theorem State.modDesc_pending (s : State) (d : Nat) (f : Desc → Desc) : (s.modDesc d f).pending = s.pending := rfl

/-! ### dropDesc -/

@[simp] theorem State.dropDesc_frm (s : State) (d : Nat) : (s.dropDesc d).frm = s.frm := rfl
@[simp] theorem State.dropDesc_hif (s : State) (d : Nat) : (s.dropDesc d).hif = s.hif := rfl
@[simp] theorem State.dropDesc_sq (s : State) (d : Nat) : (s.dropDesc d).sq = s.sq := rfl
@[simp] theorem State.dropDesc_cq (s : State) (d : Nat) : (s.dropDesc d).cq = s.cq := rfl
@[simp] theorem State.dropDesc_eq (s : State) (d : Nat) : (s.dropDesc d).eq = s.eq := rfl
@[simp] theorem State.dropDesc_ax (s : State) (d : Nat) : (s.dropDesc d).ax = s.ax := rfl
@[simp] theorem State.dropDesc_cards (s : State) (d : Nat) : (s.dropDesc d).cards = s.cards := rfl
@[simp] theorem State.dropDesc_cu (s : State) (d : Nat) : (s.dropDesc d).cu = s.cu := rfl
@[simp] theorem State.dropDesc_hv (s : State) (d : Nat) : (s.dropDesc d).hv = s.hv := rfl
@[simp] theorem State.dropDesc_fbc (s : State) (d : Nat) : (s.dropDesc d).fbc = s.fbc := rfl
@[simp] theorem State.dropDesc_sd (s : State) (d : Nat) : (s.dropDesc d).sd = s.sd := rfl
@[simp] theorem State.dropDesc_trg (s : State) (d : Nat) : (s.dropDesc d).trg = s.trg := rfl
@[simp] theorem State.dropDesc_grp (s : State) (d : Nat) : (s.dropDesc d).grp = s.grp := rfl
@[simp] theorem State.dropDesc_prb (s : State) (d : Nat) : (s.dropDesc d).prb = s.prb := rfl
@[simp] theorem State.dropDesc_emu (s : State) (d : Nat) : (s.dropDesc d).emu = s.emu := rfl
@[simp] theorem State.dropDesc_cmp (s : State) (d : Nat) : (s.dropDesc d).cmp = s.cmp := rfl
@[simp] theorem State.dropDesc_gran (s : State) (d : Nat) : (s.dropDesc d).gran = s.gran := rfl
@[simp] theorem State.dropDesc_pool (s : State) (d : Nat) : (s.dropDesc d).pool = s.pool := rfl
@[simp] theorem State.dropDesc_line (s : State) (d : Nat) : (s.dropDesc d).line = s.line := rfl
@[simp] theorem State.dropDesc_wb (s : State) (d : Nat) : (s.dropDesc d).wb = s.wb := rfl
@[simp] theorem State.dropDesc_acc (s : State) (d : Nat) : (s.dropDesc d).acc = s.acc := rfl
@[simp] theorem State.dropDesc_upd (s : State) (d : Nat) : (s.dropDesc d).upd = s.upd := rfl
@[simp] theorem State.dropDesc_sys (s : State) (d : Nat) : (s.dropDesc d).sys = s.sys := rfl
@[simp] theorem State.dropDesc_regs (s : State) (d : Nat) : (s.dropDesc d).regs = s.regs := rfl
@[simp] theorem State.dropDesc_caps (s : State) (d : Nat) : (s.dropDesc d).caps = s.caps := rfl
@[simp] theorem State.dropDesc_bus (s : State) (d : Nat) : (s.dropDesc d).bus = s.bus := rfl
@[simp] theorem State.dropDesc_gather (s : State) (d : Nat) : (s.dropDesc d).gather = s.gather := rfl
@[simp] theorem State.dropDesc_out (s : State) (d : Nat) : (s.dropDesc d).out = s.out := rfl
@[simp] theorem State.dropDesc_free (s : State) (d : Nat) : (s.dropDesc d).free = s.free := rfl
@[simp] theorem State.dropDesc_pending (s : State) (d : Nat) : (s.dropDesc d).pending = s.pending := rfl

end Sys2Proof.Machine
end

