-- ==== Sys2Proof/Laws/Regs.lean ====
section
/-! SUPPORT. The register file: every operation keeps its canonical form, a read after a write to the same register
gives the word written, and a write leaves every other register alone. -/

namespace Sys2Proof.Machine

theorem mem_rfPut {a : Nat} {w : Word} {l : List (Nat × Word)} {e : Nat × Word} (h : e ∈ rfPut a w l) :
    e = (a, w) ∨ e ∈ l := by
  induction l with
  | nil => simpa [rfPut] using h
  | cons x l ih =>
    simp only [rfPut] at h
    split at h
    · simpa using h
    · split at h
      · rcases List.mem_cons.1 h with h | h <;> simp [h]
      · rcases List.mem_cons.1 h with h | h
        · simp [h]
        · rcases ih h with h | h <;> simp [h]

theorem rfPut_sorted {a : Nat} {w : Word} {l : List (Nat × Word)} (h : l.Pairwise fun x y => x.1 < y.1) :
    (rfPut a w l).Pairwise fun x y => x.1 < y.1 := by
  induction l with
  | nil => simp [rfPut]
  | cons x l ih =>
    have hx := List.pairwise_cons.1 h
    simp only [rfPut]
    split
    · refine List.pairwise_cons.2 ⟨fun y hy => ?_, h⟩
      rcases List.mem_cons.1 hy with rfl | hy
      · assumption
      · have := hx.1 y hy; simp only; omega
    · split
      · rename_i he
        exact List.pairwise_cons.2 ⟨fun y hy => by have := hx.1 y hy; simp only; omega, hx.2⟩
      · refine List.pairwise_cons.2 ⟨fun y hy => ?_, ih hx.2⟩
        rcases mem_rfPut hy with rfl | hy
        · simp only; omega
        · exact hx.1 y hy

/-- Listing a word that is not the reset word keeps the canonical form. -/
theorem regsWf_rfPut {a : Nat} {w : Word} {l : List (Nat × Word)} (h : regsWf l = true) (hw : w ≠ resetWord a) :
    regsWf (rfPut a w l) = true := by
  simp only [regsWf, Bool.and_eq_true, decide_eq_true_eq, List.all_eq_true, bne_iff_ne] at h ⊢
  refine ⟨rfPut_sorted h.1, fun e he => ?_⟩
  rcases mem_rfPut he with rfl | he
  · exact hw
  · exact h.2 e he

/-- Dropping an entry keeps the canonical form. -/
theorem regsWf_rfDel {a : Nat} {l : List (Nat × Word)} (h : regsWf l = true) : regsWf (rfDel a l) = true := by
  simp only [regsWf, Bool.and_eq_true, decide_eq_true_eq, List.all_eq_true, bne_iff_ne] at h ⊢
  exact ⟨h.1.filter _, fun e he => h.2 e (List.mem_filter.1 he).1⟩

/-- Dropping any entries keeps the canonical form. -/
theorem regsWf_filter {l : List (Nat × Word)} (p : Nat × Word → Bool) (h : regsWf l = true) : regsWf (l.filter p) = true := by
  simp only [regsWf, Bool.and_eq_true, decide_eq_true_eq, List.all_eq_true, bne_iff_ne] at h ⊢
  exact ⟨h.1.filter _, fun e he => h.2 e (List.mem_filter.1 he).1⟩

/-- A register write keeps the canonical form. -/
theorem regsWf_setReg {s : State} {a : Nat} {w : Word} (h : regsWf s.regs = true) : regsWf (s.setReg a w).regs = true := by
  simp only [State.setReg]
  split
  · exact regsWf_rfDel h
  · exact regsWf_rfPut h ‹_›

theorem regsWf_orReg {s : State} {a m : Nat} (h : regsWf s.regs = true) : regsWf (s.orReg a m).regs = true := regsWf_setReg h
theorem regsWf_clrReg {s : State} {a m : Nat} (h : regsWf s.regs = true) : regsWf (s.clrReg a m).regs = true := regsWf_setReg h
theorem regsWf_putReg {s : State} {a m v : Nat} (h : regsWf s.regs = true) : regsWf (s.putReg a m v).regs = true := regsWf_setReg h
theorem regsWf_incReg {s : State} {a : Nat} (h : regsWf s.regs = true) : regsWf (s.incReg a).regs = true := regsWf_setReg h
theorem regsWf_addReg {s : State} {a n : Nat} (h : regsWf s.regs = true) : regsWf (s.addReg a n).regs = true := regsWf_setReg h

theorem rfGet_rfPut_self {a : Nat} {w : Word} {l : List (Nat × Word)} : rfGet (rfPut a w l) a = some w := by
  induction l with
  | nil => simp [rfPut, rfGet]
  | cons x l ih =>
    simp only [rfPut]
    split
    · simp [rfGet]
    · split
      · simp [rfGet]
      · rename_i h1 h2
        simp only [rfGet] at ih ⊢
        rw [List.find?_cons_of_neg (by simpa using h2)]
        exact ih

theorem rfGet_rfPut_other {a b : Nat} {w : Word} {l : List (Nat × Word)} (h : b ≠ a) : rfGet (rfPut a w l) b = rfGet l b := by
  have hab : a ≠ b := fun e => h e.symm
  induction l with
  | nil => simp [rfPut, rfGet, hab]
  | cons x l ih =>
    simp only [rfPut]
    split
    · simp [rfGet, List.find?_cons, hab]
    · split
      · rename_i h1 h2
        have : x.1 ≠ b := by omega
        simp [rfGet, hab, this]
      · simp only [rfGet, List.find?_cons] at ih ⊢
        split
        · rfl
        · exact ih

theorem rfGet_rfDel_self {a : Nat} {l : List (Nat × Word)} : rfGet (rfDel a l) a = none := by
  simp [rfGet, rfDel, List.find?_eq_none]

theorem rfGet_rfDel_other {a b : Nat} {l : List (Nat × Word)} (h : b ≠ a) : rfGet (rfDel a l) b = rfGet l b := by
  have : (fun e : Nat × Word => decide ((e.1 != a) = true ∧ (e.1 == b) = true)) = fun e => e.1 == b := by
    funext e
    by_cases hb : e.1 = b <;> simp [hb, h]
  simp only [rfGet, rfDel, List.find?_filter]
  exact congrArg (fun p => (l.find? p).map (·.2)) this

/-- A read after a write to the same register gives the word written. -/
@[simp] theorem State.reg_setReg_self (s : State) (a : Nat) (w : Word) : (s.setReg a w).reg a = w := by
  simp only [State.reg, State.setReg]
  split
  · rename_i h; simp [rfGet_rfDel_self, h]
  · simp [rfGet_rfPut_self]

/-- A write leaves every other register alone. -/
theorem State.reg_setReg_other (s : State) {a b : Nat} (w : Word) (h : b ≠ a) : (s.setReg a w).reg b = s.reg b := by
  simp only [State.reg, State.setReg]
  split
  · rw [rfGet_rfDel_other h]
  · rw [rfGet_rfPut_other h]

/-- An update of another part of the state leaves every register alone. -/
theorem State.reg_of_regs {s t : State} (h : t.regs = s.regs) (a : Nat) : t.reg a = s.reg a := by simp [State.reg, h]

end Sys2Proof.Machine
end

