-- ==== Sys2Proof/Laws/Ops.lean ====
section
/-! SUPPORT. What telling the host can do: an occurrence of an event, a message and an event record change the register file, the event
ring, the events gathered, the held records, the pending bits and what is sent out, and nothing else. -/

namespace Sys2Proof.Machine

/-- `t` differs from `s` in what telling the host changes, and nowhere else; the link, the masks and the reads in flight stay. -/
structure Tells (s t : State) : Prop where
  eqn : t = { s with regs := t.regs, eq := t.eq, gather := t.gather, out := t.out, hif := t.hif }
  hif : t.hif = { s.hif with pend0 := t.hif.pend0, pend1 := t.hif.pend1, held := t.hif.held, discarded := t.hif.discarded }
  out : s.out <+: t.out
  wf : regsWf s.regs = true → regsWf t.regs = true

theorem Tells.refl (s : State) : Tells s s := ⟨rfl, rfl, List.prefix_refl _, id⟩

theorem Tells.trans {s t u : State} (h : Tells s t) (k : Tells t u) : Tells s u := by
  refine ⟨?_, ?_, h.out.trans k.out, fun w => k.wf (h.wf w)⟩
  · rw [k.eqn, h.eqn]
  · rw [k.hif, h.hif]

theorem tells_setReg (s : State) (a : Nat) (w : Word) : Tells s (s.setReg a w) :=
  ⟨rfl, rfl, List.prefix_refl _, regsWf_setReg⟩

theorem tells_emit (s : State) (o : Output) : Tells s (s.emit o) :=
  ⟨rfl, rfl, List.prefix_append _ _, id⟩

/-- A message is sent, or its pending bit is set while it is masked (R79, R80). -/
theorem tells_signal (s : State) (f : Fin 2) (v : Fin 16) : Tells s (s.signal f v) := by
  unfold State.signal
  split
  · split
    · split
      · exact ⟨rfl, rfl, List.prefix_refl _, id⟩
      · exact tells_emit ..
    · split
      · exact ⟨rfl, rfl, List.prefix_refl _, id⟩
      · exact tells_emit ..
  · exact .refl s

theorem tells_signalEq (s : State) : Tells s s.signalEq := by
  unfold State.signalEq
  exact Tells.trans (t := { s with eq := { s.eq with unsig := 0, oldest := none } }) ⟨rfl, rfl, List.prefix_refl _, id⟩ (tells_signal ..)

theorem tells_putEvent (s : State) (r : EvRec) (late : Bool) : Tells s (s.putEvent r late) := by
  unfold State.putEvent
  have h := (tells_emit s (.dmaWrite s.eqOwner (s.reg64 Adr.HIF_EQ_BASE_LO + 32 * (s.eq.wcount.toNat % 2 ^ s.eqSize))
    (r.bytes (rflags s.eq.wcount.toNat s.eqSize late))))
  have k : ∀ t : State, ∀ e : EvRing, Tells t { t with eq := e } := fun t e => ⟨rfl, rfl, List.prefix_refl _, id⟩
  simp only
  split
  · exact (h.trans (k _ _)).trans (tells_signalEq _)
  · exact h.trans (k _ _)

theorem tells_writeEvent (s : State) (r : EvRec) (late : Bool) : Tells s (s.writeEvent r late) := by
  unfold State.writeEvent
  split
  · exact tells_putEvent ..
  · exact ⟨rfl, rfl, List.prefix_refl _, id⟩

theorem tells_hold (s : State) (h : HeldRec) : Tells s (s.hold h) := by
  unfold State.hold
  split <;> exact ⟨rfl, rfl, List.prefix_refl _, id⟩

theorem tells_tell (s : State) (r : EvRec) : Tells s (s.tell r) := by
  have k : ∀ t : State, ∀ e : EvRing, Tells t { t with eq := e } := fun t e => ⟨rfl, rfl, List.prefix_refl _, id⟩
  unfold State.tell
  simp only
  split
  · exact (k _ _).trans (tells_writeEvent ..)
  · exact (k _ _).trans (tells_hold ..)

theorem tells_gathering (s : State) : Tells s s.gathering := ⟨rfl, rfl, List.prefix_refl _, id⟩

/-- The records of the gathered events tell, and change nothing else (R410). -/
theorem tells_tellAll (s : State) : Tells s s.tellAll := by
  have h : ∀ (l : List EvRec) (t : State), Tells t (l.foldl State.tell t) := by
    intro l
    induction l with
    | nil => exact fun t => .refl t
    | cons a l ih => exact fun t => (tells_tell t a).trans (ih _)
  exact Tells.trans (t := { s with gather := none }) ⟨rfl, rfl, List.prefix_refl _, id⟩ (h _ _)

/-- An occurrence of an event tells the host, and changes nothing else (R75, R409). -/
theorem tells_raiseAt (s : State) (fr : FrameNo) (e unit : Nat) (d0 d1 : Word) : Tells s (s.raiseAt fr e unit d0 d1) := by
  have h : Tells s ((s.orReg (if e < 32 then Adr.EVT_PEND_LO else Adr.EVT_PEND_HI) (2 ^ (e % 32))).incReg (Adr.EVT_CNT (e % 64))) :=
    (tells_setReg ..).trans (tells_setReg ..)
  unfold State.raiseAt
  simp only
  generalize (s.orReg _ _).incReg _ = t at h ⊢
  split
  · split
    · exact h.trans ⟨rfl, rfl, List.prefix_refl _, id⟩
    · exact h.trans (tells_tell ..)
  · exact h

theorem tells_raise (s : State) (e unit : Nat) (d0 d1 : Word) : Tells s (s.raise e unit d0 d1) := tells_raiseAt ..

theorem tells_eqOverflow (s : State) : Tells s s.eqOverflow := by
  have k : ∀ t : State, ∀ e : EvRing, Tells t { t with eq := e } := fun t e => ⟨rfl, rfl, List.prefix_refl _, id⟩
  unfold State.eqOverflow
  split
  · simp only
    split
    · exact ((((tells_setReg ..).trans (tells_setReg ..)).trans (k _ _)).trans (k _ _)).trans (tells_putEvent ..)
    · exact ((tells_setReg ..).trans (tells_setReg ..)).trans (k _ _)
  · exact .refl s

/-- A list of states' steps that each tell tells. -/
theorem tells_forAll {α : Type} (l : List α) (f : State → α → State) (h : ∀ s a, Tells s (f s a)) (s : State) : Tells s (s.forAll l f) := by
  induction l generalizing s with
  | nil => exact .refl s
  | cons a l ih => exact (h s a).trans (ih _)

theorem Tells.ax {s t : State} (h : Tells s t) : t.ax = s.ax := by rw [h.eqn]
theorem Tells.frm {s t : State} (h : Tells s t) : t.frm = s.frm := by rw [h.eqn]
theorem Tells.sq {s t : State} (h : Tells s t) : t.sq = s.sq := by rw [h.eqn]
theorem Tells.cq {s t : State} (h : Tells s t) : t.cq = s.cq := by rw [h.eqn]
theorem Tells.ord {s t : State} (h : Tells s t) : t.ord = s.ord := by rw [h.eqn]
theorem Tells.cu {s t : State} (h : Tells s t) : t.cu = s.cu := by rw [h.eqn]
theorem Tells.hv {s t : State} (h : Tells s t) : t.hv = s.hv := by rw [h.eqn]
theorem Tells.cards {s t : State} (h : Tells s t) : t.cards = s.cards := by rw [h.eqn]
theorem Tells.fbc {s t : State} (h : Tells s t) : t.fbc = s.fbc := by rw [h.eqn]
theorem Tells.sd {s t : State} (h : Tells s t) : t.sd = s.sd := by rw [h.eqn]
theorem Tells.trg {s t : State} (h : Tells s t) : t.trg = s.trg := by rw [h.eqn]
theorem Tells.grp {s t : State} (h : Tells s t) : t.grp = s.grp := by rw [h.eqn]
theorem Tells.prb {s t : State} (h : Tells s t) : t.prb = s.prb := by rw [h.eqn]
theorem Tells.emu {s t : State} (h : Tells s t) : t.emu = s.emu := by rw [h.eqn]
theorem Tells.cmp {s t : State} (h : Tells s t) : t.cmp = s.cmp := by rw [h.eqn]
theorem Tells.gran {s t : State} (h : Tells s t) : t.gran = s.gran := by rw [h.eqn]
theorem Tells.pool {s t : State} (h : Tells s t) : t.pool = s.pool := by rw [h.eqn]
theorem Tells.line {s t : State} (h : Tells s t) : t.line = s.line := by rw [h.eqn]
theorem Tells.wb {s t : State} (h : Tells s t) : t.wb = s.wb := by rw [h.eqn]
theorem Tells.acc {s t : State} (h : Tells s t) : t.acc = s.acc := by rw [h.eqn]
theorem Tells.upd {s t : State} (h : Tells s t) : t.upd = s.upd := by rw [h.eqn]
theorem Tells.sys {s t : State} (h : Tells s t) : t.sys = s.sys := by rw [h.eqn]
theorem Tells.caps {s t : State} (h : Tells s t) : t.caps = s.caps := by rw [h.eqn]
theorem Tells.bus {s t : State} (h : Tells s t) : t.bus = s.bus := by rw [h.eqn]
theorem Tells.free {s t : State} (h : Tells s t) : t.free = s.free := by rw [h.eqn]
theorem Tells.pending {s t : State} (h : Tells s t) : t.pending = s.pending := by rw [h.eqn]

/-- The registers after an occurrence of event `e`: its pending bit is set and its counter has counted, and the others stay (R409). -/
theorem State.regs_raiseAt (s : State) (fr : FrameNo) (e unit : Nat) (d0 d1 : Word) :
    (s.raiseAt fr e unit d0 d1).regs =
      ((s.orReg (if e < 32 then Adr.EVT_PEND_LO else Adr.EVT_PEND_HI) (2 ^ (e % 32))).incReg (Adr.EVT_CNT (e % 64))).regs := by
  have hs : ∀ (t : State) f v, (t.signal f v).regs = t.regs := by
    intro t f v; unfold State.signal; repeat' split
    all_goals rfl
  have hp : ∀ (t : State) r l, (t.putEvent r l).regs = t.regs := by
    intro t r l; unfold State.putEvent; simp only
    split
    · unfold State.signalEq; simp only [hs]; rfl
    · rfl
  unfold State.raiseAt
  simp only
  generalize (s.orReg _ _).incReg _ = t
  split
  · split
    · rfl
    · unfold State.tell
      simp only
      split
      · unfold State.writeEvent; split
        · rw [hp]
        · rfl
      · unfold State.hold; split <;> rfl
  · rfl

theorem bit_or_two_pow (w : Word) {k : Nat} (h : k < 32) : bitOf (w ||| wd (2 ^ k)) k = true := by
  have : (wd (2 ^ k)).getLsbD k = true := by interval_cases k <;> decide
  simp [bitOf, this]

/-- An occurrence of event `e` sets its pending bit (R409). -/
theorem State.rb_raise_self (s : State) (e u : Nat) (d0 d1 : Word) :
    (s.raise e u d0 d1).rb (if e < 32 then Adr.EVT_PEND_LO else Adr.EVT_PEND_HI) (e % 32) = true := by
  have hl : ∀ a, (s.raise e u d0 d1).reg a = _ := State.reg_of_regs (State.regs_raiseAt s s.frm.count e u d0 d1)
  rw [State.rb, hl, State.incReg, State.reg_setReg_other _ _ (by split <;> simp only [Adr.EVT_CNT, Adr.EVT_PEND_LO, Adr.EVT_PEND_HI] <;> omega),
    State.orReg, State.reg_setReg_self]
  exact bit_or_two_pow _ (Nat.mod_lt _ (by decide))

end Sys2Proof.Machine
end

