-- ==== Sys2Proof/Laws/Kept.lean ====
section
/-! SUPPORT. What every operation of the block keeps, and the rules by which it is shown of one operation after another. -/

namespace Sys2Proof.Machine

/-- Between ticks, power-ups and resets: the frame counter holds its value, power and the boot image stay, and a locked word stays
locked. -/
structure Quiet (s t : State) : Prop where
  count : t.frm.count = s.frm.count
  started : t.frm.started = s.frm.started
  powered : t.sys.powered = s.sys.powered
  booted : t.sys.booted = s.sys.booted
  locked : s.acc.locked <+: t.acc.locked

theorem Quiet.refl (s : State) : Quiet s s := ⟨rfl, rfl, rfl, rfl, List.prefix_refl _⟩

theorem Quiet.trans {s t u : State} (h : Quiet s t) (k : Quiet t u) : Quiet s u :=
  ⟨k.count.trans h.count, k.started.trans h.started, k.powered.trans h.powered, k.booted.trans h.booted, h.locked.trans k.locked⟩

/-- What every operation keeps: the canonical form of the register file, the acceptance sequence, the queue of waiting commands, what has
been sent out, and the free values drawn; and, where `z` is true, what `Quiet` says. -/
structure Kept (z : Bool) (s t : State) : Prop where
  wf : regsWf s.regs = true → regsWf t.regs = true
  ord : Safety.Ordered s → Safety.Ordered t
  pending : t.pending = s.pending
  out : s.out <+: t.out
  free : s.free ≤ t.free
  quiet : z = true → Quiet s t

theorem Kept.refl (z : Bool) (s : State) : Kept z s s := ⟨id, id, rfl, List.prefix_refl _, le_refl _, fun _ => .refl s⟩

theorem Kept.trans {z : Bool} {s t u : State} (h : Kept z s t) (k : Kept z t u) : Kept z s u :=
  ⟨fun w => k.wf (h.wf w), fun w => k.ord (h.ord w), k.pending.trans h.pending, h.out.trans k.out, h.free.trans k.free,
    fun e => (h.quiet e).trans (k.quiet e)⟩

/-- An update of other parts of the state keeps. -/
theorem Kept.same {z : Bool} {s0 s t : State} (h : Kept z s0 s) (hr : t.regs = s.regs) (ho : t.ord = s.ord) (hp : t.pending = s.pending)
    (hu : t.out = s.out) (hf : t.free = s.free) (hq : z = true → Quiet s t) : Kept z s0 t := by
  refine h.trans ⟨fun w => hr ▸ w, fun w => ?_, hp, hu ▸ List.prefix_refl _, hf ▸ le_refl _, hq⟩
  unfold Safety.Ordered at *
  rw [ho]
  exact w

/-- An update of the descriptors that drops some and renumbers none keeps. -/
theorem Kept.descs {z : Bool} {s0 s t : State} (h : Kept z s0 s) (hr : t.regs = s.regs)
    (ho : (t.ord.descs.map (·.acc)).Sublist (s.ord.descs.map (·.acc))) (hn : t.ord.next = s.ord.next) (hp : t.pending = s.pending)
    (hu : t.out = s.out) (hf : t.free = s.free) (hq : z = true → Quiet s t) : Kept z s0 t := by
  refine h.trans ⟨fun w => hr ▸ w, fun w => ⟨w.1.sublist ho, fun n hm => ?_⟩, hp, hu ▸ List.prefix_refl _, hf ▸ le_refl _, hq⟩
  rw [hn]
  exact w.2 n (ho.subset hm)

theorem Kept.tells {z : Bool} {s0 s t : State} (h : Kept z s0 s) (k : Tells s t) : Kept z s0 t := by
  refine h.trans ⟨k.wf, fun w => ?_, k.pending, k.out, k.free ▸ le_refl _,
    fun _ => ⟨by rw [k.frm], by rw [k.frm], by rw [k.sys], by rw [k.sys], by rw [k.acc]⟩⟩
  unfold Safety.Ordered at *
  rw [k.ord]
  exact w

theorem kept_setReg {z : Bool} {s0 s : State} (h : Kept z s0 s) (a : Nat) (w : Word) : Kept z s0 (s.setReg a w) := h.tells
      (tells_setReg ..)

theorem kept_emit {z : Bool} {s0 s : State} (h : Kept z s0 s) (o : Output) : Kept z s0 (s.emit o) := h.tells (tells_emit ..)

theorem kept_drawFree {z : Bool} {s0 s : State} (h : Kept z s0 s) : Kept z s0 s.drawFree.2 :=
  h.trans ⟨id, id, rfl, List.prefix_refl _, Nat.le_succ _, fun _ => ⟨rfl, rfl, rfl, rfl, List.prefix_refl _⟩⟩

theorem kept_free {z : Bool} {s0 s : State} (h : Kept z s0 s) (t : State) (e : t = { s with free := s.free + 1 }) : Kept z s0 t := by
  subst e; exact h.trans ⟨id, id, rfl, List.prefix_refl _, Nat.le_succ _, fun _ => ⟨rfl, rfl, rfl, rfl, List.prefix_refl _⟩⟩

/-- A list of steps that each keep keeps. -/
theorem kept_forAll {z : Bool} {α : Type} {s0 s : State} {l : List α} {f : State → α → State} (h : Kept z s0 s)
    (hf : ∀ t a, Kept z s0 t → Kept z s0 (f t a)) : Kept z s0 (s.forAll l f) := by
  unfold State.forAll
  induction l generalizing s with
  | nil => exact h
  | cons a l ih => exact ih (hf s a h)

theorem kept_foldl {z : Bool} {α : Type} {s0 s : State} {l : List α} {f : State → α → State} (h : Kept z s0 s)
    (hf : ∀ t a, Kept z s0 t → Kept z s0 (f t a)) : Kept z s0 (l.foldl f s) := kept_forAll h hf

theorem kept_modDesc {z : Bool} {s0 s : State} (h : Kept z s0 s) (d : Nat) (f : Desc → Desc) (hf : ∀ e, (f e).acc = e.acc) : Kept z s0
      (s.modDesc d f) := by
  refine h.descs rfl ?_ rfl rfl rfl rfl fun _ => ⟨rfl, rfl, rfl, rfl, List.prefix_refl _⟩
  have : (fun x : Desc => x.acc) ∘ (fun x : Desc => if x.acc = d then f x else x) = fun x => x.acc := by
    funext x; simp only [Function.comp]; split
    · exact hf x
    · rfl
  simp [State.modDesc, this]

theorem kept_dropDesc {z : Bool} {s0 s : State} (h : Kept z s0 s) (d : Nat) : Kept z s0 (s.dropDesc d) := by
  refine h.descs rfl ?_ rfl rfl rfl rfl fun _ => ⟨rfl, rfl, rfl, rfl, List.prefix_refl _⟩
  exact List.filter_sublist.map _

/-- The first part of a pair that keeps, under any name. -/
theorem kept_fst {z : Bool} {α : Type} {s0 t : State} {a : α} {p : State × α} (h : Kept z s0 p.1) (e : p = (t, a)) : Kept z s0 t := by
  subst e; exact h

theorem kept_snd {z : Bool} {α : Type} {s0 t : State} {a : α} {p : α × State} (h : Kept z s0 p.2) (e : p = (a, t)) : Kept z s0 t := by
  subst e; exact h

theorem kept_ite {z : Bool} {s0 s t : State} {c : Prop} [Decidable c] (hs : Kept z s0 s) (ht : Kept z s0 t) : Kept z s0 (if c then s
      else t) := by
  split
  · exact hs
  · exact ht

/-- An update of parts that the relation does not speak of. -/
theorem kept_mk {z : Bool} {s0 s : State} {hif_ sq_ cq_ eq_ ax_ cards_ cu_ hv_ fbc_ sd_ trg_ grp_ prb_ emu_ cmp_ gran_ pool_ line_ wb_ upd_
      caps_ bus_ gather_} (h : Kept z s0 s) :
    Kept z s0 (State.mk s.frm hif_ sq_ cq_ eq_ s.ord ax_ cards_ cu_ hv_ fbc_ sd_ trg_ grp_ prb_ emu_ cmp_ gran_ pool_ line_ wb_ s.acc upd_
      s.sys s.regs caps_ bus_ gather_ s.out s.free s.pending) :=
  h.same rfl rfl rfl rfl rfl fun _ => ⟨rfl, rfl, rfl, rfl, List.prefix_refl _⟩

/-- The same where the frame's, the supply's or the access control's state is updated too. -/
theorem kept_mk_quiet {z : Bool} {s0 s : State} {frm_ hif_ sq_ cq_ eq_ ax_ cards_ cu_ hv_ fbc_ sd_ trg_ grp_ prb_ emu_ cmp_ gran_ pool_ line_
      wb_ acc_ upd_ sys_ caps_ bus_ gather_} (h : Kept z s0 s)
    (hq : Quiet s (State.mk frm_ hif_ sq_ cq_ eq_ s.ord ax_ cards_ cu_ hv_ fbc_ sd_ trg_ grp_ prb_ emu_ cmp_ gran_ pool_ line_ wb_ acc_ upd_
      sys_ s.regs caps_ bus_ gather_ s.out s.free s.pending)) :
    Kept z s0 (State.mk frm_ hif_ sq_ cq_ eq_ s.ord ax_ cards_ cu_ hv_ fbc_ sd_ trg_ grp_ prb_ emu_ cmp_ gran_ pool_ line_ wb_ acc_ upd_ sys_
      s.regs caps_ bus_ gather_ s.out s.free s.pending) :=
  h.same rfl rfl rfl rfl rfl fun _ => hq

/-- The same at a tick, a power-up or a reset. -/
theorem kept_mk_any {s0 s : State} {frm_ hif_ sq_ cq_ eq_ ax_ cards_ cu_ hv_ fbc_ sd_ trg_ grp_ prb_ emu_ cmp_ gran_ pool_ line_ wb_ acc_
      upd_ sys_ caps_ bus_ gather_} (h : Kept false s0 s) :
    Kept false s0 (State.mk frm_ hif_ sq_ cq_ eq_ s.ord ax_ cards_ cu_ hv_ fbc_ sd_ trg_ grp_ prb_ emu_ cmp_ gran_ pool_ line_ wb_ acc_ upd_
      sys_ s.regs caps_ bus_ gather_ s.out s.free s.pending) :=
  h.same rfl rfl rfl rfl rfl fun e => nomatch e

/-- The same where the descriptors are also mapped and keep their acceptance numbers. -/
theorem kept_mk_map {z : Bool} {s0 s : State} {hif_ sq_ cq_ eq_ ax_ cards_ cu_ hv_ fbc_ sd_ trg_ grp_ prb_ emu_ cmp_ gran_ pool_ line_ wb_
      upd_ caps_ bus_ gather_} {f : Desc → Desc} {b : List OpenBarrier} (h : Kept z s0 s)
    (hf : ∀ e, (f e).acc = e.acc) :
    Kept z s0 (State.mk s.frm hif_ sq_ cq_ eq_ ⟨s.ord.next, s.ord.descs.map f, b⟩ ax_ cards_ cu_ hv_ fbc_ sd_ trg_ grp_ prb_ emu_ cmp_ gran_
      pool_ line_ wb_ s.acc upd_ s.sys s.regs caps_ bus_ gather_ s.out s.free s.pending) := by
  refine h.descs rfl ?_ rfl rfl rfl rfl fun _ => ⟨rfl, rfl, rfl, rfl, List.prefix_refl _⟩
  have : (fun x : Desc => x.acc) ∘ f = fun x => x.acc := by funext x; exact hf x
  simp [this]

end Sys2Proof.Machine
end

