-- ==== Sys2Proof/Laws/KeptOrder.lean ====
section
/-! SUPPORT. Every operation of the register file, motion, acceptance and ordering keeps what `Kept` says. -/

set_option linter.unreachableTactic false
set_option linter.unusedTactic false
set_option linter.unusedVariables false

namespace Sys2Proof.Machine

/-! ### Ops -/

theorem kept_modCu {z : Bool} {s0 s : State} (h : Kept z s0 s) (x1 : CarrierId) (x2 : CUnit → CUnit) : Kept z s0 (State.modCu s x1 x2) := by
  unfold State.modCu
  try dsimp only
  repeat' (first
    | with_reducible assumption | split | fail_if_no_progress (with_reducible refine kept_mk (h := ?_)))

theorem kept_incReg {z : Bool} {s0 s : State} (h : Kept z s0 s) (x1 : ℕ) : Kept z s0 (State.incReg s x1) := by
  unfold State.incReg
  try dsimp only
  repeat' (first
    | with_reducible assumption | with_reducible refine kept_setReg ?_ _ _ | split
    | fail_if_no_progress (with_reducible refine kept_mk (h := ?_)))

theorem kept_orReg {z : Bool} {s0 s : State} (h : Kept z s0 s) (x1 : ℕ) (x2 : ℕ) : Kept z s0 (State.orReg s x1 x2) := by
  unfold State.orReg
  try dsimp only
  repeat' (first
    | with_reducible assumption | with_reducible refine kept_setReg ?_ _ _ | split
    | fail_if_no_progress (with_reducible refine kept_mk (h := ?_)))

theorem kept_sendMsix {z : Bool} {s0 s : State} (h : Kept z s0 s) (x1 : Fin 2) (x2 : Fin 16) : Kept z s0 (State.sendMsix s x1 x2) := by
  unfold State.sendMsix
  try dsimp only
  repeat' (first
    | with_reducible assumption | with_reducible refine kept_emit ?_ _ | split
    | fail_if_no_progress (with_reducible refine kept_mk (h := ?_)))

theorem kept_signal {z : Bool} {s0 s : State} (h : Kept z s0 s) (x1 : Fin 2) (x2 : Fin 16) : Kept z s0 (State.signal s x1 x2) := by
  unfold State.signal
  try dsimp only
  repeat' (first
    | with_reducible assumption | with_reducible refine kept_sendMsix ?_ _ _ | split
    | fail_if_no_progress (with_reducible refine kept_mk (h := ?_)))

theorem kept_signalEq {z : Bool} {s0 s : State} (h : Kept z s0 s) : Kept z s0 (State.signalEq s) := by
  unfold State.signalEq
  try dsimp only
  repeat' (first
    | with_reducible assumption | with_reducible refine kept_signal ?_ _ _ | split
    | fail_if_no_progress (with_reducible refine kept_mk (h := ?_)))

theorem kept_putEvent {z : Bool} {s0 s : State} (h : Kept z s0 s) (x1 : EvRec) (x2 : Bool) : Kept z s0 (State.putEvent s x1 x2) := by
  unfold State.putEvent
  try dsimp only
  repeat' (first
    | with_reducible assumption | with_reducible refine kept_emit ?_ _ | with_reducible refine kept_signalEq ?_ | split
    | fail_if_no_progress (with_reducible refine kept_mk (h := ?_)))

theorem kept_writeEvent {z : Bool} {s0 s : State} (h : Kept z s0 s) (x1 : EvRec) (x2 : Bool) : Kept z s0 (State.writeEvent s x1 x2) := by
  unfold State.writeEvent
  try dsimp only
  repeat' (first
    | with_reducible assumption | with_reducible refine kept_putEvent ?_ _ _ | split
    | fail_if_no_progress (with_reducible refine kept_mk (h := ?_)))

theorem kept_hold {z : Bool} {s0 s : State} (h : Kept z s0 s) (x1 : HeldRec) : Kept z s0 (State.hold s x1) := by
  unfold State.hold
  try dsimp only
  repeat' (first
    | with_reducible assumption | split | fail_if_no_progress (with_reducible refine kept_mk (h := ?_)))

theorem kept_tell {z : Bool} {s0 s : State} (h : Kept z s0 s) (x1 : EvRec) : Kept z s0 (State.tell s x1) := by
  unfold State.tell
  try dsimp only
  repeat' (first
    | with_reducible assumption | with_reducible refine kept_writeEvent ?_ _ _ | with_reducible refine kept_hold ?_ _ | split
    | fail_if_no_progress (with_reducible refine kept_mk (h := ?_)))

theorem kept_raiseAt {z : Bool} {s0 s : State} (h : Kept z s0 s) (x1 : FrameNo) (x2 : ℕ) (x3 : ℕ) (x4 : Word) (x5 : Word) : Kept z s0 (State.raiseAt s x1 x2 x3 x4 x5) := by
  unfold State.raiseAt
  try dsimp only
  repeat' (first
    | with_reducible assumption | with_reducible refine kept_incReg ?_ _ | with_reducible refine kept_orReg ?_ _ _
    | with_reducible refine kept_tell ?_ _ | split | fail_if_no_progress (with_reducible refine kept_mk (h := ?_)))

theorem kept_raise {z : Bool} {s0 s : State} (h : Kept z s0 s) (x1 : ℕ) (x2 : ℕ) (x3 : Word) (x4 : Word) : Kept z s0 (State.raise s x1 x2 x3 x4) := by
  unfold State.raise
  try dsimp only
  repeat' (first
    | with_reducible assumption | with_reducible refine kept_raiseAt ?_ _ _ _ _ _ | split
    | fail_if_no_progress (with_reducible refine kept_mk (h := ?_)))

theorem kept_modCq {z : Bool} {s0 s : State} (h : Kept z s0 s) (x1 : RingId) (x2 : Cq → Cq) : Kept z s0 (State.modCq s x1 x2) := by
  unfold State.modCq
  try dsimp only
  repeat' (first
    | with_reducible assumption | split | fail_if_no_progress (with_reducible refine kept_mk (h := ?_)))

theorem kept_keepOf {z : Bool} {s0 s : State} (h : Kept z s0 s) (x1 : Option ℕ) : Kept z s0 (State.keepOf s x1) := by
  unfold State.keepOf
  try dsimp only
  repeat' (first
    | with_reducible assumption | with_reducible refine kept_modDesc ?_ _ _ ?_ | split
    | fail_if_no_progress (with_reducible refine kept_mk (h := ?_))
    | fail_if_no_progress (with_reducible refine kept_mk_map (h := ?_) ?_) | with_reducible refine kept_foldl ?_ (fun _ _ _ => ?_)
    | (intro e; rfl) | (intro e; dsimp only; split <;> rfl) | with_reducible refine kept_drawFree ?_
    | with_reducible refine kept_fst ?_ (by assumption) | with_reducible refine kept_snd ?_ (by assumption) | dsimp only)

theorem kept_signalCq {z : Bool} {s0 s : State} (h : Kept z s0 s) (x1 : RingId) : Kept z s0 (State.signalCq s x1) := by
  unfold State.signalCq
  try dsimp only
  repeat' (first
    | with_reducible assumption | with_reducible refine kept_modCq ?_ _ _ | with_reducible refine kept_signal ?_ _ _ | split
    | fail_if_no_progress (with_reducible refine kept_mk (h := ?_)))

theorem kept_putRec {z : Bool} {s0 s : State} (h : Kept z s0 s) (x1 : RingId) (x2 : Rec) (x3 : Bool) : Kept z s0 (State.putRec s x1 x2 x3) := by
  unfold State.putRec
  try dsimp only
  repeat' (first
    | with_reducible assumption | with_reducible refine kept_emit ?_ _ | with_reducible refine kept_modCq ?_ _ _
    | with_reducible refine kept_signalCq ?_ _ | split | fail_if_no_progress (with_reducible refine kept_mk (h := ?_)))

theorem kept_dropOf {z : Bool} {s0 s : State} (h : Kept z s0 s) (x1 : Option ℕ) : Kept z s0 (State.dropOf s x1) := by
  unfold State.dropOf
  try dsimp only
  repeat' (first
    | with_reducible assumption | with_reducible refine kept_dropDesc ?_ _ | split
    | fail_if_no_progress (with_reducible refine kept_mk (h := ?_)))

theorem kept_produce {z : Bool} {s0 s : State} (h : Kept z s0 s) (x1 : RingId) (x2 : Rec) : Kept z s0 (State.produce s x1 x2) := by
  unfold State.produce
  try dsimp only
  repeat' (first
    | with_reducible assumption | with_reducible refine kept_modCq ?_ _ _ | with_reducible refine kept_keepOf ?_ _
    | with_reducible refine kept_putRec ?_ _ _ _ | with_reducible refine kept_dropOf ?_ _ | with_reducible refine kept_hold ?_ _ | split
    | fail_if_no_progress (with_reducible refine kept_mk (h := ?_)))

theorem kept_modAx {z : Bool} {s0 s : State} (h : Kept z s0 s) (x1 : AxisId) (x2 : Axis → Axis) : Kept z s0 (State.modAx s x1 x2) := by
  unfold State.modAx
  try dsimp only
  repeat' (first
    | with_reducible assumption | split | fail_if_no_progress (with_reducible refine kept_mk (h := ?_)))

theorem kept_modFbc {z : Bool} {s0 s : State} (h : Kept z s0 s) (x1 : Fin 24) (x2 : FbChan → FbChan) : Kept z s0 (State.modFbc s x1 x2) := by
  unfold State.modFbc
  try dsimp only
  repeat' (first
    | with_reducible assumption | split | fail_if_no_progress (with_reducible refine kept_mk (h := ?_)))

theorem kept_modSq {z : Bool} {s0 s : State} (h : Kept z s0 s) (x1 : RingId) (x2 : Sq → Sq) : Kept z s0 (State.modSq s x1 x2) := by
  unfold State.modSq
  try dsimp only
  repeat' (first
    | with_reducible assumption | split | fail_if_no_progress (with_reducible refine kept_mk (h := ?_)))

theorem kept_eqOverflow {z : Bool} {s0 s : State} (h : Kept z s0 s) : Kept z s0 (State.eqOverflow s) := by
  unfold State.eqOverflow
  try dsimp only
  repeat' (first
    | with_reducible assumption | with_reducible refine kept_incReg ?_ _ | with_reducible refine kept_orReg ?_ _ _
    | with_reducible refine kept_putEvent ?_ _ _ | split | fail_if_no_progress (with_reducible refine kept_mk (h := ?_)))

theorem kept_drainWaiting {z : Bool} {s0 s : State} (h : Kept z s0 s) (q : RingId) (l : List Rec) : Kept z s0 (State.drainWaiting s q l) := by
  induction l generalizing s with
  | nil => exact kept_modCq h _ _
  | cons r rs ih =>
    rw [State.drainWaiting]
    split
    · exact kept_modCq h _ _
    · exact ih (kept_putRec (kept_dropOf h _) _ _ _)

theorem kept_clrReg {z : Bool} {s0 s : State} (h : Kept z s0 s) (x1 : ℕ) (x2 : ℕ) : Kept z s0 (State.clrReg s x1 x2) := by
  unfold State.clrReg
  try dsimp only
  repeat' (first
    | with_reducible assumption | with_reducible refine kept_setReg ?_ _ _ | split
    | fail_if_no_progress (with_reducible refine kept_mk (h := ?_)))

theorem kept_modPool {z : Bool} {s0 s : State} (h : Kept z s0 s) (x1 : Fin 7) (x2 : Pool → Pool) : Kept z s0 (State.modPool s x1 x2) := by
  unfold State.modPool
  try dsimp only
  repeat' (first
    | with_reducible assumption | split | fail_if_no_progress (with_reducible refine kept_mk (h := ?_)))

theorem kept_modTt {z : Bool} {s0 s : State} (h : Kept z s0 s) (x1 : AxisId) (x2 : TtState → TtState) : Kept z s0 (State.modTt s x1 x2) := by
  unfold State.modTt
  try dsimp only
  repeat' (first
    | with_reducible assumption | with_reducible refine kept_modAx ?_ _ _ | split
    | fail_if_no_progress (with_reducible refine kept_mk (h := ?_)))

theorem kept_modCd {z : Bool} {s0 s : State} (h : Kept z s0 s) (x1 : AxisId) (x2 : CdState → CdState) : Kept z s0 (State.modCd s x1 x2) := by
  unfold State.modCd
  try dsimp only
  repeat' (first
    | with_reducible assumption | with_reducible refine kept_modAx ?_ _ _ | split
    | fail_if_no_progress (with_reducible refine kept_mk (h := ?_)))

theorem kept_putReg {z : Bool} {s0 s : State} (h : Kept z s0 s) (x1 : ℕ) (x2 : ℕ) (x3 : ℕ) : Kept z s0 (State.putReg s x1 x2 x3) := by
  unfold State.putReg
  try dsimp only
  repeat' (first
    | with_reducible assumption | with_reducible refine kept_setReg ?_ _ _ | split
    | fail_if_no_progress (with_reducible refine kept_mk (h := ?_)))

theorem kept_modSg {z : Bool} {s0 s : State} (h : Kept z s0 s) (x1 : AxisId) (x2 : SgState → SgState) : Kept z s0 (State.modSg s x1 x2) := by
  unfold State.modSg
  try dsimp only
  repeat' (first
    | with_reducible assumption | with_reducible refine kept_modAx ?_ _ _ | split
    | fail_if_no_progress (with_reducible refine kept_mk (h := ?_)))

theorem kept_ask {z : Bool} {s0 s : State} (h : Kept z s0 s) (x1 : AdmKind) (x2 : FrameNo) : Kept z s0 (State.ask s x1 x2) := by
  unfold State.ask
  try dsimp only
  repeat' (first
    | with_reducible assumption | split | fail_if_no_progress (with_reducible refine kept_mk (h := ?_))
    | fail_if_no_progress (with_reducible refine kept_mk_quiet (h := ?_) ?_) | exact ⟨rfl, rfl, rfl, rfl, List.prefix_refl _⟩
    | exact ⟨rfl, rfl, rfl, rfl, List.prefix_append _ _⟩)

theorem kept_modBr {z : Bool} {s0 s : State} (h : Kept z s0 s) (x1 : AxisId) (x2 : BrState → BrState) : Kept z s0 (State.modBr s x1 x2) := by
  unfold State.modBr
  try dsimp only
  repeat' (first
    | with_reducible assumption | with_reducible refine kept_modAx ?_ _ _ | split
    | fail_if_no_progress (with_reducible refine kept_mk (h := ?_)))

theorem kept_modEmu {z : Bool} {s0 s : State} (h : Kept z s0 s) (x1 : Fin 4) (x2 : Emu → Emu) : Kept z s0 (State.modEmu s x1 x2) := by
  unfold State.modEmu
  try dsimp only
  repeat' (first
    | with_reducible assumption | split | fail_if_no_progress (with_reducible refine kept_mk (h := ?_)))

theorem kept_maskVector {z : Bool} {s0 s : State} (h : Kept z s0 s) (x1 : Fin 2) (x2 : Fin 16) : Kept z s0 (State.maskVector s x1 x2) := by
  unfold State.maskVector
  try dsimp only
  repeat' (first
    | with_reducible assumption | split | fail_if_no_progress (with_reducible refine kept_mk (h := ?_)))

theorem kept_unmask {z : Bool} {s0 s : State} (h : Kept z s0 s) (x1 : Fin 2) (x2 : Fin 16) : Kept z s0 (State.unmask s x1 x2) := by
  unfold State.unmask
  try dsimp only
  repeat' (first
    | with_reducible assumption | with_reducible refine kept_sendMsix ?_ _ _ | split
    | fail_if_no_progress (with_reducible refine kept_mk (h := ?_)))

theorem kept_addReg {z : Bool} {s0 s : State} (h : Kept z s0 s) (x1 : ℕ) (x2 : ℕ) : Kept z s0 (State.addReg s x1 x2) := by
  unfold State.addReg
  try dsimp only
  repeat' (first
    | with_reducible assumption | with_reducible refine kept_setReg ?_ _ _ | split
    | fail_if_no_progress (with_reducible refine kept_mk (h := ?_)))

theorem kept_modTrg {z : Bool} {s0 s : State} (h : Kept z s0 s) (x1 : Fin 64) (x2 : Trig → Trig) : Kept z s0 (State.modTrg s x1 x2) := by
  unfold State.modTrg
  try dsimp only
  repeat' (first
    | with_reducible assumption | split | fail_if_no_progress (with_reducible refine kept_mk (h := ?_)))

theorem kept_gathering {z : Bool} {s0 s : State} (h : Kept z s0 s) : Kept z s0 (State.gathering s) := by
  unfold State.gathering
  try dsimp only
  repeat' (first
    | with_reducible assumption | split | fail_if_no_progress (with_reducible refine kept_mk (h := ?_)))

theorem kept_tellAll {z : Bool} {s0 s : State} (h : Kept z s0 s) : Kept z s0 (State.tellAll s) := h.tells (tells_tellAll s)

theorem kept_modCard {z : Bool} {s0 s : State} (h : Kept z s0 s) (x1 : Fin 64) (x2 : Card → Card) : Kept z s0 (State.modCard s x1 x2) := by
  unfold State.modCard
  try dsimp only
  repeat' (first
    | with_reducible assumption | split | fail_if_no_progress (with_reducible refine kept_mk (h := ?_)))

theorem kept_modFbx {z : Bool} {s0 s : State} (h : Kept z s0 s) (x1 : AxisId) (x2 : FbState → FbState) : Kept z s0 (State.modFbx s x1 x2) := by
  unfold State.modFbx
  try dsimp only
  repeat' (first
    | with_reducible assumption | with_reducible refine kept_modAx ?_ _ _ | split
    | fail_if_no_progress (with_reducible refine kept_mk (h := ?_)))

theorem kept_modSd {z : Bool} {s0 s : State} (h : Kept z s0 s) (x1 : Fin 16) (x2 : StepIn → StepIn) : Kept z s0 (State.modSd s x1 x2) := by
  unfold State.modSd
  try dsimp only
  repeat' (first
    | with_reducible assumption | split | fail_if_no_progress (with_reducible refine kept_mk (h := ?_)))

theorem kept_modHv {z : Bool} {s0 s : State} (h : Kept z s0 s) (x1 : HeavyId) (x2 : HvState → HvState) : Kept z s0 (State.modHv s x1 x2) := by
  unfold State.modHv
  try dsimp only
  repeat' (first
    | with_reducible assumption | split | fail_if_no_progress (with_reducible refine kept_mk (h := ?_)))

/-! ### Gate -/

theorem kept_capture {z : Bool} {s0 s : State} (h : Kept z s0 s) (x1 : ℕ) (x2 : ℕ) (x3 : Master) (x4 : ℕ) : Kept z s0 (State.capture s x1 x2 x3 x4) := by
  unfold State.capture
  try dsimp only
  repeat' (first
    | with_reducible assumption | with_reducible refine kept_setReg ?_ _ _ | split
    | fail_if_no_progress (with_reducible refine kept_mk (h := ?_)))

theorem kept_notePrv {z : Bool} {s0 s : State} (h : Kept z s0 s) (x1 : Master) (x2 : ℕ) : Kept z s0 (State.notePrv s x1 x2) := by
  unfold State.notePrv
  try dsimp only
  repeat' (first
    | with_reducible assumption | with_reducible refine kept_capture ?_ _ _ _ _ | split
    | fail_if_no_progress (with_reducible refine kept_mk (h := ?_)))

theorem kept_gate {z : Bool} {s0 s : State} (h : Kept z s0 s) (x1 : Master) (x2 : ℕ) (x3 : ℕ) : Kept z s0 (State.gate s x1 x2 x3).1 := by
  unfold State.gate
  try dsimp only
  repeat' (first
    | with_reducible assumption | with_reducible refine kept_notePrv ?_ _ _ | split
    | fail_if_no_progress (with_reducible refine kept_mk (h := ?_)))

theorem kept_rewritten {z : Bool} {s0 s : State} (h : Kept z s0 s) (x1 : ℕ) : Kept z s0 (State.rewritten s x1) := by
  unfold State.rewritten
  try dsimp only
  repeat' (first
    | with_reducible assumption | split | fail_if_no_progress (with_reducible refine kept_mk (h := ?_))
    | fail_if_no_progress (with_reducible refine kept_mk_quiet (h := ?_) ?_) | exact ⟨rfl, rfl, rfl, rfl, List.prefix_refl _⟩
    | exact ⟨rfl, rfl, rfl, rfl, List.prefix_append _ _⟩)

theorem kept_storeWord {z : Bool} {s0 s : State} (h : Kept z s0 s) (x1 : Master) (x2 : ℕ) (x3 : Word) : Kept z s0 (State.storeWord s x1 x2 x3) := by
  unfold State.storeWord
  try dsimp only
  repeat' (first
    | with_reducible assumption | with_reducible refine kept_rewritten ?_ _ | with_reducible refine kept_setReg ?_ _ _ | split
    | fail_if_no_progress (with_reducible refine kept_mk (h := ?_)))

theorem kept_plainWrite {z : Bool} {s0 s : State} (h : Kept z s0 s) (x1 : Master) (x2 : ℕ) (x3 : Word) : Kept z s0 (State.plainWrite s x1 x2 x3) := by
  unfold State.plainWrite
  try dsimp only
  repeat' (first
    | with_reducible assumption | with_reducible refine kept_notePrv ?_ _ _ | with_reducible refine kept_storeWord ?_ _ _ _ | split
    | fail_if_no_progress (with_reducible refine kept_mk (h := ?_)))

theorem kept_noted {z : Bool} {s0 s : State} (h : Kept z s0 s) (x1 : Master) (x2 : ℕ) : Kept z s0 (State.noted s x1 x2) := by
  unfold State.noted
  try dsimp only
  repeat' (first
    | with_reducible assumption | with_reducible refine kept_notePrv ?_ _ _ | split
    | fail_if_no_progress (with_reducible refine kept_mk (h := ?_)))

/-! ### Motion -/

theorem kept_tellAt {z : Bool} {s0 s : State} (h : Kept z s0 s) (x1 : FrameNo) (x2 : ℕ) (x3 : AxisId) (x4 : Word) (x5 : Word) : Kept z s0 (State.tellAt s x1 x2 x3 x4 x5) := by
  unfold State.tellAt
  try dsimp only
  repeat' (first
    | with_reducible assumption | with_reducible refine kept_raise ?_ _ _ _ _ | with_reducible refine kept_modAx ?_ _ _ | split
    | fail_if_no_progress (with_reducible refine kept_mk (h := ?_)))

theorem kept_limitClipped {z : Bool} {s0 s : State} (h : Kept z s0 s) (x1 : AxisId) (x2 : ℤ) (x3 : ℕ) (x4 : Bool) : Kept z s0 (State.limitClipped s x1 x2 x3 x4) := by
  unfold State.limitClipped
  try dsimp only
  repeat' (first
    | with_reducible assumption | with_reducible refine kept_tellAt ?_ _ _ _ _ _ | split
    | fail_if_no_progress (with_reducible refine kept_mk (h := ?_)))

theorem kept_planProfile {z : Bool} {s0 s : State} (h : Kept z s0 s) (x1 : AxisId) : Kept z s0 (State.planProfile s x1) := by
  unfold State.planProfile
  try dsimp only
  repeat' (first
    | with_reducible assumption | with_reducible refine kept_modTt ?_ _ _ | with_reducible refine kept_limitClipped ?_ _ _ _ _ | split
    | fail_if_no_progress (with_reducible refine kept_mk (h := ?_)))

theorem kept_stopFrom {z : Bool} {s0 s : State} (h : Kept z s0 s) (x1 : AxisId) (x2 : Limits) (x3 : Limits) (x4 : Bool) : Kept z s0 (State.stopFrom s x1 x2 x3 x4) := by
  unfold State.stopFrom
  try dsimp only
  repeat' (first
    | with_reducible assumption | with_reducible refine kept_limitClipped ?_ _ _ _ _ | with_reducible refine kept_planProfile ?_ _
    | with_reducible refine kept_modAx ?_ _ _ | split | fail_if_no_progress (with_reducible refine kept_mk (h := ?_)))

theorem kept_stopMotion {z : Bool} {s0 s : State} (h : Kept z s0 s) (x1 : AxisId) (x2 : ℕ) (x3 : ℕ) (x4 : Bool) : Kept z s0 (State.stopMotion s x1 x2 x3 x4) := by
  unfold State.stopMotion
  try dsimp only
  repeat' (first
    | with_reducible assumption | with_reducible refine kept_stopFrom ?_ _ _ _ _ | split
    | fail_if_no_progress (with_reducible refine kept_mk (h := ?_)))

theorem kept_stopStored {z : Bool} {s0 s : State} (h : Kept z s0 s) (x1 : AxisId) (x2 : Bool) : Kept z s0 (State.stopStored s x1 x2) := by
  unfold State.stopStored
  try dsimp only
  repeat' (first
    | with_reducible assumption | with_reducible refine kept_modTt ?_ _ _ | with_reducible refine kept_stopMotion ?_ _ _ _ _ | split
    | fail_if_no_progress (with_reducible refine kept_mk (h := ?_)))

theorem kept_decideTarget {z : Bool} {s0 s : State} (h : Kept z s0 s) (x1 : AxisId) (x2 : Limits) (x3 : Option ℤ) (x4 : FrameNo) : Kept z s0 (State.decideTarget s x1 x2 x3 x4) := by
  unfold State.decideTarget
  try dsimp only
  repeat' (first
    | with_reducible assumption | with_reducible refine kept_modTt ?_ _ _ | with_reducible refine kept_tellAt ?_ _ _ _ _ _ | split
    | fail_if_no_progress (with_reducible refine kept_mk (h := ?_)))

theorem kept_newTarget {z : Bool} {s0 s : State} (h : Kept z s0 s) (x1 : AxisId) (x2 : ℤ) (x3 : Limits) : Kept z s0 (State.newTarget s x1 x2 x3) := by
  unfold State.newTarget
  try dsimp only
  repeat' (first
    | with_reducible assumption | with_reducible refine kept_limitClipped ?_ _ _ _ _ | with_reducible refine kept_modAx ?_ _ _
    | with_reducible refine kept_decideTarget ?_ _ _ _ _ | split | fail_if_no_progress (with_reducible refine kept_mk (h := ?_)))

theorem kept_takeForms {z : Bool} {s0 s : State} (h : Kept z s0 s) (x1 : AxisId) : Kept z s0 (State.takeForms s x1) := by
  unfold State.takeForms
  try dsimp only
  repeat' (first
    | with_reducible assumption | with_reducible refine kept_modAx ?_ _ _ | split
    | fail_if_no_progress (with_reducible refine kept_mk (h := ?_)))

/-! ### Order -/

theorem kept_finishEvents {z : Bool} {s0 s : State} (h : Kept z s0 s) (x1 : Desc) (x2 : ℕ) (x3 : Word) (x4 : FrameNo) : Kept z s0 (State.finishEvents s x1 x2 x3 x4) := by
  unfold State.finishEvents
  try dsimp only
  repeat' (first
    | with_reducible assumption | with_reducible refine kept_raiseAt ?_ _ _ _ _ _
    | with_reducible refine kept_forAll ?_ (fun _ _ _ => ?_) | split | fail_if_no_progress (with_reducible refine kept_mk (h := ?_)))

theorem kept_moveFeed {z : Bool} {s0 s : State} (h : Kept z s0 s) (x1 : List AxisId) (x2 : List ℤ) : Kept z s0 (State.moveFeed s x1 x2) := by
  unfold State.moveFeed
  try dsimp only
  repeat' (first
    | with_reducible assumption | split | fail_if_no_progress (with_reducible refine kept_mk (h := ?_))
    | fail_if_no_progress (with_reducible refine kept_mk_map (h := ?_) ?_) | with_reducible refine kept_foldl ?_ (fun _ _ _ => ?_)
    | (intro e; rfl) | (intro e; dsimp only; split <;> rfl) | with_reducible refine kept_drawFree ?_
    | with_reducible refine kept_fst ?_ (by assumption) | with_reducible refine kept_snd ?_ (by assumption) | dsimp only)

theorem kept_readLines {z : Bool} {s0 s : State} (h : Kept z s0 s) (x1 : FollowSt) (x2 : List ℕ) : Kept z s0 (State.readLines s x1 x2) := by
  unfold State.readLines
  try dsimp only
  repeat' (first
    | with_reducible assumption | with_reducible refine kept_forAll ?_ (fun _ _ _ => ?_) | with_reducible refine kept_emit ?_ _ | split
    | fail_if_no_progress (with_reducible refine kept_mk (h := ?_)))

theorem kept_fillCam {z : Bool} {s0 s : State} (h : Kept z s0 s) (x1 : FollowSt) : Kept z s0 (State.fillCam s x1).1 := by
  unfold State.fillCam
  try dsimp only
  repeat' (first
    | with_reducible assumption | with_reducible refine kept_readLines ?_ _ _ | split
    | fail_if_no_progress (with_reducible refine kept_mk (h := ?_)))

theorem kept_camHead {z : Bool} {s0 s : State} (h : Kept z s0 s) (x1 : AxisId) : Kept z s0 (State.camHead s x1) := by
  unfold State.camHead
  try dsimp only
  repeat' (first
    | with_reducible assumption | with_reducible refine kept_fillCam ?_ _ | with_reducible refine kept_modAx ?_ _ _ | split
    | fail_if_no_progress (with_reducible refine kept_mk (h := ?_)))

theorem kept_queueLow {z : Bool} {s0 s : State} (h : Kept z s0 s) (x1 : AxisId) (x2 : FrameNo) : Kept z s0 (State.queueLow s x1 x2) := by
  unfold State.queueLow
  try dsimp only
  repeat' (first
    | with_reducible assumption | with_reducible refine kept_raiseAt ?_ _ _ _ _ _ | split
    | fail_if_no_progress (with_reducible refine kept_mk (h := ?_)))

theorem kept_finish {z : Bool} {s0 s : State} (h : Kept z s0 s) (x1 : Desc) (x2 : ℕ) (x3 : Word) (x4 : Word) (x5 : FrameNo) : Kept z s0 (State.finish s x1 x2 x3 x4 x5) := by
  unfold State.finish
  try dsimp only
  repeat' (first
    | with_reducible assumption | with_reducible refine kept_dropDesc ?_ _ | with_reducible refine kept_produce ?_ _ _
    | with_reducible refine kept_finishEvents ?_ _ _ _ _ | with_reducible refine kept_moveFeed ?_ _ _
    | with_reducible refine kept_forAll ?_ (fun _ _ _ => ?_) | with_reducible refine kept_camHead ?_ _
    | with_reducible refine kept_queueLow ?_ _ _ | split | fail_if_no_progress (with_reducible refine kept_mk (h := ?_)))

theorem kept_enterOne {z : Bool} {s0 s : State} (h : Kept z s0 s) (d : Desc) {t : State} (e : State.enterOne s d = some t) : Kept z s0 t := by
  unfold State.enterOne at e
  dsimp only at e
  generalize (if d.op = 0x10 ∧ d.rej.isNone then { d with members := s.groupOf d.bytes } else d) = m at e
  have k := kept_modDesc h d.acc (fun e => { e with stage := .queued, members := m.members }) fun _ => rfl
  split at e
  · cases e
  · split at e
    · split at e
      · cases e; exact kept_finish h _ _ _ _ _
      · cases e; exact kept_forAll k fun _ _ q => kept_camHead q _
    · cases e; exact kept_forAll k fun _ _ q => kept_camHead q _

theorem kept_enterRing {z : Bool} {s0 s : State} (h : Kept z s0 s) (q : RingId) (n : Nat) : Kept z s0 (State.enterRing q n s) := by
  induction n generalizing s with
  | zero => exact h
  | succ n ih =>
    rw [State.enterRing]
    split
    · exact h
    · split
      · exact h
      · exact ih (kept_enterOne h _ (by assumption))

theorem kept_finishOk {z : Bool} {s0 s : State} (h : Kept z s0 s) (x1 : Desc) (x2 : Word) (x3 : Word) (x4 : FrameNo) : Kept z s0 (State.finishOk s x1 x2 x3 x4) := by
  unfold State.finishOk
  try dsimp only
  repeat' (first
    | with_reducible assumption | with_reducible refine kept_finish ?_ _ _ _ _ _ | split
    | fail_if_no_progress (with_reducible refine kept_mk (h := ?_)))

theorem kept_keepAxis {z : Bool} {s0 s : State} (h : Kept z s0 s) (x1 : Desc) (x2 : AxisId) : Kept z s0 (State.keepAxis s x1 x2) := by
  unfold State.keepAxis
  try dsimp only
  repeat' (first
    | with_reducible assumption | with_reducible refine kept_modAx ?_ _ _ | split
    | fail_if_no_progress (with_reducible refine kept_mk (h := ?_)))

theorem kept_later {z : Bool} {s0 s : State} (h : Kept z s0 s) (x1 : Desc) (x2 : ℕ) (x3 : Word) (x4 : Word) : Kept z s0 (State.later s x1 x2 x3 x4) := by
  unfold State.later
  try dsimp only
  repeat' (first
    | with_reducible assumption | with_reducible refine kept_modDesc ?_ _ _ ?_ | split
    | fail_if_no_progress (with_reducible refine kept_mk (h := ?_))
    | fail_if_no_progress (with_reducible refine kept_mk_quiet (h := ?_) ?_) | exact ⟨rfl, rfl, rfl, rfl, List.prefix_refl _⟩
    | exact ⟨rfl, rfl, rfl, rfl, List.prefix_append _ _⟩ | fail_if_no_progress (with_reducible refine kept_mk_map (h := ?_) ?_)
    | with_reducible refine kept_foldl ?_ (fun _ _ _ => ?_) | (intro e; rfl) | (intro e; dsimp only; split <;> rfl)
    | with_reducible refine kept_drawFree ?_ | with_reducible refine kept_fst ?_ (by assumption)
    | with_reducible refine kept_snd ?_ (by assumption) | dsimp only)

theorem kept_rejectMode {z : Bool} {s0 s : State} (h : Kept z s0 s) (x1 : Desc) (x2 : ℕ) (x3 : FrameNo) : Kept z s0 (State.rejectMode s x1 x2 x3) := by
  unfold State.rejectMode
  try dsimp only
  repeat' (first
    | with_reducible assumption | with_reducible refine kept_finish ?_ _ _ _ _ _ | with_reducible refine kept_forAll ?_ (fun _ _ _ => ?_)
    | with_reducible refine kept_raiseAt ?_ _ _ _ _ _ | split | fail_if_no_progress (with_reducible refine kept_mk (h := ?_)))

theorem kept_finishHead {z : Bool} {s0 s : State} (h : Kept z s0 s) (x1 : Desc) (x2 : ℕ) (x3 : Word) (x4 : Word) (x5 : FrameNo) : Kept z s0 (State.finishHead s x1 x2 x3 x4 x5) := by
  unfold State.finishHead
  try dsimp only
  repeat' (first
    | with_reducible assumption | with_reducible refine kept_rejectMode ?_ _ _ _ | with_reducible refine kept_finish ?_ _ _ _ _ _ | split
    | fail_if_no_progress (with_reducible refine kept_mk (h := ?_)))

theorem kept_stopOthers {z : Bool} {s0 s : State} (h : Kept z s0 s) (x1 : Desc) (x2 : List AxisId) : Kept z s0 (State.stopOthers s x1 x2) := by
  unfold State.stopOthers
  try dsimp only
  repeat' (first
    | with_reducible assumption | with_reducible refine kept_forAll ?_ (fun _ _ _ => ?_) | with_reducible refine kept_stopStored ?_ _ _
    | split | fail_if_no_progress (with_reducible refine kept_mk (h := ?_)))

theorem kept_endAhead {z : Bool} {s0 s : State} (h : Kept z s0 s) (d e : Desc) : Kept z s0 (State.endAhead s d e) := by
  unfold State.endAhead
  refine kept_ite (kept_modDesc h _ _ fun _ => rfl) (kept_stopOthers ?_ _ _)
  exact kept_foldl h fun _ _ k => kept_keepAxis k _ _

theorem kept_takeEffect {z : Bool} {s0 s : State} (h : Kept z s0 s) (x1 : Desc) : Kept z s0 (State.takeEffect s x1) := by
  unfold State.takeEffect
  try dsimp only
  repeat' (first
    | with_reducible assumption | with_reducible refine kept_modDesc ?_ _ _ ?_ | split
    | fail_if_no_progress (with_reducible refine kept_mk (h := ?_))
    | fail_if_no_progress (with_reducible refine kept_mk_map (h := ?_) ?_) | with_reducible refine kept_foldl ?_ (fun _ _ _ => ?_)
    | (intro e; rfl) | (intro e; dsimp only; split <;> rfl) | with_reducible refine kept_drawFree ?_
    | with_reducible refine kept_fst ?_ (by assumption) | with_reducible refine kept_snd ?_ (by assumption) | dsimp only)

theorem kept_undoFound {z : Bool} {s0 s : State} (h : Kept z s0 s) (x1 : AxisId) : Kept z s0 (State.undoFound s x1) := by
  unfold State.undoFound
  try dsimp only
  repeat' (first
    | with_reducible assumption | with_reducible refine kept_forAll ?_ (fun _ _ _ => ?_) | with_reducible refine kept_modAx ?_ _ _
    | split | fail_if_no_progress (with_reducible refine kept_mk (h := ?_)))

theorem kept_putBack {z : Bool} {s0 s : State} (h : Kept z s0 s) (n : ℕ) : Kept z s0 (State.putBack s n) := by
  unfold State.putBack
  refine kept_modDesc (kept_mk_map h fun e => ?_) _ _ fun e => ?_
  all_goals split <;> rfl

theorem kept_undoOn {z : Bool} {s0 s : State} (h : Kept z s0 s) (x1 : ℕ) (x2 : AxisId) : Kept z s0 (State.undoOn s x1 x2) := by
  unfold State.undoOn
  try dsimp only
  repeat' (first
    | with_reducible assumption | with_reducible refine kept_modAx ?_ _ _ | split
    | fail_if_no_progress (with_reducible refine kept_mk (h := ?_)))

theorem kept_undo {z : Bool} {s0 s : State} (h : Kept z s0 s) (x1 : ℕ) : Kept z s0 (State.undo s x1) := by
  unfold State.undo
  try dsimp only
  repeat' (first
    | with_reducible assumption | with_reducible refine kept_forAll ?_ (fun _ _ _ => ?_) | with_reducible refine kept_undoOn ?_ _ _
    | split | fail_if_no_progress (with_reducible refine kept_mk (h := ?_)))

theorem kept_undoAxis {z : Bool} {s0 s : State} (h : Kept z s0 s) (x1 : AxisId) : Kept z s0 (State.undoAxis s x1) := by
  unfold State.undoAxis
  try dsimp only
  repeat' (first
    | with_reducible assumption | with_reducible refine kept_forAll ?_ (fun _ _ _ => ?_) | with_reducible refine kept_putBack ?_ _
    | with_reducible refine kept_undo ?_ _ | split | fail_if_no_progress (with_reducible refine kept_mk (h := ?_)))

theorem kept_release {z : Bool} {s0 s : State} (h : Kept z s0 s) (x1 : Desc) : Kept z s0 (State.release s x1) := by
  unfold State.release
  try dsimp only
  repeat' (first
    | with_reducible assumption | with_reducible refine kept_forAll ?_ (fun _ _ _ => ?_) | with_reducible refine kept_modAx ?_ _ _
    | split | fail_if_no_progress (with_reducible refine kept_mk (h := ?_)))

theorem kept_finishRejected {z : Bool} {s0 s : State} (h : Kept z s0 s) (x1 : Desc) (x2 : FrameNo) : Kept z s0 (State.finishRejected s x1 x2) := by
  unfold State.finishRejected
  try dsimp only
  repeat' (first
    | with_reducible assumption | with_reducible refine kept_finish ?_ _ _ _ _ _ | split
    | fail_if_no_progress (with_reducible refine kept_mk (h := ?_)))

theorem kept_faultAt {z : Bool} {s0 s : State} (h : Kept z s0 s) (x1 : AxisId) (x2 : ℕ) (x3 : ℤ) : Kept z s0 (State.faultAt s x1 x2 x3) := by
  unfold State.faultAt
  try dsimp only
  repeat' (first
    | with_reducible assumption | with_reducible refine kept_undoFound ?_ _ | with_reducible refine kept_undoAxis ?_ _
    | with_reducible refine kept_forAll ?_ (fun _ _ _ => ?_) | with_reducible refine kept_release ?_ _
    | with_reducible refine kept_finish ?_ _ _ _ _ _ | with_reducible refine kept_stopOthers ?_ _ _
    | with_reducible refine kept_finishRejected ?_ _ _ | with_reducible refine kept_modAx ?_ _ _ | split
    | fail_if_no_progress (with_reducible refine kept_mk (h := ?_)))

theorem kept_faultAxis {z : Bool} {s0 s : State} (h : Kept z s0 s) (x1 : AxisId) (x2 : ℕ) : Kept z s0 (State.faultAxis s x1 x2) := by
  unfold State.faultAxis
  try dsimp only
  repeat' (first
    | with_reducible assumption | with_reducible refine kept_faultAt ?_ _ _ _ | split
    | fail_if_no_progress (with_reducible refine kept_mk (h := ?_)))

theorem kept_replan {z : Bool} {s0 s : State} (h : Kept z s0 s) (x1 : AxisId) : Kept z s0 (State.replan s x1) := by
  unfold State.replan
  try dsimp only
  repeat' (first
    | with_reducible assumption | with_reducible refine kept_forAll ?_ (fun _ _ _ => ?_) | with_reducible refine kept_putBack ?_ _
    | with_reducible refine kept_undo ?_ _ | split | fail_if_no_progress (with_reducible refine kept_mk (h := ?_)))

theorem kept_endOne {z : Bool} {s0 s : State} (h : Kept z s0 s) (x1 : Desc) (x2 : Desc) (x3 : AxisId) (x4 : FrameNo) : Kept z s0 (State.endOne s x1 x2 x3 x4) := by
  unfold State.endOne
  try dsimp only
  repeat' (first
    | with_reducible assumption | with_reducible refine kept_release ?_ _ | with_reducible refine kept_finishOk ?_ _ _ _ _
    | with_reducible refine kept_finish ?_ _ _ _ _ _ | with_reducible refine kept_finishRejected ?_ _ _ | split
    | fail_if_no_progress (with_reducible refine kept_mk (h := ?_)))

theorem kept_supersede {z : Bool} {s0 s : State} (h : Kept z s0 s) (x1 : Desc) (x2 : FrameNo) : Kept z s0 (State.supersede s x1 x2) := by
  unfold State.supersede
  try dsimp only
  repeat' (first
    | with_reducible assumption | with_reducible refine kept_forAll ?_ (fun _ _ _ => ?_) | with_reducible refine kept_endOne ?_ _ _ _ _
    | split | fail_if_no_progress (with_reducible refine kept_mk (h := ?_)))

theorem kept_replaceNow {z : Bool} {s0 s : State} (h : Kept z s0 s) (x1 : Desc) : Kept z s0 (State.replaceNow s x1) := by
  unfold State.replaceNow
  try dsimp only
  repeat' (first
    | with_reducible assumption | with_reducible refine kept_modDesc ?_ _ _ ?_ | with_reducible refine kept_supersede ?_ _ _ | split
    | fail_if_no_progress (with_reducible refine kept_mk (h := ?_))
    | fail_if_no_progress (with_reducible refine kept_mk_quiet (h := ?_) ?_) | exact ⟨rfl, rfl, rfl, rfl, List.prefix_refl _⟩
    | exact ⟨rfl, rfl, rfl, rfl, List.prefix_append _ _⟩ | fail_if_no_progress (with_reducible refine kept_mk_map (h := ?_) ?_)
    | with_reducible refine kept_foldl ?_ (fun _ _ _ => ?_) | (intro e; rfl) | (intro e; dsimp only; split <;> rfl)
    | with_reducible refine kept_drawFree ?_ | with_reducible refine kept_fst ?_ (by assumption)
    | with_reducible refine kept_snd ?_ (by assumption) | dsimp only)

theorem kept_retire {z : Bool} {s0 s : State} (h : Kept z s0 s) (x1 : Desc) : Kept z s0 (State.retire s x1) := by
  unfold State.retire
  try dsimp only
  repeat' (first
    | with_reducible assumption | with_reducible refine kept_forAll ?_ (fun _ _ _ => ?_) | with_reducible refine kept_dropDesc ?_ _
    | with_reducible refine kept_camHead ?_ _ | split | fail_if_no_progress (with_reducible refine kept_mk (h := ?_)))

theorem kept_finishMotion {z : Bool} {s0 s : State} (h : Kept z s0 s) (x1 : Desc) (x2 : FrameNo) : Kept z s0 (State.finishMotion s x1 x2) := by
  unfold State.finishMotion
  try dsimp only
  repeat' (first
    | with_reducible assumption | with_reducible refine kept_finishOk ?_ _ _ _ _ | split
    | fail_if_no_progress (with_reducible refine kept_mk (h := ?_)))

theorem kept_leave {z : Bool} {s0 s : State} (h : Kept z s0 s) (x1 : Desc) : Kept z s0 (State.leave s x1) := by
  unfold State.leave
  try dsimp only
  repeat' (first
    | with_reducible assumption | with_reducible refine kept_finishHead ?_ _ _ _ _ _ | with_reducible refine kept_incReg ?_ _ | split
    | fail_if_no_progress (with_reducible refine kept_mk (h := ?_)))

theorem kept_clearFault {z : Bool} {s0 s : State} (h : Kept z s0 s) (x1 : AxisId) : Kept z s0 (State.clearFault s x1) := by
  unfold State.clearFault
  try dsimp only
  repeat' (first
    | with_reducible assumption | with_reducible refine kept_modTt ?_ _ _ | split
    | fail_if_no_progress (with_reducible refine kept_mk (h := ?_)))

theorem kept_settle {z : Bool} {s0 s : State} (h : Kept z s0 s) (x1 : ℕ) : Kept z s0 (State.settle s x1) := by
  unfold State.settle
  try dsimp only
  repeat' (first
    | with_reducible assumption | with_reducible refine kept_replaceNow ?_ _ | with_reducible refine kept_leave ?_ _
    | with_reducible refine kept_forAll ?_ (fun _ _ _ => ?_) | with_reducible refine kept_clearFault ?_ _ | split
    | fail_if_no_progress (with_reducible refine kept_mk (h := ?_))
    | fail_if_no_progress (with_reducible refine kept_mk_quiet (h := ?_) ?_) | exact ⟨rfl, rfl, rfl, rfl, List.prefix_refl _⟩
    | exact ⟨rfl, rfl, rfl, rfl, List.prefix_append _ _⟩ | fail_if_no_progress (with_reducible refine kept_mk_map (h := ?_) ?_)
    | with_reducible refine kept_foldl ?_ (fun _ _ _ => ?_) | (intro e; rfl) | (intro e; dsimp only; split <;> rfl)
    | with_reducible refine kept_drawFree ?_ | with_reducible refine kept_fst ?_ (by assumption)
    | with_reducible refine kept_snd ?_ (by assumption) | dsimp only)

theorem kept_laterOk {z : Bool} {s0 s : State} (h : Kept z s0 s) (x1 : Desc) (x2 : Word) (x3 : Word) : Kept z s0 (State.laterOk s x1 x2 x3) := by
  unfold State.laterOk
  try dsimp only
  repeat' (first
    | with_reducible assumption | with_reducible refine kept_later ?_ _ _ _ _ | split
    | fail_if_no_progress (with_reducible refine kept_mk (h := ?_)))

theorem kept_settleEnd {z : Bool} {s0 s : State} (h : Kept z s0 s) : Kept z s0 (State.settleEnd s) := by
  unfold State.settleEnd
  try dsimp only
  repeat' (first
    | with_reducible assumption | with_reducible refine kept_forAll ?_ (fun _ _ _ => ?_) | with_reducible refine kept_settle ?_ _
    | with_reducible refine kept_leave ?_ _ | split | fail_if_no_progress (with_reducible refine kept_mk (h := ?_)))

theorem kept_flush {z : Bool} {s0 s : State} (h : Kept z s0 s) (x1 : Desc) (x2 : ℕ) (x3 : FrameNo) : Kept z s0 (State.flush s x1 x2 x3) := by
  unfold State.flush
  try dsimp only
  repeat' (first
    | with_reducible assumption | with_reducible refine kept_finish ?_ _ _ _ _ _ | split
    | fail_if_no_progress (with_reducible refine kept_mk (h := ?_)))

/-! ### Granary -/

theorem kept_decideOne {z : Bool} {s0 s : State} (h : Kept z s0 s) (x1 : Desc) : Kept z s0 (State.decideOne s x1).1 := by
  unfold State.decideOne
  try dsimp only
  repeat' (first
    | with_reducible assumption | with_reducible refine kept_modDesc ?_ _ _ ?_ | with_reducible refine kept_raise ?_ _ _ _ _
    | with_reducible refine kept_forAll ?_ (fun _ _ _ => ?_) | with_reducible refine kept_modPool ?_ _ _
    | with_reducible refine kept_later ?_ _ _ _ _ | with_reducible refine kept_camHead ?_ _ | with_reducible refine kept_incReg ?_ _
    | split | fail_if_no_progress (with_reducible refine kept_mk (h := ?_))
    | fail_if_no_progress (with_reducible refine kept_mk_map (h := ?_) ?_) | with_reducible refine kept_foldl ?_ (fun _ _ _ => ?_)
    | (intro e; rfl) | (intro e; dsimp only; split <;> rfl) | with_reducible refine kept_drawFree ?_
    | with_reducible refine kept_fst ?_ (by assumption) | with_reducible refine kept_snd ?_ (by assumption) | dsimp only)

theorem kept_granTake {z : Bool} {s0 s : State} (h : Kept z s0 s) : Kept z s0 (State.granTake s) := by
  unfold State.granTake
  try dsimp only
  repeat' (first
    | with_reducible assumption | split | fail_if_no_progress (with_reducible refine kept_mk (h := ?_)))

theorem kept_shedGo {z : Bool} {s0 s : State} (h : Kept z s0 s) (n : Nat) : Kept z s0 (State.shedGo n s) := by
  induction n generalizing s with
  | zero => exact h
  | succ n ih =>
    rw [State.shedGo]
    refine kept_ite (ih (kept_forAll h fun _ _ k => kept_modPool k _ _)) ?_
    exact kept_ite (ih (kept_forAll h fun _ _ k => kept_modPool k _ _)) h

theorem kept_shed {z : Bool} {s0 s : State} (h : Kept z s0 s) : Kept z s0 (State.shed s) := by
  unfold State.shed
  try dsimp only
  repeat' (first
    | with_reducible assumption | with_reducible refine kept_shedGo ?_ _ | with_reducible refine kept_forAll ?_ (fun _ _ _ => ?_)
    | with_reducible refine kept_modPool ?_ _ _ | split | fail_if_no_progress (with_reducible refine kept_mk (h := ?_))
    | fail_if_no_progress (with_reducible refine kept_mk_quiet (h := ?_) ?_) | exact ⟨rfl, rfl, rfl, rfl, List.prefix_refl _⟩
    | exact ⟨rfl, rfl, rfl, rfl, List.prefix_append _ _⟩ | fail_if_no_progress (with_reducible refine kept_mk_map (h := ?_) ?_)
    | with_reducible refine kept_foldl ?_ (fun _ _ _ => ?_) | (intro e; rfl) | (intro e; dsimp only; split <;> rfl)
    | with_reducible refine kept_drawFree ?_ | with_reducible refine kept_fst ?_ (by assumption)
    | with_reducible refine kept_snd ?_ (by assumption) | dsimp only)

theorem kept_raiseGr {z : Bool} {s0 s : State} (h : Kept z s0 s) (p : DomainId) (n : Nat) : Kept z s0 (State.raiseGr p n s) := by
  induction n generalizing s with
  | zero => exact h
  | succ n ih =>
    rw [State.raiseGr]
    split
    · exact ih (kept_modPool h _ _)
    · exact h

theorem kept_raiseGh {z : Bool} {s0 s : State} (h : Kept z s0 s) (p : DomainId) (n : Nat) : Kept z s0 (State.raiseGh p n s) := by
  induction n generalizing s with
  | zero => exact h
  | succ n ih =>
    rw [State.raiseGh]
    split
    · exact ih (kept_modPool h _ _)
    · exact h

/-! ### Phases -/

theorem kept_enterHold {z : Bool} {s0 s : State} (h : Kept z s0 s) (x1 : AxisId) : Kept z s0 (State.enterHold s x1) := by
  unfold State.enterHold
  try dsimp only
  repeat' (first
    | with_reducible assumption | with_reducible refine kept_modAx ?_ _ _ | split
    | fail_if_no_progress (with_reducible refine kept_mk (h := ?_)))

theorem kept_bridgeFaultAt {z : Bool} {s0 s : State} (h : Kept z s0 s) (x1 : AxisId) (x2 : ℤ) : Kept z s0 (State.bridgeFaultAt s x1 x2) := by
  unfold State.bridgeFaultAt
  try dsimp only
  repeat' (first
    | with_reducible assumption | with_reducible refine kept_modAx ?_ _ _ | with_reducible refine kept_replan ?_ _ | split
    | fail_if_no_progress (with_reducible refine kept_mk (h := ?_)))

theorem kept_bridgeFault {z : Bool} {s0 s : State} (h : Kept z s0 s) (x1 : AxisId) : Kept z s0 (State.bridgeFault s x1) := by
  unfold State.bridgeFault
  try dsimp only
  repeat' (first
    | with_reducible assumption | with_reducible refine kept_bridgeFaultAt ?_ _ _ | split
    | fail_if_no_progress (with_reducible refine kept_mk (h := ?_)))

theorem kept_bridgeFaulted {z : Bool} {s0 s : State} (h : Kept z s0 s) (x1 : AxisId) (x2 : ℕ) : Kept z s0 (State.bridgeFaulted s x1 x2) := by
  unfold State.bridgeFaulted
  try dsimp only
  repeat' (first
    | with_reducible assumption | with_reducible refine kept_bridgeFault ?_ _ | with_reducible refine kept_faultAxis ?_ _ _ | split
    | fail_if_no_progress (with_reducible refine kept_mk (h := ?_)))

theorem kept_faultEnergised {z : Bool} {s0 s : State} (h : Kept z s0 s) (x1 : List AxisId) (x2 : ℕ) : Kept z s0 (State.faultEnergised s x1 x2).1 := by
  unfold State.faultEnergised
  try dsimp only
  repeat' (first
    | with_reducible assumption | with_reducible refine kept_forAll ?_ (fun _ _ _ => ?_)
    | with_reducible refine kept_bridgeFaulted ?_ _ _ | split | fail_if_no_progress (with_reducible refine kept_mk (h := ?_)))

theorem kept_runPhase {z : Bool} {s0 s : State} (h : Kept z s0 s) (x1 : AxisId) : Kept z s0 (State.runPhase s x1) := by
  unfold State.runPhase
  try dsimp only
  repeat' (first
    | with_reducible assumption | with_reducible refine kept_modCd ?_ _ _ | split
    | fail_if_no_progress (with_reducible refine kept_mk (h := ?_)))

theorem kept_parkNow {z : Bool} {s0 s : State} (h : Kept z s0 s) (x1 : AxisId) : Kept z s0 (State.parkNow s x1) := by
  unfold State.parkNow
  try dsimp only
  repeat' (first
    | with_reducible assumption | with_reducible refine kept_modAx ?_ _ _ | split
    | fail_if_no_progress (with_reducible refine kept_mk (h := ?_)))

theorem kept_readyChange {z : Bool} {s0 s : State} (h : Kept z s0 s) : Kept z s0 (State.readyChange s) := by
  unfold State.readyChange
  extract_lets s1
  have h1 : Kept z s0 s1 := kept_forAll h fun _ _ k => kept_ite k (kept_raise k _ _ _ _)
  clear_value s1
  exact kept_mk_quiet h1 ⟨rfl, rfl, rfl, rfl, List.prefix_refl _⟩

/-! ### Head -/

theorem kept_settleOne {z : Bool} {s0 s : State} (h : Kept z s0 s) (x1 : Desc) {t : State} (e : State.settleOne s x1 = some t) : Kept z s0 t := by
  unfold State.settleOne at e
  repeat' (split at e)
  all_goals first | contradiction | (cases e; try dsimp only) | skip
  repeat' (first
    | with_reducible assumption | with_reducible refine kept_forAll ?_ (fun _ _ _ => ?_) | with_reducible refine kept_later ?_ _ _ _ _
    | with_reducible refine kept_camHead ?_ _ | with_reducible refine kept_finishHead ?_ _ _ _ _ _ | split
    | fail_if_no_progress (with_reducible refine kept_mk (h := ?_)))

theorem kept_begin {z : Bool} {s0 s : State} (h : Kept z s0 s) (x1 : ℕ) (x2 : ℕ → Bool) : Kept z s0 (State.begin s x1 x2).1 := by
  unfold State.begin
  try dsimp only
  repeat' (first
    | with_reducible assumption | with_reducible refine kept_settleOne ?_ _ (by assumption) | with_reducible refine kept_decideOne ?_ _
    | split | fail_if_no_progress (with_reducible refine kept_mk (h := ?_)))

theorem kept_takeOver {z : Bool} {s0 s : State} (h : Kept z s0 s) (x1 : Desc) : Kept z s0 (State.takeOver s x1) := by
  unfold State.takeOver
  try dsimp only
  repeat' (first
    | with_reducible assumption | with_reducible refine kept_forAll ?_ (fun _ _ _ => ?_) | with_reducible refine kept_keepAxis ?_ _ _
    | with_reducible refine kept_endAhead ?_ _ _ | with_reducible refine kept_modTt ?_ _ _ | with_reducible refine kept_modDesc ?_ _ _ ?_
    | with_reducible refine kept_takeEffect ?_ _ | split | fail_if_no_progress (with_reducible refine kept_mk (h := ?_))
    | fail_if_no_progress (with_reducible refine kept_mk_quiet (h := ?_) ?_) | exact ⟨rfl, rfl, rfl, rfl, List.prefix_refl _⟩
    | exact ⟨rfl, rfl, rfl, rfl, List.prefix_append _ _⟩ | fail_if_no_progress (with_reducible refine kept_mk_map (h := ?_) ?_)
    | with_reducible refine kept_foldl ?_ (fun _ _ _ => ?_) | (intro e; rfl) | (intro e; dsimp only; split <;> rfl)
    | with_reducible refine kept_drawFree ?_ | with_reducible refine kept_fst ?_ (by assumption)
    | with_reducible refine kept_snd ?_ (by assumption) | dsimp only)

theorem kept_withEffect {z : Bool} {s0 s : State} (h : Kept z s0 s) (n : Nat) (op : Nat → Bool) (f : State → Desc → State)
    (hf : ∀ t e, Kept z s0 t → Kept z s0 (f t e)) : Kept z s0 (s.withEffect n op f) := by
  unfold State.withEffect
  repeat' (first
    | assumption
    | with_reducible refine kept_begin ?_ _ _
    | with_reducible refine kept_takeOver ?_ _
    | refine hf _ _ ?_
    | refine kept_fst ?_ (by assumption)
    | split)

theorem kept_refuseAhead {z : Bool} {s0 s : State} (h : Kept z s0 s) (x1 : Desc) (x2 : ℕ) (x3 : Word) (x4 : Word) : Kept z s0 (State.refuseAhead s x1 x2 x3 x4) := by
  unfold State.refuseAhead
  try dsimp only
  repeat' (first
    | with_reducible assumption | with_reducible refine kept_later ?_ _ _ _ _ | with_reducible refine kept_takeEffect ?_ _ | split
    | fail_if_no_progress (with_reducible refine kept_mk (h := ?_)))

theorem kept_settleAxis {z : Bool} {s0 s : State} (h : Kept z s0 s) (x : AxisId) (n : Nat) : Kept z s0 (State.settleAxis x n s) := by
  induction n generalizing s with
  | zero => exact h
  | succ n ih =>
    rw [State.settleAxis]
    split
    · exact h
    · split
      · exact ih (kept_settleOne h _ (by assumption))
      · exact h

/-! ### Params -/

theorem kept_reclip {z : Bool} {s0 s : State} (h : Kept z s0 s) (x1 : AxisId) : Kept z s0 (State.reclip s x1) := by
  unfold State.reclip
  try dsimp only
  repeat' (first
    | with_reducible assumption | with_reducible refine kept_modTt ?_ _ _ | with_reducible refine kept_limitClipped ?_ _ _ _ _ | split
    | fail_if_no_progress (with_reducible refine kept_mk (h := ?_)))

theorem kept_redecide {z : Bool} {s0 s : State} (h : Kept z s0 s) (x1 : AxisId) (x2 : Limits) : Kept z s0 (State.redecide s x1 x2) := by
  unfold State.redecide
  try dsimp only
  repeat' (first
    | with_reducible assumption | with_reducible refine kept_limitClipped ?_ _ _ _ _ | with_reducible refine kept_decideTarget ?_ _ _ _ _
    | split | fail_if_no_progress (with_reducible refine kept_mk (h := ?_)))

theorem kept_runVelocity {z : Bool} {s0 s : State} (h : Kept z s0 s) (x1 : AxisId) (x2 : ℤ) (x3 : Limits) (x4 : Bool) : Kept z s0 (State.runVelocity s x1 x2 x3 x4) := by
  unfold State.runVelocity
  try dsimp only
  repeat' (first
    | with_reducible assumption | with_reducible refine kept_modTt ?_ _ _ | split
    | fail_if_no_progress (with_reducible refine kept_mk (h := ?_)))

theorem kept_revel {z : Bool} {s0 s : State} (h : Kept z s0 s) (x1 : AxisId) (x2 : Bool) (x3 : Limits) (x4 : Bool) : Kept z s0 (State.revel s x1 x2 x3 x4) := by
  unfold State.revel
  try dsimp only
  repeat' (first
    | with_reducible assumption | with_reducible refine kept_modTt ?_ _ _ | with_reducible refine kept_limitClipped ?_ _ _ _ _
    | with_reducible refine kept_runVelocity ?_ _ _ _ _ | split | fail_if_no_progress (with_reducible refine kept_mk (h := ?_)))

theorem kept_rerun {z : Bool} {s0 s : State} (h : Kept z s0 s) (x1 : AxisId) (x2 : Bool) : Kept z s0 (State.rerun s x1 x2) := by
  unfold State.rerun
  try dsimp only
  repeat' (first
    | with_reducible assumption | with_reducible refine kept_modTt ?_ _ _ | with_reducible refine kept_redecide ?_ _ _
    | with_reducible refine kept_revel ?_ _ _ _ _ | with_reducible refine kept_stopFrom ?_ _ _ _ _
    | with_reducible refine kept_stopMotion ?_ _ _ _ _ | with_reducible refine kept_planProfile ?_ _ | split
    | fail_if_no_progress (with_reducible refine kept_mk (h := ?_)))

theorem kept_takeTt {z : Bool} {s0 s : State} (h : Kept z s0 s) (x1 : AxisId) (x2 : TtSet) : Kept z s0 (State.takeTt s x1 x2) := by
  unfold State.takeTt
  try dsimp only
  repeat' (first
    | with_reducible assumption | with_reducible refine kept_modAx ?_ _ _ | with_reducible refine kept_modTt ?_ _ _
    | with_reducible refine kept_reclip ?_ _ | with_reducible refine kept_rerun ?_ _ _ | split
    | fail_if_no_progress (with_reducible refine kept_mk (h := ?_)))

theorem kept_rampTo {z : Bool} {s0 s : State} (h : Kept z s0 s) (x1 : AxisId) : Kept z s0 (State.rampTo s x1) := by
  unfold State.rampTo
  try dsimp only
  repeat' (first
    | with_reducible assumption | with_reducible refine kept_modCd ?_ _ _ | split
    | fail_if_no_progress (with_reducible refine kept_mk (h := ?_)))

theorem kept_stage {z : Bool} {s0 s : State} (h : Kept z s0 s) (x1 : AxisId) (x2 : Fin 64) (x3 : ParamId) (x4 : ℤ) (x5 : List Byte) : Kept z s0 (State.stage s x1 x2 x3 x4 x5) := by
  unfold State.stage
  try dsimp only
  repeat' (first
    | with_reducible assumption | with_reducible refine kept_modAx ?_ _ _ | with_reducible refine kept_modCard ?_ _ _ | split
    | fail_if_no_progress (with_reducible refine kept_mk (h := ?_)))

theorem kept_takeFb {z : Bool} {s0 s : State} (h : Kept z s0 s) (x1 : AxisId) (x2 : FbSet) : Kept z s0 (State.takeFb s x1 x2) := by
  unfold State.takeFb
  try dsimp only
  repeat' (first
    | with_reducible assumption | with_reducible refine kept_modAx ?_ _ _ | with_reducible refine kept_modFbx ?_ _ _ | split
    | fail_if_no_progress (with_reducible refine kept_mk (h := ?_)))

theorem kept_rhatChanged {z : Bool} {s0 s : State} (h : Kept z s0 s) (x1 : AxisId) : Kept z s0 (State.rhatChanged s x1) := by
  unfold State.rhatChanged
  try dsimp only
  repeat' (first
    | with_reducible assumption | with_reducible refine kept_raise ?_ _ _ _ _ | with_reducible refine kept_modCd ?_ _ _ | split
    | fail_if_no_progress (with_reducible refine kept_mk (h := ?_)))

theorem kept_resetHat {z : Bool} {s0 s : State} (h : Kept z s0 s) (x1 : AxisId) : Kept z s0 (State.resetHat s x1) := by
  unfold State.resetHat
  try dsimp only
  repeat' (first
    | with_reducible assumption | with_reducible refine kept_rhatChanged ?_ _ | with_reducible refine kept_modCd ?_ _ _ | split
    | fail_if_no_progress (with_reducible refine kept_mk (h := ?_)))

theorem kept_takeCard {z : Bool} {s0 s : State} (h : Kept z s0 s) (x1 : Fin 64) (x2 : CardHalf) : Kept z s0 (State.takeCard s x1 x2) := by
  unfold State.takeCard
  try dsimp only
  repeat' (first
    | with_reducible assumption | with_reducible refine kept_modCard ?_ _ _ | with_reducible refine kept_forAll ?_ (fun _ _ _ => ?_)
    | with_reducible refine kept_rampTo ?_ _ | with_reducible refine kept_modSg ?_ _ _ | with_reducible refine kept_resetHat ?_ _ | split
    | fail_if_no_progress (with_reducible refine kept_mk (h := ?_)))

theorem kept_takeCoil {z : Bool} {s0 s : State} (h : Kept z s0 s) (x1 : AxisId) (x2 : CoilSet) : Kept z s0 (State.takeCoil s x1 x2) := by
  unfold State.takeCoil
  try dsimp only
  repeat' (first
    | with_reducible assumption | with_reducible refine kept_modAx ?_ _ _ | with_reducible refine kept_runPhase ?_ _ | split
    | fail_if_no_progress (with_reducible refine kept_mk (h := ?_)))

theorem kept_takeSg {z : Bool} {s0 s : State} (h : Kept z s0 s) (x1 : AxisId) (x2 : SgSet) : Kept z s0 (State.takeSg s x1 x2) := by
  unfold State.takeSg
  try dsimp only
  repeat' (first
    | with_reducible assumption | with_reducible refine kept_modAx ?_ _ _ | with_reducible refine kept_modSg ?_ _ _ | split
    | fail_if_no_progress (with_reducible refine kept_mk (h := ?_)))

theorem kept_cardNamed {z : Bool} {s0 s : State} (h : Kept z s0 s) (x1 : AxisId) : Kept z s0 (State.cardNamed s x1) := by
  unfold State.cardNamed
  try dsimp only
  repeat' (first
    | with_reducible assumption | with_reducible refine kept_modBr ?_ _ _ | with_reducible refine kept_modSg ?_ _ _
    | with_reducible refine kept_resetHat ?_ _ | split | fail_if_no_progress (with_reducible refine kept_mk (h := ?_)))

theorem kept_paramDone {z : Bool} {s0 s : State} (h : Kept z s0 s) (x1 : Desc) (x2 : Refuse) : Kept z s0 (State.paramDone s x1 x2) := by
  unfold State.paramDone
  try dsimp only
  repeat' (first
    | with_reducible assumption | with_reducible refine kept_later ?_ _ _ _ _ | with_reducible refine kept_laterOk ?_ _ _ _ | split
    | fail_if_no_progress (with_reducible refine kept_mk (h := ?_)))

theorem kept_commitTick {z : Bool} {s0 s : State} (h : Kept z s0 s) (x1 : Desc) (x2 : AxisId) (x3 : Fin 64) (x4 : ParamId) : Kept z s0 (State.commitTick s x1 x2 x3 x4) := by
  unfold State.commitTick
  try dsimp only
  repeat' (first
    | with_reducible assumption | with_reducible refine kept_paramDone ?_ _ _ | with_reducible refine kept_takeCard ?_ _ _
    | with_reducible refine kept_takeSg ?_ _ _ | with_reducible refine kept_ask ?_ _ _ | with_reducible refine kept_takeFb ?_ _ _ | split
    | fail_if_no_progress (with_reducible refine kept_mk (h := ?_)))

theorem kept_setParamTick {z : Bool} {s0 s : State} (h : Kept z s0 s) (x1 : Desc) : Kept z s0 (State.setParamTick s x1) := by
  unfold State.setParamTick
  try dsimp only
  repeat' (first
    | with_reducible assumption | with_reducible refine kept_cardNamed ?_ _ | with_reducible refine kept_stage ?_ _ _ _ _ _
    | with_reducible refine kept_commitTick ?_ _ _ _ _ | with_reducible refine kept_paramDone ?_ _ _ | split
    | fail_if_no_progress (with_reducible refine kept_mk (h := ?_)))

theorem kept_setParamAhead {z : Bool} {s0 s : State} (h : Kept z s0 s) (x1 : Desc) (x2 : AxisId) (x3 : ParamId) (x4 : Bool) : Kept z s0 (State.setParamAhead s x1 x2 x3 x4) := by
  unfold State.setParamAhead
  try dsimp only
  repeat' (first
    | with_reducible assumption | with_reducible refine kept_stage ?_ _ _ _ _ _ | with_reducible refine kept_paramDone ?_ _ _
    | with_reducible refine kept_ask ?_ _ _ | with_reducible refine kept_takeTt ?_ _ _ | with_reducible refine kept_takeCoil ?_ _ _
    | split | fail_if_no_progress (with_reducible refine kept_mk (h := ?_)))

theorem kept_setParamEffect {z : Bool} {s0 s : State} (h : Kept z s0 s) (x1 : Desc) : Kept z s0 (State.setParamEffect s x1) := by
  unfold State.setParamEffect
  try dsimp only
  repeat' (first
    | with_reducible assumption | with_reducible refine kept_setParamAhead ?_ _ _ _ _ | split
    | fail_if_no_progress (with_reducible refine kept_mk (h := ?_)))

/-! ### Admission -/

theorem kept_takeRate {z : Bool} {s0 s : State} (h : Kept z s0 s) (x1 : Fin 4) (x2 : List (BitVec 3)) : Kept z s0 (State.takeRate s x1 x2) := by
  unfold State.takeRate
  try dsimp only
  repeat' (first
    | with_reducible assumption | split | fail_if_no_progress (with_reducible refine kept_mk (h := ?_))
    | fail_if_no_progress (with_reducible refine kept_mk_quiet (h := ?_) ?_) | exact ⟨rfl, rfl, rfl, rfl, List.prefix_refl _⟩
    | exact ⟨rfl, rfl, rfl, rfl, List.prefix_append _ _⟩)

theorem kept_admitGo {z : Bool} {s0 s : State} (h : Kept z s0 s) : Kept z s0 (State.admitGo s) := by
  unfold State.admitGo
  try dsimp only
  repeat' (first
    | with_reducible assumption | with_reducible refine kept_orReg ?_ _ _ | with_reducible refine kept_ask ?_ _ _ | split
    | fail_if_no_progress (with_reducible refine kept_mk (h := ?_))
    | fail_if_no_progress (with_reducible refine kept_mk_quiet (h := ?_) ?_) | exact ⟨rfl, rfl, rfl, rfl, List.prefix_refl _⟩
    | exact ⟨rfl, rfl, rfl, rfl, List.prefix_append _ _⟩)

theorem kept_admitWrite {z : Bool} {s0 s : State} (h : Kept z s0 s) (x1 : Master) (x2 : Word) : Kept z s0 (State.admitWrite s x1 x2) := by
  unfold State.admitWrite
  try dsimp only
  repeat' (first
    | with_reducible assumption | with_reducible refine kept_plainWrite ?_ _ _ _ | with_reducible refine kept_admitGo ?_ | split
    | fail_if_no_progress (with_reducible refine kept_mk (h := ?_)))

theorem kept_postVerdict {z : Bool} {s0 s : State} (h : Kept z s0 s) (x1 : ℕ) (x2 : AdmVerdict) : Kept z s0 (State.postVerdict s x1 x2) := by
  unfold State.postVerdict
  try dsimp only
  repeat' (first
    | with_reducible assumption | with_reducible refine kept_setReg ?_ _ _ | split
    | fail_if_no_progress (with_reducible refine kept_mk (h := ?_)))

theorem kept_execFrmAdmitGo {z : Bool} {s0 s : State} (h : Kept z s0 s) (x0 : Master) (x1 : Word) {t : State} (e : execFrmAdmitGo x0 x1 s = .next t) : Kept z s0 t := by
  unfold execFrmAdmitGo at e
  first | (cases e; try dsimp only) | (split at e <;> cases e <;> try dsimp only)
  repeat' (first
    | with_reducible assumption | with_reducible refine kept_admitWrite ?_ _ _ | split
    | fail_if_no_progress (with_reducible refine kept_mk (h := ?_)))

/-! ### Ordering -/

theorem kept_arriveLine {z : Bool} {s0 s : State} (h : Kept z s0 s) (x1 : Desc) : Kept z s0 (State.arriveLine s x1) := by
  unfold State.arriveLine
  try dsimp only
  repeat' (first
    | with_reducible assumption | with_reducible refine kept_enterRing ?_ _ _ | with_reducible refine kept_finish ?_ _ _ _ _ _
    | with_reducible refine kept_modDesc ?_ _ _ ?_ | split | fail_if_no_progress (with_reducible refine kept_mk (h := ?_))
    | fail_if_no_progress (with_reducible refine kept_mk_map (h := ?_) ?_) | with_reducible refine kept_foldl ?_ (fun _ _ _ => ?_)
    | (intro e; rfl) | (intro e; dsimp only; split <;> rfl) | with_reducible refine kept_drawFree ?_
    | with_reducible refine kept_fst ?_ (by assumption) | with_reducible refine kept_snd ?_ (by assumption) | dsimp only)

theorem kept_execBarrier {z : Bool} {s0 s : State} (h : Kept z s0 s) (x0 : ℕ) {t : State} (e : execBarrier x0 s = .next t) : Kept z s0 t := by
  unfold execBarrier at e
  first | (cases e; try dsimp only) | (split at e <;> cases e <;> try dsimp only)
  repeat' (first
    | with_reducible assumption | with_reducible refine kept_withEffect ?_ _ _ _ (fun _ _ _ => ?_) | split
    | fail_if_no_progress (with_reducible refine kept_mk (h := ?_)))

theorem kept_withdraw {z : Bool} {s0 s : State} (h : Kept z s0 s) (n : Nat) : Kept z s0 (State.withdraw s n) :=
  h.descs rfl (List.Sublist.refl _) rfl rfl rfl rfl fun _ => ⟨rfl, rfl, rfl, rfl, List.prefix_refl _⟩

theorem kept_captureOwn {z : Bool} {s0 s : State} (h : Kept z s0 s) (x1 : Desc) : Kept z s0 (State.captureOwn s x1) := by
  unfold State.captureOwn
  try dsimp only
  repeat' (first
    | with_reducible assumption | with_reducible refine kept_emit ?_ _ | with_reducible refine kept_modDesc ?_ _ _ ?_ | split
    | fail_if_no_progress (with_reducible refine kept_mk (h := ?_))
    | fail_if_no_progress (with_reducible refine kept_mk_map (h := ?_) ?_) | with_reducible refine kept_foldl ?_ (fun _ _ _ => ?_)
    | (intro e; rfl) | (intro e; dsimp only; split <;> rfl) | with_reducible refine kept_drawFree ?_
    | with_reducible refine kept_fst ?_ (by assumption) | with_reducible refine kept_snd ?_ (by assumption) | dsimp only)

theorem kept_execNop {z : Bool} {s0 s : State} (h : Kept z s0 s) (x0 : ℕ) {t : State} (e : execNop x0 s = .next t) : Kept z s0 t := by
  unfold execNop at e
  first | (cases e; try dsimp only) | (split at e <;> cases e <;> try dsimp only)
  repeat' (first
    | with_reducible assumption | with_reducible refine kept_finish ?_ _ _ _ _ _ | split
    | fail_if_no_progress (with_reducible refine kept_mk (h := ?_)))

theorem kept_execFence {z : Bool} {s0 s : State} (h : Kept z s0 s) (x0 : ℕ) {t : State} (e : execFence x0 s = .next t) : Kept z s0 t := by
  unfold execFence at e
  first | (cases e; try dsimp only) | (split at e <;> cases e <;> try dsimp only)
  repeat' (first
    | with_reducible assumption | with_reducible refine kept_withEffect ?_ _ _ _ (fun _ _ _ => ?_) | split
    | fail_if_no_progress (with_reducible refine kept_mk (h := ?_)))

theorem kept_execFenceComplete {z : Bool} {s0 s : State} (h : Kept z s0 s) (x0 : ℕ) {t : State} (e : execFenceComplete x0 s = .next t) : Kept z s0 t := by
  unfold execFenceComplete at e
  first | (cases e; try dsimp only) | (split at e <;> cases e <;> try dsimp only)
  repeat' (first
    | with_reducible assumption | with_reducible refine kept_enterRing ?_ _ _ | with_reducible refine kept_finish ?_ _ _ _ _ _ | split
    | fail_if_no_progress (with_reducible refine kept_mk (h := ?_)))

theorem kept_barrierRefused {z : Bool} {s0 s : State} (h : Kept z s0 s) (x1 : Desc) (x2 : ℕ) : Kept z s0 (State.barrierRefused s x1 x2) := by
  unfold State.barrierRefused
  try dsimp only
  repeat' (first
    | with_reducible assumption | with_reducible refine kept_enterRing ?_ _ _ | with_reducible refine kept_finish ?_ _ _ _ _ _ | split
    | fail_if_no_progress (with_reducible refine kept_mk (h := ?_)))

theorem kept_arriveDevice {z : Bool} {s0 s : State} (h : Kept z s0 s) (e : Desc) : Kept z s0 (State.arriveDevice s e) := by
  have k : ∀ l : List OpenBarrier, Kept z s0 { s with ord := { s.ord with barriers := l } } := fun _ => h.descs rfl (List.Sublist.refl _) rfl rfl rfl rfl fun _ => ⟨rfl, rfl, rfl, rfl, List.prefix_refl _⟩
  unfold State.arriveDevice
  dsimp only
  repeat' split
  all_goals first
    | exact kept_barrierRefused h _ _
    | exact kept_modDesc (k _) _ _ fun _ => rfl

theorem kept_execBarrierArrive {z : Bool} {s0 s : State} (h : Kept z s0 s) (x0 : ℕ) {t : State} (e : execBarrierArrive x0 s = .next t) : Kept z s0 t := by
  unfold execBarrierArrive at e
  first | (cases e; try dsimp only) | (split at e <;> cases e <;> try dsimp only)
  repeat' (first
    | with_reducible assumption | with_reducible refine kept_arriveLine ?_ _ | with_reducible refine kept_arriveDevice ?_ _ | split
    | fail_if_no_progress (with_reducible refine kept_mk (h := ?_)))

theorem kept_releaseAll {z : Bool} {s0 s : State} (h : Kept z s0 s) (x1 : List ℕ) : Kept z s0 (State.releaseAll s x1) := by
  unfold State.releaseAll
  try dsimp only
  repeat' (first
    | with_reducible assumption | with_reducible refine kept_forAll ?_ (fun _ _ _ => ?_) | with_reducible refine kept_finish ?_ _ _ _ _ _
    | with_reducible refine kept_enterRing ?_ _ _ | split | fail_if_no_progress (with_reducible refine kept_mk (h := ?_)))

theorem kept_execBarrierRelease {z : Bool} {s0 s : State} (h : Kept z s0 s) (id : Word) {t : State} (e : execBarrierRelease id s = .next t) : Kept z s0 t := by
  unfold execBarrierRelease at e
  cases e
  split
  · exact h
  · refine kept_releaseAll ?_ _
    exact h.descs rfl (List.Sublist.refl _) rfl rfl rfl rfl fun _ => ⟨rfl, rfl, rfl, rfl, List.prefix_refl _⟩

theorem kept_snapshotEffect {z : Bool} {s0 s : State} (h : Kept z s0 s) (x1 : Desc) : Kept z s0 (State.snapshotEffect s x1) := by
  unfold State.snapshotEffect
  try dsimp only
  repeat' (first
    | with_reducible assumption | with_reducible refine kept_later ?_ _ _ _ _ | with_reducible refine kept_modDesc ?_ _ _ ?_ | split
    | fail_if_no_progress (with_reducible refine kept_mk (h := ?_))
    | fail_if_no_progress (with_reducible refine kept_mk_map (h := ?_) ?_) | with_reducible refine kept_foldl ?_ (fun _ _ _ => ?_)
    | (intro e; rfl) | (intro e; dsimp only; split <;> rfl) | with_reducible refine kept_drawFree ?_
    | with_reducible refine kept_fst ?_ (by assumption) | with_reducible refine kept_snd ?_ (by assumption) | dsimp only)

theorem kept_execSnapshot {z : Bool} {s0 s : State} (h : Kept z s0 s) (x0 : ℕ) {t : State} (e : execSnapshot x0 s = .next t) : Kept z s0 t := by
  unfold execSnapshot at e
  first | (cases e; try dsimp only) | (split at e <;> cases e <;> try dsimp only)
  repeat' (first
    | with_reducible assumption | with_reducible refine kept_withEffect ?_ _ _ _ (fun _ _ _ => ?_)
    | with_reducible refine kept_snapshotEffect ?_ _ | split | fail_if_no_progress (with_reducible refine kept_mk (h := ?_)))

theorem kept_execSnapshotComplete {z : Bool} {s0 s : State} (h : Kept z s0 s) (x0 : ℕ) {t : State} (e : execSnapshotComplete x0 s = .next t) : Kept z s0 t := by
  unfold execSnapshotComplete at e
  first | (cases e; try dsimp only) | (split at e <;> cases e <;> try dsimp only)
  repeat' (first
    | with_reducible assumption | with_reducible refine kept_finish ?_ _ _ _ _ _ | with_reducible refine kept_raise ?_ _ _ _ _ | split
    | fail_if_no_progress (with_reducible refine kept_mk (h := ?_)))

/-! ### Windows -/

theorem kept_freshWindow {z : Bool} {s0 s : State} (h : Kept z s0 s) : Kept z s0 (State.freshWindow s) := by
  unfold State.freshWindow
  try dsimp only
  repeat' (first
    | with_reducible assumption | split | fail_if_no_progress (with_reducible refine kept_mk (h := ?_))
    | fail_if_no_progress (with_reducible refine kept_mk_quiet (h := ?_) ?_) | exact ⟨rfl, rfl, rfl, rfl, List.prefix_refl _⟩
    | exact ⟨rfl, rfl, rfl, rfl, List.prefix_append _ _⟩)

theorem kept_windows {z : Bool} {s0 s : State} (h : Kept z s0 s) (x1 : FrameNo) (x2 : FrameNo) : Kept z s0 (State.windows s x1 x2) := by
  unfold State.windows
  try dsimp only
  repeat' (first
    | with_reducible assumption | with_reducible refine kept_forAll ?_ (fun _ _ _ => ?_) | with_reducible refine kept_modCu ?_ _ _
    | with_reducible refine kept_freshWindow ?_ | split | fail_if_no_progress (with_reducible refine kept_mk (h := ?_)))

end Sys2Proof.Machine
end

