-- ==== Sys2Proof/Laws/KeptLine.lean ====
section
/-! SUPPORT. Every operation of the line, the timetable, following, feedback and the probes keeps what `Kept` says. -/

set_option linter.unreachableTactic false
set_option linter.unusedTactic false
set_option linter.unusedVariables false

namespace Sys2Proof.Machine

/-! ### Line -/

theorem kept_modLine {z : Bool} {s0 s : State} (h : Kept z s0 s) (x1 : Line → Line) : Kept z s0 (State.modLine s x1) := by
  unfold State.modLine
  try dsimp only
  repeat' (first
    | with_reducible assumption | split | fail_if_no_progress (with_reducible refine kept_mk (h := ?_)))

theorem kept_sendDir {z : Bool} {s0 s : State} (h : Kept z s0 s) (x1 : Fin 2) (x2 : ℕ) (x3 : List Byte) : Kept z s0 (State.sendDir s x1 x2 x3) := by
  unfold State.sendDir
  try dsimp only
  repeat' (first
    | with_reducible assumption | with_reducible refine kept_modLine ?_ _ | with_reducible refine kept_emit ?_ _ | split
    | fail_if_no_progress (with_reducible refine kept_mk (h := ?_)))

theorem kept_sendLine {z : Bool} {s0 s : State} (h : Kept z s0 s) (x1 : ℕ) (x2 : List Byte) : Kept z s0 (State.sendLine s x1 x2) := by
  unfold State.sendLine
  try dsimp only
  repeat' (first
    | with_reducible assumption | with_reducible refine kept_sendDir ?_ _ _ _ | split
    | fail_if_no_progress (with_reducible refine kept_mk (h := ?_)))

theorem kept_reportSnap {z : Bool} {s0 s : State} (h : Kept z s0 s) (x1 : ℕ) (x2 : FrameNo) (x3 : Bool) (x4 : ℕ) : Kept z s0 (State.reportSnap s x1 x2 x3 x4) := by
  unfold State.reportSnap
  try dsimp only
  repeat' (first
    | with_reducible assumption | with_reducible refine kept_sendLine ?_ _ _ | with_reducible refine kept_modLine ?_ _ | split
    | fail_if_no_progress (with_reducible refine kept_mk (h := ?_)))

theorem kept_tickSnapDone {z : Bool} {s0 s : State} (h : Kept z s0 s) : Kept z s0 (State.tickSnapDone s) := by
  unfold State.tickSnapDone
  try dsimp only
  repeat' (first
    | with_reducible assumption | with_reducible refine kept_forAll ?_ (fun _ _ _ => ?_)
    | with_reducible refine kept_reportSnap ?_ _ _ _ _ | split | fail_if_no_progress (with_reducible refine kept_mk (h := ?_)))

theorem kept_estopCleared {z : Bool} {s0 s : State} (h : Kept z s0 s) (x1 : ℕ) (x2 : Option ℕ) : Kept z s0 (State.estopCleared s x1 x2) := by
  unfold State.estopCleared
  try dsimp only
  repeat' (first
    | with_reducible assumption | with_reducible refine kept_drawFree ?_ | with_reducible refine kept_raise ?_ _ _ _ _ | split
    | fail_if_no_progress (with_reducible refine kept_mk (h := ?_)))

theorem kept_dropEstop {z : Bool} {s0 s : State} (h : Kept z s0 s) (x1 : ℕ) (x2 : Option ℕ) : Kept z s0 (State.dropEstop s x1 x2) := by
  unfold State.dropEstop
  try dsimp only
  repeat' (first
    | with_reducible assumption | with_reducible refine kept_modLine ?_ _ | with_reducible refine kept_estopCleared ?_ _ _ | split
    | fail_if_no_progress (with_reducible refine kept_mk (h := ?_)))

theorem kept_lineEstopClear {z : Bool} {s0 s : State} (h : Kept z s0 s) (x1 : Master) : Kept z s0 (State.lineEstopClear s x1) := by
  unfold State.lineEstopClear
  try dsimp only
  repeat' (first
    | with_reducible assumption | with_reducible refine kept_emit ?_ _ | with_reducible refine kept_modLine ?_ _
    | with_reducible refine kept_dropEstop ?_ _ _ | split | fail_if_no_progress (with_reducible refine kept_mk (h := ?_)))

theorem kept_topology {z : Bool} {s0 s : State} (h : Kept z s0 s) : Kept z s0 (State.topology s) := by
  unfold State.topology
  try dsimp only
  repeat' (first
    | with_reducible assumption | with_reducible refine kept_modLine ?_ _ | with_reducible refine kept_raise ?_ _ _ _ _ | split
    | fail_if_no_progress (with_reducible refine kept_mk (h := ?_)))

theorem kept_tickLoop {z : Bool} {s0 s : State} (h : Kept z s0 s) : Kept z s0 (State.tickLoop s) := by
  unfold State.tickLoop
  try dsimp only
  repeat' (first
    | with_reducible assumption | with_reducible refine kept_modLine ?_ _ | with_reducible refine kept_topology ?_ | split
    | fail_if_no_progress (with_reducible refine kept_mk (h := ?_)))

theorem kept_quickStop {z : Bool} {s0 s : State} (h : Kept z s0 s) (x1 : AxisId) : Kept z s0 (State.quickStop s x1) := by
  unfold State.quickStop
  try dsimp only
  repeat' (first
    | with_reducible assumption | with_reducible refine kept_enterHold ?_ _ | with_reducible refine kept_modTt ?_ _ _
    | with_reducible refine kept_stopMotion ?_ _ _ _ _ | split | fail_if_no_progress (with_reducible refine kept_mk (h := ?_)))

theorem kept_estopAct {z : Bool} {s0 s : State} (h : Kept z s0 s) (x1 : ℕ) (x2 : ℕ) : Kept z s0 (State.estopAct s x1 x2) := by
  unfold State.estopAct
  try dsimp only
  repeat' (first
    | with_reducible assumption | with_reducible refine kept_faultEnergised ?_ _ _
    | with_reducible refine kept_forAll ?_ (fun _ _ _ => ?_) | with_reducible refine kept_quickStop ?_ _
    | with_reducible refine kept_faultAxis ?_ _ _ | with_reducible refine kept_raise ?_ _ _ _ _ | split
    | fail_if_no_progress (with_reducible refine kept_mk (h := ?_)))

theorem kept_estopSet {z : Bool} {s0 s : State} (h : Kept z s0 s) (x1 : ℕ) (x2 : ℕ) : Kept z s0 (State.estopSet s x1 x2) := by
  unfold State.estopSet
  try dsimp only
  repeat' (first
    | with_reducible assumption | with_reducible refine kept_modLine ?_ _ | with_reducible refine kept_estopAct ?_ _ _ | split
    | fail_if_no_progress (with_reducible refine kept_mk (h := ?_)))

theorem kept_originate {z : Bool} {s0 s : State} (h : Kept z s0 s) (x1 : ℕ) : Kept z s0 (State.originate s x1) := by
  unfold State.originate
  try dsimp only
  repeat' (first
    | with_reducible assumption | with_reducible refine kept_modLine ?_ _ | with_reducible refine kept_estopSet ?_ _ _
    | with_reducible refine kept_emit ?_ _ | split | fail_if_no_progress (with_reducible refine kept_mk (h := ?_)))

theorem kept_lineEstopWrite {z : Bool} {s0 s : State} (h : Kept z s0 s) (x1 : Master) : Kept z s0 (State.lineEstopWrite s x1) := by
  unfold State.lineEstopWrite
  try dsimp only
  repeat' (first
    | with_reducible assumption | with_reducible refine kept_originate ?_ _ | split
    | fail_if_no_progress (with_reducible refine kept_mk (h := ?_)))

theorem kept_execLineCtlEstop {z : Bool} {s0 s : State} (h : Kept z s0 s) (x0 : Master) {t : State} (e : execLineCtlEstop x0 s = .next t) : Kept z s0 t := by
  unfold execLineCtlEstop at e
  first | (cases e; try dsimp only) | (split at e <;> cases e <;> try dsimp only)
  repeat' (first
    | with_reducible assumption | with_reducible refine kept_lineEstopWrite ?_ _ | with_reducible refine kept_noted ?_ _ _ | split
    | fail_if_no_progress (with_reducible refine kept_mk (h := ?_)))

theorem kept_dropOthers {z : Bool} {s0 s : State} (h : Kept z s0 s) : Kept z s0 (State.dropOthers s) := by
  unfold State.dropOthers
  try dsimp only
  repeat' (first
    | with_reducible assumption | with_reducible refine kept_forAll ?_ (fun _ _ _ => ?_) | with_reducible refine kept_dropEstop ?_ _ _
    | split | fail_if_no_progress (with_reducible refine kept_mk (h := ?_)))

theorem kept_endLineOps {z : Bool} {s0 s : State} (h : Kept z s0 s) (x1 : ℕ) : Kept z s0 (State.endLineOps s x1) := by
  unfold State.endLineOps
  try dsimp only
  repeat' (first
    | with_reducible assumption | with_reducible refine kept_forAll ?_ (fun _ _ _ => ?_) | with_reducible refine kept_finish ?_ _ _ _ _ _
    | with_reducible refine kept_modLine ?_ _ | with_reducible refine kept_enterRing ?_ _ _ | split
    | fail_if_no_progress (with_reducible refine kept_mk (h := ?_)))

theorem kept_lineCfgWrite {z : Bool} {s0 s : State} (h : Kept z s0 s) (m : Master) (w : Word) : Kept z s0 (State.lineCfgWrite s m w) := by
  unfold State.lineCfgWrite
  have k := kept_gate h m Adr.LINE_CFG 0
  split
  · exact kept_fst k (by assumption)
  · rename_i t e
    have k := kept_fst k e
    extract_lets old v asked keepSta v1 t1 u1
    have h1 : Kept z s0 t1 := kept_rewritten (kept_setReg k _ _) _
    have h2 : Kept z s0 u1 := kept_dropOthers (kept_endLineOps (kept_rewritten (kept_setReg k _ _) _) _)
    clear_value t1 u1
    refine kept_ite (kept_rewritten (kept_setReg k _ _) _) (kept_ite (kept_ite h1 (kept_ask h1 _ _)) ?_)
    exact kept_mk_quiet h2 ⟨rfl, rfl, rfl, rfl, List.prefix_refl _⟩

theorem kept_lineResetWrite {z : Bool} {s0 s : State} (h : Kept z s0 s) (x1 : Master) : Kept z s0 (State.lineResetWrite s x1) := by
  unfold State.lineResetWrite
  try dsimp only
  repeat' (first
    | with_reducible assumption | with_reducible refine kept_modLine ?_ _ | split
    | fail_if_no_progress (with_reducible refine kept_mk (h := ?_)))

theorem kept_lineAdmitted {z : Bool} {s0 s : State} (h : Kept z s0 s) : Kept z s0 (State.lineAdmitted s) := by
  unfold State.lineAdmitted
  try dsimp only
  repeat' (first
    | with_reducible assumption | with_reducible refine kept_orReg ?_ _ _ | split
    | fail_if_no_progress (with_reducible refine kept_mk (h := ?_))
    | fail_if_no_progress (with_reducible refine kept_mk_quiet (h := ?_) ?_) | exact ⟨rfl, rfl, rfl, rfl, List.prefix_refl _⟩
    | exact ⟨rfl, rfl, rfl, rfl, List.prefix_append _ _⟩)

theorem kept_execEstopMarkerReceive {z : Bool} {s0 s : State} (h : Kept z s0 s) (x0 : Fin 2) (x1 : Byte) (x2 : Byte) {t : State} (e : execEstopMarkerReceive x0 x1 x2 s = .next t) : Kept z s0 t := by
  unfold execEstopMarkerReceive at e
  first | (cases e; try dsimp only) | (split at e <;> cases e <;> try dsimp only)
  repeat' (first
    | with_reducible assumption | with_reducible refine kept_emit ?_ _ | with_reducible refine kept_estopSet ?_ _ _
    | with_reducible refine kept_drawFree ?_ | with_reducible refine kept_dropEstop ?_ _ _ | split
    | fail_if_no_progress (with_reducible refine kept_mk (h := ?_)))

theorem kept_snapCut {z : Bool} {s0 s : State} (h : Kept z s0 s) (x1 : ℕ) : Kept z s0 (State.snapCut s x1) := by
  unfold State.snapCut
  try dsimp only
  repeat' (first
    | with_reducible assumption | with_reducible refine kept_forAll ?_ (fun _ _ _ => ?_) | with_reducible refine kept_finish ?_ _ _ _ _ _
    | split | fail_if_no_progress (with_reducible refine kept_mk (h := ?_)))

theorem kept_leaves {z : Bool} {s0 s : State} (h : Kept z s0 s) (x1 : ℕ) : Kept z s0 (State.leaves s x1) := by
  unfold State.leaves
  try dsimp only
  repeat' (first
    | with_reducible assumption | with_reducible refine kept_modLine ?_ _ | with_reducible refine kept_topology ?_
    | with_reducible refine kept_dropEstop ?_ _ _ | with_reducible refine kept_snapCut ?_ _ | split
    | fail_if_no_progress (with_reducible refine kept_mk (h := ?_)))

theorem kept_tickGone {z : Bool} {s0 s : State} (h : Kept z s0 s) : Kept z s0 (State.tickGone s) := by
  unfold State.tickGone
  try dsimp only
  repeat' (first
    | with_reducible assumption | with_reducible refine kept_leaves ?_ _ | split
    | fail_if_no_progress (with_reducible refine kept_mk (h := ?_))
    | fail_if_no_progress (with_reducible refine kept_mk_map (h := ?_) ?_) | with_reducible refine kept_foldl ?_ (fun _ _ _ => ?_)
    | (intro e; rfl) | (intro e; dsimp only; split <;> rfl) | with_reducible refine kept_drawFree ?_
    | with_reducible refine kept_fst ?_ (by assumption) | with_reducible refine kept_snd ?_ (by assumption) | dsimp only)

theorem kept_cutOff {z : Bool} {s0 s : State} (h : Kept z s0 s) : Kept z s0 (State.cutOff s) := by
  unfold State.cutOff
  try dsimp only
  repeat' (first
    | with_reducible assumption | with_reducible refine kept_endLineOps ?_ _ | with_reducible refine kept_modLine ?_ _
    | with_reducible refine kept_originate ?_ _ | with_reducible refine kept_topology ?_ | with_reducible refine kept_dropOthers ?_
    | split | fail_if_no_progress (with_reducible refine kept_mk (h := ?_)))

theorem kept_execLinePortDown {z : Bool} {s0 s : State} (h : Kept z s0 s) (x0 : Fin 2) (x1 : Bool) {t : State} (e : execLinePortDown x0 x1 s = .next t) : Kept z s0 t := by
  unfold execLinePortDown at e
  first | (cases e; try dsimp only) | (split at e <;> cases e <;> try dsimp only)
  repeat' (first
    | with_reducible assumption | with_reducible refine kept_modLine ?_ _ | with_reducible refine kept_raise ?_ _ _ _ _
    | with_reducible refine kept_cutOff ?_ | with_reducible refine kept_leaves ?_ _ | with_reducible refine kept_topology ?_ | split
    | fail_if_no_progress (with_reducible refine kept_mk (h := ?_))
    | fail_if_no_progress (with_reducible refine kept_mk_map (h := ?_) ?_) | with_reducible refine kept_foldl ?_ (fun _ _ _ => ?_)
    | (intro e; rfl) | (intro e; dsimp only; split <;> rfl) | with_reducible refine kept_drawFree ?_
    | with_reducible refine kept_fst ?_ (by assumption) | with_reducible refine kept_snd ?_ (by assumption) | dsimp only)

theorem kept_epochEnds {z : Bool} {s0 s : State} (h : Kept z s0 s) : Kept z s0 (State.epochEnds s) := by
  unfold State.epochEnds
  try dsimp only
  repeat' (first
    | with_reducible assumption | with_reducible refine kept_forAll ?_ (fun _ _ _ => ?_) | with_reducible refine kept_finish ?_ _ _ _ _ _
    | with_reducible refine kept_modTrg ?_ _ _ | with_reducible refine kept_modLine ?_ _ | split
    | fail_if_no_progress (with_reducible refine kept_mk (h := ?_)))

theorem kept_tickTrim {z : Bool} {s0 s : State} (h : Kept z s0 s) : Kept z s0 (State.tickTrim s) := by
  unfold State.tickTrim
  try dsimp only
  repeat' (first
    | with_reducible assumption | with_reducible refine kept_modLine ?_ _ | with_reducible refine kept_cutOff ?_ | split
    | fail_if_no_progress (with_reducible refine kept_mk (h := ?_)))

theorem kept_sendArrivals {z : Bool} {s0 s : State} (h : Kept z s0 s) (n : Nat) (l : List LineArrival) : Kept z s0 (State.sendArrivals n l s) := by
  induction n generalizing s l with
  | zero => exact h
  | succ n ih =>
    cases l with
    | nil => exact h
    | cons a l => exact ih (kept_sendLine h _ _) _

theorem kept_tickArrivals {z : Bool} {s0 s : State} (h : Kept z s0 s) : Kept z s0 (State.tickArrivals s) := by
  unfold State.tickArrivals
  try dsimp only
  repeat' (first
    | with_reducible assumption | with_reducible refine kept_sendArrivals ?_ _ _ | with_reducible refine kept_modLine ?_ _ | split
    | fail_if_no_progress (with_reducible refine kept_mk (h := ?_)))

theorem kept_lineBarRefused {z : Bool} {s0 s : State} (h : Kept z s0 s) (x1 : Option ℕ) (x2 : ℕ) : Kept z s0 (State.lineBarRefused s x1 x2) := by
  unfold State.lineBarRefused
  try dsimp only
  repeat' (first
    | with_reducible assumption | with_reducible refine kept_enterRing ?_ _ _ | with_reducible refine kept_finish ?_ _ _ _ _ _ | split
    | fail_if_no_progress (with_reducible refine kept_mk (h := ?_)))

theorem kept_judgeArrival {z : Bool} {s0 s : State} (h : Kept z s0 s) (x1 : LineArrival) : Kept z s0 (State.judgeArrival s x1) := by
  unfold State.judgeArrival
  try dsimp only
  repeat' (first
    | with_reducible assumption | with_reducible refine kept_modLine ?_ _ | with_reducible refine kept_lineBarRefused ?_ _ _ | split
    | fail_if_no_progress (with_reducible refine kept_mk (h := ?_)))

theorem kept_setCount {s0 s : State} (h : Kept false s0 s) (n : FrameNo) : Kept false s0 (State.setCount s n) := by
  unfold State.setCount
  extract_lets t b
  have k : Kept false s0 t := kept_windows (kept_epochEnds h) _ _
  clear_value t b
  refine k.descs rfl ?_ rfl rfl rfl rfl fun e => nomatch e
  show List.Sublist (List.map _ (List.map _ _)) _
  rw [List.map_map]
  exact List.Sublist.refl _

theorem kept_tickSnapCapture {z : Bool} {s0 s : State} (h : Kept z s0 s) : Kept z s0 (State.tickSnapCapture s) := by
  unfold State.tickSnapCapture
  try dsimp only
  repeat' (first
    | with_reducible assumption | with_reducible refine kept_forAll ?_ (fun _ _ _ => ?_) | with_reducible refine kept_captureOwn ?_ _
    | with_reducible refine kept_emit ?_ _ | with_reducible refine kept_modLine ?_ _ | split
    | fail_if_no_progress (with_reducible refine kept_mk (h := ?_)))

theorem kept_leftOut {z : Bool} {s0 s : State} (h : Kept z s0 s) : Kept z s0 (State.leftOut s) := by
  unfold State.leftOut
  try dsimp only
  repeat' (first
    | with_reducible assumption | with_reducible refine kept_topology ?_ | with_reducible refine kept_modLine ?_ _ | split
    | fail_if_no_progress (with_reducible refine kept_mk (h := ?_)))

theorem kept_tickReset {z : Bool} {s0 s : State} (h : Kept z s0 s) : Kept z s0 (State.tickReset s) := by
  unfold State.tickReset
  try dsimp only
  repeat' (first
    | with_reducible assumption | with_reducible refine kept_sendLine ?_ _ _ | with_reducible refine kept_modLine ?_ _
    | with_reducible refine kept_leftOut ?_ | split | fail_if_no_progress (with_reducible refine kept_mk (h := ?_)))

theorem kept_tickMissing {z : Bool} {s0 s : State} (h : Kept z s0 s) : Kept z s0 (State.tickMissing s) := by
  unfold State.tickMissing
  try dsimp only
  repeat' (first
    | with_reducible assumption | with_reducible refine kept_endLineOps ?_ _ | with_reducible refine kept_modLine ?_ _ | split
    | fail_if_no_progress (with_reducible refine kept_mk (h := ?_)))

theorem kept_cutOthers {z : Bool} {s0 s : State} (h : Kept z s0 s) : Kept z s0 (State.cutOthers s) := by
  unfold State.cutOthers
  try dsimp only
  repeat' (first
    | with_reducible assumption | with_reducible refine kept_forAll ?_ (fun _ _ _ => ?_) | with_reducible refine kept_drawFree ?_
    | with_reducible refine kept_leaves ?_ _ | split | fail_if_no_progress (with_reducible refine kept_mk (h := ?_)))

theorem kept_tickSnapCmd {z : Bool} {s0 s : State} (h : Kept z s0 s) : Kept z s0 (State.tickSnapCmd s) := by
  unfold State.tickSnapCmd
  try dsimp only
  repeat' (first
    | with_reducible assumption | with_reducible refine kept_forAll ?_ (fun _ _ _ => ?_) | with_reducible refine kept_sendLine ?_ _ _
    | split | fail_if_no_progress (with_reducible refine kept_mk (h := ?_)))

theorem kept_judgeArrivals {z : Bool} {s0 s : State} (h : Kept z s0 s) : Kept z s0 (State.judgeArrivals s) := by
  unfold State.judgeArrivals
  try dsimp only
  repeat' (first
    | with_reducible assumption | with_reducible refine kept_modLine ?_ _ | with_reducible refine kept_forAll ?_ (fun _ _ _ => ?_)
    | with_reducible refine kept_judgeArrival ?_ _ | split | fail_if_no_progress (with_reducible refine kept_mk (h := ?_))
    | fail_if_no_progress (with_reducible refine kept_mk_map (h := ?_) ?_) | with_reducible refine kept_foldl ?_ (fun _ _ _ => ?_)
    | (intro e; rfl) | (intro e; dsimp only; split <;> rfl) | with_reducible refine kept_drawFree ?_
    | with_reducible refine kept_fst ?_ (by assumption) | with_reducible refine kept_snd ?_ (by assumption) | dsimp only)

theorem kept_tickSnapReady {z : Bool} {s0 s : State} (h : Kept z s0 s) : Kept z s0 (State.tickSnapReady s) := by
  unfold State.tickSnapReady
  try dsimp only
  repeat' (first
    | with_reducible assumption | with_reducible refine kept_forAll ?_ (fun _ _ _ => ?_) | with_reducible refine kept_raise ?_ _ _ _ _
    | with_reducible refine kept_modLine ?_ _ | split | fail_if_no_progress (with_reducible refine kept_mk (h := ?_)))

theorem kept_lineTick {z : Bool} {s0 s : State} (h : Kept z s0 s) : Kept z s0 (State.lineTick s) := by
  unfold State.lineTick
  extract_lets s1 a c d e
  have h1 : Kept z s0 s1 := kept_tickSnapCapture h
  have ha : Kept z s0 a := kept_ite (kept_emit h1 _) h1
  have hc : Kept z s0 c := kept_tickLoop (kept_tickReset (kept_tickTrim ha))
  have he : Kept z s0 e :=
    kept_tickArrivals (kept_tickSnapCmd (kept_modLine (kept_sendLine (kept_tickGone (kept_tickMissing (kept_cutOthers hc))) _ _) _))
  refine kept_ite (kept_tickSnapDone h1) (kept_ite ?_ (kept_ite (kept_tickSnapDone (kept_ite hc (kept_sendLine hc _ _))) (kept_tickSnapDone hc)))
  exact kept_judgeArrivals (kept_tickSnapDone (kept_tickSnapReady he))

theorem kept_execLineEnable {z : Bool} {s0 s : State} (h : Kept z s0 s) (x0 : Master) (x1 : Word) {t : State} (e : execLineEnable x0 x1 s = .next t) : Kept z s0 t := by
  unfold execLineEnable at e
  first | (cases e; try dsimp only) | (split at e <;> cases e <;> try dsimp only)
  repeat' (first
    | with_reducible assumption | with_reducible refine kept_lineCfgWrite ?_ _ _ | split
    | fail_if_no_progress (with_reducible refine kept_mk (h := ?_)))

theorem kept_lineFailure {z : Bool} {s0 s : State} (h : Kept z s0 s) (x1 : Fin 2) (x2 : ℕ) (x3 : ℕ) (x4 : ℕ) : Kept z s0 (State.lineFailure s x1 x2 x3 x4) := by
  unfold State.lineFailure
  try dsimp only
  repeat' (first
    | with_reducible assumption | with_reducible refine kept_putReg ?_ _ _ _ | with_reducible refine kept_modLine ?_ _
    | with_reducible refine kept_raise ?_ _ _ _ _ | split | fail_if_no_progress (with_reducible refine kept_mk (h := ?_)))

theorem kept_badFrame {z : Bool} {s0 s : State} (h : Kept z s0 s) (x1 : Fin 2) (x2 : ℕ) : Kept z s0 (State.badFrame s x1 x2) := by
  unfold State.badFrame
  try dsimp only
  repeat' (first
    | with_reducible assumption | with_reducible refine kept_modLine ?_ _ | with_reducible refine kept_lineFailure ?_ _ _ _ _ | split
    | fail_if_no_progress (with_reducible refine kept_mk (h := ?_)))

theorem kept_forward {z : Bool} {s0 s : State} (h : Kept z s0 s) (x1 : Fin 2) (x2 : List Byte) : Kept z s0 (State.forward s x1 x2) := by
  unfold State.forward
  try dsimp only
  repeat' (first
    | with_reducible assumption | with_reducible refine kept_emit ?_ _ | split
    | fail_if_no_progress (with_reducible refine kept_mk (h := ?_)))

theorem kept_lineTake {z : Bool} {s0 s : State} (h : Kept z s0 s) (x1 : Fin 2) (x2 : ℕ) (x3 : List Byte) : Kept z s0 (State.lineTake s x1 x2 x3).1 := by
  unfold State.lineTake
  try dsimp only
  repeat' (first
    | with_reducible assumption | with_reducible refine kept_modLine ?_ _ | with_reducible refine kept_badFrame ?_ _ _
    | with_reducible refine kept_forward ?_ _ _ | with_reducible refine kept_lineFailure ?_ _ _ _ _ | split
    | fail_if_no_progress (with_reducible refine kept_mk (h := ?_)))

theorem kept_followRate {z : Bool} {s0 s : State} (h : Kept z s0 s) (x1 : Fin 4) : Kept z s0 (State.followRate s x1) := by
  unfold State.followRate
  try dsimp only
  repeat' (first
    | with_reducible assumption | with_reducible refine kept_takeRate ?_ _ _ | split
    | fail_if_no_progress (with_reducible refine kept_mk (h := ?_)))

theorem kept_mapGains {z : Bool} {s0 s : State} (h : Kept z s0 s) (x1 : ℕ) (x2 : Fin 8) : Kept z s0 (State.mapGains s x1 x2) := by
  unfold State.mapGains
  try dsimp only
  repeat' (first
    | with_reducible assumption | with_reducible refine kept_modLine ?_ _ | split
    | fail_if_no_progress (with_reducible refine kept_mk (h := ?_)))

theorem kept_statusStop {z : Bool} {s0 s : State} (h : Kept z s0 s) (x1 : ℕ) (x2 : Bool) (x3 : Bool) (x4 : FrameNo) : Kept z s0 (State.statusStop s x1 x2 x3 x4) := by
  unfold State.statusStop
  try dsimp only
  repeat' (first
    | with_reducible assumption | with_reducible refine kept_modLine ?_ _ | with_reducible refine kept_dropEstop ?_ _ _ | split
    | fail_if_no_progress (with_reducible refine kept_mk (h := ?_)))

theorem kept_execLineStatusReceive {z : Bool} {s0 s : State} (h : Kept z s0 s) (x0 : Fin 2) (x1 : StatusIn) {t : State} (e : execLineStatusReceive x0 x1 s = .next t) : Kept z s0 t := by
  unfold execLineStatusReceive at e
  first | (cases e; try dsimp only) | (split at e <;> cases e <;> try dsimp only)
  repeat' (first
    | with_reducible assumption | with_reducible refine kept_lineTake ?_ _ _ _ | with_reducible refine kept_modLine ?_ _
    | with_reducible refine kept_followRate ?_ _ | with_reducible refine kept_topology ?_ | with_reducible refine kept_mapGains ?_ _ _
    | with_reducible refine kept_statusStop ?_ _ _ _ _ | split | fail_if_no_progress (with_reducible refine kept_mk (h := ?_))
    | with_reducible refine kept_fst ?_ (by assumption) | with_reducible refine kept_snd ?_ (by assumption) | dsimp only)

theorem kept_execLineArriveReceive {z : Bool} {s0 s : State} (h : Kept z s0 s) (x0 : Fin 2) (x1 : List Byte) {t : State} (e : execLineArriveReceive x0 x1 s = .next t) : Kept z s0 t := by
  unfold execLineArriveReceive at e
  first | (cases e; try dsimp only) | (split at e <;> cases e <;> try dsimp only)
  repeat' (first
    | with_reducible assumption | with_reducible refine kept_lineTake ?_ _ _ _ | with_reducible refine kept_modLine ?_ _ | split
    | fail_if_no_progress (with_reducible refine kept_mk (h := ?_)) | with_reducible refine kept_fst ?_ (by assumption)
    | with_reducible refine kept_snd ?_ (by assumption) | dsimp only)

theorem kept_execLineSnapCmdReceive {z : Bool} {s0 s : State} (h : Kept z s0 s) (x0 : Fin 2) (x1 : List Byte) {t : State} (e : execLineSnapCmdReceive x0 x1 s = .next t) : Kept z s0 t := by
  unfold execLineSnapCmdReceive at e
  first | (cases e; try dsimp only) | (split at e <;> cases e <;> try dsimp only)
  repeat' (first
    | with_reducible assumption | with_reducible refine kept_lineTake ?_ _ _ _ | with_reducible refine kept_modLine ?_ _ | split
    | fail_if_no_progress (with_reducible refine kept_mk (h := ?_)) | with_reducible refine kept_fst ?_ (by assumption)
    | with_reducible refine kept_snd ?_ (by assumption) | dsimp only)

theorem kept_execLineSnapDoneReceive {z : Bool} {s0 s : State} (h : Kept z s0 s) (x0 : Fin 2) (x1 : List Byte) {t : State} (e : execLineSnapDoneReceive x0 x1 s = .next t) : Kept z s0 t := by
  unfold execLineSnapDoneReceive at e
  first | (cases e; try dsimp only) | (split at e <;> cases e <;> try dsimp only)
  repeat' (first
    | with_reducible assumption | with_reducible refine kept_lineTake ?_ _ _ _ | with_reducible refine kept_modLine ?_ _ | split
    | fail_if_no_progress (with_reducible refine kept_mk (h := ?_)) | with_reducible refine kept_fst ?_ (by assumption)
    | with_reducible refine kept_snd ?_ (by assumption) | dsimp only)

theorem kept_execLineResetReceive {z : Bool} {s0 s : State} (h : Kept z s0 s) (port : Fin 2) (r : ResetIn) {t : State}
    (e : execLineResetReceive port r s = .next t) : Kept z s0 t := by
  unfold execLineResetReceive at e
  cases e
  have k := kept_lineTake h port 5 r.bytes
  split
  · exact kept_fst k (by assumption)
  · rename_i t _ e
    have k := kept_fst k e
    extract_lets
    split
    · exact kept_ite (kept_leftOut k) (kept_modLine k _)
    · exact kept_ite k (kept_ite (kept_modLine k _) (kept_modLine (kept_ite k (kept_takeRate k _ _)) _))

theorem kept_lockOn {z : Bool} {s0 s : State} (h : Kept z s0 s) (x1 : Fin 2) (x2 : ℕ) : Kept z s0 (State.lockOn s x1 x2) := by
  unfold State.lockOn
  try dsimp only
  repeat' (first
    | with_reducible assumption | with_reducible refine kept_modLine ?_ _ | split
    | fail_if_no_progress (with_reducible refine kept_mk (h := ?_)))

theorem kept_measureDelay {z : Bool} {s0 s : State} (h : Kept z s0 s) (x1 : Fin 2) (x2 : ℕ) : Kept z s0 (State.measureDelay s x1 x2) := by
  unfold State.measureDelay
  try dsimp only
  repeat' (first
    | with_reducible assumption | with_reducible refine kept_modLine ?_ _ | with_reducible refine kept_lockOn ?_ _ _ | split
    | fail_if_no_progress (with_reducible refine kept_mk (h := ?_)))

theorem kept_execLinePingReceive {z : Bool} {s0 s : State} (h : Kept z s0 s) (x0 : Fin 2) (x1 : List Byte) (x2 : PingIn) {t : State} (e : execLinePingReceive x0 x1 x2 s = .next t) : Kept z s0 t := by
  unfold execLinePingReceive at e
  first | (cases e; try dsimp only) | (split at e <;> cases e <;> try dsimp only)
  repeat' (first
    | with_reducible assumption | with_reducible refine kept_lineTake ?_ _ _ _ | with_reducible refine kept_sendLine ?_ _ _
    | with_reducible refine kept_measureDelay ?_ _ _ | split | fail_if_no_progress (with_reducible refine kept_mk (h := ?_))
    | with_reducible refine kept_fst ?_ (by assumption) | with_reducible refine kept_snd ?_ (by assumption) | dsimp only)

theorem kept_execTickMarkerReceive {z : Bool} {s0 s : State} (h : Kept z s0 s) (x0 : Fin 2) (x1 : ℕ) {t : State} (e : execTickMarkerReceive x0 x1 s = .next t) : Kept z s0 t := by
  unfold execTickMarkerReceive at e
  first | (cases e; try dsimp only) | (split at e <;> cases e <;> try dsimp only)
  repeat' (first
    | with_reducible assumption | with_reducible refine kept_emit ?_ _ | with_reducible refine kept_modLine ?_ _
    | with_reducible refine kept_lockOn ?_ _ _ | with_reducible refine kept_raise ?_ _ _ _ _ | split
    | fail_if_no_progress (with_reducible refine kept_mk (h := ?_)))

theorem kept_execLineCutOff {z : Bool} {s0 s : State} (h : Kept z s0 s)  {t : State} (e : execLineCutOff s = .next t) : Kept z s0 t := by
  unfold execLineCutOff at e
  first | (cases e; try dsimp only) | (split at e <;> cases e <;> try dsimp only)
  repeat' (first
    | with_reducible assumption | with_reducible refine kept_cutOff ?_ | split
    | fail_if_no_progress (with_reducible refine kept_mk (h := ?_)))

theorem kept_execLineJoin {s0 s : State} (h : Kept false s0 s) (x0 : JoinIn) {t : State} (e : execLineJoin x0 s = .next t) : Kept false s0 t := by
  unfold execLineJoin at e
  first | (cases e; try dsimp only) | (split at e <;> cases e <;> try dsimp only)
  repeat' (first
    | with_reducible assumption | with_reducible refine kept_setCount ?_ _ | with_reducible refine kept_modLine ?_ _
    | with_reducible refine kept_followRate ?_ _ | with_reducible refine kept_topology ?_ | with_reducible refine kept_raise ?_ _ _ _ _
    | split | fail_if_no_progress (with_reducible refine kept_mk (h := ?_)))

theorem kept_execLineCtlReset {z : Bool} {s0 s : State} (h : Kept z s0 s) (x0 : Master) {t : State} (e : execLineCtlReset x0 s = .next t) : Kept z s0 t := by
  unfold execLineCtlReset at e
  first | (cases e; try dsimp only) | (split at e <;> cases e <;> try dsimp only)
  repeat' (first
    | with_reducible assumption | with_reducible refine kept_lineResetWrite ?_ _ | with_reducible refine kept_noted ?_ _ _ | split
    | fail_if_no_progress (with_reducible refine kept_mk (h := ?_)))

theorem kept_execLineEpoch {s0 s : State} (h : Kept false s0 s)  {t : State} (e : execLineEpoch s = .next t) : Kept false s0 t := by
  unfold execLineEpoch at e
  first | (cases e; try dsimp only) | (split at e <;> cases e <;> try dsimp only)
  repeat' (first
    | with_reducible assumption | with_reducible refine kept_setCount ?_ _ | with_reducible refine kept_modLine ?_ _
    | with_reducible refine kept_raise ?_ _ _ _ _ | split | fail_if_no_progress (with_reducible refine kept_mk (h := ?_)))

theorem kept_execLineCtlEstopClr {z : Bool} {s0 s : State} (h : Kept z s0 s) (x0 : Master) {t : State} (e : execLineCtlEstopClr x0 s = .next t) : Kept z s0 t := by
  unfold execLineCtlEstopClr at e
  first | (cases e; try dsimp only) | (split at e <;> cases e <;> try dsimp only)
  repeat' (first
    | with_reducible assumption | with_reducible refine kept_lineEstopClear ?_ _ | with_reducible refine kept_noted ?_ _ _ | split
    | fail_if_no_progress (with_reducible refine kept_mk (h := ?_)))

theorem kept_execLineBarrierRelease {z : Bool} {s0 s : State} (h : Kept z s0 s) (x0 : Word) {t : State} (e : execLineBarrierRelease x0 s = .next t) : Kept z s0 t := by
  unfold execLineBarrierRelease at e
  first | (cases e; try dsimp only) | (split at e <;> cases e <;> try dsimp only)
  repeat' (first
    | with_reducible assumption | with_reducible refine kept_releaseAll ?_ _ | with_reducible refine kept_modLine ?_ _
    | with_reducible refine kept_raise ?_ _ _ _ _ | split | fail_if_no_progress (with_reducible refine kept_mk (h := ?_)))

theorem kept_execLinePortUp {z : Bool} {s0 s : State} (h : Kept z s0 s) (x0 : Fin 2) {t : State} (e : execLinePortUp x0 s = .next t) : Kept z s0 t := by
  unfold execLinePortUp at e
  first | (cases e; try dsimp only) | (split at e <;> cases e <;> try dsimp only)
  repeat' (first
    | with_reducible assumption | with_reducible refine kept_topology ?_ | with_reducible refine kept_modLine ?_ _ | split
    | fail_if_no_progress (with_reducible refine kept_mk (h := ?_)))

/-! ### Timetable -/

theorem kept_motionDone {z : Bool} {s0 s : State} (h : Kept z s0 s) (x1 : ℕ) : Kept z s0 (State.motionDone s x1) := by
  unfold State.motionDone
  try dsimp only
  repeat' (first
    | with_reducible assumption | with_reducible refine kept_finishMotion ?_ _ _ | with_reducible refine kept_settle ?_ _ | split
    | fail_if_no_progress (with_reducible refine kept_mk (h := ?_)))

theorem kept_runsOut {z : Bool} {s0 s : State} (h : Kept z s0 s) (x1 : AxisId) (x2 : Running → Running) : Kept z s0 (State.runsOut s x1 x2) := by
  unfold State.runsOut
  try dsimp only
  repeat' (first
    | with_reducible assumption | with_reducible refine kept_modAx ?_ _ _ | split
    | fail_if_no_progress (with_reducible refine kept_mk (h := ?_)))

theorem kept_holdRest {z : Bool} {s0 s : State} (h : Kept z s0 s) (x1 : AxisId) : Kept z s0 (State.holdRest s x1) := by
  unfold State.holdRest
  try dsimp only
  repeat' (first
    | with_reducible assumption | with_reducible refine kept_runsOut ?_ _ _ | with_reducible refine kept_enterHold ?_ _ | split
    | fail_if_no_progress (with_reducible refine kept_mk (h := ?_)))

theorem kept_groupArrived {z : Bool} {s0 s : State} (h : Kept z s0 s) (x1 : ℕ) : Kept z s0 (State.groupArrived s x1) := by
  unfold State.groupArrived
  try dsimp only
  repeat' (first
    | with_reducible assumption | with_reducible refine kept_motionDone ?_ _ | split
    | fail_if_no_progress (with_reducible refine kept_mk (h := ?_)))

theorem kept_motionDoneO {z : Bool} {s0 s : State} (h : Kept z s0 s) (x1 : Option ℕ) : Kept z s0 (State.motionDoneO s x1) := by
  unfold State.motionDoneO
  try dsimp only
  repeat' (first
    | with_reducible assumption | with_reducible refine kept_motionDone ?_ _ | split
    | fail_if_no_progress (with_reducible refine kept_mk (h := ?_)))

theorem kept_restNow {z : Bool} {s0 s : State} (h : Kept z s0 s) (x1 : AxisId) : Kept z s0 (State.restNow s x1) := by
  unfold State.restNow
  try dsimp only
  repeat' (first
    | with_reducible assumption | with_reducible refine kept_motionDone ?_ _ | with_reducible refine kept_holdRest ?_ _
    | with_reducible refine kept_groupArrived ?_ _ | with_reducible refine kept_motionDoneO ?_ _
    | with_reducible refine kept_parkNow ?_ _ | with_reducible refine kept_modTt ?_ _ _ | split
    | fail_if_no_progress (with_reducible refine kept_mk (h := ?_)))

theorem kept_execMoveVelComplete {z : Bool} {s0 s : State} (h : Kept z s0 s) (x0 : AxisId) {t : State} (e : execMoveVelComplete x0 s = .next t) : Kept z s0 t := by
  unfold execMoveVelComplete at e
  first | (cases e; try dsimp only) | (split at e <;> cases e <;> try dsimp only)
  repeat' (first
    | with_reducible assumption | with_reducible refine kept_motionDone ?_ _ | with_reducible refine kept_runsOut ?_ _ _
    | with_reducible refine kept_restNow ?_ _ | split | fail_if_no_progress (with_reducible refine kept_mk (h := ?_)))

theorem kept_startMotion {z : Bool} {s0 s : State} (h : Kept z s0 s) (x1 : AxisId) (x2 : Running) (x3 : Mode) : Kept z s0 (State.startMotion s x1 x2 x3) := by
  unfold State.startMotion
  try dsimp only
  repeat' (first
    | with_reducible assumption | with_reducible refine kept_runPhase ?_ _ | with_reducible refine kept_modTt ?_ _ _ | split
    | fail_if_no_progress (with_reducible refine kept_mk (h := ?_)))

theorem kept_moveTo {z : Bool} {s0 s : State} (h : Kept z s0 s) (x1 : AxisId) (x2 : ℤ) (x3 : Limits) (x4 : Bool) (x5 : Running) : Kept z s0 (State.moveTo s x1 x2 x3 x4 x5) := by
  unfold State.moveTo
  try dsimp only
  repeat' (first
    | with_reducible assumption | with_reducible refine kept_takeForms ?_ _ | with_reducible refine kept_modTt ?_ _ _
    | with_reducible refine kept_planProfile ?_ _ | with_reducible refine kept_startMotion ?_ _ _ _
    | with_reducible refine kept_newTarget ?_ _ _ _ | split | fail_if_no_progress (with_reducible refine kept_mk (h := ?_)))

theorem kept_posSetTick {z : Bool} {s0 s : State} (h : Kept z s0 s) (x1 : Desc) : Kept z s0 (State.posSetTick s x1) := by
  unfold State.posSetTick
  try dsimp only
  repeat' (first
    | with_reducible assumption | with_reducible refine kept_modFbx ?_ _ _ | split
    | fail_if_no_progress (with_reducible refine kept_mk (h := ?_)))

theorem kept_grpDefEffect {z : Bool} {s0 s : State} (h : Kept z s0 s) (x1 : Desc) : Kept z s0 (State.grpDefEffect s x1) := by
  unfold State.grpDefEffect
  try dsimp only
  repeat' (first
    | with_reducible assumption | with_reducible refine kept_paramDone ?_ _ _ | split
    | fail_if_no_progress (with_reducible refine kept_mk (h := ?_)))

theorem kept_disarmEffect {z : Bool} {s0 s : State} (h : Kept z s0 s) (x1 : Desc) : Kept z s0 (State.disarmEffect s x1) := by
  unfold State.disarmEffect
  try dsimp only
  repeat' (first
    | with_reducible assumption | with_reducible refine kept_paramDone ?_ _ _ | with_reducible refine kept_modTrg ?_ _ _ | split
    | fail_if_no_progress (with_reducible refine kept_mk (h := ?_)))

theorem kept_moveEffect {z : Bool} {s0 s : State} (h : Kept z s0 s) (x1 : Desc) (x2 : AxisId → ℤ) : Kept z s0 (State.moveEffect s x1 x2) := by
  unfold State.moveEffect
  try dsimp only
  repeat' (first
    | with_reducible assumption | with_reducible refine kept_moveTo ?_ _ _ _ _ _ | split
    | fail_if_no_progress (with_reducible refine kept_mk (h := ?_)))

theorem kept_execMoveAbs {z : Bool} {s0 s : State} (h : Kept z s0 s) (x0 : ℕ) {t : State} (e : execMoveAbs x0 s = .next t) : Kept z s0 t := by
  unfold execMoveAbs at e
  first | (cases e; try dsimp only) | (split at e <;> cases e <;> try dsimp only)
  repeat' (first
    | with_reducible assumption | with_reducible refine kept_withEffect ?_ _ _ _ (fun _ _ _ => ?_)
    | with_reducible refine kept_moveEffect ?_ _ _ | split | fail_if_no_progress (with_reducible refine kept_mk (h := ?_)))

theorem kept_execMoveRel {z : Bool} {s0 s : State} (h : Kept z s0 s) (x0 : ℕ) {t : State} (e : execMoveRel x0 s = .next t) : Kept z s0 t := by
  unfold execMoveRel at e
  first | (cases e; try dsimp only) | (split at e <;> cases e <;> try dsimp only)
  repeat' (first
    | with_reducible assumption | with_reducible refine kept_withEffect ?_ _ _ _ (fun _ _ _ => ?_)
    | with_reducible refine kept_moveEffect ?_ _ _ | split | fail_if_no_progress (with_reducible refine kept_mk (h := ?_)))

theorem kept_velEffect {z : Bool} {s0 s : State} (h : Kept z s0 s) (x1 : Desc) : Kept z s0 (State.velEffect s x1) := by
  unfold State.velEffect
  try dsimp only
  repeat' (first
    | with_reducible assumption | with_reducible refine kept_runPhase ?_ _ | with_reducible refine kept_modTt ?_ _ _
    | with_reducible refine kept_takeForms ?_ _ | with_reducible refine kept_planProfile ?_ _
    | with_reducible refine kept_startMotion ?_ _ _ _ | with_reducible refine kept_stopFrom ?_ _ _ _ _
    | with_reducible refine kept_modAx ?_ _ _ | split | fail_if_no_progress (with_reducible refine kept_mk (h := ?_)))

theorem kept_execMoveVel {z : Bool} {s0 s : State} (h : Kept z s0 s) (x0 : ℕ) {t : State} (e : execMoveVel x0 s = .next t) : Kept z s0 t := by
  unfold execMoveVel at e
  first | (cases e; try dsimp only) | (split at e <;> cases e <;> try dsimp only)
  repeat' (first
    | with_reducible assumption | with_reducible refine kept_withEffect ?_ _ _ _ (fun _ _ _ => ?_)
    | with_reducible refine kept_velEffect ?_ _ | split | fail_if_no_progress (with_reducible refine kept_mk (h := ?_)))

theorem kept_stopEffect {z : Bool} {s0 s : State} (h : Kept z s0 s) (x1 : Desc) (x2 : ℕ) (x3 : ℕ) : Kept z s0 (State.stopEffect s x1 x2 x3) := by
  unfold State.stopEffect
  try dsimp only
  repeat' (first
    | with_reducible assumption | with_reducible refine kept_modTt ?_ _ _ | with_reducible refine kept_stopMotion ?_ _ _ _ _ | split
    | fail_if_no_progress (with_reducible refine kept_mk (h := ?_)))

theorem kept_execStop {z : Bool} {s0 s : State} (h : Kept z s0 s) (x0 : ℕ) {t : State} (e : execStop x0 s = .next t) : Kept z s0 t := by
  unfold execStop at e
  first | (cases e; try dsimp only) | (split at e <;> cases e <;> try dsimp only)
  repeat' (first
    | with_reducible assumption | with_reducible refine kept_withEffect ?_ _ _ _ (fun _ _ _ => ?_)
    | with_reducible refine kept_stopEffect ?_ _ _ _ | split | fail_if_no_progress (with_reducible refine kept_mk (h := ?_)))

theorem kept_execPark {z : Bool} {s0 s : State} (h : Kept z s0 s) (x0 : ℕ) {t : State} (e : execPark x0 s = .next t) : Kept z s0 t := by
  unfold execPark at e
  first | (cases e; try dsimp only) | (split at e <;> cases e <;> try dsimp only)
  repeat' (first
    | with_reducible assumption | with_reducible refine kept_withEffect ?_ _ _ _ (fun _ _ _ => ?_)
    | with_reducible refine kept_stopEffect ?_ _ _ _ | split | fail_if_no_progress (with_reducible refine kept_mk (h := ?_)))

theorem kept_execShaperIdentComplete {z : Bool} {s0 s : State} (h : Kept z s0 s) (x0 : AxisId) (x1 : ℕ) (x2 : ℕ) {t : State} (e : execShaperIdentComplete x0 x1 x2 s = .next t) : Kept z s0 t := by
  unfold execShaperIdentComplete at e
  first | (cases e; try dsimp only) | (split at e <;> cases e <;> try dsimp only)
  repeat' (first
    | with_reducible assumption | with_reducible refine kept_setReg ?_ _ _ | with_reducible refine kept_modAx ?_ _ _
    | with_reducible refine kept_finishOk ?_ _ _ _ _ | split | fail_if_no_progress (with_reducible refine kept_mk (h := ?_)))

theorem kept_execSetParam {z : Bool} {s0 s : State} (h : Kept z s0 s) (x0 : ℕ) {t : State} (e : execSetParam x0 s = .next t) : Kept z s0 t := by
  unfold execSetParam at e
  first | (cases e; try dsimp only) | (split at e <;> cases e <;> try dsimp only)
  repeat' (first
    | with_reducible assumption | with_reducible refine kept_withEffect ?_ _ _ _ (fun _ _ _ => ?_)
    | with_reducible refine kept_setParamEffect ?_ _ | split | fail_if_no_progress (with_reducible refine kept_mk (h := ?_)))

theorem kept_posSetEffect {z : Bool} {s0 s : State} (h : Kept z s0 s) (x1 : Desc) : Kept z s0 (State.posSetEffect s x1) := by
  unfold State.posSetEffect
  try dsimp only
  repeat' (first
    | with_reducible assumption | with_reducible refine kept_paramDone ?_ _ _ | with_reducible refine kept_modAx ?_ _ _ | split
    | fail_if_no_progress (with_reducible refine kept_mk (h := ?_)))

theorem kept_execPosSet {z : Bool} {s0 s : State} (h : Kept z s0 s) (x0 : ℕ) {t : State} (e : execPosSet x0 s = .next t) : Kept z s0 t := by
  unfold execPosSet at e
  first | (cases e; try dsimp only) | (split at e <;> cases e <;> try dsimp only)
  repeat' (first
    | with_reducible assumption | with_reducible refine kept_withEffect ?_ _ _ _ (fun _ _ _ => ?_)
    | with_reducible refine kept_posSetEffect ?_ _ | split | fail_if_no_progress (with_reducible refine kept_mk (h := ?_)))

theorem kept_execGrpDef {z : Bool} {s0 s : State} (h : Kept z s0 s) (x0 : ℕ) {t : State} (e : execGrpDef x0 s = .next t) : Kept z s0 t := by
  unfold execGrpDef at e
  first | (cases e; try dsimp only) | (split at e <;> cases e <;> try dsimp only)
  repeat' (first
    | with_reducible assumption | with_reducible refine kept_withEffect ?_ _ _ _ (fun _ _ _ => ?_) | split
    | fail_if_no_progress (with_reducible refine kept_mk (h := ?_)))

theorem kept_execTrgDisarm {z : Bool} {s0 s : State} (h : Kept z s0 s) (x0 : ℕ) {t : State} (e : execTrgDisarm x0 s = .next t) : Kept z s0 t := by
  unfold execTrgDisarm at e
  first | (cases e; try dsimp only) | (split at e <;> cases e <;> try dsimp only)
  repeat' (first
    | with_reducible assumption | with_reducible refine kept_withEffect ?_ _ _ _ (fun _ _ _ => ?_) | split
    | fail_if_no_progress (with_reducible refine kept_mk (h := ?_)))

theorem kept_groupEffect {z : Bool} {s0 s : State} (h : Kept z s0 s) (x1 : Desc) (x2 : List (AxisId × ℤ)) (x3 : List Limits) : Kept z s0 (State.groupEffect s x1 x2 x3) := by
  unfold State.groupEffect
  try dsimp only
  repeat' (first
    | with_reducible assumption | with_reducible refine kept_forAll ?_ (fun _ _ _ => ?_) | with_reducible refine kept_moveTo ?_ _ _ _ _ _
    | split | fail_if_no_progress (with_reducible refine kept_mk (h := ?_)))

theorem kept_execGroupMove {z : Bool} {s0 s : State} (h : Kept z s0 s) (x0 : ℕ) {t : State} (e : execGroupMove x0 s = .next t) : Kept z s0 t := by
  unfold execGroupMove at e
  first | (cases e; try dsimp only) | (split at e <;> cases e <;> try dsimp only)
  repeat' (first
    | with_reducible assumption | with_reducible refine kept_begin ?_ _ _ | with_reducible refine kept_refuseAhead ?_ _ _ _ _
    | with_reducible refine kept_takeOver ?_ _ | with_reducible refine kept_groupEffect ?_ _ _ _ | split
    | fail_if_no_progress (with_reducible refine kept_mk (h := ?_)) | with_reducible refine kept_fst ?_ (by assumption)
    | with_reducible refine kept_snd ?_ (by assumption) | dsimp only)

theorem kept_execGroupTargetListReadDone {z : Bool} {s0 s : State} (h : Kept z s0 s) (x0 : ℕ) (x1 : HostRead) {t : State} (e : execGroupTargetListReadDone x0 x1 s = .next t) : Kept z s0 t := by
  unfold execGroupTargetListReadDone at e
  first | (cases e; try dsimp only) | (split at e <;> cases e <;> try dsimp only)
  repeat' (first
    | with_reducible assumption | with_reducible refine kept_modDesc ?_ _ _ ?_ | with_reducible refine kept_finish ?_ _ _ _ _ _
    | with_reducible refine kept_raise ?_ _ _ _ _ | split | fail_if_no_progress (with_reducible refine kept_mk (h := ?_))
    | fail_if_no_progress (with_reducible refine kept_mk_map (h := ?_) ?_) | with_reducible refine kept_foldl ?_ (fun _ _ _ => ?_)
    | (intro e; rfl) | (intro e; dsimp only; split <;> rfl) | with_reducible refine kept_drawFree ?_
    | with_reducible refine kept_fst ?_ (by assumption) | with_reducible refine kept_snd ?_ (by assumption) | dsimp only)

theorem kept_execMoveComplete {z : Bool} {s0 s : State} (h : Kept z s0 s) (x0 : AxisId) {t : State} (e : execMoveComplete x0 s = .next t) : Kept z s0 t := by
  unfold execMoveComplete at e
  first | (cases e; try dsimp only) | (split at e <;> cases e <;> try dsimp only)
  repeat' (first
    | with_reducible assumption | with_reducible refine kept_restNow ?_ _ | split
    | fail_if_no_progress (with_reducible refine kept_mk (h := ?_)))

/-! ### Follow -/

theorem kept_camUnderrun {z : Bool} {s0 s : State} (h : Kept z s0 s) (x1 : AxisId) (x2 : ℕ) (x3 : ℕ) : Kept z s0 (State.camUnderrun s x1 x2 x3) := by
  unfold State.camUnderrun
  try dsimp only
  repeat' (first
    | with_reducible assumption | with_reducible refine kept_tellAt ?_ _ _ _ _ _ | split
    | fail_if_no_progress (with_reducible refine kept_mk (h := ?_)))

theorem kept_execCamLineReadDone {z : Bool} {s0 s : State} (h : Kept z s0 s) (x0 : AxisId) (x1 : ℕ) (x2 : HostRead) {t : State} (e : execCamLineReadDone x0 x1 x2 s = .next t) : Kept z s0 t := by
  unfold execCamLineReadDone at e
  first | (cases e; try dsimp only) | (split at e <;> cases e <;> try dsimp only)
  repeat' (first
    | with_reducible assumption | with_reducible refine kept_modAx ?_ _ _ | with_reducible refine kept_raise ?_ _ _ _ _ | split
    | fail_if_no_progress (with_reducible refine kept_mk (h := ?_)))

theorem kept_latchSteps {z : Bool} {s0 s : State} (h : Kept z s0 s) : Kept z s0 (State.latchSteps s) := by
  unfold State.latchSteps
  try dsimp only
  repeat' (first
    | with_reducible assumption | split | fail_if_no_progress (with_reducible refine kept_mk (h := ?_)))

theorem kept_fireSlot {z : Bool} {s0 s : State} (h : Kept z s0 s) (x1 : Fin 64) : Kept z s0 (State.fireSlot s x1) := by
  unfold State.fireSlot
  try dsimp only
  repeat' (first
    | with_reducible assumption | with_reducible refine kept_modTrg ?_ _ _ | with_reducible refine kept_raise ?_ _ _ _ _ | split
    | fail_if_no_progress (with_reducible refine kept_mk (h := ?_)))

theorem kept_armEffect {z : Bool} {s0 s : State} (h : Kept z s0 s) (x1 : Desc) : Kept z s0 (State.armEffect s x1) := by
  unfold State.armEffect
  try dsimp only
  repeat' (first
    | with_reducible assumption | with_reducible refine kept_later ?_ _ _ _ _ | with_reducible refine kept_laterOk ?_ _ _ _
    | with_reducible refine kept_modTrg ?_ _ _ | split | fail_if_no_progress (with_reducible refine kept_mk (h := ?_)))

theorem kept_dropDemand {z : Bool} {s0 s : State} (h : Kept z s0 s) (x1 : AxisId) (x2 : ℕ) : Kept z s0 (State.dropDemand s x1 x2) := by
  unfold State.dropDemand
  try dsimp only
  repeat' (first
    | with_reducible assumption | with_reducible refine kept_orReg ?_ _ _ | with_reducible refine kept_modAx ?_ _ _
    | with_reducible refine kept_addReg ?_ _ _ | split | fail_if_no_progress (with_reducible refine kept_mk (h := ?_)))

theorem kept_camArrive {z : Bool} {s0 s : State} (h : Kept z s0 s) : Kept z s0 (State.camArrive s) := by
  unfold State.camArrive
  try dsimp only
  repeat' (first
    | with_reducible assumption | split | fail_if_no_progress (with_reducible refine kept_mk (h := ?_)))

theorem kept_triggers {z : Bool} {s0 s : State} (h : Kept z s0 s) : Kept z s0 (State.triggers s) := by
  unfold State.triggers
  try dsimp only
  repeat' (first
    | with_reducible assumption | with_reducible refine kept_forAll ?_ (fun _ _ _ => ?_) | with_reducible refine kept_fireSlot ?_ _
    | split | fail_if_no_progress (with_reducible refine kept_mk (h := ?_)))

theorem kept_leaveFollow {z : Bool} {s0 s : State} (h : Kept z s0 s) (x1 : AxisId) : Kept z s0 (State.leaveFollow s x1) := by
  unfold State.leaveFollow
  try dsimp only
  repeat' (first
    | with_reducible assumption | with_reducible refine kept_modAx ?_ _ _ | with_reducible refine kept_stopStored ?_ _ _ | split
    | fail_if_no_progress (with_reducible refine kept_mk (h := ?_)))

theorem kept_takeFollowed {z : Bool} {s0 s : State} (h : Kept z s0 s) (x1 : AxisId) (x2 : FollowSt) (x3 : ℤ) (x4 : ℤ) : Kept z s0 (State.takeFollowed s x1 x2 x3 x4) := by
  unfold State.takeFollowed
  try dsimp only
  repeat' (first
    | with_reducible assumption | with_reducible refine kept_limitClipped ?_ _ _ _ _ | with_reducible refine kept_leaveFollow ?_ _
    | with_reducible refine kept_modTt ?_ _ _ | with_reducible refine kept_modAx ?_ _ _ | split
    | fail_if_no_progress (with_reducible refine kept_mk (h := ?_)))

theorem kept_followStep {z : Bool} {s0 s : State} (h : Kept z s0 s) (x1 : AxisId) (x2 : FollowSt) (x3 : ℤ) : Kept z s0 (State.followStep s x1 x2 x3) := by
  unfold State.followStep
  try dsimp only
  repeat' (first
    | with_reducible assumption | with_reducible refine kept_modAx ?_ _ _ | with_reducible refine kept_takeFollowed ?_ _ _ _ _ | split
    | fail_if_no_progress (with_reducible refine kept_mk (h := ?_)))

theorem kept_planFollow {z : Bool} {s0 s : State} (h : Kept z s0 s) (x1 : AxisId) (x2 : FollowSt) : Kept z s0 (State.planFollow s x1 x2) := by
  unfold State.planFollow
  try dsimp only
  repeat' (first
    | with_reducible assumption | with_reducible refine kept_modAx ?_ _ _ | with_reducible refine kept_followStep ?_ _ _ _
    | with_reducible refine kept_camUnderrun ?_ _ _ _ | with_reducible refine kept_takeFollowed ?_ _ _ _ _
    | with_reducible refine kept_leaveFollow ?_ _ | split | fail_if_no_progress (with_reducible refine kept_mk (h := ?_)))

theorem kept_camFetch {z : Bool} {s0 s : State} (h : Kept z s0 s) (x1 : AxisId) : Kept z s0 (State.camFetch s x1) := by
  unfold State.camFetch
  try dsimp only
  repeat' (first
    | with_reducible assumption | with_reducible refine kept_fillCam ?_ _ | with_reducible refine kept_modAx ?_ _ _ | split
    | fail_if_no_progress (with_reducible refine kept_mk (h := ?_)))

theorem kept_startFollow {z : Bool} {s0 s : State} (h : Kept z s0 s) (x1 : AxisId) (x2 : FollowSt) : Kept z s0 (State.startFollow s x1 x2) := by
  unfold State.startFollow
  try dsimp only
  repeat' (first
    | with_reducible assumption | with_reducible refine kept_modAx ?_ _ _ | with_reducible refine kept_takeForms ?_ _
    | with_reducible refine kept_startMotion ?_ _ _ _ | split | fail_if_no_progress (with_reducible refine kept_mk (h := ?_)))

theorem kept_followStepEffect {z : Bool} {s0 s : State} (h : Kept z s0 s) (x1 : Desc) : Kept z s0 (State.followStepEffect s x1) := by
  unfold State.followStepEffect
  try dsimp only
  repeat' (first
    | with_reducible assumption | with_reducible refine kept_startFollow ?_ _ _ | with_reducible refine kept_planFollow ?_ _ _
    | with_reducible refine kept_laterOk ?_ _ _ _ | split | fail_if_no_progress (with_reducible refine kept_mk (h := ?_)))

theorem kept_execFollowStep {z : Bool} {s0 s : State} (h : Kept z s0 s) (x0 : ℕ) {t : State} (e : execFollowStep x0 s = .next t) : Kept z s0 t := by
  unfold execFollowStep at e
  first | (cases e; try dsimp only) | (split at e <;> cases e <;> try dsimp only)
  repeat' (first
    | with_reducible assumption | with_reducible refine kept_withEffect ?_ _ _ _ (fun _ _ _ => ?_)
    | with_reducible refine kept_followStepEffect ?_ _ | split | fail_if_no_progress (with_reducible refine kept_mk (h := ?_)))

theorem kept_followCamEffect {z : Bool} {s0 s : State} (h : Kept z s0 s) (x1 : Desc) (x2 : AxisId) (x3 : FollowSt) : Kept z s0 (State.followCamEffect s x1 x2 x3) := by
  unfold State.followCamEffect
  try dsimp only
  repeat' (first
    | with_reducible assumption | with_reducible refine kept_startFollow ?_ _ _ | with_reducible refine kept_planFollow ?_ _ _
    | with_reducible refine kept_laterOk ?_ _ _ _ | split | fail_if_no_progress (with_reducible refine kept_mk (h := ?_)))

theorem kept_execFollowCam {z : Bool} {s0 s : State} (h : Kept z s0 s) (x0 : ℕ) {t : State} (e : execFollowCam x0 s = .next t) : Kept z s0 t := by
  unfold execFollowCam at e
  first | (cases e; try dsimp only) | (split at e <;> cases e <;> try dsimp only)
  repeat' (first
    | with_reducible assumption | with_reducible refine kept_begin ?_ _ _ | with_reducible refine kept_refuseAhead ?_ _ _ _ _
    | with_reducible refine kept_camUnderrun ?_ _ _ _ | with_reducible refine kept_keepAxis ?_ _ _
    | with_reducible refine kept_followCamEffect ?_ _ _ _ | with_reducible refine kept_takeOver ?_ _ | split
    | fail_if_no_progress (with_reducible refine kept_mk (h := ?_)) | with_reducible refine kept_fst ?_ (by assumption)
    | with_reducible refine kept_snd ?_ (by assumption) | dsimp only)

theorem kept_execTriggerArm {z : Bool} {s0 s : State} (h : Kept z s0 s) (x0 : ℕ) {t : State} (e : execTriggerArm x0 s = .next t) : Kept z s0 t := by
  unfold execTriggerArm at e
  first | (cases e; try dsimp only) | (split at e <;> cases e <;> try dsimp only)
  repeat' (first
    | with_reducible assumption | with_reducible refine kept_withEffect ?_ _ _ _ (fun _ _ _ => ?_) | split
    | fail_if_no_progress (with_reducible refine kept_mk (h := ?_)))

theorem kept_execStepInputEdge {z : Bool} {s0 s : State} (h : Kept z s0 s) (x0 : Fin 16) (x1 : StepEdge) {t : State} (e : execStepInputEdge x0 x1 s = .next t) : Kept z s0 t := by
  unfold execStepInputEdge at e
  first | (cases e; try dsimp only) | (split at e <;> cases e <;> try dsimp only)
  repeat' (first
    | with_reducible assumption | with_reducible refine kept_modSd ?_ _ _ | with_reducible refine kept_incReg ?_ _ | split
    | fail_if_no_progress (with_reducible refine kept_mk (h := ?_)))

theorem kept_execStepPairOpen {z : Bool} {s0 s : State} (h : Kept z s0 s) (x0 : Fin 16) {t : State} (e : execStepPairOpen x0 s = .next t) : Kept z s0 t := by
  unfold execStepPairOpen at e
  first | (cases e; try dsimp only) | (split at e <;> cases e <;> try dsimp only)
  repeat' (first
    | with_reducible assumption | with_reducible refine kept_orReg ?_ _ _ | with_reducible refine kept_modSd ?_ _ _ | split
    | fail_if_no_progress (with_reducible refine kept_mk (h := ?_)))

theorem kept_execStepPairRestore {z : Bool} {s0 s : State} (h : Kept z s0 s) (x0 : Fin 16) {t : State} (e : execStepPairRestore x0 s = .next t) : Kept z s0 t := by
  unfold execStepPairRestore at e
  first | (cases e; try dsimp only) | (split at e <;> cases e <;> try dsimp only)
  repeat' (first
    | with_reducible assumption | with_reducible refine kept_modSd ?_ _ _ | with_reducible refine kept_orReg ?_ _ _ | split
    | fail_if_no_progress (with_reducible refine kept_mk (h := ?_)))

/-! ### Feedback -/

theorem kept_putCount {z : Bool} {s0 s : State} (h : Kept z s0 s) (x1 : Fin 24) (x2 : ℤ) : Kept z s0 (State.putCount s x1 x2) := by
  unfold State.putCount
  try dsimp only
  repeat' (first
    | with_reducible assumption | with_reducible refine kept_modFbc ?_ _ _ | with_reducible refine kept_orReg ?_ _ _ | split
    | fail_if_no_progress (with_reducible refine kept_mk (h := ?_)))

theorem kept_fbClearSuspect {z : Bool} {s0 s : State} (h : Kept z s0 s) (x1 : Master) (x2 : Fin 24) : Kept z s0 (State.fbClearSuspect s x1 x2) := by
  unfold State.fbClearSuspect
  try dsimp only
  repeat' (first
    | with_reducible assumption | with_reducible refine kept_modFbc ?_ _ _ | split
    | fail_if_no_progress (with_reducible refine kept_mk (h := ?_)))

theorem kept_execFbSuspectClear {z : Bool} {s0 s : State} (h : Kept z s0 s) (x0 : Master) (x1 : Fin 24) {t : State} (e : execFbSuspectClear x0 x1 s = .next t) : Kept z s0 t := by
  unfold execFbSuspectClear at e
  first | (cases e; try dsimp only) | (split at e <;> cases e <;> try dsimp only)
  repeat' (first
    | with_reducible assumption | with_reducible refine kept_fbClearSuspect ?_ _ _ | split
    | fail_if_no_progress (with_reducible refine kept_mk (h := ?_)))

theorem kept_notePast {z : Bool} {s0 s : State} (h : Kept z s0 s) (x1 : Fin 24) (x2 : ℕ) (x3 : Option ℤ) : Kept z s0 (State.notePast s x1 x2 x3) := by
  unfold State.notePast
  try dsimp only
  repeat' (first
    | with_reducible assumption | with_reducible refine kept_modFbc ?_ _ _ | split
    | fail_if_no_progress (with_reducible refine kept_mk (h := ?_)))

theorem kept_noteNow {z : Bool} {s0 s : State} (h : Kept z s0 s) (x1 : Fin 24) : Kept z s0 (State.noteNow s x1) := by
  unfold State.noteNow
  try dsimp only
  repeat' (first
    | with_reducible assumption | with_reducible refine kept_notePast ?_ _ _ _ | split
    | fail_if_no_progress (with_reducible refine kept_mk (h := ?_)))

theorem kept_fbIgnored {z : Bool} {s0 s : State} (h : Kept z s0 s) (x1 : Fin 24) : Kept z s0 (State.fbIgnored s x1) := by
  unfold State.fbIgnored
  try dsimp only
  repeat' (first
    | with_reducible assumption | with_reducible refine kept_orReg ?_ _ _ | split
    | fail_if_no_progress (with_reducible refine kept_mk (h := ?_)))

theorem kept_fbCfgWrite {z : Bool} {s0 s : State} (h : Kept z s0 s) (x1 : Master) (x2 : Fin 24) (x3 : Word) : Kept z s0 (State.fbCfgWrite s x1 x2 x3) := by
  unfold State.fbCfgWrite
  try dsimp only
  repeat' (first
    | with_reducible assumption | with_reducible refine kept_gate ?_ _ _ _ | with_reducible refine kept_fbIgnored ?_ _
    | with_reducible refine kept_storeWord ?_ _ _ _ | with_reducible refine kept_modFbc ?_ _ _ | split
    | fail_if_no_progress (with_reducible refine kept_mk (h := ?_)))

theorem kept_fbReval {z : Bool} {s0 s : State} (h : Kept z s0 s) (x1 : Master) (x2 : Fin 24) : Kept z s0 (State.fbReval s x1 x2) := by
  unfold State.fbReval
  try dsimp only
  repeat' (first
    | with_reducible assumption | with_reducible refine kept_modFbc ?_ _ _ | split
    | fail_if_no_progress (with_reducible refine kept_mk (h := ?_)))

theorem kept_fbSetcnt {z : Bool} {s0 s : State} (h : Kept z s0 s) (x1 : Master) (x2 : Fin 24) : Kept z s0 (State.fbSetcnt s x1 x2) := by
  unfold State.fbSetcnt
  try dsimp only
  repeat' (first
    | with_reducible assumption | with_reducible refine kept_modFbc ?_ _ _ | with_reducible refine kept_noteNow ?_ _
    | with_reducible refine kept_putCount ?_ _ _ | split | fail_if_no_progress (with_reducible refine kept_mk (h := ?_)))

theorem kept_fbIndexWrite {z : Bool} {s0 s : State} (h : Kept z s0 s) (x1 : Master) (x2 : ℕ) (x3 : Word) : Kept z s0 (State.fbIndexWrite s x1 x2 x3) := by
  unfold State.fbIndexWrite
  try dsimp only
  repeat' (first
    | with_reducible assumption | with_reducible refine kept_gate ?_ _ _ _ | with_reducible refine kept_modFbc ?_ _ _
    | with_reducible refine kept_storeWord ?_ _ _ _ | split | fail_if_no_progress (with_reducible refine kept_mk (h := ?_)))

theorem kept_fbLimitWrite {z : Bool} {s0 s : State} (h : Kept z s0 s) (x1 : Master) (x2 : ℕ) (x3 : Word) : Kept z s0 (State.fbLimitWrite s x1 x2 x3) := by
  unfold State.fbLimitWrite
  try dsimp only
  repeat' (first
    | with_reducible assumption | with_reducible refine kept_gate ?_ _ _ _ | with_reducible refine kept_storeWord ?_ _ _ _
    | with_reducible refine kept_fbIgnored ?_ _ | with_reducible refine kept_modFbc ?_ _ _ | with_reducible refine kept_noteNow ?_ _
    | split | fail_if_no_progress (with_reducible refine kept_mk (h := ?_)))

theorem kept_emuDrive {z : Bool} {s0 s : State} (h : Kept z s0 s) (x1 : Fin 4) (x2 : ℕ) (x3 : BitVec 2) (x4 : Bool) : Kept z s0 (State.emuDrive s x1 x2 x3 x4) := by
  unfold State.emuDrive
  try dsimp only
  repeat' (first
    | with_reducible assumption | with_reducible refine kept_emit ?_ _ | with_reducible refine kept_modEmu ?_ _ _ | split
    | fail_if_no_progress (with_reducible refine kept_mk (h := ?_)))

theorem kept_emuLevel {z : Bool} {s0 s : State} (h : Kept z s0 s) (x1 : Fin 4) (x2 : ℕ) (x3 : Bool) : Kept z s0 (State.emuLevel s x1 x2 x3) := by
  unfold State.emuLevel
  try dsimp only
  repeat' (first
    | with_reducible assumption | with_reducible refine kept_emuDrive ?_ _ _ _ _ | split
    | fail_if_no_progress (with_reducible refine kept_mk (h := ?_)))

theorem kept_copyZ {z : Bool} {s0 s : State} (h : Kept z s0 s) (x1 : Fin 4) (x2 : Bool) (x3 : ℕ) : Kept z s0 (State.copyZ s x1 x2 x3) := by
  unfold State.copyZ
  try dsimp only
  repeat' (first
    | with_reducible assumption | with_reducible refine kept_emuLevel ?_ _ _ _ | split
    | fail_if_no_progress (with_reducible refine kept_mk (h := ?_)))

theorem kept_execFbSetcnt {z : Bool} {s0 s : State} (h : Kept z s0 s) (x0 : Master) (x1 : Fin 24) {t : State} (e : execFbSetcnt x0 x1 s = .next t) : Kept z s0 t := by
  unfold execFbSetcnt at e
  first | (cases e; try dsimp only) | (split at e <;> cases e <;> try dsimp only)
  repeat' (first
    | with_reducible assumption | with_reducible refine kept_fbSetcnt ?_ _ _ | with_reducible refine kept_noted ?_ _ _ | split
    | fail_if_no_progress (with_reducible refine kept_mk (h := ?_)))

theorem kept_shiftAxis {z : Bool} {s0 s : State} (h : Kept z s0 s) (x1 : AxisId) (x2 : ℤ) : Kept z s0 (State.shiftAxis s x1 x2) := by
  unfold State.shiftAxis
  try dsimp only
  repeat' (first
    | with_reducible assumption | with_reducible refine kept_modTt ?_ _ _ | with_reducible refine kept_decideTarget ?_ _ _ _ _
    | with_reducible refine kept_runVelocity ?_ _ _ _ _ | split | fail_if_no_progress (with_reducible refine kept_mk (h := ?_)))

theorem kept_execFbIndexConfigWrite {z : Bool} {s0 s : State} (h : Kept z s0 s) (x0 : Master) (x1 : ℕ) (x2 : Word) {t : State} (e : execFbIndexConfigWrite x0 x1 x2 s = .next t) : Kept z s0 t := by
  unfold execFbIndexConfigWrite at e
  first | (cases e; try dsimp only) | (split at e <;> cases e <;> try dsimp only)
  repeat' (first
    | with_reducible assumption | with_reducible refine kept_fbIndexWrite ?_ _ _ _ | split
    | fail_if_no_progress (with_reducible refine kept_mk (h := ?_)))

theorem kept_execFbSoftLimitWrite {z : Bool} {s0 s : State} (h : Kept z s0 s) (x0 : Master) (x1 : ℕ) (x2 : Word) {t : State} (e : execFbSoftLimitWrite x0 x1 x2 s = .next t) : Kept z s0 t := by
  unfold execFbSoftLimitWrite at e
  first | (cases e; try dsimp only) | (split at e <;> cases e <;> try dsimp only)
  repeat' (first
    | with_reducible assumption | with_reducible refine kept_fbLimitWrite ?_ _ _ _ | split
    | fail_if_no_progress (with_reducible refine kept_mk (h := ?_)))

theorem kept_latchFeedback {z : Bool} {s0 s : State} (h : Kept z s0 s) : Kept z s0 (State.latchFeedback s) := by
  unfold State.latchFeedback
  try dsimp only
  repeat' (first
    | with_reducible assumption | with_reducible refine kept_forAll ?_ (fun _ _ _ => ?_) | with_reducible refine kept_modFbc ?_ _ _
    | with_reducible refine kept_modFbx ?_ _ _ | split | fail_if_no_progress (with_reducible refine kept_mk (h := ?_)))

theorem kept_fbCheck {z : Bool} {s0 s : State} (h : Kept z s0 s) (x1 : AxisId) : Kept z s0 (State.fbCheck s x1) := by
  unfold State.fbCheck
  try dsimp only
  repeat' (first
    | with_reducible assumption | with_reducible refine kept_modFbx ?_ _ _ | with_reducible refine kept_orReg ?_ _ _
    | with_reducible refine kept_incReg ?_ _ | with_reducible refine kept_shiftAxis ?_ _ _ | split
    | fail_if_no_progress (with_reducible refine kept_mk (h := ?_)))

theorem kept_copyCount {z : Bool} {s0 s : State} (h : Kept z s0 s) (x1 : Fin 4) (x2 : ℤ) (x3 : ℕ) : Kept z s0 (State.copyCount s x1 x2 x3) := by
  unfold State.copyCount
  try dsimp only
  repeat' (first
    | with_reducible assumption | with_reducible refine kept_modEmu ?_ _ _ | with_reducible refine kept_emit ?_ _ | split
    | fail_if_no_progress (with_reducible refine kept_mk (h := ?_)))

theorem kept_illegal {z : Bool} {s0 s : State} (h : Kept z s0 s) (x1 : Fin 24) : Kept z s0 (State.illegal s x1) := by
  unfold State.illegal
  try dsimp only
  repeat' (first
    | with_reducible assumption | with_reducible refine kept_incReg ?_ _ | with_reducible refine kept_orReg ?_ _ _
    | with_reducible refine kept_modFbc ?_ _ _ | with_reducible refine kept_raise ?_ _ _ _ _ | split
    | fail_if_no_progress (with_reducible refine kept_mk (h := ?_)))

theorem kept_execFbStateChange {z : Bool} {s0 s : State} (h : Kept z s0 s) (x0 : Fin 24) (x1 : Bool) (x2 : Bool) (x3 : ℕ) {t : State} (e : execFbStateChange x0 x1 x2 x3 s = .next t) : Kept z s0 t := by
  unfold execFbStateChange at e
  first | (cases e; try dsimp only) | (split at e <;> cases e <;> try dsimp only)
  repeat' (first
    | with_reducible assumption | with_reducible refine kept_modFbc ?_ _ _ | with_reducible refine kept_forAll ?_ (fun _ _ _ => ?_)
    | with_reducible refine kept_notePast ?_ _ _ _ | with_reducible refine kept_putCount ?_ _ _
    | with_reducible refine kept_copyCount ?_ _ _ _ | with_reducible refine kept_illegal ?_ _ | split
    | fail_if_no_progress (with_reducible refine kept_mk (h := ?_)))

theorem kept_wireFail {z : Bool} {s0 s : State} (h : Kept z s0 s) (x1 : Fin 24) (x2 : Fin 3) (x3 : Bool) : Kept z s0 (State.wireFail s x1 x2 x3) := by
  unfold State.wireFail
  try dsimp only
  repeat' (first
    | with_reducible assumption | with_reducible refine kept_modFbc ?_ _ _ | with_reducible refine kept_raise ?_ _ _ _ _
    | with_reducible refine kept_forAll ?_ (fun _ _ _ => ?_) | with_reducible refine kept_faultAxis ?_ _ _ | split
    | fail_if_no_progress (with_reducible refine kept_mk (h := ?_)))

theorem kept_moveCount {z : Bool} {s0 s : State} (h : Kept z s0 s) (x1 : Fin 24) (x2 : ℤ) (x3 : ℤ) : Kept z s0 (State.moveCount s x1 x2 x3) := by
  unfold State.moveCount
  try dsimp only
  repeat' (first
    | with_reducible assumption | with_reducible refine kept_putCount ?_ _ _ | split
    | fail_if_no_progress (with_reducible refine kept_mk (h := ?_)))

theorem kept_execFbSincosConversion {z : Bool} {s0 s : State} (h : Kept z s0 s) (x0 : Fin 24) (x1 : ℕ) (x2 : ℕ) (x3 : ℕ) {t : State} (e : execFbSincosConversion x0 x1 x2 x3 s = .next t) : Kept z s0 t := by
  unfold execFbSincosConversion at e
  first | (cases e; try dsimp only) | (split at e <;> cases e <;> try dsimp only)
  repeat' (first
    | with_reducible assumption | with_reducible refine kept_modFbc ?_ _ _ | with_reducible refine kept_wireFail ?_ _ _ _
    | with_reducible refine kept_moveCount ?_ _ _ _ | with_reducible refine kept_illegal ?_ _
    | with_reducible refine kept_putCount ?_ _ _ | with_reducible refine kept_notePast ?_ _ _ _ | split
    | fail_if_no_progress (with_reducible refine kept_mk (h := ?_)))

theorem kept_execFbWireCheckFail {z : Bool} {s0 s : State} (h : Kept z s0 s) (x0 : Fin 24) (x1 : Fin 3) (x2 : Bool) {t : State} (e : execFbWireCheckFail x0 x1 x2 s = .next t) : Kept z s0 t := by
  unfold execFbWireCheckFail at e
  first | (cases e; try dsimp only) | (split at e <;> cases e <;> try dsimp only)
  repeat' (first
    | with_reducible assumption | with_reducible refine kept_wireFail ?_ _ _ _ | split
    | fail_if_no_progress (with_reducible refine kept_mk (h := ?_)))

theorem kept_execFbChannelValid {z : Bool} {s0 s : State} (h : Kept z s0 s) (x0 : Fin 24) {t : State} (e : execFbChannelValid x0 s = .next t) : Kept z s0 t := by
  unfold execFbChannelValid at e
  first | (cases e; try dsimp only) | (split at e <;> cases e <;> try dsimp only)
  repeat' (first
    | with_reducible assumption | with_reducible refine kept_modFbc ?_ _ _ | with_reducible refine kept_noteNow ?_ _
    | with_reducible refine kept_putCount ?_ _ _ | split | fail_if_no_progress (with_reducible refine kept_mk (h := ?_)))

theorem kept_firstIndex {z : Bool} {s0 s : State} (h : Kept z s0 s) (x1 : Fin 24) (x2 : ℤ) : Kept z s0 (State.firstIndex s x1 x2) := by
  unfold State.firstIndex
  try dsimp only
  repeat' (first
    | with_reducible assumption | with_reducible refine kept_modFbc ?_ _ _ | with_reducible refine kept_forAll ?_ (fun _ _ _ => ?_)
    | with_reducible refine kept_putCount ?_ _ _ | with_reducible refine kept_modAx ?_ _ _ | split
    | fail_if_no_progress (with_reducible refine kept_mk (h := ?_)))

theorem kept_checkIndex {z : Bool} {s0 s : State} (h : Kept z s0 s) (x1 : Fin 24) (x2 : ℤ) : Kept z s0 (State.checkIndex s x1 x2) := by
  unfold State.checkIndex
  try dsimp only
  repeat' (first
    | with_reducible assumption | with_reducible refine kept_modFbc ?_ _ _ | with_reducible refine kept_putCount ?_ _ _
    | with_reducible refine kept_raise ?_ _ _ _ _ | with_reducible refine kept_forAll ?_ (fun _ _ _ => ?_)
    | with_reducible refine kept_faultAxis ?_ _ _ | split | fail_if_no_progress (with_reducible refine kept_mk (h := ?_)))

theorem kept_execIndexQualified {z : Bool} {s0 s : State} (h : Kept z s0 s) (x0 : Fin 24) (x1 : IndexEdge) {t : State} (e : execIndexQualified x0 x1 s = .next t) : Kept z s0 t := by
  unfold execIndexQualified at e
  first | (cases e; try dsimp only) | (split at e <;> cases e <;> try dsimp only)
  repeat' (first
    | with_reducible assumption | with_reducible refine kept_forAll ?_ (fun _ _ _ => ?_) | with_reducible refine kept_modFbc ?_ _ _
    | with_reducible refine kept_copyZ ?_ _ _ _ | with_reducible refine kept_orReg ?_ _ _ | with_reducible refine kept_setReg ?_ _ _
    | with_reducible refine kept_notePast ?_ _ _ _ | with_reducible refine kept_firstIndex ?_ _ _
    | with_reducible refine kept_checkIndex ?_ _ _ | split | fail_if_no_progress (with_reducible refine kept_mk (h := ?_)))

theorem kept_execFbCfgWrite {z : Bool} {s0 s : State} (h : Kept z s0 s) (x0 : Master) (x1 : Fin 24) (x2 : Word) {t : State} (e : execFbCfgWrite x0 x1 x2 s = .next t) : Kept z s0 t := by
  unfold execFbCfgWrite at e
  first | (cases e; try dsimp only) | (split at e <;> cases e <;> try dsimp only)
  repeat' (first
    | with_reducible assumption | with_reducible refine kept_fbCfgWrite ?_ _ _ _ | split
    | fail_if_no_progress (with_reducible refine kept_mk (h := ?_)))

theorem kept_execFbReval {z : Bool} {s0 s : State} (h : Kept z s0 s) (x0 : Master) (x1 : Fin 24) {t : State} (e : execFbReval x0 x1 s = .next t) : Kept z s0 t := by
  unfold execFbReval at e
  first | (cases e; try dsimp only) | (split at e <;> cases e <;> try dsimp only)
  repeat' (first
    | with_reducible assumption | with_reducible refine kept_fbReval ?_ _ _ | with_reducible refine kept_noted ?_ _ _ | split
    | fail_if_no_progress (with_reducible refine kept_mk (h := ?_)))

/-! ### Probes -/

theorem kept_prbCfgWrite {z : Bool} {s0 s : State} (h : Kept z s0 s) (x1 : Master) (x2 : Fin 16) (x3 : Word) : Kept z s0 (State.prbCfgWrite s x1 x2 x3) := by
  unfold State.prbCfgWrite
  try dsimp only
  repeat' (first
    | with_reducible assumption | with_reducible refine kept_plainWrite ?_ _ _ _ | split
    | fail_if_no_progress (with_reducible refine kept_mk (h := ?_)))

theorem kept_emuCfgWrite {z : Bool} {s0 s : State} (h : Kept z s0 s) (x1 : Master) (x2 : Fin 4) (x3 : Word) : Kept z s0 (State.emuCfgWrite s x1 x2 x3) := by
  unfold State.emuCfgWrite
  try dsimp only
  repeat' (first
    | with_reducible assumption | with_reducible refine kept_gate ?_ _ _ _ | with_reducible refine kept_orReg ?_ _ _
    | with_reducible refine kept_storeWord ?_ _ _ _ | with_reducible refine kept_emuDrive ?_ _ _ _ _
    | with_reducible refine kept_modEmu ?_ _ _ | with_reducible refine kept_emuLevel ?_ _ _ _ | split
    | fail_if_no_progress (with_reducible refine kept_mk (h := ?_)))

theorem kept_emuTick {z : Bool} {s0 s : State} (h : Kept z s0 s) (x1 : Fin 4) : Kept z s0 (State.emuTick s x1) := by
  unfold State.emuTick
  try dsimp only
  repeat' (first
    | with_reducible assumption | with_reducible refine kept_orReg ?_ _ _ | with_reducible refine kept_addReg ?_ _ _
    | with_reducible refine kept_modEmu ?_ _ _ | with_reducible refine kept_emuLevel ?_ _ _ _ | with_reducible refine kept_emit ?_ _
    | split | fail_if_no_progress (with_reducible refine kept_mk (h := ?_)))

theorem kept_probeShot {z : Bool} {s0 s : State} (h : Kept z s0 s) (x1 : Fin 16) (x2 : Bool) (x3 : ℤ) : Kept z s0 (State.probeShot s x1 x2 x3) := by
  unfold State.probeShot
  try dsimp only
  repeat' (first
    | with_reducible assumption | with_reducible refine kept_forAll ?_ (fun _ _ _ => ?_) | with_reducible refine kept_setReg ?_ _ _
    | with_reducible refine kept_raise ?_ _ _ _ _ | split | fail_if_no_progress (with_reducible refine kept_mk (h := ?_)))

theorem kept_execProbeEdge {z : Bool} {s0 s : State} (h : Kept z s0 s) (x0 : Fin 16) (x1 : Bool) (x2 : ℕ) {t : State} (e : execProbeEdge x0 x1 x2 s = .next t) : Kept z s0 t := by
  unfold execProbeEdge at e
  first | (cases e; try dsimp only) | (split at e <;> cases e <;> try dsimp only)
  repeat' (first
    | with_reducible assumption | with_reducible refine kept_clrReg ?_ _ _ | with_reducible refine kept_probeShot ?_ _ _ _ | split
    | fail_if_no_progress (with_reducible refine kept_mk (h := ?_)))

theorem kept_execEmuCfgWrite {z : Bool} {s0 s : State} (h : Kept z s0 s) (x0 : Master) (x1 : Fin 4) (x2 : Word) {t : State} (e : execEmuCfgWrite x0 x1 x2 s = .next t) : Kept z s0 t := by
  unfold execEmuCfgWrite at e
  first | (cases e; try dsimp only) | (split at e <;> cases e <;> try dsimp only)
  repeat' (first
    | with_reducible assumption | with_reducible refine kept_emuCfgWrite ?_ _ _ _ | split
    | fail_if_no_progress (with_reducible refine kept_mk (h := ?_)))

end Sys2Proof.Machine
end

