-- ==== Sys2Proof/Laws/KeptCoil.lean ====
section
/-! SUPPORT. Every operation of the coils, the bridges, supervision, the weighbridge and the heavy axes keeps what `Kept` says. -/

set_option linter.unreachableTactic false
set_option linter.unusedTactic false
set_option linter.unusedVariables false

namespace Sys2Proof.Machine

/-! ### Legs -/

theorem kept_keepHighs {z : Bool} {s0 s : State} (h : Kept z s0 s) (x1 : Bool) (x2 : AxisId) : Kept z s0 (State.keepHighs s x1 x2) := by
  unfold State.keepHighs
  try dsimp only
  repeat' (first
    | with_reducible assumption | with_reducible refine kept_modCu ?_ _ _ | split
    | fail_if_no_progress (with_reducible refine kept_mk (h := ?_)))

/-! ### Coil -/

theorem kept_coilDone {z : Bool} {s0 s : State} (h : Kept z s0 s) (x1 : ℕ) (x2 : Word) (x3 : Word) (x4 : FrameNo) : Kept z s0 (State.coilDone s x1 x2 x3 x4) := by
  unfold State.coilDone
  try dsimp only
  repeat' (first
    | with_reducible assumption | with_reducible refine kept_finishOk ?_ _ _ _ _ | split
    | fail_if_no_progress (with_reducible refine kept_mk (h := ?_)))

theorem kept_execIdentifyComplete {z : Bool} {s0 s : State} (h : Kept z s0 s) (x0 : AxisId) {t : State} (e : execIdentifyComplete x0 s = .next t) : Kept z s0 t := by
  unfold execIdentifyComplete at e
  first | (cases e; try dsimp only) | (split at e <;> cases e <;> try dsimp only)
  repeat' (first
    | with_reducible assumption | with_reducible refine kept_coilDone ?_ _ _ _ _ | with_reducible refine kept_enterHold ?_ _ | split
    | fail_if_no_progress (with_reducible refine kept_mk (h := ?_)))

theorem kept_beginSeq {z : Bool} {s0 s : State} (h : Kept z s0 s) (x1 : AxisId) (x2 : Phase) (x3 : SeqSt) : Kept z s0 (State.beginSeq s x1 x2 x3) := by
  unfold State.beginSeq
  try dsimp only
  repeat' (first
    | with_reducible assumption | with_reducible refine kept_modCd ?_ _ _ | split
    | fail_if_no_progress (with_reducible refine kept_mk (h := ?_)))

theorem kept_detached {z : Bool} {s0 s : State} (h : Kept z s0 s) (x1 : AxisId) (x2 : ℕ) (x3 : ℕ) : Kept z s0 (State.detached s x1 x2 x3) := by
  unfold State.detached
  try dsimp only
  repeat' (first
    | with_reducible assumption | with_reducible refine kept_raise ?_ _ _ _ _ | with_reducible refine kept_bridgeFaulted ?_ _ _
    | with_reducible refine kept_modSg ?_ _ _ | split | fail_if_no_progress (with_reducible refine kept_mk (h := ?_)))

theorem kept_latchLegs {z : Bool} {s0 s : State} (h : Kept z s0 s) (x1 : AxisId) (x2 : List ℕ) : Kept z s0 (State.latchLegs s x1 x2) := by
  unfold State.latchLegs
  try dsimp only
  repeat' (first
    | with_reducible assumption | with_reducible refine kept_modCu ?_ _ _ | split
    | fail_if_no_progress (with_reducible refine kept_mk (h := ?_)))

theorem kept_maskEffect {z : Bool} {s0 s : State} (h : Kept z s0 s) (x1 : Desc) : Kept z s0 (State.maskEffect s x1) := by
  unfold State.maskEffect
  try dsimp only
  repeat' (first
    | with_reducible assumption | with_reducible refine kept_modBr ?_ _ _ | split
    | fail_if_no_progress (with_reducible refine kept_mk (h := ?_)))

theorem kept_writeId {z : Bool} {s0 s : State} (h : Kept z s0 s) (x1 : AxisId) (x2 : ℕ) (x3 : Bool) (x4 : ℕ) (x5 : ℕ) (x6 : ℕ) (x7 : ℕ) : Kept z s0 (State.writeId s x1 x2 x3 x4 x5 x6 x7) := by
  unfold State.writeId
  try dsimp only
  repeat' (first
    | with_reducible assumption | with_reducible refine kept_setReg ?_ _ _ | split
    | fail_if_no_progress (with_reducible refine kept_mk (h := ?_)))

theorem kept_writePdEn {z : Bool} {s0 s : State} (h : Kept z s0 s) (x1 : AxisId) (x2 : ℕ) : Kept z s0 (State.writePdEn s x1 x2) := by
  unfold State.writePdEn
  try dsimp only
  repeat' (first
    | with_reducible assumption | with_reducible refine kept_modAx ?_ _ _ | with_reducible refine kept_runPhase ?_ _ | split
    | fail_if_no_progress (with_reducible refine kept_mk (h := ?_)))

theorem kept_nextStep {z : Bool} {s0 s : State} (h : Kept z s0 s) (x1 : AxisId) (x2 : SeqSt) (x3 : Phase) : Kept z s0 (State.nextStep s x1 x2 x3) := by
  unfold State.nextStep
  try dsimp only
  repeat' (first
    | with_reducible assumption | with_reducible refine kept_modCd ?_ _ _ | split
    | fail_if_no_progress (with_reducible refine kept_mk (h := ?_)))

theorem kept_execEnergisingRampEnd {z : Bool} {s0 s : State} (h : Kept z s0 s) (x0 : AxisId) {t : State} (e : execEnergisingRampEnd x0 s = .next t) : Kept z s0 t := by
  unfold execEnergisingRampEnd at e
  first | (cases e; try dsimp only) | (split at e <;> cases e <;> try dsimp only)
  repeat' (first
    | with_reducible assumption | with_reducible refine kept_modCd ?_ _ _ | with_reducible refine kept_nextStep ?_ _ _ _ | split
    | fail_if_no_progress (with_reducible refine kept_mk (h := ?_)))

theorem kept_energizeFails {z : Bool} {s0 s : State} (h : Kept z s0 s) (x1 : AxisId) (x2 : SeqSt) (x3 : Word) : Kept z s0 (State.energizeFails s x1 x2 x3) := by
  unfold State.energizeFails
  try dsimp only
  repeat' (first
    | with_reducible assumption | with_reducible refine kept_finish ?_ _ _ _ _ _ | with_reducible refine kept_modCd ?_ _ _
    | with_reducible refine kept_bridgeFault ?_ _ | with_reducible refine kept_parkNow ?_ _ | split
    | fail_if_no_progress (with_reducible refine kept_mk (h := ?_)))

theorem kept_associate {z : Bool} {s0 s : State} (h : Kept z s0 s) (x1 : AxisId) : Kept z s0 (State.associate s x1) := by
  unfold State.associate
  try dsimp only
  repeat' (first
    | with_reducible assumption | with_reducible refine kept_modFbx ?_ _ _ | split
    | fail_if_no_progress (with_reducible refine kept_mk (h := ?_)))

theorem kept_execEnergizeComplete {z : Bool} {s0 s : State} (h : Kept z s0 s) (x0 : AxisId) {t : State} (e : execEnergizeComplete x0 s = .next t) : Kept z s0 t := by
  unfold execEnergizeComplete at e
  first | (cases e; try dsimp only) | (split at e <;> cases e <;> try dsimp only)
  repeat' (first
    | with_reducible assumption | with_reducible refine kept_coilDone ?_ _ _ _ _ | with_reducible refine kept_associate ?_ _
    | with_reducible refine kept_enterHold ?_ _ | split | fail_if_no_progress (with_reducible refine kept_mk (h := ?_)))

theorem kept_identifyEffect {z : Bool} {s0 s : State} (h : Kept z s0 s) (x1 : Desc) : Kept z s0 (State.identifyEffect s x1) := by
  unfold State.identifyEffect
  try dsimp only
  repeat' (first
    | with_reducible assumption | with_reducible refine kept_moveTo ?_ _ _ _ _ _ | with_reducible refine kept_modTt ?_ _ _
    | with_reducible refine kept_beginSeq ?_ _ _ _ | split | fail_if_no_progress (with_reducible refine kept_mk (h := ?_)))

theorem kept_execIdentify {z : Bool} {s0 s : State} (h : Kept z s0 s) (x0 : ℕ) {t : State} (e : execIdentify x0 s = .next t) : Kept z s0 t := by
  unfold execIdentify at e
  first | (cases e; try dsimp only) | (split at e <;> cases e <;> try dsimp only)
  repeat' (first
    | with_reducible assumption | with_reducible refine kept_withEffect ?_ _ _ _ (fun _ _ _ => ?_)
    | with_reducible refine kept_identifyEffect ?_ _ | split | fail_if_no_progress (with_reducible refine kept_mk (h := ?_)))

theorem kept_energizeEffect {z : Bool} {s0 s : State} (h : Kept z s0 s) (x1 : Desc) : Kept z s0 (State.energizeEffect s x1) := by
  unfold State.energizeEffect
  try dsimp only
  repeat' (first
    | with_reducible assumption | with_reducible refine kept_beginSeq ?_ _ _ _ | with_reducible refine kept_writePdEn ?_ _ _
    | with_reducible refine kept_laterOk ?_ _ _ _ | with_reducible refine kept_modCd ?_ _ _ | with_reducible refine kept_modHv ?_ _ _
    | split | fail_if_no_progress (with_reducible refine kept_mk (h := ?_)))

theorem kept_execEnergize {z : Bool} {s0 s : State} (h : Kept z s0 s) (x0 : ℕ) {t : State} (e : execEnergize x0 s = .next t) : Kept z s0 t := by
  unfold execEnergize at e
  first | (cases e; try dsimp only) | (split at e <;> cases e <;> try dsimp only)
  repeat' (first
    | with_reducible assumption | with_reducible refine kept_withEffect ?_ _ _ _ (fun _ _ _ => ?_)
    | with_reducible refine kept_energizeEffect ?_ _ | split | fail_if_no_progress (with_reducible refine kept_mk (h := ?_)))

theorem kept_execMaskSet {z : Bool} {s0 s : State} (h : Kept z s0 s) (x0 : ℕ) {t : State} (e : execMaskSet x0 s = .next t) : Kept z s0 t := by
  unfold execMaskSet at e
  first | (cases e; try dsimp only) | (split at e <;> cases e <;> try dsimp only)
  repeat' (first
    | with_reducible assumption | with_reducible refine kept_withEffect ?_ _ _ _ (fun _ _ _ => ?_)
    | with_reducible refine kept_maskEffect ?_ _ | split | fail_if_no_progress (with_reducible refine kept_mk (h := ?_)))

theorem kept_formR {z : Bool} {s0 s : State} (h : Kept z s0 s) (x1 : Coil) : Kept z s0 (State.formR s x1).1 := by
  unfold State.formR
  try dsimp only
  repeat' (first
    | with_reducible assumption | with_reducible refine kept_drawFree ?_ | split
    | fail_if_no_progress (with_reducible refine kept_mk (h := ?_)))

theorem kept_shortSettle {z : Bool} {s0 s : State} (h : Kept z s0 s) (x1 : AxisId) (x2 : List (Bool × ℤ)) : Kept z s0 (State.shortSettle s x1 x2) := by
  unfold State.shortSettle
  try dsimp only
  repeat' (first
    | with_reducible assumption | with_reducible refine kept_forAll ?_ (fun _ _ _ => ?_) | with_reducible refine kept_latchLegs ?_ _ _
    | with_reducible refine kept_bridgeFaulted ?_ _ _ | with_reducible refine kept_raise ?_ _ _ _ _ | split
    | fail_if_no_progress (with_reducible refine kept_mk (h := ?_)))

theorem kept_openShort {z : Bool} {s0 s : State} (h : Kept z s0 s) (x : AxisId) (q : Option SeqSt) (ra rb : Int) {t : State}
    (e : State.openShort s x q ra rb = some t) : Kept z s0 t := by
  unfold State.openShort at e
  dsimp only at e
  repeat' (split at e)
  all_goals first | (cases e; done) | cases e
  · exact kept_shortSettle h _ _
  · exact kept_detached h _ _ _
  · exact kept_energizeFails (kept_raise h _ _ _ _) _ _ _
  · exact kept_detached h _ _ _

theorem kept_finalRamp {z : Bool} {s0 s : State} (h : Kept z s0 s) (x1 : AxisId) (x2 : SeqSt) : Kept z s0 (State.finalRamp s x1 x2) := by
  unfold State.finalRamp
  try dsimp only
  repeat' (first
    | with_reducible assumption | with_reducible refine kept_modCd ?_ _ _ | with_reducible refine kept_nextStep ?_ _ _ _ | split
    | fail_if_no_progress (with_reducible refine kept_mk (h := ?_)))

theorem kept_judge {z : Bool} {s0 s : State} (h : Kept z s0 s) (x1 : AxisId) (x2 : SeqSt) : Kept z s0 (State.judge s x1 x2) := by
  unfold State.judge
  try dsimp only
  repeat' (first
    | with_reducible assumption | with_reducible refine kept_modCd ?_ _ _ | with_reducible refine kept_finalRamp ?_ _ _
    | with_reducible refine kept_writeId ?_ _ _ _ _ _ _ _ | with_reducible refine kept_rhatChanged ?_ _
    | with_reducible refine kept_energizeFails ?_ _ _ _ | split | fail_if_no_progress (with_reducible refine kept_mk (h := ?_)))

theorem kept_execIdentREnd {z : Bool} {s0 s : State} (h : Kept z s0 s) (x0 : AxisId) {t : State} (e : execIdentREnd x0 s = .next t) : Kept z s0 t := by
  unfold execIdentREnd at e
  first | (cases e; try dsimp only) | (split at e <;> cases e <;> try dsimp only)
  repeat' (first
    | with_reducible assumption | with_reducible refine kept_formR ?_ _ | with_reducible refine kept_modCd ?_ _ _
    | with_reducible refine kept_writeId ?_ _ _ _ _ _ _ _ | with_reducible refine kept_openShort ?_ _ _ _ _ (by assumption)
    | with_reducible refine kept_judge ?_ _ _ | with_reducible refine kept_nextStep ?_ _ _ _ | split
    | fail_if_no_progress (with_reducible refine kept_mk (h := ?_)))

theorem kept_execIdentLEnd {z : Bool} {s0 s : State} (h : Kept z s0 s) (x0 : AxisId) {t : State} (e : execIdentLEnd x0 s = .next t) : Kept z s0 t := by
  unfold execIdentLEnd at e
  first | (cases e; try dsimp only) | (split at e <;> cases e <;> try dsimp only)
  repeat' (first
    | with_reducible assumption | with_reducible refine kept_judge ?_ _ _ | with_reducible refine kept_modCd ?_ _ _ | split
    | fail_if_no_progress (with_reducible refine kept_mk (h := ?_)))

theorem kept_execPowerDownDelayEnd {z : Bool} {s0 s : State} (h : Kept z s0 s) (x0 : AxisId) {t : State} (e : execPowerDownDelayEnd x0 s = .next t) : Kept z s0 t := by
  unfold execPowerDownDelayEnd at e
  first | (cases e; try dsimp only) | (split at e <;> cases e <;> try dsimp only)
  repeat' (first
    | with_reducible assumption | with_reducible refine kept_modCd ?_ _ _ | split
    | fail_if_no_progress (with_reducible refine kept_mk (h := ?_)))

theorem kept_execPowerDownRampEnd {z : Bool} {s0 s : State} (h : Kept z s0 s) (x0 : AxisId) {t : State} (e : execPowerDownRampEnd x0 s = .next t) : Kept z s0 t := by
  unfold execPowerDownRampEnd at e
  first | (cases e; try dsimp only) | (split at e <;> cases e <;> try dsimp only)
  repeat' (first
    | with_reducible assumption | with_reducible refine kept_modCd ?_ _ _ | split
    | fail_if_no_progress (with_reducible refine kept_mk (h := ?_)))

theorem kept_stillR {z : Bool} {s0 s : State} (h : Kept z s0 s) (x1 : CdState) : Kept z s0 (State.stillR s x1).1 := by
  unfold State.stillR
  try dsimp only
  repeat' (first
    | with_reducible assumption | with_reducible refine kept_formR ?_ _ | split
    | fail_if_no_progress (with_reducible refine kept_mk (h := ?_)))

theorem kept_execStandstillWindowEnd {z : Bool} {s0 s : State} (h : Kept z s0 s) (x0 : AxisId) {t : State} (e : execStandstillWindowEnd x0 s = .next t) : Kept z s0 t := by
  unfold execStandstillWindowEnd at e
  first | (cases e; try dsimp only) | (split at e <;> cases e <;> try dsimp only)
  repeat' (first
    | with_reducible assumption | with_reducible refine kept_stillR ?_ _ | with_reducible refine kept_modCd ?_ _ _
    | with_reducible refine kept_writeId ?_ _ _ _ _ _ _ _ | with_reducible refine kept_openShort ?_ _ _ _ _ (by assumption)
    | with_reducible refine kept_rhatChanged ?_ _ | with_reducible refine kept_orReg ?_ _ _ | split
    | fail_if_no_progress (with_reducible refine kept_mk (h := ?_)))

/-! ### Stall -/

theorem kept_stall {z : Bool} {s0 s : State} (h : Kept z s0 s) (x1 : AxisId) (x2 : ℤ) (x3 : ℕ) (x4 : Bool) : Kept z s0 (State.stall s x1 x2 x3 x4) := by
  unfold State.stall
  try dsimp only
  repeat' (first
    | with_reducible assumption | with_reducible refine kept_modSg ?_ _ _ | with_reducible refine kept_raise ?_ _ _ _ _
    | with_reducible refine kept_incReg ?_ _ | with_reducible refine kept_orReg ?_ _ _ | with_reducible refine kept_faultAt ?_ _ _ _
    | with_reducible refine kept_modAx ?_ _ _ | with_reducible refine kept_bridgeFaultAt ?_ _ _ | split
    | fail_if_no_progress (with_reducible refine kept_mk (h := ?_)))

theorem kept_sgJudge {z : Bool} {s0 s : State} (h : Kept z s0 s) (x1 : AxisId) (x2 : SgIn) (x3 : Bool) : Kept z s0 (State.sgJudge s x1 x2 x3) := by
  unfold State.sgJudge
  try dsimp only
  repeat' (first
    | with_reducible assumption | with_reducible refine kept_modSg ?_ _ _ | with_reducible refine kept_detached ?_ _ _ _
    | with_reducible refine kept_stall ?_ _ _ _ _ | with_reducible refine kept_raise ?_ _ _ _ _ | split
    | fail_if_no_progress (with_reducible refine kept_mk (h := ?_)))

theorem kept_armStep {z : Bool} {s0 s : State} (h : Kept z s0 s) (x1 : AxisId) (x2 : SgIn) (x3 : ℤ) : Kept z s0 (State.armStep s x1 x2 x3) := by
  unfold State.armStep
  try dsimp only
  repeat' (first
    | with_reducible assumption | with_reducible refine kept_modSg ?_ _ _ | with_reducible refine kept_raise ?_ _ _ _ _ | split
    | fail_if_no_progress (with_reducible refine kept_mk (h := ?_)))

theorem kept_observe {z : Bool} {s0 s : State} (h : Kept z s0 s) (x1 : AxisId) : Kept z s0 (State.observe s x1) := by
  unfold State.observe
  try dsimp only
  repeat' (first
    | with_reducible assumption | with_reducible refine kept_modTt ?_ _ _ | split
    | fail_if_no_progress (with_reducible refine kept_mk (h := ?_)))

theorem kept_sgTake {z : Bool} {s0 s : State} (h : Kept z s0 s) (x1 : AxisId) (x2 : ℤ) (x3 : Option (ℕ × ℕ)) : Kept z s0 (State.sgTake s x1 x2 x3) := by
  unfold State.sgTake
  try dsimp only
  repeat' (first
    | with_reducible assumption | with_reducible refine kept_modSg ?_ _ _ | with_reducible refine kept_drawFree ?_ | split
    | fail_if_no_progress (with_reducible refine kept_mk (h := ?_)))

theorem kept_estimate {z : Bool} {s0 s : State} (h : Kept z s0 s) (x1 : AxisId) : Kept z s0 (State.estimate s x1) := by
  unfold State.estimate
  try dsimp only
  repeat' (first
    | with_reducible assumption | with_reducible refine kept_modSg ?_ _ _ | with_reducible refine kept_armStep ?_ _ _ _
    | with_reducible refine kept_sgJudge ?_ _ _ _ | with_reducible refine kept_sgTake ?_ _ _ _ | split
    | fail_if_no_progress (with_reducible refine kept_mk (h := ?_)))

/-! ### Bridges -/

theorem kept_brSrcWrite {z : Bool} {s0 s : State} (h : Kept z s0 s) (x1 : Master) (x2 : AxisId) (x3 : Word) : Kept z s0 (State.brSrcWrite s x1 x2 x3) := by
  unfold State.brSrcWrite
  try dsimp only
  repeat' (first
    | with_reducible assumption | with_reducible refine kept_gate ?_ _ _ _ | with_reducible refine kept_orReg ?_ _ _
    | with_reducible refine kept_rewritten ?_ _ | with_reducible refine kept_setReg ?_ _ _ | with_reducible refine kept_modBr ?_ _ _
    | split | fail_if_no_progress (with_reducible refine kept_mk (h := ?_)))

theorem kept_bayCommitWrite {z : Bool} {s0 s : State} (h : Kept z s0 s) (x1 : Master) (x2 : BayId) (x3 : Word) : Kept z s0 (State.bayCommitWrite s x1 x2 x3) := by
  unfold State.bayCommitWrite
  try dsimp only
  repeat' (first
    | with_reducible assumption | with_reducible refine kept_gate ?_ _ _ _ | with_reducible refine kept_forAll ?_ (fun _ _ _ => ?_)
    | with_reducible refine kept_modCu ?_ _ _ | with_reducible refine kept_orReg ?_ _ _ | split
    | fail_if_no_progress (with_reducible refine kept_mk (h := ?_)))

theorem kept_latchWrite {z : Bool} {s0 s : State} (h : Kept z s0 s) (x1 : Master) (x2 : CarrierId) (x3 : Word) : Kept z s0 (State.latchWrite s x1 x2 x3) := by
  unfold State.latchWrite
  try dsimp only
  repeat' (first
    | with_reducible assumption | with_reducible refine kept_gate ?_ _ _ _ | with_reducible refine kept_modCu ?_ _ _ | split
    | fail_if_no_progress (with_reducible refine kept_mk (h := ?_)))

theorem kept_coilSide {z : Bool} {s0 s : State} (h : Kept z s0 s) (u : CarrierId) (c : Fin 16) (hi : Bool) {t : State}
    (e : State.coilSide s u c hi = some t) : Kept z s0 t := by
  unfold State.coilSide at e
  dsimp only at e
  generalize (if hi then (s.cu.get u).cmpHi else (s.cu.get u).cmpLo).getLsbD c = b at e
  split at e
  · cases e
  · cases e
    exact kept_orReg (kept_modCu h _ _) _ _

theorem kept_tripLatch {z : Bool} {s0 s : State} (h : Kept z s0 s) (x1 : CarrierId) (x2 : AxisId) (x3 : List ℕ) : Kept z s0 (State.tripLatch s x1 x2 x3) := by
  unfold State.tripLatch
  try dsimp only
  repeat' (first
    | with_reducible assumption | with_reducible refine kept_latchLegs ?_ _ _ | with_reducible refine kept_raise ?_ _ _ _ _
    | with_reducible refine kept_bridgeFaulted ?_ _ _ | with_reducible refine kept_forAll ?_ (fun _ _ _ => ?_) | split
    | fail_if_no_progress (with_reducible refine kept_mk (h := ?_)))

theorem kept_countTrip {z : Bool} {s0 s : State} (h : Kept z s0 s) (x1 : CarrierId) (x2 : AxisId) (x3 : ℕ) (x4 : Word) : Kept z s0 (State.countTrip s x1 x2 x3 x4) := by
  unfold State.countTrip
  try dsimp only
  repeat' (first
    | with_reducible assumption | with_reducible refine kept_modCu ?_ _ _ | with_reducible refine kept_raise ?_ _ _ _ _ | split
    | fail_if_no_progress (with_reducible refine kept_mk (h := ?_)))

theorem kept_coilTrip {z : Bool} {s0 s : State} (h : Kept z s0 s) (x1 : CarrierId) (x2 : Fin 16) (x3 : ℕ) (x4 : Word) (x5 : Bool) : Kept z s0 (State.coilTrip s x1 x2 x3 x4 x5) := by
  unfold State.coilTrip
  try dsimp only
  repeat' (first
    | with_reducible assumption | with_reducible refine kept_orReg ?_ _ _ | with_reducible refine kept_keepHighs ?_ _ _
    | with_reducible refine kept_modCu ?_ _ _ | with_reducible refine kept_tripLatch ?_ _ _ _
    | with_reducible refine kept_forAll ?_ (fun _ _ _ => ?_) | with_reducible refine kept_countTrip ?_ _ _ _ _ | split
    | fail_if_no_progress (with_reducible refine kept_mk (h := ?_)))

theorem kept_probeVerdict {z : Bool} {s0 s : State} (h : Kept z s0 s) (x1 : AxisId) : Kept z s0 (State.probeVerdict s x1) := by
  unfold State.probeVerdict
  try dsimp only
  repeat' (first
    | with_reducible assumption | with_reducible refine kept_modBr ?_ _ _ | with_reducible refine kept_modSg ?_ _ _
    | with_reducible refine kept_modCd ?_ _ _ | with_reducible refine kept_raise ?_ _ _ _ _ | split
    | fail_if_no_progress (with_reducible refine kept_mk (h := ?_)))

theorem kept_execParkedAxisProbe {z : Bool} {s0 s : State} (h : Kept z s0 s) (x0 : AxisId) (x1 : ℕ) {t : State} (e : execParkedAxisProbe x0 x1 s = .next t) : Kept z s0 t := by
  unfold execParkedAxisProbe at e
  first | (cases e; try dsimp only) | (split at e <;> cases e <;> try dsimp only)
  repeat' (first
    | with_reducible assumption | with_reducible refine kept_modBr ?_ _ _ | with_reducible refine kept_setReg ?_ _ _
    | with_reducible refine kept_probeVerdict ?_ _ | with_reducible refine kept_gathering ?_
    | with_reducible refine kept_bridgeFaulted ?_ _ _ | with_reducible refine kept_latchLegs ?_ _ _
    | with_reducible refine kept_raise ?_ _ _ _ _ | with_reducible refine kept_tellAll ?_ | split
    | fail_if_no_progress (with_reducible refine kept_mk (h := ?_)))

theorem kept_execDebugHaltRelease {z : Bool} {s0 s : State} (h : Kept z s0 s) (x0 : Fin 14) {t : State} (e : execDebugHaltRelease x0 s = .next t) : Kept z s0 t := by
  unfold execDebugHaltRelease at e
  first | (cases e; try dsimp only) | (split at e <;> cases e <;> try dsimp only)
  repeat' (first
    | with_reducible assumption | with_reducible refine kept_forAll ?_ (fun _ _ _ => ?_) | with_reducible refine kept_modCu ?_ _ _
    | split | fail_if_no_progress (with_reducible refine kept_mk (h := ?_)))

theorem kept_brakeFrom {z : Bool} {s0 s : State} (h : Kept z s0 s) (x1 : CarrierId) : Kept z s0 (State.brakeFrom s x1) := by
  unfold State.brakeFrom
  try dsimp only
  repeat' (first
    | with_reducible assumption | with_reducible refine kept_drawFree ?_ | with_reducible refine kept_forAll ?_ (fun _ _ _ => ?_)
    | with_reducible refine kept_modBr ?_ _ _ | with_reducible refine kept_modCu ?_ _ _ | split
    | fail_if_no_progress (with_reducible refine kept_mk (h := ?_)))

theorem kept_enterSafe {z : Bool} {s0 s : State} (h : Kept z s0 s) (x1 : CarrierId) : Kept z s0 (State.enterSafe s x1) := by
  unfold State.enterSafe
  try dsimp only
  repeat' (first
    | with_reducible assumption | with_reducible refine kept_forAll ?_ (fun _ _ _ => ?_) | with_reducible refine kept_modCu ?_ _ _
    | with_reducible refine kept_brakeFrom ?_ _ | with_reducible refine kept_bridgeFault ?_ _ | split
    | fail_if_no_progress (with_reducible refine kept_mk (h := ?_)))

theorem kept_execBrSrcWrite {z : Bool} {s0 s : State} (h : Kept z s0 s) (x0 : Master) (x1 : AxisId) (x2 : Word) {t : State} (e : execBrSrcWrite x0 x1 x2 s = .next t) : Kept z s0 t := by
  unfold execBrSrcWrite at e
  first | (cases e; try dsimp only) | (split at e <;> cases e <;> try dsimp only)
  repeat' (first
    | with_reducible assumption | with_reducible refine kept_brSrcWrite ?_ _ _ _ | split
    | fail_if_no_progress (with_reducible refine kept_mk (h := ?_)))

theorem kept_execBayCommitWrite {z : Bool} {s0 s : State} (h : Kept z s0 s) (x0 : Master) (x1 : BayId) (x2 : Word) {t : State} (e : execBayCommitWrite x0 x1 x2 s = .next t) : Kept z s0 t := by
  unfold execBayCommitWrite at e
  first | (cases e; try dsimp only) | (split at e <;> cases e <;> try dsimp only)
  repeat' (first
    | with_reducible assumption | with_reducible refine kept_bayCommitWrite ?_ _ _ _ | split
    | fail_if_no_progress (with_reducible refine kept_mk (h := ?_)))

theorem kept_execLegLatchRelease {z : Bool} {s0 s : State} (h : Kept z s0 s) (x0 : Master) (x1 : CarrierId) (x2 : Word) {t : State} (e : execLegLatchRelease x0 x1 x2 s = .next t) : Kept z s0 t := by
  unfold execLegLatchRelease at e
  first | (cases e; try dsimp only) | (split at e <;> cases e <;> try dsimp only)
  repeat' (first
    | with_reducible assumption | with_reducible refine kept_latchWrite ?_ _ _ _ | split
    | fail_if_no_progress (with_reducible refine kept_mk (h := ?_)))

theorem kept_execCoilWindowTrip {z : Bool} {s0 s : State} (h : Kept z s0 s) (x0 : CarrierId) (x1 : Fin 16) (x2 : Bool) (x3 : TripIn) {t : State} (e : execCoilWindowTrip x0 x1 x2 x3 s = .next t) : Kept z s0 t := by
  unfold execCoilWindowTrip at e
  first | (cases e; try dsimp only) | (split at e <;> cases e <;> try dsimp only)
  repeat' (first
    | with_reducible assumption | with_reducible refine kept_coilSide ?_ _ _ _ (by assumption)
    | with_reducible refine kept_coilTrip ?_ _ _ _ _ _ | split | fail_if_no_progress (with_reducible refine kept_mk (h := ?_)))

theorem kept_execDebugHalt {z : Bool} {s0 s : State} (h : Kept z s0 s) (x0 : Fin 14) {t : State} (e : execDebugHalt x0 s = .next t) : Kept z s0 t := by
  unfold execDebugHalt at e
  first | (cases e; try dsimp only) | (split at e <;> cases e <;> try dsimp only)
  repeat' (first
    | with_reducible assumption | with_reducible refine kept_forAll ?_ (fun _ _ _ => ?_) | with_reducible refine kept_modCu ?_ _ _
    | with_reducible refine kept_enterSafe ?_ _ | with_reducible refine kept_modBr ?_ _ _ | split
    | fail_if_no_progress (with_reducible refine kept_mk (h := ?_))
    | fail_if_no_progress (with_reducible refine kept_mk_quiet (h := ?_) ?_) | exact ⟨rfl, rfl, rfl, rfl, List.prefix_refl _⟩
    | exact ⟨rfl, rfl, rfl, rfl, List.prefix_append _ _⟩)

theorem kept_execStoInputLow {z : Bool} {s0 s : State} (h : Kept z s0 s) (x0 : Bool) (x1 : Bool) (x2 : ℕ) {t : State} (e : execStoInputLow x0 x1 x2 s = .next t) : Kept z s0 t := by
  unfold execStoInputLow at e
  first | (cases e; try dsimp only) | (split at e <;> cases e <;> try dsimp only)
  repeat' (first
    | with_reducible assumption | with_reducible refine kept_originate ?_ _ | split
    | fail_if_no_progress (with_reducible refine kept_mk (h := ?_))
    | fail_if_no_progress (with_reducible refine kept_mk_quiet (h := ?_) ?_) | exact ⟨rfl, rfl, rfl, rfl, List.prefix_refl _⟩
    | exact ⟨rfl, rfl, rfl, rfl, List.prefix_append _ _⟩)

theorem kept_execStoRelease {z : Bool} {s0 s : State} (h : Kept z s0 s) (x0 : ℕ) {t : State} (e : execStoRelease x0 s = .next t) : Kept z s0 t := by
  unfold execStoRelease at e
  first | (cases e; try dsimp only) | (split at e <;> cases e <;> try dsimp only)
  repeat' (first
    | with_reducible assumption | with_reducible refine kept_forAll ?_ (fun _ _ _ => ?_) | with_reducible refine kept_modBr ?_ _ _
    | with_reducible refine kept_raise ?_ _ _ _ _ | split | fail_if_no_progress (with_reducible refine kept_mk (h := ?_))
    | fail_if_no_progress (with_reducible refine kept_mk_quiet (h := ?_) ?_) | exact ⟨rfl, rfl, rfl, rfl, List.prefix_refl _⟩
    | exact ⟨rfl, rfl, rfl, rfl, List.prefix_append _ _⟩)

theorem kept_execStoDiscrepancy {z : Bool} {s0 s : State} (h : Kept z s0 s)  {t : State} (e : execStoDiscrepancy s = .next t) : Kept z s0 t := by
  unfold execStoDiscrepancy at e
  first | (cases e; try dsimp only) | (split at e <;> cases e <;> try dsimp only)
  repeat' (first
    | with_reducible assumption | with_reducible refine kept_orReg ?_ _ _ | split
    | fail_if_no_progress (with_reducible refine kept_mk (h := ?_)))

theorem kept_execFastOvercurrent {z : Bool} {s0 s : State} (h : Kept z s0 s) (x0 : Fin 768) (x1 : Bool) {t : State} (e : execFastOvercurrent x0 x1 s = .next t) : Kept z s0 t := by
  unfold execFastOvercurrent at e
  first | (cases e; try dsimp only) | (split at e <;> cases e <;> try dsimp only)
  repeat' (first
    | with_reducible assumption | with_reducible refine kept_orReg ?_ _ _ | with_reducible refine kept_latchLegs ?_ _ _
    | with_reducible refine kept_raise ?_ _ _ _ _ | with_reducible refine kept_bridgeFaulted ?_ _ _ | split
    | fail_if_no_progress (with_reducible refine kept_mk (h := ?_)))

theorem kept_execOpenLoadCountEnd {z : Bool} {s0 s : State} (h : Kept z s0 s) (x0 : AxisId) {t : State} (e : execOpenLoadCountEnd x0 s = .next t) : Kept z s0 t := by
  unfold execOpenLoadCountEnd at e
  first | (cases e; try dsimp only) | (split at e <;> cases e <;> try dsimp only)
  repeat' (first
    | with_reducible assumption | with_reducible refine kept_modCd ?_ _ _ | with_reducible refine kept_detached ?_ _ _ _
    | with_reducible refine kept_raise ?_ _ _ _ _ | split | fail_if_no_progress (with_reducible refine kept_mk (h := ?_)))

/-! ### Supply -/

theorem kept_setRegen {z : Bool} {s0 s : State} (h : Kept z s0 s) : Kept z s0 (State.setRegen s) := by
  unfold State.setRegen
  try dsimp only
  repeat' (first
    | with_reducible assumption | with_reducible refine kept_forAll ?_ (fun _ _ _ => ?_) | with_reducible refine kept_modCu ?_ _ _
    | split | fail_if_no_progress (with_reducible refine kept_mk (h := ?_)))

theorem kept_chopper {z : Bool} {s0 s : State} (h : Kept z s0 s) (x1 : DomainId) : Kept z s0 (State.chopper s x1) := by
  unfold State.chopper
  try dsimp only
  repeat' (first
    | with_reducible assumption | with_reducible refine kept_raise ?_ _ _ _ _ | split
    | fail_if_no_progress (with_reducible refine kept_mk (h := ?_)))

theorem kept_supplies {z : Bool} {s0 s : State} (h : Kept z s0 s) : Kept z s0 (State.supplies s) := by
  unfold State.supplies
  try dsimp only
  repeat' (first
    | with_reducible assumption | with_reducible refine kept_forAll ?_ (fun _ _ _ => ?_) | with_reducible refine kept_setRegen ?_
    | with_reducible refine kept_chopper ?_ _ | split | fail_if_no_progress (with_reducible refine kept_mk (h := ?_)))

theorem kept_releaseOv {z : Bool} {s0 s : State} (h : Kept z s0 s) (x1 : CarrierId) (x2 : ℕ) : Kept z s0 (State.releaseOv s x1 x2) := by
  unfold State.releaseOv
  try dsimp only
  repeat' (first
    | with_reducible assumption | with_reducible refine kept_supplies ?_ | with_reducible refine kept_modCu ?_ _ _ | split
    | fail_if_no_progress (with_reducible refine kept_mk (h := ?_)))

theorem kept_dieCheck {z : Bool} {s0 s : State} (h : Kept z s0 s) (x1 : ℤ) : Kept z s0 (State.dieCheck s x1) := by
  unfold State.dieCheck
  try dsimp only
  repeat' (first
    | with_reducible assumption | with_reducible refine kept_raise ?_ _ _ _ _ | split
    | fail_if_no_progress (with_reducible refine kept_mk (h := ?_)))

theorem kept_vmHiRegister {z : Bool} {s0 s : State} (h : Kept z s0 s) (x1 : DomainId) : Kept z s0 (State.vmHiRegister s x1) := by
  unfold State.vmHiRegister
  try dsimp only
  repeat' (first
    | with_reducible assumption | with_reducible refine kept_orReg ?_ _ _ | with_reducible refine kept_raise ?_ _ _ _ _
    | with_reducible refine kept_supplies ?_ | split | fail_if_no_progress (with_reducible refine kept_mk (h := ?_)))

theorem kept_execVmEntryHiTrip {z : Bool} {s0 s : State} (h : Kept z s0 s) (x0 : DomainId) {t : State} (e : execVmEntryHiTrip x0 s = .next t) : Kept z s0 t := by
  unfold execVmEntryHiTrip at e
  first | (cases e; try dsimp only) | (split at e <;> cases e <;> try dsimp only)
  repeat' (first
    | with_reducible assumption | with_reducible refine kept_vmHiRegister ?_ _ | split
    | fail_if_no_progress (with_reducible refine kept_mk (h := ?_)))

theorem kept_vmLoRegister {z : Bool} {s0 s : State} (h : Kept z s0 s) (x1 : DomainId) : Kept z s0 (State.vmLoRegister s x1) := by
  unfold State.vmLoRegister
  try dsimp only
  repeat' (first
    | with_reducible assumption | with_reducible refine kept_orReg ?_ _ _ | with_reducible refine kept_faultEnergised ?_ _ _
    | with_reducible refine kept_raise ?_ _ _ _ _ | split | fail_if_no_progress (with_reducible refine kept_mk (h := ?_)))

theorem kept_ovRegister {z : Bool} {s0 s : State} (h : Kept z s0 s) (x1 : CarrierId) : Kept z s0 (State.ovRegister s x1) := by
  unfold State.ovRegister
  try dsimp only
  repeat' (first
    | with_reducible assumption | with_reducible refine kept_orReg ?_ _ _ | with_reducible refine kept_supplies ?_
    | with_reducible refine kept_modCu ?_ _ _ | with_reducible refine kept_raise ?_ _ _ _ _ | split
    | fail_if_no_progress (with_reducible refine kept_mk (h := ?_)))

theorem kept_railLoRegister {z : Bool} {s0 s : State} (h : Kept z s0 s) (x1 : Fin 13) : Kept z s0 (State.railLoRegister s x1) := by
  unfold State.railLoRegister
  try dsimp only
  repeat' (first
    | with_reducible assumption | with_reducible refine kept_orReg ?_ _ _ | with_reducible refine kept_faultEnergised ?_ _ _
    | with_reducible refine kept_raise ?_ _ _ _ _ | split | fail_if_no_progress (with_reducible refine kept_mk (h := ?_)))

theorem kept_railHiRegister {z : Bool} {s0 s : State} (h : Kept z s0 s) (x1 : Fin 13) : Kept z s0 (State.railHiRegister s x1) := by
  unfold State.railHiRegister
  try dsimp only
  repeat' (first
    | with_reducible assumption | with_reducible refine kept_orReg ?_ _ _ | with_reducible refine kept_raise ?_ _ _ _ _ | split
    | fail_if_no_progress (with_reducible refine kept_mk (h := ?_)))

theorem kept_recheck {z : Bool} {s0 s : State} (h : Kept z s0 s) (x1 : ℕ) : Kept z s0 (State.recheck s x1) := by
  unfold State.recheck
  try dsimp only
  repeat' (first
    | with_reducible assumption | with_reducible refine kept_coilSide ?_ _ _ _ (by assumption) | with_reducible refine kept_drawFree ?_
    | with_reducible refine kept_coilTrip ?_ _ _ _ _ _ | with_reducible refine kept_vmLoRegister ?_ _
    | with_reducible refine kept_vmHiRegister ?_ _ | with_reducible refine kept_ovRegister ?_ _
    | with_reducible refine kept_railLoRegister ?_ _ | with_reducible refine kept_railHiRegister ?_ _ | split
    | fail_if_no_progress (with_reducible refine kept_mk (h := ?_)))

theorem kept_thresholdWrite {z : Bool} {s0 s : State} (h : Kept z s0 s) (x1 : Master) (x2 : ℕ) (x3 : Word) : Kept z s0 (State.thresholdWrite s x1 x2 x3) := by
  unfold State.thresholdWrite
  try dsimp only
  repeat' (first
    | with_reducible assumption | with_reducible refine kept_gate ?_ _ _ _ | with_reducible refine kept_orReg ?_ _ _
    | with_reducible refine kept_recheck ?_ _ | with_reducible refine kept_rewritten ?_ _ | with_reducible refine kept_setReg ?_ _ _
    | split | fail_if_no_progress (with_reducible refine kept_mk (h := ?_)))

theorem kept_startSweep {z : Bool} {s0 s : State} (h : Kept z s0 s) : Kept z s0 (State.startSweep s) := by
  unfold State.startSweep
  try dsimp only
  repeat' (first
    | with_reducible assumption | with_reducible refine kept_raise ?_ _ _ _ _ | split
    | fail_if_no_progress (with_reducible refine kept_mk (h := ?_)))

theorem kept_sweepWrite {z : Bool} {s0 s : State} (h : Kept z s0 s) (x1 : Master) : Kept z s0 (State.sweepWrite s x1) := by
  unfold State.sweepWrite
  try dsimp only
  repeat' (first
    | with_reducible assumption | with_reducible refine kept_gate ?_ _ _ _ | with_reducible refine kept_startSweep ?_ | split
    | fail_if_no_progress (with_reducible refine kept_mk (h := ?_)))

theorem kept_holdCoil {z : Bool} {s0 s : State} (h : Kept z s0 s) (x1 : CarrierId) (x2 : Fin 16) (x3 : ℕ) : Kept z s0 (State.holdCoil s x1 x2 x3) := by
  unfold State.holdCoil
  try dsimp only
  repeat' (first
    | with_reducible assumption | with_reducible refine kept_modCu ?_ _ _ | split
    | fail_if_no_progress (with_reducible refine kept_mk (h := ?_)))

theorem kept_releaseSupplies {z : Bool} {s0 s : State} (h : Kept z s0 s) (x1 : List ℕ) (x2 : List ℕ) : Kept z s0 (State.releaseSupplies s x1 x2) := by
  unfold State.releaseSupplies
  try dsimp only
  repeat' (first
    | with_reducible assumption | with_reducible refine kept_supplies ?_ | with_reducible refine kept_forAll ?_ (fun _ _ _ => ?_) | split
    | fail_if_no_progress (with_reducible refine kept_mk (h := ?_)))

theorem kept_force {z : Bool} {s0 s : State} (h : Kept z s0 s) (x1 : CarrierId) (x2 : Bool) : Kept z s0 (State.force s x1 x2) := by
  unfold State.force
  try dsimp only
  repeat' (first
    | with_reducible assumption | with_reducible refine kept_modCu ?_ _ _ | split
    | fail_if_no_progress (with_reducible refine kept_mk (h := ?_)))

theorem kept_pllLocks {z : Bool} {s0 s : State} (h : Kept z s0 s) : Kept z s0 (State.pllLocks s) := by
  unfold State.pllLocks
  try dsimp only
  repeat' (first
    | with_reducible assumption | split | fail_if_no_progress (with_reducible refine kept_mk (h := ?_))
    | fail_if_no_progress (with_reducible refine kept_mk_quiet (h := ?_) ?_) | exact ⟨rfl, rfl, rfl, rfl, List.prefix_refl _⟩
    | exact ⟨rfl, rfl, rfl, rfl, List.prefix_append _ _⟩)

theorem kept_railTested {z : Bool} {s0 s : State} (h : Kept z s0 s) (x1 : ℕ) (x2 : TestOutcome) : Kept z s0 (State.railTested s x1 x2) := by
  unfold State.railTested
  try dsimp only
  repeat' (first
    | with_reducible assumption | with_reducible refine kept_pllLocks ?_ | split
    | fail_if_no_progress (with_reducible refine kept_mk (h := ?_)))

theorem kept_backToService {z : Bool} {s0 s : State} (h : Kept z s0 s) (x1 : ℕ) : Kept z s0 (State.backToService s x1) := by
  unfold State.backToService
  try dsimp only
  repeat' (first
    | with_reducible assumption | with_reducible refine kept_modCu ?_ _ _ | with_reducible refine kept_supplies ?_ | split
    | fail_if_no_progress (with_reducible refine kept_mk (h := ?_)))

theorem kept_passTest {z : Bool} {s0 s : State} (h : Kept z s0 s) (x1 : ℕ) : Kept z s0 (State.passTest s x1) := by
  unfold State.passTest
  try dsimp only
  repeat' (first
    | with_reducible assumption | with_reducible refine kept_backToService ?_ _ | split
    | fail_if_no_progress (with_reducible refine kept_mk (h := ?_)))

theorem kept_endTest {z : Bool} {s0 s : State} (h : Kept z s0 s) (x1 : ℕ) (x2 : ℕ) (x3 : TestOutcome) : Kept z s0 (State.endTest s x1 x2 x3) := by
  unfold State.endTest
  try dsimp only
  repeat' (first
    | with_reducible assumption | with_reducible refine kept_rewritten ?_ _ | with_reducible refine kept_setReg ?_ _ _
    | with_reducible refine kept_railTested ?_ _ _ | with_reducible refine kept_passTest ?_ _
    | with_reducible refine kept_raise ?_ _ _ _ _ | with_reducible refine kept_backToService ?_ _ | split
    | fail_if_no_progress (with_reducible refine kept_mk (h := ?_)))

theorem kept_execCmpThresholdWrite {z : Bool} {s0 s : State} (h : Kept z s0 s) (x0 : Master) (x1 : ℕ) (x2 : Word) {t : State} (e : execCmpThresholdWrite x0 x1 x2 s = .next t) : Kept z s0 t := by
  unfold execCmpThresholdWrite at e
  first | (cases e; try dsimp only) | (split at e <;> cases e <;> try dsimp only)
  repeat' (first
    | with_reducible assumption | with_reducible refine kept_thresholdWrite ?_ _ _ _ | split
    | fail_if_no_progress (with_reducible refine kept_mk (h := ?_)))

theorem kept_chopperTick {z : Bool} {s0 s : State} (h : Kept z s0 s) : Kept z s0 (State.chopperTick s) := by
  unfold State.chopperTick
  try dsimp only
  repeat' (first
    | with_reducible assumption | with_reducible refine kept_forAll ?_ (fun _ _ _ => ?_) | with_reducible refine kept_chopper ?_ _
    | split | fail_if_no_progress (with_reducible refine kept_mk (h := ?_)))

theorem kept_endFallbacks {z : Bool} {s0 s : State} (h : Kept z s0 s) (x1 : Option CarrierId) : Kept z s0 (State.endFallbacks s x1) := by
  unfold State.endFallbacks
  try dsimp only
  repeat' (first
    | with_reducible assumption | split | fail_if_no_progress (with_reducible refine kept_mk (h := ?_)))

theorem kept_releaseCoils {z : Bool} {s0 s : State} (h : Kept z s0 s) (x1 : CarrierId) (x2 : List ℤ) : Kept z s0 (State.releaseCoils s x1 x2) := by
  unfold State.releaseCoils
  try dsimp only
  repeat' (first
    | with_reducible assumption | with_reducible refine kept_modCu ?_ _ _ | with_reducible refine kept_forAll ?_ (fun _ _ _ => ?_)
    | split | fail_if_no_progress (with_reducible refine kept_mk (h := ?_)))

theorem kept_deviceAt {z : Bool} {s0 s : State} (h : Kept z s0 s) (x1 : Option SupplyIn) : Kept z s0 (State.deviceAt s x1) := by
  unfold State.deviceAt
  try dsimp only
  repeat' (first
    | with_reducible assumption | with_reducible refine kept_releaseSupplies ?_ _ _ | split
    | fail_if_no_progress (with_reducible refine kept_mk (h := ?_)))

theorem kept_fallback {z : Bool} {s0 s : State} (h : Kept z s0 s) (u : CarrierId) (cur : List Int) (vm : Nat) : Kept z s0 (State.fallback s u cur vm) := by
  unfold State.fallback
  extract_lets every base side coil s1 s2 d st w s3
  have hs : ∀ t c hi b, Kept z s0 t → Kept z s0 (side t c hi b) := by
    intro t c hi b k
    simp only [side]
    split
    · split
      · exact kept_coilTrip (kept_coilSide k _ _ _ (by assumption)) _ _ _ _ _
      · split
        · exact kept_holdCoil k _ _ _
        · exact k
    · exact k
  have hc : ∀ t c, Kept z s0 t → Kept z s0 (coil t c) := by
    intro t c k
    simp only [coil]
    split
    · exact k
    · exact hs _ _ _ _ (hs _ _ _ _ k)
  have h1 : Kept z s0 s1 := kept_forAll h fun t c k => hc t c k
  have h2 : Kept z s0 s2 := kept_ite (kept_ovRegister h1 _) h1
  have h3 : Kept z s0 s3 := kept_ite (kept_vmLoRegister h2 _) h2
  exact kept_ite (kept_ite (kept_vmHiRegister h3 _) h3) h2

theorem kept_tempCheck {z : Bool} {s0 s : State} (h : Kept z s0 s) (x1 : CarrierId) : Kept z s0 (State.tempCheck s x1) := by
  unfold State.tempCheck
  try dsimp only
  repeat' (first
    | with_reducible assumption | with_reducible refine kept_raise ?_ _ _ _ _ | with_reducible refine kept_faultEnergised ?_ _ _
    | with_reducible refine kept_modCu ?_ _ _ | split | fail_if_no_progress (with_reducible refine kept_mk (h := ?_)))

theorem kept_abandonTest {z : Bool} {s0 s : State} (h : Kept z s0 s) (x1 : CarrierId) : Kept z s0 (State.abandonTest s x1) := by
  unfold State.abandonTest
  try dsimp only
  repeat' (first
    | with_reducible assumption | with_reducible refine kept_endTest ?_ _ _ _ | split
    | fail_if_no_progress (with_reducible refine kept_mk (h := ?_)))

theorem kept_execComparatorSweepStart {z : Bool} {s0 s : State} (h : Kept z s0 s)  {t : State} (e : execComparatorSweepStart s = .next t) : Kept z s0 t := by
  unfold execComparatorSweepStart at e
  first | (cases e; try dsimp only) | (split at e <;> cases e <;> try dsimp only)
  repeat' (first
    | with_reducible assumption | with_reducible refine kept_startSweep ?_ | split
    | fail_if_no_progress (with_reducible refine kept_mk (h := ?_)))

theorem kept_execCmpSweepWrite {z : Bool} {s0 s : State} (h : Kept z s0 s) (x0 : Master) {t : State} (e : execCmpSweepWrite x0 s = .next t) : Kept z s0 t := by
  unfold execCmpSweepWrite at e
  first | (cases e; try dsimp only) | (split at e <;> cases e <;> try dsimp only)
  repeat' (first
    | with_reducible assumption | with_reducible refine kept_sweepWrite ?_ _ | split
    | fail_if_no_progress (with_reducible refine kept_mk (h := ?_)))

theorem kept_execComparatorTestEnd {z : Bool} {s0 s : State} (h : Kept z s0 s) (x0 : TestOutcome) {t : State} (e : execComparatorTestEnd x0 s = .next t) : Kept z s0 t := by
  unfold execComparatorTestEnd at e
  first | (cases e; try dsimp only) | (split at e <;> cases e <;> try dsimp only)
  repeat' (first
    | with_reducible assumption | with_reducible refine kept_endTest ?_ _ _ _ | split
    | fail_if_no_progress (with_reducible refine kept_mk (h := ?_)))

theorem kept_execVmEntryLoTrip {z : Bool} {s0 s : State} (h : Kept z s0 s) (x0 : DomainId) {t : State} (e : execVmEntryLoTrip x0 s = .next t) : Kept z s0 t := by
  unfold execVmEntryLoTrip at e
  first | (cases e; try dsimp only) | (split at e <;> cases e <;> try dsimp only)
  repeat' (first
    | with_reducible assumption | with_reducible refine kept_vmLoRegister ?_ _ | split
    | fail_if_no_progress (with_reducible refine kept_mk (h := ?_)))

theorem kept_execOvervoltageMonitorTrip {z : Bool} {s0 s : State} (h : Kept z s0 s) (x0 : CarrierId) {t : State} (e : execOvervoltageMonitorTrip x0 s = .next t) : Kept z s0 t := by
  unfold execOvervoltageMonitorTrip at e
  first | (cases e; try dsimp only) | (split at e <;> cases e <;> try dsimp only)
  repeat' (first
    | with_reducible assumption | with_reducible refine kept_ovRegister ?_ _ | split
    | fail_if_no_progress (with_reducible refine kept_mk (h := ?_)))

theorem kept_limitChopper {z : Bool} {s0 s : State} (h : Kept z s0 s) (x1 : DomainId) : Kept z s0 (State.limitChopper s x1) := by
  unfold State.limitChopper
  try dsimp only
  repeat' (first
    | with_reducible assumption | with_reducible refine kept_orReg ?_ _ _ | with_reducible refine kept_raise ?_ _ _ _ _ | split
    | fail_if_no_progress (with_reducible refine kept_mk (h := ?_)))

theorem kept_execBrakeChopperLimit {z : Bool} {s0 s : State} (h : Kept z s0 s) (x0 : DomainId) {t : State} (e : execBrakeChopperLimit x0 s = .next t) : Kept z s0 t := by
  unfold execBrakeChopperLimit at e
  first | (cases e; try dsimp only) | (split at e <;> cases e <;> try dsimp only)
  repeat' (first
    | with_reducible assumption | with_reducible refine kept_limitChopper ?_ _ | split
    | fail_if_no_progress (with_reducible refine kept_mk (h := ?_)))

theorem kept_execRailLoTrip {z : Bool} {s0 s : State} (h : Kept z s0 s) (x0 : Fin 13) {t : State} (e : execRailLoTrip x0 s = .next t) : Kept z s0 t := by
  unfold execRailLoTrip at e
  first | (cases e; try dsimp only) | (split at e <;> cases e <;> try dsimp only)
  repeat' (first
    | with_reducible assumption | with_reducible refine kept_railLoRegister ?_ _ | split
    | fail_if_no_progress (with_reducible refine kept_mk (h := ?_)))

theorem kept_execRailHiTrip {z : Bool} {s0 s : State} (h : Kept z s0 s) (x0 : Fin 13) {t : State} (e : execRailHiTrip x0 s = .next t) : Kept z s0 t := by
  unfold execRailHiTrip at e
  first | (cases e; try dsimp only) | (split at e <;> cases e <;> try dsimp only)
  repeat' (first
    | with_reducible assumption | with_reducible refine kept_railHiRegister ?_ _ | split
    | fail_if_no_progress (with_reducible refine kept_mk (h := ?_)))

/-! ### Weigh -/

theorem kept_modWb {z : Bool} {s0 s : State} (h : Kept z s0 s) (x1 : Wb → Wb) : Kept z s0 (State.modWb s x1) := by
  unfold State.modWb
  try dsimp only
  repeat' (first
    | with_reducible assumption | split | fail_if_no_progress (with_reducible refine kept_mk (h := ?_)))

theorem kept_wbSnap {z : Bool} {s0 s : State} (h : Kept z s0 s) (x1 : Master) : Kept z s0 (State.wbSnap s x1) := by
  unfold State.wbSnap
  try dsimp only
  repeat' (first
    | with_reducible assumption | with_reducible refine kept_modWb ?_ _ | split
    | fail_if_no_progress (with_reducible refine kept_mk (h := ?_)))

theorem kept_modSb {z : Bool} {s0 s : State} (h : Kept z s0 s) (x1 : Standby → Standby) : Kept z s0 (State.modSb s x1) := by
  unfold State.modSb
  try dsimp only
  repeat' (first
    | with_reducible assumption | with_reducible refine kept_modWb ?_ _ | split
    | fail_if_no_progress (with_reducible refine kept_mk (h := ?_)))

theorem kept_auditEvent {z : Bool} {s0 s : State} (h : Kept z s0 s) (x1 : Word) (x2 : Word) : Kept z s0 (State.auditEvent s x1 x2) := by
  unfold State.auditEvent
  try dsimp only
  repeat' (first
    | with_reducible assumption | with_reducible refine kept_raise ?_ _ _ _ _ | split
    | fail_if_no_progress (with_reducible refine kept_mk (h := ?_)))

theorem kept_appendLog {z : Bool} {s0 s : State} (h : Kept z s0 s) (x1 : ℕ) (x2 : ℕ) (x3 : Word) (x4 : Word) : Kept z s0 (State.appendLog s x1 x2 x3 x4) := by
  unfold State.appendLog
  try dsimp only
  repeat' (first
    | with_reducible assumption | with_reducible refine kept_modWb ?_ _ | with_reducible refine kept_auditEvent ?_ _ _ | split
    | fail_if_no_progress (with_reducible refine kept_mk (h := ?_)))

theorem kept_tamper {z : Bool} {s0 s : State} (h : Kept z s0 s) (x1 : Fin 2) (x2 : Bool) : Kept z s0 (State.tamper s x1 x2) := by
  unfold State.tamper
  try dsimp only
  repeat' (first
    | with_reducible assumption | with_reducible refine kept_orReg ?_ _ _ | with_reducible refine kept_modSb ?_ _
    | with_reducible refine kept_modWb ?_ _ | with_reducible refine kept_appendLog ?_ _ _ _ _ | split
    | fail_if_no_progress (with_reducible refine kept_mk (h := ?_)))

theorem kept_tamperEdge {z : Bool} {s0 s : State} (h : Kept z s0 s) : Kept z s0 (State.tamperEdge s) := by
  unfold State.tamperEdge
  try dsimp only
  repeat' (first
    | with_reducible assumption | with_reducible refine kept_modWb ?_ _ | with_reducible refine kept_forAll ?_ (fun _ _ _ => ?_)
    | with_reducible refine kept_tamper ?_ _ _ | split | fail_if_no_progress (with_reducible refine kept_mk (h := ?_)))

theorem kept_refuseInstall {z : Bool} {s0 s : State} (h : Kept z s0 s) (x1 : ℕ) : Kept z s0 (State.refuseInstall s x1) := by
  unfold State.refuseInstall
  try dsimp only
  repeat' (first
    | with_reducible assumption | with_reducible refine kept_appendLog ?_ _ _ _ _ | with_reducible refine kept_modWb ?_ _ | split
    | fail_if_no_progress (with_reducible refine kept_mk (h := ?_)))

theorem kept_execWbInstallWriteDone {z : Bool} {s0 s : State} (h : Kept z s0 s) (x0 : Bool) {t : State} (e : execWbInstallWriteDone x0 s = .next t) : Kept z s0 t := by
  unfold execWbInstallWriteDone at e
  first | (cases e; try dsimp only) | (split at e <;> cases e <;> try dsimp only)
  repeat' (first
    | with_reducible assumption | with_reducible refine kept_modWb ?_ _ | with_reducible refine kept_refuseInstall ?_ _ | split
    | fail_if_no_progress (with_reducible refine kept_mk (h := ?_)))

theorem kept_execWbStandbyCheck {z : Bool} {s0 s : State} (h : Kept z s0 s)  {t : State} (e : execWbStandbyCheck s = .next t) : Kept z s0 t := by
  unfold execWbStandbyCheck at e
  first | (cases e; try dsimp only) | (split at e <;> cases e <;> try dsimp only)
  repeat' (first
    | with_reducible assumption | with_reducible refine kept_modWb ?_ _ | with_reducible refine kept_appendLog ?_ _ _ _ _ | split
    | fail_if_no_progress (with_reducible refine kept_mk (h := ?_)))

theorem kept_execWbSnapHoldEnd {z : Bool} {s0 s : State} (h : Kept z s0 s)  {t : State} (e : execWbSnapHoldEnd s = .next t) : Kept z s0 t := by
  unfold execWbSnapHoldEnd at e
  first | (cases e; try dsimp only) | (split at e <;> cases e <;> try dsimp only)
  repeat' (first
    | with_reducible assumption | with_reducible refine kept_modWb ?_ _ | split
    | fail_if_no_progress (with_reducible refine kept_mk (h := ?_)))

theorem kept_wbReqGo {z : Bool} {s0 s : State} (h : Kept z s0 s) (x1 : Master) : Kept z s0 (State.wbReqGo s x1) := by
  unfold State.wbReqGo
  try dsimp only
  repeat' (first
    | with_reducible assumption | with_reducible refine kept_orReg ?_ _ _ | with_reducible refine kept_modWb ?_ _ | split
    | fail_if_no_progress (with_reducible refine kept_mk (h := ?_)))

theorem kept_wbRtcGo {z : Bool} {s0 s : State} (h : Kept z s0 s) (x1 : Master) : Kept z s0 (State.wbRtcGo s x1) := by
  unfold State.wbRtcGo
  try dsimp only
  repeat' (first
    | with_reducible assumption | with_reducible refine kept_orReg ?_ _ _ | with_reducible refine kept_modWb ?_ _ | split
    | fail_if_no_progress (with_reducible refine kept_mk (h := ?_)))

theorem kept_wbIgnored {z : Bool} {s0 s : State} (h : Kept z s0 s) : Kept z s0 (State.wbIgnored s) := by
  unfold State.wbIgnored
  try dsimp only
  repeat' (first
    | with_reducible assumption | with_reducible refine kept_orReg ?_ _ _ | split
    | fail_if_no_progress (with_reducible refine kept_mk (h := ?_)))

theorem kept_wbInstall {z : Bool} {s0 s : State} (h : Kept z s0 s) (x1 : Master) : Kept z s0 (State.wbInstall s x1) := by
  unfold State.wbInstall
  try dsimp only
  repeat' (first
    | with_reducible assumption | with_reducible refine kept_wbIgnored ?_ | with_reducible refine kept_modWb ?_ _ | split
    | fail_if_no_progress (with_reducible refine kept_mk (h := ?_)))

theorem kept_wbTblCommit {z : Bool} {s0 s : State} (h : Kept z s0 s) (x1 : Master) : Kept z s0 (State.wbTblCommit s x1) := by
  unfold State.wbTblCommit
  try dsimp only
  repeat' (first
    | with_reducible assumption | with_reducible refine kept_gate ?_ _ _ _ | with_reducible refine kept_wbIgnored ?_
    | with_reducible refine kept_modWb ?_ _ | split | fail_if_no_progress (with_reducible refine kept_mk (h := ?_)))

theorem kept_loseStandby {z : Bool} {s0 s : State} (h : Kept z s0 s) : Kept z s0 (State.loseStandby s) := by
  unfold State.loseStandby
  try dsimp only
  repeat' (first
    | with_reducible assumption | with_reducible refine kept_clrReg ?_ _ _ | with_reducible refine kept_modWb ?_ _ | split
    | fail_if_no_progress (with_reducible refine kept_mk (h := ?_)))

theorem kept_execWbSnap {z : Bool} {s0 s : State} (h : Kept z s0 s) (x0 : Master) {t : State} (e : execWbSnap x0 s = .next t) : Kept z s0 t := by
  unfold execWbSnap at e
  first | (cases e; try dsimp only) | (split at e <;> cases e <;> try dsimp only)
  repeat' (first
    | with_reducible assumption | with_reducible refine kept_wbSnap ?_ _ | with_reducible refine kept_noted ?_ _ _ | split
    | fail_if_no_progress (with_reducible refine kept_mk (h := ?_)))

theorem kept_payAudit {z : Bool} {s0 s : State} (h : Kept z s0 s) : Kept z s0 (State.payAudit s) := by
  unfold State.payAudit
  try dsimp only
  repeat' (first
    | with_reducible assumption | with_reducible refine kept_forAll ?_ (fun _ _ _ => ?_) | with_reducible refine kept_modWb ?_ _
    | with_reducible refine kept_auditEvent ?_ _ _ | split | fail_if_no_progress (with_reducible refine kept_mk (h := ?_)))

theorem kept_setTable {z : Bool} {s0 s : State} (h : Kept z s0 s) (x1 : WbTable) : Kept z s0 (State.setTable s x1) := by
  unfold State.setTable
  try dsimp only
  repeat' (first
    | with_reducible assumption | with_reducible refine kept_modWb ?_ _ | split
    | fail_if_no_progress (with_reducible refine kept_mk (h := ?_)))

theorem kept_takeTable {z : Bool} {s0 s : State} (h : Kept z s0 s) : Kept z s0 (State.takeTable s) := by
  unfold State.takeTable
  try dsimp only
  repeat' (first
    | with_reducible assumption | with_reducible refine kept_appendLog ?_ _ _ _ _ | with_reducible refine kept_modWb ?_ _
    | with_reducible refine kept_setTable ?_ _ | split | fail_if_no_progress (with_reducible refine kept_mk (h := ?_)))

theorem kept_takeRequest {z : Bool} {s0 s : State} (h : Kept z s0 s) : Kept z s0 (State.takeRequest s) := by
  unfold State.takeRequest
  try dsimp only
  repeat' (first
    | with_reducible assumption | with_reducible refine kept_modWb ?_ _ | split
    | fail_if_no_progress (with_reducible refine kept_mk (h := ?_)))

theorem kept_execWbEnergySample {z : Bool} {s0 s : State} (h : Kept z s0 s) (x0 : List (ℤ × ℕ)) {t : State} (e : execWbEnergySample x0 s = .next t) : Kept z s0 t := by
  unfold execWbEnergySample at e
  first | (cases e; try dsimp only) | (split at e <;> cases e <;> try dsimp only)
  repeat' (first
    | with_reducible assumption | with_reducible refine kept_takeTable ?_ | with_reducible refine kept_modSb ?_ _
    | with_reducible refine kept_orReg ?_ _ _ | with_reducible refine kept_putReg ?_ _ _ _ | with_reducible refine kept_takeRequest ?_
    | with_reducible refine kept_modWb ?_ _ | split | fail_if_no_progress (with_reducible refine kept_mk (h := ?_)))

theorem kept_execWbRtcSecond {z : Bool} {s0 s : State} (h : Kept z s0 s)  {t : State} (e : execWbRtcSecond s = .next t) : Kept z s0 t := by
  unfold execWbRtcSecond at e
  first | (cases e; try dsimp only) | (split at e <;> cases e <;> try dsimp only)
  repeat' (first
    | with_reducible assumption | with_reducible refine kept_modWb ?_ _ | with_reducible refine kept_modSb ?_ _ | split
    | fail_if_no_progress (with_reducible refine kept_mk (h := ?_)))

theorem kept_execWbCheckpoint {z : Bool} {s0 s : State} (h : Kept z s0 s) (x0 : Bool) {t : State} (e : execWbCheckpoint x0 s = .next t) : Kept z s0 t := by
  unfold execWbCheckpoint at e
  first | (cases e; try dsimp only) | (split at e <;> cases e <;> try dsimp only)
  repeat' (first
    | with_reducible assumption | with_reducible refine kept_modWb ?_ _ | split
    | fail_if_no_progress (with_reducible refine kept_mk (h := ?_))
    | fail_if_no_progress (with_reducible refine kept_mk_quiet (h := ?_) ?_) | exact ⟨rfl, rfl, rfl, rfl, List.prefix_refl _⟩
    | exact ⟨rfl, rfl, rfl, rfl, List.prefix_append _ _⟩)

theorem kept_execWbRtcGo {z : Bool} {s0 s : State} (h : Kept z s0 s) (x0 : Master) {t : State} (e : execWbRtcGo x0 s = .next t) : Kept z s0 t := by
  unfold execWbRtcGo at e
  first | (cases e; try dsimp only) | (split at e <;> cases e <;> try dsimp only)
  repeat' (first
    | with_reducible assumption | with_reducible refine kept_wbRtcGo ?_ _ | with_reducible refine kept_noted ?_ _ _ | split
    | fail_if_no_progress (with_reducible refine kept_mk (h := ?_)))

theorem kept_execTamperChange {z : Bool} {s0 s : State} (h : Kept z s0 s) (x0 : Fin 2) (x1 : Bool) {t : State} (e : execTamperChange x0 x1 s = .next t) : Kept z s0 t := by
  unfold execTamperChange at e
  first | (cases e; try dsimp only) | (split at e <;> cases e <;> try dsimp only)
  repeat' (first
    | with_reducible assumption | with_reducible refine kept_modWb ?_ _ | with_reducible refine kept_tamper ?_ _ _ | split
    | fail_if_no_progress (with_reducible refine kept_mk (h := ?_)))

theorem kept_execSealPadChange {z : Bool} {s0 s : State} (h : Kept z s0 s) (x0 : Bool) {t : State} (e : execSealPadChange x0 s = .next t) : Kept z s0 t := by
  unfold execSealPadChange at e
  first | (cases e; try dsimp only) | (split at e <;> cases e <;> try dsimp only)
  repeat' (first
    | with_reducible assumption | with_reducible refine kept_appendLog ?_ _ _ _ _ | with_reducible refine kept_modWb ?_ _
    | with_reducible refine kept_refuseInstall ?_ _ | split | fail_if_no_progress (with_reducible refine kept_mk (h := ?_)))

theorem kept_execWbTblCommit {z : Bool} {s0 s : State} (h : Kept z s0 s) (x0 : Master) {t : State} (e : execWbTblCommit x0 s = .next t) : Kept z s0 t := by
  unfold execWbTblCommit at e
  first | (cases e; try dsimp only) | (split at e <;> cases e <;> try dsimp only)
  repeat' (first
    | with_reducible assumption | with_reducible refine kept_wbTblCommit ?_ _ | split
    | fail_if_no_progress (with_reducible refine kept_mk (h := ?_)))

theorem kept_execWbInstall {z : Bool} {s0 s : State} (h : Kept z s0 s) (x0 : Master) {t : State} (e : execWbInstall x0 s = .next t) : Kept z s0 t := by
  unfold execWbInstall at e
  first | (cases e; try dsimp only) | (split at e <;> cases e <;> try dsimp only)
  repeat' (first
    | with_reducible assumption | with_reducible refine kept_wbInstall ?_ _ | with_reducible refine kept_noted ?_ _ _ | split
    | fail_if_no_progress (with_reducible refine kept_mk (h := ?_)))

theorem kept_execWbInstallVerifyDone {z : Bool} {s0 s : State} (h : Kept z s0 s) (x0 : Bool) {t : State} (e : execWbInstallVerifyDone x0 s = .next t) : Kept z s0 t := by
  unfold execWbInstallVerifyDone at e
  first | (cases e; try dsimp only) | (split at e <;> cases e <;> try dsimp only)
  repeat' (first
    | with_reducible assumption | with_reducible refine kept_refuseInstall ?_ _ | with_reducible refine kept_modWb ?_ _ | split
    | fail_if_no_progress (with_reducible refine kept_mk (h := ?_)))

theorem kept_execWbInstallCommitDone {z : Bool} {s0 s : State} (h : Kept z s0 s)  {t : State} (e : execWbInstallCommitDone s = .next t) : Kept z s0 t := by
  unfold execWbInstallCommitDone at e
  first | (cases e; try dsimp only) | (split at e <;> cases e <;> try dsimp only)
  repeat' (first
    | with_reducible assumption | with_reducible refine kept_modSb ?_ _ | with_reducible refine kept_setTable ?_ _
    | with_reducible refine kept_appendLog ?_ _ _ _ _ | with_reducible refine kept_modWb ?_ _ | split
    | fail_if_no_progress (with_reducible refine kept_mk (h := ?_)))

theorem kept_execWbInstallRestartDone {z : Bool} {s0 s : State} (h : Kept z s0 s)  {t : State} (e : execWbInstallRestartDone s = .next t) : Kept z s0 t := by
  unfold execWbInstallRestartDone at e
  first | (cases e; try dsimp only) | (split at e <;> cases e <;> try dsimp only)
  repeat' (first
    | with_reducible assumption | with_reducible refine kept_modWb ?_ _ | split
    | fail_if_no_progress (with_reducible refine kept_mk (h := ?_)))

theorem kept_execWbReqGo {z : Bool} {s0 s : State} (h : Kept z s0 s) (x0 : Master) {t : State} (e : execWbReqGo x0 s = .next t) : Kept z s0 t := by
  unfold execWbReqGo at e
  first | (cases e; try dsimp only) | (split at e <;> cases e <;> try dsimp only)
  repeat' (first
    | with_reducible assumption | with_reducible refine kept_wbReqGo ?_ _ | with_reducible refine kept_noted ?_ _ _ | split
    | fail_if_no_progress (with_reducible refine kept_mk (h := ?_)))

theorem kept_execWbRecordReady {z : Bool} {s0 s : State} (h : Kept z s0 s)  {t : State} (e : execWbRecordReady s = .next t) : Kept z s0 t := by
  unfold execWbRecordReady at e
  first | (cases e; try dsimp only) | (split at e <;> cases e <;> try dsimp only)
  repeat' (first
    | with_reducible assumption | with_reducible refine kept_modWb ?_ _ | with_reducible refine kept_modSb ?_ _
    | with_reducible refine kept_setReg ?_ _ _ | split | fail_if_no_progress (with_reducible refine kept_mk (h := ?_)))

theorem kept_execWbSlowClockEdge {z : Bool} {s0 s : State} (h : Kept z s0 s)  {t : State} (e : execWbSlowClockEdge s = .next t) : Kept z s0 t := by
  unfold execWbSlowClockEdge at e
  first | (cases e; try dsimp only) | (split at e <;> cases e <;> try dsimp only)
  repeat' (first
    | with_reducible assumption | with_reducible refine kept_tamperEdge ?_ | with_reducible refine kept_modSb ?_ _
    | with_reducible refine kept_appendLog ?_ _ _ _ _ | with_reducible refine kept_modWb ?_ _ | split
    | fail_if_no_progress (with_reducible refine kept_mk (h := ?_)))

theorem kept_execVbatFall {z : Bool} {s0 s : State} (h : Kept z s0 s)  {t : State} (e : execVbatFall s = .next t) : Kept z s0 t := by
  unfold execVbatFall at e
  first | (cases e; try dsimp only) | (split at e <;> cases e <;> try dsimp only)
  repeat' (first
    | with_reducible assumption | with_reducible refine kept_modWb ?_ _ | with_reducible refine kept_loseStandby ?_ | split
    | fail_if_no_progress (with_reducible refine kept_mk (h := ?_)))

/-! ### Consist -/

theorem kept_fbTaken {z : Bool} {s0 s : State} (h : Kept z s0 s) (x1 : State) (x2 : Fin 24) : Kept z s0 (State.fbTaken s x1 x2) := by
  unfold State.fbTaken
  try dsimp only
  repeat' (first
    | with_reducible assumption | with_reducible refine kept_modFbc ?_ _ _ | with_reducible refine kept_noteNow ?_ _ | split
    | fail_if_no_progress (with_reducible refine kept_mk (h := ?_)))

theorem kept_takeOfs {z : Bool} {s0 s : State} (h : Kept z s0 s) (x1 : Items) (x2 : List DomainId) (x3 : Fin 4) : Kept z s0 (State.takeOfs s x1 x2 x3) := by
  unfold State.takeOfs
  try dsimp only
  repeat' (first
    | with_reducible assumption | with_reducible refine kept_forAll ?_ (fun _ _ _ => ?_) | with_reducible refine kept_putReg ?_ _ _ _
    | with_reducible refine kept_takeRate ?_ _ _ | split | fail_if_no_progress (with_reducible refine kept_mk (h := ?_)))

theorem kept_takeCardHalf {z : Bool} {s0 s : State} (h : Kept z s0 s) (x1 : Items) (x2 : Fin 64) : Kept z s0 (State.takeCardHalf s x1 x2) := by
  unfold State.takeCardHalf
  try dsimp only
  repeat' (first
    | with_reducible assumption | with_reducible refine kept_takeCard ?_ _ _ | with_reducible refine kept_modCard ?_ _ _ | split
    | fail_if_no_progress (with_reducible refine kept_mk (h := ?_)))

theorem kept_takeReg {z : Bool} {s0 s : State} (h : Kept z s0 s) (x1 : Items) (x2 : ℕ) : Kept z s0 (State.takeReg s x1 x2) := by
  unfold State.takeReg
  try dsimp only
  repeat' (first
    | with_reducible assumption | with_reducible refine kept_storeWord ?_ _ _ _ | with_reducible refine kept_recheck ?_ _ | split
    | fail_if_no_progress (with_reducible refine kept_mk (h := ?_)))

theorem kept_takeDevice {z : Bool} {s0 s : State} (h : Kept z s0 s) (x1 : Items) : Kept z s0 (State.takeDevice s x1) := by
  unfold State.takeDevice
  try dsimp only
  repeat' (first
    | with_reducible assumption | with_reducible refine kept_forAll ?_ (fun _ _ _ => ?_) | with_reducible refine kept_takeCardHalf ?_ _ _
    | with_reducible refine kept_takeReg ?_ _ _ | with_reducible refine kept_fbTaken ?_ _ _
    | with_reducible refine kept_prbCfgWrite ?_ _ _ _ | with_reducible refine kept_emuCfgWrite ?_ _ _ _
    | with_reducible refine kept_clrReg ?_ _ _ | with_reducible refine kept_storeWord ?_ _ _ _
    | with_reducible refine kept_putReg ?_ _ _ _ | split | fail_if_no_progress (with_reducible refine kept_mk (h := ?_)))

theorem kept_takeAxis {z : Bool} {s0 s : State} (h : Kept z s0 s) (x1 : Items) (x2 : AxisId) : Kept z s0 (State.takeAxis s x1 x2) := by
  unfold State.takeAxis
  try dsimp only
  repeat' (first
    | with_reducible assumption | with_reducible refine kept_takeCoil ?_ _ _ | with_reducible refine kept_takeFb ?_ _ _
    | with_reducible refine kept_takeSg ?_ _ _ | with_reducible refine kept_takeTt ?_ _ _ | with_reducible refine kept_cardNamed ?_ _
    | with_reducible refine kept_modAx ?_ _ _ | split | fail_if_no_progress (with_reducible refine kept_mk (h := ?_)))

theorem kept_takeConsist {z : Bool} {s0 s : State} (h : Kept z s0 s) (x1 : Items) (x2 : ℕ) (x3 : List DomainId) (x4 : Bool) : Kept z s0 (State.takeConsist s x1 x2 x3 x4) := by
  unfold State.takeConsist
  try dsimp only
  repeat' (first
    | with_reducible assumption | with_reducible refine kept_takeOfs ?_ _ _ _ | with_reducible refine kept_takeDevice ?_ _
    | with_reducible refine kept_forAll ?_ (fun _ _ _ => ?_) | with_reducible refine kept_takeReg ?_ _ _
    | with_reducible refine kept_takeAxis ?_ _ _ | split | fail_if_no_progress (with_reducible refine kept_mk (h := ?_)))

theorem kept_reloadAxis {z : Bool} {s0 s : State} (h : Kept z s0 s) (x1 : AxisId) : Kept z s0 (State.reloadAxis s x1) := by
  unfold State.reloadAxis
  try dsimp only
  repeat' (first
    | with_reducible assumption | with_reducible refine kept_takeAxis ?_ _ _ | split
    | fail_if_no_progress (with_reducible refine kept_mk (h := ?_)))

theorem kept_consistEffect {z : Bool} {s0 s : State} (h : Kept z s0 s) (x1 : Desc) : Kept z s0 (State.consistEffect s x1) := by
  unfold State.consistEffect
  try dsimp only
  repeat' (first
    | with_reducible assumption | with_reducible refine kept_later ?_ _ _ _ _ | with_reducible refine kept_modDesc ?_ _ _ ?_ | split
    | fail_if_no_progress (with_reducible refine kept_mk (h := ?_))
    | fail_if_no_progress (with_reducible refine kept_mk_map (h := ?_) ?_) | with_reducible refine kept_foldl ?_ (fun _ _ _ => ?_)
    | (intro e; rfl) | (intro e; dsimp only; split <;> rfl) | with_reducible refine kept_drawFree ?_
    | with_reducible refine kept_fst ?_ (by assumption) | with_reducible refine kept_snd ?_ (by assumption) | dsimp only)

theorem kept_execConsistSelect {z : Bool} {s0 s : State} (h : Kept z s0 s) (x0 : ℕ) {t : State} (e : execConsistSelect x0 s = .next t) : Kept z s0 t := by
  unfold execConsistSelect at e
  first | (cases e; try dsimp only) | (split at e <;> cases e <;> try dsimp only)
  repeat' (first
    | with_reducible assumption | with_reducible refine kept_withEffect ?_ _ _ _ (fun _ _ _ => ?_) | split
    | fail_if_no_progress (with_reducible refine kept_mk (h := ?_)))

theorem kept_execConsistSlotReadEnd {z : Bool} {s0 s : State} (h : Kept z s0 s) (x0 : ℕ) {t : State} (e : execConsistSlotReadEnd x0 s = .next t) : Kept z s0 t := by
  unfold execConsistSlotReadEnd at e
  first | (cases e; try dsimp only) | (split at e <;> cases e <;> try dsimp only)
  repeat' (first
    | with_reducible assumption | with_reducible refine kept_finish ?_ _ _ _ _ _ | with_reducible refine kept_ask ?_ _ _ | split
    | fail_if_no_progress (with_reducible refine kept_mk (h := ?_))
    | fail_if_no_progress (with_reducible refine kept_mk_quiet (h := ?_) ?_) | exact ⟨rfl, rfl, rfl, rfl, List.prefix_refl _⟩
    | exact ⟨rfl, rfl, rfl, rfl, List.prefix_append _ _⟩)

theorem kept_reloadCard {z : Bool} {s0 s : State} (h : Kept z s0 s) (x1 : Fin 64) : Kept z s0 (State.reloadCard s x1) := by
  unfold State.reloadCard
  try dsimp only
  repeat' (first
    | with_reducible assumption | with_reducible refine kept_takeCardHalf ?_ _ _ | split
    | fail_if_no_progress (with_reducible refine kept_mk (h := ?_)))

/-! ### Heavy -/

theorem kept_execGateSupplyFall {z : Bool} {s0 s : State} (h : Kept z s0 s) (x0 : Fin 2) {t : State} (e : execGateSupplyFall x0 s = .next t) : Kept z s0 t := by
  unfold execGateSupplyFall at e
  first | (cases e; try dsimp only) | (split at e <;> cases e <;> try dsimp only)
  repeat' (first
    | with_reducible assumption | with_reducible refine kept_faultEnergised ?_ _ _ | with_reducible refine kept_raise ?_ _ _ _ _ | split
    | fail_if_no_progress (with_reducible refine kept_mk (h := ?_)))

theorem kept_hvStat {z : Bool} {s0 s : State} (h : Kept z s0 s) (x1 : HeavyId) (x2 : ℕ) : Kept z s0 (State.hvStat s x1 x2) := by
  unfold State.hvStat
  try dsimp only
  repeat' (first
    | with_reducible assumption | with_reducible refine kept_orReg ?_ _ _ | split
    | fail_if_no_progress (with_reducible refine kept_mk (h := ?_)))

theorem kept_heavyValley {z : Bool} {s0 s : State} (h : Kept z s0 s) : Kept z s0 (State.heavyValley s) := by
  unfold State.heavyValley
  try dsimp only
  repeat' (first
    | with_reducible assumption | with_reducible refine kept_forAll ?_ (fun _ _ _ => ?_) | with_reducible refine kept_modHv ?_ _ _
    | split | fail_if_no_progress (with_reducible refine kept_mk (h := ?_)))

theorem kept_bootstraps {z : Bool} {s0 s : State} (h : Kept z s0 s) (x1 : BitVec 32) (x2 : BitVec 32) : Kept z s0 (State.bootstraps s x1 x2) := by
  unfold State.bootstraps
  try dsimp only
  repeat' (first
    | with_reducible assumption | with_reducible refine kept_forAll ?_ (fun _ _ _ => ?_) | with_reducible refine kept_modHv ?_ _ _
    | split | fail_if_no_progress (with_reducible refine kept_mk (h := ?_)))

theorem kept_heavyEdge {z : Bool} {s0 s : State} (h : Kept z s0 s) (x1 : FrameNo) (x2 : HeavyEdge) : Kept z s0 (State.heavyEdge s x1 x2).1 := by
  unfold State.heavyEdge
  try dsimp only
  repeat' (first
    | with_reducible assumption | with_reducible refine kept_hvStat ?_ _ _ | with_reducible refine kept_incReg ?_ _
    | with_reducible refine kept_modHv ?_ _ _ | with_reducible refine kept_raiseAt ?_ _ _ _ _ _ | split
    | fail_if_no_progress (with_reducible refine kept_mk (h := ?_)))

theorem kept_heavyEdges {z : Bool} {s0 s : State} (h : Kept z s0 s) (fr : FrameNo) (es : List HeavyEdge) :
    Kept z s0 (State.heavyEdges s fr es) := by
  have k : ∀ (f : State × List (HeavyEdge × Nat) → HeavyEdge → State × List (HeavyEdge × Nat)),
      (∀ p e, Kept z s0 p.1 → Kept z s0 (f p e).1) → ∀ p, Kept z s0 p.1 → Kept z s0 (es.foldl f p).1 := by
    intro f hf
    induction es with
    | nil => exact fun p hp => hp
    | cons e es ih => exact fun p hp => ih _ (hf p e hp)
  unfold State.heavyEdges
  dsimp only
  exact kept_forAll (k _ (fun p e hp => kept_heavyEdge hp _ _) (s, []) h) fun t x q => kept_modHv q _ _

theorem kept_refresh {z : Bool} {s0 s : State} (h : Kept z s0 s) (x1 : HeavyId) (x2 : ℕ) (x3 : List HeavyEdge) : Kept z s0 (State.refresh s x1 x2 x3) := by
  unfold State.refresh
  try dsimp only
  repeat' (first
    | with_reducible assumption | with_reducible refine kept_incReg ?_ _ | with_reducible refine kept_modHv ?_ _ _
    | with_reducible refine kept_raise ?_ _ _ _ _ | split | fail_if_no_progress (with_reducible refine kept_mk (h := ?_)))

theorem kept_execBootstrapRelease {z : Bool} {s0 s : State} (h : Kept z s0 s) (x0 : HeavyId) {t : State} (e : execBootstrapRelease x0 s = .next t) : Kept z s0 t := by
  unfold execBootstrapRelease at e
  first | (cases e; try dsimp only) | (split at e <;> cases e <;> try dsimp only)
  repeat' (first
    | with_reducible assumption | with_reducible refine kept_modCd ?_ _ _ | with_reducible refine kept_modHv ?_ _ _ | split
    | fail_if_no_progress (with_reducible refine kept_mk (h := ?_)))

theorem kept_execBootstrapReleaseTimeout {z : Bool} {s0 s : State} (h : Kept z s0 s) (x0 : HeavyId) {t : State} (e : execBootstrapReleaseTimeout x0 s = .next t) : Kept z s0 t := by
  unfold execBootstrapReleaseTimeout at e
  first | (cases e; try dsimp only) | (split at e <;> cases e <;> try dsimp only)
  repeat' (first
    | with_reducible assumption | with_reducible refine kept_raise ?_ _ _ _ _ | with_reducible refine kept_bridgeFaulted ?_ _ _ | split
    | fail_if_no_progress (with_reducible refine kept_mk (h := ?_)))

theorem kept_execBootstrapUndervoltage {z : Bool} {s0 s : State} (h : Kept z s0 s) (x0 : Fin 32) {t : State} (e : execBootstrapUndervoltage x0 s = .next t) : Kept z s0 t := by
  unfold execBootstrapUndervoltage at e
  first | (cases e; try dsimp only) | (split at e <;> cases e <;> try dsimp only)
  repeat' (first
    | with_reducible assumption | with_reducible refine kept_raise ?_ _ _ _ _ | with_reducible refine kept_bridgeFaulted ?_ _ _
    | with_reducible refine kept_modHv ?_ _ _ | split | fail_if_no_progress (with_reducible refine kept_mk (h := ?_)))

theorem kept_execGateSupplyRelease {z : Bool} {s0 s : State} (h : Kept z s0 s) (x0 : Fin 2) {t : State} (e : execGateSupplyRelease x0 s = .next t) : Kept z s0 t := by
  unfold execGateSupplyRelease at e
  first | (cases e; try dsimp only) | (split at e <;> cases e <;> try dsimp only)
  repeat' (first
    | with_reducible assumption | split | fail_if_no_progress (with_reducible refine kept_mk (h := ?_)))

theorem kept_execVdsDetection {z : Bool} {s0 s : State} (h : Kept z s0 s) (x0 : Fin 32) (x1 : Bool) (x2 : Detected ℕ) {t : State} (e : execVdsDetection x0 x1 x2 s = .next t) : Kept z s0 t := by
  unfold execVdsDetection at e
  first | (cases e; try dsimp only) | (split at e <;> cases e <;> try dsimp only)
  repeat' (first
    | with_reducible assumption | with_reducible refine kept_hvStat ?_ _ _ | with_reducible refine kept_keepHighs ?_ _ _
    | with_reducible refine kept_modHv ?_ _ _ | with_reducible refine kept_raise ?_ _ _ _ _
    | with_reducible refine kept_bridgeFaulted ?_ _ _ | with_reducible refine kept_latchLegs ?_ _ _ | split
    | fail_if_no_progress (with_reducible refine kept_mk (h := ?_)))

theorem kept_execHardOvercurrent {z : Bool} {s0 s : State} (h : Kept z s0 s) (x0 : Fin 16) (x1 : Detected ℕ) {t : State} (e : execHardOvercurrent x0 x1 s = .next t) : Kept z s0 t := by
  unfold execHardOvercurrent at e
  first | (cases e; try dsimp only) | (split at e <;> cases e <;> try dsimp only)
  repeat' (first
    | with_reducible assumption | with_reducible refine kept_raise ?_ _ _ _ _ | with_reducible refine kept_bridgeFaulted ?_ _ _
    | with_reducible refine kept_latchLegs ?_ _ _ | with_reducible refine kept_hvStat ?_ _ _
    | with_reducible refine kept_keepHighs ?_ _ _ | split | fail_if_no_progress (with_reducible refine kept_mk (h := ?_)))

theorem kept_execGateFeedbackMismatch {z : Bool} {s0 s : State} (h : Kept z s0 s) (x0 : Fin 32) (x1 : Bool) (x2 : Detected (Fin 4)) {t : State} (e : execGateFeedbackMismatch x0 x1 x2 s = .next t) : Kept z s0 t := by
  unfold execGateFeedbackMismatch at e
  first | (cases e; try dsimp only) | (split at e <;> cases e <;> try dsimp only)
  repeat' (first
    | with_reducible assumption | with_reducible refine kept_raise ?_ _ _ _ _ | with_reducible refine kept_bridgeFaulted ?_ _ _
    | with_reducible refine kept_latchLegs ?_ _ _ | with_reducible refine kept_hvStat ?_ _ _
    | with_reducible refine kept_keepHighs ?_ _ _ | split | fail_if_no_progress (with_reducible refine kept_mk (h := ?_)))

/-! ### Samples -/

theorem kept_trackOne {z : Bool} {s0 s : State} (h : Kept z s0 s) (x1 : CarrierId) (x2 : ℕ) (x3 : ℕ) : Kept z s0 (State.trackOne s x1 x2 x3) := by
  unfold State.trackOne
  try dsimp only
  repeat' (first
    | with_reducible assumption | with_reducible refine kept_modCu ?_ _ _ | with_reducible refine kept_putReg ?_ _ _ _ | split
    | fail_if_no_progress (with_reducible refine kept_mk (h := ?_)))

theorem kept_track {z : Bool} {s0 s : State} (h : Kept z s0 s) (x1 : CarrierId) (x2 : List ℕ) : Kept z s0 (State.track s x1 x2) := by
  unfold State.track
  try dsimp only
  repeat' (first
    | with_reducible assumption | with_reducible refine kept_forAll ?_ (fun _ _ _ => ?_) | with_reducible refine kept_trackOne ?_ _ _ _
    | split | fail_if_no_progress (with_reducible refine kept_mk (h := ?_)))

theorem kept_shootThrough {z : Bool} {s0 s : State} (h : Kept z s0 s) (x1 : AxisId) (x2 : BitVec 8) : Kept z s0 (State.shootThrough s x1 x2) := by
  unfold State.shootThrough
  try dsimp only
  repeat' (first
    | with_reducible assumption | with_reducible refine kept_orReg ?_ _ _ | with_reducible refine kept_addReg ?_ _ _
    | with_reducible refine kept_raise ?_ _ _ _ _ | split | fail_if_no_progress (with_reducible refine kept_mk (h := ?_)))

theorem kept_transfer {z : Bool} {s0 s : State} (h : Kept z s0 s) (x1 : AxisId) : Kept z s0 (State.transfer s x1) := by
  unfold State.transfer
  try dsimp only
  repeat' (first
    | with_reducible assumption | with_reducible refine kept_modBr ?_ _ _ | with_reducible refine kept_raise ?_ _ _ _ _
    | with_reducible refine kept_orReg ?_ _ _ | with_reducible refine kept_shootThrough ?_ _ _ | split
    | fail_if_no_progress (with_reducible refine kept_mk (h := ?_)))

theorem kept_loadAxis {z : Bool} {s0 s : State} (h : Kept z s0 s) (x1 : AxisId) : Kept z s0 (State.loadAxis s x1) := by
  unfold State.loadAxis
  try dsimp only
  repeat' (first
    | with_reducible assumption | with_reducible refine kept_modBr ?_ _ _ | with_reducible refine kept_transfer ?_ _
    | with_reducible refine kept_modCd ?_ _ _ | split | fail_if_no_progress (with_reducible refine kept_mk (h := ?_)))

theorem kept_maskLoad {z : Bool} {s0 s : State} (h : Kept z s0 s) (x1 : AxisId) : Kept z s0 (State.maskLoad s x1) := by
  unfold State.maskLoad
  try dsimp only
  repeat' (first
    | with_reducible assumption | with_reducible refine kept_modBr ?_ _ _ | with_reducible refine kept_modCd ?_ _ _
    | with_reducible refine kept_coilDone ?_ _ _ _ _ | split | fail_if_no_progress (with_reducible refine kept_mk (h := ?_)))

theorem kept_unitLoad {z : Bool} {s0 s : State} (h : Kept z s0 s) (x1 : CarrierId) (x2 : Bool) : Kept z s0 (State.unitLoad s x1 x2) := by
  unfold State.unitLoad
  try dsimp only
  repeat' (first
    | with_reducible assumption | with_reducible refine kept_modCu ?_ _ _ | with_reducible refine kept_forAll ?_ (fun _ _ _ => ?_)
    | with_reducible refine kept_loadAxis ?_ _ | with_reducible refine kept_maskLoad ?_ _ | split
    | fail_if_no_progress (with_reducible refine kept_mk (h := ?_)))

theorem kept_newFrame {z : Bool} {s0 s : State} (h : Kept z s0 s) (x1 : CarrierId) : Kept z s0 (State.newFrame s x1) := by
  unfold State.newFrame
  try dsimp only
  repeat' (first
    | with_reducible assumption | with_reducible refine kept_modCu ?_ _ _ | split
    | fail_if_no_progress (with_reducible refine kept_mk (h := ?_)))

theorem kept_endFrame {z : Bool} {s0 s : State} (h : Kept z s0 s) (x1 : AxisId) : Kept z s0 (State.endFrame s x1) := by
  unfold State.endFrame
  try dsimp only
  repeat' (first
    | with_reducible assumption | with_reducible refine kept_modBr ?_ _ _ | split
    | fail_if_no_progress (with_reducible refine kept_mk (h := ?_)))

theorem kept_modCoil {z : Bool} {s0 s : State} (h : Kept z s0 s) (x1 : AxisId) (x2 : Bool) (x3 : Coil → Coil) : Kept z s0 (State.modCoil s x1 x2 x3) := by
  unfold State.modCoil
  try dsimp only
  repeat' (first
    | with_reducible assumption | with_reducible refine kept_modCd ?_ _ _ | split
    | fail_if_no_progress (with_reducible refine kept_mk (h := ?_)))

theorem kept_substituted {z : Bool} {s0 s : State} (h : Kept z s0 s) (x1 : AxisId) : Kept z s0 (State.substituted s x1) := by
  unfold State.substituted
  try dsimp only
  repeat' (first
    | with_reducible assumption | with_reducible refine kept_orReg ?_ _ _ | split
    | fail_if_no_progress (with_reducible refine kept_mk (h := ?_)))

theorem kept_takeValley {z : Bool} {s0 s : State} (h : Kept z s0 s) (x1 : State) (x2 : State) (x3 : AxisId) (x4 : Bool) (x5 : ℕ) (x6 : Bool) : Kept z s0 (State.takeValley s x1 x2 x3 x4 x5 x6) := by
  unfold State.takeValley
  try dsimp only
  repeat' (first
    | with_reducible assumption | with_reducible refine kept_modCoil ?_ _ _ _ | with_reducible refine kept_substituted ?_ _ | split
    | fail_if_no_progress (with_reducible refine kept_mk (h := ?_)))

theorem kept_execBayShadowLoad {z : Bool} {s0 s : State} (h : Kept z s0 s) (u : CarrierId) (v : ValleyIn) {t : State}
    (e : execBayShadowLoad u v s = .next t) : Kept z s0 t := by
  unfold execBayShadowLoad at e
  cases e
  extract_lets loads xs heavyU was b0 sh ahead warned s1 s2 cur s3 s4 s5 w s6
  have hb : Kept z s0 b0 := kept_newFrame (kept_forAll (kept_gathering h) fun _ _ k => kept_endFrame k _) _
  have hsh : Kept z s0 sh := kept_ite (kept_heavyValley hb) hb
  have h1 : Kept z s0 s1 := kept_modCu hsh _ _
  have h2 : Kept z s0 s2 := kept_forAll h1 fun _ _ k => kept_takeValley (kept_takeValley k _ _ _ _ _ _) _ _ _ _ _ _
  have h3 : Kept z s0 s3 := kept_endFallbacks (kept_releaseOv (kept_releaseCoils (kept_deviceAt (kept_force h2 _ _) _) _ _) _ _) _
  have h4 : Kept z s0 s4 :=
    kept_forAll (kept_forAll (kept_track h3 _ _) fun _ _ k => kept_observe k _) fun _ _ k => kept_estimate k _
  have h5 : Kept z s0 s5 := kept_unitLoad h4 _ _
  have h6 : Kept z s0 s6 :=
    kept_ite (kept_forAll (kept_bootstraps (kept_heavyEdges h5 _ _) _ _) fun _ _ k => kept_forAll k fun _ _ q => kept_refresh q _ _ _) h5
  exact kept_ite h (kept_tellAll (kept_fallback (kept_tempCheck h6 _) _ _ _))

theorem kept_takePeak {z : Bool} {s0 s : State} (h : Kept z s0 s) (x1 : AxisId) (x2 : Bool) (x3 : ℕ) : Kept z s0 (State.takePeak s x1 x2 x3) := by
  unfold State.takePeak
  try dsimp only
  repeat' (first
    | with_reducible assumption | with_reducible refine kept_modCoil ?_ _ _ _ | with_reducible refine kept_substituted ?_ _ | split
    | fail_if_no_progress (with_reducible refine kept_mk (h := ?_)))

theorem kept_openStep {z : Bool} {s0 s : State} (h : Kept z s0 s) (x1 : AxisId) (x2 : Bool) : Kept z s0 (State.openStep s x1 x2) := by
  unfold State.openStep
  try dsimp only
  repeat' (first
    | with_reducible assumption | with_reducible refine kept_modCoil ?_ _ _ _ | split
    | fail_if_no_progress (with_reducible refine kept_mk (h := ?_)))

theorem kept_setShadow {z : Bool} {s0 s : State} (h : Kept z s0 s) (x1 : AxisId) (x2 : Ons) (x3 : BitVec 8) (x4 : Bool) : Kept z s0 (State.setShadow s x1 x2 x3 x4) := by
  unfold State.setShadow
  try dsimp only
  repeat' (first
    | with_reducible assumption | with_reducible refine kept_modBr ?_ _ _ | with_reducible refine kept_setReg ?_ _ _ | split
    | fail_if_no_progress (with_reducible refine kept_mk (h := ?_)))

theorem kept_dutyStep {z : Bool} {s0 s : State} (h : Kept z s0 s) (x : AxisId) (g : Drive) : Kept z s0 (State.dutyStep s x g) := by
  unfold State.dutyStep
  extract_lets u card f dp ramping delta fresh one
  have hs : ∀ t b, Kept z s0 t → Kept z s0 (one t b).1 := by
    intro t b k
    dsimp only [one]
    generalize coilDuty _ _ _ _ _ _ _ _ _ _ _ = o
    refine kept_ite (kept_orReg (kept_modCoil ?_ _ _ _) _ _) (kept_modCoil ?_ _ _ _)
    all_goals exact kept_ite (kept_drawFree k) k
  have h1 := hs s false h
  have h2 := hs _ true h1
  dsimp only
  refine kept_setShadow (kept_modCd ?_ _ _) _ _ _ _
  exact kept_ite (kept_incReg h2 _) h2

theorem kept_coilWindow {z : Bool} {s0 s : State} (h : Kept z s0 s) (x1 : AxisId) : Kept z s0 (State.coilWindow s x1) := by
  unfold State.coilWindow
  try dsimp only
  repeat' (first
    | with_reducible assumption | with_reducible refine kept_modCd ?_ _ _ | with_reducible refine kept_setShadow ?_ _ _ _ _
    | with_reducible refine kept_dutyStep ?_ _ _ | split | fail_if_no_progress (with_reducible refine kept_mk (h := ?_)))

theorem kept_stillStep {z : Bool} {s0 s : State} (h : Kept z s0 s) (x1 : AxisId) : Kept z s0 (State.stillStep s x1) := by
  unfold State.stillStep
  try dsimp only
  repeat' (first
    | with_reducible assumption | with_reducible refine kept_modCd ?_ _ _ | split
    | fail_if_no_progress (with_reducible refine kept_mk (h := ?_)))

theorem kept_identStep {z : Bool} {s0 s : State} (h : Kept z s0 s) (x1 : AxisId) : Kept z s0 (State.identStep s x1) := by
  unfold State.identStep
  try dsimp only
  repeat' (first
    | with_reducible assumption | with_reducible refine kept_modCd ?_ _ _ | split
    | fail_if_no_progress (with_reducible refine kept_mk (h := ?_)))

theorem kept_peakAxis {z : Bool} {s0 s : State} (h : Kept z s0 s) (x1 : PeakIn) (x2 : AxisId) : Kept z s0 (State.peakAxis s x1 x2) := by
  unfold State.peakAxis
  try dsimp only
  repeat' (first
    | with_reducible assumption | with_reducible refine kept_takePeak ?_ _ _ _ | with_reducible refine kept_modCd ?_ _ _
    | with_reducible refine kept_openStep ?_ _ _ | with_reducible refine kept_coilWindow ?_ _ | with_reducible refine kept_stillStep ?_ _
    | with_reducible refine kept_identStep ?_ _ | split | fail_if_no_progress (with_reducible refine kept_mk (h := ?_)))

theorem kept_execBayPeakSample {z : Bool} {s0 s : State} (h : Kept z s0 s) (x0 : CarrierId) (x1 : PeakIn) {t : State} (e : execBayPeakSample x0 x1 s = .next t) : Kept z s0 t := by
  unfold execBayPeakSample at e
  first | (cases e; try dsimp only) | (split at e <;> cases e <;> try dsimp only)
  repeat' (first
    | with_reducible assumption | with_reducible refine kept_modCu ?_ _ _ | with_reducible refine kept_gathering ?_
    | with_reducible refine kept_abandonTest ?_ _ | with_reducible refine kept_orReg ?_ _ _ | with_reducible refine kept_releaseOv ?_ _ _
    | with_reducible refine kept_releaseCoils ?_ _ _ | with_reducible refine kept_deviceAt ?_ _ | with_reducible refine kept_force ?_ _ _
    | with_reducible refine kept_forAll ?_ (fun _ _ _ => ?_) | with_reducible refine kept_peakAxis ?_ _ _
    | with_reducible refine kept_tellAll ?_ | with_reducible refine kept_fallback ?_ _ _ _ | split
    | fail_if_no_progress (with_reducible refine kept_mk (h := ?_)))

end Sys2Proof.Machine
end

