-- ==== Sys2Proof/Laws/KeptBlock.lean ====
section
/-! SUPPORT. Every operation of bring-up, the rings, register access, the host link and the frame keeps what `Kept` says. -/

set_option linter.unreachableTactic false
set_option linter.unusedTactic false
set_option linter.unusedVariables false

namespace Sys2Proof.Machine

/-! ### BringUp -/

theorem kept_calNext {z : Bool} {s0 s : State} (h : Kept z s0 s) : Kept z s0 (State.calNext s) := by
  unfold State.calNext
  try dsimp only
  repeat' (first
    | with_reducible assumption | with_reducible refine kept_modCu ?_ _ _ | split
    | fail_if_no_progress (with_reducible refine kept_mk (h := ?_)))

theorem kept_chainCal {z : Bool} {s0 s : State} (h : Kept z s0 s) (x1 : CarrierId) : Kept z s0 (State.chainCal s x1) := by
  unfold State.chainCal
  try dsimp only
  repeat' (first
    | with_reducible assumption | with_reducible refine kept_modCu ?_ _ _ | split
    | fail_if_no_progress (with_reducible refine kept_mk (h := ?_)))

theorem kept_calDone {z : Bool} {s0 s : State} (h : Kept z s0 s) (x1 : CarrierId) (x2 : Bool) (x3 : ℕ) : Kept z s0 (State.calDone s x1 x2 x3) := by
  unfold State.calDone
  try dsimp only
  repeat' (first
    | with_reducible assumption | with_reducible refine kept_raise ?_ _ _ _ _ | with_reducible refine kept_modCu ?_ _ _
    | with_reducible refine kept_calNext ?_ | with_reducible refine kept_chainCal ?_ _ | split
    | fail_if_no_progress (with_reducible refine kept_mk (h := ?_)))

theorem kept_execBayCalibrationEnd {z : Bool} {s0 s : State} (h : Kept z s0 s) (x0 : CarrierId) (x1 : List (ℕ × ℕ)) (x2 : Bool) {t : State} (e : execBayCalibrationEnd x0 x1 x2 s = .next t) : Kept z s0 t := by
  unfold execBayCalibrationEnd at e
  first | (cases e; try dsimp only) | (split at e <;> cases e <;> try dsimp only)
  repeat' (first
    | with_reducible assumption | with_reducible refine kept_forAll ?_ (fun _ _ _ => ?_) | with_reducible refine kept_putReg ?_ _ _ _
    | with_reducible refine kept_calDone ?_ _ _ _ | with_reducible refine kept_modCu ?_ _ _ | split
    | fail_if_no_progress (with_reducible refine kept_mk (h := ?_)))

theorem kept_pwrWrite {z : Bool} {s0 s : State} (h : Kept z s0 s) (x1 : Master) (x2 : Bool) : Kept z s0 (State.pwrWrite s x1 x2) := by
  unfold State.pwrWrite
  try dsimp only
  repeat' (first
    | with_reducible assumption | with_reducible refine kept_gate ?_ _ _ _ | with_reducible refine kept_orReg ?_ _ _
    | with_reducible refine kept_clrReg ?_ _ _ | split | fail_if_no_progress (with_reducible refine kept_mk (h := ?_))
    | fail_if_no_progress (with_reducible refine kept_mk_quiet (h := ?_) ?_) | exact ⟨rfl, rfl, rfl, rfl, List.prefix_refl _⟩
    | exact ⟨rfl, rfl, rfl, rfl, List.prefix_append _ _⟩)

theorem kept_inReset {s0 s : State} (h : Kept false s0 s) : Kept false s0 (State.inReset s) :=
  h.trans ⟨fun _ => rfl, fun _ => ⟨List.Pairwise.nil, fun _ hm => nomatch hm⟩, rfl, List.prefix_refl _, le_refl _, fun e => nomatch e⟩

theorem kept_sampleCfgsel {z : Bool} {s0 s : State} (h : Kept z s0 s) (x1 : BitVec 2) : Kept z s0 (State.sampleCfgsel s x1) := by
  unfold State.sampleCfgsel
  try dsimp only
  repeat' (first
    | with_reducible assumption | split | fail_if_no_progress (with_reducible refine kept_mk (h := ?_))
    | fail_if_no_progress (with_reducible refine kept_mk_quiet (h := ?_) ?_) | exact ⟨rfl, rfl, rfl, rfl, List.prefix_refl _⟩
    | exact ⟨rfl, rfl, rfl, rfl, List.prefix_append _ _⟩)

theorem kept_softReset {s0 s : State} (h : Kept false s0 s) : Kept false s0 (State.softReset s) :=
  h.trans ⟨fun w => regsWf_filter _ w, fun _ => ⟨List.Pairwise.nil, fun _ hm => nomatch hm⟩, rfl, List.prefix_refl _, Nat.le_succ _,
    fun e => nomatch e⟩

theorem kept_resetWrite {s0 s : State} (h : Kept false s0 s) (x1 : Master) (x2 : Word) : Kept false s0 (State.resetWrite s x1 x2) := by
  unfold State.resetWrite
  try dsimp only
  repeat' (first
    | with_reducible assumption | with_reducible refine kept_gate ?_ _ _ _ | with_reducible refine kept_softReset ?_ | split
    | fail_if_no_progress (with_reducible refine kept_mk (h := ?_)))

theorem kept_calWrite {z : Bool} {s0 s : State} (h : Kept z s0 s) (x1 : Master) (x2 : CarrierId) (x3 : ℕ) (x4 : Word) : Kept z s0 (State.calWrite s x1 x2 x3 x4) := by
  unfold State.calWrite
  try dsimp only
  repeat' (first
    | with_reducible assumption | with_reducible refine kept_plainWrite ?_ _ _ _ | with_reducible refine kept_calDone ?_ _ _ _ | split
    | fail_if_no_progress (with_reducible refine kept_mk (h := ?_)))

theorem kept_updCapture {z : Bool} {s0 s : State} (h : Kept z s0 s) : Kept z s0 (State.updCapture s) := by
  unfold State.updCapture
  try dsimp only
  repeat' (first
    | with_reducible assumption | split | fail_if_no_progress (with_reducible refine kept_mk (h := ?_)))

theorem kept_stageEvent {z : Bool} {s0 s : State} (h : Kept z s0 s) (x1 : ℕ) (x2 : ℕ) (x3 : ℕ) (x4 : Word) : Kept z s0 (State.stageEvent s x1 x2 x3 x4) := by
  unfold State.stageEvent
  try dsimp only
  repeat' (first
    | with_reducible assumption | with_reducible refine kept_raise ?_ _ _ _ _ | split
    | fail_if_no_progress (with_reducible refine kept_mk (h := ?_)))

theorem kept_writeFailed {z : Bool} {s0 s : State} (h : Kept z s0 s) (x1 : ℕ) (x2 : ℕ) (x3 : Option Word) : Kept z s0 (State.writeFailed s x1 x2 x3) := by
  unfold State.writeFailed
  try dsimp only
  repeat' (first
    | with_reducible assumption | with_reducible refine kept_stageEvent ?_ _ _ _ _ | with_reducible refine kept_drawFree ?_ | split
    | fail_if_no_progress (with_reducible refine kept_mk (h := ?_)))

theorem kept_updGo {z : Bool} {s0 s : State} (h : Kept z s0 s) : Kept z s0 (State.updGo s) := by
  unfold State.updGo
  try dsimp only
  repeat' (first
    | with_reducible assumption | with_reducible refine kept_orReg ?_ _ _ | with_reducible refine kept_writeFailed ?_ _ _ _
    | with_reducible refine kept_emit ?_ _ | split | fail_if_no_progress (with_reducible refine kept_mk (h := ?_)))

theorem kept_updCtlWrite {z : Bool} {s0 s : State} (h : Kept z s0 s) (x1 : Master) (x2 : Word) : Kept z s0 (State.updCtlWrite s x1 x2) := by
  unfold State.updCtlWrite
  try dsimp only
  repeat' (first
    | with_reducible assumption | with_reducible refine kept_plainWrite ?_ _ _ _ | with_reducible refine kept_updCapture ?_
    | with_reducible refine kept_updGo ?_ | split | fail_if_no_progress (with_reducible refine kept_mk (h := ?_)))

theorem kept_switchWrite {z : Bool} {s0 s : State} (h : Kept z s0 s) (x1 : Master) (x2 : Word) : Kept z s0 (State.switchWrite s x1 x2) := by
  unfold State.switchWrite
  try dsimp only
  repeat' (first
    | with_reducible assumption | with_reducible refine kept_plainWrite ?_ _ _ _ | split
    | fail_if_no_progress (with_reducible refine kept_mk (h := ?_)))

theorem kept_startPass {z : Bool} {s0 s : State} (h : Kept z s0 s) : Kept z s0 (State.startPass s) := by
  unfold State.startPass
  try dsimp only
  repeat' (first
    | with_reducible assumption | with_reducible refine kept_calNext ?_ | split
    | fail_if_no_progress (with_reducible refine kept_mk (h := ?_)))

theorem kept_calCfgWrite {z : Bool} {s0 s : State} (h : Kept z s0 s) (x1 : Master) (x2 : Word) : Kept z s0 (State.calCfgWrite s x1 x2) := by
  unfold State.calCfgWrite
  try dsimp only
  repeat' (first
    | with_reducible assumption | with_reducible refine kept_plainWrite ?_ _ _ _ | with_reducible refine kept_startPass ?_ | split
    | fail_if_no_progress (with_reducible refine kept_mk (h := ?_)))

theorem kept_execVauxFall {s0 s : State} (h : Kept false s0 s) {t : State} (e : execVauxFall s = .next t) : Kept false s0 t := by
  unfold execVauxFall at e
  cases e
  extract_lets a sys b
  have hb : Kept false s0 b := kept_mk_any (kept_setReg (kept_inReset h) _ _)
  exact kept_ite h (kept_ite (kept_loseStandby hb) hb)

theorem kept_execVauxRise {s0 s : State} (h : Kept false s0 s) (x0 : BitVec 2) {t : State} (e : execVauxRise x0 s = .next t) : Kept false s0 t := by
  unfold execVauxRise at e
  first | (cases e; try dsimp only) | (split at e <;> cases e <;> try dsimp only)
  repeat' (first
    | with_reducible assumption | with_reducible refine kept_setReg ?_ _ _ | with_reducible refine kept_inReset ?_
    | with_reducible refine kept_sampleCfgsel ?_ _ | split | fail_if_no_progress (with_reducible refine kept_mk (h := ?_))
    | fail_if_no_progress (with_reducible refine kept_mk_any (h := ?_)))

theorem kept_rebuild {z : Bool} {s0 s : State} (h : Kept z s0 s) (x1 : BitVec 7) (x2 : FwSlot) : Kept z s0 (State.rebuild s x1 x2) := by
  unfold State.rebuild
  try dsimp only
  repeat' (first
    | with_reducible assumption | with_reducible refine kept_forAll ?_ (fun _ _ _ => ?_) | with_reducible refine kept_reloadAxis ?_ _
    | split | fail_if_no_progress (with_reducible refine kept_mk (h := ?_)))

theorem kept_switchCores {z : Bool} {s0 s : State} (h : Kept z s0 s) (x1 : BitVec 7) (x2 : List ℕ) : Kept z s0 (State.switchCores s x1 x2) := by
  unfold State.switchCores
  try dsimp only
  repeat' (first
    | with_reducible assumption | with_reducible refine kept_rebuild ?_ _ _ | with_reducible refine kept_forAll ?_ (fun _ _ _ => ?_)
    | with_reducible refine kept_stageEvent ?_ _ _ _ _ | split | fail_if_no_progress (with_reducible refine kept_mk (h := ?_))
    | fail_if_no_progress (with_reducible refine kept_mk_quiet (h := ?_) ?_) | exact ⟨rfl, rfl, rfl, rfl, List.prefix_refl _⟩
    | exact ⟨rfl, rfl, rfl, rfl, List.prefix_append _ _⟩)

theorem kept_updStep {z : Bool} {s0 s : State} (h : Kept z s0 s) : Kept z s0 (State.updStep s) := by
  unfold State.updStep
  try dsimp only
  repeat' (first
    | with_reducible assumption | with_reducible refine kept_drawFree ?_ | split
    | fail_if_no_progress (with_reducible refine kept_mk (h := ?_)))

theorem kept_refuseSwitch {z : Bool} {s0 s : State} (h : Kept z s0 s) (x1 : BitVec 7) : Kept z s0 (State.refuseSwitch s x1) := by
  unfold State.refuseSwitch
  try dsimp only
  repeat' (first
    | with_reducible assumption | with_reducible refine kept_forAll ?_ (fun _ _ _ => ?_)
    | with_reducible refine kept_stageEvent ?_ _ _ _ _ | split | fail_if_no_progress (with_reducible refine kept_mk (h := ?_)))

theorem kept_firstCals {z : Bool} {s0 s : State} (h : Kept z s0 s) : Kept z s0 (State.firstCals s) := by
  unfold State.firstCals
  try dsimp only
  repeat' (first
    | with_reducible assumption | with_reducible refine kept_forAll ?_ (fun _ _ _ => ?_) | with_reducible refine kept_modCu ?_ _ _
    | split | fail_if_no_progress (with_reducible refine kept_mk (h := ?_)))

theorem kept_loadConsist {z : Bool} {s0 s : State} (h : Kept z s0 s) : Kept z s0 (State.loadConsist s) := by
  unfold State.loadConsist
  try dsimp only
  repeat' (first
    | with_reducible assumption | with_reducible refine kept_forAll ?_ (fun _ _ _ => ?_)
    | with_reducible refine kept_takeConsist ?_ _ _ _ _ | with_reducible refine kept_modCu ?_ _ _ | split
    | fail_if_no_progress (with_reducible refine kept_mk (h := ?_))
    | fail_if_no_progress (with_reducible refine kept_mk_quiet (h := ?_) ?_) | exact ⟨rfl, rfl, rfl, rfl, List.prefix_refl _⟩
    | exact ⟨rfl, rfl, rfl, rfl, List.prefix_append _ _⟩)

theorem kept_bootFrom {s0 s : State} (h : Kept false s0 s) (x1 : Bool) : Kept false s0 (State.bootFrom s x1) := by
  unfold State.bootFrom
  try dsimp only
  repeat' (first
    | with_reducible assumption | split | fail_if_no_progress (with_reducible refine kept_mk (h := ?_))
    | fail_if_no_progress (with_reducible refine kept_mk_any (h := ?_))
    | fail_if_no_progress (with_reducible refine kept_mk_map (h := ?_) ?_) | with_reducible refine kept_foldl ?_ (fun _ _ _ => ?_)
    | (intro e; rfl) | (intro e; dsimp only; split <;> rfl) | with_reducible refine kept_drawFree ?_
    | with_reducible refine kept_fst ?_ (by assumption) | with_reducible refine kept_snd ?_ (by assumption) | dsimp only)

theorem kept_haltCores {z : Bool} {s0 s : State} (h : Kept z s0 s) : Kept z s0 (State.haltCores s) := by
  unfold State.haltCores
  try dsimp only
  repeat' (first
    | with_reducible assumption | with_reducible refine kept_forAll ?_ (fun _ _ _ => ?_) | with_reducible refine kept_modCu ?_ _ _
    | with_reducible refine kept_enterSafe ?_ _ | split | fail_if_no_progress (with_reducible refine kept_mk (h := ?_)))

theorem kept_execBootImageLoaded {s0 s : State} (h : Kept false s0 s) (a b : Bool) {t : State}
    (e : execBootImageLoaded a b s = .next t) : Kept false s0 t := by
  unfold execBootImageLoaded at e
  cases e
  extract_lets cmp s1 ok
  have h1 : Kept false s0 s1 := kept_pllLocks (kept_mk_any h)
  exact kept_ite h (kept_ite (kept_firstCals (kept_loadConsist (kept_bootFrom h1 _)))
    (kept_ite (kept_firstCals (kept_loadConsist (kept_bootFrom h1 _))) (kept_haltCores h1)))

theorem kept_execSoftwareReset {s0 s : State} (h : Kept false s0 s) (x0 : Master) (x1 : Word) {t : State} (e : execSoftwareReset x0 x1 s = .next t) : Kept false s0 t := by
  unfold execSoftwareReset at e
  first | (cases e; try dsimp only) | (split at e <;> cases e <;> try dsimp only)
  repeat' (first
    | with_reducible assumption | with_reducible refine kept_resetWrite ?_ _ _ | split
    | fail_if_no_progress (with_reducible refine kept_mk (h := ?_)))

theorem kept_execCalibrationPassStart {z : Bool} {s0 s : State} (h : Kept z s0 s)  {t : State} (e : execCalibrationPassStart s = .next t) : Kept z s0 t := by
  unfold execCalibrationPassStart at e
  first | (cases e; try dsimp only) | (split at e <;> cases e <;> try dsimp only)
  repeat' (first
    | with_reducible assumption | with_reducible refine kept_startPass ?_ | split
    | fail_if_no_progress (with_reducible refine kept_mk (h := ?_)))

theorem kept_execUpdCalGo {z : Bool} {s0 s : State} (h : Kept z s0 s) (x0 : Master) (x1 : Word) {t : State} (e : execUpdCalGo x0 x1 s = .next t) : Kept z s0 t := by
  unfold execUpdCalGo at e
  first | (cases e; try dsimp only) | (split at e <;> cases e <;> try dsimp only)
  repeat' (first
    | with_reducible assumption | with_reducible refine kept_calCfgWrite ?_ _ _ | split
    | fail_if_no_progress (with_reducible refine kept_mk (h := ?_)))

theorem kept_execUpdCapture {z : Bool} {s0 s : State} (h : Kept z s0 s) (x0 : Master) (x1 : Word) {t : State} (e : execUpdCapture x0 x1 s = .next t) : Kept z s0 t := by
  unfold execUpdCapture at e
  first | (cases e; try dsimp only) | (split at e <;> cases e <;> try dsimp only)
  repeat' (first
    | with_reducible assumption | with_reducible refine kept_updCtlWrite ?_ _ _ | split
    | fail_if_no_progress (with_reducible refine kept_mk (h := ?_)))

theorem kept_execUpdGo {z : Bool} {s0 s : State} (h : Kept z s0 s) (x0 : Master) (x1 : Word) {t : State} (e : execUpdGo x0 x1 s = .next t) : Kept z s0 t := by
  unfold execUpdGo at e
  first | (cases e; try dsimp only) | (split at e <;> cases e <;> try dsimp only)
  repeat' (first
    | with_reducible assumption | with_reducible refine kept_updCtlWrite ?_ _ _ | split
    | fail_if_no_progress (with_reducible refine kept_mk (h := ?_)))

theorem kept_spoilt {z : Bool} {s0 s : State} (h : Kept z s0 s) (x1 : ℕ) (x2 : ℕ) (x3 : ℕ) : Kept z s0 (State.spoilt s x1 x2 x3) := by
  unfold State.spoilt
  try dsimp only
  repeat' (first
    | with_reducible assumption | with_reducible refine kept_drawFree ?_ | split
    | fail_if_no_progress (with_reducible refine kept_mk (h := ?_)))

theorem kept_execUpdWriteDone {z : Bool} {s0 s : State} (h : Kept z s0 s) (x0 : UpdResult) {t : State} (e : execUpdWriteDone x0 s = .next t) : Kept z s0 t := by
  unfold execUpdWriteDone at e
  first | (cases e; try dsimp only) | (split at e <;> cases e <;> try dsimp only)
  repeat' (first
    | with_reducible assumption | with_reducible refine kept_writeFailed ?_ _ _ _ | with_reducible refine kept_spoilt ?_ _ _ _
    | with_reducible refine kept_stageEvent ?_ _ _ _ _ | split | fail_if_no_progress (with_reducible refine kept_mk (h := ?_)))

theorem kept_execUpdSwitchGo {z : Bool} {s0 s : State} (h : Kept z s0 s) (x0 : Master) (x1 : Word) {t : State} (e : execUpdSwitchGo x0 x1 s = .next t) : Kept z s0 t := by
  unfold execUpdSwitchGo at e
  first | (cases e; try dsimp only) | (split at e <;> cases e <;> try dsimp only)
  repeat' (first
    | with_reducible assumption | with_reducible refine kept_switchWrite ?_ _ _ | split
    | fail_if_no_progress (with_reducible refine kept_mk (h := ?_)))

theorem kept_execUpdBankCopyDone {z : Bool} {s0 s : State} (h : Kept z s0 s) (x0 : BitVec 7) {t : State} (e : execUpdBankCopyDone x0 s = .next t) : Kept z s0 t := by
  unfold execUpdBankCopyDone at e
  first | (cases e; try dsimp only) | (split at e <;> cases e <;> try dsimp only)
  repeat' (first
    | with_reducible assumption | with_reducible refine kept_forAll ?_ (fun _ _ _ => ?_)
    | with_reducible refine kept_stageEvent ?_ _ _ _ _ | with_reducible refine kept_ask ?_ _ _ | split
    | fail_if_no_progress (with_reducible refine kept_mk (h := ?_))
    | fail_if_no_progress (with_reducible refine kept_mk_quiet (h := ?_) ?_) | exact ⟨rfl, rfl, rfl, rfl, List.prefix_refl _⟩
    | exact ⟨rfl, rfl, rfl, rfl, List.prefix_append _ _⟩)

theorem kept_execPwrPrep {z : Bool} {s0 s : State} (h : Kept z s0 s) (x0 : Master) {t : State} (e : execPwrPrep x0 s = .next t) : Kept z s0 t := by
  unfold execPwrPrep at e
  first | (cases e; try dsimp only) | (split at e <;> cases e <;> try dsimp only)
  repeat' (first
    | with_reducible assumption | with_reducible refine kept_pwrWrite ?_ _ _ | split
    | fail_if_no_progress (with_reducible refine kept_mk (h := ?_)))

theorem kept_execPwrPrepWithdraw {z : Bool} {s0 s : State} (h : Kept z s0 s) (x0 : Master) {t : State} (e : execPwrPrepWithdraw x0 s = .next t) : Kept z s0 t := by
  unfold execPwrPrepWithdraw at e
  first | (cases e; try dsimp only) | (split at e <;> cases e <;> try dsimp only)
  repeat' (first
    | with_reducible assumption | with_reducible refine kept_pwrWrite ?_ _ _ | split
    | fail_if_no_progress (with_reducible refine kept_mk (h := ?_)))

theorem kept_execPwrDone {z : Bool} {s0 s : State} (h : Kept z s0 s)  {t : State} (e : execPwrDone s = .next t) : Kept z s0 t := by
  unfold execPwrDone at e
  first | (cases e; try dsimp only) | (split at e <;> cases e <;> try dsimp only)
  repeat' (first
    | with_reducible assumption | split | fail_if_no_progress (with_reducible refine kept_mk (h := ?_))
    | fail_if_no_progress (with_reducible refine kept_mk_quiet (h := ?_) ?_) | exact ⟨rfl, rfl, rfl, rfl, List.prefix_refl _⟩
    | exact ⟨rfl, rfl, rfl, rfl, List.prefix_append _ _⟩)

/-! ### Rings -/

theorem kept_readFor {z : Bool} {s0 s : State} (h : Kept z s0 s) (x1 : Desc) (x2 : ℕ) (x3 : ℕ) : Kept z s0 (State.readFor s x1 x2 x3) := by
  unfold State.readFor
  try dsimp only
  repeat' (first
    | with_reducible assumption | with_reducible refine kept_emit ?_ _ | with_reducible refine kept_modDesc ?_ _ _ ?_ | split
    | fail_if_no_progress (with_reducible refine kept_mk (h := ?_))
    | fail_if_no_progress (with_reducible refine kept_mk_quiet (h := ?_) ?_) | exact ⟨rfl, rfl, rfl, rfl, List.prefix_refl _⟩
    | exact ⟨rfl, rfl, rfl, rfl, List.prefix_append _ _⟩ | fail_if_no_progress (with_reducible refine kept_mk_map (h := ?_) ?_)
    | with_reducible refine kept_foldl ?_ (fun _ _ _ => ?_) | (intro e; rfl) | (intro e; dsimp only; split <;> rfl)
    | with_reducible refine kept_drawFree ?_ | with_reducible refine kept_fst ?_ (by assumption)
    | with_reducible refine kept_snd ?_ (by assumption) | dsimp only)

theorem kept_readDoorbell {z : Bool} {s0 s : State} (h : Kept z s0 s) (x1 : BlockRead) : Kept z s0 (State.readDoorbell s x1) := by
  unfold State.readDoorbell
  try dsimp only
  repeat' (first
    | with_reducible assumption | with_reducible refine kept_emit ?_ _ | split
    | fail_if_no_progress (with_reducible refine kept_mk (h := ?_)))

theorem kept_cfgIgnored {z : Bool} {s0 s : State} (h : Kept z s0 s) (x1 : ℕ) : Kept z s0 (State.cfgIgnored s x1) := by
  unfold State.cfgIgnored
  try dsimp only
  repeat' (first
    | with_reducible assumption | with_reducible refine kept_orReg ?_ _ _ | split
    | fail_if_no_progress (with_reducible refine kept_mk (h := ?_)))

theorem kept_cqCfgWrite {z : Bool} {s0 s : State} (h : Kept z s0 s) (x1 : Master) (x2 : RingId) (x3 : Word) : Kept z s0 (State.cqCfgWrite s x1 x2 x3) := by
  unfold State.cqCfgWrite
  try dsimp only
  repeat' (first
    | with_reducible assumption | with_reducible refine kept_gate ?_ _ _ _ | with_reducible refine kept_cfgIgnored ?_ _
    | with_reducible refine kept_rewritten ?_ _ | with_reducible refine kept_setReg ?_ _ _ | with_reducible refine kept_modCq ?_ _ _
    | split | fail_if_no_progress (with_reducible refine kept_mk (h := ?_)) | with_reducible refine kept_fst ?_ (by assumption)
    | with_reducible refine kept_snd ?_ (by assumption) | dsimp only)

theorem kept_blockFailed {z : Bool} {s0 s : State} (h : Kept z s0 s) (x1 : BitVec 8) (x2 : ℕ) : Kept z s0 (State.blockFailed s x1 x2) := by
  unfold State.blockFailed
  try dsimp only
  repeat' (first
    | with_reducible assumption | with_reducible refine kept_raise ?_ _ _ _ _ | with_reducible refine kept_orReg ?_ _ _ | split
    | fail_if_no_progress (with_reducible refine kept_mk (h := ?_)))

theorem kept_issueRead {z : Bool} {s0 s : State} (h : Kept z s0 s) (x1 : RingId) (x2 : ℕ) : Kept z s0 (State.issueRead s x1 x2) := by
  unfold State.issueRead
  try dsimp only
  repeat' (first
    | with_reducible assumption | with_reducible refine kept_modSq ?_ _ _ | with_reducible refine kept_emit ?_ _ | split
    | fail_if_no_progress (with_reducible refine kept_mk (h := ?_)))

theorem kept_fetchOne {z : Bool} {s0 s : State} (h : Kept z s0 s) (x1 : RingId) : Kept z s0 (State.fetchOne s x1) := by
  unfold State.fetchOne
  try dsimp only
  repeat' (first
    | with_reducible assumption | with_reducible refine kept_issueRead ?_ _ _ | split
    | fail_if_no_progress (with_reducible refine kept_mk (h := ?_)))

theorem kept_fetchAll {z : Bool} {s0 s : State} (h : Kept z s0 s) : Kept z s0 (State.fetchAll s) := by
  unfold State.fetchAll
  try dsimp only
  repeat' (first
    | with_reducible assumption | with_reducible refine kept_forAll ?_ (fun _ _ _ => ?_) | with_reducible refine kept_fetchOne ?_ _
    | split | fail_if_no_progress (with_reducible refine kept_mk (h := ?_)))

theorem kept_takeEqHead {z : Bool} {s0 s : State} (h : Kept z s0 s) (x1 : Word) : Kept z s0 (State.takeEqHead s x1) := by
  unfold State.takeEqHead
  try dsimp only
  repeat' (first
    | with_reducible assumption | with_reducible refine kept_eqOverflow ?_ | with_reducible refine kept_raise ?_ _ _ _ _ | split
    | fail_if_no_progress (with_reducible refine kept_mk (h := ?_)))

theorem kept_takeHead {z : Bool} {s0 s : State} (h : Kept z s0 s) (x1 : RingId) (x2 : Word) : Kept z s0 (State.takeHead s x1 x2) := by
  unfold State.takeHead
  try dsimp only
  repeat' (first
    | with_reducible assumption | with_reducible refine kept_drainWaiting ?_ _ _ | with_reducible refine kept_modCq ?_ _ _
    | with_reducible refine kept_raise ?_ _ _ _ _ | split | fail_if_no_progress (with_reducible refine kept_mk (h := ?_)))

theorem kept_execReturnBlockReadDone {z : Bool} {s0 s : State} (h : Kept z s0 s) (x0 : HostRead) {t : State} (e : execReturnBlockReadDone x0 s = .next t) : Kept z s0 t := by
  unfold execReturnBlockReadDone at e
  first | (cases e; try dsimp only) | (split at e <;> cases e <;> try dsimp only)
  repeat' (first
    | with_reducible assumption | with_reducible refine kept_blockFailed ?_ _ _ | with_reducible refine kept_fetchAll ?_
    | with_reducible refine kept_takeEqHead ?_ _ | with_reducible refine kept_forAll ?_ (fun _ _ _ => ?_)
    | with_reducible refine kept_takeHead ?_ _ _ | split | fail_if_no_progress (with_reducible refine kept_mk (h := ?_)))

theorem kept_readReturn {z : Bool} {s0 s : State} (h : Kept z s0 s) (x1 : BlockRead) : Kept z s0 (State.readReturn s x1) := by
  unfold State.readReturn
  try dsimp only
  repeat' (first
    | with_reducible assumption | with_reducible refine kept_emit ?_ _ | split
    | fail_if_no_progress (with_reducible refine kept_mk (h := ?_)))

theorem kept_kickReads {z : Bool} {s0 s : State} (h : Kept z s0 s) : Kept z s0 (State.kickReads s) := by
  unfold State.kickReads
  try dsimp only
  repeat' (first
    | with_reducible assumption | with_reducible refine kept_readReturn ?_ _ | with_reducible refine kept_readDoorbell ?_ _ | split
    | fail_if_no_progress (with_reducible refine kept_mk (h := ?_)))

theorem kept_kick {z : Bool} {s0 s : State} (h : Kept z s0 s) : Kept z s0 (State.kick s) := by
  unfold State.kick
  try dsimp only
  repeat' (first
    | with_reducible assumption | with_reducible refine kept_kickReads ?_ | split
    | fail_if_no_progress (with_reducible refine kept_mk (h := ?_)))

theorem kept_kickWrite {z : Bool} {s0 s : State} (h : Kept z s0 s) (x1 : Master) : Kept z s0 (State.kickWrite s x1) := by
  unfold State.kickWrite
  try dsimp only
  repeat' (first
    | with_reducible assumption | with_reducible refine kept_kick ?_ | split
    | fail_if_no_progress (with_reducible refine kept_mk (h := ?_)))

theorem kept_eqCfgWrite {z : Bool} {s0 s : State} (h : Kept z s0 s) (x1 : Master) (x2 : Word) : Kept z s0 (State.eqCfgWrite s x1 x2) := by
  unfold State.eqCfgWrite
  try dsimp only
  repeat' (first
    | with_reducible assumption | with_reducible refine kept_gate ?_ _ _ _ | with_reducible refine kept_cfgIgnored ?_ _
    | with_reducible refine kept_rewritten ?_ _ | with_reducible refine kept_setReg ?_ _ _ | split
    | fail_if_no_progress (with_reducible refine kept_mk (h := ?_)) | with_reducible refine kept_fst ?_ (by assumption)
    | with_reducible refine kept_snd ?_ (by assumption) | dsimp only)

theorem kept_baseWrite {z : Bool} {s0 s : State} (h : Kept z s0 s) (x1 : Master) (x2 : ℕ) (x3 : Word) (x4 : Bool) (x5 : ℕ) : Kept z s0 (State.baseWrite s x1 x2 x3 x4 x5) := by
  unfold State.baseWrite
  try dsimp only
  repeat' (first
    | with_reducible assumption | with_reducible refine kept_gate ?_ _ _ _ | with_reducible refine kept_cfgIgnored ?_ _
    | with_reducible refine kept_rewritten ?_ _ | with_reducible refine kept_setReg ?_ _ _ | split
    | fail_if_no_progress (with_reducible refine kept_mk (h := ?_)) | with_reducible refine kept_fst ?_ (by assumption)
    | with_reducible refine kept_snd ?_ (by assumption) | dsimp only)

theorem kept_sqStart {z : Bool} {s0 s : State} (h : Kept z s0 s) (x1 : RingId) : Kept z s0 (State.sqStart s x1) := by
  unfold State.sqStart
  try dsimp only
  repeat' (first
    | with_reducible assumption | with_reducible refine kept_modSq ?_ _ _ | split
    | fail_if_no_progress (with_reducible refine kept_mk (h := ?_)))

theorem kept_sqDrain {z : Bool} {s0 s : State} (h : Kept z s0 s) (x1 : RingId) : Kept z s0 (State.sqDrain s x1) := by
  unfold State.sqDrain
  try dsimp only
  repeat' (first
    | with_reducible assumption | with_reducible refine kept_modSq ?_ _ _ | split
    | fail_if_no_progress (with_reducible refine kept_mk (h := ?_)))

theorem kept_sqCfgWrite {z : Bool} {s0 s : State} (h : Kept z s0 s) (x1 : Master) (x2 : RingId) (x3 : Word) : Kept z s0 (State.sqCfgWrite s x1 x2 x3) := by
  unfold State.sqCfgWrite
  try dsimp only
  repeat' (first
    | with_reducible assumption | with_reducible refine kept_gate ?_ _ _ _ | with_reducible refine kept_cfgIgnored ?_ _
    | with_reducible refine kept_rewritten ?_ _ | with_reducible refine kept_setReg ?_ _ _ | with_reducible refine kept_sqStart ?_ _
    | with_reducible refine kept_sqDrain ?_ _ | split | fail_if_no_progress (with_reducible refine kept_mk (h := ?_))
    | with_reducible refine kept_fst ?_ (by assumption) | with_reducible refine kept_snd ?_ (by assumption) | dsimp only)

theorem kept_modVector {z : Bool} {s0 s : State} (h : Kept z s0 s) (x1 : Fin 2) (x2 : Fin 16) (x3 : MsixEntry → MsixEntry) : Kept z s0 (State.modVector s x1 x2 x3) := by
  unfold State.modVector
  try dsimp only
  repeat' (first
    | with_reducible assumption | split | fail_if_no_progress (with_reducible refine kept_mk (h := ?_)))

theorem kept_bar2Write {z : Bool} {s0 s : State} (h : Kept z s0 s) (x1 : Fin 2) (x2 : ℕ) (x3 : Word) : Kept z s0 (State.bar2Write s x1 x2 x3) := by
  unfold State.bar2Write
  try dsimp only
  repeat' (first
    | with_reducible assumption | with_reducible refine kept_modVector ?_ _ _ _ | with_reducible refine kept_maskVector ?_ _ _
    | with_reducible refine kept_unmask ?_ _ _ | split | fail_if_no_progress (with_reducible refine kept_mk (h := ?_)))

theorem kept_bar2Read {z : Bool} {s0 s : State} (h : Kept z s0 s) (x1 : Fin 2) (x2 : ℕ) : Kept z s0 (State.bar2Read s x1 x2) := by
  unfold State.bar2Read
  try dsimp only
  repeat' (first
    | with_reducible assumption | split | fail_if_no_progress (with_reducible refine kept_mk (h := ?_)))

theorem kept_readSlot {z : Bool} {s0 s : State} (h : Kept z s0 s) (x1 : Desc) : Kept z s0 (State.readSlot s x1) := by
  unfold State.readSlot
  try dsimp only
  repeat' (first
    | with_reducible assumption | with_reducible refine kept_readFor ?_ _ _ _ | split
    | fail_if_no_progress (with_reducible refine kept_mk (h := ?_)))

theorem kept_readList {z : Bool} {s0 s : State} (h : Kept z s0 s) (x1 : Desc) : Kept z s0 (State.readList s x1) := by
  unfold State.readList
  try dsimp only
  repeat' (first
    | with_reducible assumption | with_reducible refine kept_readFor ?_ _ _ _ | split
    | fail_if_no_progress (with_reducible refine kept_mk (h := ?_)))

theorem kept_execCqEnable {z : Bool} {s0 s : State} (h : Kept z s0 s) (x0 : Master) (x1 : RingId) (x2 : Word) {t : State} (e : execCqEnable x0 x1 x2 s = .next t) : Kept z s0 t := by
  unfold execCqEnable at e
  first | (cases e; try dsimp only) | (split at e <;> cases e <;> try dsimp only)
  repeat' (first
    | with_reducible assumption | with_reducible refine kept_cqCfgWrite ?_ _ _ _ | split
    | fail_if_no_progress (with_reducible refine kept_mk (h := ?_)))

theorem kept_execHifKick {z : Bool} {s0 s : State} (h : Kept z s0 s) (x0 : Master) {t : State} (e : execHifKick x0 s = .next t) : Kept z s0 t := by
  unfold execHifKick at e
  first | (cases e; try dsimp only) | (split at e <;> cases e <;> try dsimp only)
  repeat' (first
    | with_reducible assumption | with_reducible refine kept_kickWrite ?_ _ | split
    | fail_if_no_progress (with_reducible refine kept_mk (h := ?_)))

theorem kept_doorbell {z : Bool} {s0 s : State} (h : Kept z s0 s) (x1 : RingId) (x2 : Word) : Kept z s0 (State.doorbell s x1 x2) := by
  unfold State.doorbell
  try dsimp only
  repeat' (first
    | with_reducible assumption | with_reducible refine kept_modSq ?_ _ _ | with_reducible refine kept_raise ?_ _ _ _ _
    | with_reducible refine kept_issueRead ?_ _ _ | split | fail_if_no_progress (with_reducible refine kept_mk (h := ?_)))

theorem kept_execDoorbellBlockReadDone {z : Bool} {s0 s : State} (h : Kept z s0 s) (x0 : HostRead) {t : State} (e : execDoorbellBlockReadDone x0 s = .next t) : Kept z s0 t := by
  unfold execDoorbellBlockReadDone at e
  first | (cases e; try dsimp only) | (split at e <;> cases e <;> try dsimp only)
  repeat' (first
    | with_reducible assumption | with_reducible refine kept_blockFailed ?_ _ _ | with_reducible refine kept_forAll ?_ (fun _ _ _ => ?_)
    | with_reducible refine kept_doorbell ?_ _ _ | with_reducible refine kept_kickReads ?_ | with_reducible refine kept_fetchAll ?_
    | split | fail_if_no_progress (with_reducible refine kept_mk (h := ?_)))

theorem kept_fetchFailed {z : Bool} {s0 s : State} (h : Kept z s0 s) (x1 : RingId) (x2 : BitVec 24) (x3 : ℕ) (x4 : BitVec 8) : Kept z s0 (State.fetchFailed s x1 x2 x3 x4) := by
  unfold State.fetchFailed
  try dsimp only
  repeat' (first
    | with_reducible assumption | with_reducible refine kept_raise ?_ _ _ _ _ | with_reducible refine kept_modSq ?_ _ _ | split
    | fail_if_no_progress (with_reducible refine kept_mk (h := ?_)))

theorem kept_accept {z : Bool} {s0 s : State} (h : Kept z s0 s) (d : Desc) (a : d.acc = s.ord.next) : Kept z s0 (State.accept s d) := by
  have k : Kept z s0 { s with ord := { s.ord with next := s.ord.next + 1, descs := s.ord.descs ++ [d] } } := by
    refine h.trans ⟨id, fun w => ⟨?_, fun n hm => ?_⟩, rfl, List.prefix_refl _, le_refl _, fun _ => ⟨rfl, rfl, rfl, rfl, List.prefix_refl _⟩⟩
    · simp only [List.map_append, List.map_cons, List.map_nil, a]
      exact List.pairwise_append.2 ⟨w.1, List.pairwise_singleton _ _, fun x hx y hy => by
        have := w.2 x hx
        simp only [List.mem_singleton] at hy
        omega⟩
    · simp only [List.map_append, List.map_cons, List.map_nil, List.mem_append, List.mem_singleton, a] at hm
      show n < s.ord.next + 1
      rcases hm with hm | hm
      · exact Nat.lt_succ_of_lt (w.2 n hm)
      · omega
  unfold State.accept
  dsimp only
  generalize ({ s with ord := { s.ord with next := s.ord.next + 1, descs := s.ord.descs ++ [d] } } : State) = s1 at k ⊢
  split
  · split
    · exact k
    · exact kept_finishRejected k _ _
  · split
    · exact kept_finish k _ _ _ _ _
    · split
      · refine kept_readList (kept_modDesc k _ _ ?_) _
        exact fun _ => rfl
      · exact k

theorem kept_acceptEntry {z : Bool} {s0 s : State} (h : Kept z s0 s) (q : RingId) (e : List Byte) : Kept z s0 (State.acceptEntry s q e).1 := by
  unfold State.acceptEntry
  dsimp only
  split
  · exact kept_raise (kept_produce (kept_modSq h _ _) _ _) _ _ _ _
  · split
    · exact kept_raise (kept_produce (kept_modSq h _ _) _ _) _ _ _ _
    · split
      · exact kept_raise (kept_produce (kept_modSq h _ _) _ _) _ _ _ _
      · exact kept_accept (kept_modSq h _ _) _ rfl

theorem kept_acceptAll {z : Bool} {s0 s : State} (h : Kept z s0 s) (q : RingId) (n : Nat) (b : List Byte) : Kept z s0 (State.acceptAll q n b s) := by
  induction n generalizing s b with
  | zero => exact h
  | succ n ih =>
    rw [State.acceptAll]
    split
    · have k := kept_acceptEntry h q (b.take 64)
      split
      · exact ih (kept_fst k (by assumption)) _
      · exact kept_fst k (by assumption)
    · exact h

theorem kept_execDescriptorReadDone {z : Bool} {s0 s : State} (h : Kept z s0 s) (x0 : RingId) (x1 : HostRead) {t : State} (e : execDescriptorReadDone x0 x1 s = .next t) : Kept z s0 t := by
  unfold execDescriptorReadDone at e
  first | (cases e; try dsimp only) | (split at e <;> cases e <;> try dsimp only)
  repeat' (first
    | with_reducible assumption | with_reducible refine kept_modSq ?_ _ _ | with_reducible refine kept_fetchAll ?_
    | with_reducible refine kept_fetchFailed ?_ _ _ _ _ | with_reducible refine kept_enterRing ?_ _ _
    | with_reducible refine kept_acceptAll ?_ _ _ _ | split | fail_if_no_progress (with_reducible refine kept_mk (h := ?_)))

theorem kept_abortHeld {z : Bool} {s0 s : State} (h : Kept z s0 s) (x1 : Desc) (x2 : ℕ) (x3 : Bool) : Kept z s0 (State.abortHeld s x1 x2 x3) := by
  unfold State.abortHeld
  try dsimp only
  repeat' (first
    | with_reducible assumption | with_reducible refine kept_finish ?_ _ _ _ _ _ | with_reducible refine kept_forAll ?_ (fun _ _ _ => ?_)
    | with_reducible refine kept_faultAxis ?_ _ _ | split | fail_if_no_progress (with_reducible refine kept_mk (h := ?_)))

theorem kept_execDescriptorRefetchDone {z : Bool} {s0 s : State} (h : Kept z s0 s) (x0 : ℕ) (x1 : HostRead) {t : State} (e : execDescriptorRefetchDone x0 x1 s = .next t) : Kept z s0 t := by
  unfold execDescriptorRefetchDone at e
  first | (cases e; try dsimp only) | (split at e <;> cases e <;> try dsimp only)
  repeat' (first
    | with_reducible assumption | with_reducible refine kept_modDesc ?_ _ _ ?_ | with_reducible refine kept_readList ?_ _
    | with_reducible refine kept_abortHeld ?_ _ _ _ | with_reducible refine kept_raise ?_ _ _ _ _
    | with_reducible refine kept_modSq ?_ _ _ | split | fail_if_no_progress (with_reducible refine kept_mk (h := ?_))
    | fail_if_no_progress (with_reducible refine kept_mk_map (h := ?_) ?_) | with_reducible refine kept_foldl ?_ (fun _ _ _ => ?_)
    | (intro e; rfl) | (intro e; dsimp only; split <;> rfl) | with_reducible refine kept_drawFree ?_
    | with_reducible refine kept_fst ?_ (by assumption) | with_reducible refine kept_snd ?_ (by assumption) | dsimp only)

theorem kept_execSqEnable {z : Bool} {s0 s : State} (h : Kept z s0 s) (x0 : Master) (x1 : RingId) (x2 : Word) {t : State} (e : execSqEnable x0 x1 x2 s = .next t) : Kept z s0 t := by
  unfold execSqEnable at e
  first | (cases e; try dsimp only) | (split at e <;> cases e <;> try dsimp only)
  repeat' (first
    | with_reducible assumption | with_reducible refine kept_sqCfgWrite ?_ _ _ _ | split
    | fail_if_no_progress (with_reducible refine kept_mk (h := ?_)))

theorem kept_execSqDisable {z : Bool} {s0 s : State} (h : Kept z s0 s) (x0 : Master) (x1 : RingId) (x2 : Word) {t : State} (e : execSqDisable x0 x1 x2 s = .next t) : Kept z s0 t := by
  unfold execSqDisable at e
  first | (cases e; try dsimp only) | (split at e <;> cases e <;> try dsimp only)
  repeat' (first
    | with_reducible assumption | with_reducible refine kept_sqCfgWrite ?_ _ _ _ | split
    | fail_if_no_progress (with_reducible refine kept_mk (h := ?_)))

theorem kept_execSqDrainDone {z : Bool} {s0 s : State} (h : Kept z s0 s) (x0 : RingId) {t : State} (e : execSqDrainDone x0 s = .next t) : Kept z s0 t := by
  unfold execSqDrainDone at e
  first | (cases e; try dsimp only) | (split at e <;> cases e <;> try dsimp only)
  repeat' (first
    | with_reducible assumption | with_reducible refine kept_modSq ?_ _ _ | split
    | fail_if_no_progress (with_reducible refine kept_mk (h := ?_)))

theorem kept_execCqDisable {z : Bool} {s0 s : State} (h : Kept z s0 s) (x0 : Master) (x1 : RingId) (x2 : Word) {t : State} (e : execCqDisable x0 x1 x2 s = .next t) : Kept z s0 t := by
  unfold execCqDisable at e
  first | (cases e; try dsimp only) | (split at e <;> cases e <;> try dsimp only)
  repeat' (first
    | with_reducible assumption | with_reducible refine kept_cqCfgWrite ?_ _ _ _ | split
    | fail_if_no_progress (with_reducible refine kept_mk (h := ?_)))

theorem kept_execEqEnable {z : Bool} {s0 s : State} (h : Kept z s0 s) (x0 : Master) (x1 : Word) {t : State} (e : execEqEnable x0 x1 s = .next t) : Kept z s0 t := by
  unfold execEqEnable at e
  first | (cases e; try dsimp only) | (split at e <;> cases e <;> try dsimp only)
  repeat' (first
    | with_reducible assumption | with_reducible refine kept_eqCfgWrite ?_ _ _ | split
    | fail_if_no_progress (with_reducible refine kept_mk (h := ?_)))

theorem kept_execEqDisable {z : Bool} {s0 s : State} (h : Kept z s0 s) (x0 : Master) (x1 : Word) {t : State} (e : execEqDisable x0 x1 s = .next t) : Kept z s0 t := by
  unfold execEqDisable at e
  first | (cases e; try dsimp only) | (split at e <;> cases e <;> try dsimp only)
  repeat' (first
    | with_reducible assumption | with_reducible refine kept_eqCfgWrite ?_ _ _ | split
    | fail_if_no_progress (with_reducible refine kept_mk (h := ?_)))

theorem kept_execMsixCoalesceTimeout {z : Bool} {s0 s : State} (h : Kept z s0 s) (x0 : Fin 17) {t : State} (e : execMsixCoalesceTimeout x0 s = .next t) : Kept z s0 t := by
  unfold execMsixCoalesceTimeout at e
  first | (cases e; try dsimp only) | (split at e <;> cases e <;> try dsimp only)
  repeat' (first
    | with_reducible assumption | with_reducible refine kept_signalCq ?_ _ | with_reducible refine kept_signalEq ?_ | split
    | fail_if_no_progress (with_reducible refine kept_mk (h := ?_)))

theorem kept_execEnterOrdering {z : Bool} {s0 s : State} (h : Kept z s0 s) (x0 : RingId) {t : State} (e : execEnterOrdering x0 s = .next t) : Kept z s0 t := by
  unfold execEnterOrdering at e
  first | (cases e; try dsimp only) | (split at e <;> cases e <;> try dsimp only)
  repeat' (first
    | with_reducible assumption | with_reducible refine kept_fetchOne ?_ _ | with_reducible refine kept_enterRing ?_ _ _ | split
    | fail_if_no_progress (with_reducible refine kept_mk (h := ?_)))

theorem kept_hitDesc {z : Bool} {s0 s : State} (h : Kept z s0 s) (x1 : Desc) : Kept z s0 (State.hitDesc s x1) := by
  unfold State.hitDesc
  try dsimp only
  repeat' (first
    | with_reducible assumption | with_reducible refine kept_putBack ?_ _ | with_reducible refine kept_undo ?_ _
    | with_reducible refine kept_readSlot ?_ _ | with_reducible refine kept_modDesc ?_ _ _ ?_ | split
    | fail_if_no_progress (with_reducible refine kept_mk (h := ?_))
    | fail_if_no_progress (with_reducible refine kept_mk_map (h := ?_) ?_) | with_reducible refine kept_foldl ?_ (fun _ _ _ => ?_)
    | (intro e; rfl) | (intro e; dsimp only; split <;> rfl) | with_reducible refine kept_drawFree ?_
    | with_reducible refine kept_fst ?_ (by assumption) | with_reducible refine kept_snd ?_ (by assumption) | dsimp only)

theorem kept_execMsixVectorUnmask {z : Bool} {s0 s : State} (h : Kept z s0 s) (x0 : Fin 2) (x1 : Fin 16) {t : State} (e : execMsixVectorUnmask x0 x1 s = .next t) : Kept z s0 t := by
  unfold execMsixVectorUnmask at e
  first | (cases e; try dsimp only) | (split at e <;> cases e <;> try dsimp only)
  repeat' (first
    | with_reducible assumption | with_reducible refine kept_unmask ?_ _ _ | split
    | fail_if_no_progress (with_reducible refine kept_mk (h := ?_)))

/-! ### Access -/

theorem kept_sramWord {z : Bool} {s0 s : State} (h : Kept z s0 s) (x1 : ℕ) : Kept z s0 (State.sramWord s x1).2 := by
  unfold State.sramWord
  try dsimp only
  repeat' (first
    | with_reducible assumption | with_reducible refine kept_drawFree ?_ | split
    | fail_if_no_progress (with_reducible refine kept_mk (h := ?_)))

theorem kept_eccWord {z : Bool} {s0 s : State} (h : Kept z s0 s) (x1 : EccFinder) (x2 : ℕ) : Kept z s0 (State.eccWord s x1 x2).2.2 := by
  unfold State.eccWord
  try dsimp only
  repeat' (first
    | with_reducible assumption | with_reducible refine kept_drawFree ?_ | split
    | fail_if_no_progress (with_reducible refine kept_mk (h := ?_)))

theorem kept_setAcc {z : Bool} {s0 s : State} (h : Kept z s0 s) (a : Acc) (e : a.locked = s.acc.locked) : Kept z s0 { s with acc := a } :=
  kept_mk_quiet h ⟨rfl, rfl, rfl, rfl, e ▸ List.prefix_refl _⟩

theorem kept_corrected {z : Bool} {s0 s : State} (h : Kept z s0 s) (f : EccFinder) (o : ℕ) (y : Byte) : Kept z s0 (State.corrected s f o y) := by
  unfold State.corrected
  dsimp only
  have ht := kept_setAcc (kept_orReg (kept_incReg (kept_eccWord h f o) Adr.ACC_ECC_CECNT) Adr.ACC_ECC_STAT 1)
    { (s.eccWord f o).2.2.acc with ceWin := (s.eccWord f o).2.2.acc.ceWin + 1 } (by simp only [State.orReg_acc, State.incReg_acc])
  split
  · exact kept_raise ht _ _ _ _
  · exact ht

theorem kept_apertureRead {z : Bool} {s0 s : State} (h : Kept z s0 s) (x1 : Master) (x2 : ℕ) (x3 : EccResult) : Kept z s0 (State.apertureRead s x1 x2 x3) := by
  unfold State.apertureRead
  try dsimp only
  repeat' (first
    | with_reducible assumption | with_reducible refine kept_orReg ?_ _ _ | with_reducible refine kept_sramWord ?_ _
    | with_reducible refine kept_corrected ?_ _ _ _ | split | fail_if_no_progress (with_reducible refine kept_mk (h := ?_)))

theorem kept_captureFor {z : Bool} {s0 s : State} (h : Kept z s0 s) (x1 : Master) (x2 : ℕ) : Kept z s0 (State.captureFor s x1 x2) := by
  unfold State.captureFor
  try dsimp only
  repeat' (first
    | with_reducible assumption | split | fail_if_no_progress (with_reducible refine kept_mk (h := ?_)))

theorem kept_readPlain {z : Bool} {s0 s : State} (h : Kept z s0 s) (x1 : Master) (x2 : ℕ) : Kept z s0 (State.readPlain s x1 x2) := by
  unfold State.readPlain
  try dsimp only
  repeat' (first
    | with_reducible assumption | with_reducible refine kept_captureFor ?_ _ _ | with_reducible refine kept_clrReg ?_ _ _ | split
    | fail_if_no_progress (with_reducible refine kept_mk (h := ?_)))

theorem kept_readReg {z : Bool} {s0 s : State} (h : Kept z s0 s) (x1 : Master) (x2 : ℕ) : Kept z s0 (State.readReg s x1 x2) := by
  unfold State.readReg
  try dsimp only
  repeat' (first
    | with_reducible assumption | with_reducible refine kept_apertureRead ?_ _ _ _ | with_reducible refine kept_readPlain ?_ _ _ | split
    | fail_if_no_progress (with_reducible refine kept_mk (h := ?_)))

theorem kept_spiRead {z : Bool} {s0 s : State} (h : Kept z s0 s) (n a : Nat) : Kept z s0 (State.spiRead n a s).2 := by
  induction n generalizing s a with
  | zero => exact h
  | succ n ih => exact ih (kept_readReg h _ _) _

theorem kept_wdogClear {z : Bool} {s0 s : State} (h : Kept z s0 s) (x1 : Master) : Kept z s0 (State.wdogClear s x1) := by
  unfold State.wdogClear
  try dsimp only
  repeat' (first
    | with_reducible assumption | with_reducible refine kept_forAll ?_ (fun _ _ _ => ?_) | with_reducible refine kept_clrReg ?_ _ _
    | with_reducible refine kept_modCu ?_ _ _ | split | fail_if_no_progress (with_reducible refine kept_mk (h := ?_)))

theorem kept_wdogTest {z : Bool} {s0 s : State} (h : Kept z s0 s) (x1 : Master) : Kept z s0 (State.wdogTest s x1) := by
  unfold State.wdogTest
  try dsimp only
  repeat' (first
    | with_reducible assumption | with_reducible refine kept_orReg ?_ _ _ | split
    | fail_if_no_progress (with_reducible refine kept_mk (h := ?_)))

theorem kept_writeFrm {z : Bool} {s0 s : State} (h : Kept z s0 s) (m : Master) (a : Nat) (w : Word) (ha : z = true → a ≠ Adr.GCTL_RESET) :
    Kept z s0 (State.writeFrm s m a w) := by
  unfold State.writeFrm
  refine kept_ite (kept_pwrWrite h _ _) ?_
  split
  · cases z with
    | true => exact absurd (by assumption) (ha rfl)
    | false => exact kept_resetWrite h _ _
  · refine kept_ite (kept_admitWrite h _ _) (kept_ite ?_ (kept_plainWrite h _ _ _))
    dsimp only [State.bitsOf, List.foldl]
    repeat' (first
      | with_reducible refine kept_wdogTest ?_ _ | with_reducible refine kept_wdogClear ?_ _ | exact kept_noted h _ _ | split)

theorem kept_wlWrite {z : Bool} {s0 s : State} (h : Kept z s0 s) (x1 : Master) (x2 : ℕ) (x3 : Word) : Kept z s0 (State.wlWrite s x1 x2 x3) := by
  unfold State.wlWrite
  try dsimp only
  repeat' (first
    | with_reducible assumption | with_reducible refine kept_notePrv ?_ _ _ | with_reducible refine kept_capture ?_ _ _ _ _
    | with_reducible refine kept_raise ?_ _ _ _ _ | with_reducible refine kept_setReg ?_ _ _ | split
    | fail_if_no_progress (with_reducible refine kept_mk (h := ?_))
    | fail_if_no_progress (with_reducible refine kept_mk_quiet (h := ?_) ?_) | exact ⟨rfl, rfl, rfl, rfl, List.prefix_refl _⟩
    | exact ⟨rfl, rfl, rfl, rfl, List.prefix_append _ _⟩)

theorem kept_writeHif {z : Bool} {s0 s : State} (h : Kept z s0 s) (x1 : Master) (x2 : ℕ) (x3 : Word) : Kept z s0 (State.writeHif s x1 x2 x3) := by
  unfold State.writeHif
  try dsimp only
  repeat' (first
    | with_reducible assumption | with_reducible refine kept_kickWrite ?_ _ | with_reducible refine kept_eqCfgWrite ?_ _ _
    | with_reducible refine kept_baseWrite ?_ _ _ _ _ _ | with_reducible refine kept_plainWrite ?_ _ _ _
    | with_reducible refine kept_sqCfgWrite ?_ _ _ _ | with_reducible refine kept_cqCfgWrite ?_ _ _ _ | split
    | fail_if_no_progress (with_reducible refine kept_mk (h := ?_)))

theorem kept_spiResponse {z : Bool} {s0 s : State} (h : Kept z s0 s) (x1 : Master) (x2 : Word) : Kept z s0 (State.spiResponse s x1 x2) := by
  unfold State.spiResponse
  try dsimp only
  repeat' (first
    | with_reducible assumption | split | fail_if_no_progress (with_reducible refine kept_mk (h := ?_))
    | fail_if_no_progress (with_reducible refine kept_mk_quiet (h := ?_) ?_) | exact ⟨rfl, rfl, rfl, rfl, List.prefix_refl _⟩
    | exact ⟨rfl, rfl, rfl, rfl, List.prefix_append _ _⟩)

theorem kept_spiDrop {z : Bool} {s0 s : State} (h : Kept z s0 s) : Kept z s0 (State.spiDrop s) := by
  unfold State.spiDrop
  try dsimp only
  repeat' (first
    | with_reducible assumption | split | fail_if_no_progress (with_reducible refine kept_mk (h := ?_))
    | fail_if_no_progress (with_reducible refine kept_mk_quiet (h := ?_) ?_) | exact ⟨rfl, rfl, rfl, rfl, List.prefix_refl _⟩
    | exact ⟨rfl, rfl, rfl, rfl, List.prefix_append _ _⟩)

theorem kept_spiLeave {z : Bool} {s0 s : State} (h : Kept z s0 s) (x1 : Master) : Kept z s0 (State.spiLeave s x1) := by
  unfold State.spiLeave
  try dsimp only
  repeat' (first
    | with_reducible assumption | with_reducible refine kept_spiDrop ?_ | split
    | fail_if_no_progress (with_reducible refine kept_mk (h := ?_)))

theorem kept_parClear {z : Bool} {s0 s : State} (h : Kept z s0 s) (x1 : Master) : Kept z s0 (State.parClear s x1) := by
  unfold State.parClear
  try dsimp only
  repeat' (first
    | with_reducible assumption | with_reducible refine kept_clrReg ?_ _ _ | with_reducible refine kept_forAll ?_ (fun _ _ _ => ?_)
    | with_reducible refine kept_modCu ?_ _ _ | split | fail_if_no_progress (with_reducible refine kept_mk (h := ?_))
    | fail_if_no_progress (with_reducible refine kept_mk_quiet (h := ?_) ?_) | exact ⟨rfl, rfl, rfl, rfl, List.prefix_refl _⟩
    | exact ⟨rfl, rfl, rfl, rfl, List.prefix_append _ _⟩)

theorem kept_writeAcc {z : Bool} {s0 s : State} (h : Kept z s0 s) (x1 : Master) (x2 : ℕ) (x3 : Word) : Kept z s0 (State.writeAcc s x1 x2 x3) := by
  unfold State.writeAcc
  try dsimp only
  repeat' (first
    | with_reducible assumption | with_reducible refine kept_spiResponse ?_ _ _ | with_reducible refine kept_spiLeave ?_ _
    | dsimp only [State.bitsOf, List.foldl] | with_reducible refine kept_noted ?_ _ _ | with_reducible refine kept_parClear ?_ _
    | with_reducible refine kept_plainWrite ?_ _ _ _ | split | fail_if_no_progress (with_reducible refine kept_mk (h := ?_))
    | fail_if_no_progress (with_reducible refine kept_mk_quiet (h := ?_) ?_) | exact ⟨rfl, rfl, rfl, rfl, List.prefix_refl _⟩
    | exact ⟨rfl, rfl, rfl, rfl, List.prefix_append _ _⟩)

theorem kept_guardWrite {z : Bool} {s0 s : State} (h : Kept z s0 s) (x1 : Master) (x2 : ℕ) (x3 : Word) (x4 : ℕ) (x5 : ℕ) (x6 : Word → Word → Bool) : Kept z s0 (State.guardWrite s x1 x2 x3 x4 x5 x6) := by
  unfold State.guardWrite
  try dsimp only
  repeat' (first
    | with_reducible assumption | with_reducible refine kept_gate ?_ _ _ _ | with_reducible refine kept_orReg ?_ _ _
    | with_reducible refine kept_storeWord ?_ _ _ _ | split | fail_if_no_progress (with_reducible refine kept_mk (h := ?_))
    | with_reducible refine kept_fst ?_ (by assumption) | with_reducible refine kept_snd ?_ (by assumption) | dsimp only)

theorem kept_writeBay {z : Bool} {s0 s : State} (h : Kept z s0 s) (x1 : Master) (x2 : BayId) (x3 : ℕ) (x4 : Word) : Kept z s0 (State.writeBay s x1 x2 x3 x4) := by
  unfold State.writeBay
  try dsimp only
  repeat' (first
    | with_reducible assumption | with_reducible refine kept_calWrite ?_ _ _ _ _ | with_reducible refine kept_guardWrite ?_ _ _ _ _ _ _
    | with_reducible refine kept_bayCommitWrite ?_ _ _ _ | with_reducible refine kept_latchWrite ?_ _ _ _
    | with_reducible refine kept_plainWrite ?_ _ _ _ | with_reducible refine kept_gate ?_ _ _ _ | with_reducible refine kept_orReg ?_ _ _
    | with_reducible refine kept_thresholdWrite ?_ _ _ _ | split | fail_if_no_progress (with_reducible refine kept_mk (h := ?_)))

theorem kept_writeHvy {z : Bool} {s0 s : State} (h : Kept z s0 s) (x1 : Master) (x2 : HeavyId) (x3 : ℕ) (x4 : Word) : Kept z s0 (State.writeHvy s x1 x2 x3 x4) := by
  unfold State.writeHvy
  try dsimp only
  repeat' (first
    | with_reducible assumption | with_reducible refine kept_latchWrite ?_ _ _ _ | with_reducible refine kept_guardWrite ?_ _ _ _ _ _ _
    | with_reducible refine kept_calWrite ?_ _ _ _ _ | with_reducible refine kept_plainWrite ?_ _ _ _ | split
    | fail_if_no_progress (with_reducible refine kept_mk (h := ?_)))

theorem kept_writeFb {z : Bool} {s0 s : State} (h : Kept z s0 s) (x1 : Master) (x2 : ℕ) (x3 : Word) : Kept z s0 (State.writeFb s x1 x2 x3) := by
  unfold State.writeFb
  try dsimp only
  repeat' (first
    | with_reducible assumption | with_reducible refine kept_fbCfgWrite ?_ _ _ _ | dsimp only [State.bitsOf, List.foldl]
    | with_reducible refine kept_noted ?_ _ _ | with_reducible refine kept_fbReval ?_ _ _ | with_reducible refine kept_fbSetcnt ?_ _ _
    | with_reducible refine kept_modFbc ?_ _ _ | with_reducible refine kept_fbClearSuspect ?_ _ _
    | with_reducible refine kept_fbIndexWrite ?_ _ _ _ | with_reducible refine kept_fbLimitWrite ?_ _ _ _
    | with_reducible refine kept_plainWrite ?_ _ _ _ | split | fail_if_no_progress (with_reducible refine kept_mk (h := ?_)))

theorem kept_writeSup {z : Bool} {s0 s : State} (h : Kept z s0 s) (x1 : Master) (x2 : ℕ) (x3 : Word) : Kept z s0 (State.writeSup s x1 x2 x3) := by
  unfold State.writeSup
  try dsimp only
  repeat' (first
    | with_reducible assumption | with_reducible refine kept_prbCfgWrite ?_ _ _ _ | with_reducible refine kept_emuCfgWrite ?_ _ _ _
    | with_reducible refine kept_sweepWrite ?_ _ | with_reducible refine kept_noted ?_ _ _
    | with_reducible refine kept_thresholdWrite ?_ _ _ _ | with_reducible refine kept_plainWrite ?_ _ _ _
    | with_reducible refine kept_supplies ?_ | split | fail_if_no_progress (with_reducible refine kept_mk (h := ?_)))

theorem kept_writeSvc {z : Bool} {s0 s : State} (h : Kept z s0 s) (x1 : Master) (x2 : ℕ) (x3 : Word) : Kept z s0 (State.writeSvc s x1 x2 x3) := by
  unfold State.writeSvc
  try dsimp only
  repeat' (first
    | with_reducible assumption | with_reducible refine kept_lineCfgWrite ?_ _ _ | dsimp only [State.bitsOf, List.foldl]
    | with_reducible refine kept_noted ?_ _ _ | with_reducible refine kept_lineResetWrite ?_ _
    | with_reducible refine kept_lineEstopWrite ?_ _ | with_reducible refine kept_lineEstopClear ?_ _
    | with_reducible refine kept_wbSnap ?_ _ | with_reducible refine kept_wbReqGo ?_ _ | with_reducible refine kept_wbRtcGo ?_ _
    | with_reducible refine kept_wbInstall ?_ _ | with_reducible refine kept_wbTblCommit ?_ _ | with_reducible refine kept_gate ?_ _ _ _
    | with_reducible refine kept_wbIgnored ?_ | with_reducible refine kept_updCtlWrite ?_ _ _
    | with_reducible refine kept_switchWrite ?_ _ _ | with_reducible refine kept_calCfgWrite ?_ _ _
    | with_reducible refine kept_plainWrite ?_ _ _ _ | split | fail_if_no_progress (with_reducible refine kept_mk (h := ?_)))

theorem kept_writeReg {z : Bool} {s0 s : State} (h : Kept z s0 s) (m : Master) (a : Nat) (w : Word) (ha : z = true → a ≠ Adr.GCTL_RESET) :
    Kept z s0 (State.writeReg s m a w) := by
  unfold State.writeReg
  by_cases hm : m = .spiOpen
  all_goals simp only [hm, if_true, if_false]
  all_goals repeat' (with_reducible refine kept_ite ?_ ?_)
  all_goals with_reducible first
    | exact h
    | exact kept_incReg h _
    | exact kept_wlWrite h _ _ _
    | exact kept_writeFrm h _ _ _ ha
    | exact kept_writeHif h _ _ _
    | exact kept_writeAcc h _ _ _
    | exact kept_brSrcWrite h _ _ _
    | exact kept_writeBay h _ _ _ _
    | exact kept_writeHvy h _ _ _ _
    | exact kept_writeFb h _ _ _
    | exact kept_writeSup h _ _ _
    | exact kept_writeSvc h _ _ _
    | exact kept_plainWrite h _ _ _

theorem kept_spiWords {s0 s : State} (h : Kept false s0 s) (m : State → Master) (a : Nat) (l : List Word) : Kept false s0 (State.spiWords m a l s) := by
  induction l generalizing s a with
  | nil => exact h
  | cons w ws ih => exact ih (kept_writeReg h _ _ _ fun e => nomatch e) _

theorem kept_execSpiWriteTransaction {s0 s : State} (h : Kept false s0 s) (x0 : List Byte) {t : State} (e : execSpiWriteTransaction x0 s = .next t) : Kept false s0 t := by
  unfold execSpiWriteTransaction at e
  first | (cases e; try dsimp only) | (split at e <;> cases e <;> try dsimp only)
  repeat' (first
    | with_reducible assumption | with_reducible refine kept_incReg ?_ _ | with_reducible refine kept_spiWords ?_ _ _ _ | split
    | fail_if_no_progress (with_reducible refine kept_mk (h := ?_)))

theorem kept_busWrite {z : Bool} {s0 s : State} (h : Kept z s0 s) (m : Master) (a : Nat) (e : BitVec 4) (w : Word)
    (ha : z = true → a ≠ Adr.GCTL_RESET) : Kept z s0 (State.busWrite s m a e w) :=
  kept_ite (kept_writeReg h _ _ _ ha) (kept_ite (kept_incReg h _) h)

theorem kept_execRegisterWrite {z : Bool} {s0 s : State} (h : Kept z s0 s) (m : Master) (a : Nat) (b : BitVec 4) (w : Word)
    (ha : z = true → a ≠ Adr.GCTL_RESET) {t : State} (e : execRegisterWrite m a b w s = .next t) : Kept z s0 t := by
  unfold execRegisterWrite at e
  split at e
  · cases e; exact kept_busWrite h _ _ _ _ ha
  · split at e
    · cases e; exact kept_ite (kept_bar2Write h _ _ _) h
    · cases e

theorem kept_readAt {z : Bool} {s0 s : State} (h : Kept z s0 s) (m : Master) (a : Nat) {t : State}
    (e : State.readAt s m a = .next t) : Kept z s0 t := by
  unfold State.readAt at e
  split at e
  · cases e; exact kept_readReg h _ _
  · split at e
    · cases e; exact kept_bar2Read h _ _
    · cases e

theorem kept_execSpiResponseWrite {z : Bool} {s0 s : State} (h : Kept z s0 s) (x0 : Master) (x1 : Word) {t : State} (e : execSpiResponseWrite x0 x1 s = .next t) : Kept z s0 t := by
  unfold execSpiResponseWrite at e
  first | (cases e; try dsimp only) | (split at e <;> cases e <;> try dsimp only)
  repeat' (first
    | with_reducible assumption | with_reducible refine kept_spiResponse ?_ _ _ | split
    | fail_if_no_progress (with_reducible refine kept_mk (h := ?_)))

theorem kept_execParErrClear {z : Bool} {s0 s : State} (h : Kept z s0 s) (x0 : Master) {t : State} (e : execParErrClear x0 s = .next t) : Kept z s0 t := by
  unfold execParErrClear at e
  first | (cases e; try dsimp only) | (split at e <;> cases e <;> try dsimp only)
  repeat' (first
    | with_reducible assumption | with_reducible refine kept_parClear ?_ _ | with_reducible refine kept_noted ?_ _ _ | split
    | fail_if_no_progress (with_reducible refine kept_mk (h := ?_)))

theorem kept_execSpiLeave {z : Bool} {s0 s : State} (h : Kept z s0 s) (x0 : Master) {t : State} (e : execSpiLeave x0 s = .next t) : Kept z s0 t := by
  unfold execSpiLeave at e
  first | (cases e; try dsimp only) | (split at e <;> cases e <;> try dsimp only)
  repeat' (first
    | with_reducible assumption | with_reducible refine kept_spiLeave ?_ _ | split
    | fail_if_no_progress (with_reducible refine kept_mk (h := ?_)))

theorem kept_execWdogFiredClear {z : Bool} {s0 s : State} (h : Kept z s0 s) (x0 : Master) {t : State} (e : execWdogFiredClear x0 s = .next t) : Kept z s0 t := by
  unfold execWdogFiredClear at e
  first | (cases e; try dsimp only) | (split at e <;> cases e <;> try dsimp only)
  repeat' (first
    | with_reducible assumption | with_reducible refine kept_wdogClear ?_ _ | with_reducible refine kept_noted ?_ _ _ | split
    | fail_if_no_progress (with_reducible refine kept_mk (h := ?_)))

theorem kept_execWdogTest {z : Bool} {s0 s : State} (h : Kept z s0 s) (x0 : Master) {t : State} (e : execWdogTest x0 s = .next t) : Kept z s0 t := by
  unfold execWdogTest at e
  first | (cases e; try dsimp only) | (split at e <;> cases e <;> try dsimp only)
  repeat' (first
    | with_reducible assumption | with_reducible refine kept_wdogTest ?_ _ | with_reducible refine kept_noted ?_ _ _ | split
    | fail_if_no_progress (with_reducible refine kept_mk (h := ?_)))

theorem kept_execFrmCountLoRead {z : Bool} {s0 s : State} (h : Kept z s0 s) (x0 : Master) {t : State} (e : execFrmCountLoRead x0 s = .next t) : Kept z s0 t := by
  unfold execFrmCountLoRead at e
  first | (cases e; try dsimp only) | (split at e <;> cases e <;> try dsimp only)
  repeat' (first
    | with_reducible assumption | with_reducible refine kept_readPlain ?_ _ _ | split
    | fail_if_no_progress (with_reducible refine kept_mk (h := ?_)))

theorem kept_execCaptureRead {z : Bool} {s0 s : State} (h : Kept z s0 s) (m : Master) (a : Nat) {t : State}
    (e : execCaptureRead m a s = .next t) : Kept z s0 t := kept_readAt h m a e

theorem kept_execRcFieldRead {z : Bool} {s0 s : State} (h : Kept z s0 s) (m : Master) (a : Nat) {t : State}
    (e : execRcFieldRead m a s = .next t) : Kept z s0 t := kept_readAt h m a e

theorem kept_execResultRegisterRead {z : Bool} {s0 s : State} (h : Kept z s0 s) (m : Master) (a : Nat) {t : State}
    (e : execResultRegisterRead m a s = .next t) : Kept z s0 t := kept_readAt h m a e

theorem kept_execWlWordWrite {z : Bool} {s0 s : State} (h : Kept z s0 s) (m : Master) (a : Nat) (b : BitVec 4) (w : Word)
    {t : State} (e : execWlWordWrite m a b w s = .next t) : Kept z s0 t := by
  unfold execWlWordWrite at e
  split at e <;> cases e
  split
  · refine kept_busWrite h _ _ _ _ ?_
    rintro - rfl
    revert ‹isWl Adr.GCTL_RESET = true›
    decide
  · exact h

theorem kept_execSramApertureRead {z : Bool} {s0 s : State} (h : Kept z s0 s) (x0 : Master) (x1 : ℕ) (x2 : EccResult) {t : State} (e : execSramApertureRead x0 x1 x2 s = .next t) : Kept z s0 t := by
  unfold execSramApertureRead at e
  first | (cases e; try dsimp only) | (split at e <;> cases e <;> try dsimp only)
  repeat' (first
    | with_reducible assumption | with_reducible refine kept_apertureRead ?_ _ _ _ | split
    | fail_if_no_progress (with_reducible refine kept_mk (h := ?_)))

theorem kept_execSpiReadTransaction {z : Bool} {s0 s : State} (h : Kept z s0 s) (x0 : List Byte) {t : State} (e : execSpiReadTransaction x0 s = .next t) : Kept z s0 t := by
  unfold execSpiReadTransaction at e
  first | (cases e; try dsimp only) | (split at e <;> cases e <;> try dsimp only)
  repeat' (first
    | with_reducible assumption | with_reducible refine kept_emit ?_ _ | with_reducible refine kept_spiRead ?_ _ _ | split
    | fail_if_no_progress (with_reducible refine kept_mk (h := ?_)))

theorem kept_execSpiIdleTimeout {z : Bool} {s0 s : State} (h : Kept z s0 s)  {t : State} (e : execSpiIdleTimeout s = .next t) : Kept z s0 t := by
  unfold execSpiIdleTimeout at e
  first | (cases e; try dsimp only) | (split at e <;> cases e <;> try dsimp only)
  repeat' (first
    | with_reducible assumption | with_reducible refine kept_spiDrop ?_ | split
    | fail_if_no_progress (with_reducible refine kept_mk (h := ?_)))

theorem kept_execSpiBlockEnd {z : Bool} {s0 s : State} (h : Kept z s0 s)  {t : State} (e : execSpiBlockEnd s = .next t) : Kept z s0 t := by
  unfold execSpiBlockEnd at e
  first | (cases e; try dsimp only) | (split at e <;> cases e <;> try dsimp only)
  repeat' (first
    | with_reducible assumption | split | fail_if_no_progress (with_reducible refine kept_mk (h := ?_))
    | fail_if_no_progress (with_reducible refine kept_mk_quiet (h := ?_) ?_) | exact ⟨rfl, rfl, rfl, rfl, List.prefix_refl _⟩
    | exact ⟨rfl, rfl, rfl, rfl, List.prefix_append _ _⟩)

theorem kept_loseRecord {z : Bool} {s0 s : State} (h : Kept z s0 s) (x1 : ℕ) : Kept z s0 (State.loseRecord s x1) := by
  unfold State.loseRecord
  try dsimp only
  repeat' (first
    | with_reducible assumption | split | fail_if_no_progress (with_reducible refine kept_mk (h := ?_)))

theorem kept_axisOfWord {z : Bool} {s0 s : State} (h : Kept z s0 s) (x1 : ℕ) : Kept z s0 (State.axisOfWord s x1).2 := by
  unfold State.axisOfWord
  try dsimp only
  repeat' (first
    | with_reducible assumption | with_reducible refine kept_drawFree ?_ | split
    | fail_if_no_progress (with_reducible refine kept_mk (h := ?_)))

theorem kept_uncorrectable {z : Bool} {s0 s : State} (h : Kept z s0 s) (f : EccFinder) (o : Nat) (y : Byte) :
    Kept z s0 (State.uncorrectable s f o y) := by
  unfold State.uncorrectable
  extract_lets r s1 told
  have h1 : Kept z s0 s1 := kept_orReg (kept_setReg (kept_incReg (kept_eccWord h f o) _) _ _) _ _
  have ht : ∀ t u, Kept z s0 t → Kept z s0 (told t u) := fun t u k => kept_raise k _ _ _ _
  clear_value s1 told
  split
  · exact kept_ite (kept_emit (ht _ _ h1) _) (ht _ _ h1)
  split
  · split
    · exact kept_hitDesc (ht _ _ h1) _
    · exact ht _ _ h1
  · split
    · exact kept_hitDesc (ht _ _ h1) _
    · exact ht _ _ h1
  · exact kept_reloadCard (ht _ _ (kept_faultEnergised h1 _ _)) _
  · split
    · exact kept_modAx (ht _ _ h1) _ _
    · exact ht _ _ h1
  · exact kept_mk_quiet (ht _ _ h1) ⟨rfl, rfl, rfl, rfl, List.prefix_refl _⟩
  · exact kept_loseRecord (ht _ _ h1) _
  · exact ht _ _ h1
  · have k := kept_axisOfWord h1 o
    split
    · exact kept_reloadAxis (ht _ _ (kept_bridgeFaulted (kept_snd k (by assumption)) _ _)) _
    · exact ht _ _ (kept_snd k (by assumption))

theorem kept_execScrubRead {z : Bool} {s0 s : State} (h : Kept z s0 s) (f : EccFinder) (off : Fin 0x100000) (x : EccResult) {t : State}
    (e : execScrubRead f off x s = .next t) : Kept z s0 t := by
  unfold execScrubRead at e
  cases e
  split
  · exact h
  extract_lets pos o u
  have hu : Kept z s0 u := by
    show Kept z s0 (if f = .scrubber then _ else s)
    split
    · exact kept_setReg h _ _
    · exact h
  split
  · exact hu
  · exact kept_corrected hu _ _ _
  · exact kept_uncorrectable hu _ _ _

theorem kept_execCoreRestart {z : Bool} {s0 s : State} (h : Kept z s0 s) (x0 : Fin 7) {t : State} (e : execCoreRestart x0 s = .next t) : Kept z s0 t := by
  unfold execCoreRestart at e
  first | (cases e; try dsimp only) | (split at e <;> cases e <;> try dsimp only)
  repeat' (first
    | with_reducible assumption | split | fail_if_no_progress (with_reducible refine kept_mk (h := ?_)))

theorem kept_execConfigParityFail {z : Bool} {s0 s : State} (h : Kept z s0 s) (a : Nat) {t : State}
    (e : execConfigParityFail a s = .next t) : Kept z s0 t := by
  unfold execConfigParityFail at e
  cases e
  extract_lets n us b0 s1 s2 a3 s3
  have h0 : Kept z s0 b0 := kept_forAll h fun _ _ k => kept_faultAxis k _ _
  have h1 : Kept z s0 s1 := kept_foldl h0 fun _ _ k => kept_modCu (kept_enterSafe k _) _ _
  have h2 : Kept z s0 s2 := kept_ite h1 (kept_orReg (kept_setReg h1 _ _) _ _)
  clear_value s2
  have h3 : Kept z s0 s3 := kept_mk_quiet h2 ⟨rfl, rfl, rfl, rfl, List.prefix_refl _⟩
  clear_value s3
  exact kept_ite h (kept_ite (kept_ite (kept_raise h _ _ _ _) h) (kept_ite h (kept_raise h3 _ _ _ _)))

/-! ### Host -/

theorem kept_loseReads {z : Bool} {s0 s : State} (h : Kept z s0 s) : Kept z s0 (State.loseReads s) :=
  kept_mk_map h fun e => by split <;> rfl

theorem kept_flrStop {z : Bool} {s0 s : State} (h : Kept z s0 s) (x1 : AxisId) : Kept z s0 (State.flrStop s x1) := by
  unfold State.flrStop
  try dsimp only
  repeat' (first
    | with_reducible assumption | with_reducible refine kept_modAx ?_ _ _ | with_reducible refine kept_stopStored ?_ _ _ | split
    | fail_if_no_progress (with_reducible refine kept_mk (h := ?_)))

theorem kept_flrRing {z : Bool} {s0 s : State} (h : Kept z s0 s) (x1 : RingId) : Kept z s0 (State.flrRing s x1) := by
  unfold State.flrRing
  try dsimp only
  repeat' (first
    | with_reducible assumption | with_reducible refine kept_modSq ?_ _ _ | with_reducible refine kept_modCq ?_ _ _
    | with_reducible refine kept_clrReg ?_ _ _ | split | fail_if_no_progress (with_reducible refine kept_mk (h := ?_)))

theorem kept_flrDesc {z : Bool} {s0 s : State} (h : Kept z s0 s) (x1 : Desc) : Kept z s0 (State.flrDesc s x1) := by
  unfold State.flrDesc
  try dsimp only
  repeat' (first
    | with_reducible assumption | with_reducible refine kept_retire ?_ _ | with_reducible refine kept_release ?_ _
    | with_reducible refine kept_forAll ?_ (fun _ _ _ => ?_) | with_reducible refine kept_flrStop ?_ _
    | with_reducible refine kept_withdraw ?_ _ | with_reducible refine kept_modDesc ?_ _ _ ?_ | split
    | fail_if_no_progress (with_reducible refine kept_mk (h := ?_))
    | fail_if_no_progress (with_reducible refine kept_mk_map (h := ?_) ?_) | with_reducible refine kept_foldl ?_ (fun _ _ _ => ?_)
    | (intro e; rfl) | (intro e; dsimp only; split <;> rfl) | with_reducible refine kept_drawFree ?_
    | with_reducible refine kept_fst ?_ (by assumption) | with_reducible refine kept_snd ?_ (by assumption) | dsimp only)

theorem kept_flrAxis {z : Bool} {s0 s : State} (h : Kept z s0 s) (x1 : RingId) (x2 : AxisId) : Kept z s0 (State.flrAxis s x1 x2) := by
  unfold State.flrAxis
  try dsimp only
  repeat' (first
    | with_reducible assumption | with_reducible refine kept_flrStop ?_ _ | split
    | fail_if_no_progress (with_reducible refine kept_mk (h := ?_)))

theorem kept_flrDescs {z : Bool} {s0 s : State} (h : Kept z s0 s) (x1 : Fin 2) : Kept z s0 (State.flrDescs s x1) := by
  unfold State.flrDescs
  try dsimp only
  repeat' (first
    | with_reducible assumption | with_reducible refine kept_forAll ?_ (fun _ _ _ => ?_) | with_reducible refine kept_replaceNow ?_ _
    | with_reducible refine kept_retire ?_ _ | with_reducible refine kept_undo ?_ _ | with_reducible refine kept_flrDesc ?_ _
    | with_reducible refine kept_flrAxis ?_ _ _ | split | fail_if_no_progress (with_reducible refine kept_mk (h := ?_)))

theorem kept_flr {z : Bool} {s0 s : State} (h : Kept z s0 s) (x1 : Fin 2) : Kept z s0 (State.flr s x1) := by
  unfold State.flr
  try dsimp only
  repeat' (first
    | with_reducible assumption | with_reducible refine kept_forAll ?_ (fun _ _ _ => ?_) | with_reducible refine kept_flrRing ?_ _
    | with_reducible refine kept_clrReg ?_ _ _ | with_reducible refine kept_flrDescs ?_ _ | split
    | fail_if_no_progress (with_reducible refine kept_mk (h := ?_)))

theorem kept_unstart {z : Bool} {s0 s : State} (h : Kept z s0 s) (x1 : Desc) : Kept z s0 (State.unstart s x1) := by
  unfold State.unstart
  try dsimp only
  repeat' (first
    | with_reducible assumption | with_reducible refine kept_putBack ?_ _ | with_reducible refine kept_undo ?_ _ | split
    | fail_if_no_progress (with_reducible refine kept_mk (h := ?_))
    | fail_if_no_progress (with_reducible refine kept_mk_quiet (h := ?_) ?_) | exact ⟨rfl, rfl, rfl, rfl, List.prefix_refl _⟩
    | exact ⟨rfl, rfl, rfl, rfl, List.prefix_append _ _⟩ | fail_if_no_progress (with_reducible refine kept_mk_map (h := ?_) ?_)
    | with_reducible refine kept_foldl ?_ (fun _ _ _ => ?_) | (intro e; rfl) | (intro e; dsimp only; split <;> rfl)
    | with_reducible refine kept_drawFree ?_ | with_reducible refine kept_fst ?_ (by assumption)
    | with_reducible refine kept_snd ?_ (by assumption) | dsimp only)

theorem kept_linkAxis {z : Bool} {s0 s : State} (h : Kept z s0 s) (x1 : Bool) (x2 : AxisId) : Kept z s0 (State.linkAxis s x1 x2) := by
  unfold State.linkAxis
  try dsimp only
  repeat' (first
    | with_reducible assumption | with_reducible refine kept_modTt ?_ _ _ | with_reducible refine kept_forAll ?_ (fun _ _ _ => ?_)
    | with_reducible refine kept_release ?_ _ | with_reducible refine kept_flush ?_ _ _ _ | with_reducible refine kept_stopStored ?_ _ _
    | with_reducible refine kept_modCd ?_ _ _ | split | fail_if_no_progress (with_reducible refine kept_mk (h := ?_)))

theorem kept_linkLoss {z : Bool} {s0 s : State} (h : Kept z s0 s) : Kept z s0 (State.linkLoss s) := by
  unfold State.linkLoss
  try dsimp only
  repeat' (first
    | with_reducible assumption | with_reducible refine kept_settleEnd ?_ | with_reducible refine kept_forAll ?_ (fun _ _ _ => ?_)
    | with_reducible refine kept_unstart ?_ _ | with_reducible refine kept_linkAxis ?_ _ _
    | with_reducible refine kept_finishRejected ?_ _ _ | with_reducible refine kept_flush ?_ _ _ _ | split
    | fail_if_no_progress (with_reducible refine kept_mk (h := ?_)))

theorem kept_linkDown {z : Bool} {s0 s : State} (h : Kept z s0 s) : Kept z s0 (State.linkDown s) := by
  unfold State.linkDown
  try dsimp only
  repeat' (first
    | with_reducible assumption | with_reducible refine kept_orReg ?_ _ _ | with_reducible refine kept_linkLoss ?_
    | with_reducible refine kept_loseReads ?_ | split | fail_if_no_progress (with_reducible refine kept_mk (h := ?_)))

theorem kept_execPerst {z : Bool} {s0 s : State} (h : Kept z s0 s)  {t : State} (e : execPerst s = .next t) : Kept z s0 t := by
  unfold execPerst at e
  first | (cases e; try dsimp only) | (split at e <;> cases e <;> try dsimp only)
  repeat' (first
    | with_reducible assumption | with_reducible refine kept_linkDown ?_ | split
    | fail_if_no_progress (with_reducible refine kept_mk (h := ?_)))

theorem kept_writeHeld {z : Bool} {s0 s : State} (h : Kept z s0 s) (x1 : HeldRec) : Kept z s0 (State.writeHeld s x1) := by
  unfold State.writeHeld
  try dsimp only
  repeat' (first
    | with_reducible assumption | with_reducible refine kept_dropOf ?_ _ | with_reducible refine kept_putRec ?_ _ _ _
    | with_reducible refine kept_modCq ?_ _ _ | with_reducible refine kept_writeEvent ?_ _ _ | split
    | fail_if_no_progress (with_reducible refine kept_mk (h := ?_)))

theorem kept_execHostLinkDown {z : Bool} {s0 s : State} (h : Kept z s0 s)  {t : State} (e : execHostLinkDown s = .next t) : Kept z s0 t := by
  unfold execHostLinkDown at e
  first | (cases e; try dsimp only) | (split at e <;> cases e <;> try dsimp only)
  repeat' (first
    | with_reducible assumption | with_reducible refine kept_linkDown ?_ | split
    | fail_if_no_progress (with_reducible refine kept_mk (h := ?_)))

theorem kept_execHostLinkUp {z : Bool} {s0 s : State} (h : Kept z s0 s)  {t : State} (e : execHostLinkUp s = .next t) : Kept z s0 t := by
  unfold execHostLinkUp at e
  first | (cases e; try dsimp only) | (split at e <;> cases e <;> try dsimp only)
  repeat' (first
    | with_reducible assumption | with_reducible refine kept_forAll ?_ (fun _ _ _ => ?_) | with_reducible refine kept_writeHeld ?_ _
    | with_reducible refine kept_raise ?_ _ _ _ _ | split | fail_if_no_progress (with_reducible refine kept_mk (h := ?_)))

theorem kept_execFunctionLevelReset {z : Bool} {s0 s : State} (h : Kept z s0 s) (x0 : Fin 2) {t : State} (e : execFunctionLevelReset x0 s = .next t) : Kept z s0 t := by
  unfold execFunctionLevelReset at e
  first | (cases e; try dsimp only) | (split at e <;> cases e <;> try dsimp only)
  repeat' (first
    | with_reducible assumption | with_reducible refine kept_flr ?_ _ | split
    | fail_if_no_progress (with_reducible refine kept_mk (h := ?_)))

theorem kept_execPerstRelease {z : Bool} {s0 s : State} (h : Kept z s0 s)  {t : State} (e : execPerstRelease s = .next t) : Kept z s0 t := by
  unfold execPerstRelease at e
  first | (cases e; try dsimp only) | (split at e <;> cases e <;> try dsimp only)
  repeat' (first
    | with_reducible assumption | with_reducible refine kept_flr ?_ _ | split
    | fail_if_no_progress (with_reducible refine kept_mk (h := ?_)))

/-! ### Frame -/

theorem kept_admitCommit {z : Bool} {s0 s : State} (h : Kept z s0 s) (d : Desc) (bad : Refuse) (take : State → State)
    (ht : ∀ t, Kept z s0 t → Kept z s0 (take t)) : Kept z s0 (State.admitCommit s d bad take) := by
  unfold State.admitCommit
  split
  · exact kept_finish h _ _ _ _ _
  · exact kept_finishOk (ht _ h) _ _ _ _

theorem kept_tickDoorbell {z : Bool} {s0 s : State} (h : Kept z s0 s) : Kept z s0 (State.tickDoorbell s) := by
  unfold State.tickDoorbell
  try dsimp only
  repeat' (first
    | with_reducible assumption | with_reducible refine kept_readDoorbell ?_ _ | split
    | fail_if_no_progress (with_reducible refine kept_mk (h := ?_)))

theorem kept_decideSome {z : Bool} {s0 s : State} (h : Kept z s0 s) (x1 : Desc → Bool) : Kept z s0 (State.decideSome s x1) := by
  unfold State.decideSome
  try dsimp only
  repeat' (first
    | with_reducible assumption | with_reducible refine kept_forAll ?_ (fun _ _ _ => ?_) | with_reducible refine kept_decideOne ?_ _
    | split | fail_if_no_progress (with_reducible refine kept_mk (h := ?_)))

theorem kept_stoTick {z : Bool} {s0 s : State} (h : Kept z s0 s) : Kept z s0 (State.stoTick s) := by
  unfold State.stoTick
  try dsimp only
  repeat' (first
    | with_reducible assumption | with_reducible refine kept_raise ?_ _ _ _ _ | with_reducible refine kept_faultEnergised ?_ _ _ | split
    | fail_if_no_progress (with_reducible refine kept_mk (h := ?_))
    | fail_if_no_progress (with_reducible refine kept_mk_quiet (h := ?_) ?_) | exact ⟨rfl, rfl, rfl, rfl, List.prefix_refl _⟩
    | exact ⟨rfl, rfl, rfl, rfl, List.prefix_append _ _⟩)

theorem kept_tickRereads {z : Bool} {s0 s : State} (h : Kept z s0 s) : Kept z s0 (State.tickRereads s) := by
  unfold State.tickRereads
  try dsimp only
  repeat' (first
    | with_reducible assumption | with_reducible refine kept_forAll ?_ (fun _ _ _ => ?_) | with_reducible refine kept_modDesc ?_ _ _ ?_
    | with_reducible refine kept_readSlot ?_ _ | with_reducible refine kept_readList ?_ _ | split
    | fail_if_no_progress (with_reducible refine kept_mk (h := ?_))
    | fail_if_no_progress (with_reducible refine kept_mk_map (h := ?_) ?_) | with_reducible refine kept_foldl ?_ (fun _ _ _ => ?_)
    | (intro e; rfl) | (intro e; dsimp only; split <;> rfl) | with_reducible refine kept_drawFree ?_
    | with_reducible refine kept_fst ?_ (by assumption) | with_reducible refine kept_snd ?_ (by assumption) | dsimp only)

theorem kept_admitted {z : Bool} {s0 s : State} (h : Kept z s0 s) (x1 : AdmKind) : Kept z s0 (State.admitted s x1) := by
  unfold State.admitted
  try dsimp only
  repeat' (first
    | with_reducible assumption | with_reducible refine kept_takeRate ?_ _ _
    | with_reducible refine kept_admitCommit ?_ _ _ _ (fun _ _ => ?_) | with_reducible refine kept_takeTt ?_ _ _
    | with_reducible refine kept_takeFb ?_ _ _ | with_reducible refine kept_finishOk ?_ _ _ _ _
    | with_reducible refine kept_takeConsist ?_ _ _ _ _ | with_reducible refine kept_lineAdmitted ?_
    | with_reducible refine kept_switchCores ?_ _ _ | split | fail_if_no_progress (with_reducible refine kept_mk (h := ?_)))

theorem kept_tickReturn {z : Bool} {s0 s : State} (h : Kept z s0 s) : Kept z s0 (State.tickReturn s) := by
  unfold State.tickReturn
  try dsimp only
  repeat' (first
    | with_reducible assumption | with_reducible refine kept_readReturn ?_ _ | split
    | fail_if_no_progress (with_reducible refine kept_mk (h := ?_)))

theorem kept_commitRefused {z : Bool} {s0 s : State} (h : Kept z s0 s) (x1 : ℕ) : Kept z s0 (State.commitRefused s x1) := by
  unfold State.commitRefused
  try dsimp only
  repeat' (first
    | with_reducible assumption | with_reducible refine kept_finish ?_ _ _ _ _ _ | split
    | fail_if_no_progress (with_reducible refine kept_mk (h := ?_)))

theorem kept_resume {z : Bool} {s0 s : State} (h : Kept z s0 s) (x1 : ℕ) : Kept z s0 (State.resume s x1) := by
  unfold State.resume
  try dsimp only
  repeat' (first
    | with_reducible assumption | with_reducible refine kept_raise ?_ _ _ _ _ | split
    | fail_if_no_progress (with_reducible refine kept_mk (h := ?_))
    | fail_if_no_progress (with_reducible refine kept_mk_quiet (h := ?_) ?_) | exact ⟨rfl, rfl, rfl, rfl, List.prefix_refl _⟩
    | exact ⟨rfl, rfl, rfl, rfl, List.prefix_append _ _⟩)

theorem kept_tickAct {z : Bool} {s0 s : State} (h : Kept z s0 s) (d : Desc) : Kept z s0 (State.tickAct s d) := by
  unfold State.tickAct
  split
  · exact kept_ite h (kept_armEffect h _)
  · exact kept_ite h (kept_consistEffect h _)
  · split
    · exact kept_posSetTick h _
    · exact kept_ite h (kept_grpDefEffect h _)
    · exact kept_ite h (kept_disarmEffect h _)
    · exact kept_setParamTick h _
  · exact h

theorem kept_tickDesc {z : Bool} {s0 s : State} (h : Kept z s0 s) (x1 : ℕ) : Kept z s0 (State.tickDesc s x1) := by
  unfold State.tickDesc
  try dsimp only
  repeat' (first
    | with_reducible assumption | with_reducible refine kept_tickAct ?_ _ | with_reducible refine kept_settle ?_ _ | split
    | fail_if_no_progress (with_reducible refine kept_mk (h := ?_)))

theorem kept_settleTick {z : Bool} {s0 s : State} (h : Kept z s0 s) : Kept z s0 (State.settleTick s) := by
  unfold State.settleTick
  try dsimp only
  repeat' (first
    | with_reducible assumption | with_reducible refine kept_forAll ?_ (fun _ _ _ => ?_) | with_reducible refine kept_tickDesc ?_ _
    | split | fail_if_no_progress (with_reducible refine kept_mk (h := ?_)))

theorem kept_dueEvents {z : Bool} {s0 s : State} (h : Kept z s0 s) (x : AxisId) : Kept z s0 (State.dueEvents s x) := by
  have k := kept_modAx h x fun a => { a with due := [], dropDue := 0 }
  exact kept_foldl (kept_ite k (kept_dropDemand k _ _)) fun _ _ k => kept_raise (kept_ite (kept_orReg k _ _) k) _ _ _ _

theorem kept_parkTick {z : Bool} {s0 s : State} (h : Kept z s0 s) (x1 : AxisId) : Kept z s0 (State.parkTick s x1) := by
  unfold State.parkTick
  try dsimp only
  repeat' (first
    | with_reducible assumption | with_reducible refine kept_parkNow ?_ _ | with_reducible refine kept_modTt ?_ _ _ | split
    | fail_if_no_progress (with_reducible refine kept_mk (h := ?_)))

theorem kept_effects {z : Bool} {s0 s : State} (h : Kept z s0 s) : Kept z s0 (State.effects s) := by
  unfold State.effects
  try dsimp only
  repeat' (first
    | with_reducible assumption | with_reducible refine kept_forAll ?_ (fun _ _ _ => ?_) | with_reducible refine kept_settleTick ?_
    | with_reducible refine kept_dueEvents ?_ _ | with_reducible refine kept_parkTick ?_ _ | split
    | fail_if_no_progress (with_reducible refine kept_mk (h := ?_)))

theorem kept_tickRetries {z : Bool} {s0 s : State} (h : Kept z s0 s) : Kept z s0 (State.tickRetries s) := by
  unfold State.tickRetries
  try dsimp only
  repeat' (first
    | with_reducible assumption | with_reducible refine kept_forAll ?_ (fun _ _ _ => ?_) | with_reducible refine kept_issueRead ?_ _ _
    | split | fail_if_no_progress (with_reducible refine kept_mk (h := ?_)))

theorem kept_tickBlocks {z : Bool} {s0 s : State} (h : Kept z s0 s) : Kept z s0 (State.tickBlocks s) := by
  unfold State.tickBlocks
  try dsimp only
  repeat' (first
    | with_reducible assumption | with_reducible refine kept_tickReturn ?_ | with_reducible refine kept_tickDoorbell ?_ | split
    | fail_if_no_progress (with_reducible refine kept_mk (h := ?_)))

theorem kept_markHeads {z : Bool} {s0 s : State} (h : Kept z s0 s) : Kept z s0 (State.markHeads s) := by
  unfold State.markHeads
  try dsimp only
  repeat' (first
    | with_reducible assumption | split | fail_if_no_progress (with_reducible refine kept_mk (h := ?_))
    | fail_if_no_progress (with_reducible refine kept_mk_map (h := ?_) ?_) | with_reducible refine kept_foldl ?_ (fun _ _ _ => ?_)
    | (intro e; rfl) | (intro e; dsimp only; split <;> rfl) | with_reducible refine kept_drawFree ?_
    | with_reducible refine kept_fst ?_ (by assumption) | with_reducible refine kept_snd ?_ (by assumption) | dsimp only)

theorem kept_lateTimed {z : Bool} {s0 s : State} (h : Kept z s0 s) : Kept z s0 (State.lateTimed s) := by
  unfold State.lateTimed
  try dsimp only
  repeat' (first
    | with_reducible assumption | with_reducible refine kept_forAll ?_ (fun _ _ _ => ?_) | with_reducible refine kept_finish ?_ _ _ _ _ _
    | split | fail_if_no_progress (with_reducible refine kept_mk (h := ?_)))

theorem kept_granary {z : Bool} {s0 s : State} (h : Kept z s0 s) : Kept z s0 (State.granary s) := by
  unfold State.granary
  try dsimp only
  repeat' (first
    | with_reducible assumption | with_reducible refine kept_forAll ?_ (fun _ _ _ => ?_) | with_reducible refine kept_shed ?_
    | with_reducible refine kept_granTake ?_ | with_reducible refine kept_raiseGr ?_ _ _ | with_reducible refine kept_decideSome ?_ _
    | with_reducible refine kept_raiseGh ?_ _ _ | split | fail_if_no_progress (with_reducible refine kept_mk (h := ?_)))

theorem kept_planAll {z : Bool} {s0 s : State} (h : Kept z s0 s) : Kept z s0 (State.planAll s) := by
  unfold State.planAll
  try dsimp only
  repeat' (first
    | with_reducible assumption | with_reducible refine kept_forAll ?_ (fun _ _ _ => ?_) | with_reducible refine kept_planFollow ?_ _ _
    | with_reducible refine kept_planProfile ?_ _ | split | fail_if_no_progress (with_reducible refine kept_mk (h := ?_)))

theorem kept_timetable {z : Bool} {s0 s : State} (h : Kept z s0 s) : Kept z s0 (State.timetable s) := by
  unfold State.timetable
  try dsimp only
  repeat' (first
    | with_reducible assumption | with_reducible refine kept_forAll ?_ (fun _ _ _ => ?_) | with_reducible refine kept_fbCheck ?_ _
    | with_reducible refine kept_lateTimed ?_ | with_reducible refine kept_settleAxis ?_ _ _ | with_reducible refine kept_granary ?_
    | with_reducible refine kept_planAll ?_ | split | fail_if_no_progress (with_reducible refine kept_mk (h := ?_)))

theorem kept_atTick {z : Bool} {s0 s : State} (h : Kept z s0 s) (x1 : TickIn) : Kept z s0 (State.atTick s x1) := by
  unfold State.atTick
  try dsimp only
  repeat' (first
    | with_reducible assumption | with_reducible refine kept_windows ?_ _ _ | with_reducible refine kept_stoTick ?_
    | with_reducible refine kept_resume ?_ _ | with_reducible refine kept_effects ?_ | with_reducible refine kept_dieCheck ?_ _
    | with_reducible refine kept_chopperTick ?_ | with_reducible refine kept_endFallbacks ?_ _
    | with_reducible refine kept_releaseSupplies ?_ _ _ | with_reducible refine kept_camArrive ?_
    | with_reducible refine kept_latchSteps ?_ | with_reducible refine kept_latchFeedback ?_ | with_reducible refine kept_tickRereads ?_
    | with_reducible refine kept_tickRetries ?_ | with_reducible refine kept_tickBlocks ?_ | with_reducible refine kept_triggers ?_
    | with_reducible refine kept_markHeads ?_ | with_reducible refine kept_lineTick ?_ | with_reducible refine kept_timetable ?_
    | with_reducible refine kept_forAll ?_ (fun _ _ _ => ?_) | with_reducible refine kept_emuTick ?_ _
    | with_reducible refine kept_camFetch ?_ _ | with_reducible refine kept_updStep ?_ | with_reducible refine kept_calNext ?_
    | with_reducible refine kept_payAudit ?_ | split | fail_if_no_progress (with_reducible refine kept_mk (h := ?_)))

theorem kept_advance {s0 s : State} (h : Kept false s0 s) : Kept false s0 (State.advance s) := by
  unfold State.advance
  dsimp only
  generalize (if s.frm.started = true then s.frm.count + 1 else (0 : FrameNo)) = k
  refine kept_forAll (h.descs rfl ?_ rfl rfl rfl rfl fun e => nomatch e) fun t x q => kept_enterHold q x
  show List.Sublist (List.map _ (List.map _ _)) _
  have : (fun d : Desc => d.acc) ∘ (fun d : Desc => if (d.stage == DStage.effect && frameLe d.eff k) = true then { d with begun := true } else d)
      = fun d => d.acc := by
    funext d; simp only [Function.comp]; split <;> rfl
  rw [List.map_map, this]

theorem kept_judgeAll {z : Bool} {s0 s : State} (h : Kept z s0 s) : Kept z s0 (State.judgeAll s) := by
  unfold State.judgeAll
  try dsimp only
  repeat' (first
    | with_reducible assumption | split | fail_if_no_progress (with_reducible refine kept_mk (h := ?_))
    | fail_if_no_progress (with_reducible refine kept_mk_quiet (h := ?_) ?_) | exact ⟨rfl, rfl, rfl, rfl, List.prefix_refl _⟩
    | exact ⟨rfl, rfl, rfl, rfl, List.prefix_append _ _⟩)

theorem kept_fullRings {z : Bool} {s0 s : State} (h : Kept z s0 s) : Kept z s0 (State.fullRings s) := by
  unfold State.fullRings
  try dsimp only
  repeat' (first
    | with_reducible assumption | with_reducible refine kept_forAll ?_ (fun _ _ _ => ?_) | with_reducible refine kept_raise ?_ _ _ _ _
    | with_reducible refine kept_modCq ?_ _ _ | split | fail_if_no_progress (with_reducible refine kept_mk (h := ?_)))

theorem kept_firstTick {z : Bool} {s0 s : State} (h : Kept z s0 s) : Kept z s0 (State.firstTick s) := by
  unfold State.firstTick
  try dsimp only
  repeat' (first
    | with_reducible assumption | with_reducible refine kept_forAll ?_ (fun _ _ _ => ?_) | with_reducible refine kept_raise ?_ _ _ _ _
    | split | fail_if_no_progress (with_reducible refine kept_mk (h := ?_)))

theorem kept_tick {s0 s : State} (h : Kept false s0 s) (x1 : TickIn) : Kept false s0 (State.tick s x1) := by
  unfold State.tick
  try dsimp only
  repeat' (first
    | with_reducible assumption | with_reducible refine kept_tellAll ?_ | with_reducible refine kept_atTick ?_ _
    | with_reducible refine kept_gathering ?_ | with_reducible refine kept_advance ?_ | with_reducible refine kept_judgeAll ?_
    | with_reducible refine kept_readyChange ?_ | with_reducible refine kept_fullRings ?_ | with_reducible refine kept_settleEnd ?_
    | with_reducible refine kept_firstTick ?_ | split | fail_if_no_progress (with_reducible refine kept_mk (h := ?_)))

theorem kept_execFrameTick {s0 s : State} (h : Kept false s0 s) (x0 : TickIn) {t : State} (e : execFrameTick x0 s = .next t) : Kept false s0 t := by
  unfold execFrameTick at e
  first | (cases e; try dsimp only) | (split at e <;> cases e <;> try dsimp only)
  repeat' (first
    | with_reducible assumption | with_reducible refine kept_tick ?_ _ | split
    | fail_if_no_progress (with_reducible refine kept_mk (h := ?_)))

theorem kept_execClockLoss {z : Bool} {s0 s : State} (h : Kept z s0 s) (x0 : Bool) {t : State} (e : execClockLoss x0 s = .next t) : Kept z s0 t := by
  unfold execClockLoss at e
  first | (cases e; try dsimp only) | (split at e <;> cases e <;> try dsimp only)
  repeat' (first
    | with_reducible assumption | with_reducible refine kept_orReg ?_ _ _ | with_reducible refine kept_forAll ?_ (fun _ _ _ => ?_)
    | with_reducible refine kept_faultAxis ?_ _ _ | with_reducible refine kept_modCu ?_ _ _ | with_reducible refine kept_enterSafe ?_ _
    | with_reducible refine kept_raise ?_ _ _ _ _ | split | fail_if_no_progress (with_reducible refine kept_mk (h := ?_))
    | fail_if_no_progress (with_reducible refine kept_mk_quiet (h := ?_) ?_) | exact ⟨rfl, rfl, rfl, rfl, List.prefix_refl _⟩
    | exact ⟨rfl, rfl, rfl, rfl, List.prefix_append _ _⟩)

theorem kept_execPllRelock {z : Bool} {s0 s : State} (h : Kept z s0 s)  {t : State} (e : execPllRelock s = .next t) : Kept z s0 t := by
  unfold execPllRelock at e
  first | (cases e; try dsimp only) | (split at e <;> cases e <;> try dsimp only)
  repeat' (first
    | with_reducible assumption | split | fail_if_no_progress (with_reducible refine kept_mk (h := ?_))
    | fail_if_no_progress (with_reducible refine kept_mk_quiet (h := ?_) ?_) | exact ⟨rfl, rfl, rfl, rfl, List.prefix_refl _⟩
    | exact ⟨rfl, rfl, rfl, rfl, List.prefix_append _ _⟩)

theorem kept_wdogFire {z : Bool} {s0 s : State} (h : Kept z s0 s) (x1 : ℕ) (x2 : ℕ) : Kept z s0 (State.wdogFire s x1 x2) := by
  unfold State.wdogFire
  try dsimp only
  repeat' (first
    | with_reducible assumption | with_reducible refine kept_forAll ?_ (fun _ _ _ => ?_) | with_reducible refine kept_putReg ?_ _ _ _
    | with_reducible refine kept_modBr ?_ _ _ | with_reducible refine kept_faultAxis ?_ _ _ | with_reducible refine kept_raise ?_ _ _ _ _
    | with_reducible refine kept_modCu ?_ _ _ | with_reducible refine kept_enterSafe ?_ _ | split
    | fail_if_no_progress (with_reducible refine kept_mk (h := ?_)))

theorem kept_execWatchdogCheck {z : Bool} {s0 s : State} (h : Kept z s0 s) (x0 : WdCheck) {t : State} (e : execWatchdogCheck x0 s = .next t) : Kept z s0 t := by
  unfold execWatchdogCheck at e
  first | (cases e; try dsimp only) | (split at e <;> cases e <;> try dsimp only)
  repeat' (first
    | with_reducible assumption | with_reducible refine kept_wdogFire ?_ _ _ | split
    | fail_if_no_progress (with_reducible refine kept_mk (h := ?_)))

theorem kept_turnedDown {z : Bool} {s0 s : State} (h : Kept z s0 s) (x1 : AdmKind) : Kept z s0 (State.turnedDown s x1) := by
  unfold State.turnedDown
  try dsimp only
  repeat' (first
    | with_reducible assumption | with_reducible refine kept_commitRefused ?_ _ | with_reducible refine kept_drawFree ?_
    | with_reducible refine kept_finish ?_ _ _ _ _ _ | with_reducible refine kept_refuseSwitch ?_ _ | split
    | fail_if_no_progress (with_reducible refine kept_mk (h := ?_)))

theorem kept_postResult {z : Bool} {s0 s : State} (h : Kept z s0 s) (x1 : AdmReq) : Kept z s0 (State.postResult s x1) := by
  unfold State.postResult
  try dsimp only
  repeat' (first
    | with_reducible assumption | with_reducible refine kept_postVerdict ?_ _ _ | with_reducible refine kept_admitted ?_ _
    | with_reducible refine kept_turnedDown ?_ _ | split | fail_if_no_progress (with_reducible refine kept_mk (h := ?_))
    | fail_if_no_progress (with_reducible refine kept_mk_quiet (h := ?_) ?_) | exact ⟨rfl, rfl, rfl, rfl, List.prefix_refl _⟩
    | exact ⟨rfl, rfl, rfl, rfl, List.prefix_append _ _⟩)

theorem kept_execAdmissionResult {z : Bool} {s0 s : State} (h : Kept z s0 s)  {t : State} (e : execAdmissionResult s = .next t) : Kept z s0 t := by
  unfold execAdmissionResult at e
  first | (cases e; try dsimp only) | (split at e <;> cases e <;> try dsimp only)
  repeat' (first
    | with_reducible assumption | with_reducible refine kept_postResult ?_ _ | split
    | fail_if_no_progress (with_reducible refine kept_mk (h := ?_)))

theorem kept_execGranaryDeratingUpdate {z : Bool} {s0 s : State} (h : Kept z s0 s)  {t : State} (e : execGranaryDeratingUpdate s = .next t) : Kept z s0 t := by
  unfold execGranaryDeratingUpdate at e
  first | (cases e; try dsimp only) | (split at e <;> cases e <;> try dsimp only)
  repeat' (first
    | with_reducible assumption | with_reducible refine kept_granary ?_ | with_reducible refine kept_forAll ?_ (fun _ _ _ => ?_)
    | with_reducible refine kept_modPool ?_ _ _ | split | fail_if_no_progress (with_reducible refine kept_mk (h := ?_)))

end Sys2Proof.Machine
end

