-- ==== Sys2Proof/Laws/KeptExec.lean ====
section
/-! SUPPORT. The effect of every command keeps what `Kept` says. -/

namespace Sys2Proof.Machine

/-- Whatever the command, the next state it gives keeps what `Kept` says; a command that is not `unquiet` keeps what `Quiet` says too. -/
theorem kept_exec {z : Bool} {s t : State} {c : Instr} (hz : z = true → Safety.unquiet c = false) (e : exec c s = .next t) :
    Kept z s t := by
  cases c with
  | frameTick _ =>
    cases z with
    | true => cases hz rfl
    | false => exact kept_execFrameTick (Kept.refl _ s) _ e
  | clockLoss _ => exact kept_execClockLoss (Kept.refl _ s) _ e
  | pllRelock => exact kept_execPllRelock (Kept.refl _ s) e
  | bayShadowLoad _ _ => exact kept_execBayShadowLoad (Kept.refl _ s) _ _ e
  | bayPeakSample _ _ => exact kept_execBayPeakSample (Kept.refl _ s) _ _ e
  | watchdogCheck _ => exact kept_execWatchdogCheck (Kept.refl _ s) _ e
  | frmAdmitGo _ _ => exact kept_execFrmAdmitGo (Kept.refl _ s) _ _ e
  | admissionResult => exact kept_execAdmissionResult (Kept.refl _ s) e
  | wdogFiredClear _ => exact kept_execWdogFiredClear (Kept.refl _ s) _ e
  | wdogTest _ => exact kept_execWdogTest (Kept.refl _ s) _ e
  | frmCountLoRead _ => exact kept_execFrmCountLoRead (Kept.refl _ s) _ e
  | captureRead _ _ => exact kept_execCaptureRead (Kept.refl _ s) _ _ e
  | rcFieldRead _ _ => exact kept_execRcFieldRead (Kept.refl _ s) _ _ e
  | resultRegisterRead _ _ => exact kept_execResultRegisterRead (Kept.refl _ s) _ _ e
  | registerWrite _ _ _ _ =>
    refine kept_execRegisterWrite (Kept.refl _ s) _ _ _ _ ?_ e
    rintro h rfl
    exact nomatch (hz h : (Adr.GCTL_RESET == Adr.GCTL_RESET) = false)
  | wlWordWrite _ _ _ _ => exact kept_execWlWordWrite (Kept.refl _ s) _ _ _ _ e
  | sramApertureRead _ _ _ => exact kept_execSramApertureRead (Kept.refl _ s) _ _ _ e
  | hostLinkDown => exact kept_execHostLinkDown (Kept.refl _ s) e
  | hostLinkUp => exact kept_execHostLinkUp (Kept.refl _ s) e
  | functionLevelReset _ => exact kept_execFunctionLevelReset (Kept.refl _ s) _ e
  | perst => exact kept_execPerst (Kept.refl _ s) e
  | hifKick _ => exact kept_execHifKick (Kept.refl _ s) _ e
  | doorbellBlockReadDone _ => exact kept_execDoorbellBlockReadDone (Kept.refl _ s) _ e
  | returnBlockReadDone _ => exact kept_execReturnBlockReadDone (Kept.refl _ s) _ e
  | descriptorReadDone _ _ => exact kept_execDescriptorReadDone (Kept.refl _ s) _ _ e
  | descriptorRefetchDone _ _ => exact kept_execDescriptorRefetchDone (Kept.refl _ s) _ _ e
  | sqEnable _ _ _ => exact kept_execSqEnable (Kept.refl _ s) _ _ _ e
  | sqDisable _ _ _ => exact kept_execSqDisable (Kept.refl _ s) _ _ _ e
  | sqDrainDone _ => exact kept_execSqDrainDone (Kept.refl _ s) _ e
  | cqEnable _ _ _ => exact kept_execCqEnable (Kept.refl _ s) _ _ _ e
  | cqDisable _ _ _ => exact kept_execCqDisable (Kept.refl _ s) _ _ _ e
  | eqEnable _ _ => exact kept_execEqEnable (Kept.refl _ s) _ _ e
  | eqDisable _ _ => exact kept_execEqDisable (Kept.refl _ s) _ _ e
  | msixCoalesceTimeout _ => exact kept_execMsixCoalesceTimeout (Kept.refl _ s) _ e
  | enterOrdering _ => exact kept_execEnterOrdering (Kept.refl _ s) _ e
  | nop _ => exact kept_execNop (Kept.refl _ s) _ e
  | moveAbs _ => exact kept_execMoveAbs (Kept.refl _ s) _ e
  | moveRel _ => exact kept_execMoveRel (Kept.refl _ s) _ e
  | moveVel _ => exact kept_execMoveVel (Kept.refl _ s) _ e
  | moveVelComplete _ => exact kept_execMoveVelComplete (Kept.refl _ s) _ e
  | stop _ => exact kept_execStop (Kept.refl _ s) _ e
  | followStep _ => exact kept_execFollowStep (Kept.refl _ s) _ e
  | followCam _ => exact kept_execFollowCam (Kept.refl _ s) _ e
  | energize _ => exact kept_execEnergize (Kept.refl _ s) _ e
  | park _ => exact kept_execPark (Kept.refl _ s) _ e
  | fence _ => exact kept_execFence (Kept.refl _ s) _ e
  | fenceComplete _ => exact kept_execFenceComplete (Kept.refl _ s) _ e
  | barrier _ => exact kept_execBarrier (Kept.refl _ s) _ e
  | barrierArrive _ => exact kept_execBarrierArrive (Kept.refl _ s) _ e
  | barrierRelease _ => exact kept_execBarrierRelease (Kept.refl _ s) _ e
  | snapshot _ => exact kept_execSnapshot (Kept.refl _ s) _ e
  | snapshotComplete _ => exact kept_execSnapshotComplete (Kept.refl _ s) _ e
  | triggerArm _ => exact kept_execTriggerArm (Kept.refl _ s) _ e
  | maskSet _ => exact kept_execMaskSet (Kept.refl _ s) _ e
  | identify _ => exact kept_execIdentify (Kept.refl _ s) _ e
  | identifyComplete _ => exact kept_execIdentifyComplete (Kept.refl _ s) _ e
  | shaperIdentComplete _ _ _ => exact kept_execShaperIdentComplete (Kept.refl _ s) _ _ _ e
  | setParam _ => exact kept_execSetParam (Kept.refl _ s) _ e
  | posSet _ => exact kept_execPosSet (Kept.refl _ s) _ e
  | grpDef _ => exact kept_execGrpDef (Kept.refl _ s) _ e
  | trgDisarm _ => exact kept_execTrgDisarm (Kept.refl _ s) _ e
  | groupMove _ => exact kept_execGroupMove (Kept.refl _ s) _ e
  | groupTargetListReadDone _ _ => exact kept_execGroupTargetListReadDone (Kept.refl _ s) _ _ e
  | consistSelect _ => exact kept_execConsistSelect (Kept.refl _ s) _ e
  | consistSlotReadEnd _ => exact kept_execConsistSlotReadEnd (Kept.refl _ s) _ e
  | moveComplete _ => exact kept_execMoveComplete (Kept.refl _ s) _ e
  | energisingRampEnd _ => exact kept_execEnergisingRampEnd (Kept.refl _ s) _ e
  | identREnd _ => exact kept_execIdentREnd (Kept.refl _ s) _ e
  | identLEnd _ => exact kept_execIdentLEnd (Kept.refl _ s) _ e
  | energizeComplete _ => exact kept_execEnergizeComplete (Kept.refl _ s) _ e
  | powerDownDelayEnd _ => exact kept_execPowerDownDelayEnd (Kept.refl _ s) _ e
  | powerDownRampEnd _ => exact kept_execPowerDownRampEnd (Kept.refl _ s) _ e
  | standstillWindowEnd _ => exact kept_execStandstillWindowEnd (Kept.refl _ s) _ e
  | bootstrapRelease _ => exact kept_execBootstrapRelease (Kept.refl _ s) _ e
  | bootstrapReleaseTimeout _ => exact kept_execBootstrapReleaseTimeout (Kept.refl _ s) _ e
  | camLineReadDone _ _ _ => exact kept_execCamLineReadDone (Kept.refl _ s) _ _ _ e
  | stepInputEdge _ _ => exact kept_execStepInputEdge (Kept.refl _ s) _ _ e
  | stepPairOpen _ => exact kept_execStepPairOpen (Kept.refl _ s) _ e
  | brSrcWrite _ _ _ => exact kept_execBrSrcWrite (Kept.refl _ s) _ _ _ e
  | bayCommitWrite _ _ _ => exact kept_execBayCommitWrite (Kept.refl _ s) _ _ _ e
  | legLatchRelease _ _ _ => exact kept_execLegLatchRelease (Kept.refl _ s) _ _ _ e
  | coilWindowTrip _ _ _ _ => exact kept_execCoilWindowTrip (Kept.refl _ s) _ _ _ _ e
  | debugHalt _ => exact kept_execDebugHalt (Kept.refl _ s) _ e
  | stoInputLow _ _ _ => exact kept_execStoInputLow (Kept.refl _ s) _ _ _ e
  | stoRelease _ => exact kept_execStoRelease (Kept.refl _ s) _ e
  | stoDiscrepancy => exact kept_execStoDiscrepancy (Kept.refl _ s) e
  | fastOvercurrent _ _ => exact kept_execFastOvercurrent (Kept.refl _ s) _ _ e
  | openLoadCountEnd _ => exact kept_execOpenLoadCountEnd (Kept.refl _ s) _ e
  | parkedAxisProbe _ _ => exact kept_execParkedAxisProbe (Kept.refl _ s) _ _ e
  | bootstrapUndervoltage _ => exact kept_execBootstrapUndervoltage (Kept.refl _ s) _ e
  | gateSupplyFall _ => exact kept_execGateSupplyFall (Kept.refl _ s) _ e
  | gateSupplyRelease _ => exact kept_execGateSupplyRelease (Kept.refl _ s) _ e
  | vdsDetection _ _ _ => exact kept_execVdsDetection (Kept.refl _ s) _ _ _ e
  | hardOvercurrent _ _ => exact kept_execHardOvercurrent (Kept.refl _ s) _ _ e
  | gateFeedbackMismatch _ _ _ => exact kept_execGateFeedbackMismatch (Kept.refl _ s) _ _ _ e
  | fbStateChange _ _ _ _ => exact kept_execFbStateChange (Kept.refl _ s) _ _ _ _ e
  | fbSincosConversion _ _ _ _ => exact kept_execFbSincosConversion (Kept.refl _ s) _ _ _ _ e
  | fbWireCheckFail _ _ _ => exact kept_execFbWireCheckFail (Kept.refl _ s) _ _ _ e
  | fbChannelValid _ => exact kept_execFbChannelValid (Kept.refl _ s) _ e
  | indexQualified _ _ => exact kept_execIndexQualified (Kept.refl _ s) _ _ e
  | fbCfgWrite _ _ _ => exact kept_execFbCfgWrite (Kept.refl _ s) _ _ _ e
  | fbReval _ _ => exact kept_execFbReval (Kept.refl _ s) _ _ e
  | fbSetcnt _ _ => exact kept_execFbSetcnt (Kept.refl _ s) _ _ e
  | fbSuspectClear _ _ => exact kept_execFbSuspectClear (Kept.refl _ s) _ _ e
  | fbIndexConfigWrite _ _ _ => exact kept_execFbIndexConfigWrite (Kept.refl _ s) _ _ _ e
  | fbSoftLimitWrite _ _ _ => exact kept_execFbSoftLimitWrite (Kept.refl _ s) _ _ _ e
  | probeEdge _ _ _ => exact kept_execProbeEdge (Kept.refl _ s) _ _ _ e
  | emuCfgWrite _ _ _ => exact kept_execEmuCfgWrite (Kept.refl _ s) _ _ _ e
  | comparatorSweepStart => exact kept_execComparatorSweepStart (Kept.refl _ s) e
  | cmpSweepWrite _ => exact kept_execCmpSweepWrite (Kept.refl _ s) _ e
  | comparatorTestEnd _ => exact kept_execComparatorTestEnd (Kept.refl _ s) _ e
  | cmpThresholdWrite _ _ _ => exact kept_execCmpThresholdWrite (Kept.refl _ s) _ _ _ e
  | vmEntryLoTrip _ => exact kept_execVmEntryLoTrip (Kept.refl _ s) _ e
  | vmEntryHiTrip _ => exact kept_execVmEntryHiTrip (Kept.refl _ s) _ e
  | overvoltageMonitorTrip _ => exact kept_execOvervoltageMonitorTrip (Kept.refl _ s) _ e
  | brakeChopperLimit _ => exact kept_execBrakeChopperLimit (Kept.refl _ s) _ e
  | railLoTrip _ => exact kept_execRailLoTrip (Kept.refl _ s) _ e
  | railHiTrip _ => exact kept_execRailHiTrip (Kept.refl _ s) _ e
  | granaryDeratingUpdate => exact kept_execGranaryDeratingUpdate (Kept.refl _ s) e
  | lineEnable _ _ => exact kept_execLineEnable (Kept.refl _ s) _ _ e
  | lineStatusReceive _ _ => exact kept_execLineStatusReceive (Kept.refl _ s) _ _ e
  | lineArriveReceive _ _ => exact kept_execLineArriveReceive (Kept.refl _ s) _ _ e
  | lineSnapCmdReceive _ _ => exact kept_execLineSnapCmdReceive (Kept.refl _ s) _ _ e
  | lineSnapDoneReceive _ _ => exact kept_execLineSnapDoneReceive (Kept.refl _ s) _ _ e
  | lineResetReceive _ _ => exact kept_execLineResetReceive (Kept.refl _ s) _ _ e
  | linePingReceive _ _ _ => exact kept_execLinePingReceive (Kept.refl _ s) _ _ _ e
  | tickMarkerReceive _ _ => exact kept_execTickMarkerReceive (Kept.refl _ s) _ _ e
  | estopMarkerReceive _ _ _ => exact kept_execEstopMarkerReceive (Kept.refl _ s) _ _ _ e
  | lineCutOff => exact kept_execLineCutOff (Kept.refl _ s) e
  | linePortDown _ _ => exact kept_execLinePortDown (Kept.refl _ s) _ _ e
  | lineJoin _ =>
    cases z with
    | true => cases hz rfl
    | false => exact kept_execLineJoin (Kept.refl _ s) _ e
  | lineCtlReset _ => exact kept_execLineCtlReset (Kept.refl _ s) _ e
  | lineEpoch =>
    cases z with
    | true => cases hz rfl
    | false => exact kept_execLineEpoch (Kept.refl _ s) e
  | lineCtlEstop _ => exact kept_execLineCtlEstop (Kept.refl _ s) _ e
  | lineCtlEstopClr _ => exact kept_execLineCtlEstopClr (Kept.refl _ s) _ e
  | lineBarrierRelease _ => exact kept_execLineBarrierRelease (Kept.refl _ s) _ e
  | wbEnergySample _ => exact kept_execWbEnergySample (Kept.refl _ s) _ e
  | wbRtcSecond => exact kept_execWbRtcSecond (Kept.refl _ s) e
  | wbCheckpoint _ => exact kept_execWbCheckpoint (Kept.refl _ s) _ e
  | wbStandbyCheck => exact kept_execWbStandbyCheck (Kept.refl _ s) e
  | wbRtcGo _ => exact kept_execWbRtcGo (Kept.refl _ s) _ e
  | tamperChange _ _ => exact kept_execTamperChange (Kept.refl _ s) _ _ e
  | sealPadChange _ => exact kept_execSealPadChange (Kept.refl _ s) _ e
  | wbTblCommit _ => exact kept_execWbTblCommit (Kept.refl _ s) _ e
  | wbInstall _ => exact kept_execWbInstall (Kept.refl _ s) _ e
  | wbInstallVerifyDone _ => exact kept_execWbInstallVerifyDone (Kept.refl _ s) _ e
  | wbInstallWriteDone _ => exact kept_execWbInstallWriteDone (Kept.refl _ s) _ e
  | wbInstallCommitDone => exact kept_execWbInstallCommitDone (Kept.refl _ s) e
  | wbInstallRestartDone => exact kept_execWbInstallRestartDone (Kept.refl _ s) e
  | wbReqGo _ => exact kept_execWbReqGo (Kept.refl _ s) _ e
  | wbRecordReady => exact kept_execWbRecordReady (Kept.refl _ s) e
  | wbSnap _ => exact kept_execWbSnap (Kept.refl _ s) _ e
  | wbSnapHoldEnd => exact kept_execWbSnapHoldEnd (Kept.refl _ s) e
  | spiWriteTransaction _ =>
    cases z with
    | true => cases hz rfl
    | false => exact kept_execSpiWriteTransaction (Kept.refl _ s) _ e
  | spiReadTransaction _ => exact kept_execSpiReadTransaction (Kept.refl _ s) _ e
  | spiResponseWrite _ _ => exact kept_execSpiResponseWrite (Kept.refl _ s) _ _ e
  | spiLeave _ => exact kept_execSpiLeave (Kept.refl _ s) _ e
  | spiIdleTimeout => exact kept_execSpiIdleTimeout (Kept.refl _ s) e
  | spiBlockEnd => exact kept_execSpiBlockEnd (Kept.refl _ s) e
  | scrubRead _ _ _ => exact kept_execScrubRead (Kept.refl _ s) _ _ _ e
  | coreRestart _ => exact kept_execCoreRestart (Kept.refl _ s) _ e
  | configParityFail _ => exact kept_execConfigParityFail (Kept.refl _ s) _ e
  | parErrClear _ => exact kept_execParErrClear (Kept.refl _ s) _ e
  | vauxRise _ =>
    cases z with
    | true => cases hz rfl
    | false => exact kept_execVauxRise (Kept.refl _ s) _ e
  | vauxFall =>
    cases z with
    | true => cases hz rfl
    | false => exact kept_execVauxFall (Kept.refl _ s) e
  | bootImageLoaded _ _ =>
    cases z with
    | true => cases hz rfl
    | false => exact kept_execBootImageLoaded (Kept.refl _ s) _ _ e
  | softwareReset _ _ =>
    cases z with
    | true => cases hz rfl
    | false => exact kept_execSoftwareReset (Kept.refl _ s) _ _ e
  | bayCalibrationEnd _ _ _ => exact kept_execBayCalibrationEnd (Kept.refl _ s) _ _ _ e
  | calibrationPassStart => exact kept_execCalibrationPassStart (Kept.refl _ s) e
  | updCalGo _ _ => exact kept_execUpdCalGo (Kept.refl _ s) _ _ e
  | updCapture _ _ => exact kept_execUpdCapture (Kept.refl _ s) _ _ e
  | updGo _ _ => exact kept_execUpdGo (Kept.refl _ s) _ _ e
  | updWriteDone _ => exact kept_execUpdWriteDone (Kept.refl _ s) _ e
  | updSwitchGo _ _ => exact kept_execUpdSwitchGo (Kept.refl _ s) _ _ e
  | updBankCopyDone _ => exact kept_execUpdBankCopyDone (Kept.refl _ s) _ e
  | pwrPrep _ => exact kept_execPwrPrep (Kept.refl _ s) _ e
  | pwrPrepWithdraw _ => exact kept_execPwrPrepWithdraw (Kept.refl _ s) _ e
  | pwrDone => exact kept_execPwrDone (Kept.refl _ s) e
  | linePortUp _ => exact kept_execLinePortUp (Kept.refl _ s) _ e
  | stepPairRestore _ => exact kept_execStepPairRestore (Kept.refl _ s) _ e
  | perstRelease => exact kept_execPerstRelease (Kept.refl _ s) e
  | debugHaltRelease _ => exact kept_execDebugHaltRelease (Kept.refl _ s) _ e
  | wbSlowClockEdge => exact kept_execWbSlowClockEdge (Kept.refl _ s) e
  | vbatFall => exact kept_execVbatFall (Kept.refl _ s) e
  | msixVectorUnmask _ _ => exact kept_execMsixVectorUnmask (Kept.refl _ s) _ _ e

end Sys2Proof.Machine
end

