-- ==== Sys2Proof/Laws/Within.lean ====
section
/-! SUPPORT. The operations that work on the axes, the descriptors and what the host is told alone: every other part of the state is as
it was. -/

set_option linter.unreachableTactic false
set_option linter.unusedTactic false
set_option linter.unusedVariables false

namespace Sys2Proof.Machine

open Safety (evReg)

/-- The axes, the motor cards, the descriptors, the completion rings, the event ring, the events gathered, the host interface, the registers, the
Weighbridge's count of moves and what is sent out may have moved; everything else is as it was. Where `z` is true, no register has moved but those
of events, a pending event is still pending, and nothing has been accepted. -/
structure Within (z : Bool) (s t : State) : Prop where
  eqn : t = { s with ax := t.ax, cards := t.cards, cq := t.cq, eq := t.eq, gather := t.gather, hif := t.hif, ord := t.ord, out := t.out, regs := t.regs, wb := t.wb }
  link : t.hif.linkUp = s.hif.linkUp ∧ t.hif.perst = s.hif.perst ∧ t.hif.lostAt = s.hif.lostAt
  next : z = true → t.ord.next = s.ord.next
  reg : z = true → ∀ a, evReg a = false → t.reg a = s.reg a
  lo : z = true → ∀ i, (s.reg Adr.EVT_PEND_LO).getLsbD i = true → (t.reg Adr.EVT_PEND_LO).getLsbD i = true
  hi : z = true → ∀ i, (s.reg Adr.EVT_PEND_HI).getLsbD i = true → (t.reg Adr.EVT_PEND_HI).getLsbD i = true

theorem Within.refl (z : Bool) (s : State) : Within z s s := ⟨rfl, ⟨rfl, rfl, rfl⟩, fun _ => rfl, fun _ _ _ => rfl, fun _ _ => id, fun _ _ => id⟩

theorem Within.trans {z : Bool} {s t u : State} (h : Within z s t) (k : Within z t u) : Within z s u :=
  ⟨by rw [k.eqn, h.eqn], ⟨k.link.1.trans h.link.1, k.link.2.1.trans h.link.2.1, k.link.2.2.trans h.link.2.2⟩,
    fun e => (k.next e).trans (h.next e), fun e a n => (k.reg e a n).trans (h.reg e a n), fun e i w => k.lo e i (h.lo e i w),
    fun e i w => k.hi e i (h.hi e i w)⟩

theorem Within.same {z : Bool} {s t : State}
    (h : t = { s with ax := t.ax, cards := t.cards, cq := t.cq, eq := t.eq, gather := t.gather, hif := t.hif, ord := t.ord, out := t.out, regs := s.regs, wb := t.wb })
    (hh : t.hif.linkUp = s.hif.linkUp ∧ t.hif.perst = s.hif.perst ∧ t.hif.lostAt = s.hif.lostAt := by exact ⟨rfl, rfl, rfl⟩)
    (hn : t.ord.next = s.ord.next := by rfl) : Within z s t := by
  have hr : ∀ a, t.reg a = s.reg a := State.reg_of_regs (by rw [h])
  have hs : t.regs = s.regs := by rw [h]
  exact ⟨by rw [hs]; exact h, hh, fun _ => hn, fun _ a _ => hr a, fun _ i w => by rw [hr]; exact w, fun _ i w => by rw [hr]; exact w⟩

theorem Within.frm {z : Bool} {s t : State} (h : Within z s t) : t.frm = s.frm := by rw [h.eqn]
theorem Within.sq {z : Bool} {s t : State} (h : Within z s t) : t.sq = s.sq := by rw [h.eqn]
theorem Within.cu {z : Bool} {s t : State} (h : Within z s t) : t.cu = s.cu := by rw [h.eqn]
theorem Within.hv {z : Bool} {s t : State} (h : Within z s t) : t.hv = s.hv := by rw [h.eqn]
theorem Within.fbc {z : Bool} {s t : State} (h : Within z s t) : t.fbc = s.fbc := by rw [h.eqn]
theorem Within.sd {z : Bool} {s t : State} (h : Within z s t) : t.sd = s.sd := by rw [h.eqn]
theorem Within.trg {z : Bool} {s t : State} (h : Within z s t) : t.trg = s.trg := by rw [h.eqn]
theorem Within.grp {z : Bool} {s t : State} (h : Within z s t) : t.grp = s.grp := by rw [h.eqn]
theorem Within.prb {z : Bool} {s t : State} (h : Within z s t) : t.prb = s.prb := by rw [h.eqn]
theorem Within.emu {z : Bool} {s t : State} (h : Within z s t) : t.emu = s.emu := by rw [h.eqn]
theorem Within.cmp {z : Bool} {s t : State} (h : Within z s t) : t.cmp = s.cmp := by rw [h.eqn]
theorem Within.gran {z : Bool} {s t : State} (h : Within z s t) : t.gran = s.gran := by rw [h.eqn]
theorem Within.pool {z : Bool} {s t : State} (h : Within z s t) : t.pool = s.pool := by rw [h.eqn]
theorem Within.line {z : Bool} {s t : State} (h : Within z s t) : t.line = s.line := by rw [h.eqn]
theorem Within.acc {z : Bool} {s t : State} (h : Within z s t) : t.acc = s.acc := by rw [h.eqn]
theorem Within.upd {z : Bool} {s t : State} (h : Within z s t) : t.upd = s.upd := by rw [h.eqn]
theorem Within.sys {z : Bool} {s t : State} (h : Within z s t) : t.sys = s.sys := by rw [h.eqn]
theorem Within.caps {z : Bool} {s t : State} (h : Within z s t) : t.caps = s.caps := by rw [h.eqn]
theorem Within.bus {z : Bool} {s t : State} (h : Within z s t) : t.bus = s.bus := by rw [h.eqn]
theorem Within.free {z : Bool} {s t : State} (h : Within z s t) : t.free = s.free := by rw [h.eqn]
theorem Within.pending {z : Bool} {s t : State} (h : Within z s t) : t.pending = s.pending := by rw [h.eqn]

theorem within_mk {z : Bool} {s0 s : State} {cq_ eq_ ax_ cards_ wb_ gather_ out_} (h : Within z s0 s) :
    Within z s0 (State.mk s.frm s.hif s.sq cq_ eq_ s.ord ax_ cards_ s.cu s.hv s.fbc s.sd s.trg s.grp s.prb s.emu s.cmp
      s.gran s.pool s.line wb_ s.acc s.upd s.sys s.regs s.caps s.bus gather_ out_ s.free s.pending) :=
  h.trans (Within.same rfl)

theorem within_mk_hif {z : Bool} {s0 s : State} {hif_ cq_ eq_ ax_ cards_ wb_ gather_ out_} (h : Within z s0 s)
    (hh : hif_.linkUp = s.hif.linkUp ∧ hif_.perst = s.hif.perst ∧ hif_.lostAt = s.hif.lostAt) :
    Within z s0 (State.mk s.frm hif_ s.sq cq_ eq_ s.ord ax_ cards_ s.cu s.hv s.fbc s.sd s.trg s.grp s.prb s.emu s.cmp
      s.gran s.pool s.line wb_ s.acc s.upd s.sys s.regs s.caps s.bus gather_ out_ s.free s.pending) :=
  h.trans (Within.same rfl hh)

theorem within_mk_ord {z : Bool} {s0 s : State} {cq_ eq_ ord_ ax_ cards_ wb_ gather_ out_} (h : Within z s0 s) (hn : ord_.next = s.ord.next) :
    Within z s0 (State.mk s.frm s.hif s.sq cq_ eq_ ord_ ax_ cards_ s.cu s.hv s.fbc s.sd s.trg s.grp s.prb s.emu s.cmp
      s.gran s.pool s.line wb_ s.acc s.upd s.sys s.regs s.caps s.bus gather_ out_ s.free s.pending) :=
  h.trans (Within.same rfl ⟨rfl, rfl, rfl⟩ hn)

theorem within_mk_any {s0 s : State} {cq_ eq_ ord_ ax_ cards_ wb_ regs_ gather_ out_} (h : Within false s0 s) :
    Within false s0 (State.mk s.frm s.hif s.sq cq_ eq_ ord_ ax_ cards_ s.cu s.hv s.fbc s.sd s.trg s.grp s.prb s.emu s.cmp
      s.gran s.pool s.line wb_ s.acc s.upd s.sys regs_ s.caps s.bus gather_ out_ s.free s.pending) :=
  h.trans ⟨rfl, ⟨rfl, rfl, rfl⟩, fun e => (nomatch e), fun e => (nomatch e), fun e => (nomatch e), fun e => (nomatch e)⟩

/-- Event 5 told in the registers. -/
theorem within_overflowRegs {z : Bool} (s : State) : Within z s ((s.orReg Adr.EVT_PEND_LO 32).incReg (Adr.EVT_CNT 5)) := by
  have k : ∀ b, b ≠ Adr.EVT_CNT 5 → ((s.orReg Adr.EVT_PEND_LO 32).incReg (Adr.EVT_CNT 5)).reg b = (s.orReg Adr.EVT_PEND_LO 32).reg b :=
    fun b hb => State.reg_setReg_other _ _ hb
  refine ⟨rfl, ⟨rfl, rfl, rfl⟩, fun _ => rfl, fun _ a n => ?_, fun _ i w => ?_, fun _ i w => ?_⟩
  · simp only [evReg, Bool.or_eq_false_iff, beq_eq_false_iff_ne, ne_eq, Bool.and_eq_false_iff, decide_eq_false_iff_not] at n
    rw [k _ (by simp only [Adr.EVT_CNT]; omega)]
    exact State.reg_setReg_other _ _ n.1.1
  · rw [k _ (by decide)]
    simp [State.orReg, w]
  · rw [k _ (by decide)]
    rw [State.orReg, State.reg_setReg_other _ _ (by decide)]
    exact w

theorem within_setReg {s0 s : State} (h : Within false s0 s) (a : Nat) (w : Word) : Within false s0 (s.setReg a w) :=
  h.trans ⟨rfl, ⟨rfl, rfl, rfl⟩, fun e => (nomatch e), fun e => (nomatch e), fun e => (nomatch e), fun e => (nomatch e)⟩

theorem within_emit {z : Bool} {s0 s : State} (h : Within z s0 s) (o : Output) : Within z s0 (s.emit o) := h.trans (Within.same rfl)

theorem within_modDesc {z : Bool} {s0 s : State} (h : Within z s0 s) (d : Nat) (f : Desc → Desc) : Within z s0 (s.modDesc d f) :=
  h.trans (Within.same rfl)

theorem within_dropDesc {z : Bool} {s0 s : State} (h : Within z s0 s) (d : Nat) : Within z s0 (s.dropDesc d) := h.trans (Within.same rfl)

theorem within_forAll {z : Bool} {α : Type} {s0 s : State} {l : List α} {f : State → α → State} (h : Within z s0 s)
    (hf : ∀ t a, Within z s0 t → Within z s0 (f t a)) : Within z s0 (s.forAll l f) := by
  unfold State.forAll
  induction l generalizing s with
  | nil => exact h
  | cons a l ih => exact ih (hf s a h)

theorem within_foldl {z : Bool} {α : Type} {s0 s : State} {l : List α} {f : State → α → State} (h : Within z s0 s)
    (hf : ∀ t a, Within z s0 t → Within z s0 (f t a)) : Within z s0 (l.foldl f s) := within_forAll h hf

theorem within_fst {z : Bool} {α : Type} {s0 t : State} {a : α} {p : State × α} (h : Within z s0 p.1) (e : p = (t, a)) : Within z s0 t := by
  subst e; exact h

theorem within_snd {z : Bool} {α : Type} {s0 t : State} {a : α} {p : α × State} (h : Within z s0 p.2) (e : p = (a, t)) : Within z s0 t := by
  subst e; exact h

theorem within_ite {z : Bool} {s0 s t : State} {c : Prop} [Decidable c] (hs : Within z s0 s) (ht : Within z s0 t) : Within z s0 (if c then s else t) := by
  split
  · exact hs
  · exact ht

theorem within_incReg {s0 s : State} (h : Within false s0 s) (x1 : ℕ) : Within false s0 (State.incReg s x1) := by
  unfold State.incReg
  try dsimp only
  repeat' (first
    | with_reducible assumption | with_reducible refine within_setReg ?_ _ _ | split
    | fail_if_no_progress (with_reducible refine within_mk (h := ?_))
    | fail_if_no_progress (with_reducible refine within_mk_any (h := ?_)))

theorem within_orReg {s0 s : State} (h : Within false s0 s) (x1 : ℕ) (x2 : ℕ) : Within false s0 (State.orReg s x1 x2) := by
  unfold State.orReg
  try dsimp only
  repeat' (first
    | with_reducible assumption | with_reducible refine within_setReg ?_ _ _ | split
    | fail_if_no_progress (with_reducible refine within_mk (h := ?_))
    | fail_if_no_progress (with_reducible refine within_mk_any (h := ?_)))

theorem within_sendMsix {z : Bool} {s0 s : State} (h : Within z s0 s) (x1 : Fin 2) (x2 : Fin 16) : Within z s0 (State.sendMsix s x1 x2) := by
  unfold State.sendMsix
  try dsimp only
  repeat' (first
    | with_reducible assumption | with_reducible refine within_emit ?_ _ | split
    | fail_if_no_progress (with_reducible refine within_mk (h := ?_)))

theorem within_signal {z : Bool} {s0 s : State} (h : Within z s0 s) (x1 : Fin 2) (x2 : Fin 16) : Within z s0 (State.signal s x1 x2) := by
  unfold State.signal
  try dsimp only
  repeat' (first
    | with_reducible assumption | with_reducible refine within_sendMsix ?_ _ _ | split
    | fail_if_no_progress (with_reducible refine within_mk (h := ?_))
    | fail_if_no_progress (with_reducible refine within_mk_hif (h := ?_) ?_) | exact ⟨rfl, rfl, rfl⟩)

theorem within_signalEq {z : Bool} {s0 s : State} (h : Within z s0 s) : Within z s0 (State.signalEq s) := by
  unfold State.signalEq
  try dsimp only
  repeat' (first
    | with_reducible assumption | with_reducible refine within_signal ?_ _ _ | split
    | fail_if_no_progress (with_reducible refine within_mk (h := ?_)))

theorem within_putEvent {z : Bool} {s0 s : State} (h : Within z s0 s) (x1 : EvRec) (x2 : Bool) : Within z s0 (State.putEvent s x1 x2) := by
  unfold State.putEvent
  try dsimp only
  repeat' (first
    | with_reducible assumption | with_reducible refine within_emit ?_ _ | with_reducible refine within_signalEq ?_ | split
    | fail_if_no_progress (with_reducible refine within_mk (h := ?_)))

theorem within_writeEvent {z : Bool} {s0 s : State} (h : Within z s0 s) (x1 : EvRec) (x2 : Bool) : Within z s0 (State.writeEvent s x1 x2) := by
  unfold State.writeEvent
  try dsimp only
  repeat' (first
    | with_reducible assumption | with_reducible refine within_putEvent ?_ _ _ | split
    | fail_if_no_progress (with_reducible refine within_mk (h := ?_)))

theorem within_hold {z : Bool} {s0 s : State} (h : Within z s0 s) (x1 : HeldRec) : Within z s0 (State.hold s x1) := by
  unfold State.hold
  try dsimp only
  repeat' (first
    | with_reducible assumption | split | fail_if_no_progress (with_reducible refine within_mk (h := ?_))
    | fail_if_no_progress (with_reducible refine within_mk_hif (h := ?_) ?_) | exact ⟨rfl, rfl, rfl⟩)

theorem within_tell {z : Bool} {s0 s : State} (h : Within z s0 s) (x1 : EvRec) : Within z s0 (State.tell s x1) := by
  unfold State.tell
  try dsimp only
  repeat' (first
    | with_reducible assumption | with_reducible refine within_writeEvent ?_ _ _ | with_reducible refine within_hold ?_ _ | split
    | fail_if_no_progress (with_reducible refine within_mk (h := ?_)))

theorem within_raiseAt {z : Bool} {s0 s : State} (h : Within z s0 s) (fr : FrameNo) (e u : Nat) (d0 d1 : Word) :
    Within z s0 (State.raiseAt s fr e u d0 d1) := by
  have k := tells_raiseAt s fr e u d0 d1
  have hr := State.regs_raiseAt s fr e u d0 d1
  have hl : ∀ a, (s.raiseAt fr e u d0 d1).reg a =
      ((s.orReg (if e < 32 then Adr.EVT_PEND_LO else Adr.EVT_PEND_HI) (2 ^ (e % 32))).incReg (Adr.EVT_CNT (e % 64))).reg a :=
    State.reg_of_regs hr
  have hc : e % 64 < 64 := Nat.mod_lt _ (by decide)
  have hor : ∀ b m i, (s.reg b).getLsbD i = true → ((s.orReg b m).reg b).getLsbD i = true := by
    intro b m i w
    simp [State.orReg, w]
  have hpe : ∀ b, b < 0x30100 → ∀ i, (s.reg b).getLsbD i = true → ((s.raiseAt fr e u d0 d1).reg b).getLsbD i = true := by
    intro b hb i w
    rw [hl, State.incReg, State.reg_setReg_other _ _ (by simp only [Adr.EVT_CNT]; omega)]
    by_cases hq : b = (if e < 32 then Adr.EVT_PEND_LO else Adr.EVT_PEND_HI)
    · rw [← hq]; exact hor _ _ _ w
    · rw [State.orReg, State.reg_setReg_other _ _ hq]; exact w
  refine h.trans ⟨by rw [k.eqn], ⟨by rw [k.hif], by rw [k.hif], by rw [k.hif]⟩, fun _ => by rw [k.ord], fun _ a n => ?_, fun _ => hpe _ (by decide), fun _ => hpe _ (by decide)⟩
  simp only [evReg, Bool.or_eq_false_iff, beq_eq_false_iff_ne, ne_eq, Bool.and_eq_false_iff, decide_eq_false_iff_not] at n
  rw [hl, State.incReg, State.reg_setReg_other _ _ (by simp only [Adr.EVT_CNT]; omega), State.orReg,
    State.reg_setReg_other _ _ (by split <;> tauto)]

theorem within_raise {z : Bool} {s0 s : State} (h : Within z s0 s) (x1 : ℕ) (x2 : ℕ) (x3 : Word) (x4 : Word) : Within z s0 (State.raise s x1 x2 x3 x4) := by
  unfold State.raise
  try dsimp only
  repeat' (first
    | with_reducible assumption | with_reducible refine within_raiseAt ?_ _ _ _ _ _ | split
    | fail_if_no_progress (with_reducible refine within_mk (h := ?_)))

theorem within_modCq {z : Bool} {s0 s : State} (h : Within z s0 s) (x1 : RingId) (x2 : Cq → Cq) : Within z s0 (State.modCq s x1 x2) := by
  unfold State.modCq
  try dsimp only
  repeat' (first
    | with_reducible assumption | split | fail_if_no_progress (with_reducible refine within_mk (h := ?_)))

theorem within_keepOf {z : Bool} {s0 s : State} (h : Within z s0 s) (x1 : Option ℕ) : Within z s0 (State.keepOf s x1) := by
  unfold State.keepOf
  try dsimp only
  repeat' (first
    | with_reducible assumption | with_reducible refine within_modDesc ?_ _ _ | split
    | fail_if_no_progress (with_reducible refine within_mk (h := ?_)))

theorem within_signalCq {z : Bool} {s0 s : State} (h : Within z s0 s) (x1 : RingId) : Within z s0 (State.signalCq s x1) := by
  unfold State.signalCq
  try dsimp only
  repeat' (first
    | with_reducible assumption | with_reducible refine within_modCq ?_ _ _ | with_reducible refine within_signal ?_ _ _ | split
    | fail_if_no_progress (with_reducible refine within_mk (h := ?_)))

theorem within_putRec {z : Bool} {s0 s : State} (h : Within z s0 s) (x1 : RingId) (x2 : Rec) (x3 : Bool) : Within z s0 (State.putRec s x1 x2 x3) := by
  unfold State.putRec
  try dsimp only
  repeat' (first
    | with_reducible assumption | with_reducible refine within_emit ?_ _ | with_reducible refine within_modCq ?_ _ _
    | with_reducible refine within_signalCq ?_ _ | split | fail_if_no_progress (with_reducible refine within_mk (h := ?_)))

theorem within_dropOf {z : Bool} {s0 s : State} (h : Within z s0 s) (x1 : Option ℕ) : Within z s0 (State.dropOf s x1) := by
  unfold State.dropOf
  try dsimp only
  repeat' (first
    | with_reducible assumption | with_reducible refine within_dropDesc ?_ _ | split
    | fail_if_no_progress (with_reducible refine within_mk (h := ?_)))

theorem within_produce {z : Bool} {s0 s : State} (h : Within z s0 s) (x1 : RingId) (x2 : Rec) : Within z s0 (State.produce s x1 x2) := by
  unfold State.produce
  try dsimp only
  repeat' (first
    | with_reducible assumption | with_reducible refine within_modCq ?_ _ _ | with_reducible refine within_keepOf ?_ _
    | with_reducible refine within_putRec ?_ _ _ _ | with_reducible refine within_dropOf ?_ _ | with_reducible refine within_hold ?_ _
    | split | fail_if_no_progress (with_reducible refine within_mk (h := ?_)))

theorem within_modAx {z : Bool} {s0 s : State} (h : Within z s0 s) (x1 : AxisId) (x2 : Axis → Axis) : Within z s0 (State.modAx s x1 x2) := by
  unfold State.modAx
  try dsimp only
  repeat' (first
    | with_reducible assumption | split | fail_if_no_progress (with_reducible refine within_mk (h := ?_)))

theorem within_eqOverflow {z : Bool} {s0 s : State} (h : Within z s0 s) : Within z s0 (State.eqOverflow s) := by
  unfold State.eqOverflow
  split
  · extract_lets n f t e1 u
    have k : Within z s0 t := h.trans (within_overflowRegs s)
    clear_value t n
    have ku : Within z s0 u := k.trans (Within.same rfl)
    clear_value u
    split
    · exact within_putEvent (ku.trans (Within.same rfl)) _ _
    · exact ku
  · exact h

theorem within_drainWaiting {z : Bool} {s0 s : State} (h : Within z s0 s) (q : RingId) (l : List Rec) : Within z s0 (State.drainWaiting s q l) := by
  induction l generalizing s with
  | nil => exact within_modCq h _ _
  | cons r rs ih =>
    rw [State.drainWaiting]
    split
    · exact within_modCq h _ _
    · exact ih (within_putRec (within_dropOf h _) _ _ _)

theorem within_clrReg {s0 s : State} (h : Within false s0 s) (x1 : ℕ) (x2 : ℕ) : Within false s0 (State.clrReg s x1 x2) := by
  unfold State.clrReg
  try dsimp only
  repeat' (first
    | with_reducible assumption | with_reducible refine within_setReg ?_ _ _ | split
    | fail_if_no_progress (with_reducible refine within_mk (h := ?_))
    | fail_if_no_progress (with_reducible refine within_mk_any (h := ?_)))

theorem within_modTt {z : Bool} {s0 s : State} (h : Within z s0 s) (x1 : AxisId) (x2 : TtState → TtState) : Within z s0 (State.modTt s x1 x2) := by
  unfold State.modTt
  try dsimp only
  repeat' (first
    | with_reducible assumption | with_reducible refine within_modAx ?_ _ _ | split
    | fail_if_no_progress (with_reducible refine within_mk (h := ?_)))

theorem within_modCd {z : Bool} {s0 s : State} (h : Within z s0 s) (x1 : AxisId) (x2 : CdState → CdState) : Within z s0 (State.modCd s x1 x2) := by
  unfold State.modCd
  try dsimp only
  repeat' (first
    | with_reducible assumption | with_reducible refine within_modAx ?_ _ _ | split
    | fail_if_no_progress (with_reducible refine within_mk (h := ?_)))

theorem within_putReg {s0 s : State} (h : Within false s0 s) (x1 : ℕ) (x2 : ℕ) (x3 : ℕ) : Within false s0 (State.putReg s x1 x2 x3) := by
  unfold State.putReg
  try dsimp only
  repeat' (first
    | with_reducible assumption | with_reducible refine within_setReg ?_ _ _ | split
    | fail_if_no_progress (with_reducible refine within_mk (h := ?_))
    | fail_if_no_progress (with_reducible refine within_mk_any (h := ?_)))

theorem within_modSg {z : Bool} {s0 s : State} (h : Within z s0 s) (x1 : AxisId) (x2 : SgState → SgState) : Within z s0 (State.modSg s x1 x2) := by
  unfold State.modSg
  try dsimp only
  repeat' (first
    | with_reducible assumption | with_reducible refine within_modAx ?_ _ _ | split
    | fail_if_no_progress (with_reducible refine within_mk (h := ?_)))

theorem within_modBr {z : Bool} {s0 s : State} (h : Within z s0 s) (x1 : AxisId) (x2 : BrState → BrState) : Within z s0 (State.modBr s x1 x2) := by
  unfold State.modBr
  try dsimp only
  repeat' (first
    | with_reducible assumption | with_reducible refine within_modAx ?_ _ _ | split
    | fail_if_no_progress (with_reducible refine within_mk (h := ?_)))

theorem within_maskVector {z : Bool} {s0 s : State} (h : Within z s0 s) (x1 : Fin 2) (x2 : Fin 16) : Within z s0 (State.maskVector s x1 x2) := by
  unfold State.maskVector
  try dsimp only
  repeat' (first
    | with_reducible assumption | split | fail_if_no_progress (with_reducible refine within_mk (h := ?_))
    | fail_if_no_progress (with_reducible refine within_mk_hif (h := ?_) ?_) | exact ⟨rfl, rfl, rfl⟩)

theorem within_unmask {z : Bool} {s0 s : State} (h : Within z s0 s) (x1 : Fin 2) (x2 : Fin 16) : Within z s0 (State.unmask s x1 x2) := by
  unfold State.unmask
  try dsimp only
  repeat' (first
    | with_reducible assumption | with_reducible refine within_sendMsix ?_ _ _ | split
    | fail_if_no_progress (with_reducible refine within_mk (h := ?_))
    | fail_if_no_progress (with_reducible refine within_mk_hif (h := ?_) ?_) | exact ⟨rfl, rfl, rfl⟩)

theorem within_addReg {s0 s : State} (h : Within false s0 s) (x1 : ℕ) (x2 : ℕ) : Within false s0 (State.addReg s x1 x2) := by
  unfold State.addReg
  try dsimp only
  repeat' (first
    | with_reducible assumption | with_reducible refine within_setReg ?_ _ _ | split
    | fail_if_no_progress (with_reducible refine within_mk (h := ?_))
    | fail_if_no_progress (with_reducible refine within_mk_any (h := ?_)))

theorem within_gathering {z : Bool} {s0 s : State} (h : Within z s0 s) : Within z s0 (State.gathering s) := by
  unfold State.gathering
  try dsimp only
  repeat' (first
    | with_reducible assumption | split | fail_if_no_progress (with_reducible refine within_mk (h := ?_)))

theorem within_tellAll {z : Bool} {s0 s : State} (h : Within z s0 s) : Within z s0 (State.tellAll s) := by
  unfold State.tellAll
  exact within_foldl (h.trans (Within.same rfl)) fun _ _ k => within_tell k _

theorem within_modCard {z : Bool} {s0 s : State} (h : Within z s0 s) (x1 : Fin 64) (x2 : Card → Card) : Within z s0 (State.modCard s x1 x2) := by
  unfold State.modCard
  try dsimp only
  repeat' (first
    | with_reducible assumption | split | fail_if_no_progress (with_reducible refine within_mk (h := ?_)))

theorem within_modFbx {z : Bool} {s0 s : State} (h : Within z s0 s) (x1 : AxisId) (x2 : FbState → FbState) : Within z s0 (State.modFbx s x1 x2) := by
  unfold State.modFbx
  try dsimp only
  repeat' (first
    | with_reducible assumption | with_reducible refine within_modAx ?_ _ _ | split
    | fail_if_no_progress (with_reducible refine within_mk (h := ?_)))

theorem within_capture {s0 s : State} (h : Within false s0 s) (x1 : ℕ) (x2 : ℕ) (x3 : Master) (x4 : ℕ) : Within false s0 (State.capture s x1 x2 x3 x4) := by
  unfold State.capture
  try dsimp only
  repeat' (first
    | with_reducible assumption | with_reducible refine within_setReg ?_ _ _ | split
    | fail_if_no_progress (with_reducible refine within_mk (h := ?_))
    | fail_if_no_progress (with_reducible refine within_mk_any (h := ?_)))

theorem within_notePrv {s0 s : State} (h : Within false s0 s) (x1 : Master) (x2 : ℕ) : Within false s0 (State.notePrv s x1 x2) := by
  unfold State.notePrv
  try dsimp only
  repeat' (first
    | with_reducible assumption | with_reducible refine within_capture ?_ _ _ _ _ | split
    | fail_if_no_progress (with_reducible refine within_mk (h := ?_))
    | fail_if_no_progress (with_reducible refine within_mk_any (h := ?_)))

theorem within_gate {s0 s : State} (h : Within false s0 s) (x1 : Master) (x2 : ℕ) (x3 : ℕ) : Within false s0 (State.gate s x1 x2 x3).1 := by
  unfold State.gate
  try dsimp only
  repeat' (first
    | with_reducible assumption | with_reducible refine within_notePrv ?_ _ _ | split
    | fail_if_no_progress (with_reducible refine within_mk (h := ?_))
    | fail_if_no_progress (with_reducible refine within_mk_any (h := ?_)))

theorem within_noted {s0 s : State} (h : Within false s0 s) (x1 : Master) (x2 : ℕ) : Within false s0 (State.noted s x1 x2) := by
  unfold State.noted
  try dsimp only
  repeat' (first
    | with_reducible assumption | with_reducible refine within_notePrv ?_ _ _ | split
    | fail_if_no_progress (with_reducible refine within_mk (h := ?_))
    | fail_if_no_progress (with_reducible refine within_mk_any (h := ?_)))

theorem within_tellAt {z : Bool} {s0 s : State} (h : Within z s0 s) (x1 : FrameNo) (x2 : ℕ) (x3 : AxisId) (x4 : Word) (x5 : Word) : Within z s0 (State.tellAt s x1 x2 x3 x4 x5) := by
  unfold State.tellAt
  try dsimp only
  repeat' (first
    | with_reducible assumption | with_reducible refine within_raise ?_ _ _ _ _ | with_reducible refine within_modAx ?_ _ _ | split
    | fail_if_no_progress (with_reducible refine within_mk (h := ?_)))

theorem within_limitClipped {z : Bool} {s0 s : State} (h : Within z s0 s) (x1 : AxisId) (x2 : ℤ) (x3 : ℕ) (x4 : Bool) : Within z s0 (State.limitClipped s x1 x2 x3 x4) := by
  unfold State.limitClipped
  try dsimp only
  repeat' (first
    | with_reducible assumption | with_reducible refine within_tellAt ?_ _ _ _ _ _ | split
    | fail_if_no_progress (with_reducible refine within_mk (h := ?_)))

theorem within_planProfile {z : Bool} {s0 s : State} (h : Within z s0 s) (x1 : AxisId) : Within z s0 (State.planProfile s x1) := by
  unfold State.planProfile
  try dsimp only
  repeat' (first
    | with_reducible assumption | with_reducible refine within_modTt ?_ _ _ | with_reducible refine within_limitClipped ?_ _ _ _ _
    | split | fail_if_no_progress (with_reducible refine within_mk (h := ?_)))

theorem within_stopFrom {z : Bool} {s0 s : State} (h : Within z s0 s) (x1 : AxisId) (x2 : Limits) (x3 : Limits) (x4 : Bool) : Within z s0 (State.stopFrom s x1 x2 x3 x4) := by
  unfold State.stopFrom
  try dsimp only
  repeat' (first
    | with_reducible assumption | with_reducible refine within_limitClipped ?_ _ _ _ _ | with_reducible refine within_planProfile ?_ _
    | with_reducible refine within_modAx ?_ _ _ | split | fail_if_no_progress (with_reducible refine within_mk (h := ?_)))

theorem within_stopMotion {z : Bool} {s0 s : State} (h : Within z s0 s) (x1 : AxisId) (x2 : ℕ) (x3 : ℕ) (x4 : Bool) : Within z s0 (State.stopMotion s x1 x2 x3 x4) := by
  unfold State.stopMotion
  try dsimp only
  repeat' (first
    | with_reducible assumption | with_reducible refine within_stopFrom ?_ _ _ _ _ | split
    | fail_if_no_progress (with_reducible refine within_mk (h := ?_)))

theorem within_stopStored {z : Bool} {s0 s : State} (h : Within z s0 s) (x1 : AxisId) (x2 : Bool) : Within z s0 (State.stopStored s x1 x2) := by
  unfold State.stopStored
  try dsimp only
  repeat' (first
    | with_reducible assumption | with_reducible refine within_modTt ?_ _ _ | with_reducible refine within_stopMotion ?_ _ _ _ _ | split
    | fail_if_no_progress (with_reducible refine within_mk (h := ?_)))

theorem within_decideTarget {z : Bool} {s0 s : State} (h : Within z s0 s) (x1 : AxisId) (x2 : Limits) (x3 : Option ℤ) (x4 : FrameNo) : Within z s0 (State.decideTarget s x1 x2 x3 x4) := by
  unfold State.decideTarget
  try dsimp only
  repeat' (first
    | with_reducible assumption | with_reducible refine within_modTt ?_ _ _ | with_reducible refine within_tellAt ?_ _ _ _ _ _ | split
    | fail_if_no_progress (with_reducible refine within_mk (h := ?_)))

theorem within_newTarget {z : Bool} {s0 s : State} (h : Within z s0 s) (x1 : AxisId) (x2 : ℤ) (x3 : Limits) : Within z s0 (State.newTarget s x1 x2 x3) := by
  unfold State.newTarget
  try dsimp only
  repeat' (first
    | with_reducible assumption | with_reducible refine within_limitClipped ?_ _ _ _ _ | with_reducible refine within_modAx ?_ _ _
    | with_reducible refine within_decideTarget ?_ _ _ _ _ | split | fail_if_no_progress (with_reducible refine within_mk (h := ?_)))

theorem within_takeForms {z : Bool} {s0 s : State} (h : Within z s0 s) (x1 : AxisId) : Within z s0 (State.takeForms s x1) := by
  unfold State.takeForms
  try dsimp only
  repeat' (first
    | with_reducible assumption | with_reducible refine within_modAx ?_ _ _ | split
    | fail_if_no_progress (with_reducible refine within_mk (h := ?_)))

theorem within_finishEvents {z : Bool} {s0 s : State} (h : Within z s0 s) (x1 : Desc) (x2 : ℕ) (x3 : Word) (x4 : FrameNo) : Within z s0 (State.finishEvents s x1 x2 x3 x4) := by
  unfold State.finishEvents
  try dsimp only
  repeat' (first
    | with_reducible assumption | with_reducible refine within_raiseAt ?_ _ _ _ _ _
    | with_reducible refine within_forAll ?_ (fun _ _ _ => ?_) | split | fail_if_no_progress (with_reducible refine within_mk (h := ?_)))

theorem within_moveFeed {z : Bool} {s0 s : State} (h : Within z s0 s) (x1 : List AxisId) (x2 : List ℤ) : Within z s0 (State.moveFeed s x1 x2) := by
  unfold State.moveFeed
  try dsimp only
  repeat' (first
    | with_reducible assumption | split | fail_if_no_progress (with_reducible refine within_mk (h := ?_))
    | with_reducible refine within_foldl ?_ (fun _ _ _ => ?_) | with_reducible refine within_fst ?_ (by assumption)
    | with_reducible refine within_snd ?_ (by assumption) | dsimp only)

theorem within_readLines {z : Bool} {s0 s : State} (h : Within z s0 s) (x1 : FollowSt) (x2 : List ℕ) : Within z s0 (State.readLines s x1 x2) := by
  unfold State.readLines
  try dsimp only
  repeat' (first
    | with_reducible assumption | with_reducible refine within_forAll ?_ (fun _ _ _ => ?_) | with_reducible refine within_emit ?_ _
    | split | fail_if_no_progress (with_reducible refine within_mk (h := ?_)))

theorem within_fillCam {z : Bool} {s0 s : State} (h : Within z s0 s) (x1 : FollowSt) : Within z s0 (State.fillCam s x1).1 := by
  unfold State.fillCam
  try dsimp only
  repeat' (first
    | with_reducible assumption | with_reducible refine within_readLines ?_ _ _ | split
    | fail_if_no_progress (with_reducible refine within_mk (h := ?_)))

theorem within_camHead {z : Bool} {s0 s : State} (h : Within z s0 s) (x1 : AxisId) : Within z s0 (State.camHead s x1) := by
  unfold State.camHead
  try dsimp only
  repeat' (first
    | with_reducible assumption | with_reducible refine within_fillCam ?_ _ | with_reducible refine within_modAx ?_ _ _ | split
    | fail_if_no_progress (with_reducible refine within_mk (h := ?_)))

theorem within_queueLow {z : Bool} {s0 s : State} (h : Within z s0 s) (x1 : AxisId) (x2 : FrameNo) : Within z s0 (State.queueLow s x1 x2) := by
  unfold State.queueLow
  try dsimp only
  repeat' (first
    | with_reducible assumption | with_reducible refine within_raiseAt ?_ _ _ _ _ _ | split
    | fail_if_no_progress (with_reducible refine within_mk (h := ?_)))

theorem within_finish {z : Bool} {s0 s : State} (h : Within z s0 s) (x1 : Desc) (x2 : ℕ) (x3 : Word) (x4 : Word) (x5 : FrameNo) : Within z s0 (State.finish s x1 x2 x3 x4 x5) := by
  unfold State.finish
  try dsimp only
  repeat' (first
    | with_reducible assumption | with_reducible refine within_dropDesc ?_ _ | with_reducible refine within_produce ?_ _ _
    | with_reducible refine within_finishEvents ?_ _ _ _ _ | with_reducible refine within_moveFeed ?_ _ _
    | with_reducible refine within_forAll ?_ (fun _ _ _ => ?_) | with_reducible refine within_camHead ?_ _
    | with_reducible refine within_queueLow ?_ _ _ | split | fail_if_no_progress (with_reducible refine within_mk (h := ?_)))

theorem within_enterOne {z : Bool} {s0 s : State} (h : Within z s0 s) (d : Desc) {t : State} (e : State.enterOne s d = some t) : Within z s0 t := by
  unfold State.enterOne at e
  dsimp only at e
  generalize (if d.op = 0x10 ∧ d.rej.isNone then { d with members := s.groupOf d.bytes } else d) = m at e
  have k := within_modDesc h d.acc (fun e => { e with stage := .queued, members := m.members })
  split at e
  · cases e
  · split at e
    · split at e
      · cases e; exact within_finish h _ _ _ _ _
      · cases e; exact within_forAll k fun _ _ q => within_camHead q _
    · cases e; exact within_forAll k fun _ _ q => within_camHead q _

theorem within_enterRing {z : Bool} {s0 s : State} (h : Within z s0 s) (q : RingId) (n : Nat) : Within z s0 (State.enterRing q n s) := by
  induction n generalizing s with
  | zero => exact h
  | succ n ih =>
    rw [State.enterRing]
    split
    · exact h
    · split
      · exact h
      · exact ih (within_enterOne h _ (by assumption))

theorem within_finishOk {z : Bool} {s0 s : State} (h : Within z s0 s) (x1 : Desc) (x2 : Word) (x3 : Word) (x4 : FrameNo) : Within z s0 (State.finishOk s x1 x2 x3 x4) := by
  unfold State.finishOk
  try dsimp only
  repeat' (first
    | with_reducible assumption | with_reducible refine within_finish ?_ _ _ _ _ _ | split
    | fail_if_no_progress (with_reducible refine within_mk (h := ?_)))

theorem within_keepAxis {z : Bool} {s0 s : State} (h : Within z s0 s) (x1 : Desc) (x2 : AxisId) : Within z s0 (State.keepAxis s x1 x2) := by
  unfold State.keepAxis
  try dsimp only
  repeat' (first
    | with_reducible assumption | with_reducible refine within_modAx ?_ _ _ | split
    | fail_if_no_progress (with_reducible refine within_mk (h := ?_)))

theorem within_later {z : Bool} {s0 s : State} (h : Within z s0 s) (x1 : Desc) (x2 : ℕ) (x3 : Word) (x4 : Word) : Within z s0 (State.later s x1 x2 x3 x4) := by
  unfold State.later
  try dsimp only
  repeat' (first
    | with_reducible assumption | with_reducible refine within_modDesc ?_ _ _ | split
    | fail_if_no_progress (with_reducible refine within_mk (h := ?_)))

theorem within_rejectMode {z : Bool} {s0 s : State} (h : Within z s0 s) (x1 : Desc) (x2 : ℕ) (x3 : FrameNo) : Within z s0 (State.rejectMode s x1 x2 x3) := by
  unfold State.rejectMode
  try dsimp only
  repeat' (first
    | with_reducible assumption | with_reducible refine within_finish ?_ _ _ _ _ _
    | with_reducible refine within_forAll ?_ (fun _ _ _ => ?_) | with_reducible refine within_raiseAt ?_ _ _ _ _ _ | split
    | fail_if_no_progress (with_reducible refine within_mk (h := ?_)))

theorem within_finishHead {z : Bool} {s0 s : State} (h : Within z s0 s) (x1 : Desc) (x2 : ℕ) (x3 : Word) (x4 : Word) (x5 : FrameNo) : Within z s0 (State.finishHead s x1 x2 x3 x4 x5) := by
  unfold State.finishHead
  try dsimp only
  repeat' (first
    | with_reducible assumption | with_reducible refine within_rejectMode ?_ _ _ _ | with_reducible refine within_finish ?_ _ _ _ _ _
    | split | fail_if_no_progress (with_reducible refine within_mk (h := ?_)))

theorem within_stopOthers {z : Bool} {s0 s : State} (h : Within z s0 s) (x1 : Desc) (x2 : List AxisId) : Within z s0 (State.stopOthers s x1 x2) := by
  unfold State.stopOthers
  try dsimp only
  repeat' (first
    | with_reducible assumption | with_reducible refine within_forAll ?_ (fun _ _ _ => ?_)
    | with_reducible refine within_stopStored ?_ _ _ | split | fail_if_no_progress (with_reducible refine within_mk (h := ?_)))

theorem within_endAhead {z : Bool} {s0 s : State} (h : Within z s0 s) (d e : Desc) : Within z s0 (State.endAhead s d e) := by
  unfold State.endAhead
  refine within_ite (within_modDesc h _ _) (within_stopOthers ?_ _ _)
  exact within_foldl h fun _ _ k => within_keepAxis k _ _

theorem within_takeEffect {z : Bool} {s0 s : State} (h : Within z s0 s) (x1 : Desc) : Within z s0 (State.takeEffect s x1) := by
  unfold State.takeEffect
  try dsimp only
  repeat' (first
    | with_reducible assumption | with_reducible refine within_modDesc ?_ _ _ | split
    | fail_if_no_progress (with_reducible refine within_mk (h := ?_)))

theorem within_undoFound {z : Bool} {s0 s : State} (h : Within z s0 s) (x1 : AxisId) : Within z s0 (State.undoFound s x1) := by
  unfold State.undoFound
  try dsimp only
  repeat' (first
    | with_reducible assumption | with_reducible refine within_forAll ?_ (fun _ _ _ => ?_) | with_reducible refine within_modAx ?_ _ _
    | split | fail_if_no_progress (with_reducible refine within_mk (h := ?_)))

theorem within_putBack {z : Bool} {s0 s : State} (h : Within z s0 s) (n : Nat) : Within z s0 (State.putBack s n) := by
  unfold State.putBack
  exact within_modDesc (h.trans (Within.same rfl)) _ _

theorem within_undoOn {z : Bool} {s0 s : State} (h : Within z s0 s) (x1 : ℕ) (x2 : AxisId) : Within z s0 (State.undoOn s x1 x2) := by
  unfold State.undoOn
  try dsimp only
  repeat' (first
    | with_reducible assumption | with_reducible refine within_modAx ?_ _ _ | split
    | fail_if_no_progress (with_reducible refine within_mk (h := ?_)))

theorem within_undo {z : Bool} {s0 s : State} (h : Within z s0 s) (x1 : ℕ) : Within z s0 (State.undo s x1) := by
  unfold State.undo
  try dsimp only
  repeat' (first
    | with_reducible assumption | with_reducible refine within_forAll ?_ (fun _ _ _ => ?_) | with_reducible refine within_undoOn ?_ _ _
    | split | fail_if_no_progress (with_reducible refine within_mk (h := ?_)))

theorem within_undoAxis {z : Bool} {s0 s : State} (h : Within z s0 s) (x1 : AxisId) : Within z s0 (State.undoAxis s x1) := by
  unfold State.undoAxis
  try dsimp only
  repeat' (first
    | with_reducible assumption | with_reducible refine within_forAll ?_ (fun _ _ _ => ?_) | with_reducible refine within_putBack ?_ _
    | with_reducible refine within_undo ?_ _ | split | fail_if_no_progress (with_reducible refine within_mk (h := ?_)))

theorem within_release {z : Bool} {s0 s : State} (h : Within z s0 s) (x1 : Desc) : Within z s0 (State.release s x1) := by
  unfold State.release
  try dsimp only
  repeat' (first
    | with_reducible assumption | with_reducible refine within_forAll ?_ (fun _ _ _ => ?_) | with_reducible refine within_modAx ?_ _ _
    | split | fail_if_no_progress (with_reducible refine within_mk (h := ?_)))

theorem within_finishRejected {z : Bool} {s0 s : State} (h : Within z s0 s) (x1 : Desc) (x2 : FrameNo) : Within z s0 (State.finishRejected s x1 x2) := by
  unfold State.finishRejected
  try dsimp only
  repeat' (first
    | with_reducible assumption | with_reducible refine within_finish ?_ _ _ _ _ _ | split
    | fail_if_no_progress (with_reducible refine within_mk (h := ?_)))

theorem within_faultAt {z : Bool} {s0 s : State} (h : Within z s0 s) (x1 : AxisId) (x2 : ℕ) (x3 : ℤ) : Within z s0 (State.faultAt s x1 x2 x3) := by
  unfold State.faultAt
  try dsimp only
  repeat' (first
    | with_reducible assumption | with_reducible refine within_undoFound ?_ _ | with_reducible refine within_undoAxis ?_ _
    | with_reducible refine within_forAll ?_ (fun _ _ _ => ?_) | with_reducible refine within_release ?_ _
    | with_reducible refine within_finish ?_ _ _ _ _ _ | with_reducible refine within_stopOthers ?_ _ _
    | with_reducible refine within_finishRejected ?_ _ _ | with_reducible refine within_modAx ?_ _ _ | split
    | fail_if_no_progress (with_reducible refine within_mk (h := ?_)))

theorem within_faultAxis {z : Bool} {s0 s : State} (h : Within z s0 s) (x1 : AxisId) (x2 : ℕ) : Within z s0 (State.faultAxis s x1 x2) := by
  unfold State.faultAxis
  try dsimp only
  repeat' (first
    | with_reducible assumption | with_reducible refine within_faultAt ?_ _ _ _ | split
    | fail_if_no_progress (with_reducible refine within_mk (h := ?_)))

theorem within_replan {z : Bool} {s0 s : State} (h : Within z s0 s) (x1 : AxisId) : Within z s0 (State.replan s x1) := by
  unfold State.replan
  try dsimp only
  repeat' (first
    | with_reducible assumption | with_reducible refine within_forAll ?_ (fun _ _ _ => ?_) | with_reducible refine within_putBack ?_ _
    | with_reducible refine within_undo ?_ _ | split | fail_if_no_progress (with_reducible refine within_mk (h := ?_)))

theorem within_endOne {z : Bool} {s0 s : State} (h : Within z s0 s) (x1 : Desc) (x2 : Desc) (x3 : AxisId) (x4 : FrameNo) : Within z s0 (State.endOne s x1 x2 x3 x4) := by
  unfold State.endOne
  try dsimp only
  repeat' (first
    | with_reducible assumption | with_reducible refine within_release ?_ _ | with_reducible refine within_finishOk ?_ _ _ _ _
    | with_reducible refine within_finish ?_ _ _ _ _ _ | with_reducible refine within_finishRejected ?_ _ _ | split
    | fail_if_no_progress (with_reducible refine within_mk (h := ?_)))

theorem within_supersede {z : Bool} {s0 s : State} (h : Within z s0 s) (x1 : Desc) (x2 : FrameNo) : Within z s0 (State.supersede s x1 x2) := by
  unfold State.supersede
  try dsimp only
  repeat' (first
    | with_reducible assumption | with_reducible refine within_forAll ?_ (fun _ _ _ => ?_)
    | with_reducible refine within_endOne ?_ _ _ _ _ | split | fail_if_no_progress (with_reducible refine within_mk (h := ?_)))

theorem within_replaceNow {z : Bool} {s0 s : State} (h : Within z s0 s) (x1 : Desc) : Within z s0 (State.replaceNow s x1) := by
  unfold State.replaceNow
  try dsimp only
  repeat' (first
    | with_reducible assumption | with_reducible refine within_modDesc ?_ _ _ | with_reducible refine within_supersede ?_ _ _ | split
    | fail_if_no_progress (with_reducible refine within_mk (h := ?_)))

theorem within_retire {z : Bool} {s0 s : State} (h : Within z s0 s) (x1 : Desc) : Within z s0 (State.retire s x1) := by
  unfold State.retire
  try dsimp only
  repeat' (first
    | with_reducible assumption | with_reducible refine within_forAll ?_ (fun _ _ _ => ?_) | with_reducible refine within_dropDesc ?_ _
    | with_reducible refine within_camHead ?_ _ | split | fail_if_no_progress (with_reducible refine within_mk (h := ?_)))

theorem within_finishMotion {z : Bool} {s0 s : State} (h : Within z s0 s) (x1 : Desc) (x2 : FrameNo) : Within z s0 (State.finishMotion s x1 x2) := by
  unfold State.finishMotion
  try dsimp only
  repeat' (first
    | with_reducible assumption | with_reducible refine within_finishOk ?_ _ _ _ _ | split
    | fail_if_no_progress (with_reducible refine within_mk (h := ?_)))

theorem within_leave {s0 s : State} (h : Within false s0 s) (x1 : Desc) : Within false s0 (State.leave s x1) := by
  unfold State.leave
  try dsimp only
  repeat' (first
    | with_reducible assumption | with_reducible refine within_finishHead ?_ _ _ _ _ _ | with_reducible refine within_incReg ?_ _ | split
    | fail_if_no_progress (with_reducible refine within_mk (h := ?_))
    | fail_if_no_progress (with_reducible refine within_mk_any (h := ?_)))

theorem within_clearFault {z : Bool} {s0 s : State} (h : Within z s0 s) (x1 : AxisId) : Within z s0 (State.clearFault s x1) := by
  unfold State.clearFault
  try dsimp only
  repeat' (first
    | with_reducible assumption | with_reducible refine within_modTt ?_ _ _ | split
    | fail_if_no_progress (with_reducible refine within_mk (h := ?_)))

theorem within_settle {s0 s : State} (h : Within false s0 s) (x1 : ℕ) : Within false s0 (State.settle s x1) := by
  unfold State.settle
  try dsimp only
  repeat' (first
    | with_reducible assumption | with_reducible refine within_replaceNow ?_ _ | with_reducible refine within_leave ?_ _
    | with_reducible refine within_forAll ?_ (fun _ _ _ => ?_) | with_reducible refine within_clearFault ?_ _ | split
    | fail_if_no_progress (with_reducible refine within_mk (h := ?_))
    | fail_if_no_progress (with_reducible refine within_mk_any (h := ?_)))

theorem within_laterOk {z : Bool} {s0 s : State} (h : Within z s0 s) (x1 : Desc) (x2 : Word) (x3 : Word) : Within z s0 (State.laterOk s x1 x2 x3) := by
  unfold State.laterOk
  try dsimp only
  repeat' (first
    | with_reducible assumption | with_reducible refine within_later ?_ _ _ _ _ | split
    | fail_if_no_progress (with_reducible refine within_mk (h := ?_)))

theorem within_settleEnd {s0 s : State} (h : Within false s0 s) : Within false s0 (State.settleEnd s) := by
  unfold State.settleEnd
  try dsimp only
  repeat' (first
    | with_reducible assumption | with_reducible refine within_forAll ?_ (fun _ _ _ => ?_) | with_reducible refine within_settle ?_ _
    | with_reducible refine within_leave ?_ _ | split | fail_if_no_progress (with_reducible refine within_mk (h := ?_))
    | fail_if_no_progress (with_reducible refine within_mk_any (h := ?_)))

theorem within_flush {z : Bool} {s0 s : State} (h : Within z s0 s) (x1 : Desc) (x2 : ℕ) (x3 : FrameNo) : Within z s0 (State.flush s x1 x2 x3) := by
  unfold State.flush
  try dsimp only
  repeat' (first
    | with_reducible assumption | with_reducible refine within_finish ?_ _ _ _ _ _ | split
    | fail_if_no_progress (with_reducible refine within_mk (h := ?_)))

theorem within_enterHold {z : Bool} {s0 s : State} (h : Within z s0 s) (x1 : AxisId) : Within z s0 (State.enterHold s x1) := by
  unfold State.enterHold
  try dsimp only
  repeat' (first
    | with_reducible assumption | with_reducible refine within_modAx ?_ _ _ | split
    | fail_if_no_progress (with_reducible refine within_mk (h := ?_)))

theorem within_bridgeFaultAt {z : Bool} {s0 s : State} (h : Within z s0 s) (x1 : AxisId) (x2 : ℤ) : Within z s0 (State.bridgeFaultAt s x1 x2) := by
  unfold State.bridgeFaultAt
  try dsimp only
  repeat' (first
    | with_reducible assumption | with_reducible refine within_modAx ?_ _ _ | with_reducible refine within_replan ?_ _ | split
    | fail_if_no_progress (with_reducible refine within_mk (h := ?_)))

theorem within_bridgeFault {z : Bool} {s0 s : State} (h : Within z s0 s) (x1 : AxisId) : Within z s0 (State.bridgeFault s x1) := by
  unfold State.bridgeFault
  try dsimp only
  repeat' (first
    | with_reducible assumption | with_reducible refine within_bridgeFaultAt ?_ _ _ | split
    | fail_if_no_progress (with_reducible refine within_mk (h := ?_)))

theorem within_bridgeFaulted {z : Bool} {s0 s : State} (h : Within z s0 s) (x1 : AxisId) (x2 : ℕ) : Within z s0 (State.bridgeFaulted s x1 x2) := by
  unfold State.bridgeFaulted
  try dsimp only
  repeat' (first
    | with_reducible assumption | with_reducible refine within_bridgeFault ?_ _ | with_reducible refine within_faultAxis ?_ _ _ | split
    | fail_if_no_progress (with_reducible refine within_mk (h := ?_)))

theorem within_faultEnergised {z : Bool} {s0 s : State} (h : Within z s0 s) (x1 : List AxisId) (x2 : ℕ) : Within z s0 (State.faultEnergised s x1 x2).1 := by
  unfold State.faultEnergised
  try dsimp only
  repeat' (first
    | with_reducible assumption | with_reducible refine within_forAll ?_ (fun _ _ _ => ?_)
    | with_reducible refine within_bridgeFaulted ?_ _ _ | split | fail_if_no_progress (with_reducible refine within_mk (h := ?_)))

theorem within_runPhase {z : Bool} {s0 s : State} (h : Within z s0 s) (x1 : AxisId) : Within z s0 (State.runPhase s x1) := by
  unfold State.runPhase
  try dsimp only
  repeat' (first
    | with_reducible assumption | with_reducible refine within_modCd ?_ _ _ | split
    | fail_if_no_progress (with_reducible refine within_mk (h := ?_)))

theorem within_parkNow {z : Bool} {s0 s : State} (h : Within z s0 s) (x1 : AxisId) : Within z s0 (State.parkNow s x1) := by
  unfold State.parkNow
  try dsimp only
  repeat' (first
    | with_reducible assumption | with_reducible refine within_modAx ?_ _ _ | split
    | fail_if_no_progress (with_reducible refine within_mk (h := ?_)))

theorem within_settleOne {z : Bool} {s0 s : State} (h : Within z s0 s) (x1 : Desc) {t : State} (e : State.settleOne s x1 = some t) : Within z s0 t := by
  unfold State.settleOne at e
  repeat' (split at e)
  all_goals first | contradiction | (cases e; try dsimp only) | skip
  repeat' (first
    | with_reducible assumption | with_reducible refine within_forAll ?_ (fun _ _ _ => ?_)
    | with_reducible refine within_later ?_ _ _ _ _ | with_reducible refine within_camHead ?_ _
    | with_reducible refine within_finishHead ?_ _ _ _ _ _ | split | fail_if_no_progress (with_reducible refine within_mk (h := ?_)))

theorem within_takeOver {z : Bool} {s0 s : State} (h : Within z s0 s) (x1 : Desc) : Within z s0 (State.takeOver s x1) := by
  unfold State.takeOver
  try dsimp only
  repeat' (first
    | with_reducible assumption | with_reducible refine within_forAll ?_ (fun _ _ _ => ?_) | with_reducible refine within_keepAxis ?_ _ _
    | with_reducible refine within_endAhead ?_ _ _ | with_reducible refine within_modTt ?_ _ _
    | with_reducible refine within_modDesc ?_ _ _ | with_reducible refine within_takeEffect ?_ _ | split
    | fail_if_no_progress (with_reducible refine within_mk (h := ?_)))

theorem within_refuseAhead {z : Bool} {s0 s : State} (h : Within z s0 s) (x1 : Desc) (x2 : ℕ) (x3 : Word) (x4 : Word) : Within z s0 (State.refuseAhead s x1 x2 x3 x4) := by
  unfold State.refuseAhead
  try dsimp only
  repeat' (first
    | with_reducible assumption | with_reducible refine within_later ?_ _ _ _ _ | with_reducible refine within_takeEffect ?_ _ | split
    | fail_if_no_progress (with_reducible refine within_mk (h := ?_)))

theorem within_settleAxis {z : Bool} {s0 s : State} (h : Within z s0 s) (x : AxisId) (n : Nat) : Within z s0 (State.settleAxis x n s) := by
  induction n generalizing s with
  | zero => exact h
  | succ n ih =>
    rw [State.settleAxis]
    split
    · exact h
    · split
      · exact ih (within_settleOne h _ (by assumption))
      · exact h

theorem within_reclip {z : Bool} {s0 s : State} (h : Within z s0 s) (x1 : AxisId) : Within z s0 (State.reclip s x1) := by
  unfold State.reclip
  try dsimp only
  repeat' (first
    | with_reducible assumption | with_reducible refine within_modTt ?_ _ _ | with_reducible refine within_limitClipped ?_ _ _ _ _
    | split | fail_if_no_progress (with_reducible refine within_mk (h := ?_)))

theorem within_redecide {z : Bool} {s0 s : State} (h : Within z s0 s) (x1 : AxisId) (x2 : Limits) : Within z s0 (State.redecide s x1 x2) := by
  unfold State.redecide
  try dsimp only
  repeat' (first
    | with_reducible assumption | with_reducible refine within_limitClipped ?_ _ _ _ _
    | with_reducible refine within_decideTarget ?_ _ _ _ _ | split | fail_if_no_progress (with_reducible refine within_mk (h := ?_)))

theorem within_runVelocity {z : Bool} {s0 s : State} (h : Within z s0 s) (x1 : AxisId) (x2 : ℤ) (x3 : Limits) (x4 : Bool) : Within z s0 (State.runVelocity s x1 x2 x3 x4) := by
  unfold State.runVelocity
  try dsimp only
  repeat' (first
    | with_reducible assumption | with_reducible refine within_modTt ?_ _ _ | split
    | fail_if_no_progress (with_reducible refine within_mk (h := ?_)))

theorem within_revel {z : Bool} {s0 s : State} (h : Within z s0 s) (x1 : AxisId) (x2 : Bool) (x3 : Limits) (x4 : Bool) : Within z s0 (State.revel s x1 x2 x3 x4) := by
  unfold State.revel
  try dsimp only
  repeat' (first
    | with_reducible assumption | with_reducible refine within_modTt ?_ _ _ | with_reducible refine within_limitClipped ?_ _ _ _ _
    | with_reducible refine within_runVelocity ?_ _ _ _ _ | split | fail_if_no_progress (with_reducible refine within_mk (h := ?_)))

theorem within_rerun {z : Bool} {s0 s : State} (h : Within z s0 s) (x1 : AxisId) (x2 : Bool) : Within z s0 (State.rerun s x1 x2) := by
  unfold State.rerun
  try dsimp only
  repeat' (first
    | with_reducible assumption | with_reducible refine within_modTt ?_ _ _ | with_reducible refine within_redecide ?_ _ _
    | with_reducible refine within_revel ?_ _ _ _ _ | with_reducible refine within_stopFrom ?_ _ _ _ _
    | with_reducible refine within_stopMotion ?_ _ _ _ _ | with_reducible refine within_planProfile ?_ _ | split
    | fail_if_no_progress (with_reducible refine within_mk (h := ?_)))

theorem within_takeTt {z : Bool} {s0 s : State} (h : Within z s0 s) (x1 : AxisId) (x2 : TtSet) : Within z s0 (State.takeTt s x1 x2) := by
  unfold State.takeTt
  try dsimp only
  repeat' (first
    | with_reducible assumption | with_reducible refine within_modAx ?_ _ _ | with_reducible refine within_modTt ?_ _ _
    | with_reducible refine within_reclip ?_ _ | with_reducible refine within_rerun ?_ _ _ | split
    | fail_if_no_progress (with_reducible refine within_mk (h := ?_)))

theorem within_rampTo {z : Bool} {s0 s : State} (h : Within z s0 s) (x1 : AxisId) : Within z s0 (State.rampTo s x1) := by
  unfold State.rampTo
  try dsimp only
  repeat' (first
    | with_reducible assumption | with_reducible refine within_modCd ?_ _ _ | split
    | fail_if_no_progress (with_reducible refine within_mk (h := ?_)))

theorem within_stage {z : Bool} {s0 s : State} (h : Within z s0 s) (x1 : AxisId) (x2 : Fin 64) (x3 : ParamId) (x4 : ℤ) (x5 : List Byte) : Within z s0 (State.stage s x1 x2 x3 x4 x5) := by
  unfold State.stage
  try dsimp only
  repeat' (first
    | with_reducible assumption | with_reducible refine within_modAx ?_ _ _ | with_reducible refine within_modCard ?_ _ _ | split
    | fail_if_no_progress (with_reducible refine within_mk (h := ?_)))

theorem within_takeFb {z : Bool} {s0 s : State} (h : Within z s0 s) (x1 : AxisId) (x2 : FbSet) : Within z s0 (State.takeFb s x1 x2) := by
  unfold State.takeFb
  try dsimp only
  repeat' (first
    | with_reducible assumption | with_reducible refine within_modAx ?_ _ _ | with_reducible refine within_modFbx ?_ _ _ | split
    | fail_if_no_progress (with_reducible refine within_mk (h := ?_)))

theorem within_rhatChanged {z : Bool} {s0 s : State} (h : Within z s0 s) (x1 : AxisId) : Within z s0 (State.rhatChanged s x1) := by
  unfold State.rhatChanged
  try dsimp only
  repeat' (first
    | with_reducible assumption | with_reducible refine within_raise ?_ _ _ _ _ | with_reducible refine within_modCd ?_ _ _ | split
    | fail_if_no_progress (with_reducible refine within_mk (h := ?_)))

theorem within_resetHat {z : Bool} {s0 s : State} (h : Within z s0 s) (x1 : AxisId) : Within z s0 (State.resetHat s x1) := by
  unfold State.resetHat
  try dsimp only
  repeat' (first
    | with_reducible assumption | with_reducible refine within_rhatChanged ?_ _ | with_reducible refine within_modCd ?_ _ _ | split
    | fail_if_no_progress (with_reducible refine within_mk (h := ?_)))

theorem within_takeCard {z : Bool} {s0 s : State} (h : Within z s0 s) (x1 : Fin 64) (x2 : CardHalf) : Within z s0 (State.takeCard s x1 x2) := by
  unfold State.takeCard
  try dsimp only
  repeat' (first
    | with_reducible assumption | with_reducible refine within_modCard ?_ _ _ | with_reducible refine within_forAll ?_ (fun _ _ _ => ?_)
    | with_reducible refine within_rampTo ?_ _ | with_reducible refine within_modSg ?_ _ _ | with_reducible refine within_resetHat ?_ _
    | split | fail_if_no_progress (with_reducible refine within_mk (h := ?_)))

theorem within_takeCoil {z : Bool} {s0 s : State} (h : Within z s0 s) (x1 : AxisId) (x2 : CoilSet) : Within z s0 (State.takeCoil s x1 x2) := by
  unfold State.takeCoil
  try dsimp only
  repeat' (first
    | with_reducible assumption | with_reducible refine within_modAx ?_ _ _ | with_reducible refine within_runPhase ?_ _ | split
    | fail_if_no_progress (with_reducible refine within_mk (h := ?_)))

theorem within_takeSg {z : Bool} {s0 s : State} (h : Within z s0 s) (x1 : AxisId) (x2 : SgSet) : Within z s0 (State.takeSg s x1 x2) := by
  unfold State.takeSg
  try dsimp only
  repeat' (first
    | with_reducible assumption | with_reducible refine within_modAx ?_ _ _ | with_reducible refine within_modSg ?_ _ _ | split
    | fail_if_no_progress (with_reducible refine within_mk (h := ?_)))

theorem within_cardNamed {z : Bool} {s0 s : State} (h : Within z s0 s) (x1 : AxisId) : Within z s0 (State.cardNamed s x1) := by
  unfold State.cardNamed
  try dsimp only
  repeat' (first
    | with_reducible assumption | with_reducible refine within_modBr ?_ _ _ | with_reducible refine within_modSg ?_ _ _
    | with_reducible refine within_resetHat ?_ _ | split | fail_if_no_progress (with_reducible refine within_mk (h := ?_)))

theorem within_paramDone {z : Bool} {s0 s : State} (h : Within z s0 s) (x1 : Desc) (x2 : Refuse) : Within z s0 (State.paramDone s x1 x2) := by
  unfold State.paramDone
  try dsimp only
  repeat' (first
    | with_reducible assumption | with_reducible refine within_later ?_ _ _ _ _ | with_reducible refine within_laterOk ?_ _ _ _ | split
    | fail_if_no_progress (with_reducible refine within_mk (h := ?_)))

theorem within_postVerdict {s0 s : State} (h : Within false s0 s) (x1 : ℕ) (x2 : AdmVerdict) : Within false s0 (State.postVerdict s x1 x2) := by
  unfold State.postVerdict
  try dsimp only
  repeat' (first
    | with_reducible assumption | with_reducible refine within_setReg ?_ _ _ | split
    | fail_if_no_progress (with_reducible refine within_mk (h := ?_))
    | fail_if_no_progress (with_reducible refine within_mk_any (h := ?_)))

theorem within_captureOwn {z : Bool} {s0 s : State} (h : Within z s0 s) (x1 : Desc) : Within z s0 (State.captureOwn s x1) := by
  unfold State.captureOwn
  try dsimp only
  repeat' (first
    | with_reducible assumption | with_reducible refine within_emit ?_ _ | with_reducible refine within_modDesc ?_ _ _ | split
    | fail_if_no_progress (with_reducible refine within_mk (h := ?_)))

theorem within_barrierRefused {z : Bool} {s0 s : State} (h : Within z s0 s) (x1 : Desc) (x2 : ℕ) : Within z s0 (State.barrierRefused s x1 x2) := by
  unfold State.barrierRefused
  try dsimp only
  repeat' (first
    | with_reducible assumption | with_reducible refine within_enterRing ?_ _ _ | with_reducible refine within_finish ?_ _ _ _ _ _
    | split | fail_if_no_progress (with_reducible refine within_mk (h := ?_)))

theorem within_arriveDevice {z : Bool} {s0 s : State} (h : Within z s0 s) (e : Desc) : Within z s0 (State.arriveDevice s e) := by
  unfold State.arriveDevice
  dsimp only
  repeat' split
  all_goals first
    | exact within_barrierRefused h _ _
    | exact h.trans (Within.same rfl)

theorem within_releaseAll {z : Bool} {s0 s : State} (h : Within z s0 s) (x1 : List ℕ) : Within z s0 (State.releaseAll s x1) := by
  unfold State.releaseAll
  try dsimp only
  repeat' (first
    | with_reducible assumption | with_reducible refine within_forAll ?_ (fun _ _ _ => ?_)
    | with_reducible refine within_finish ?_ _ _ _ _ _ | with_reducible refine within_enterRing ?_ _ _ | split
    | fail_if_no_progress (with_reducible refine within_mk (h := ?_)))

theorem within_snapshotEffect {z : Bool} {s0 s : State} (h : Within z s0 s) (x1 : Desc) : Within z s0 (State.snapshotEffect s x1) := by
  unfold State.snapshotEffect
  try dsimp only
  repeat' (first
    | with_reducible assumption | with_reducible refine within_later ?_ _ _ _ _ | with_reducible refine within_modDesc ?_ _ _ | split
    | fail_if_no_progress (with_reducible refine within_mk (h := ?_)))

theorem within_quickStop {z : Bool} {s0 s : State} (h : Within z s0 s) (x1 : AxisId) : Within z s0 (State.quickStop s x1) := by
  unfold State.quickStop
  try dsimp only
  repeat' (first
    | with_reducible assumption | with_reducible refine within_enterHold ?_ _ | with_reducible refine within_modTt ?_ _ _
    | with_reducible refine within_stopMotion ?_ _ _ _ _ | split | fail_if_no_progress (with_reducible refine within_mk (h := ?_)))

theorem within_estopAct {z : Bool} {s0 s : State} (h : Within z s0 s) (x1 : ℕ) (x2 : ℕ) : Within z s0 (State.estopAct s x1 x2) := by
  unfold State.estopAct
  try dsimp only
  repeat' (first
    | with_reducible assumption | with_reducible refine within_faultEnergised ?_ _ _
    | with_reducible refine within_forAll ?_ (fun _ _ _ => ?_) | with_reducible refine within_quickStop ?_ _
    | with_reducible refine within_faultAxis ?_ _ _ | with_reducible refine within_raise ?_ _ _ _ _ | split
    | fail_if_no_progress (with_reducible refine within_mk (h := ?_)))

theorem within_snapCut {z : Bool} {s0 s : State} (h : Within z s0 s) (x1 : ℕ) : Within z s0 (State.snapCut s x1) := by
  unfold State.snapCut
  try dsimp only
  repeat' (first
    | with_reducible assumption | with_reducible refine within_forAll ?_ (fun _ _ _ => ?_)
    | with_reducible refine within_finish ?_ _ _ _ _ _ | split | fail_if_no_progress (with_reducible refine within_mk (h := ?_)))

theorem within_lineBarRefused {z : Bool} {s0 s : State} (h : Within z s0 s) (x1 : Option ℕ) (x2 : ℕ) : Within z s0 (State.lineBarRefused s x1 x2) := by
  unfold State.lineBarRefused
  try dsimp only
  repeat' (first
    | with_reducible assumption | with_reducible refine within_enterRing ?_ _ _ | with_reducible refine within_finish ?_ _ _ _ _ _
    | split | fail_if_no_progress (with_reducible refine within_mk (h := ?_)))

theorem within_forward {z : Bool} {s0 s : State} (h : Within z s0 s) (x1 : Fin 2) (x2 : List Byte) : Within z s0 (State.forward s x1 x2) := by
  unfold State.forward
  try dsimp only
  repeat' (first
    | with_reducible assumption | with_reducible refine within_emit ?_ _ | split
    | fail_if_no_progress (with_reducible refine within_mk (h := ?_)))

theorem within_motionDone {s0 s : State} (h : Within false s0 s) (x1 : ℕ) : Within false s0 (State.motionDone s x1) := by
  unfold State.motionDone
  try dsimp only
  repeat' (first
    | with_reducible assumption | with_reducible refine within_finishMotion ?_ _ _ | with_reducible refine within_settle ?_ _ | split
    | fail_if_no_progress (with_reducible refine within_mk (h := ?_))
    | fail_if_no_progress (with_reducible refine within_mk_any (h := ?_)))

theorem within_runsOut {z : Bool} {s0 s : State} (h : Within z s0 s) (x1 : AxisId) (x2 : Running → Running) : Within z s0 (State.runsOut s x1 x2) := by
  unfold State.runsOut
  try dsimp only
  repeat' (first
    | with_reducible assumption | with_reducible refine within_modAx ?_ _ _ | split
    | fail_if_no_progress (with_reducible refine within_mk (h := ?_)))

theorem within_holdRest {z : Bool} {s0 s : State} (h : Within z s0 s) (x1 : AxisId) : Within z s0 (State.holdRest s x1) := by
  unfold State.holdRest
  try dsimp only
  repeat' (first
    | with_reducible assumption | with_reducible refine within_runsOut ?_ _ _ | with_reducible refine within_enterHold ?_ _ | split
    | fail_if_no_progress (with_reducible refine within_mk (h := ?_)))

theorem within_groupArrived {s0 s : State} (h : Within false s0 s) (x1 : ℕ) : Within false s0 (State.groupArrived s x1) := by
  unfold State.groupArrived
  try dsimp only
  repeat' (first
    | with_reducible assumption | with_reducible refine within_motionDone ?_ _ | split
    | fail_if_no_progress (with_reducible refine within_mk (h := ?_))
    | fail_if_no_progress (with_reducible refine within_mk_any (h := ?_)))

theorem within_motionDoneO {s0 s : State} (h : Within false s0 s) (x1 : Option ℕ) : Within false s0 (State.motionDoneO s x1) := by
  unfold State.motionDoneO
  try dsimp only
  repeat' (first
    | with_reducible assumption | with_reducible refine within_motionDone ?_ _ | split
    | fail_if_no_progress (with_reducible refine within_mk (h := ?_))
    | fail_if_no_progress (with_reducible refine within_mk_any (h := ?_)))

theorem within_restNow {s0 s : State} (h : Within false s0 s) (x1 : AxisId) : Within false s0 (State.restNow s x1) := by
  unfold State.restNow
  try dsimp only
  repeat' (first
    | with_reducible assumption | with_reducible refine within_motionDone ?_ _ | with_reducible refine within_holdRest ?_ _
    | with_reducible refine within_groupArrived ?_ _ | with_reducible refine within_motionDoneO ?_ _
    | with_reducible refine within_parkNow ?_ _ | with_reducible refine within_modTt ?_ _ _ | split
    | fail_if_no_progress (with_reducible refine within_mk (h := ?_))
    | fail_if_no_progress (with_reducible refine within_mk_any (h := ?_)))

theorem within_startMotion {z : Bool} {s0 s : State} (h : Within z s0 s) (x1 : AxisId) (x2 : Running) (x3 : Mode) : Within z s0 (State.startMotion s x1 x2 x3) := by
  unfold State.startMotion
  try dsimp only
  repeat' (first
    | with_reducible assumption | with_reducible refine within_runPhase ?_ _ | with_reducible refine within_modTt ?_ _ _ | split
    | fail_if_no_progress (with_reducible refine within_mk (h := ?_)))

theorem within_moveTo {z : Bool} {s0 s : State} (h : Within z s0 s) (x1 : AxisId) (x2 : ℤ) (x3 : Limits) (x4 : Bool) (x5 : Running) : Within z s0 (State.moveTo s x1 x2 x3 x4 x5) := by
  unfold State.moveTo
  try dsimp only
  repeat' (first
    | with_reducible assumption | with_reducible refine within_takeForms ?_ _ | with_reducible refine within_modTt ?_ _ _
    | with_reducible refine within_planProfile ?_ _ | with_reducible refine within_startMotion ?_ _ _ _
    | with_reducible refine within_newTarget ?_ _ _ _ | split | fail_if_no_progress (with_reducible refine within_mk (h := ?_)))

theorem within_posSetTick {z : Bool} {s0 s : State} (h : Within z s0 s) (x1 : Desc) : Within z s0 (State.posSetTick s x1) := by
  unfold State.posSetTick
  try dsimp only
  repeat' (first
    | with_reducible assumption | with_reducible refine within_modFbx ?_ _ _ | split
    | fail_if_no_progress (with_reducible refine within_mk (h := ?_)))

theorem within_moveEffect {z : Bool} {s0 s : State} (h : Within z s0 s) (x1 : Desc) (x2 : AxisId → ℤ) : Within z s0 (State.moveEffect s x1 x2) := by
  unfold State.moveEffect
  try dsimp only
  repeat' (first
    | with_reducible assumption | with_reducible refine within_moveTo ?_ _ _ _ _ _ | split
    | fail_if_no_progress (with_reducible refine within_mk (h := ?_)))

theorem within_velEffect {z : Bool} {s0 s : State} (h : Within z s0 s) (x1 : Desc) : Within z s0 (State.velEffect s x1) := by
  unfold State.velEffect
  try dsimp only
  repeat' (first
    | with_reducible assumption | with_reducible refine within_runPhase ?_ _ | with_reducible refine within_modTt ?_ _ _
    | with_reducible refine within_takeForms ?_ _ | with_reducible refine within_planProfile ?_ _
    | with_reducible refine within_startMotion ?_ _ _ _ | with_reducible refine within_stopFrom ?_ _ _ _ _
    | with_reducible refine within_modAx ?_ _ _ | split | fail_if_no_progress (with_reducible refine within_mk (h := ?_)))

theorem within_stopEffect {z : Bool} {s0 s : State} (h : Within z s0 s) (x1 : Desc) (x2 : ℕ) (x3 : ℕ) : Within z s0 (State.stopEffect s x1 x2 x3) := by
  unfold State.stopEffect
  try dsimp only
  repeat' (first
    | with_reducible assumption | with_reducible refine within_modTt ?_ _ _ | with_reducible refine within_stopMotion ?_ _ _ _ _ | split
    | fail_if_no_progress (with_reducible refine within_mk (h := ?_)))

theorem within_posSetEffect {z : Bool} {s0 s : State} (h : Within z s0 s) (x1 : Desc) : Within z s0 (State.posSetEffect s x1) := by
  unfold State.posSetEffect
  try dsimp only
  repeat' (first
    | with_reducible assumption | with_reducible refine within_paramDone ?_ _ _ | with_reducible refine within_modAx ?_ _ _ | split
    | fail_if_no_progress (with_reducible refine within_mk (h := ?_)))

theorem within_groupEffect {z : Bool} {s0 s : State} (h : Within z s0 s) (x1 : Desc) (x2 : List (AxisId × ℤ)) (x3 : List Limits) : Within z s0 (State.groupEffect s x1 x2 x3) := by
  unfold State.groupEffect
  try dsimp only
  repeat' (first
    | with_reducible assumption | with_reducible refine within_forAll ?_ (fun _ _ _ => ?_)
    | with_reducible refine within_moveTo ?_ _ _ _ _ _ | split | fail_if_no_progress (with_reducible refine within_mk (h := ?_)))

theorem within_camUnderrun {z : Bool} {s0 s : State} (h : Within z s0 s) (x1 : AxisId) (x2 : ℕ) (x3 : ℕ) : Within z s0 (State.camUnderrun s x1 x2 x3) := by
  unfold State.camUnderrun
  try dsimp only
  repeat' (first
    | with_reducible assumption | with_reducible refine within_tellAt ?_ _ _ _ _ _ | split
    | fail_if_no_progress (with_reducible refine within_mk (h := ?_)))

theorem within_dropDemand {s0 s : State} (h : Within false s0 s) (x1 : AxisId) (x2 : ℕ) : Within false s0 (State.dropDemand s x1 x2) := by
  unfold State.dropDemand
  try dsimp only
  repeat' (first
    | with_reducible assumption | with_reducible refine within_orReg ?_ _ _ | with_reducible refine within_modAx ?_ _ _
    | with_reducible refine within_addReg ?_ _ _ | split | fail_if_no_progress (with_reducible refine within_mk (h := ?_))
    | fail_if_no_progress (with_reducible refine within_mk_any (h := ?_)))

theorem within_camArrive {z : Bool} {s0 s : State} (h : Within z s0 s) : Within z s0 (State.camArrive s) := by
  unfold State.camArrive
  try dsimp only
  repeat' (first
    | with_reducible assumption | split | fail_if_no_progress (with_reducible refine within_mk (h := ?_)))

theorem within_leaveFollow {z : Bool} {s0 s : State} (h : Within z s0 s) (x1 : AxisId) : Within z s0 (State.leaveFollow s x1) := by
  unfold State.leaveFollow
  try dsimp only
  repeat' (first
    | with_reducible assumption | with_reducible refine within_modAx ?_ _ _ | with_reducible refine within_stopStored ?_ _ _ | split
    | fail_if_no_progress (with_reducible refine within_mk (h := ?_)))

theorem within_takeFollowed {z : Bool} {s0 s : State} (h : Within z s0 s) (x1 : AxisId) (x2 : FollowSt) (x3 : ℤ) (x4 : ℤ) : Within z s0 (State.takeFollowed s x1 x2 x3 x4) := by
  unfold State.takeFollowed
  try dsimp only
  repeat' (first
    | with_reducible assumption | with_reducible refine within_limitClipped ?_ _ _ _ _ | with_reducible refine within_leaveFollow ?_ _
    | with_reducible refine within_modTt ?_ _ _ | with_reducible refine within_modAx ?_ _ _ | split
    | fail_if_no_progress (with_reducible refine within_mk (h := ?_)))

theorem within_followStep {z : Bool} {s0 s : State} (h : Within z s0 s) (x1 : AxisId) (x2 : FollowSt) (x3 : ℤ) : Within z s0 (State.followStep s x1 x2 x3) := by
  unfold State.followStep
  try dsimp only
  repeat' (first
    | with_reducible assumption | with_reducible refine within_modAx ?_ _ _ | with_reducible refine within_takeFollowed ?_ _ _ _ _
    | split | fail_if_no_progress (with_reducible refine within_mk (h := ?_)))

theorem within_planFollow {z : Bool} {s0 s : State} (h : Within z s0 s) (x1 : AxisId) (x2 : FollowSt) : Within z s0 (State.planFollow s x1 x2) := by
  unfold State.planFollow
  try dsimp only
  repeat' (first
    | with_reducible assumption | with_reducible refine within_modAx ?_ _ _ | with_reducible refine within_followStep ?_ _ _ _
    | with_reducible refine within_camUnderrun ?_ _ _ _ | with_reducible refine within_takeFollowed ?_ _ _ _ _
    | with_reducible refine within_leaveFollow ?_ _ | split | fail_if_no_progress (with_reducible refine within_mk (h := ?_)))

theorem within_camFetch {z : Bool} {s0 s : State} (h : Within z s0 s) (x1 : AxisId) : Within z s0 (State.camFetch s x1) := by
  unfold State.camFetch
  try dsimp only
  repeat' (first
    | with_reducible assumption | with_reducible refine within_fillCam ?_ _ | with_reducible refine within_modAx ?_ _ _ | split
    | fail_if_no_progress (with_reducible refine within_mk (h := ?_)))

theorem within_startFollow {z : Bool} {s0 s : State} (h : Within z s0 s) (x1 : AxisId) (x2 : FollowSt) : Within z s0 (State.startFollow s x1 x2) := by
  unfold State.startFollow
  try dsimp only
  repeat' (first
    | with_reducible assumption | with_reducible refine within_modAx ?_ _ _ | with_reducible refine within_takeForms ?_ _
    | with_reducible refine within_startMotion ?_ _ _ _ | split | fail_if_no_progress (with_reducible refine within_mk (h := ?_)))

theorem within_followStepEffect {z : Bool} {s0 s : State} (h : Within z s0 s) (x1 : Desc) : Within z s0 (State.followStepEffect s x1) := by
  unfold State.followStepEffect
  try dsimp only
  repeat' (first
    | with_reducible assumption | with_reducible refine within_startFollow ?_ _ _ | with_reducible refine within_planFollow ?_ _ _
    | with_reducible refine within_laterOk ?_ _ _ _ | split | fail_if_no_progress (with_reducible refine within_mk (h := ?_)))

theorem within_followCamEffect {z : Bool} {s0 s : State} (h : Within z s0 s) (x1 : Desc) (x2 : AxisId) (x3 : FollowSt) : Within z s0 (State.followCamEffect s x1 x2 x3) := by
  unfold State.followCamEffect
  try dsimp only
  repeat' (first
    | with_reducible assumption | with_reducible refine within_startFollow ?_ _ _ | with_reducible refine within_planFollow ?_ _ _
    | with_reducible refine within_laterOk ?_ _ _ _ | split | fail_if_no_progress (with_reducible refine within_mk (h := ?_)))

theorem within_fbIgnored {s0 s : State} (h : Within false s0 s) (x1 : Fin 24) : Within false s0 (State.fbIgnored s x1) := by
  unfold State.fbIgnored
  try dsimp only
  repeat' (first
    | with_reducible assumption | with_reducible refine within_orReg ?_ _ _ | split
    | fail_if_no_progress (with_reducible refine within_mk (h := ?_))
    | fail_if_no_progress (with_reducible refine within_mk_any (h := ?_)))

theorem within_shiftAxis {z : Bool} {s0 s : State} (h : Within z s0 s) (x1 : AxisId) (x2 : ℤ) : Within z s0 (State.shiftAxis s x1 x2) := by
  unfold State.shiftAxis
  try dsimp only
  repeat' (first
    | with_reducible assumption | with_reducible refine within_modTt ?_ _ _ | with_reducible refine within_decideTarget ?_ _ _ _ _
    | with_reducible refine within_runVelocity ?_ _ _ _ _ | split | fail_if_no_progress (with_reducible refine within_mk (h := ?_)))

theorem within_fbCheck {s0 s : State} (h : Within false s0 s) (x1 : AxisId) : Within false s0 (State.fbCheck s x1) := by
  unfold State.fbCheck
  try dsimp only
  repeat' (first
    | with_reducible assumption | with_reducible refine within_modFbx ?_ _ _ | with_reducible refine within_orReg ?_ _ _
    | with_reducible refine within_incReg ?_ _ | with_reducible refine within_shiftAxis ?_ _ _ | split
    | fail_if_no_progress (with_reducible refine within_mk (h := ?_))
    | fail_if_no_progress (with_reducible refine within_mk_any (h := ?_)))

theorem within_probeShot {s0 s : State} (h : Within false s0 s) (x1 : Fin 16) (x2 : Bool) (x3 : ℤ) : Within false s0 (State.probeShot s x1 x2 x3) := by
  unfold State.probeShot
  try dsimp only
  repeat' (first
    | with_reducible assumption | with_reducible refine within_forAll ?_ (fun _ _ _ => ?_) | with_reducible refine within_setReg ?_ _ _
    | with_reducible refine within_raise ?_ _ _ _ _ | split | fail_if_no_progress (with_reducible refine within_mk (h := ?_))
    | fail_if_no_progress (with_reducible refine within_mk_any (h := ?_)))

theorem within_coilDone {z : Bool} {s0 s : State} (h : Within z s0 s) (x1 : ℕ) (x2 : Word) (x3 : Word) (x4 : FrameNo) : Within z s0 (State.coilDone s x1 x2 x3 x4) := by
  unfold State.coilDone
  try dsimp only
  repeat' (first
    | with_reducible assumption | with_reducible refine within_finishOk ?_ _ _ _ _ | split
    | fail_if_no_progress (with_reducible refine within_mk (h := ?_)))

theorem within_beginSeq {z : Bool} {s0 s : State} (h : Within z s0 s) (x1 : AxisId) (x2 : Phase) (x3 : SeqSt) : Within z s0 (State.beginSeq s x1 x2 x3) := by
  unfold State.beginSeq
  try dsimp only
  repeat' (first
    | with_reducible assumption | with_reducible refine within_modCd ?_ _ _ | split
    | fail_if_no_progress (with_reducible refine within_mk (h := ?_)))

theorem within_detached {z : Bool} {s0 s : State} (h : Within z s0 s) (x1 : AxisId) (x2 : ℕ) (x3 : ℕ) : Within z s0 (State.detached s x1 x2 x3) := by
  unfold State.detached
  try dsimp only
  repeat' (first
    | with_reducible assumption | with_reducible refine within_raise ?_ _ _ _ _ | with_reducible refine within_bridgeFaulted ?_ _ _
    | with_reducible refine within_modSg ?_ _ _ | split | fail_if_no_progress (with_reducible refine within_mk (h := ?_)))

theorem within_maskEffect {z : Bool} {s0 s : State} (h : Within z s0 s) (x1 : Desc) : Within z s0 (State.maskEffect s x1) := by
  unfold State.maskEffect
  try dsimp only
  repeat' (first
    | with_reducible assumption | with_reducible refine within_modBr ?_ _ _ | split
    | fail_if_no_progress (with_reducible refine within_mk (h := ?_)))

theorem within_writeId {s0 s : State} (h : Within false s0 s) (x1 : AxisId) (x2 : ℕ) (x3 : Bool) (x4 : ℕ) (x5 : ℕ) (x6 : ℕ) (x7 : ℕ) : Within false s0 (State.writeId s x1 x2 x3 x4 x5 x6 x7) := by
  unfold State.writeId
  try dsimp only
  repeat' (first
    | with_reducible assumption | with_reducible refine within_setReg ?_ _ _ | split
    | fail_if_no_progress (with_reducible refine within_mk (h := ?_))
    | fail_if_no_progress (with_reducible refine within_mk_any (h := ?_)))

theorem within_writePdEn {z : Bool} {s0 s : State} (h : Within z s0 s) (x1 : AxisId) (x2 : ℕ) : Within z s0 (State.writePdEn s x1 x2) := by
  unfold State.writePdEn
  try dsimp only
  repeat' (first
    | with_reducible assumption | with_reducible refine within_modAx ?_ _ _ | with_reducible refine within_runPhase ?_ _ | split
    | fail_if_no_progress (with_reducible refine within_mk (h := ?_)))

theorem within_nextStep {z : Bool} {s0 s : State} (h : Within z s0 s) (x1 : AxisId) (x2 : SeqSt) (x3 : Phase) : Within z s0 (State.nextStep s x1 x2 x3) := by
  unfold State.nextStep
  try dsimp only
  repeat' (first
    | with_reducible assumption | with_reducible refine within_modCd ?_ _ _ | split
    | fail_if_no_progress (with_reducible refine within_mk (h := ?_)))

theorem within_energizeFails {z : Bool} {s0 s : State} (h : Within z s0 s) (x1 : AxisId) (x2 : SeqSt) (x3 : Word) : Within z s0 (State.energizeFails s x1 x2 x3) := by
  unfold State.energizeFails
  try dsimp only
  repeat' (first
    | with_reducible assumption | with_reducible refine within_finish ?_ _ _ _ _ _ | with_reducible refine within_modCd ?_ _ _
    | with_reducible refine within_bridgeFault ?_ _ | with_reducible refine within_parkNow ?_ _ | split
    | fail_if_no_progress (with_reducible refine within_mk (h := ?_)))

theorem within_associate {z : Bool} {s0 s : State} (h : Within z s0 s) (x1 : AxisId) : Within z s0 (State.associate s x1) := by
  unfold State.associate
  try dsimp only
  repeat' (first
    | with_reducible assumption | with_reducible refine within_modFbx ?_ _ _ | split
    | fail_if_no_progress (with_reducible refine within_mk (h := ?_)))

theorem within_identifyEffect {z : Bool} {s0 s : State} (h : Within z s0 s) (x1 : Desc) : Within z s0 (State.identifyEffect s x1) := by
  unfold State.identifyEffect
  try dsimp only
  repeat' (first
    | with_reducible assumption | with_reducible refine within_moveTo ?_ _ _ _ _ _ | with_reducible refine within_modTt ?_ _ _
    | with_reducible refine within_beginSeq ?_ _ _ _ | split | fail_if_no_progress (with_reducible refine within_mk (h := ?_)))

theorem within_finalRamp {z : Bool} {s0 s : State} (h : Within z s0 s) (x1 : AxisId) (x2 : SeqSt) : Within z s0 (State.finalRamp s x1 x2) := by
  unfold State.finalRamp
  try dsimp only
  repeat' (first
    | with_reducible assumption | with_reducible refine within_modCd ?_ _ _ | with_reducible refine within_nextStep ?_ _ _ _ | split
    | fail_if_no_progress (with_reducible refine within_mk (h := ?_)))

theorem within_judge {s0 s : State} (h : Within false s0 s) (x1 : AxisId) (x2 : SeqSt) : Within false s0 (State.judge s x1 x2) := by
  unfold State.judge
  try dsimp only
  repeat' (first
    | with_reducible assumption | with_reducible refine within_modCd ?_ _ _ | with_reducible refine within_finalRamp ?_ _ _
    | with_reducible refine within_writeId ?_ _ _ _ _ _ _ _ | with_reducible refine within_rhatChanged ?_ _
    | with_reducible refine within_energizeFails ?_ _ _ _ | split | fail_if_no_progress (with_reducible refine within_mk (h := ?_))
    | fail_if_no_progress (with_reducible refine within_mk_any (h := ?_)))

theorem within_stall {s0 s : State} (h : Within false s0 s) (x1 : AxisId) (x2 : ℤ) (x3 : ℕ) (x4 : Bool) : Within false s0 (State.stall s x1 x2 x3 x4) := by
  unfold State.stall
  try dsimp only
  repeat' (first
    | with_reducible assumption | with_reducible refine within_modSg ?_ _ _ | with_reducible refine within_raise ?_ _ _ _ _
    | with_reducible refine within_incReg ?_ _ | with_reducible refine within_orReg ?_ _ _
    | with_reducible refine within_faultAt ?_ _ _ _ | with_reducible refine within_modAx ?_ _ _
    | with_reducible refine within_bridgeFaultAt ?_ _ _ | split | fail_if_no_progress (with_reducible refine within_mk (h := ?_))
    | fail_if_no_progress (with_reducible refine within_mk_any (h := ?_)))

theorem within_sgJudge {s0 s : State} (h : Within false s0 s) (x1 : AxisId) (x2 : SgIn) (x3 : Bool) : Within false s0 (State.sgJudge s x1 x2 x3) := by
  unfold State.sgJudge
  try dsimp only
  repeat' (first
    | with_reducible assumption | with_reducible refine within_modSg ?_ _ _ | with_reducible refine within_detached ?_ _ _ _
    | with_reducible refine within_stall ?_ _ _ _ _ | with_reducible refine within_raise ?_ _ _ _ _ | split
    | fail_if_no_progress (with_reducible refine within_mk (h := ?_))
    | fail_if_no_progress (with_reducible refine within_mk_any (h := ?_)))

theorem within_armStep {z : Bool} {s0 s : State} (h : Within z s0 s) (x1 : AxisId) (x2 : SgIn) (x3 : ℤ) : Within z s0 (State.armStep s x1 x2 x3) := by
  unfold State.armStep
  try dsimp only
  repeat' (first
    | with_reducible assumption | with_reducible refine within_modSg ?_ _ _ | with_reducible refine within_raise ?_ _ _ _ _ | split
    | fail_if_no_progress (with_reducible refine within_mk (h := ?_)))

theorem within_observe {z : Bool} {s0 s : State} (h : Within z s0 s) (x1 : AxisId) : Within z s0 (State.observe s x1) := by
  unfold State.observe
  try dsimp only
  repeat' (first
    | with_reducible assumption | with_reducible refine within_modTt ?_ _ _ | split
    | fail_if_no_progress (with_reducible refine within_mk (h := ?_)))

theorem within_probeVerdict {z : Bool} {s0 s : State} (h : Within z s0 s) (x1 : AxisId) : Within z s0 (State.probeVerdict s x1) := by
  unfold State.probeVerdict
  try dsimp only
  repeat' (first
    | with_reducible assumption | with_reducible refine within_modBr ?_ _ _ | with_reducible refine within_modSg ?_ _ _
    | with_reducible refine within_modCd ?_ _ _ | with_reducible refine within_raise ?_ _ _ _ _ | split
    | fail_if_no_progress (with_reducible refine within_mk (h := ?_)))

theorem within_takeCardHalf {z : Bool} {s0 s : State} (h : Within z s0 s) (x1 : Items) (x2 : Fin 64) : Within z s0 (State.takeCardHalf s x1 x2) := by
  unfold State.takeCardHalf
  try dsimp only
  repeat' (first
    | with_reducible assumption | with_reducible refine within_takeCard ?_ _ _ | with_reducible refine within_modCard ?_ _ _ | split
    | fail_if_no_progress (with_reducible refine within_mk (h := ?_)))

theorem within_takeAxis {z : Bool} {s0 s : State} (h : Within z s0 s) (x1 : Items) (x2 : AxisId) : Within z s0 (State.takeAxis s x1 x2) := by
  unfold State.takeAxis
  try dsimp only
  repeat' (first
    | with_reducible assumption | with_reducible refine within_takeCoil ?_ _ _ | with_reducible refine within_takeFb ?_ _ _
    | with_reducible refine within_takeSg ?_ _ _ | with_reducible refine within_takeTt ?_ _ _
    | with_reducible refine within_cardNamed ?_ _ | with_reducible refine within_modAx ?_ _ _ | split
    | fail_if_no_progress (with_reducible refine within_mk (h := ?_)))

theorem within_reloadAxis {z : Bool} {s0 s : State} (h : Within z s0 s) (x1 : AxisId) : Within z s0 (State.reloadAxis s x1) := by
  unfold State.reloadAxis
  try dsimp only
  repeat' (first
    | with_reducible assumption | with_reducible refine within_takeAxis ?_ _ _ | split
    | fail_if_no_progress (with_reducible refine within_mk (h := ?_)))

theorem within_consistEffect {z : Bool} {s0 s : State} (h : Within z s0 s) (x1 : Desc) : Within z s0 (State.consistEffect s x1) := by
  unfold State.consistEffect
  try dsimp only
  repeat' (first
    | with_reducible assumption | with_reducible refine within_later ?_ _ _ _ _ | with_reducible refine within_modDesc ?_ _ _ | split
    | fail_if_no_progress (with_reducible refine within_mk (h := ?_)))

theorem within_reloadCard {z : Bool} {s0 s : State} (h : Within z s0 s) (x1 : Fin 64) : Within z s0 (State.reloadCard s x1) := by
  unfold State.reloadCard
  try dsimp only
  repeat' (first
    | with_reducible assumption | with_reducible refine within_takeCardHalf ?_ _ _ | split
    | fail_if_no_progress (with_reducible refine within_mk (h := ?_)))

theorem within_hvStat {s0 s : State} (h : Within false s0 s) (x1 : HeavyId) (x2 : ℕ) : Within false s0 (State.hvStat s x1 x2) := by
  unfold State.hvStat
  try dsimp only
  repeat' (first
    | with_reducible assumption | with_reducible refine within_orReg ?_ _ _ | split
    | fail_if_no_progress (with_reducible refine within_mk (h := ?_))
    | fail_if_no_progress (with_reducible refine within_mk_any (h := ?_)))

theorem within_shootThrough {s0 s : State} (h : Within false s0 s) (x1 : AxisId) (x2 : BitVec 8) : Within false s0 (State.shootThrough s x1 x2) := by
  unfold State.shootThrough
  try dsimp only
  repeat' (first
    | with_reducible assumption | with_reducible refine within_orReg ?_ _ _ | with_reducible refine within_addReg ?_ _ _
    | with_reducible refine within_raise ?_ _ _ _ _ | split | fail_if_no_progress (with_reducible refine within_mk (h := ?_))
    | fail_if_no_progress (with_reducible refine within_mk_any (h := ?_)))

theorem within_transfer {s0 s : State} (h : Within false s0 s) (x1 : AxisId) : Within false s0 (State.transfer s x1) := by
  unfold State.transfer
  try dsimp only
  repeat' (first
    | with_reducible assumption | with_reducible refine within_modBr ?_ _ _ | with_reducible refine within_raise ?_ _ _ _ _
    | with_reducible refine within_orReg ?_ _ _ | with_reducible refine within_shootThrough ?_ _ _ | split
    | fail_if_no_progress (with_reducible refine within_mk (h := ?_))
    | fail_if_no_progress (with_reducible refine within_mk_any (h := ?_)))

theorem within_loadAxis {s0 s : State} (h : Within false s0 s) (x1 : AxisId) : Within false s0 (State.loadAxis s x1) := by
  unfold State.loadAxis
  try dsimp only
  repeat' (first
    | with_reducible assumption | with_reducible refine within_modBr ?_ _ _ | with_reducible refine within_transfer ?_ _
    | with_reducible refine within_modCd ?_ _ _ | split | fail_if_no_progress (with_reducible refine within_mk (h := ?_))
    | fail_if_no_progress (with_reducible refine within_mk_any (h := ?_)))

theorem within_maskLoad {z : Bool} {s0 s : State} (h : Within z s0 s) (x1 : AxisId) : Within z s0 (State.maskLoad s x1) := by
  unfold State.maskLoad
  try dsimp only
  repeat' (first
    | with_reducible assumption | with_reducible refine within_modBr ?_ _ _ | with_reducible refine within_modCd ?_ _ _
    | with_reducible refine within_coilDone ?_ _ _ _ _ | split | fail_if_no_progress (with_reducible refine within_mk (h := ?_)))

theorem within_endFrame {z : Bool} {s0 s : State} (h : Within z s0 s) (x1 : AxisId) : Within z s0 (State.endFrame s x1) := by
  unfold State.endFrame
  try dsimp only
  repeat' (first
    | with_reducible assumption | with_reducible refine within_modBr ?_ _ _ | split
    | fail_if_no_progress (with_reducible refine within_mk (h := ?_)))

theorem within_modCoil {z : Bool} {s0 s : State} (h : Within z s0 s) (x1 : AxisId) (x2 : Bool) (x3 : Coil → Coil) : Within z s0 (State.modCoil s x1 x2 x3) := by
  unfold State.modCoil
  try dsimp only
  repeat' (first
    | with_reducible assumption | with_reducible refine within_modCd ?_ _ _ | split
    | fail_if_no_progress (with_reducible refine within_mk (h := ?_)))

theorem within_substituted {s0 s : State} (h : Within false s0 s) (x1 : AxisId) : Within false s0 (State.substituted s x1) := by
  unfold State.substituted
  try dsimp only
  repeat' (first
    | with_reducible assumption | with_reducible refine within_orReg ?_ _ _ | split
    | fail_if_no_progress (with_reducible refine within_mk (h := ?_))
    | fail_if_no_progress (with_reducible refine within_mk_any (h := ?_)))

theorem within_takeValley {s0 s : State} (h : Within false s0 s) (x1 : State) (x2 : State) (x3 : AxisId) (x4 : Bool) (x5 : ℕ) (x6 : Bool) : Within false s0 (State.takeValley s x1 x2 x3 x4 x5 x6) := by
  unfold State.takeValley
  try dsimp only
  repeat' (first
    | with_reducible assumption | with_reducible refine within_modCoil ?_ _ _ _ | with_reducible refine within_substituted ?_ _ | split
    | fail_if_no_progress (with_reducible refine within_mk (h := ?_))
    | fail_if_no_progress (with_reducible refine within_mk_any (h := ?_)))

theorem within_takePeak {s0 s : State} (h : Within false s0 s) (x1 : AxisId) (x2 : Bool) (x3 : ℕ) : Within false s0 (State.takePeak s x1 x2 x3) := by
  unfold State.takePeak
  try dsimp only
  repeat' (first
    | with_reducible assumption | with_reducible refine within_modCoil ?_ _ _ _ | with_reducible refine within_substituted ?_ _ | split
    | fail_if_no_progress (with_reducible refine within_mk (h := ?_))
    | fail_if_no_progress (with_reducible refine within_mk_any (h := ?_)))

theorem within_openStep {z : Bool} {s0 s : State} (h : Within z s0 s) (x1 : AxisId) (x2 : Bool) : Within z s0 (State.openStep s x1 x2) := by
  unfold State.openStep
  try dsimp only
  repeat' (first
    | with_reducible assumption | with_reducible refine within_modCoil ?_ _ _ _ | split
    | fail_if_no_progress (with_reducible refine within_mk (h := ?_)))

theorem within_setShadow {s0 s : State} (h : Within false s0 s) (x1 : AxisId) (x2 : Ons) (x3 : BitVec 8) (x4 : Bool) : Within false s0 (State.setShadow s x1 x2 x3 x4) := by
  unfold State.setShadow
  try dsimp only
  repeat' (first
    | with_reducible assumption | with_reducible refine within_modBr ?_ _ _ | with_reducible refine within_setReg ?_ _ _ | split
    | fail_if_no_progress (with_reducible refine within_mk (h := ?_))
    | fail_if_no_progress (with_reducible refine within_mk_any (h := ?_)))

theorem within_stillStep {z : Bool} {s0 s : State} (h : Within z s0 s) (x1 : AxisId) : Within z s0 (State.stillStep s x1) := by
  unfold State.stillStep
  try dsimp only
  repeat' (first
    | with_reducible assumption | with_reducible refine within_modCd ?_ _ _ | split
    | fail_if_no_progress (with_reducible refine within_mk (h := ?_)))

theorem within_identStep {z : Bool} {s0 s : State} (h : Within z s0 s) (x1 : AxisId) : Within z s0 (State.identStep s x1) := by
  unfold State.identStep
  try dsimp only
  repeat' (first
    | with_reducible assumption | with_reducible refine within_modCd ?_ _ _ | split
    | fail_if_no_progress (with_reducible refine within_mk (h := ?_)))

theorem within_stageEvent {z : Bool} {s0 s : State} (h : Within z s0 s) (x1 : ℕ) (x2 : ℕ) (x3 : ℕ) (x4 : Word) : Within z s0 (State.stageEvent s x1 x2 x3 x4) := by
  unfold State.stageEvent
  try dsimp only
  repeat' (first
    | with_reducible assumption | with_reducible refine within_raise ?_ _ _ _ _ | split
    | fail_if_no_progress (with_reducible refine within_mk (h := ?_)))

theorem within_rebuild {z : Bool} {s0 s : State} (h : Within z s0 s) (x1 : BitVec 7) (x2 : FwSlot) : Within z s0 (State.rebuild s x1 x2) := by
  unfold State.rebuild
  try dsimp only
  repeat' (first
    | with_reducible assumption | with_reducible refine within_forAll ?_ (fun _ _ _ => ?_) | with_reducible refine within_reloadAxis ?_ _
    | split | fail_if_no_progress (with_reducible refine within_mk (h := ?_)))

theorem within_readFor {z : Bool} {s0 s : State} (h : Within z s0 s) (x1 : Desc) (x2 : ℕ) (x3 : ℕ) : Within z s0 (State.readFor s x1 x2 x3) := by
  unfold State.readFor
  try dsimp only
  repeat' (first
    | with_reducible assumption | with_reducible refine within_emit ?_ _ | with_reducible refine within_modDesc ?_ _ _ | split
    | fail_if_no_progress (with_reducible refine within_mk (h := ?_)))

theorem within_readDoorbell {z : Bool} {s0 s : State} (h : Within z s0 s) (x1 : BlockRead) : Within z s0 (State.readDoorbell s x1) := by
  unfold State.readDoorbell
  try dsimp only
  repeat' (first
    | with_reducible assumption | with_reducible refine within_emit ?_ _ | split
    | fail_if_no_progress (with_reducible refine within_mk (h := ?_))
    | fail_if_no_progress (with_reducible refine within_mk_hif (h := ?_) ?_) | exact ⟨rfl, rfl, rfl⟩)

theorem within_cfgIgnored {s0 s : State} (h : Within false s0 s) (x1 : ℕ) : Within false s0 (State.cfgIgnored s x1) := by
  unfold State.cfgIgnored
  try dsimp only
  repeat' (first
    | with_reducible assumption | with_reducible refine within_orReg ?_ _ _ | split
    | fail_if_no_progress (with_reducible refine within_mk (h := ?_))
    | fail_if_no_progress (with_reducible refine within_mk_any (h := ?_)))

theorem within_blockFailed {s0 s : State} (h : Within false s0 s) (x1 : BitVec 8) (x2 : ℕ) : Within false s0 (State.blockFailed s x1 x2) := by
  unfold State.blockFailed
  try dsimp only
  repeat' (first
    | with_reducible assumption | with_reducible refine within_raise ?_ _ _ _ _ | with_reducible refine within_orReg ?_ _ _ | split
    | fail_if_no_progress (with_reducible refine within_mk (h := ?_))
    | fail_if_no_progress (with_reducible refine within_mk_any (h := ?_)))

theorem within_takeEqHead {z : Bool} {s0 s : State} (h : Within z s0 s) (x1 : Word) : Within z s0 (State.takeEqHead s x1) := by
  unfold State.takeEqHead
  try dsimp only
  repeat' (first
    | with_reducible assumption | with_reducible refine within_eqOverflow ?_ | with_reducible refine within_raise ?_ _ _ _ _ | split
    | fail_if_no_progress (with_reducible refine within_mk (h := ?_)))

theorem within_takeHead {z : Bool} {s0 s : State} (h : Within z s0 s) (x1 : RingId) (x2 : Word) : Within z s0 (State.takeHead s x1 x2) := by
  unfold State.takeHead
  try dsimp only
  repeat' (first
    | with_reducible assumption | with_reducible refine within_drainWaiting ?_ _ _ | with_reducible refine within_modCq ?_ _ _
    | with_reducible refine within_raise ?_ _ _ _ _ | split | fail_if_no_progress (with_reducible refine within_mk (h := ?_)))

theorem within_readReturn {z : Bool} {s0 s : State} (h : Within z s0 s) (x1 : BlockRead) : Within z s0 (State.readReturn s x1) := by
  unfold State.readReturn
  try dsimp only
  repeat' (first
    | with_reducible assumption | with_reducible refine within_emit ?_ _ | split
    | fail_if_no_progress (with_reducible refine within_mk (h := ?_))
    | fail_if_no_progress (with_reducible refine within_mk_hif (h := ?_) ?_) | exact ⟨rfl, rfl, rfl⟩)

theorem within_kickReads {z : Bool} {s0 s : State} (h : Within z s0 s) : Within z s0 (State.kickReads s) := by
  unfold State.kickReads
  try dsimp only
  repeat' (first
    | with_reducible assumption | with_reducible refine within_readReturn ?_ _ | with_reducible refine within_readDoorbell ?_ _ | split
    | fail_if_no_progress (with_reducible refine within_mk (h := ?_)))

theorem within_kick {z : Bool} {s0 s : State} (h : Within z s0 s) : Within z s0 (State.kick s) := by
  unfold State.kick
  try dsimp only
  repeat' (first
    | with_reducible assumption | with_reducible refine within_kickReads ?_ | split
    | fail_if_no_progress (with_reducible refine within_mk (h := ?_))
    | fail_if_no_progress (with_reducible refine within_mk_hif (h := ?_) ?_) | exact ⟨rfl, rfl, rfl⟩)

theorem within_kickWrite {z : Bool} {s0 s : State} (h : Within z s0 s) (x1 : Master) : Within z s0 (State.kickWrite s x1) := by
  unfold State.kickWrite
  try dsimp only
  repeat' (first
    | with_reducible assumption | with_reducible refine within_kick ?_ | split
    | fail_if_no_progress (with_reducible refine within_mk (h := ?_)))

theorem within_modVector {z : Bool} {s0 s : State} (h : Within z s0 s) (x1 : Fin 2) (x2 : Fin 16) (x3 : MsixEntry → MsixEntry) : Within z s0 (State.modVector s x1 x2 x3) := by
  unfold State.modVector
  try dsimp only
  repeat' (first
    | with_reducible assumption | split | fail_if_no_progress (with_reducible refine within_mk (h := ?_))
    | fail_if_no_progress (with_reducible refine within_mk_hif (h := ?_) ?_) | exact ⟨rfl, rfl, rfl⟩)

theorem within_bar2Write {z : Bool} {s0 s : State} (h : Within z s0 s) (x1 : Fin 2) (x2 : ℕ) (x3 : Word) : Within z s0 (State.bar2Write s x1 x2 x3) := by
  unfold State.bar2Write
  try dsimp only
  repeat' (first
    | with_reducible assumption | with_reducible refine within_modVector ?_ _ _ _ | with_reducible refine within_maskVector ?_ _ _
    | with_reducible refine within_unmask ?_ _ _ | split | fail_if_no_progress (with_reducible refine within_mk (h := ?_)))

theorem within_readSlot {z : Bool} {s0 s : State} (h : Within z s0 s) (x1 : Desc) : Within z s0 (State.readSlot s x1) := by
  unfold State.readSlot
  try dsimp only
  repeat' (first
    | with_reducible assumption | with_reducible refine within_readFor ?_ _ _ _ | split
    | fail_if_no_progress (with_reducible refine within_mk (h := ?_)))

theorem within_readList {z : Bool} {s0 s : State} (h : Within z s0 s) (x1 : Desc) : Within z s0 (State.readList s x1) := by
  unfold State.readList
  try dsimp only
  repeat' (first
    | with_reducible assumption | with_reducible refine within_readFor ?_ _ _ _ | split
    | fail_if_no_progress (with_reducible refine within_mk (h := ?_)))

theorem within_accept {s0 s : State} (h : Within false s0 s) (d : Desc) : Within false s0 (State.accept s d) := by
  unfold State.accept
  extract_lets o1 s1
  have k : Within false s0 s1 := h.trans ⟨rfl, ⟨rfl, rfl, rfl⟩, fun e => (nomatch e), fun e => (nomatch e), fun e => (nomatch e), fun e => nomatch e⟩
  clear_value s1
  exact within_ite (within_ite k (within_finishRejected k _ _)) (within_ite (within_finish k _ _ _ _ _)
    (within_ite (within_readList (within_modDesc k _ _) _) k))

theorem within_abortHeld {z : Bool} {s0 s : State} (h : Within z s0 s) (x1 : Desc) (x2 : ℕ) (x3 : Bool) : Within z s0 (State.abortHeld s x1 x2 x3) := by
  unfold State.abortHeld
  try dsimp only
  repeat' (first
    | with_reducible assumption | with_reducible refine within_finish ?_ _ _ _ _ _
    | with_reducible refine within_forAll ?_ (fun _ _ _ => ?_) | with_reducible refine within_faultAxis ?_ _ _ | split
    | fail_if_no_progress (with_reducible refine within_mk (h := ?_)))

theorem within_hitDesc {z : Bool} {s0 s : State} (h : Within z s0 s) (x1 : Desc) : Within z s0 (State.hitDesc s x1) := by
  unfold State.hitDesc
  try dsimp only
  repeat' (first
    | with_reducible assumption | with_reducible refine within_putBack ?_ _ | with_reducible refine within_undo ?_ _
    | with_reducible refine within_readSlot ?_ _ | with_reducible refine within_modDesc ?_ _ _ | split
    | fail_if_no_progress (with_reducible refine within_mk (h := ?_)))

theorem within_wdogTest {s0 s : State} (h : Within false s0 s) (x1 : Master) : Within false s0 (State.wdogTest s x1) := by
  unfold State.wdogTest
  try dsimp only
  repeat' (first
    | with_reducible assumption | with_reducible refine within_orReg ?_ _ _ | split
    | fail_if_no_progress (with_reducible refine within_mk (h := ?_))
    | fail_if_no_progress (with_reducible refine within_mk_any (h := ?_)))

theorem within_loseReads {z : Bool} {s0 s : State} (h : Within z s0 s) : Within z s0 (State.loseReads s) := h.trans (Within.same rfl)

theorem within_flrStop {z : Bool} {s0 s : State} (h : Within z s0 s) (x1 : AxisId) : Within z s0 (State.flrStop s x1) := by
  unfold State.flrStop
  try dsimp only
  repeat' (first
    | with_reducible assumption | with_reducible refine within_modAx ?_ _ _ | with_reducible refine within_stopStored ?_ _ _ | split
    | fail_if_no_progress (with_reducible refine within_mk (h := ?_)))

theorem within_flrAxis {z : Bool} {s0 s : State} (h : Within z s0 s) (x1 : RingId) (x2 : AxisId) : Within z s0 (State.flrAxis s x1 x2) := by
  unfold State.flrAxis
  try dsimp only
  repeat' (first
    | with_reducible assumption | with_reducible refine within_flrStop ?_ _ | split
    | fail_if_no_progress (with_reducible refine within_mk (h := ?_)))

theorem within_unstart {z : Bool} {s0 s : State} (h : Within z s0 s) (x1 : Desc) : Within z s0 (State.unstart s x1) := by
  unfold State.unstart
  try dsimp only
  repeat' (first
    | with_reducible assumption | with_reducible refine within_putBack ?_ _ | with_reducible refine within_undo ?_ _ | split
    | fail_if_no_progress (with_reducible refine within_mk (h := ?_)))

theorem within_linkAxis {z : Bool} {s0 s : State} (h : Within z s0 s) (x1 : Bool) (x2 : AxisId) : Within z s0 (State.linkAxis s x1 x2) := by
  unfold State.linkAxis
  try dsimp only
  repeat' (first
    | with_reducible assumption | with_reducible refine within_modTt ?_ _ _ | with_reducible refine within_forAll ?_ (fun _ _ _ => ?_)
    | with_reducible refine within_release ?_ _ | with_reducible refine within_flush ?_ _ _ _
    | with_reducible refine within_stopStored ?_ _ _ | with_reducible refine within_modCd ?_ _ _ | split
    | fail_if_no_progress (with_reducible refine within_mk (h := ?_)))

theorem within_linkLoss {s0 s : State} (h : Within false s0 s) : Within false s0 (State.linkLoss s) := by
  unfold State.linkLoss
  try dsimp only
  repeat' (first
    | with_reducible assumption | with_reducible refine within_settleEnd ?_ | with_reducible refine within_forAll ?_ (fun _ _ _ => ?_)
    | with_reducible refine within_unstart ?_ _ | with_reducible refine within_linkAxis ?_ _ _
    | with_reducible refine within_finishRejected ?_ _ _ | with_reducible refine within_flush ?_ _ _ _ | split
    | fail_if_no_progress (with_reducible refine within_mk (h := ?_))
    | fail_if_no_progress (with_reducible refine within_mk_any (h := ?_)))

theorem within_writeHeld {z : Bool} {s0 s : State} (h : Within z s0 s) (x1 : HeldRec) : Within z s0 (State.writeHeld s x1) := by
  unfold State.writeHeld
  try dsimp only
  repeat' (first
    | with_reducible assumption | with_reducible refine within_dropOf ?_ _ | with_reducible refine within_putRec ?_ _ _ _
    | with_reducible refine within_modCq ?_ _ _ | with_reducible refine within_writeEvent ?_ _ _ | split
    | fail_if_no_progress (with_reducible refine within_mk (h := ?_)))

theorem within_admitCommit {z : Bool} {s0 s : State} (h : Within z s0 s) (d : Desc) (bad : Refuse) (take : State → State)
    (ht : ∀ t, Within z s0 t → Within z s0 (take t)) : Within z s0 (State.admitCommit s d bad take) := by
  unfold State.admitCommit
  split
  · exact within_finish h _ _ _ _ _
  · exact within_finishOk (ht _ h) _ _ _ _

theorem within_tickDoorbell {z : Bool} {s0 s : State} (h : Within z s0 s) : Within z s0 (State.tickDoorbell s) := by
  unfold State.tickDoorbell
  try dsimp only
  repeat' (first
    | with_reducible assumption | with_reducible refine within_readDoorbell ?_ _ | split
    | fail_if_no_progress (with_reducible refine within_mk (h := ?_))
    | fail_if_no_progress (with_reducible refine within_mk_hif (h := ?_) ?_) | exact ⟨rfl, rfl, rfl⟩)

theorem within_tickRereads {z : Bool} {s0 s : State} (h : Within z s0 s) : Within z s0 (State.tickRereads s) := by
  unfold State.tickRereads
  try dsimp only
  repeat' (first
    | with_reducible assumption | with_reducible refine within_forAll ?_ (fun _ _ _ => ?_) | with_reducible refine within_modDesc ?_ _ _
    | with_reducible refine within_readSlot ?_ _ | with_reducible refine within_readList ?_ _ | split
    | fail_if_no_progress (with_reducible refine within_mk (h := ?_)))

theorem within_tickReturn {z : Bool} {s0 s : State} (h : Within z s0 s) : Within z s0 (State.tickReturn s) := by
  unfold State.tickReturn
  try dsimp only
  repeat' (first
    | with_reducible assumption | with_reducible refine within_readReturn ?_ _ | split
    | fail_if_no_progress (with_reducible refine within_mk (h := ?_))
    | fail_if_no_progress (with_reducible refine within_mk_hif (h := ?_) ?_) | exact ⟨rfl, rfl, rfl⟩)

theorem within_commitRefused {z : Bool} {s0 s : State} (h : Within z s0 s) (x1 : ℕ) : Within z s0 (State.commitRefused s x1) := by
  unfold State.commitRefused
  try dsimp only
  repeat' (first
    | with_reducible assumption | with_reducible refine within_finish ?_ _ _ _ _ _ | split
    | fail_if_no_progress (with_reducible refine within_mk (h := ?_)))

theorem within_dueEvents {s0 s : State} (h : Within false s0 s) (x : AxisId) : Within false s0 (State.dueEvents s x) := by
  have k := within_modAx h x fun a => { a with due := [], dropDue := 0 }
  exact within_foldl (within_ite k (within_dropDemand k _ _)) fun _ _ k => within_raise (within_ite (within_orReg k _ _) k) _ _ _ _

theorem within_parkTick {z : Bool} {s0 s : State} (h : Within z s0 s) (x1 : AxisId) : Within z s0 (State.parkTick s x1) := by
  unfold State.parkTick
  try dsimp only
  repeat' (first
    | with_reducible assumption | with_reducible refine within_parkNow ?_ _ | with_reducible refine within_modTt ?_ _ _ | split
    | fail_if_no_progress (with_reducible refine within_mk (h := ?_)))

theorem within_tickBlocks {z : Bool} {s0 s : State} (h : Within z s0 s) : Within z s0 (State.tickBlocks s) := by
  unfold State.tickBlocks
  try dsimp only
  repeat' (first
    | with_reducible assumption | with_reducible refine within_tickReturn ?_ | with_reducible refine within_tickDoorbell ?_ | split
    | fail_if_no_progress (with_reducible refine within_mk (h := ?_)))

theorem within_markHeads {z : Bool} {s0 s : State} (h : Within z s0 s) : Within z s0 (State.markHeads s) := by
  unfold State.markHeads
  try dsimp only
  repeat' (first
    | with_reducible assumption | split | fail_if_no_progress (with_reducible refine within_mk (h := ?_))
    | fail_if_no_progress (with_reducible refine within_mk_ord (h := ?_) ?_) | exact rfl)

theorem within_lateTimed {z : Bool} {s0 s : State} (h : Within z s0 s) : Within z s0 (State.lateTimed s) := by
  unfold State.lateTimed
  try dsimp only
  repeat' (first
    | with_reducible assumption | with_reducible refine within_forAll ?_ (fun _ _ _ => ?_)
    | with_reducible refine within_finish ?_ _ _ _ _ _ | split | fail_if_no_progress (with_reducible refine within_mk (h := ?_)))

theorem within_planAll {z : Bool} {s0 s : State} (h : Within z s0 s) : Within z s0 (State.planAll s) := by
  unfold State.planAll
  try dsimp only
  repeat' (first
    | with_reducible assumption | with_reducible refine within_forAll ?_ (fun _ _ _ => ?_)
    | with_reducible refine within_planFollow ?_ _ _ | with_reducible refine within_planProfile ?_ _ | split
    | fail_if_no_progress (with_reducible refine within_mk (h := ?_)))

theorem within_fullRings {z : Bool} {s0 s : State} (h : Within z s0 s) : Within z s0 (State.fullRings s) := by
  unfold State.fullRings
  try dsimp only
  repeat' (first
    | with_reducible assumption | with_reducible refine within_forAll ?_ (fun _ _ _ => ?_)
    | with_reducible refine within_raise ?_ _ _ _ _ | with_reducible refine within_modCq ?_ _ _ | split
    | fail_if_no_progress (with_reducible refine within_mk (h := ?_)))

theorem within_firstTick {z : Bool} {s0 s : State} (h : Within z s0 s) : Within z s0 (State.firstTick s) := by
  unfold State.firstTick
  try dsimp only
  repeat' (first
    | with_reducible assumption | with_reducible refine within_forAll ?_ (fun _ _ _ => ?_)
    | with_reducible refine within_raise ?_ _ _ _ _ | split | fail_if_no_progress (with_reducible refine within_mk (h := ?_)))

/-- A unit's safe state: its legs brake, the unit is marked, its bridges fall, and nothing else moves (R228). -/
theorem within_enterSafe {z : Bool} (s : State) (u : CarrierId) :
    Within z ((s.brakeFrom u).modCu u fun c => { c with safe := true }) (s.enterSafe u) :=
  within_forAll (Within.refl z _) fun _ _ k => within_bridgeFault k _

end Sys2Proof.Machine
end

