-- ==== Sys2Proof/WellFormed.lean ====
section
/-! DEFINITION. The well-formed commands: what the types of Syntax leave open and the spec fixes. Codes of the
converters have 12 bits (R193, R194), register offsets lie in the 4 MiB of BAR0 at a multiple of 4 (R391, R393),
the SRAM has 1 MiB (R405), a frame has at most 10,000 clocks (R16), and a read of host memory brings what it asked
for. The queue of a machine may hold any command; these predicates say which ones the hardware's surroundings give. -/

namespace Sys2Proof

/-- A converter code (R193): 12 bits. -/
def codeOk (n : Nat) : Bool := decide (n < 4096)

/-- Sixteen converter codes (R193). -/
def codesOk (l : List Nat) : Bool := decide (l.length = 16) && l.all codeOk

/-- A register offset (R391, R393). -/
def addrOk (a : Nat) : Bool := decide (a % 4 = 0) && decide (a < 0x400000)

/-- A word that a master reaches (R44, R391): one of BAR0, or, for a function of the host, of its BAR2, which the model places above
it (log 190). -/
def windowOk (m : Master) (a : Nat) : Bool :=
  addrOk a || ((m == .pf0 || m == .pf1) && decide (a % 4 = 0) && decide (0x400000 ≤ a) && decide (a < 0x401000))

/-- A clock of a frame (R16). -/
def clkOk (n : Nat) : Bool := decide (n < 10000)

/-- The bytes that a read of host memory brings are a multiple of `unit` and at most `most`. -/
def HostRead.ok (r : HostRead) (unit most : Nat) : Bool :=
  match r with
  | .data b => decide (b.length % unit = 0) && decide (b.length ≤ most) && decide (0 < b.length)
  | .failed e => decide (e ≠ 0)

/-- An item of a Consist image (R430): an aligned register offset. -/
def ConsistItem.ok : ConsistItem → Bool
  | .register a _ => addrOk a
  | .cardTable _ _ v => decide (v < 65536)
  | .axisParam .. => true
  | .cardParam .. => true

/-- What stands at the seven VM entries and the thirteen rails (R314, R327). -/
def suppliesOk (vm rail : List Nat) : Bool := decide (vm.length = 7) && decide (rail.length = 13)

/-- The supplies at the device carrier's peak, where they are given (R316). -/
def deviceOk (d : Option SupplyIn) : Bool := d.all fun p => suppliesOk p.vmMv p.railMv

/-- The edges of heavy legs, each at clocks of a frame (R249). -/
def edgesOk (l : List HeavyEdge) : Bool :=
  l.all fun e => clkOk e.gate && (match e.node with | some n => clkOk n | none => true)

/-- The outcome of a write to flash (R435): 24 cost figures (R33), a reason from 1 (R444). -/
def UpdResult.ok : UpdResult → Bool
  | .image _ c f => decide (c.length = 24) && decide (f.length = 7)
  | .consist i _ => i.all ConsistItem.ok
  | .staged _ b _ _ _ => decide (0 < b)
  | .failed r _ => decide (0 < r) && decide (r < 8)

/-- A line frame has at most 1,024 bytes (R344). -/
def lineBytesOk (b : List Byte) : Bool := decide (0 < b.length) && decide (b.length ≤ 1024)

/-- Is a command one that the hardware's surroundings can give? -/
def Instr.wellFormed : Instr → Bool
  | .frameTick t => suppliesOk t.vmMv t.railMv
  | .bayShadowLoad _ v => codesOk v.cur && codeOk v.vm && codeOk v.temp && edgesOk v.edges && edgesOk v.refreshed && deviceOk v.device
  | .bayPeakSample _ p => codesOk p.cur && codeOk p.vm && codeOk p.ref && deviceOk p.device
  | .captureRead m a => windowOk m a
  | .rcFieldRead m a => windowOk m a
  | .resultRegisterRead m a => windowOk m a
  | .registerWrite m a _ _ => windowOk m a
  | .wlWordWrite _ a _ _ => addrOk a
  | .sramApertureRead _ o _ => decide (o % 4 = 0) && decide (o < 0x100000)
  | .doorbellBlockReadDone r => r.ok 64 64
  | .returnBlockReadDone r => r.ok 128 128
  | .descriptorReadDone _ r => r.ok 64 512
  | .descriptorRefetchDone _ r => r.ok 64 64
  | .groupTargetListReadDone _ r => r.ok 4 800
  | .camLineReadDone _ _ r => r.ok 64 64
  | .coilWindowTrip _ _ _ t => clkOk t.clk && edgesOk t.edges
  | .parkedAxisProbe _ c => codeOk c
  | .vdsDetection _ _ c => clkOk c.val
  | .hardOvercurrent _ c => codeOk c.val
  | .fbStateChange _ _ _ k => clkOk k
  | .fbSincosConversion _ a b k => codeOk a && codeOk b && decide (k ≤ 10000)
  | .indexQualified _ z => decide (z.clk ≤ 10000)
  | .fbIndexConfigWrite _ a _ => addrOk a
  | .fbSoftLimitWrite _ a _ => addrOk a
  | .probeEdge _ _ c => clkOk c
  | .cmpThresholdWrite _ a _ => addrOk a
  | .lineStatusReceive _ f => lineBytesOk f.bytes
  | .lineArriveReceive _ b => lineBytesOk b
  | .lineSnapCmdReceive _ b => lineBytesOk b
  | .lineSnapDoneReceive _ b => lineBytesOk b
  | .tickMarkerReceive _ k => decide (k ≤ 10010)
  | .lineJoin j => decide (j.places.length ≤ 8) && j.places.all fun p => p.all fun n => decide (n < 8)
  | .lineResetReceive _ f => lineBytesOk f.bytes
  | .linePingReceive _ b p => lineBytesOk b && decide (p.clk ≤ 10000)
  | .wbEnergySample l => decide (l.length = 7)
  | .configParityFail a => addrOk a
  | .bayCalibrationEnd _ zr _ => decide (zr.length = 16)
  | .updWriteDone r => r.ok
  | .clockLoss _ | .pllRelock | .watchdogCheck _ | .frmAdmitGo _ _ | .admissionResult | .wdogFiredClear _ | .wdogTest _
  | .frmCountLoRead _ | .hostLinkDown | .hostLinkUp | .functionLevelReset _ | .perst | .hifKick _ | .sqEnable _ _ _
  | .sqDisable _ _ _ | .sqDrainDone _ | .cqEnable _ _ _ | .cqDisable _ _ _ | .eqEnable _ _ | .eqDisable _ _
  | .msixCoalesceTimeout _ | .enterOrdering _ | .nop _ | .moveAbs _ | .moveRel _ | .moveVel _ | .moveVelComplete _ | .stop _
  | .followStep _ | .followCam _ | .energize _ | .park _ | .fence _ | .fenceComplete _ | .barrier _ | .barrierArrive _
  | .barrierRelease _ | .snapshot _ | .snapshotComplete _ | .triggerArm _ | .maskSet _ | .identify _ | .identifyComplete _
  | .shaperIdentComplete _ _ _ | .setParam _ | .posSet _ | .grpDef _ | .trgDisarm _ | .groupMove _ | .consistSelect _
  | .consistSlotReadEnd _ | .moveComplete _ | .energisingRampEnd _ | .identREnd _ | .identLEnd _ | .energizeComplete _
  | .powerDownDelayEnd _ | .powerDownRampEnd _ | .standstillWindowEnd _ | .bootstrapRelease _ | .bootstrapReleaseTimeout _
  | .stepInputEdge _ _ | .stepPairOpen _ | .brSrcWrite _ _ _ | .bayCommitWrite _ _ _ | .legLatchRelease _ _ _ | .debugHalt _
  | .stoInputLow _ _ _ | .stoRelease _ | .stoDiscrepancy | .fastOvercurrent _ _ | .openLoadCountEnd _ | .bootstrapUndervoltage _
  | .gateSupplyFall _ | .gateSupplyRelease _ | .gateFeedbackMismatch _ _ _ | .fbWireCheckFail _ _ _
  | .fbChannelValid _ | .fbCfgWrite _ _ _ | .fbReval _ _ | .fbSetcnt _ _ | .fbSuspectClear _ _
  | .emuCfgWrite _ _ _ | .comparatorSweepStart | .cmpSweepWrite _ | .comparatorTestEnd _ | .vmEntryLoTrip _ | .vmEntryHiTrip _
  | .overvoltageMonitorTrip _ | .brakeChopperLimit _ | .railLoTrip _ | .railHiTrip _ | .granaryDeratingUpdate | .lineEnable _ _
  | .estopMarkerReceive _ _ _ | .lineCutOff | .linePortDown _ _ | .lineCtlReset _
  | .lineEpoch | .lineCtlEstop _ | .lineCtlEstopClr _ | .lineBarrierRelease _ | .wbRtcSecond | .wbCheckpoint _ | .wbStandbyCheck
  | .wbRtcGo _ | .tamperChange _ _ | .sealPadChange _ | .wbTblCommit _ | .wbInstall _ | .wbInstallVerifyDone _
  | .wbInstallWriteDone _ | .wbInstallCommitDone | .wbInstallRestartDone | .wbReqGo _ | .wbRecordReady | .wbSnap _
  | .wbSnapHoldEnd | .spiWriteTransaction _ | .spiReadTransaction _ | .spiResponseWrite _ _ | .spiLeave _ | .spiIdleTimeout
  | .spiBlockEnd | .scrubRead _ _ _ | .coreRestart _ | .parErrClear _ | .vauxRise _ | .vauxFall | .bootImageLoaded _ _
  | .softwareReset _ _ | .calibrationPassStart | .updCalGo _ _ | .updCapture _ _ | .updGo _ _ | .updSwitchGo _ _
  | .updBankCopyDone _ | .pwrPrep _ | .pwrPrepWithdraw _ | .pwrDone | .linePortUp _ | .stepPairRestore _ | .perstRelease
  | .debugHaltRelease _ | .wbSlowClockEdge | .vbatFall | .msixVectorUnmask _ _ => true

end Sys2Proof
end

