-- ==== Sys2Proof/Tests/Slice0.lean ====
section
/-! SUPPORT. Tests: worked examples of the spec, an ill-formed command for each check of WellFormed, and, for every statement with
hypotheses, states and operands that meet them, clause by clause. -/

set_option Elab.async false

namespace Sys2Proof.Tests

open Sys2Proof.Machine Sys2Proof.Safety

/-- A module whose boot is over and whose supplies, comparators and gates are released, in frame 1,000. -/
def live : State :=
  { State.reset with
    sys := { State.reset.sys with booted := true, gateOk := true, stoA := true, stoB := true },
    frm := { State.reset.frm with lock := true, started := true, count := 1000 },
    cu := State.reset.cu.map fun c => { c with calOk := true, cmpLo := 0, cmpHi := 0, unset := 0, unsetRst := 0, ov := false, ovUnset := false, regen := false, safe := false },
    cmp := { State.reset.cmp with railRel := 0x1FFF, railLo := 0, railHi := 0, vmLo := 0, vmHi := 0, vmUnset := 0, vmHiUnset := 0, vghLock := 0 },
    hif := { State.reset.hif with linkUp := true } }

/-- The live module without power. -/
def dark : State := { live with sys := { live.sys with powered := false } }

/-- The live module in frame `n`. -/
def liveAt (n : FrameNo) : State := { live with frm := { live.frm with count := n } }

/-- An entry of a submission ring (R64): its opcode, its axis byte, its flags, and its bytes from 16 on; the alive counter is 1. -/
def entry (op ax flags : Byte) (b : List Byte) : List Byte :=
  let h := [op, ax, 1, flags] ++ List.replicate 12 0 ++ b
  h ++ List.replicate (64 - h.length) 0

/-- An entry with its CRC. -/
def crcd (e : List Byte) : List Byte := e.take 60 ++ leBytes 4 (crc32c (e.take 60)).toNat

/-- A descriptor in the move queue with acceptance number `n`, on ring 0. -/
def desc (n : Nat) (e : List Byte) : Desc :=
  { live.newDesc 0 0 e with acc := n, accFrame := 990, rej := none, stage := .queued, headAt := some 990 }

/-- A descriptor that stands in effect. -/
def running (n : Nat) (e : List Byte) : Desc := { desc n e with stage := .effect, begun := true }

/-- A state with descriptors in the device. -/
def holdIn (s : State) (l : List Desc) : State := { s with ord := ⟨100, l, []⟩ }

/-- A state with axis 0 in a mode. -/
def inMode (s : State) (m : Mode) : State := s.modTt 0 fun t => { t with mode := m }

/-- Descriptor 5, alone in the queue of axis 0 in a mode. -/
def waiting (m : Mode) (e : List Byte) : State := inMode (holdIn live [desc 5 e]) m

/-- The live module with ring 0 running on an enabled completion ring. -/
def ringed : State := (live.modSq 0 fun q => { q with state := .running }).modCq 0 fun q => { q with enabled := true }

/-- Ring 0 with the read of one entry in flight, after an entry with alive counter `v`. -/
def fetching (v : Byte) : State := ringed.modSq 0 fun q => { q with flight := some (0, 1), lastAc := v }

/-- A sequence of an axis in its step, begun in frame `start`. -/
def seqOf (identify final boot : Bool) (start : FrameNo) : SeqSt := ⟨5, true, false, identify, false, final, start, 256, boot, 0⟩

/-- Axis 0 with a sequence in a phase, energised. -/
def sequencing (p : Phase) (q : SeqSt) : State :=
  (holdIn live [running 5 (entry 7 0 0 [])]).modCd 0 fun c => { c with phase := p, seq := some q }

/-- A line frame (R344) with its check. -/
def lineFr (type origin : Byte) (p : List Byte) : List Byte :=
  let h := [type, origin, 1, BitVec.ofNat 8 p.length] ++ List.replicate 8 0 ++ p
  h ++ leBytes 4 (crc32c h).toNat

/-- Station 1 of a line, in a state, which has heard of stations 0 and 2. -/
def onLine (m : LineMode) : State :=
  { live.setReg Adr.LINE_CFG 0x11 with
    line := { live.line with mode := m, up := 3, peers := live.line.peers.map fun p => { p with alive0 := some 0, alive1 := some 0 } } }

/-- Feedback channel 0 in a mode, with a state of its own. -/
def feeding (mode : Word) (f : FbChan → FbChan) : State := (live.setReg (Adr.FB_CFG 0) mode).modFbc 0 f

/-- A write of GCTL_SCRATCH over the service port (R397). -/
def spiScratch : List Byte :=
  let h : List Byte := [2, BitVec.ofNat 8 (Adr.GCTL_SCRATCH / 65536), BitVec.ofNat 8 (Adr.GCTL_SCRATCH / 256), BitVec.ofNat 8 Adr.GCTL_SCRATCH, 1, 7, 0, 0, 0]
  h ++ leBytes 4 (crc32c h).toNat

/-- The live module with its key set. -/
def keySet : State := { live with acc := { live.acc with locked := (List.range 4).map Adr.ACC_SPI_KEY } }

/-- A state that has got the low word of a response. -/
def given (s : State) (n : Nat) : State := { s with acc := { s.acc with respLo := BitVec.ofNat 32 n } }

/-- A descriptor that the Granary has granted for the next frame. -/
def granted (d : Desc) : Desc := { d with grantAt := some 1001 }

/-- A FOLLOW_CAM of axis 0 with a table of `n` points. -/
def camDesc (n : Nat) : Desc := granted (desc 5 (entry 6 0 0 (leBytes 8 0 ++ leBytes 4 n)))

/-- Axis 0 in HOLD with that descriptor at the head of its queue. -/
def camState (n : Nat) : State := inMode (holdIn live [camDesc n]) .hold


/-- A station of a line, in a state, with all of its axes parked. -/
def parkedOnLine (m : LineMode) : State := { onLine m with ax := live.ax.map fun a => { a with tt := { a.tt with mode := .parked } } }

/-- The live module with its motors' run current set on every card. -/
def carded : State := { live with cards := live.cards.map fun k => { k with act := { k.act with irun := 400 } } }


/-! ### Worked examples of the spec -/

/-- The check value of CRC-32C (R69): the digits 1 to 9. -/
theorem test_crc : crc32c [0x31, 0x32, 0x33, 0x34, 0x35, 0x36, 0x37, 0x38, 0x39] = 0xE3069283#32 := by decide +kernel

/-- The feeder frame on the legs (chapter 7): the on-times of duties −5,041 and −2,124 at 5,000 clocks. -/
theorem test_on_times : onsOf (-5041) (-2124) 5000 = ⟨2116, 2885, 2338, 2662⟩ := by decide +kernel

/-- The table of the feeder frame (chapter 6): the sine crosses zero at angle 512. -/
theorem test_sine_zero : CardHalf.reset.sAt (512 * 65536) = 0 := by decide +kernel

/-- The limits of the width axis (chapter 4): 12.5 microsteps a frame, ACC and DEC 2^-8 microstep a frame squared. -/
def widthLim : PLim := Limits.plim ⟨819200, 2 ^ 40, 2 ^ 40, 1, 1⟩ false

/-- A width change reversed at full speed (chapter 4): the stopping point beyond the new target. -/
theorem test_stop_point : stopPoint widthLim ⟨205000 * 65536, 819200, 0⟩ = 225000 := by decide +kernel

/-- The same example: 40,000 microsteps from rest take 6,400 frames, and the move to 400,000 from rest brakes as its table says. -/
theorem test_move_frames : framesTo widthLim ⟨205000 * 65536, 0, 0⟩ 165000 = 6400 := by decide +kernel

/-- The same example: a STOP with twice the deceleration at 6.25 microsteps a frame rests at 222,500 after 800 frames. -/
theorem test_stop_frames :
    stopPoint (Limits.plim ⟨819200, 2 ^ 40, 2 ^ 41, 1, 1⟩ false) ⟨220000 * 65536, 409600, 0⟩ = 222500 ∧
    framesStop (Limits.plim ⟨819200, 2 ^ 40, 2 ^ 41, 1, 1⟩ false) ⟨220000 * 65536, 409600, 0⟩ 222500 = 800 := by decide +kernel

/-- The index that arrives early (chapter 10): the count drops by 4,096 and LOST clears. -/
theorem test_index_early :
    (match exec (.indexQualified 3 ⟨true, 100⟩) ((((((live.setReg (Adr.FB_CFG 3) 1).setReg (Adr.FB_IDX_CFG 3) 3).setReg (Adr.FB_IDX_PERIOD 3) 262144).setReg
        (Adr.FB_IDX_TOL 3) 4096)).modFbc 3 fun h => { h with valid := true, refd := true, lost := true, count := 266240 }) with
      | .next t => decide ((t.fbc.get 3).count = 262144 ∧ (t.fbc.get 3).delta = 4096 ∧ (t.fbc.get 3).lost = false ∧ t.rb Adr.EVT_PEND_HI 5 = true)
      | _ => false) = true := by decide +kernel

/-- The stall filter (R272, R180): from 4/256, a raw value of 0 at SG_FILT 3 leaves 3.5/256, which rounds away from zero. -/
theorem test_filter_tie : filtStep true 4 0 3 = 4 := by decide

/-- The hot rear head (chapter 11): 112.0 °C in bay 21, with DS 100, DE 130 and DMIN 64, gives d_5 = 179. -/
theorem test_hot_tile :
    (fun s : State => s.derating (s.tileTemp 5)) ((live.setReg Adr.GRN_DER 0x40008264#32).modCu 21 fun c => { c with temps := [1792] }) = 179 := by
  decide +kernel

/-- The conveyor's record (chapter 2): the end of the move of axis 193 writes its 32 bytes, here up to the release count. -/
theorem test_conveyor_record :
    (match exec (.moveComplete 193)
        ((((holdIn { liveAt 4824002 with hif := { live.hif with linkUp := true } }
            [{ desc 5 (crcd (([2, 0xC1, 0x2A, 4, 0x1D, 0x0C, 1, 0] : List Byte) ++ List.replicate 56 0)) with
                ring := 3, count := 17, stage := .effect, begun := true, eff := 4812002 }]).modCq 3 fun q =>
              { q with enabled := true }).modSq 3 fun q => { q with state := .running, fcount := 18 }).modTt 193 fun t =>
          { t with mode := .position, running := .move 5, target := 1075200, effFrame := 4812002, fill := ⟨1075200 * 65536, 0, 0⟩,
                   u0 := ⟨1075200 * 65536, 0, 0⟩, o0 := ⟨1075200 * 65536, 0, 0⟩, o1 := ⟨1075200 * 65536, 0, 0⟩ }) with
      | .next t => t.out.any fun o => match o with
          | .dmaWrite _ _ b => b.take 27 == [0, 0xC1, 0x2A, 2, 0x1D, 0x0C, 1, 0, 0xC2, 0x9B, 0x49, 0, 0, 0, 0, 0, 0, 0x68, 0x10, 0, 0xE2, 0x6C, 0x49, 0,
              0x12, 0, 0]
          | _ => false
      | _ => false) = true := by decide +kernel

/-- The read of an IDENT result (chapter 14): the read of AXn_ID_STAT returns VALID, and clears it and nothing else. -/
theorem test_ident_read :
    (match exec (.rcFieldRead .pf0 (Adr.AX_ID_STAT 37)) (live.setReg (Adr.AX_ID_STAT 37) 0x82800000#32) with
      | .next t => decide (t.bus = 0x82800000#32 ∧ t.reg (Adr.AX_ID_STAT 37) = 0x02800000#32)
      | _ => false) = true := by decide +kernel

/-- No word spells a command: the table gives no row bits. -/
theorem test_no_bits (n w : Nat) : decodeTableWord n w = none := rfl

/-! ### Ill-formed commands -/

theorem test_ill_vm : (Instr.frameTick ⟨25, 0, [], List.replicate 13 0⟩).wellFormed = false := by decide
theorem test_ill_rails : (Instr.frameTick ⟨25, 0, List.replicate 7 0, []⟩).wellFormed = false := by decide
theorem test_ill_valley : (Instr.bayShadowLoad 0 ⟨List.replicate 15 0, 0, 0, 0, 0, [], [], none⟩).wellFormed = false := by decide
theorem test_ill_code : (Instr.bayPeakSample 0 ⟨List.replicate 16 4096, 0, 0, none⟩).wellFormed = false := by decide
theorem test_ill_vm_code : (Instr.bayPeakSample 0 ⟨List.replicate 16 0, 4096, 0, none⟩).wellFormed = false := by decide
theorem test_ill_edge : (Instr.bayShadowLoad 24 ⟨List.replicate 16 0, 0, 0, 0, 0, [⟨0, true, some 10000, 0⟩], [], none⟩).wellFormed = false := by decide
theorem test_ill_offset : (Instr.captureRead .pf0 2).wellFormed = false := by decide
theorem test_ill_bar : (Instr.registerWrite .spiAdmin 0x400000 15 0).wellFormed = false := by decide
theorem test_ill_refresh : (Instr.bayShadowLoad 24 ⟨List.replicate 16 0, 0, 0, 0, 0, [], [⟨0, true, none, 10000⟩], none⟩).wellFormed = false := by decide
theorem test_ill_device : (Instr.bayPeakSample 0 ⟨List.replicate 16 0, 0, 0, some ⟨[], []⟩⟩).wellFormed = false := by decide
theorem test_ill_index : (Instr.indexQualified 0 ⟨true, 10001⟩).wellFormed = false := by decide
theorem test_ill_place : (Instr.lineJoin ⟨0, [some 8]⟩).wellFormed = false := by decide
theorem test_ill_tick : (Instr.tickMarkerReceive 0 10011).wellFormed = false := by decide
theorem test_ill_bar2 : (Instr.registerWrite .pf0 0x401000 15 0).wellFormed = false := by decide
theorem test_ill_sram : (Instr.sramApertureRead .pf0 0x100000 .good).wellFormed = false := by decide
theorem test_ill_block : (Instr.doorbellBlockReadDone (.data [])).wellFormed = false := by decide
theorem test_ill_entry : (Instr.descriptorReadDone 0 (.data (List.replicate 63 0))).wellFormed = false := by decide
theorem test_ill_error : (Instr.descriptorRefetchDone 0 (.failed 0)).wellFormed = false := by decide
theorem test_ill_clock : (Instr.coilWindowTrip 0 0 true ⟨10000, [], false⟩).wellFormed = false := by decide
theorem test_ill_line : (Instr.lineStatusReceive 0 ⟨[], 0⟩).wellFormed = false := by decide
theorem test_ill_energy : (Instr.wbEnergySample []).wellFormed = false := by decide
theorem test_ill_zero : (Instr.bayCalibrationEnd 0 [] true).wellFormed = false := by decide
theorem test_ill_costs : (Instr.updWriteDone (.image 1 [] [])).wellFormed = false := by decide
theorem test_ill_item : (Instr.updWriteDone (.consist [.register 2 0] true)).wellFormed = false := by decide
theorem test_ill_reason : (Instr.updWriteDone (.failed 8 0)).wellFormed = false := by decide
theorem test_ill_package : (Instr.updWriteDone (.staged 0 0 false [] 0)).wellFormed = false := by decide
theorem test_well_formed : (Instr.registerWrite .pf0 0x3FFFFC 15 0).wellFormed = true := by decide


/-! ### Witnesses of the statements' hypotheses -/

/-- Bytes in little-endian order stay below the power of 256 that their number gives. -/
theorem leNat_lt (l : List Byte) : leNat l < 256 ^ l.length := by
  induction l with
  | nil => simp [leNat]
  | cons b l ih =>
    have hb : b.toNat < 256 := b.isLt
    simp only [leNat, List.length_cons, Nat.pow_succ] at *
    omega

/-- A descriptor that the Granary has granted for the next frame is granted without a change. -/
theorem granted_same (s : State) (d : Desc) (h : d.grantAt = some (s.frm.count + 1)) : (s.decideOne d).1 = s := by
  have n : s.needsGrant d = false := by simp [State.needsGrant, h]
  simp [State.decideOne, n]

/-- The answer to the challenge has 64 bits. -/
theorem spiAnswer_lt (s : State) : s.spiAnswer < 2 ^ 64 := by
  have h := leNat_lt ((hmacSha256 s.spiKey (leBytes 8 s.challenge)).take 8)
  have hl : ((hmacSha256 s.spiKey (leBytes 8 s.challenge)).take 8).length ≤ 8 := by simp [List.length_take]
  exact Nat.lt_of_lt_of_le h (Nat.le_trans (Nat.pow_le_pow_right (by omega) hl) (by decide))

theorem witness_StepRunsFrontCommand :
    (∃ (c : Instr) (rest : List Instr) (s : State), s.pending = c :: rest) ∧
    (∃ (s : State), s.pending = []) :=
  ⟨⟨.pllRelock, [], { live with pending := [.pllRelock] }, by decide +kernel⟩,
   ⟨live, by decide +kernel⟩⟩

theorem witness_CanonicalKept : ∃ (s : State) (t : State), Canonical s ∧ step s = .next t :=
  ⟨{ live with pending := [.pllRelock] }, live, by unfold Canonical; decide +kernel, rfl⟩

theorem witness_AcceptanceOrderKept : ∃ (s : State) (t : State), Ordered s ∧ step s = .next t :=
  ⟨{ holdIn live [desc 3 (entry 0 0 0 []), desc 5 (entry 0 0 0 [])] with pending := [.pllRelock] }, holdIn live [desc 3 (entry 0 0 0 []),
      desc 5 (entry 0 0 0 [])], by unfold Ordered; decide +kernel, rfl⟩

theorem witness_QueueAndOutputs : ∃ (c : Instr) (s : State) (t : State), exec c s = .next t :=
  ⟨.pllRelock, live, live, rfl⟩

theorem witness_FrameTickCountsOne :
    (∃ (s : State), s.sys.powered = true ∧ s.sys.booted = true ∧ s.frm.lock = true) ∧
    (∃ (s : State), (s.sys.powered = false ∨ s.sys.booted = false ∨ s.frm.lock = false)) :=
  ⟨⟨live, by decide +kernel⟩,
   ⟨State.reset, by decide +kernel⟩⟩

theorem witness_QuietBetweenTicks :
    (∃ (c : Instr) (s : State) (t : State), unquiet c = false ∧ exec c s = .next t) ∧
    (∃ (c : Instr) (s : State) (t : State) (a : Nat), unquiet c = false ∧ exec c s = .next t ∧ a ∈ s.acc.locked) :=
  ⟨⟨.pllRelock, live, live, by decide +kernel, rfl⟩,
   ⟨.pllRelock, { live with acc := { live.acc with locked := [Adr.ACC_OPT] } }, { live with acc := { live.acc with locked := [Adr.ACC_OPT] } }, Adr.ACC_OPT, by decide +kernel, rfl, by decide +kernel⟩⟩

theorem witness_ClockLossAndRelock :
    (∃ (s : State), s.sys.powered = true ∧ s.frm.lock = true ∧ s.frm.outage = none) ∧
    (∃ (s : State) (c : Nat), s.sys.powered = true ∧ s.frm.lock = true ∧ s.frm.outage = some c) ∧
    (∃ (s : State), s.sys.powered = true ∧ s.frm.lock = false) ∧
    (∃ (s : State) (c : Nat), s.sys.powered = true ∧ s.frm.outage = some c) ∧
    (∃ (s : State), s.sys.powered = true ∧ s.frm.outage = none) :=
  ⟨⟨live, by decide +kernel⟩,
   ⟨{ live with frm := { live.frm with outage := some 1 } }, 1, by decide +kernel⟩,
   ⟨State.reset, by decide +kernel⟩,
   ⟨{ live with frm := { live.frm with outage := some 1 } }, 1, by decide +kernel⟩,
   ⟨live, by decide +kernel⟩⟩

theorem witness_FrameWatchdog :
    (∃ (s : State) (u : Nat), s.carriers = true ∧ s.refsFailed = some u) ∧
    (∃ (s : State) (v : CarrierId) (k : Nat), s.carriers = true ∧ s.dutiesFailed v = some k) ∧
    (∃ (s : State), s.refsFailed = none) ∧
    (∃ (s : State) (v : CarrierId), s.dutiesFailed v = none) ∧
    (∃ (s : State) (m : Master), s.sys.powered = true ∧ m ≠ .spiOpen) ∧
    (∃ (s : State) (m : Master), s.sys.powered = true ∧ m.admin = true) ∧
    (∃ (s : State), s.sys.powered = true) :=
  ⟨⟨live, 0, by decide +kernel⟩,
   ⟨(live.modCu 0 fun c => { c with afterPeak := true }), 0, 8, by decide +kernel⟩,
   ⟨{ live with frm := { live.frm with refsOk := 0x7F } }, by decide +kernel⟩,
   ⟨live, 24, by decide +kernel⟩,
   ⟨live, .pf1, by decide +kernel⟩,
   ⟨live, .spiAdmin, by decide +kernel⟩,
   ⟨live, by decide +kernel⟩⟩

theorem witness_Admission :
    (∃ (s : State) (m : Master) (w : Word), s.sys.powered = true ∧ m.admin = true ∧ bitOf w 0 = true ∧ s.admBusy = false) ∧
    (∃ (s : State) (m : Master) (w : Word), s.sys.powered = true ∧ m.admin = true ∧ bitOf w 0 = true ∧ s.admBusy = true) ∧
    (∃ (s : State), ((∀ r ∈ s.frm.adm, frameLe (r.frame + 2) s.frm.count = false))) ∧
    (∃ (s : State) (r : AdmReq) (rate : Fin 4) (hvy : BitVec 3) (ofs : List (BitVec 3)) (slack : Nat), s.frm.adm.find? (fun q => frameLe (q.frame + 2) s.frm.count) = some r ∧ r.kind = .go rate hvy ofs slack ∧ s.verdictOf s.admCfg r = .accepted) ∧
    (∃ (s : State) (r : AdmReq) (rate : Fin 4) (hvy : BitVec 3) (ofs : List (BitVec 3)) (slack : Nat), s.frm.adm.find? (fun q => frameLe (q.frame + 2) s.frm.count) = some r ∧ r.kind = .go rate hvy ofs slack ∧ s.verdictOf s.admCfg r ≠ .accepted) ∧
    (∃ (s : State) (r : AdmReq) (v : AdmVerdict), s.frm.adm = [r] ∧ s.dropped r.kind = false ∧ frameLe (r.frame + 1) s.frm.count = true ∧
        s.verdictOf s.admCfg r = v) :=
  ⟨⟨live, .pf0, 1, by decide +kernel⟩,
   ⟨{ live with frm := { live.frm with adm := [⟨.go 0 0 [] 0, 1000, none⟩] } }, .pf0, 1, by decide +kernel⟩,
   ⟨{ live with frm := { live.frm with adm := [⟨.line, 999, none⟩] } }, by decide +kernel⟩,
   ⟨{ live with frm := { live.frm with adm := [⟨(.go 0 0 (List.replicate 24 0) 8), 998, none⟩] } }, ⟨(.go 0 0 (List.replicate 24 0) 8), 998, none⟩, 0, 0, List.replicate 24 0, 8, by decide +kernel⟩,
   ⟨inMode { live with frm := { live.frm with adm := [⟨(.go 3 0 (List.replicate 24 0) 8), 998, none⟩] } } .hold, ⟨(.go 3 0 (List.replicate 24 0) 8), 998, none⟩, 3, 0, List.replicate 24 0, 8, by decide +kernel⟩,
   ⟨{ live with frm := { live.frm with adm := [⟨(.go 0 0 (List.replicate 24 0) 8), 999, none⟩] } }, ⟨(.go 0 0 (List.replicate 24 0) 8), 999, none⟩, .accepted, by decide +kernel⟩⟩

theorem witness_RegisterReads :
    (∃ (s : State) (m : Master) (a : Nat) (c : Instr), c ∈ [.captureRead m a, .rcFieldRead m a, .resultRegisterRead m a] ∧
        inBar a = true ∧ (a < 0x200000 ∨ 0x300000 ≤ a) ∧ s.sys.powered = true ∧ s.maySee m a = true ∧ s.capOf m a = none) ∧
    (∃ (s : State) (m : Master) (a : Nat) (c : Instr) (v : Word), c ∈ [.captureRead m a, .rcFieldRead m a, .resultRegisterRead m a] ∧
        inBar a = true ∧ (a < 0x200000 ∨ 0x300000 ≤ a) ∧ s.sys.powered = true ∧ s.maySee m a = true ∧ s.capOf m a = some v) :=
  ⟨⟨live, .pf0, Adr.FRM_CFG, .captureRead .pf0 Adr.FRM_CFG, by decide +kernel⟩,
   ⟨{ live with caps := [⟨Master.pf0.code, Adr.FRM_COUNT_HI, 7⟩] }, .pf0, Adr.FRM_COUNT_HI, .rcFieldRead .pf0 Adr.FRM_COUNT_HI, 7,
       by decide +kernel⟩⟩

theorem witness_FrameCountCopy :
    (∃ (s : State) (m : Master), s.sys.powered = true ∧ m ≠ .spiOpen) ∧
    (∃ (s : State) (m : Master) (v : Word), s.sys.powered = true ∧ m ≠ .spiOpen ∧ s.capOf m Adr.FRM_COUNT_HI = some v) ∧
    (∃ (s : State) (m : Master), s.sys.powered = true ∧ m ≠ .spiOpen ∧ s.capOf m Adr.FRM_COUNT_HI = none) ∧
    (∃ (m : Master) (k : Master) (a : Nat) (c : Instr), c ∈ [.captureRead k a, .rcFieldRead k a, .resultRegisterRead k a] ∧
        inBar a = true ∧ (a ≠ Adr.FRM_COUNT_LO ∨ k ≠ m)) :=
  ⟨⟨live, .pf1, by decide +kernel⟩,
   ⟨{ live with caps := [⟨Master.pf0.code, Adr.FRM_COUNT_HI, 7⟩] }, .pf0, 7, by decide +kernel⟩,
   ⟨{ live with caps := [⟨Master.pf0.code, Adr.FRM_COUNT_HI, 7⟩] }, .pf1, by decide +kernel⟩,
   ⟨.pf0, .pf1, Adr.FRM_COUNT_LO, .resultRegisterRead .pf1 Adr.FRM_COUNT_LO, by decide +kernel⟩⟩

theorem witness_RegisterWrites :
    (∃ (s : State) (m : Master) (a : Nat) (be : BitVec 4), inBar a = true ∧ be ≠ 15 ∧ s.sys.powered = true ∧ m ≠ .spiOpen) ∧
    (∃ (s : State) (a : Nat), inBar a = true ∧ s.sys.powered = false) ∧
    (∃ (s : State) (m : Master), s.sys.powered = true ∧ m ≠ .spiOpen) ∧
    (∃ (s : State) (m : Master), s.sys.powered = true ∧ m.admin = true) ∧
    (∃ (s : State), s.sys.powered = true) :=
  ⟨⟨live, .pf1, 0x3FFFFC, 14, by decide +kernel⟩,
   ⟨dark, 0, by decide +kernel⟩,
   ⟨live, .pf1, by decide +kernel⟩,
   ⟨live, .spiAdmin, by decide +kernel⟩,
   ⟨live, by decide +kernel⟩⟩

theorem witness_LockedWords :
    (∃ (s : State) (m : Master) (a : Nat), s.sys.powered = true ∧ inBar a = true ∧ isWl a = true ∧ m.admin = true ∧
        s.acc.locked.contains a = false) ∧
    (∃ (s : State) (m : Master) (a : Nat), s.sys.powered = true ∧ inBar a = true ∧ isWl a = true ∧ m.admin = true ∧
        s.acc.locked.contains a = true) ∧
    (∃ (s : State) (m : Master) (a : Nat), s.sys.powered = true ∧ inBar a = true ∧ isWl a = true ∧ m = .pf1) :=
  ⟨⟨live, .pf0, Adr.ACC_OPT, by decide +kernel⟩,
   ⟨{ live with acc := { live.acc with locked := [Adr.ACC_OPT] } }, .pf0, Adr.ACC_OPT, by decide +kernel⟩,
   ⟨live, .pf1, Adr.ACC_SPI_KEY 3, by decide +kernel⟩⟩

theorem witness_SramProtection :
    (∃ (s : State) (m : Master) (o : Nat), s.sys.powered = true ∧ o < 0x100000 ∧ ((m ≠ .pf0 ∨ s.rb Adr.ACC_OPT 1 = false))) ∧
    (∃ (s : State) (o : Nat), s.sys.powered = true ∧ o < 0x100000 ∧ s.rb Adr.ACC_OPT 1 = true) ∧
    (∃ (s : State) (o : Nat), s.sys.powered = true ∧ o < 0x100000 ∧ s.rb Adr.ACC_OPT 1 = true) ∧
    (∃ (s : State), s.sys.powered = true) ∧
    (∃ (s : State), s.sys.powered = true) ∧
    (∃ (s : State) (u : Fin 7), s.sys.powered = true ∧ s.upd.restart.getLsbD u = true) ∧
    (∃ (s : State) (u : Fin 7), s.sys.powered = true ∧ s.upd.restart.getLsbD u = false) :=
  ⟨⟨live, .pf1, 0xFFFFF, by decide +kernel⟩,
   ⟨live.setReg Adr.ACC_OPT 2, 0xFFFFF, by decide +kernel⟩,
   ⟨live.setReg Adr.ACC_OPT 2, 0x30000, by decide +kernel⟩,
   ⟨live, by decide +kernel⟩,
   ⟨live, by decide +kernel⟩,
   ⟨{ live with upd := { live.upd with restart := 64 } }, 6, by decide +kernel⟩,
   ⟨live, 0, by decide +kernel⟩⟩

theorem witness_HostLinkAndReset :
    (∃ (s : State), s.hif.linkUp = true) ∧
    (∃ (s : State), s.hif.linkUp = false) ∧
    (∃ (s : State), s.hif.linkUp = false ∧ s.hif.perst = false ∧ s.sys.powered = true) ∧
    (∃ (s : State), (s.hif.linkUp = true ∨ s.hif.perst = true ∨ s.sys.powered = false)) ∧
    (∃ (s : State), s.hif.perst = true) ∧
    (∃ (s : State), s.hif.perst = false) :=
  ⟨⟨live, by decide +kernel⟩,
   ⟨State.reset, by decide +kernel⟩,
   ⟨State.reset, by decide +kernel⟩,
   ⟨live, by decide +kernel⟩,
   ⟨{ State.reset with hif := { State.reset.hif with perst := true } }, by decide +kernel⟩,
   ⟨live, by decide +kernel⟩⟩

theorem witness_RingEnables :
    (∃ (s : State) (m : Master) (q : RingId) (w : Word), Acts s m (Adr.HIF_CQ_CFG q) 0 ∧ bitOf w 28 = true ∧ (s.cq.get q).enabled = false) ∧
    (∃ (s : State) (m : Master) (q : RingId) (w : Word), Acts s m (Adr.HIF_CQ_CFG q) 0 ∧ bitOf w 28 = false ∧
        (s.cq.get q).enabled = true ∧ (s.sq.get q).state ≠ .disabled) ∧
    (∃ (s : State) (m : Master) (q : RingId) (w : Word), Acts s m (Adr.HIF_CQ_CFG q) 0 ∧ bitOf w 28 = false ∧
        ((s.cq.get q).enabled = false ∨ ((s.sq.get q).state = .disabled ∧
        differIn (s.written m (Adr.HIF_CQ_CFG q) w) (s.reg (Adr.HIF_CQ_CFG q)) cqFixed = false))) ∧
    (∃ (s : State) (m : Master) (q : RingId) (w : Word), Acts s m (Adr.HIF_SQ_CFG q) 0 ∧ bitOf w 28 = true ∧
        (s.sq.get q).state = .disabled ∧ (s.cq.get q).enabled = true) ∧
    (∃ (s : State) (m : Master) (q : RingId) (w : Word), Acts s m (Adr.HIF_SQ_CFG q) 0 ∧ bitOf w 28 = true ∧
        (s.sq.get q).state = .disabled ∧ (s.cq.get q).enabled = false) ∧
    (∃ (s : State) (m : Master) (q : RingId) (w : Word), Acts s m (Adr.HIF_SQ_CFG q) 0 ∧ (s.sq.get q).state ≠ .disabled ∧
        (s.sq.get q).state ≠ .draining ∧ bitOf w 28 = false ∧
        differIn (s.written m (Adr.HIF_SQ_CFG q) w) (s.reg (Adr.HIF_SQ_CFG q)) sqFixed = false) ∧
    (∃ (s : State) (m : Master) (q : RingId) (w : Word), Acts s m (Adr.HIF_SQ_CFG q) 0 ∧ (s.sq.get q).state = .disabled ∧
        bitOf w 28 = false) ∧
    (∃ (s : State) (q : RingId), (s.sq.get q).state = .draining ∧ ((∀ d ∈ s.ord.descs, d.ring ≠ q ∨ d.mute = true))) ∧
    (∃ (s : State) (q : RingId), (s.sq.get q).state ≠ .draining) ∧
    (∃ (s : State) (m : Master) (w : Word), Acts s m Adr.HIF_EQ_CFG 0 ∧ bitOf w 28 = true ∧ s.eq.enabled = false) ∧
    (∃ (s : State) (m : Master) (w : Word), Acts s m Adr.HIF_EQ_CFG 0 ∧ bitOf w 28 = false ∧
        (s.eq.enabled = false ∨ differIn (s.written m Adr.HIF_EQ_CFG w) (s.reg Adr.HIF_EQ_CFG) cqFixed = false)) ∧
    (∃ (w : Word), bitOf w 28 = false) ∧
    (∃ (w : Word), bitOf w 28 = true) :=
  ⟨⟨live, .pf0, 15, 0x1000100A#32, by unfold Acts; decide +kernel⟩,
   ⟨ringed, .pf0, 0, 8, by unfold Acts; decide +kernel⟩,
   ⟨live.modCq 15 (fun q => { q with enabled := true }), .pf0, 15, 6, by unfold Acts; decide +kernel⟩,
   ⟨live.modCq 15 (fun q => { q with enabled := true }), .pf0, 15, 0x10000006#32, by unfold Acts; decide +kernel⟩,
   ⟨live, .pf0, 15, 0x10000010#32, by unfold Acts; decide +kernel⟩,
   ⟨ringed.setReg (Adr.HIF_SQ_CFG 0) 0x10000010#32, .pf0, 0, 16, by unfold Acts; decide +kernel⟩,
   ⟨live, .pf0, 2, 16, by unfold Acts; decide +kernel⟩,
   ⟨live.modSq 2 (fun q => { q with state := .draining }), 2, by decide +kernel⟩,
   ⟨live, 2, by decide +kernel⟩,
   ⟨live, .pf0, 0x10001008#32, by unfold Acts; decide +kernel⟩,
   ⟨live, .pf0, 8, by unfold Acts; decide +kernel⟩,
   ⟨8, by decide +kernel⟩,
   ⟨0x10000008#32, by decide +kernel⟩⟩

theorem witness_HostTraffic :
    (∃ (s : State) (m : Master), Acts s m 0x20008 0 ∧ s.hif.linkUp = true ∧ s.hif.dbFlight = []) ∧
    (∃ (s : State) (m : Master), Acts s m 0x20008 0 ∧ s.hif.linkUp = true ∧ s.hif.dbFlight ≠ []) ∧
    (∃ (s : State) (f : BlockRead) (l : List BlockRead), s.hif.dbFlight = f :: l) ∧
    (∃ (s : State) (b : List Byte) (q : RingId) (f : BlockRead) (l : List BlockRead), s.hif.dbFlight = f :: l ∧
        (s.sq.get q).state = .running ∧ s.pcountOk q (BitVec.setWidth 24 (wd (u32 b (4 * q.val)))) = true ∧ (s.sq.get q).fresh = 0) ∧
    (∃ (s : State) (b : List Byte) (q : RingId) (f : BlockRead) (l : List BlockRead), s.hif.dbFlight = f :: l ∧
        (s.sq.get q).state = .running ∧ s.pcountOk q (BitVec.setWidth 24 (wd (u32 b (4 * q.val)))) = true ∧ (s.sq.get q).fresh = 1) ∧
    (∃ (s : State), s.hif.dbFlight = []) ∧
    (∃ (s : State) (f : BlockRead) (l : List BlockRead), s.hif.rbFlight = f :: l) ∧
    (∃ (s : State) (b : List Byte) (q : RingId), s.hif.rbFlight ≠ [] ∧ (s.cq.get q).enabled = true ∧ (s.cq.get q).waiting = [] ∧
        headOk (s.cq.get q).wcount (s.cq.get q).head (BitVec.setWidth 24 (wd (u32 b (4 * q.val)))) (s.cqSize q) = true) ∧
    (∃ (s : State), s.hif.rbFlight = []) ∧
    (∃ (s : State) (q : RingId), s.coalesced (s.reg (Adr.HIF_CQ_CFG q)) (s.cq.get q).oldest = true) ∧
    (∃ (s : State) (q : RingId), s.coalesced (s.reg (Adr.HIF_CQ_CFG q)) (s.cq.get q).oldest = false) :=
  ⟨⟨live, .pf0, by unfold Acts; decide +kernel⟩,
   ⟨{ live with hif := { live.hif with dbFlight := [⟨true, 1⟩] } }, .pf0, by unfold Acts; decide +kernel⟩,
   ⟨{ live with hif := { live.hif with dbFlight := [⟨true, 1⟩] } }, ⟨true, 1⟩, [], by decide +kernel⟩,
   ⟨{ ringed with hif := { live.hif with dbFlight := [⟨true, 1⟩] } }, leBytes 4 1 ++ List.replicate 60 0, 0, ⟨true, 1⟩, [],
       by decide +kernel⟩,
   ⟨{ (ringed.modSq 0 fun q => { q with fresh := 1 }) with hif := { live.hif with dbFlight := [⟨true, 1⟩] } }, leBytes 4 1 ++ List.replicate 60 0, 0, ⟨true, 1⟩, [], by decide +kernel⟩,
   ⟨live, by decide +kernel⟩,
   ⟨{ live with hif := { live.hif with rbFlight := [⟨true, 1⟩] } }, ⟨true, 1⟩, [], by decide +kernel⟩,
   ⟨{ (ringed.modCq 0 fun q => { q with wcount := 1 }) with hif := { live.hif with rbFlight := [⟨true, 1⟩] } }, leBytes 4 1 ++ List.replicate 124 0, 0, by decide +kernel⟩,
   ⟨live, by decide +kernel⟩,
   ⟨(live.setReg (Adr.HIF_CQ_CFG 15) 0xA00000#32).modCq 15 (fun q => { q with oldest := some 990 }), 15, by decide +kernel⟩,
   ⟨(live.setReg (Adr.HIF_CQ_CFG 15) 0xA00000#32).modCq 15 (fun q => { q with oldest := some 991 }), 15, by decide +kernel⟩⟩

theorem witness_Acceptance :
    (∃ (s : State) (q : RingId) (c : BitVec 24) (b : List Byte), (s.sq.get q).flight = some (c, 1) ∧ (s.sq.get q).wait = false ∧
        (s.sq.get q).state = .running ∧ s.cqOpen q = true ∧ b.length = 64 ∧ crc32c (b.take 60) ≠ wd (u32 b 60)) ∧
    (∃ (s : State) (q : RingId) (c : BitVec 24) (b : List Byte), (s.sq.get q).flight = some (c, 1) ∧ (s.sq.get q).wait = false ∧
        (s.sq.get q).state = .running ∧ s.cqOpen q = true ∧ b.length = 64 ∧ crc32c (b.take 60) = wd (u32 b 60) ∧
        (((b.getD 2 0 - (s.sq.get q).lastAc).toNat) = 0 ∨ 129 ≤ ((b.getD 2 0 - (s.sq.get q).lastAc).toNat))) ∧
    (∃ (s : State) (q : RingId) (c : BitVec 24) (b : List Byte), (s.sq.get q).flight = some (c, 1) ∧ (s.sq.get q).wait = false ∧
        (s.sq.get q).state = .running ∧ s.cqOpen q = true ∧ b.length = 64 ∧ crc32c (b.take 60) = wd (u32 b 60) ∧
        2 ≤ ((b.getD 2 0 - (s.sq.get q).lastAc).toNat) ∧ ((b.getD 2 0 - (s.sq.get q).lastAc).toNat) ≤ 128) ∧
    (∃ (s : State) (q : RingId) (c : BitVec 24) (b : List Byte), (s.sq.get q).flight = some (c, 1) ∧ (s.sq.get q).wait = false ∧
        (s.sq.get q).state = .running ∧ s.cqOpen q = true ∧ b.length = 64 ∧ crc32c (b.take 60) = wd (u32 b 60) ∧
        ((b.getD 2 0 - (s.sq.get q).lastAc).toNat) = 1) ∧
    (∃ (s : State) (q : RingId) (c : BitVec 24) (b : List Byte), (s.sq.get q).flight = some (c, 1) ∧ (s.sq.get q).wait = false ∧
        (s.sq.get q).state = .running ∧ s.cqOpen q = true ∧ b.length = 64) :=
  ⟨⟨fetching 0, 0, 0, entry 0 0 0 [], by decide +kernel⟩,
   ⟨fetching 0x80, 0, 0, crcd (entry 0 0 0 []), by decide +kernel⟩,
   ⟨fetching 0x81, 0, 0, crcd (entry 0 0 0 []), by decide +kernel⟩,
   ⟨fetching 0, 0, 0, crcd (entry 0 0 0 []), by decide +kernel⟩,
   ⟨fetching 0, 0, 0, entry 0 0 0 [], by decide +kernel⟩⟩

theorem witness_EnteringOrdering :
    (∃ (s : State) (q : RingId), s.firstStaged q = none) ∧
    (∃ (s : State) (q : RingId) (d : Desc), s.firstStaged q = some d ∧ s.gated d.ring d.acc = true) ∧
    (∃ (s : State) (q : RingId) (d : Desc), s.firstStaged q = some d ∧ d.op ≠ 0x10 ∧ s.roomFor d = false) ∧
    (∃ (s : State) (q : RingId) (d : Desc), Ordered s ∧ s.firstStaged q = some d ∧ d.op ≠ 0x10 ∧ s.gated d.ring d.acc = false ∧
        s.roomFor d = true ∧ ((∀ e ∈ s.ord.descs, e.ring = q → e.stage = .staged → e.acc = d.acc))) ∧
    (∃ (s : State) (n : Nat) (k : Nat) (d : Desc) (b : List Byte), s.desc? n = some d ∧ d.refetch = true ∧ d.tries = some k ∧
        b.length = 64 ∧ d.readAt = BitVec.allOnes 64 ∧ crc32c (b.take 60) = wd (u32 b 60) ∧ b.getD 2 0 = d.bytes.getD 2 0) ∧
    (∃ (s : State) (n : Nat) (k : Nat) (d : Desc) (b : List Byte), s.desc? n = some d ∧ d.refetch = true ∧ d.tries = some k ∧
        b.length = 64 ∧ d.readAt = BitVec.allOnes 64 ∧ (crc32c (b.take 60) ≠ wd (u32 b 60) ∨ b.getD 2 0 ≠ d.bytes.getD 2 0)) ∧
    (∃ (s : State) (n : Nat) (k : Nat) (d : Desc) (b : List Byte), s.desc? n = some d ∧ d.refetch = true ∧ d.tries = some k ∧
        b.length = 64 ∧ d.readAt = BitVec.allOnes 64 ∧ k = 0) ∧
    (∃ (s : State) (n : Nat) (k : Nat) (d : Desc) (b : List Byte), s.desc? n = some d ∧ d.refetch = true ∧ d.tries = some k ∧
        b.length = 64 ∧ d.readAt = BitVec.allOnes 64 ∧ 0 < k) ∧
    (∃ (s : State) (n : Nat) (k : Nat) (d : Desc) (b : List Byte), s.desc? n = some d ∧ d.refetch = true ∧ d.tries = some k ∧
        b.length = 64 ∧ d.readAt ≠ BitVec.allOnes 64) ∧
    (∃ (s : State) (n : Nat), s.desc? n = none) :=
  ⟨⟨live, 15, by decide +kernel⟩,
   ⟨holdIn live [desc 4 (entry 9 0 0 []), { desc 5 (entry 3 0 0 []) with stage := .staged }], 0, { desc 5 (entry 3 0 0 []) with stage := .staged }, by decide +kernel⟩,
   ⟨holdIn live ((List.range 64).map (fun i => desc i (entry 3 0 0 [])) ++ [{ { desc 5 (entry 3 0 0 []) with stage := .staged } with acc := 70 }]), 0, { { desc 5 (entry 3 0 0 []) with stage := .staged } with acc := 70 }, by decide +kernel⟩,
   ⟨holdIn live [{ desc 5 (entry 3 0 0 []) with stage := .staged }], 0, { desc 5 (entry 3 0 0 []) with stage := .staged },
       by unfold Ordered; decide +kernel⟩,
   ⟨holdIn live [{ desc 5 (entry 3 0 0 []) with refetch := true, tries := some 3, readAt := BitVec.allOnes 64 }], 5, 3, { desc 5 (entry 3 0 0 []) with refetch := true, tries := some 3, readAt := BitVec.allOnes 64 }, crcd (entry 3 0 0 [9]), by decide +kernel⟩,
   ⟨holdIn live [{ desc 5 (entry 3 0 0 []) with refetch := true, tries := some 3, readAt := BitVec.allOnes 64 }], 5, 3, { desc 5 (entry 3 0 0 []) with refetch := true, tries := some 3, readAt := BitVec.allOnes 64 }, entry 3 0 0 [], by decide +kernel⟩,
   ⟨holdIn live [{ { desc 5 (entry 3 0 0 []) with refetch := true, tries := some 3, readAt := BitVec.allOnes 64 } with tries := some 0 }], 5, 0, { { desc 5 (entry 3 0 0 []) with refetch := true, tries := some 3, readAt := BitVec.allOnes 64 } with tries := some 0 }, entry 3 0 0 [], by decide +kernel⟩,
   ⟨holdIn live [{ desc 5 (entry 3 0 0 []) with refetch := true, tries := some 3, readAt := BitVec.allOnes 64 }], 5, 3, { desc 5 (entry 3 0 0 []) with refetch := true, tries := some 3, readAt := BitVec.allOnes 64 }, entry 3 0 0 [], by decide +kernel⟩,
   ⟨holdIn live [{ { desc 5 (entry 3 0 0 []) with refetch := true, tries := some 3, readAt := BitVec.allOnes 64 } with readAt := 999 }], 5, 3, { { desc 5 (entry 3 0 0 []) with refetch := true, tries := some 3, readAt := BitVec.allOnes 64 } with readAt := 999 }, entry 3 0 0 [], by decide +kernel⟩,
   ⟨live, 5, by decide +kernel⟩⟩

theorem witness_TakesEffect :
    (∃ (s : State) (n : Nat) (op : Nat) (d : Desc), Due s n op d) ∧
    (∃ (s : State) (n : Nat) (op : Nat) (d : Desc), Due s n op d ∧ (d.held.isNone = true ∨ d.holdTold = true)) ∧
    (∃ (s : State) (n : Nat) (op : Nat) (d : Desc), Due s n op d ∧ s.needsGrant d = true ∧ d.held.isSome = true ∧ d.holdTold = false) ∧
    (∃ (s : State) (n : Nat) (op : Nat) (d : Desc) (x : AxisId), Due s n op d ∧ d.replaces = false ∧ x ∉ d.touches) ∧
    (∃ (s : State) (n : Nat) (d : Desc) (x : AxisId) (e : Desc), s.desc? n = some d ∧ d.stage = .effect ∧ d.repl = true ∧ x ∈ d.axes ∧
        e ∈ (s.settle n).queueOf x) ∧
    (∃ (s : State) (n : Nat) (d : Desc) (x : AxisId) (f : FaultInfo), s.desc? n = some d ∧ d.stage = .effect ∧ x ∈ d.axes ∧
        (s.ax.get x).tt.faulted = some f ∧ d.clears f = true) ∧
    (∃ (s : State) (n : Nat) (d : Desc) (e : Desc), s.desc? n = some d ∧ d.stage = .effect ∧ d.out.isSome = true ∧
        e ∈ (s.settle n).ord.descs ∧ e.acc = n) :=
  ⟨⟨(waiting .hold (entry 1 0 0 [])), 5, 1, (desc 5 (entry 1 0 0 [])), by unfold Due; decide +kernel⟩,
   ⟨(waiting .hold (entry 1 0 0 [])), 5, 1, (desc 5 (entry 1 0 0 [])), by unfold Due; decide +kernel⟩,
   ⟨inMode (holdIn carded [{ (desc 5 (entry 7 0 0 [])) with held := some 1000 }]) .parked, 5, 7, { (desc 5 (entry 7 0 0 [])) with held := some 1000 }, by unfold Due; decide +kernel⟩,
   ⟨(waiting .hold (entry 1 0 0 [])), 5, 1, (desc 5 (entry 1 0 0 [])), 199, by unfold Due; decide +kernel⟩,
   ⟨(inMode (holdIn live [desc 4 (entry 3 0 0 []), { running 5 (entry 1 0 0 []) with eff := 1000, repl := true, begun := false }]) .hold), 5, { running 5 (entry 1 0 0 []) with eff := 1000, repl := true, begun := false }, 0, { { running 5 (entry 1 0 0 []) with eff := 1000, repl := true, begun := false } with repl := false }, by decide +kernel⟩,
   ⟨(inMode (holdIn live [{ running 5 (entry 4 0 0 []) with eff := 1000, begun := false }]) .hold).modTt 0 (fun t => { t with faulted := some ⟨20, 980⟩ }), 5, { running 5 (entry 4 0 0 []) with eff := 1000, begun := false }, 0, ⟨20, 980⟩, by decide +kernel⟩,
   ⟨((holdIn live [{ running 5 (entry 1 0 0 []) with eff := 1000, out := some (0, 0, 0), begun := false }]).modCq 0 (fun q => { q with enabled := true, wcount := 0x10000 })), 5, { running 5 (entry 1 0 0 []) with eff := 1000, out := some (0, 0, 0), begun := false }, { { running 5 (entry 1 0 0 []) with eff := 1000, out := some (0, 0, 0), begun := false } with stage := .recordWaits }, by decide +kernel⟩⟩

theorem witness_CompletionRecord : ∃ (s : State) (n : Nat) (d : Desc), s.desc? n = some d ∧ d.op = 0 ∧ d.rej = none ∧ d.refetch = false ∧
    (d.stage = .staged ∨ d.stage = .queued) ∧ d.isQuiet = false ∧ d.mute = false ∧ (s.cq.get d.ring).enabled = true ∧
    s.hif.linkUp = true ∧ s.cqFull d.ring = false ∧ (s.cq.get d.ring).waiting = [] :=
  ⟨holdIn ringed [(desc 5 (entry 0 0 0 []))], 5, (desc 5 (entry 0 0 0 [])), by decide +kernel⟩

theorem witness_FencesAndBarriers :
    (∃ (s : State) (n : Nat) (d : Desc), Due s n 9 d) ∧
    (∃ (s : State) (n : Nat) (d : Desc), s.desc? n = some d ∧ d.op = 9 ∧ d.stage = .effect ∧ d.begun = true ∧
        ((∀ e ∈ s.ord.descs, s.fenceRings d e.ring = true → e.acc < d.acc → e.stage = .recordWaits ∨ e.mute = true))) ∧
    (∃ (s : State) (n : Nat) (d : Desc) (e : Desc), s.desc? n = some d ∧ d.op = 9 ∧ d.stage = .effect ∧ d.begun = true ∧
        e ∈ s.ord.descs ∧ s.fenceRings d e.ring = true ∧ e.acc < d.acc ∧ e.stage ≠ .recordWaits ∧ e.mute = false) ∧
    (∃ (s : State) (n : Nat), s.desc? n = none) ∧
    (∃ (s : State) (n : Nat) (d : Desc), Due s n 0xA d) ∧
    (∃ (s : State) (n : Nat) (d : Desc), s.desc? n = some d ∧ d.op = 0xA ∧ d.waits = true ∧ d.arrived = none ∧
        s.doneBefore d.acc (· == d.ring) = true ∧ u8 d.bytes 21 ≠ 1 ∧ ((∀ b ∈ s.ord.barriers, b.id ≠ (wd (u32 d.bytes 16)))) ∧
        (openIds s.ord.barriers).length < 64) ∧
    (∃ (s : State) (n : Nat) (d : Desc), s.desc? n = some d ∧ d.op = 0xA ∧ d.waits = true ∧ d.arrived = none ∧
        s.doneBefore d.acc (· == d.ring) = true ∧ u8 d.bytes 21 ≠ 1 ∧ ((∀ b ∈ s.ord.barriers, b.id ≠ (wd (u32 d.bytes 16)))) ∧
        64 ≤ (openIds s.ord.barriers).length) ∧
    (∃ (s : State) (n : Nat) (d : Desc) (l : List OpenBarrier) (r : List OpenBarrier) (b : OpenBarrier), s.desc? n = some d ∧
        d.op = 0xA ∧ d.waits = true ∧ d.arrived = none ∧ s.doneBefore d.acc (· == d.ring) = true ∧ u8 d.bytes 21 ≠ 1 ∧
        s.ord.barriers = l ++ b :: r ∧ ((∀ c ∈ l, c.id ≠ (wd (u32 d.bytes 16)))) ∧ b.id = (wd (u32 d.bytes 16)) ∧
        b.parts = (u8 d.bytes 20) ∧ b.full = none) ∧
    (∃ (s : State) (n : Nat) (d : Desc) (l : List OpenBarrier) (r : List OpenBarrier) (b : OpenBarrier), s.desc? n = some d ∧
        d.op = 0xA ∧ d.waits = true ∧ d.arrived = none ∧ s.doneBefore d.acc (· == d.ring) = true ∧ u8 d.bytes 21 ≠ 1 ∧
        s.ord.barriers = l ++ b :: r ∧ ((∀ c ∈ l, c.id ≠ (wd (u32 d.bytes 16)))) ∧ b.id = (wd (u32 d.bytes 16)) ∧
        b.parts ≠ (u8 d.bytes 20)) ∧
    (∃ (s : State) (n : Nat) (d : Desc), s.desc? n = some d ∧ d.op = 0xA ∧ d.waits = true ∧ d.arrived = none ∧
        s.doneBefore d.acc (· == d.ring) = true ∧ u8 d.bytes 21 = 1 ∧ s.line.mode ≠ .isolated) ∧
    (∃ (s : State) (n : Nat) (d : Desc), s.desc? n = some d ∧ d.op = 0xA ∧ d.waits = true ∧ d.arrived = none ∧
        s.doneBefore d.acc (· == d.ring) = true ∧ u8 d.bytes 21 = 1 ∧ s.line.mode = .isolated) ∧
    (∃ (s : State) (b : OpenBarrier) (f : FrameNo), s.ord.barriers = [b] ∧ b.full = some f ∧ frameLt f s.frm.count = true) ∧
    (∃ (s : State) (i : Word), ((∀ b ∈ s.ord.barriers, b.id = i → b.full.any (fun f => frameLt f s.frm.count) = false))) :=
  ⟨⟨(waiting .hold (entry 9 0 0 [])), 5, (desc 5 (entry 9 0 0 [])), by unfold Due; decide +kernel⟩,
   ⟨holdIn live [(running 5 (entry 9 0 0 []))], 5, (running 5 (entry 9 0 0 [])), by decide +kernel⟩,
   ⟨holdIn ringed [desc 4 (entry 3 0 0 []), (running 5 (entry 9 0 0 []))], 5, (running 5 (entry 9 0 0 [])), desc 4 (entry 3 0 0 []),
       by decide +kernel⟩,
   ⟨live, 5, by decide +kernel⟩,
   ⟨(waiting .hold (entry 10 0 0 [])), 5, (desc 5 (entry 10 0 0 [])), by unfold Due; decide +kernel⟩,
   ⟨{ live with ord := ⟨100, [running 5 (entry 10 0 0 [7, 0, 0, 0, 2, 0])], []⟩ }, 5, (running 5 (entry 10 0 0 [7, 0, 0, 0, 2, 0])),
       by decide +kernel⟩,
   ⟨{ live with ord := ⟨100, [running 5 (entry 10 0 0 [7, 0, 0, 0, 2, 0])], (List.range 64).map fun i => ⟨BitVec.ofNat 32 (i + 8), 2, [], none⟩⟩ }, 5, (running 5 (entry 10 0 0 [7, 0, 0, 0, 2, 0])), by decide +kernel⟩,
   ⟨{ live with ord := ⟨100, [running 5 (entry 10 0 0 [7, 0, 0, 0, 2, 0])], [⟨3, 2, [], none⟩, ⟨7, 2, [], none⟩]⟩ }, 5, (running 5 (entry 10 0 0 [7, 0, 0, 0, 2, 0])), [⟨3, 2, [], none⟩], [], ⟨7, 2, [], none⟩, by decide +kernel⟩,
   ⟨{ live with ord := ⟨100, [running 5 (entry 10 0 0 [7, 0, 0, 0, 2, 0])], [⟨7, 3, [], none⟩]⟩ }, 5, (running 5 (entry 10 0 0 [7, 0, 0, 0, 2, 0])), [], [], ⟨7, 3, [], none⟩, by decide +kernel⟩,
   ⟨holdIn live [(running 5 (entry 10 0 0 [7, 0, 0, 0, 2, 1]))], 5, (running 5 (entry 10 0 0 [7, 0, 0, 0, 2, 1])), by decide +kernel⟩,
   ⟨{ holdIn live [(running 5 (entry 10 0 0 [7, 0, 0, 0, 2, 1]))] with line := { live.line with mode := .isolated } }, 5, (running 5 (entry 10 0 0 [7, 0, 0, 0, 2, 1])), by decide +kernel⟩,
   ⟨{ live with ord := ⟨100, [], [⟨7, 1, [], some 999⟩]⟩ }, ⟨7, 1, [], some 999⟩, 999, by decide +kernel⟩,
   ⟨{ live with ord := ⟨100, [], [⟨7, 1, [], some 1000⟩]⟩ }, 7, by decide +kernel⟩⟩

theorem witness_Snapshots :
    (∃ (s : State) (n : Nat) (d : Desc), Due s n 0xB d ∧ u8 d.bytes 57 ≠ 1 ∧ u64 d.bytes 16 = 0) ∧
    (∃ (s : State) (n : Nat) (d : Desc), Due s n 0xB d ∧ u8 d.bytes 57 ≠ 1 ∧ (s.frm.count + 2).toNat ≤ u64 d.bytes 16) ∧
    (∃ (s : State) (n : Nat) (d : Desc), Due s n 0xB d ∧ u8 d.bytes 57 ≠ 1 ∧ u64 d.bytes 16 ≠ 0 ∧
        u64 d.bytes 16 < (s.frm.count + 2).toNat) ∧
    (∃ (s : State) (n : Nat) (d : Desc), s.desc? n = some d ∧ d.op = 0xB ∧ d.stage = .effect ∧ d.snapDone = true ∧ u8 d.bytes 57 ≠ 1 ∧
        frameLe s.frm.count (d.snapF + d.snapBy) = false) ∧
    (∃ (s : State) (n : Nat) (d : Desc), s.desc? n = some d ∧ d.op = 0xB ∧ d.stage = .effect ∧ d.snapDone = true ∧ u8 d.bytes 57 ≠ 1 ∧
        frameLe s.frm.count (d.snapF + d.snapBy) = true) ∧
    (∃ (s : State) (n : Nat) (d : Desc), s.desc? n = some d ∧ d.op = 0xB ∧ d.stage = .effect ∧ d.snapDone = true ∧ u8 d.bytes 57 = 1 ∧
        frameLt s.frm.count (d.snapF + d.snapBy + 2) = true) ∧
    (∃ (s : State) (n : Nat) (d : Desc), s.desc? n = some d ∧ d.op = 0xB ∧ d.stage = .effect ∧ d.snapDone = true ∧ u8 d.bytes 57 = 1 ∧
        frameLt s.frm.count (d.snapF + d.snapBy + 2) = false ∧ ((∀ i : Fin 8, i.val ≠ s.station → s.line.present.getLsbD i = true →
        ∃ r ∈ (s.line.reports s.station d.snapF), r.station = i.val))) ∧
    (∃ (s : State) (n : Nat) (d : Desc) (i : Fin 8), s.desc? n = some d ∧ d.op = 0xB ∧ d.stage = .effect ∧ d.snapDone = true ∧
        u8 d.bytes 57 = 1 ∧ frameLt s.frm.count (d.snapF + d.snapBy + 2) = false ∧ i.val ≠ s.station ∧ s.line.present.getLsbD i = true ∧
        ((∀ r ∈ (s.line.reports s.station d.snapF), r.station ≠ i.val))) :=
  ⟨⟨(waiting .hold (entry 11 0 0 [])), 5, (desc 5 (entry 11 0 0 [])), by unfold Due; decide +kernel⟩,
   ⟨waiting .hold (entry 11 0 0 (leBytes 8 1002)), 5, desc 5 (entry 11 0 0 (leBytes 8 1002)), by unfold Due; decide +kernel⟩,
   ⟨waiting .hold (entry 11 0 0 (leBytes 8 1001)), 5, desc 5 (entry 11 0 0 (leBytes 8 1001)), by unfold Due; decide +kernel⟩,
   ⟨holdIn live [{ (running 5 (entry 11 0 0 [])) with snapDone := true, snapF := 999 }], 5, { (running 5 (entry 11 0 0 [])) with snapDone := true, snapF := 999 }, by decide +kernel⟩,
   ⟨holdIn live [{ (running 5 (entry 11 0 0 [])) with snapDone := true, snapF := 1000 }], 5, { (running 5 (entry 11 0 0 [])) with snapDone := true, snapF := 1000 }, by decide +kernel⟩,
   ⟨holdIn (onLine .joined) [{ running 5 (entry 11 0 0 (List.replicate 41 0 ++ [1])) with snapDone := true, snapF := 999 }], 5, { running 5 (entry 11 0 0 (List.replicate 41 0 ++ [1])) with snapDone := true, snapF := 999 }, by decide +kernel⟩,
   ⟨{ holdIn (onLine .joined) [{ running 5 (entry 11 0 0 (List.replicate 41 0 ++ [1])) with snapDone := true, snapF := 998 }] with line := { (onLine .joined).line with present := 6, dones := [⟨1, 998, 2, true, 3⟩] } }, 5, { running 5 (entry 11 0 0 (List.replicate 41 0 ++ [1])) with snapDone := true, snapF := 998 }, by decide +kernel⟩,
   ⟨{ holdIn (onLine .joined) [{ running 5 (entry 11 0 0 (List.replicate 41 0 ++ [1])) with snapDone := true, snapF := 998 }] with line := { (onLine .joined).line with present := 6 } }, 5, { running 5 (entry 11 0 0 (List.replicate 41 0 ++ [1])) with snapDone := true, snapF := 998 }, 2, by decide +kernel⟩⟩

theorem witness_Moves : ∃ (s : State) (n : Nat) (d : Desc) (x : AxisId) (p : Nat × Instr × Int), d.axis? = some x ∧
    p ∈ [(1, Instr.moveAbs n, (0 : Int)), (2, Instr.moveRel n, s.relBase x)] ∧ Due s n p.1 d :=
  ⟨(waiting .hold (entry 2 0 0 [])), 5, (desc 5 (entry 2 0 0 [])), 0, (2, Instr.moveRel 5, ((waiting .hold (entry 2 0 0 []))).relBase 0),
      by unfold Due; decide +kernel⟩

theorem witness_VelocityMoves : ∃ (s : State) (n : Nat) (d : Desc) (x : AxisId), Due s n 3 d ∧ d.axis? = some x :=
  ⟨(waiting .hold (entry 3 0 0 [])), 5, (desc 5 (entry 3 0 0 [])), 0, by unfold Due; decide +kernel⟩

theorem witness_StopsAndParks : ∃ (s : State) (n : Nat) (d : Desc) (x : AxisId) (p : Nat × Instr × Nat), d.axis? = some x ∧
    p ∈ [(4, Instr.stop n, u8 d.bytes 16), (8, Instr.park n, 1)] ∧ Due s n p.1 d :=
  ⟨(waiting .position (entry 8 0 0 [])), 5, (desc 5 (entry 8 0 0 [])), 0, (8, Instr.park 5, 1), by unfold Due; decide +kernel⟩

theorem witness_MotionEnds :
    (∃ (s : State) (x : AxisId) (n : Nat), ((s.ax.get x).now).tt.running = .move n ∧
        frameLe ((s.ax.get x).now).tt.effFrame s.frm.count = true ∧ ((s.ax.get x).now).fol = none ∧ s.inEffect n = true ∧
        ((s.ax.get x).now).tt.reversal = none ∧
        restedAt ((s.ax.get x).now).tt.o1 ((s.ax.get x).now).tt.u1 ((s.ax.get x).now).tt.target = true) ∧
    (∃ (s : State) (x : AxisId) (n : Nat), ((s.ax.get x).now).tt.running = .move n ∧
        frameLe ((s.ax.get x).now).tt.effFrame s.frm.count = true ∧ ((s.ax.get x).now).fol = none ∧
        restedAt ((s.ax.get x).now).tt.o1 ((s.ax.get x).now).tt.u1 ((s.ax.get x).now).tt.target = false) ∧
    (∃ (s : State) (x : AxisId) (n : Nat), (s.ax.get x).back = [] ∧ ((s.ax.get x).now).tt.running = .stop (some n) 1 ∧
        frameLe ((s.ax.get x).now).tt.effFrame s.frm.count = true ∧ ((s.ax.get x).now).fol = none ∧
        ((s.ax.get x).now).tt.mode ≠ .parked ∧ ((s.ax.get x).now).tt.modeNext = none ∧ s.inEffect n = true ∧
        restedTogether ((s.ax.get x).now).tt.o1 ((s.ax.get x).now).tt.u1 = true) ∧
    (∃ (s : State) (x : AxisId), ((s.ax.get x).now).tt.running = .none) ∧
    (∃ (s : State) (x : AxisId), ((s.ax.get x).now).tt.running = .none ∧ ((s.ax.get x).now).tt.mode ≠ .position ∧
        ((s.ax.get x).now).tt.mode ≠ .velocity) ∧
    (∃ (s : State) (x : AxisId), ((s.ax.get x).now).tt.running = .none ∧
        (((s.ax.get x).now).tt.mode = .position ∨ ((s.ax.get x).now).tt.mode = .velocity) ∧ ((s.ax.get x).now).tt.reversal = none ∧
        restedAt ((s.ax.get x).now).tt.o1 ((s.ax.get x).now).tt.u1 ((s.ax.get x).now).tt.target = true ∧
        frameLe ((s.ax.get x).now).tt.effFrame s.frm.count = true ∧ ((s.ax.get x).now).fol = none ∧ (s.ax.get x).back = [] ∧
        ((s.ax.get x).now).tt.modeNext = none) ∧
    (∃ (s : State) (x : AxisId) (n : Nat) (v : Nat) (neg : Bool) (w : Int), ((s.ax.get x).now).tt.running = .vel (some n) v neg ∧
        ((s.ax.get x).now).tt.goal = .velocity w ∧ v ≠ 0 ∧ s.inEffect n = true ∧ ((s.ax.get x).now).tt.o1.v = w ∧
        ((s.ax.get x).now).tt.u1.v = w ∧ (s.ax.get x).back = []) ∧
    (∃ (s : State) (x : AxisId) (n : Nat) (v : Nat) (neg : Bool) (w : Int), ((s.ax.get x).now).tt.running = .vel (some n) v neg ∧
        ((s.ax.get x).now).tt.goal = .velocity w ∧ v ≠ 0 ∧ (((s.ax.get x).now).tt.o1.v ≠ w ∨ ((s.ax.get x).now).tt.u1.v ≠ w)) :=
  ⟨⟨((holdIn live [running 5 (entry 1 0 0 [])]).modTt 0 fun t => { t with mode := .position, running := .move 5 }), 0, 5,
      by decide +kernel⟩,
   ⟨((holdIn live [running 5 (entry 1 0 0 [])]).modTt 0 fun t => { t with mode := .position, running := .move 5 }).modTt 0 (fun t => { t with target := 1 }), 0, 5, by decide +kernel⟩,
   ⟨(holdIn live [running 5 (entry 4 0 0 [])]).modTt 0 (fun t => { t with mode := .position, running := .stop (some 5) 1 }), 0, 5,
       by decide +kernel⟩,
   ⟨live, 199, by decide +kernel⟩,
   ⟨live, 199, by decide +kernel⟩,
   ⟨inMode live .position, 0, by decide +kernel⟩,
   ⟨(holdIn live [(running 5 (entry 3 0 0 []))]).modTt 0 (fun t => { t with running := .vel (some 5) 1 false, goal := .velocity 655360, o1 := ⟨0, 655360, 0⟩, hist := [⟨0, 655360, 0⟩, ⟨0, 655360, 0⟩, ⟨0, 655360, 0⟩] }), 0, 5, 1, false, 655360, by decide +kernel⟩,
   ⟨(holdIn live [(running 5 (entry 3 0 0 []))]).modTt 0 (fun t => { t with running := .vel (some 5) 1 false, goal := .velocity 655360, o1 := ⟨0, 655359, 0⟩ }), 0, 5, 1, false, 655360, by decide +kernel⟩⟩

theorem witness_FollowsSteps : ∃ (s : State) (n : Nat) (d : Desc) (x : AxisId), Due s n 5 d ∧ d.axis? = some x :=
  ⟨waiting .hold (entry 5 0 2 []), 5, (desc 5 (entry 5 0 2 [])), 0, by unfold Due; decide +kernel⟩

theorem witness_Cams :
    (∃ (s : State) (n : Nat) (d : Desc) (x : AxisId) (o : Nat) (v : Nat), Due s n 6 d ∧ d.axis? = some x ∧ (s.decideOne d).1 = s ∧
        s.camRefusal ((((s.ax.get x).ahead).getD d.camStore).note) = some (o, v)) ∧
    (∃ (s : State) (n : Nat) (d : Desc) (x : AxisId) (i : Nat), Due s n 6 d ∧ d.axis? = some x ∧ (s.decideOne d).1 = s ∧
        s.camRefusal ((((s.ax.get x).ahead).getD d.camStore).note) = none ∧
        ((((s.ax.get x).ahead).getD d.camStore).note).camDemand (((((s.ax.get x).ahead).getD d.camStore).note).first * 65536) = .inr i) ∧
    (∃ (s : State) (n : Nat) (d : Desc) (x : AxisId) (i : Int), Due s n 6 d ∧ d.axis? = some x ∧ (s.decideOne d).1 = s ∧
        s.camRefusal ((((s.ax.get x).ahead).getD d.camStore).note) = none ∧
        ((((s.ax.get x).ahead).getD d.camStore).note).camDemand (((((s.ax.get x).ahead).getD d.camStore).note).first * 65536) = .inl i) ∧
    (∃ (s : State) (x : AxisId) (l : Nat) (b : List Byte) (f : FollowSt), (s.ax.get x).fol = some f ∧ f.asked.contains l = true ∧
        b.length = 64) ∧
    (∃ (s : State) (x : AxisId) (l : Nat) (b : List Byte) (f : FollowSt), (s.ax.get x).fol = none ∧ (s.ax.get x).ahead = some f ∧
        f.asked.contains l = true ∧ b.length = 64) ∧
    (∃ (s : State) (x : AxisId) (l : Nat) (f : FollowSt), (s.ax.get x).fol = some f ∧ f.asked.contains l = true) ∧
    (∃ (s : State) (x : AxisId), (s.ax.get x).fol = none ∧ (s.ax.get x).ahead = none) :=
  ⟨⟨camState 8388609, 5, camDesc 8388609, 0, 24, 8388608, by unfold Due; decide +kernel,
      by decide +kernel, granted_same _ _ (by decide +kernel), by decide +kernel⟩,
   ⟨camState 16, 5, camDesc 16, 0, 0, by unfold Due; decide +kernel, by decide +kernel, granted_same _ _ (by decide +kernel),
       by decide +kernel, by decide +kernel⟩,
   ⟨(camState 16).modAx 0 (fun a => { a with ahead := some { (camDesc 16).camStore with lines := [(0, List.replicate 16 7)] } }), 5, camDesc 16, 0, 0, by unfold Due; decide +kernel, by decide +kernel, granted_same _ _ (by decide +kernel), by decide +kernel, by decide +kernel⟩,
   ⟨live.modAx 0 (fun a => { a with fol := some { ((desc 5 (entry 6 0 0 []))).camStore with asked := [3] } }), 0, 3, List.replicate 64 1, { ((desc 5 (entry 6 0 0 []))).camStore with asked := [3] }, by decide +kernel⟩,
   ⟨live.modAx 0 (fun a => { a with ahead := some { ((desc 5 (entry 6 0 0 []))).camStore with asked := [3] } }), 0, 3, List.replicate 64 1, { ((desc 5 (entry 6 0 0 []))).camStore with asked := [3] }, by decide +kernel⟩,
   ⟨live.modAx 0 (fun a => { a with fol := some { ((desc 5 (entry 6 0 0 []))).camStore with asked := [3] } }), 0, 3, { ((desc 5 (entry 6 0 0 []))).camStore with asked := [3] }, by decide +kernel⟩,
   ⟨live, 0, by decide +kernel⟩⟩

theorem witness_SetsParametersAndPosition :
    (∃ (s : State) (n : Nat) (d : Desc), Due s n 0xF d ∧ d.plans = false ∧
        paramOf (u16 d.bytes 16) ∉ [some .posSet, some .grpDef, some .trgDisarm]) ∧
    (∃ (s : State) (n : Nat) (d : Desc) (i : Fin 16), Due s n 0xF d ∧ paramOf (u16 d.bytes 16) = some (.tt i) ∧ u8 d.bytes 19 ≠ 1) ∧
    (∃ (s : State) (n : Nat) (d : Desc) (i : Fin 16), Due s n 0xF d ∧ paramOf (u16 d.bytes 16) = some (.tt i) ∧ u8 d.bytes 19 = 1 ∧
        (((onset s d).stage (d.paramAxis) 0 (.tt i) (paramValue (.tt i) d.bytes) d.bytes).ttRefusal (d.paramAxis) (((onset s d).ax.get (d.paramAxis)).stg.put i (paramValue (.tt i) d.bytes))) ≠ none) ∧
    (∃ (s : State) (n : Nat) (d : Desc) (i : Fin 16), Due s n 0xF d ∧ paramOf (u16 d.bytes 16) = some (.tt i) ∧ u8 d.bytes 19 = 1 ∧
        (((onset s d).stage (d.paramAxis) 0 (.tt i) (paramValue (.tt i) d.bytes) d.bytes).ttRefusal (d.paramAxis) (((onset s d).ax.get (d.paramAxis)).stg.put i (paramValue (.tt i) d.bytes))) = none ∧ (((onset s d).ax.get (d.paramAxis)).stg.put i (paramValue (.tt i) d.bytes)).costs ((onset s d).ax.get (d.paramAxis)).act = false) ∧
    (∃ (s : State) (n : Nat) (d : Desc) (i : Fin 16), Due s n 0xF d ∧ paramOf (u16 d.bytes 16) = some (.tt i) ∧ u8 d.bytes 19 = 1 ∧
        (((onset s d).stage (d.paramAxis) 0 (.tt i) (paramValue (.tt i) d.bytes) d.bytes).ttRefusal (d.paramAxis) (((onset s d).ax.get (d.paramAxis)).stg.put i (paramValue (.tt i) d.bytes))) = none ∧ (((onset s d).ax.get (d.paramAxis)).stg.put i (paramValue (.tt i) d.bytes)).costs ((onset s d).ax.get (d.paramAxis)).act = true) ∧
    (∃ (s : State) (n : Nat) (d : Desc) (i : Fin 4), Due s n 0xF d ∧ paramOf (u16 d.bytes 16) = some (.coil i) ∧
        (u8 d.bytes 19 ≠ 1 ∨ (((onset s d).stage (d.paramAxis) 0 (.coil i) (paramValue (.coil i) d.bytes) d.bytes).coilRefusal n (d.paramAxis) (((onset s d).ax.get (d.paramAxis)).coilS.put i (paramValue (.coil i) d.bytes).toNat)) ≠ none)) ∧
    (∃ (s : State) (n : Nat) (d : Desc) (i : Fin 4), Due s n 0xF d ∧ paramOf (u16 d.bytes 16) = some (.coil i) ∧ u8 d.bytes 19 = 1 ∧
        (((onset s d).stage (d.paramAxis) 0 (.coil i) (paramValue (.coil i) d.bytes) d.bytes).coilRefusal n (d.paramAxis) (((onset s d).ax.get (d.paramAxis)).coilS.put i (paramValue (.coil i) d.bytes).toNat)) = none) ∧
    (∃ (s : State) (n : Nat) (d : Desc), s.desc? n = some d ∧ paramOf (u16 d.bytes 16) ∈ [some .posSet, some .grpDef, some .trgDisarm]) ∧
    (∃ (d : Desc), d.op = 0xF ∧ paramOf (u16 d.bytes 16) = some .qlow) ∧
    (∃ (d : Desc), d.op = 0xF ∧ paramOf (u16 d.bytes 16) = some .lagmax) ∧
    (∃ (d : Desc) (i : Fin 2), d.op = 0xF ∧ paramOf (u16 d.bytes 16) = some (.sg i)) ∧
    (∃ (d : Desc) (i : Fin 2) (y : AxisId), d.op = 0xF ∧ paramOf (u16 d.bytes 16) = some (.sg i) ∧ y ≠ (d.paramAxis)) ∧
    (∃ (d : Desc) (i : Fin 6), d.op = 0xF ∧ paramOf (u16 d.bytes 16) = some (.fb i)) ∧
    (∃ (d : Desc) (i : Fin 6) (y : AxisId), d.op = 0xF ∧ paramOf (u16 d.bytes 16) = some (.fb i) ∧ y ≠ (d.paramAxis)) ∧
    (∃ (s : State) (d : Desc) (i : Fin 6), d.op = 0xF ∧ paramOf (u16 d.bytes 16) = some (.fb i) ∧
        (u8 d.bytes 19 ≠ 1 ∨ ((s.stage (d.paramAxis) (cardIx (u8 d.bytes 18)) (.fb i) (paramValue (.fb i) d.bytes) d.bytes).fbRefusal (d.paramAxis) ((s.ax.get (d.paramAxis)).fbS.put i (paramValue (.fb i) d.bytes))) ≠ none)) ∧
    (∃ (s : State) (d : Desc) (i : Fin 6), d.op = 0xF ∧ paramOf (u16 d.bytes 16) = some (.fb i) ∧ u8 d.bytes 19 = 1 ∧
        ((s.stage (d.paramAxis) (cardIx (u8 d.bytes 18)) (.fb i) (paramValue (.fb i) d.bytes) d.bytes).fbRefusal (d.paramAxis) ((s.ax.get (d.paramAxis)).fbS.put i (paramValue (.fb i) d.bytes))) = none ∧ ((((s.ax.get (d.paramAxis)).fbS.put i (paramValue (.fb i) d.bytes)).chan ≠ (s.ax.get (d.paramAxis)).fbA.chan ∨ ((s.ax.get (d.paramAxis)).fbS.put i (paramValue (.fb i) d.bytes)).corr ≠ (s.ax.get (d.paramAxis)).fbA.corr))) ∧
    (∃ (s : State) (d : Desc) (i : Fin 6), d.op = 0xF ∧ paramOf (u16 d.bytes 16) = some (.fb i) ∧ u8 d.bytes 19 = 1 ∧
        ((s.stage (d.paramAxis) (cardIx (u8 d.bytes 18)) (.fb i) (paramValue (.fb i) d.bytes) d.bytes).fbRefusal (d.paramAxis) ((s.ax.get (d.paramAxis)).fbS.put i (paramValue (.fb i) d.bytes))) = none ∧ (¬ (((s.ax.get (d.paramAxis)).fbS.put i (paramValue (.fb i) d.bytes)).chan ≠ (s.ax.get (d.paramAxis)).fbA.chan ∨ ((s.ax.get (d.paramAxis)).fbS.put i (paramValue (.fb i) d.bytes)).corr ≠ (s.ax.get (d.paramAxis)).fbA.corr))) ∧
    (∃ (d : Desc) (p : ParamId), d.op = 0xF ∧ ((∃ i : Fin 46, p = .card i) ∨ (∃ k : Fin 16, p = .table k)) ∧
        paramOf (u16 d.bytes 16) = some p) ∧
    (∃ (d : Desc) (p : ParamId) (k : Fin 64), d.op = 0xF ∧ ((∃ i : Fin 46, p = .card i) ∨ (∃ k : Fin 16, p = .table k)) ∧
        paramOf (u16 d.bytes 16) = some p ∧ k ≠ (cardIx (u8 d.bytes 18))) ∧
    (∃ (d : Desc) (p : ParamId) (i : Fin 46), d.op = 0xF ∧ ((∃ i : Fin 46, p = .card i) ∨ (∃ k : Fin 16, p = .table k)) ∧
        paramOf (u16 d.bytes 16) = some p ∧ p = .card i) ∧
    (∃ (s : State) (d : Desc) (p : ParamId), d.op = 0xF ∧ ((∃ i : Fin 46, p = .card i) ∨ (∃ k : Fin 16, p = .table k)) ∧
        paramOf (u16 d.bytes 16) = some p ∧
        (u8 d.bytes 19 ≠ 1 ∨ (s.stage (d.paramAxis) (cardIx (u8 d.bytes 18)) p (paramValue p d.bytes) d.bytes).cardRefusal (cardIx (u8 d.bytes 18)) ≠ none)) ∧
    (∃ (s : State) (d : Desc) (p : ParamId), d.op = 0xF ∧ ((∃ i : Fin 46, p = .card i) ∨ (∃ k : Fin 16, p = .table k)) ∧
        paramOf (u16 d.bytes 16) = some p ∧ u8 d.bytes 19 = 1 ∧
        (s.stage (d.paramAxis) (cardIx (u8 d.bytes 18)) p (paramValue p d.bytes) d.bytes).cardRefusal (cardIx (u8 d.bytes 18)) = none) ∧
    (∃ (s : State) (n : Nat) (d : Desc) (x : AxisId), Due s n 0xF d ∧ d.isPosSet = true ∧ d.axis? = some x ∧
        ((onset s d).ax.get x).act.limLo ≤ (paramValue .posSet d.bytes) ∧ (paramValue .posSet d.bytes) ≤ ((onset s d).ax.get x).act.limHi) ∧
    (∃ (s : State) (n : Nat) (d : Desc) (x : AxisId), Due s n 0xF d ∧ d.isPosSet = true ∧ d.axis? = some x ∧
        ((paramValue .posSet d.bytes) < ((onset s d).ax.get x).act.limLo ∨ ((onset s d).ax.get x).act.limHi < (paramValue .posSet d.bytes))) ∧
    (∃ (d : Desc) (x : AxisId) (st : Nat) (w0 : Word) (w1 : Word), d.isPosSet = true ∧ d.axis? = some x ∧ d.out = some (st, w0, w1) ∧
        st ≠ 5) ∧
    (∃ (d : Desc) (x : AxisId) (st : Nat) (w0 : Word) (w1 : Word), d.isPosSet = true ∧ d.axis? = some x ∧ d.out = some (st, w0, w1) ∧
        st = 5) :=
  ⟨⟨(waiting .hold (entry 15 0 0 ([0x11, 1, 0, 0] ++ leBytes 8 7))), 5, (desc 5 (entry 15 0 0 ([0x11, 1, 0, 0] ++ leBytes 8 7))),
      by unfold Due; decide +kernel⟩,
   ⟨(waiting .hold (entry 15 0 0 ([0, 1, 0, 0] ++ leBytes 8 7))), 5, (desc 5 (entry 15 0 0 ([0, 1, 0, 0] ++ leBytes 8 7))), 0,
       by unfold Due; decide +kernel⟩,
   ⟨(waiting .hold (entry 15 0 0 ([0, 1, 0, 1] ++ leBytes 8 1024001))), 5, (desc 5 (entry 15 0 0 ([0, 1, 0, 1] ++ leBytes 8 1024001))), 0, by unfold Due; decide +kernel⟩,
   ⟨(waiting .hold (entry 15 0 0 ([0, 1, 0, 1] ++ leBytes 8 5))), 5, (desc 5 (entry 15 0 0 ([0, 1, 0, 1] ++ leBytes 8 5))), 0,
       by unfold Due; decide +kernel⟩,
   ⟨(waiting .hold (entry 15 0 0 ([11, 1, 0, 1] ++ leBytes 8 1))), 5, (desc 5 (entry 15 0 0 ([11, 1, 0, 1] ++ leBytes 8 1))), 11,
       by unfold Due; decide +kernel⟩,
   ⟨(waiting .hold (entry 15 0 0 ([0, 3, 0, 0] ++ leBytes 8 1))), 5, (desc 5 (entry 15 0 0 ([0, 3, 0, 0] ++ leBytes 8 1))), 0,
       by unfold Due; decide +kernel⟩,
   ⟨(waiting .hold (entry 15 0 0 ([3, 3, 0, 1] ++ leBytes 8 1))), 5, (desc 5 (entry 15 0 0 ([3, 3, 0, 1] ++ leBytes 8 1))), 3,
       by unfold Due; decide +kernel⟩,
   ⟨(waiting .hold (entry 15 0 0 ([0x10, 1, 0, 0] ++ leBytes 8 7))), 5, (desc 5 (entry 15 0 0 ([0x10, 1, 0, 0] ++ leBytes 8 7))),
       by decide +kernel⟩,
   ⟨(running 5 (entry 15 0 0 ([0x11, 1, 0, 0] ++ leBytes 8 7))), by decide +kernel⟩,
   ⟨(running 5 (entry 15 0 0 ([2, 2, 0, 0] ++ leBytes 8 7))), by decide +kernel⟩,
   ⟨(running 5 (entry 15 0 0 ([1, 5, 0, 1] ++ leBytes 8 3))), 1, by decide +kernel⟩,
   ⟨(running 5 (entry 15 0 0 ([1, 5, 0, 1] ++ leBytes 8 3))), 1, 199, by decide +kernel⟩,
   ⟨(running 5 (entry 15 0 0 ([3, 6, 0, 0] ++ leBytes 8 3))), 3, by decide +kernel⟩,
   ⟨(running 5 (entry 15 0 0 ([3, 6, 0, 0] ++ leBytes 8 3))), 3, 199, by decide +kernel⟩,
   ⟨(holdIn live [running 5 (entry 15 0 0 ([3, 6, 0, 0] ++ leBytes 8 3))]), (running 5 (entry 15 0 0 ([3, 6, 0, 0] ++ leBytes 8 3))), 3,
       by decide +kernel⟩,
   ⟨inMode ((holdIn live [running 5 (entry 15 0 0 ([0, 6, 0, 1] ++ leBytes 8 3))])) .parked, (running 5 (entry 15 0 0 ([0, 6, 0, 1] ++ leBytes 8 3))), 0, by decide +kernel⟩,
   ⟨(holdIn live [running 5 (entry 15 0 0 ([5, 6, 0, 1] ++ leBytes 8 3))]), (running 5 (entry 15 0 0 ([5, 6, 0, 1] ++ leBytes 8 3))), 5,
       by decide +kernel⟩,
   ⟨(running 5 (entry 15 0 0 ([3, 4, 0, 0] ++ leBytes 8 3))), .card 3, by decide +kernel⟩,
   ⟨(running 5 (entry 15 0 0 ([3, 4, 0, 0] ++ leBytes 8 3))), .card 3, 63, by decide +kernel⟩,
   ⟨(running 5 (entry 15 0 0 ([3, 4, 0, 0] ++ leBytes 8 3))), .card 3, 3, by decide +kernel⟩,
   ⟨(holdIn live [running 5 (entry 15 0 0 ([3, 4, 0, 0] ++ leBytes 8 3))]), (running 5 (entry 15 0 0 ([3, 4, 0, 0] ++ leBytes 8 3))), .card 3, by decide +kernel⟩,
   ⟨(holdIn live [running 5 (entry 15 0 0 ([3, 4, 0, 1] ++ leBytes 8 3))]), (running 5 (entry 15 0 0 ([3, 4, 0, 1] ++ leBytes 8 3))), .card 3, by decide +kernel⟩,
   ⟨(waiting .hold (entry 15 0 0 ([0x10, 1, 0, 0] ++ leBytes 8 2147483647))), 5, (desc 5 (entry 15 0 0 ([0x10, 1, 0, 0] ++ leBytes 8 2147483647))), 0, by unfold Due; decide +kernel⟩,
   ⟨(waiting .hold (entry 15 0 0 ([0x10, 1, 0, 0] ++ leBytes 8 2147483648))), 5, (desc 5 (entry 15 0 0 ([0x10, 1, 0, 0] ++ leBytes 8 2147483648))), 0, by unfold Due; decide +kernel⟩,
   ⟨{ (running 5 (entry 15 0 0 ([0x10, 1, 0, 0] ++ leBytes 8 7))) with out := some (0, 0, 0) }, 0, 0, 0, 0, by decide +kernel⟩,
   ⟨{ (running 5 (entry 15 0 0 ([0x10, 1, 0, 0] ++ leBytes 8 7))) with out := some (5, 0, 0) }, 0, 5, 0, 0, by decide +kernel⟩⟩

theorem witness_GroupsAndTriggers :
    (∃ (s : State) (n : Nat) (d : Desc), Due s n 0xF d ∧ paramOf (u16 d.bytes 16) = some .grpDef) ∧
    (∃ (s : State) (n : Nat) (d : Desc), Due s n 0xF d ∧ paramOf (u16 d.bytes 16) = some .trgDisarm) ∧
    (∃ (s : State) (d : Desc), d.op = 0xF ∧ d.out = none ∧ paramOf (u16 d.bytes 16) = some .grpDef ∧ s.groupPending (u8 d.bytes 18) = 0) ∧
    (∃ (s : State) (d : Desc), d.op = 0xF ∧ d.out = none ∧ paramOf (u16 d.bytes 16) = some .grpDef ∧ s.groupPending (u8 d.bytes 18) ≠ 0) ∧
    (∃ (d : Desc), d.op = 0xF ∧ d.out = none ∧ paramOf (u16 d.bytes 16) = some .trgDisarm) ∧
    (∃ (d : Desc) (m : Fin 64), d.op = 0xF ∧ d.out = none ∧ paramOf (u16 d.bytes 16) = some .trgDisarm ∧
        m ≠ Fin.ofNat 64 (u8 d.bytes 18)) :=
  ⟨⟨(waiting .hold (entry 15 0 0 ([0, 2, 31, 0] ++ leBytes 8 7))), 5, (desc 5 (entry 15 0 0 ([0, 2, 31, 0] ++ leBytes 8 7))),
      by unfold Due; decide +kernel⟩,
   ⟨(waiting .hold (entry 15 0 0 ([1, 2, 63, 0] ++ leBytes 8 0))), 5, (desc 5 (entry 15 0 0 ([1, 2, 63, 0] ++ leBytes 8 0))),
       by unfold Due; decide +kernel⟩,
   ⟨(holdIn live [running 5 (entry 15 0 0 ([0, 2, 31, 0] ++ leBytes 8 7))]), (running 5 (entry 15 0 0 ([0, 2, 31, 0] ++ leBytes 8 7))),
       by decide +kernel⟩,
   ⟨holdIn live [desc 4 (entry 16 0xFF 0 [31]), (running 5 (entry 15 0 0 ([0, 2, 31, 0] ++ leBytes 8 7)))], (running 5 (entry 15 0 0 ([0, 2, 31, 0] ++ leBytes 8 7))), by decide +kernel⟩,
   ⟨(running 5 (entry 15 0 0 ([1, 2, 63, 0] ++ leBytes 8 0))), by decide +kernel⟩,
   ⟨(running 5 (entry 15 0 0 ([1, 2, 63, 0] ++ leBytes 8 0))), 0, by decide +kernel⟩⟩

theorem witness_ArmsAndMasks :
    (∃ (s : State) (n : Nat) (d : Desc), Due s n 0xC d) ∧
    (∃ (s : State) (n : Nat) (d : Desc) (x : AxisId), Due s n 0xD d ∧ d.axis? = some x) ∧
    (∃ (d : Desc), d.op = 0xC ∧ d.out = none ∧ u8 d.bytes 17 = 0) ∧
    (∃ (d : Desc), d.op = 0xC ∧ d.out = none ∧ u8 d.bytes 17 = 1) ∧
    (∃ (s : State) (d : Desc), d.op = 0xC ∧ d.out = none ∧ u8 d.bytes 17 = 2 ∧
        frameLt (BitVec.ofNat 64 (u64 d.bytes 24)) s.frm.count = false) ∧
    (∃ (s : State) (d : Desc), d.op = 0xC ∧ d.out = none ∧ u8 d.bytes 17 = 2 ∧
        frameLt (BitVec.ofNat 64 (u64 d.bytes 24)) s.frm.count = true) ∧
    (∃ (d : Desc) (j : Fin 64), d.op = 0xC ∧ d.out = none ∧ j ≠ Fin.ofNat 64 (u8 d.bytes 16)) ∧
    (∃ (d : Desc), d.op = 0xC ∧ d.out = none) :=
  ⟨⟨(waiting .hold (entry 12 0 0 ([63, 0]))), 5, (desc 5 (entry 12 0 0 ([63, 0]))), by unfold Due; decide +kernel⟩,
   ⟨(waiting .hold (entry 13 0 0 [])), 5, (desc 5 (entry 13 0 0 [])), 0, by unfold Due; decide +kernel⟩,
   ⟨(running 5 (entry 12 0 0 ([63, 0]))), by decide +kernel⟩,
   ⟨(running 5 (entry 12 0 0 ([63, 1]))), by decide +kernel⟩,
   ⟨(holdIn live [running 5 (entry 12 0 0 ([63, 2, 0, 0, 0, 0, 0, 0] ++ leBytes 8 1000))]), (running 5 (entry 12 0 0 ([63, 2, 0, 0, 0, 0, 0, 0] ++ leBytes 8 1000))), by decide +kernel⟩,
   ⟨(holdIn live [running 5 (entry 12 0 0 ([63, 2, 0, 0, 0, 0, 0, 0] ++ leBytes 8 999))]), (running 5 (entry 12 0 0 ([63, 2, 0, 0, 0, 0, 0, 0] ++ leBytes 8 999))), by decide +kernel⟩,
   ⟨(running 5 (entry 12 0 0 ([63, 0]))), 0, by decide +kernel⟩,
   ⟨(running 5 (entry 12 0 0 ([63, 0]))), by decide +kernel⟩⟩

theorem witness_GroupMoves :
    (∃ (s : State) (n : Nat) (d : Desc), Due s n 0x10 d ∧ d.members.Nodup ∧ ((u8 d.bytes 18 = 0 ∨ (u8 d.bytes 18 = 1 ∧
        ∀ y ∈ d.members, (s.ax.get y).tt.atRest = true)))) ∧
    (∃ (s : State) (n : Nat) (d : Desc) (x : AxisId), Due s n 0x10 d ∧ u8 d.bytes 18 = 1 ∧
        (d.members.find? fun y => !(s.ax.get y).tt.atRest) = some x) ∧
    (∃ (s : State) (n : Nat) (k : Nat) (d : Desc) (b : List Byte), s.desc? n = some d ∧ d.op = 0x10 ∧ d.tries = some k ∧
        d.targets = none ∧ d.refetch = false ∧ (d.stage = .staged ∨ d.stage = .queued) ∧ d.readAt = BitVec.allOnes 64 ∧
        b.length = 4 * u16 d.bytes 32) ∧
    (∃ (s : State) (n : Nat) (k : Nat) (d : Desc), s.desc? n = some d ∧ d.op = 0x10 ∧ d.tries = some k ∧ d.targets = none ∧
        d.refetch = false ∧ (d.stage = .staged ∨ d.stage = .queued) ∧ d.readAt = BitVec.allOnes 64 ∧ k = 0) ∧
    (∃ (s : State) (n : Nat) (k : Nat) (d : Desc), s.desc? n = some d ∧ d.op = 0x10 ∧ d.tries = some k ∧ d.targets = none ∧
        d.refetch = false ∧ (d.stage = .staged ∨ d.stage = .queued) ∧ d.readAt = BitVec.allOnes 64 ∧ 0 < k) ∧
    (∃ (s : State) (n : Nat) (k : Nat) (d : Desc), s.desc? n = some d ∧ d.op = 0x10 ∧ d.tries = some k ∧ d.targets = none ∧
        d.refetch = false ∧ (d.stage = .staged ∨ d.stage = .queued) ∧ d.readAt ≠ BitVec.allOnes 64) :=
  ⟨⟨inMode (holdIn live [(granted { desc 5 (entry 16 0xFF 0 [0, 0, 1]) with members := [0], targets := some [7] })]) .hold, 5, (granted { desc 5 (entry 16 0xFF 0 [0, 0, 1]) with members := [0], targets := some [7] }), by unfold Due; decide +kernel⟩,
   ⟨(inMode (holdIn live [(granted { desc 5 (entry 16 0xFF 0 [0, 0, 1]) with members := [0], targets := some [7] })]) .position).modTt 0 (fun t => { t with u0 := ⟨0, 5, 0⟩ }), 5, (granted { desc 5 (entry 16 0xFF 0 [0, 0, 1]) with members := [0], targets := some [7] }), 0, by unfold Due; decide +kernel⟩,
   ⟨holdIn live [{ desc 5 (entry 16 0xFF 0 (List.replicate 16 0 ++ [1, 0])) with tries := some 0 }], 5, 0, { { desc 5 (entry 16 0xFF 0 (List.replicate 16 0 ++ [1, 0])) with tries := some 0 } with tries := some 0 }, leBytes 4 9, by decide +kernel⟩,
   ⟨holdIn live [{ desc 5 (entry 16 0xFF 0 (List.replicate 16 0 ++ [1, 0])) with tries := some 0 }], 5, 0, { desc 5 (entry 16 0xFF 0 (List.replicate 16 0 ++ [1, 0])) with tries := some 0 }, by decide +kernel⟩,
   ⟨holdIn live [{ { desc 5 (entry 16 0xFF 0 (List.replicate 16 0 ++ [1, 0])) with tries := some 0 } with tries := some 1 }], 5, 1, { { desc 5 (entry 16 0xFF 0 (List.replicate 16 0 ++ [1, 0])) with tries := some 0 } with tries := some 1 }, by decide +kernel⟩,
   ⟨holdIn live [{ { desc 5 (entry 16 0xFF 0 (List.replicate 16 0 ++ [1, 0])) with tries := some 0 } with readAt := 999 }], 5, 0, { { desc 5 (entry 16 0xFF 0 (List.replicate 16 0 ++ [1, 0])) with tries := some 0 } with readAt := 999 }, by decide +kernel⟩⟩

theorem witness_ConsistSelects :
    (∃ (s : State), ((∃ e ∈ s.ord.descs, e.op = 0x11 ∧ e.stage = .effect))) ∧
    (∃ (s : State) (n : Nat) (d : Desc), Due s n 0x11 d ∧ ((∀ e ∈ s.ord.descs, e.op = 0x11 → e.stage ≠ .effect))) ∧
    (∃ (d : Desc), d.op = 0x11 ∧ d.out = none ∧ (u8 d.bytes 17 = 0 ∨ 128 ≤ u8 d.bytes 17)) ∧
    (∃ (s : State) (d : Desc) (x : AxisId), d.op = 0x11 ∧ d.out = none ∧ 0 < u8 d.bytes 17 ∧ u8 d.bytes 17 < 128 ∧
        s.notParked d.units = some x) ∧
    (∃ (s : State) (d : Desc) (e : Desc), d.op = 0x11 ∧ d.out = none ∧ 0 < u8 d.bytes 17 ∧ u8 d.bytes 17 < 128 ∧
        s.notParked d.units = none ∧ s.desc? d.acc = some e) ∧
    (∃ (s : State) (d : Desc), d.op = 0x11 ∧ d.out = none ∧ 0 < u8 d.bytes 17 ∧ u8 d.bytes 17 < 128 ∧ s.notParked d.units = none) ∧
    (∃ (s : State) (n : Nat) (d : Desc), s.desc? n = some d ∧ d.op = 0x11 ∧ d.stage = .effect ∧ d.begun = true ∧ d.out = none ∧
        ((∀ r ∈ s.frm.adm, r.kind ≠ .consist n)) ∧ frameLe d.slotEnd s.frm.count = false) ∧
    (∃ (s : State) (n : Nat) (d : Desc), s.desc? n = some d ∧ d.op = 0x11 ∧ d.stage = .effect ∧ d.begun = true ∧ d.out = none ∧
        ((∀ r ∈ s.frm.adm, r.kind ≠ .consist n)) ∧ frameLe d.slotEnd s.frm.count = true ∧ s.slotItems (u8 d.bytes 16) = none) ∧
    (∃ (s : State) (n : Nat) (d : Desc), s.desc? n = some d ∧ d.op = 0x11 ∧ d.stage = .effect ∧ d.begun = true ∧ d.out = none ∧
        ((∀ r ∈ s.frm.adm, r.kind ≠ .consist n)) ∧ frameLe d.slotEnd s.frm.count = true ∧ s.slotItems (u8 d.bytes 16) ≠ none) :=
  ⟨⟨holdIn live [(running 5 (entry 17 0 0 []))], by decide +kernel⟩,
   ⟨(waiting .hold (entry 17 0 0 ([0, 127]))), 5, (desc 5 (entry 17 0 0 ([0, 127]))), by unfold Due; decide +kernel⟩,
   ⟨(running 5 (entry 17 0 0 ([0, 128]))), by decide +kernel⟩,
   ⟨inMode ((holdIn live [running 5 (entry 17 0 0 ([0, 127]))])) .hold, (running 5 (entry 17 0 0 ([0, 127]))), 0, by decide +kernel⟩,
   ⟨(holdIn live [running 5 (entry 17 0 0 ([0, 127]))]), (running 5 (entry 17 0 0 ([0, 127]))), (running 5 (entry 17 0 0 ([0, 127]))),
       by decide +kernel⟩,
   ⟨(holdIn live [running 5 (entry 17 0 0 ([0, 1]))]), (running 5 (entry 17 0 0 ([0, 1]))), by decide +kernel⟩,
   ⟨holdIn live [{ (running 5 (entry 17 0 0 [])) with slotEnd := 1001 }], 5, { (running 5 (entry 17 0 0 [])) with slotEnd := 1001 },
       by decide +kernel⟩,
   ⟨{ holdIn live [{ running 5 (entry 17 0 0 []) with slotEnd := 1000 }] with upd := { live.upd with consists := [none] } }, 5, { (running 5 (entry 17 0 0 [])) with slotEnd := 1000 }, by decide +kernel⟩,
   ⟨{ holdIn live [{ running 5 (entry 17 0 0 []) with slotEnd := 1000 }] with upd := { live.upd with consists := [some []] } }, 5, { (running 5 (entry 17 0 0 [])) with slotEnd := 1000 }, by decide +kernel⟩⟩

theorem witness_EnergizesAndIdentifies :
    (∃ (s : State) (n : Nat) (d : Desc) (x : AxisId), d.axis? = some x ∧ Due s n 7 d ∧ ((onset s d).ax.get x).tt.modeAhead ≠ .hold) ∧
    (∃ (s : State) (n : Nat) (d : Desc) (x : AxisId), d.axis? = some x ∧ Due s n 7 d ∧ ((onset s d).ax.get x).tt.modeAhead = .hold ∧
        u8 d.bytes 17 ≠ 1) ∧
    (∃ (s : State) (n : Nat) (d : Desc) (x : AxisId), d.axis? = some x ∧ Due s n 7 d ∧ ((onset s d).ax.get x).tt.modeAhead = .hold ∧
        u8 d.bytes 17 = 1) ∧
    (∃ (s : State) (n : Nat) (d : Desc) (x : AxisId), d.axis? = some x ∧ Due s n 0xE d ∧ u8 d.bytes 16 ≠ 2) ∧
    (∃ (s : State) (n : Nat) (d : Desc) (x : AxisId), d.axis? = some x ∧ Due s n 0xE d ∧ u8 d.bytes 16 = 2) :=
  ⟨⟨(waiting .parked (entry 7 0 0 [])), 5, (desc 5 (entry 7 0 0 [])), 0, by unfold Due; decide +kernel⟩,
   ⟨waiting .hold (entry 7 0 2 []), 5, (desc 5 (entry 7 0 2 [])), 0, by unfold Due; decide +kernel⟩,
   ⟨(waiting .hold (entry 7 0 0 ([1, 1]))), 5, (desc 5 (entry 7 0 0 ([1, 1]))), 0, by unfold Due; decide +kernel⟩,
   ⟨(waiting .hold (entry 14 0 0 [])), 5, (desc 5 (entry 14 0 0 [])), 0, by unfold Due; decide +kernel⟩,
   ⟨((waiting .hold (entry 14 0 0 ([2, 0, 0, 0] ++ leBytes 4 256)))).modSg 0 (fun g => { g with state := .armed }), 5, (desc 5 (entry 14 0 0 ([2, 0, 0, 0] ++ leBytes 4 256))), 0, by unfold Due; decide +kernel⟩⟩

theorem witness_SequenceSteps :
    (∃ (s : State) (x : AxisId) (q : SeqSt), (s.ax.get x).cd.seq = some q) ∧
    (∃ (s : State) (x : AxisId) (q : SeqSt), (s.ax.get x).cd.seq = some q ∧ (s.ax.get x).cd.phase = .energising ∧ q.final = false ∧
        s.stepOver x q = true) ∧
    (∃ (s : State) (x : AxisId) (q : SeqSt) (ra : Int) (rb : Int), (s.ax.get x).cd.seq = some q ∧ (s.ax.get x).cd.phase = .identR ∧
        s.stepOver x q = true ∧ q.rOnly = false ∧ (s.ax.get x).cd.ca.rFormed = some ra ∧ (s.ax.get x).cd.cb.rFormed = some rb ∧ 50 ≤ ra ∧
        ra ≤ 60000 ∧ 50 ≤ rb ∧ rb ≤ 60000) ∧
    (∃ (s : State) (x : AxisId) (q : SeqSt), (s.ax.get x).cd.seq = some q ∧ (s.ax.get x).cd.phase = .identL ∧ s.stepOver x q = false) ∧
    (∃ (s : State) (x : AxisId) (q : SeqSt), (s.ax.get x).cd.seq = some q ∧ (s.ax.get x).cd.phase = .identL ∧ s.stepOver x q = true ∧
        q.identify = true) ∧
    (∃ (s : State) (x : AxisId) (q : SeqSt), (s.ax.get x).cd.seq = some q ∧ (s.ax.get x).cd.phase = .energising ∧ q.final = true ∧
        q.identify = false ∧ s.stepOver x q = true) ∧
    (∃ (s : State) (x : AxisId) (q : SeqSt), (s.ax.get x).cd.seq = some q ∧ (s.ax.get x).cd.phase = .energising ∧ q.final = true ∧
        q.identify = true ∧ s.stepOver x q = true) ∧
    (∃ (s : State) (x : AxisId) (q : SeqSt), (s.ax.get x).cd.seq = some q ∧ s.stepOver x q = false) :=
  ⟨⟨sequencing .energising (seqOf false false false 996), 0, seqOf false false false 996, by decide +kernel⟩,
   ⟨sequencing .energising (seqOf false false false 960), 0, seqOf false false false 960, by decide +kernel⟩,
   ⟨(sequencing .identR (seqOf false false false 920)).modCd 0 (fun c => { c with ca := { c.ca with sumI := 128, sumV := 50 }, cb := { c.cb with sumI := 128, sumV := 60000 } }), 0, seqOf false false false 920, 50, 60000, by decide +kernel⟩,
   ⟨sequencing .identL (seqOf false false false 937), 0, seqOf false false false 937, by decide +kernel⟩,
   ⟨sequencing .identL (seqOf true false false 936), 0, seqOf true false false 936, by decide +kernel⟩,
   ⟨sequencing .energising (seqOf false true false 960), 0, seqOf false true false 960, by decide +kernel⟩,
   ⟨sequencing .energising (seqOf true true false 960), 0, seqOf true true false 960, by decide +kernel⟩,
   ⟨sequencing .energising (seqOf true true false 961), 0, seqOf true true false 961, by decide +kernel⟩⟩

theorem witness_HoldingCoils :
    (∃ (s : State) (x : AxisId) (r : RingDown) (g : FrameNo) (d : Desc), (s.ax.get x).tt.ring = some r ∧ r.arrived = some g ∧
        s.desc? r.desc = some d ∧ d.stage = .effect ∧ s.msFrames 400 ≤ s.since g) ∧
    (∃ (s : State) (x : AxisId), (s.ax.get x).cd.phase = .pdWait ∧ s.msFrames (s.cardOf x).pddelay ≤ s.since (s.ax.get x).cd.phaseAt) ∧
    (∃ (s : State) (x : AxisId), (s.ax.get x).cd.phase = .pdRamp ∧ s.msFrames (s.cardOf x).pdramp ≤ s.since (s.ax.get x).cd.phaseAt) ∧
    (∃ (s : State) (x : AxisId), (s.ax.get x).cd.phase = .run) ∧
    (∃ (s : State) (x : AxisId) (ra : Int) (rb : Int), 256 ≤ (s.ax.get x).cd.still ∧ (s.ax.get x).cd.smallA = false ∧
        (s.ax.get x).cd.smallB = false ∧ (s.ax.get x).cd.ca.rFormed = some ra ∧ (s.ax.get x).cd.cb.rFormed = some rb ∧ 50 ≤ ra ∧
        ra ≤ 60000 ∧ 50 ≤ rb ∧ rb ≤ 60000 ∧ (s.cardOf x).rInBand ra = true ∧ (s.cardOf x).rInBand rb = true) ∧
    (∃ (s : State) (x : AxisId), (s.ax.get x).cd.still < 256) :=
  ⟨⟨((holdIn (liveAt 100000) [running 5 (entry 14 0 0 [])]).modTt 0 fun t => { t with ring := some ⟨5, some 0, 0, 0, 0, []⟩ }), 0, ⟨5, some 0, 0, 0, 0, []⟩, 0, (running 5 (entry 14 0 0 [])), by decide +kernel⟩,
   ⟨(liveAt 100000).modCd 0 (fun c => { c with phase := .pdWait }), 0, by decide +kernel⟩,
   ⟨(liveAt 100000).modCd 0 (fun c => { c with phase := .pdRamp }), 0, by decide +kernel⟩,
   ⟨live.modCd 0 (fun c => { c with phase := .run }), 0, by decide +kernel⟩,
   ⟨{ live.modCd 0 (fun c => { c with phase := .run, still := 256, ca := { c.ca with sumI := 128, sumV := 50 }, cb := { c.cb with sumI := 128, sumV := 50 } }) with cards := live.cards.map fun c => { c with act := { c.act with res25 := 50 } } }, 0, 50, 50, by decide +kernel⟩,
   ⟨live.modCd 0 (fun c => { c with still := 255 }), 0, by decide +kernel⟩⟩

theorem witness_StepInputs :
    (∃ (s : State) (p : Fin 16), s.sys.powered = true ∧ (s.sd.get p).opened = true) ∧
    (∃ (s : State) (p : Fin 16) (e : StepEdge), s.sys.powered = true ∧ (s.sd.get p).opened = false ∧
        e.phaseNs < 10 * fld (s.sd.get p).cfg 11 8) ∧
    (∃ (s : State) (p : Fin 16) (e : StepEdge), s.sys.powered = true ∧ (s.sd.get p).opened = false ∧
        10 * fld (s.sd.get p).cfg 11 8 ≤ e.phaseNs ∧ fld (s.sd.get p).cfg 1 0 = 0 ∧ e.line = .step ∧ (s.sd.get p).stepLv ≠ e.stepLevel ∧
        e.stepLevel = bitOf (s.sd.get p).cfg 2) ∧
    (∃ (s : State) (p : Fin 16) (e : StepEdge), s.sys.powered = true ∧ (s.sd.get p).opened = false ∧
        10 * fld (s.sd.get p).cfg 11 8 ≤ e.phaseNs ∧ fld (s.sd.get p).cfg 1 0 = 0 ∧ e.line = .step ∧ (s.sd.get p).stepLv ≠ e.stepLevel ∧
        e.stepLevel ≠ bitOf (s.sd.get p).cfg 2) ∧
    (∃ (s : State) (p : Fin 16) (e : StepEdge), s.sys.powered = true ∧ (s.sd.get p).opened = false ∧
        10 * fld (s.sd.get p).cfg 11 8 ≤ e.phaseNs ∧ fld (s.sd.get p).cfg 1 0 = 1 ∧ (s.sd.get p).stepLv ≠ e.stepLevel ∧
        (s.sd.get p).dirLv = e.dirLevel ∧ e.line = .step ∧ e.stepLevel ≠ bitOf (s.sd.get p).cfg 2) ∧
    (∃ (s : State) (p : Fin 16) (e : StepEdge), s.sys.powered = true ∧ (s.sd.get p).opened = false ∧
        10 * fld (s.sd.get p).cfg 11 8 ≤ e.phaseNs ∧ fld (s.sd.get p).cfg 1 0 = 1 ∧ (s.sd.get p).dirLv ≠ e.dirLevel ∧
        (s.sd.get p).stepLv = e.stepLevel ∧ e.line = .dir ∧ e.dirLevel ≠ bitOf (s.sd.get p).cfg 2) ∧
    (∃ (s : State) (p : Fin 16) (e : StepEdge), s.sys.powered = true ∧ (s.sd.get p).opened = false ∧
        10 * fld (s.sd.get p).cfg 11 8 ≤ e.phaseNs ∧ fld (s.sd.get p).cfg 1 0 = 2 ∧ (s.sd.get p).stepLv = false ∧
        (s.sd.get p).dirLv = false) ∧
    (∃ (s : State), s.sys.powered = true) :=
  ⟨⟨live.modSd 0 (fun i => { i with opened := true }), 0, by decide +kernel⟩,
   ⟨live, 0, ⟨.step, true, false, 39, []⟩, by decide +kernel⟩,
   ⟨live.modSd 0 (fun i => { i with stepLv := true }), 0, ⟨.step, false, false, 40, []⟩, by decide +kernel⟩,
   ⟨live, 0, ⟨.step, true, false, 40, []⟩, by decide +kernel⟩,
   ⟨live.modSd 0 (fun i => { i with cfg := 0x5401#32 }), 0, ⟨.step, true, false, 40, []⟩, by decide +kernel⟩,
   ⟨live.modSd 0 (fun i => { i with cfg := 0x5401#32 }), 0, ⟨.dir, false, true, 40, []⟩, by decide +kernel⟩,
   ⟨live.modSd 0 (fun i => { i with cfg := 0x5402#32 }), 0, ⟨.step, true, false, 40, []⟩, by decide +kernel⟩,
   ⟨live, by decide +kernel⟩⟩

theorem witness_BridgeSources :
    (∃ (s : State) (m : Master) (x : AxisId), Acts s m (Adr.AX_BR_CFG x) 1 ∧ (heavy x = true ∨ (s.ax.get x).isParked = false)) ∧
    (∃ (s : State) (m : Master) (x : AxisId) (w : Word), Acts s m (Adr.AX_BR_CFG x) 1 ∧ heavy x = false ∧ (s.ax.get x).isParked = true ∧
        bitOf w 0 = false ∧ s.direct x = true) ∧
    (∃ (s : State) (m : Master) (x : AxisId) (w : Word), Acts s m (Adr.AX_BR_CFG x) 1 ∧ heavy x = false ∧ (s.ax.get x).isParked = true ∧
        bitOf w 0 = true ∧ s.direct x = false ∧
        (s.setReg (Adr.AX_BR_CFG x) 1#32).poolOk (domOf x) (s.pool.get (domOf x)).gr (s.pool.get (domOf x)).gh = true) ∧
    (∃ (s : State) (m : Master) (x : AxisId) (w : Word), Acts s m (Adr.AX_BR_CFG x) 1 ∧ heavy x = false ∧ (s.ax.get x).isParked = true ∧
        bitOf w 0 = true ∧ s.direct x = false ∧
        (s.setReg (Adr.AX_BR_CFG x) 1#32).poolOk (domOf x) (s.pool.get (domOf x)).gr (s.pool.get (domOf x)).gh = false) ∧
    (∃ (s : State) (m : Master) (w : Word) (b : BayId) (j : Fin 8), Acts s m (Adr.BAY_COMMIT b) 0xFF ∧ w = wd (2 ^ j.val) ∧
        s.direct (axisAt (bayUnit b) j) = true) ∧
    (∃ (s : State) (m : Master) (w : Word) (b : BayId) (j : Fin 8), Acts s m (Adr.BAY_COMMIT b) 0xFF ∧ w = wd (2 ^ j.val) ∧
        s.direct (axisAt (bayUnit b) j) = false) ∧
    (∃ (s : State) (m : Master) (u : CarrierId), Acts s m (latchAdr u) 0xFFFFFFFF) :=
  ⟨⟨live, .pf0, 192, by unfold Acts; decide +kernel⟩,
   ⟨(inMode live .parked).setReg (Adr.AX_BR_CFG 0) 1, .pf0, 0, 0, by unfold Acts; decide +kernel⟩,
   ⟨inMode live .parked, .pf0, 0, 1, by unfold Acts; decide +kernel⟩,
   ⟨{ inMode live .parked with gran := { live.gran with tile := 0 } }, .pf0, 0, 1, by unfold Acts; decide +kernel⟩,
   ⟨live.setReg (Adr.AX_BR_CFG 191) 1, .pf0, 0x80#32, 23, 7, by unfold Acts; decide +kernel⟩,
   ⟨live, .pf0, 0x80#32, 23, 7, by unfold Acts; decide +kernel⟩,
   ⟨live, .pf0, 24, by unfold Acts; decide +kernel⟩⟩

theorem witness_WindowTrips :
    (∃ (s : State) (u : CarrierId) (c : Fin 16) (hi : Bool) (k : Nat) (edges : List HeavyEdge), (s.sys.powered = false ∨ s.cmpOut (coilCmp u c) = true ∨ s.blanked (coilOf u c).1 (coilOf u c).2 (s.halfClock u k) (edges.map s.edgeNow) = true ∨ (if hi then (s.cu.get u).cmpHi else (s.cu.get u).cmpLo).getLsbD c = true)) ∧
    (∃ (s : State) (u : CarrierId) (c : Fin 16) (hi : Bool) (k : Nat) (edges : List HeavyEdge), s.sys.powered = true ∧
        s.cmpOut (coilCmp u c) = false ∧ s.blanked (coilOf u c).1 (coilOf u c).2 (s.halfClock u k) (edges.map s.edgeNow) = false ∧
        (if hi then (s.cu.get u).cmpHi else (s.cu.get u).cmpLo).getLsbD c = false) :=
  ⟨⟨dark, 24, 15, true, 0, [], by decide +kernel⟩,
   ⟨live, 24, 15, true, 9999, [], by decide +kernel⟩⟩

theorem witness_DebugHalts :
    (∃ (s : State) (k : Fin 14), s.sys.powered = true ∧ k.val ≠ 7) ∧
    (∃ (s : State) (k : Fin 14), (s.sys.powered = false ∨ k.val = 7)) :=
  ⟨⟨live, 13, by decide +kernel⟩,
   ⟨live, 7, by decide +kernel⟩⟩

theorem witness_SafeTorqueOff : ∃ (a : Bool) (b : Bool), (a = true ∨ b = true) :=
  ⟨false, true, by decide +kernel⟩

theorem witness_StoDiscrepancy :
    (∃ (s : State), s.sys.powered = true ∧ s.sys.stoA ≠ s.sys.stoB) ∧
    (∃ (s : State), s.sys.stoA = s.sys.stoB) ∧
    (∃ (s : State) (m : Master), s.sys.powered = true ∧ m.admin = true) :=
  ⟨⟨{ live with sys := { live.sys with stoB := false } }, by decide +kernel⟩,
   ⟨live, by decide +kernel⟩,
   ⟨live, .pf0, by decide +kernel⟩⟩

theorem witness_LightBridgeFaults :
    (∃ (s : State) (l : Fin 768), s.sys.powered = true ∧
        legBit (s.cu.get (unitOf (lightAxis l))).latch (slotOf (lightAxis l)).val (l.val % 4) = true) ∧
    (∃ (s : State) (l : Fin 768), s.sys.powered = true ∧
        legBit (s.cu.get (unitOf (lightAxis l))).latch (slotOf (lightAxis l)).val (l.val % 4) = false) ∧
    (∃ (s : State) (x : AxisId), (s.ax.get x).cd.ca.openCnt = 64 ∧ (s.ax.get x).cd.cb.openCnt < 64 ∧ (s.ax.get x).energised = true) ∧
    (∃ (s : State) (x : AxisId), (s.ax.get x).cd.ca.openCnt = 64 ∧ 64 ≤ (s.ax.get x).cd.cb.openCnt ∧ (s.ax.get x).energised = true) ∧
    (∃ (s : State) (x : AxisId), (s.ax.get x).cd.ca.openCnt ≠ 64 ∧ (s.ax.get x).cd.cb.openCnt ≠ 64) ∧
    (∃ (s : State) (x : AxisId), s.sys.powered = true ∧ s.probes x = false) ∧
    (∃ (s : State) (x : AxisId) (c : Nat), s.sys.powered = true ∧ s.probes x = true ∧
        (s.current (unitOf x) (chanOf x (s.probesB x)) c).natAbs < 15360) ∧
    (∃ (s : State) (x : AxisId) (c : Nat), s.sys.powered = true ∧ s.probes x = true ∧
        15360 ≤ (s.current (unitOf x) (chanOf x (s.probesB x)) c).natAbs) :=
  ⟨⟨live.modCu 23 (fun c => { c with latch := 0x80000000#32 }), 767, by decide +kernel⟩,
   ⟨live, 767, by decide +kernel⟩,
   ⟨live.modCd 0 (fun c => { c with phase := .run, ca := { c.ca with openCnt := 64 }, cb := { c.cb with openCnt := 63 } }), 0,
       by decide +kernel⟩,
   ⟨live.modCd 0 (fun c => { c with phase := .run, ca := { c.ca with openCnt := 64 }, cb := { c.cb with openCnt := 64 } }), 0,
       by decide +kernel⟩,
   ⟨live, 199, by decide +kernel⟩,
   ⟨live, 0, by decide +kernel⟩,
   ⟨(((inMode live .parked).modAx 0 fun a => { a with act := { a.act with cap := 7 } }).setReg (Adr.BAY_PROBE_CFG 0) 1000), 0, 2048,
       by decide +kernel⟩,
   ⟨(((inMode live .parked).modAx 0 fun a => { a with act := { a.act with cap := 7 } }).setReg (Adr.BAY_PROBE_CFG 0) 1000).setReg (Adr.BAY_CAL 0 0) 0x80000000#32, 0, 4095, by decide +kernel⟩⟩

theorem witness_UnitSamples :
    (∃ (s : State), s.carriers = false) ∧
    (∃ (s : State), s.carriers = false) ∧
    (∃ (s : State), s.carriers = true) ∧
    (∃ (s : State), s.carriers = true) :=
  ⟨⟨State.reset, by decide +kernel⟩,
   ⟨State.reset, by decide +kernel⟩,
   ⟨live, by decide +kernel⟩,
   ⟨live, by decide +kernel⟩⟩

theorem witness_HeavyBridges :
    (∃ (s : State) (l : Fin 32), (s.ax.get (hvAxis (heavyLeg l).1)).energised = true) ∧
    (∃ (s : State) (l : Fin 32), (s.ax.get (hvAxis (heavyLeg l).1)).energised = false) ∧
    (∃ (s : State) (h : HeavyId) (q : SeqSt), (s.ax.get (hvAxis h)).cd.seq = some q ∧ q.boot = true ∧
        (s.ax.get (hvAxis h)).cd.phase = .energising) ∧
    (∃ (s : State) (h : HeavyId) (q : SeqSt), (s.ax.get (hvAxis h)).cd.seq = some q ∧ q.boot = true ∧
        (s.ax.get (hvAxis h)).cd.phase = .energising ∧ 40 ≤ s.since q.start) ∧
    (∃ (s : State) (h : HeavyId) (q : SeqSt), (s.ax.get (hvAxis h)).cd.seq = some q ∧ q.boot = true ∧
        (s.ax.get (hvAxis h)).cd.phase = .energising ∧ s.since q.start < 40) ∧
    (∃ (s : State) (r : Fin 2), s.sys.powered = true ∧ s.cmp.vghLock.getLsbD r = false) ∧
    (∃ (s : State) (r : Fin 2), s.sys.powered = true ∧ s.cmp.vghLock.getLsbD r = true) ∧
    (∃ (s : State), s.sys.powered = true) ∧
    (∃ (s : State) (l : Fin 32) (same : Bool), s.sys.powered = true ∧
        (same = true ∨ legBit (s.cu.get 24).latch ((heavyLeg l).1).val (heavyLeg l).2 = false) ∧
        s.rf (Adr.HVY_VDS_CFG ((heavyLeg l).1)) 17 16 = 2) ∧
    (∃ (s : State) (l : Fin 32) (same : Bool), s.sys.powered = true ∧
        (same = true ∨ legBit (s.cu.get 24).latch ((heavyLeg l).1).val (heavyLeg l).2 = false) ∧
        s.rf (Adr.HVY_VDS_CFG ((heavyLeg l).1)) 17 16 = 1) ∧
    (∃ (s : State) (l : Fin 32) (same : Bool), s.sys.powered = true ∧
        (s.rf (Adr.HVY_VDS_CFG ((heavyLeg l).1)) 17 16 = 0 ∨ (same = false ∧
        legBit (s.cu.get 24).latch ((heavyLeg l).1).val (heavyLeg l).2 = true))) ∧
    (∃ (s : State), s.sys.powered = true) ∧
    (∃ (s : State) (c : Fin 16) (k : Nat), s.sys.powered = true ∧
        ((k : Int) - 2048).natAbs < s.rf (Adr.HVY_HOC (slotOf (coilOf 24 c).1)) 10 0) ∧
    (∃ (s : State) (c : Fin 16) (k : Nat), s.sys.powered = true ∧
        s.rf (Adr.HVY_HOC (slotOf (coilOf 24 c).1)) 10 0 ≤ ((k : Int) - 2048).natAbs) :=
  ⟨⟨live.modCd 199 (fun c => { c with phase := .run }), 31, by decide +kernel⟩,
   ⟨live, 31, by decide +kernel⟩,
   ⟨(live.modCd 199 fun c => { c with phase := .energising, seq := some (seqOf false false true 1000) }), 7, seqOf false false true 1000,
       by decide +kernel⟩,
   ⟨(live.modCd 199 fun c => { c with phase := .energising, seq := some (seqOf false false true 960) }), 7, seqOf false false true 960,
       by decide +kernel⟩,
   ⟨(live.modCd 199 fun c => { c with phase := .energising, seq := some (seqOf false false true 961) }), 7, seqOf false false true 961,
       by decide +kernel⟩,
   ⟨live, 1, by decide +kernel⟩,
   ⟨{ live with cmp := { live.cmp with vghLock := 2 } }, 1, by decide +kernel⟩,
   ⟨live, by decide +kernel⟩,
   ⟨live.setReg (Adr.HVY_VDS_CFG 7) 0x20000#32, 31, false, by decide +kernel⟩,
   ⟨live.setReg (Adr.HVY_VDS_CFG 7) 0x10000#32, 31, false, by decide +kernel⟩,
   ⟨live.setReg (Adr.HVY_VDS_CFG 7) 0, 31, false, by decide +kernel⟩,
   ⟨live, by decide +kernel⟩,
   ⟨live.setReg (Adr.HVY_HOC 7) 100, 15, 2147, by decide +kernel⟩,
   ⟨live.setReg (Adr.HVY_HOC 7) 100, 15, 2148, by decide +kernel⟩⟩

theorem witness_FeedbackInputs :
    (∃ (s : State) (c : Fin 24) (a : Bool) (b : Bool), s.sys.powered = true ∧ s.fbMode c = 2 ∧
        ((s.fbc.get c).valid = false ∨ lineState a b = (s.fbc.get c).st)) ∧
    (∃ (s : State) (c : Fin 24) (a : Bool) (b : Bool) (d : Int), s.sys.powered = true ∧ s.fbMode c = 2 ∧ (s.fbc.get c).valid = true ∧
        ((lineState a b = (s.fbc.get c).st + 1 ∧ d = (if s.fbInv c then -1 else 1)) ∨ (lineState a b = (s.fbc.get c).st + 3 ∧
        d = -(if s.fbInv c then -1 else 1))) ∧ s.slMin c ≤ (s.fbc.get c).count + d ∧ (s.fbc.get c).count + d ≤ s.slMax c) ∧
    (∃ (s : State) (c : Fin 24) (a : Bool) (b : Bool), s.sys.powered = true ∧ s.fbMode c = 2 ∧ (s.fbc.get c).valid = true ∧
        lineState a b = (s.fbc.get c).st + 2) ∧
    (∃ (s : State) (c : Fin 24) (ca : Nat) (cb : Nat), s.sys.powered = true ∧ s.fbMode c = 1 ∧
        ((if s.amplitudeOk c (s.sinCos c ca cb) then 0 else min 3 ((s.fbc.get c).ampOut + 1)) < 3 ∨ 3 ≤ (s.fbc.get c).ampOut) ∧
        (s.fbc.get c).valid = false) ∧
    (∃ (s : State) (c : Fin 24) (ca : Nat) (cb : Nat), s.sys.powered = true ∧ s.fbMode c = 1 ∧
        ((if s.amplitudeOk c (s.sinCos c ca cb) then 0 else min 3 ((s.fbc.get c).ampOut + 1)) < 3 ∨ 3 ≤ (s.fbc.get c).ampOut) ∧
        (s.fbc.get c).valid = true ∧ (s.fbc.get c).satLo = false ∧ (s.fbc.get c).satHi = false ∧
        (Int.fmod ((phaseOfPair (s.sinCos c ca cb)) - (s.fbc.get c).phi + 2048) 4096 - 2048).natAbs ≤ 1024 ∧
        s.slMin c ≤ ((s.fbc.get c).count + (if s.fbInv c then -(Int.fmod ((phaseOfPair (s.sinCos c ca cb)) - (s.fbc.get c).phi + 2048) 4096 - 2048) else (Int.fmod ((phaseOfPair (s.sinCos c ca cb)) - (s.fbc.get c).phi + 2048) 4096 - 2048))) ∧ ((s.fbc.get c).count + (if s.fbInv c then -(Int.fmod ((phaseOfPair (s.sinCos c ca cb)) - (s.fbc.get c).phi + 2048) 4096 - 2048) else (Int.fmod ((phaseOfPair (s.sinCos c ca cb)) - (s.fbc.get c).phi + 2048) 4096 - 2048))) ≤ s.slMax c) ∧
    (∃ (s : State) (c : Fin 24) (ca : Nat) (cb : Nat), s.sys.powered = true ∧ s.fbMode c = 1 ∧
        ((if s.amplitudeOk c (s.sinCos c ca cb) then 0 else min 3 ((s.fbc.get c).ampOut + 1)) < 3 ∨ 3 ≤ (s.fbc.get c).ampOut) ∧
        (s.fbc.get c).valid = true ∧ 1024 < (Int.fmod ((phaseOfPair (s.sinCos c ca cb)) - (s.fbc.get c).phi + 2048) 4096 - 2048).natAbs) ∧
    (∃ (s : State) (c : Fin 24) (ca : Nat) (cb : Nat), s.sys.powered = true ∧ s.fbMode c = 1 ∧
        (if s.amplitudeOk c (s.sinCos c ca cb) then 0 else min 3 ((s.fbc.get c).ampOut + 1)) = 3 ∧ (s.fbc.get c).ampOut < 3 ∧
        (s.fbc.get c).valid = true) ∧
    (∃ (s : State) (c : Fin 24) (pair : Fin 3) (amp : Bool), s.sys.powered = true ∧ s.fbMode c ≠ 0 ∧ (s.fbc.get c).valid = true ∧
        ((amp = true → s.fbMode c = 1 ∧ (s.fbc.get c).ampOut = 3)) ∧ ((amp = false → pair = 2 → s.rb (Adr.FB_IDX_CFG c) 0 = true))) ∧
    (∃ (s : State) (c : Fin 24), s.sys.powered = true ∧ s.fbMode c ≠ 0 ∧ (s.fbc.get c).check = true ∧ ((s.fbMode c = 1 →
        (s.fbc.get c).ampOut = 0)) ∧ s.slMin c ≤ s.slMax c) ∧
    (∃ (s : State) (c : Fin 24), s.sys.powered = true ∧ (s.fbc.get c).check = false) ∧
    (∃ (s : State) (c : Fin 24) (z : Bool), s.sys.powered = true ∧ (((s.fbMode c = 2 ∧ (s.fbc.get c).valid = true ∧
        s.rb (Adr.FB_IDX_CFG c) 0 = true ∧ z ≠ s.rb (Adr.FB_IDX_CFG c) 3 ∧
        (4 ≤ (s.rf (Adr.FB_IDX_CFG c) 6 4) ∨ (s.fbc.get c).st.toNat = (s.rf (Adr.FB_IDX_CFG c) 6 4))))) ∧ (s.fbc.get c).refd = false ∧
        s.rb (Adr.FB_IDX_CFG c) 2 = false) ∧
    (∃ (s : State) (c : Fin 24) (z : Bool), s.sys.powered = true ∧ (((s.fbMode c = 2 ∧ (s.fbc.get c).valid = true ∧
        s.rb (Adr.FB_IDX_CFG c) 0 = true ∧ z ≠ s.rb (Adr.FB_IDX_CFG c) 3 ∧
        (4 ≤ (s.rf (Adr.FB_IDX_CFG c) 6 4) ∨ (s.fbc.get c).st.toNat = (s.rf (Adr.FB_IDX_CFG c) 6 4))))) ∧ (s.fbc.get c).refd = true ∧
        (s.fbc.get c).suspect = false ∧ (s.fbc.get c).count = (expectedIndex (s.fbc.get c).org (s.fbc.get c).count (s.reg (Adr.FB_IDX_PERIOD c)).toNat)) ∧
    (∃ (s : State) (c : Fin 24) (z : Bool), s.sys.powered = true ∧ (((s.fbMode c = 2 ∧ (s.fbc.get c).valid = true ∧
        s.rb (Adr.FB_IDX_CFG c) 0 = true ∧ z ≠ s.rb (Adr.FB_IDX_CFG c) 3 ∧
        (4 ≤ (s.rf (Adr.FB_IDX_CFG c) 6 4) ∨ (s.fbc.get c).st.toNat = (s.rf (Adr.FB_IDX_CFG c) 6 4))))) ∧ (s.fbc.get c).refd = true ∧
        (s.fbc.get c).suspect = false ∧ indexTol (s.rf (Adr.FB_IDX_TOL c) 15 0) (s.reg (Adr.FB_IDX_PERIOD c)).toNat < ((s.fbc.get c).count - (expectedIndex (s.fbc.get c).org (s.fbc.get c).count (s.reg (Adr.FB_IDX_PERIOD c)).toNat)).natAbs) ∧
    (∃ (s : State) (c : Fin 24) (z : Bool), s.sys.powered = true ∧
        (s.fbMode c = 0 ∨ (s.fbc.get c).valid = false ∨ s.rb (Adr.FB_IDX_CFG c) 0 = false ∨ z = s.rb (Adr.FB_IDX_CFG c) 3)) :=
  ⟨⟨feeding 2 id, 0, true, false, by decide +kernel⟩,
   ⟨feeding 2 (fun h => { h with valid := true }), 0, true, false, 1, by decide +kernel⟩,
   ⟨feeding 2 (fun h => { h with valid := true }), 0, true, true, by decide +kernel⟩,
   ⟨feeding 1 id, 0, 1000, 0, by decide +kernel⟩,
   ⟨feeding 1 (fun h => { h with valid := true }), 0, 1000, 0, by decide +kernel⟩,
   ⟨feeding 1 (fun h => { h with valid := true, phi := 3072 }), 0, 1000, 0, by decide +kernel⟩,
   ⟨feeding 1 (fun h => { h with valid := true, ampOut := 2 }), 0, 0, 0, by decide +kernel⟩,
   ⟨feeding 2 (fun h => { h with valid := true }), 0, 0, false, by decide +kernel⟩,
   ⟨feeding 2 (fun h => { h with check := true }), 0, by decide +kernel⟩,
   ⟨live, 23, by decide +kernel⟩,
   ⟨(feeding 2 (fun h => { h with valid := true })).setReg (Adr.FB_IDX_CFG 0) 1, 0, true, by decide +kernel⟩,
   ⟨(feeding 2 (fun h => { h with valid := true, refd := true })).setReg (Adr.FB_IDX_CFG 0) 1, 0, true, by decide +kernel⟩,
   ⟨((feeding 2 (fun h => { h with valid := true, refd := true, count := 5 })).setReg (Adr.FB_IDX_CFG 0) 1).setReg (Adr.FB_IDX_TOL 0) 4, 0, true, by decide +kernel⟩,
   ⟨(feeding 2 (fun h => { h with valid := true })).setReg (Adr.FB_IDX_CFG 0) 1, 0, false, by decide +kernel⟩⟩

theorem witness_FeedbackWrites :
    (∃ (s : State) (m : Master) (c : Fin 24) (w : Word), Acts s m (Adr.FB_CFG c) 0xFF ∧ s.fbMode c ≠ 0 ∧
        (fld (s.written m (Adr.FB_CFG c) w) 1 0) ≠ 0) ∧
    (∃ (s : State) (m : Master) (c : Fin 24) (w : Word), Acts s m (Adr.FB_CFG c) 0xFF ∧
        (s.fbMode c = 0 ∨ (fld (s.written m (Adr.FB_CFG c) w) 1 0) = 0) ∧ (fld (s.written m (Adr.FB_CFG c) w) 1 0) ≠ s.fbMode c) ∧
    (∃ (s : State) (m : Master) (c : Fin 24), Acts s m (Adr.FB_CTL c) 1 ∧ s.fbMode c ≠ 0 ∧ (s.fbc.get c).valid = false) ∧
    (∃ (s : State) (m : Master) (c : Fin 24), Acts s m (Adr.FB_CTL c) 1 ∧ (s.fbMode c = 0 ∨ (s.fbc.get c).valid = true)) ∧
    (∃ (s : State) (m : Master) (c : Fin 24), Acts s m (Adr.FB_CTL c) 2 ∧ s.slMin c ≤ s.slMax c) ∧
    (∃ (s : State) (m : Master) (c : Fin 24), Acts s m (Adr.FB_STAT c) 16) ∧
    (∃ (s : State) (m : Master) (c : Fin 24) (a : Nat), a ∈ [Adr.FB_IDX_CFG c, Adr.FB_IDX_TOL c, Adr.FB_IDX_PERIOD c, Adr.FB_IDX_REF_LO c, Adr.FB_IDX_REF_LO c + 4] ∧ Acts s m a 0xFFFFFFFF) ∧
    (∃ (s : State) (m : Master) (c : Fin 24) (w : Word) (a : Nat), a ∈ [Adr.FB_SLMIN_LO c, Adr.FB_SLMIN_LO c + 4, Adr.FB_SLMAX_LO c, Adr.FB_SLMAX_LO c + 4] ∧ Acts s m a 0xFFFFFFFF ∧ (s.setReg a (s.written m a w)).slMax c ≤ (s.setReg a (s.written m a w)).slMin c) ∧
    (∃ (s : State) (m : Master) (c : Fin 24) (w : Word) (a : Nat), a ∈ [Adr.FB_SLMIN_LO c, Adr.FB_SLMIN_LO c + 4, Adr.FB_SLMAX_LO c, Adr.FB_SLMAX_LO c + 4] ∧ Acts s m a 0xFFFFFFFF ∧ (s.setReg a (s.written m a w)).slMin c < (s.setReg a (s.written m a w)).slMax c) :=
  ⟨⟨feeding 1 id, .pf0, 0, 2, by unfold Acts; decide +kernel⟩,
   ⟨live, .pf0, 23, 2, by unfold Acts; decide +kernel⟩,
   ⟨feeding 1 id, .pf0, 0, by unfold Acts; decide +kernel⟩,
   ⟨live, .pf0, 23, by unfold Acts; decide +kernel⟩,
   ⟨live, .pf0, 23, by unfold Acts; decide +kernel⟩,
   ⟨live, .pf0, 23, by unfold Acts; decide +kernel⟩,
   ⟨live, .pf0, 23, Adr.FB_IDX_PERIOD 23, by unfold Acts; decide +kernel⟩,
   ⟨((live.setReg (Adr.FB_SLMIN_LO 0) 0).setReg (Adr.FB_SLMIN_LO 0 + 4) 0).setReg (Adr.FB_SLMAX_LO 0 + 4) 0, .pf0, 0, 0, Adr.FB_SLMAX_LO 0, by unfold Acts; decide +kernel⟩,
   ⟨((live.setReg (Adr.FB_SLMIN_LO 0) 0).setReg (Adr.FB_SLMIN_LO 0 + 4) 0).setReg (Adr.FB_SLMAX_LO 0 + 4) 0, .pf0, 0, 1, Adr.FB_SLMAX_LO 0, by unfold Acts; decide +kernel⟩⟩

theorem witness_ProbesAndEmulation :
    (∃ (s : State) (q : Fin 16) (lv : Bool), s.sys.powered = true ∧ (lv != bitOf (s.reg (Adr.PRB_CFG q)) 6) = (s.prb.get q).level) ∧
    (∃ (s : State) (q : Fin 16) (lv : Bool), s.sys.powered = true ∧ (lv != bitOf (s.reg (Adr.PRB_CFG q)) 6) ≠ (s.prb.get q).level ∧
        fld (s.reg (Adr.PRB_CFG q)) 5 4 = 0) ∧
    (∃ (s : State) (q : Fin 16) (lv : Bool) (k : Nat), s.sys.powered = true ∧ (lv != bitOf (s.reg (Adr.PRB_CFG q)) 6) = true ∧
        (s.prb.get q).level = false ∧ fld (s.reg (Adr.PRB_CFG q)) 5 4 = 1 ∧ fld (s.reg (Adr.PRB_CFG q)) 3 2 = 0 ∧
        bitOf (s.reg (Adr.PRB_CFG q)) 0 = true ∧ 8 * fld (s.reg (Adr.PRB_CFG q)) 23 16 + 2 ≤ k) ∧
    (∃ (s : State) (m : Master) (e : Fin 4) (w : Word), Acts s m (Adr.EMU_CFG e) 0xFFFFFF ∧ s.rf (Adr.EMU_CFG e) 1 0 ≠ 0 ∧
        (fld (s.written m (Adr.EMU_CFG e) w) 1 0) ≠ 0) ∧
    (∃ (s : State) (m : Master) (e : Fin 4) (w : Word), Acts s m (Adr.EMU_CFG e) 0xFFFFFF ∧ (fld (s.written m (Adr.EMU_CFG e) w) 1 0) = 0) ∧
    (∃ (s : State) (m : Master) (e : Fin 4) (w : Word), Acts s m (Adr.EMU_CFG e) 0xFFFFFF ∧ s.rf (Adr.EMU_CFG e) 1 0 = 0 ∧
        (fld (s.written m (Adr.EMU_CFG e) w) 1 0) = 2) ∧
    (∃ (s : State) (m : Master) (e : Fin 4) (w : Word), Acts s m (Adr.EMU_CFG e) 0xFFFFFF ∧ s.rf (Adr.EMU_CFG e) 1 0 = 0 ∧
        (fld (s.written m (Adr.EMU_CFG e) w) 1 0) = 1 ∧ bitOf (s.written m (Adr.EMU_CFG e) w) 4 = false) :=
  ⟨⟨live, 15, false, by decide +kernel⟩,
   ⟨live, 15, true, by decide +kernel⟩,
   ⟨live.setReg (Adr.PRB_CFG 0) 0x10011#32, 0, true, 10, by decide +kernel⟩,
   ⟨live.setReg (Adr.EMU_CFG 3) 2, .pf0, 3, 1, by unfold Acts; decide +kernel⟩,
   ⟨live.setReg (Adr.EMU_CFG 3) 2, .pf0, 3, 0, by unfold Acts; decide +kernel⟩,
   ⟨live, .pf0, 3, 2, by unfold Acts; decide +kernel⟩,
   ⟨live, .pf0, 3, 1, by unfold Acts; decide +kernel⟩⟩

theorem witness_Supplies :
    (∃ (s : State) (d : DomainId), s.sys.powered = true ∧ s.cmpOut (400 + d.val) = false ∧ s.cmp.vmLo.getLsbD d = false) ∧
    (∃ (s : State) (d : DomainId), s.sys.powered = true ∧ s.cmpOut (400 + d.val) = false ∧ s.cmp.vmLo.getLsbD d = true) ∧
    (∃ (s : State) (u : CarrierId), s.sys.powered = true ∧ s.cmpOut (ovCmp u) = false ∧ (s.cu.get u).ov = false) ∧
    (∃ (s : State) (u : CarrierId), s.sys.powered = true ∧ (s.cmpOut (ovCmp u) = true ∨ (s.cu.get u).ov = true)) ∧
    (∃ (s : State) (b : DomainId), s.sys.powered = true ∧ s.atLimit b = true) ∧
    (∃ (s : State) (b : DomainId), s.sys.powered = true ∧ s.atLimit b = false) ∧
    (∃ (s : State) (r : Fin 13), s.sys.powered = true ∧ s.cmp.railLo.getLsbD r = false) ∧
    (∃ (s : State) (r : Fin 13), s.sys.powered = true ∧ s.cmp.railHi.getLsbD r = false) ∧
    (∃ (s : State) (r : Fin 13), s.sys.powered = true ∧ s.cmp.railLo.getLsbD r = true) ∧
    (∃ (s : State) (r : Fin 13), s.sys.powered = true ∧ s.cmp.railHi.getLsbD r = true) ∧
    (∃ (s : State) (m : Master), s.sys.powered = true ∧ s.cmp.sweep = none ∧ m.admin = true) ∧
    (∃ (s : State), s.sys.powered = true ∧ (s.rf Adr.CMP_CFG 27 16 = 0 ∨ s.since s.cmp.sweepFrom < s.rf Adr.CMP_CFG 27 16 * s.hz)) ∧
    (∃ (s : State), s.sys.powered = true ∧ s.cmp.sweep = none ∧ s.rf Adr.CMP_CFG 27 16 ≠ 0 ∧
        s.rf Adr.CMP_CFG 27 16 * s.hz ≤ s.since s.cmp.sweepFrom) ∧
    (∃ (s : State) (id : Nat) (n : Nat), s.sys.powered = true ∧ s.cmp.sweep = some (id, n) ∧ id < 431 ∧ s.refErrOf id = true) ∧
    (∃ (s : State) (id : Nat) (n : Nat) (o : TestOutcome), s.sys.powered = true ∧ s.cmp.sweep = some (id, n) ∧ id < 431 ∧
        s.refErrOf id = false ∧ (s.since s.cmp.sweepAt < 32 ∨ o = .refErr)) ∧
    (∃ (s : State) (id : Nat) (n : Nat) (o : TestOutcome), s.sys.powered = true ∧ s.cmp.sweep = some (id, n) ∧ id < 431 ∧
        s.refErrOf id = false ∧ 32 ≤ s.since s.cmp.sweepAt ∧ o ≠ .refErr ∧ s.cmp.heldWr = none) ∧
    (∃ (s : State) (id : Nat) (n : Nat) (o : TestOutcome) (a : Nat) (v : Word), s.sys.powered = true ∧ s.cmp.sweep = some (id, n) ∧
        id < 431 ∧ s.refErrOf id = false ∧ 32 ≤ s.since s.cmp.sweepAt ∧ o ≠ .refErr ∧ s.cmp.heldWr = some (a, v) ∧ cmpOfReg a = some id) ∧
    (∃ (s : State) (m : Master) (a : Nat) (id : Nat) (w : Word), s.sys.powered = true ∧ cmpOfReg a = some id ∧ Acts s m a 0xFFFFFFFF ∧
        (id < 407 ∨ 432 ≤ id) ∧ winHi (s.written m a w) ≤ winLo (s.written m a w)) ∧
    (∃ (s : State) (m : Master) (a : Nat) (id : Nat) (w : Word) (n : Nat), s.sys.powered = true ∧ cmpOfReg a = some id ∧
        Acts s m a 0xFFFFFFFF ∧ ((407 ≤ id ∧ id < 432) ∨ winLo (s.written m a w) < winHi (s.written m a w)) ∧ s.cmp.sweep = some (id, n)) ∧
    (∃ (s : State) (m : Master) (a : Nat) (id : Nat) (w : Word), s.sys.powered = true ∧ cmpOfReg a = some id ∧ Acts s m a 0xFFFFFFFF ∧
        ((407 ≤ id ∧ id < 432) ∨ winLo (s.written m a w) < winHi (s.written m a w)) ∧ s.cmp.sweep.map Prod.fst ≠ some id) ∧
    (∃ (s : State), s.sys.powered = true ∧ (s.carriers = false ∨ s.frm.count.toNat % 1024 ≠ 0)) ∧
    (∃ (s : State), s.sys.powered = true ∧ s.carriers = true ∧ s.frm.count.toNat % 1024 = 0) :=
  ⟨⟨live, 6, by decide +kernel⟩,
   ⟨{ live with cmp := { live.cmp with vmLo := 64 } }, 6, by decide +kernel⟩,
   ⟨live, 24, by decide +kernel⟩,
   ⟨live.modCu 24 (fun c => { c with ov := true }), 24, by decide +kernel⟩,
   ⟨{ live.setReg (Adr.CMP_BRK 6) 0x20000#32 with cmp := { live.cmp with brkCnt := List.replicate 7 2 } }, 6, by decide +kernel⟩,
   ⟨{ live.setReg (Adr.CMP_BRK 6) 0x30000#32 with cmp := { live.cmp with brkCnt := List.replicate 7 2 } }, 6, by decide +kernel⟩,
   ⟨live, 12, by decide +kernel⟩,
   ⟨live, 12, by decide +kernel⟩,
   ⟨{ live with cmp := { live.cmp with railLo := 0x1000 } }, 12, by decide +kernel⟩,
   ⟨{ live with cmp := { live.cmp with railHi := 0x1000 } }, 12, by decide +kernel⟩,
   ⟨live, .spiAdmin, by decide +kernel⟩,
   ⟨live.setReg Adr.CMP_CFG 0x10000#32, by decide +kernel⟩,
   ⟨(liveAt 100000).setReg Adr.CMP_CFG 0x10000#32, by decide +kernel⟩,
   ⟨({ live with cmp := { live.cmp with sweep := some (0, 0), sweepAt := 999 } }).modCu 0 (fun c => { c with refErr := true }), 0, 0,
       by decide +kernel⟩,
   ⟨{ live with cmp := { live.cmp with sweep := some (430, 0), sweepAt := 969 } }, 430, 0, .passed, by decide +kernel⟩,
   ⟨{ live with cmp := { live.cmp with sweep := some (430, 0), sweepAt := 968 } }, 430, 0, .failed, by decide +kernel⟩,
   ⟨{ live with cmp := { live.cmp with sweep := some (406, 0), sweepAt := 968, heldWr := some (Adr.CMP_VM 6, 0x50001#32) } }, 406, 0, .passed, Adr.CMP_VM 6, 0x50001#32, by decide +kernel⟩,
   ⟨live, .pf0, Adr.CMP_VM 6, 406, 0x50005#32, by unfold Acts; decide +kernel⟩,
   ⟨{ live with cmp := { live.cmp with sweep := some (406, 2) } }, .pf0, Adr.CMP_VM 6, 406, 0x60005#32, 2, by unfold Acts; decide +kernel⟩,
   ⟨live, .pf0, Adr.CMP_VM 6, 406, 0x60005#32, by unfold Acts; decide +kernel⟩,
   ⟨live, by decide +kernel⟩,
   ⟨liveAt 1024, by decide +kernel⟩⟩

theorem witness_HighVmEntry :
    (∃ (s : State) (d : DomainId), s.sys.powered = true ∧ s.cmpOut (400 + d.val) = false ∧ s.cmp.vmHi.getLsbD d = false ∧
        s.cmp.vmHiUnset.getLsbD d = false) ∧
    (∃ (s : State) (d : DomainId), s.sys.powered = true ∧ s.cmpOut (400 + d.val) = false ∧ s.cmp.vmHi.getLsbD d = true) :=
  ⟨⟨live, 6, by decide +kernel⟩,
   ⟨{ live with cmp := { live.cmp with vmHi := 64 } }, 6, by decide +kernel⟩⟩

theorem witness_LineFrames :
    (∃ (s : State) (p : Fin 2) (b : List Byte) (ns : Nat) (clk : Nat) (pos : Fin 8) (size : Fin 9) (rate : Fin 4) (c : Instr), c ∈ [.lineStatusReceive p ⟨b, pos⟩, .lineArriveReceive p b, .lineSnapCmdReceive p b, .lineSnapDoneReceive p b, .linePingReceive p b ⟨ns, clk⟩, .lineResetReceive p ⟨b, pos, size, rate⟩] ∧ s.line.mode = .off) ∧
    (∃ (s : State) (p : Fin 2) (b : List Byte) (ns : Nat) (clk : Nat) (pos : Fin 8) (size : Fin 9) (rate : Fin 4) (c : Instr), c ∈ [.lineStatusReceive p ⟨b, pos⟩, .lineArriveReceive p b, .lineSnapCmdReceive p b, .lineSnapDoneReceive p b, .linePingReceive p b ⟨ns, clk⟩, .lineResetReceive p ⟨b, pos, size, rate⟩] ∧ s.line.mode ≠ .off ∧ (u8 b 1 % 8) = s.station ∧ frameOk b = true) ∧
    (∃ (s : State) (p : Fin 2) (b : List Byte) (ns : Nat) (clk : Nat) (pos : Fin 8) (size : Fin 9) (rate : Fin 4) (c : Instr), c ∈ [.lineStatusReceive p ⟨b, pos⟩, .lineArriveReceive p b, .lineSnapCmdReceive p b, .lineSnapDoneReceive p b, .linePingReceive p b ⟨ns, clk⟩, .lineResetReceive p ⟨b, pos, size, rate⟩] ∧ s.line.mode ≠ .off ∧ frameOk b = false) ∧
    (∃ (s : State) (b : List Byte), Accepted s 2 b) ∧
    (∃ (s : State) (b : List Byte), Accepted s 3 b ∧ s.line.mode = .joined ∧ ((∀ x ∈ s.line.snaps, ¬ (x.issuer = (u8 b 1 % 8) ∧
        x.frame = BitVec.ofNat 64 (u64 (payload b) 0))))) ∧
    (∃ (s : State) (b : List Byte), Accepted s 4 b ∧ ((∀ r ∈ s.line.dones, ¬ (r.issuer = u8 (payload b) 8 ∧
        r.frame = BitVec.ofNat 64 (u64 (payload b) 0) ∧ r.station = (u8 b 1 % 8))))) ∧
    (∃ (s : State) (b : List Byte), Accepted s 6 b ∧ (u8 b 1 % 8) = 0) ∧
    (∃ (s : State) (b : List Byte), Accepted s 6 b ∧ s.station = 0 ∧ s.line.mode = .joined) ∧
    (∃ (s : State) (b : List Byte), Accepted s 1 b ∧ s.line.mode = .joined) ∧
    (∃ (s : State) (b : List Byte) (rate : Fin 4), Accepted s 5 b ∧ (u8 b 1 % 8) = 0 ∧ s.line.reset = none ∧ rate = s.frm.rate) ∧
    (∃ (s : State) (b : List Byte) (rate : Fin 4), Accepted s 5 b ∧ (u8 b 1 % 8) = 0 ∧ s.line.reset = none ∧ rate ≠ s.frm.rate ∧
        ((∀ x : AxisId, (s.ax.get x).isParked = true))) ∧
    (∃ (s : State) (b : List Byte) (rate : Fin 4), Accepted s 5 b ∧ (u8 b 1 % 8) = 0 ∧ s.line.reset = none ∧ rate ≠ s.frm.rate ∧
        ((∃ x : AxisId, (s.ax.get x).isParked = false))) ∧
    (∃ (s : State) (b : List Byte) (r : LineReset), Accepted s 5 b ∧ s.line.reset = some r ∧ r.places.contains (some s.station) = false) :=
  ⟨⟨live, 1, [], 0, 0, 0, 0, 0, .lineResetReceive 1 ⟨[], 0, 0, 0⟩, by decide +kernel⟩,
   ⟨onLine .joined, 1, (lineFr 1 1 (List.replicate 4 0)), 0, 0, 0, 0, 0, .lineStatusReceive 1 ⟨(lineFr 1 1 (List.replicate 4 0)), 0⟩,
       by decide +kernel⟩,
   ⟨onLine .joined, 1, [], 0, 0, 0, 0, 0, .lineStatusReceive 1 ⟨[], 0⟩, by decide +kernel⟩,
   ⟨onLine .joined, (lineFr 2 2 (List.replicate 8 0)), by unfold Accepted; decide +kernel⟩,
   ⟨onLine .joined, (lineFr 3 2 (List.replicate 33 0)), by unfold Accepted; decide +kernel⟩,
   ⟨onLine .joined, (lineFr 4 2 (List.replicate 12 0)), by unfold Accepted; decide +kernel⟩,
   ⟨onLine .search, (lineFr 6 0 (List.replicate 4 0)), by unfold Accepted; decide +kernel⟩,
   ⟨(onLine .joined).setReg Adr.LINE_CFG 1, (lineFr 6 2 (List.replicate 4 0)), by unfold Accepted; decide +kernel⟩,
   ⟨onLine .joined, (lineFr 1 0 (List.replicate 4 0)), by unfold Accepted; decide +kernel⟩,
   ⟨onLine .joined, (lineFr 5 0 (List.replicate 9 0)), 0, by unfold Accepted; decide +kernel⟩,
   ⟨parkedOnLine .search, (lineFr 5 0 (List.replicate 9 0)), 1, by unfold Accepted; decide +kernel⟩,
   ⟨inMode (onLine .joined) .hold, (lineFr 5 0 (List.replicate 9 0)), 1, by unfold Accepted; decide +kernel⟩,
   ⟨{ onLine .locking with line := { (onLine .locking).line with reset := some ⟨999, [some 0], false⟩ } }, (lineFr 5 2 (List.replicate 9 0)), ⟨999, [some 0], false⟩, by unfold Accepted; decide +kernel⟩⟩

theorem witness_LineState :
    (∃ (s : State), (s.line.mode = .off ∨ s.station = 0)) ∧
    (∃ (s : State) (p : Fin 2), s.line.mode ≠ .off ∧ s.station ≠ 0 ∧ (p = s.line.lockPort ∨ s.line.topo = 1)) ∧
    (∃ (s : State) (p : Fin 2), s.line.mode ≠ .off ∧ s.station ≠ 0 ∧ p ≠ s.line.lockPort ∧ s.line.topo ≠ 1) ∧
    (∃ (data : Byte) (inv : Byte), inv ≠ ~~~data) ∧
    (∃ (s : State) (data : Byte) (inv : Byte), inv = ~~~data ∧ s.line.mode ≠ .off ∧ (data.toNat % 8) ≠ s.station ∧
        data.getLsbD 7 = true ∧ s.line.estop = 0) ∧
    (∃ (s : State) (data : Byte) (inv : Byte), inv = ~~~data ∧ s.line.mode ≠ .off ∧ (data.toNat % 8) ≠ s.station ∧
        data.getLsbD 7 = true ∧ s.line.estop ≠ 0) ∧
    (∃ (s : State) (data : Byte) (inv : Byte), inv = ~~~data ∧ s.line.mode ≠ .off ∧ (data.toNat % 8) ≠ s.station ∧ data.getLsbD 7 = false) ∧
    (∃ (s : State) (m : Master), Acts s m Adr.LINE_CTL 0 ∧ s.line.own = none) ∧
    (∃ (s : State) (m : Master), Acts s m Adr.LINE_CTL 0 ∧ s.line.own.isSome = true) ∧
    (∃ (s : State) (m : Master), Acts s m Adr.LINE_CTL 1 ∧ s.line.mode ≠ .off) ∧
    (∃ (s : State), s.station ≠ 0 ∧ (s.line.mode = .joined ∨ s.line.mode = .locking) ∧ (s.line.gotTick = false ∨ s.line.up = 0)) ∧
    (∃ (s : State), (s.station = 0 ∨ (s.line.gotTick = true ∧ s.line.up ≠ 0))) ∧
    (∃ (s : State) (p : Fin 2), s.portUp p = true) ∧
    (∃ (s : State) (p : Fin 2), s.portUp p = false) ∧
    (∃ (s : State), s.station ≠ 0 ∧ s.line.mode = .locking ∧ s.line.locked = true ∧ s.line.missed = 0 ∧
        s.line.joinAt.any (fun f => frameLe (f + 2) s.frm.count) = true ∧
        ((s.line.peer 0).seen = none ∨ (Fin.ofNat 4 (s.line.peer 0).rate = s.frm.rate) ∨ (∀ x : AxisId, (s.ax.get x).isParked = true))) ∧
    (∃ (s : State), (s.station = 0 ∨ s.line.mode ≠ .locking ∨ s.line.locked = false ∨ s.line.joinAt = none)) ∧
    (∃ (s : State) (r : LineReset) (n : Fin 9), s.line.reset = some r ∧ s.frm.count = r.start + BitVec.ofNat 64 n.val ∧ n ≠ 0 ∧
        (r.places.drop n.val).any Option.isSome = false) ∧
    (∃ (s : State) (r : LineReset), s.line.reset = some r ∧ ((∀ n : Fin 9, n ≠ 0 → s.frm.count ≠ r.start + BitVec.ofNat 64 n.val))) ∧
    (∃ (s : State), s.line.reset = none) ∧
    (∃ (s : State) (i : Word) (b : LineBar), s.line.bars.find? (fun b => b.id == i && !b.released && b.full.any fun f => frameLe (f + 2) s.frm.count) = some b) ∧
    (∃ (s : State) (m : Master) (w : Word), Acts s m Adr.LINE_CFG 0 ∧ s.rb Adr.LINE_CFG 0 = false ∧
        bitOf (s.written m Adr.LINE_CFG w) 0 = true ∧ ((∀ r ∈ s.frm.adm, r.kind ≠ .line))) ∧
    (∃ (s : State) (m : Master) (w : Word), Acts s m Adr.LINE_CFG 0 ∧ s.rb Adr.LINE_CFG 0 = true ∧
        bitOf (s.written m Adr.LINE_CFG w) 0 = false) :=
  ⟨⟨live, by decide +kernel⟩,
   ⟨onLine .search, 1, by decide +kernel⟩,
   ⟨onLine .joined, 0, by decide +kernel⟩,
   ⟨7, 7, by decide +kernel⟩,
   ⟨onLine .joined, 0x87, 0x78, by decide +kernel⟩,
   ⟨{ onLine .joined with line := { (onLine .joined).line with estop := 1 } }, 0x87, 0x78, by decide +kernel⟩,
   ⟨onLine .joined, 7, 0xF8, by decide +kernel⟩,
   ⟨onLine .joined, .pf0, by unfold Acts; decide +kernel⟩,
   ⟨{ onLine .joined with line := { (onLine .joined).line with own := some 0 } }, .pf0, by unfold Acts; decide +kernel⟩,
   ⟨onLine .joined, .pf0, by unfold Acts; decide +kernel⟩,
   ⟨onLine .joined, by decide +kernel⟩,
   ⟨live, by decide +kernel⟩,
   ⟨onLine .joined, 1, by decide +kernel⟩,
   ⟨live, 1, by decide +kernel⟩,
   ⟨{ onLine .locking with line := { (onLine .locking).line with joinAt := some 998, locked := true } }, by decide +kernel⟩,
   ⟨onLine .joined, by decide +kernel⟩,
   ⟨{ onLine .locking with line := { (onLine .locking).line with reset := some ⟨998, [some 0, some 1], false⟩ } }, ⟨998, [some 0, some 1], false⟩, 2, by decide +kernel⟩,
   ⟨{ onLine .locking with line := { (onLine .locking).line with reset := some ⟨1000, [some 0, some 1], false⟩ } }, ⟨1000, [some 0, some 1], false⟩, by decide +kernel⟩,
   ⟨live, by decide +kernel⟩,
   ⟨{ onLine .joined with line := { (onLine .joined).line with bars := [⟨7, 2, 2, [], some 998, false⟩] } }, 7, ⟨7, 2, 2, [], some 998, false⟩, by decide +kernel⟩,
   ⟨live, .pf0, 1, by unfold Acts; decide +kernel⟩,
   ⟨onLine .joined, .pf0, 0x10#32, by unfold Acts; decide +kernel⟩⟩

theorem witness_Metering :
    (∃ (s : State), s.sys.powered = false) ∧
    (∃ (s : State), s.sys.powered = false) ∧
    (∃ (s : State), s.sys.powered = false) ∧
    (∃ (s : State) (l : List (Int × Nat)) (d : Nat) (n : Int) (v : Nat), s.sys.powered = true ∧ s.wb.tblGo = false ∧ d < 7 ∧
        l.length = 7 ∧ l[d]? = some (n, v)) ∧
    (∃ (s : State), s.sys.powered = true ∧ s.wb.tblGo = true) ∧
    (∃ (s : State), s.sys.powered = true) ∧
    (∃ (s : State), s.sys.powered = true ∧ s.wb.checked = false ∧ s.wb.lostSb = false) ∧
    (∃ (s : State), s.sys.powered = true ∧ s.wb.checked = false ∧ s.wb.lostSb = true) ∧
    (∃ (s : State) (m : Master), Acts s m Adr.WB_CTL 4 ∧ s.seal = 0) ∧
    (∃ (s : State) (m : Master), Acts s m Adr.WB_CTL 4 ∧ s.seal ≠ 0 ∧ s.wb.sb.rtcValid = true ∧
        300 * 32768 < ((s.reg64 Adr.WB_RTC_SET_LO : Int) - s.wb.sb.rtc).natAbs) ∧
    (∃ (s : State), s.sys.powered = true ∧ s.wb.rtcSet = none ∧ s.wb.tampDue ≠ 1) ∧
    (∃ (s : State), s.wb.lostSb = false ∧ s.wb.tampDue = 1) ∧
    (∃ (s : State) (v : Nat), s.sys.powered = true ∧ s.wb.rtcSet = some v ∧ s.wb.tampDue ≠ 1) ∧
    (∃ (s : State) (m : Master), Acts s m Adr.WB_CTL 1) ∧
    (∃ (s : State), s.sys.powered = false ∧ s.wb.lostSb = true) ∧
    (∃ (s : State) (i : Fin 2) (away : Bool), s.wb.lostSb = false ∧ (s.wb.table.tampEn.getLsbD i = false ∨ s.wb.away.getLsbD i = away)) ∧
    (∃ (s : State) (i : Fin 2) (away : Bool), s.wb.lostSb = false ∧ s.wb.table.tampEn.getLsbD i = true ∧ s.wb.away.getLsbD i ≠ away) :=
  ⟨⟨dark, by decide +kernel⟩,
   ⟨dark, by decide +kernel⟩,
   ⟨dark, by decide +kernel⟩,
   ⟨live, List.replicate 7 (-5, 48000), 6, -5, 48000, by decide +kernel⟩,
   ⟨{ live with wb := { live.wb with tblGo := true } }, by decide +kernel⟩,
   ⟨live, by decide +kernel⟩,
   ⟨live, by decide +kernel⟩,
   ⟨{ live with wb := { live.wb with lostSb := true } }, by decide +kernel⟩,
   ⟨live, .pf0, by unfold Acts; decide +kernel⟩,
   ⟨(({ live with sys := { live.sys with sealedVariant := true } }).setReg Adr.WB_RTC_SET_LO 9830401#32).modWb (fun w => { w with sb := { w.sb with rtcValid := true, rtc := 0 } }), .pf0, by unfold Acts; decide +kernel⟩,
   ⟨live, by decide +kernel⟩,
   ⟨live.modWb (fun w => { w with tampDue := 1, table := { w.table with tampEn := 3, tampNorm := 1 } }), by decide +kernel⟩,
   ⟨live.modWb (fun w => { w with rtcSet := some 77 }), 77, by decide +kernel⟩,
   ⟨live, .pf0, by unfold Acts; decide +kernel⟩,
   ⟨dark.modWb (fun w => { w with lostSb := true }), by decide +kernel⟩,
   ⟨live, 1, false, by decide +kernel⟩,
   ⟨live.modWb (fun w => { w with table := { w.table with tampEn := 3 } }), 1, true, by decide +kernel⟩⟩

theorem witness_SealAndRecords :
    (∃ (s : State) (b : Bool), s.wb.pad = b) ∧
    (∃ (s : State) (b : Bool), s.sys.powered = true ∧ s.wb.pad ≠ b ∧ s.wb.inst = 0) ∧
    (∃ (s : State), s.sys.powered = true ∧ s.wb.pad = true ∧ (s.wb.inst = 1 ∨ s.wb.inst = 2)) ∧
    (∃ (s : State) (m : Master), Acts s m Adr.WB_TBL_COMMIT 1) ∧
    (∃ (s : State) (m : Master), Acts s m Adr.WB_CTL 8) ∧
    (∃ (s : State) (g : Bool), s.wb.inst = 1 ∧ s.verifyReason g = none) ∧
    (∃ (s : State) (g : Bool) (r : Nat), s.wb.inst = 1 ∧ s.verifyReason g = some r) ∧
    (∃ (s : State), s.wb.inst ≠ 1) ∧
    (∃ (s : State), s.wb.inst = 2) ∧
    (∃ (s : State) (q : WbPkg), s.wb.inst = 3 ∧ s.wb.work = some q) ∧
    (∃ (s : State) (q : WbPkg), s.wb.inst = 4 ∧ s.wb.work = some q) ∧
    (∃ (s : State), s.wb.inst ≠ 4) ∧
    (∃ (s : State) (m : Master), Acts s m Adr.WB_CTL 2) ∧
    (∃ (s : State) (q : WbReq) (b : List Byte), s.wb.req = some q ∧ s.wb.taken = some b ∧ q.kind < 8) ∧
    (∃ (s : State), s.wb.req = none) :=
  ⟨⟨live, false, by decide +kernel⟩,
   ⟨live, true, by decide +kernel⟩,
   ⟨live.modWb (fun w => { w with pad := true, inst := 2 }), by decide +kernel⟩,
   ⟨live, .pf0, by unfold Acts; decide +kernel⟩,
   ⟨live, .pf0, by unfold Acts; decide +kernel⟩,
   ⟨live.modWb (fun w => { w with inst := 1, work := some ⟨9, 8192, false, [], 0⟩ }), true, by decide +kernel⟩,
   ⟨live.modWb (fun w => { w with inst := 1, work := some ⟨9, 8192, false, [], 0⟩ }), false, 1, by decide +kernel⟩,
   ⟨live, by decide +kernel⟩,
   ⟨live.modWb (fun w => { w with inst := 2 }), by decide +kernel⟩,
   ⟨live.modWb (fun w => { w with inst := 3, work := some ⟨9, 8192, false, [], 0⟩ }), ⟨9, 8192, false, [], 0⟩, by decide +kernel⟩,
   ⟨live.modWb (fun w => { w with inst := 4, work := some ⟨9, 8192, false, [], 0⟩ }), ⟨9, 8192, false, [], 0⟩, by decide +kernel⟩,
   ⟨live, by decide +kernel⟩,
   ⟨live.setReg Adr.WB_REQ 3, .pf0, by unfold Acts; decide +kernel⟩,
   ⟨live.modWb (fun w => { w with req := some ⟨3, 5, [], 0⟩, taken := some [1] }), ⟨3, 5, [], 0⟩, [1], by decide +kernel⟩,
   ⟨live, by decide +kernel⟩⟩

/-- The response that is the answer is right, whatever its low word changes. -/
theorem given_ok (s : State) (n : Nat) (k : (s.keySet && !s.acc.blocked) = true) (h : s.spiAnswer = n) :
    ((given s n).keySet && !(given s n).acc.blocked &&
      (given s n).spiAnswer == (given s n).acc.respLo.toNat + 2 ^ 32 * (BitVec.ofNat 32 (n / 2 ^ 32)).toNat) = true := by
  have hn : n < 2 ^ 64 := h ▸ spiAnswer_lt s
  have hs : (given s n).keySet = s.keySet := rfl
  have hb : (given s n).acc.blocked = s.acc.blocked := rfl
  have hk : (given s n).spiKey = s.spiKey := rfl
  have hc : (given s n).challenge = s.challenge := rfl
  have e : (given s n).acc.respLo = BitVec.ofNat 32 n := rfl
  have ha : (given s n).spiAnswer = n := by
    refine Eq.trans ?_ h
    unfold State.spiAnswer
    rw [hk, hc]
  rw [hs, hb, k, e, ha, Bool.true_and, beq_iff_eq, BitVec.toNat_ofNat, BitVec.toNat_ofNat]
  omega

theorem witness_ServicePort :
    (∃ (s : State) (b : List Byte), (s.spiOn = false ∨ u8 b 0 ≠ 2)) ∧
    (∃ (s : State) (b : List Byte), (s.spiOn = false ∨ u8 b 0 ≠ 0x0B)) ∧
    (∃ (s : State) (b : List Byte), s.spiOn = true ∧ u8 b 0 = 2 ∧
        (b.length ≠ 9 + 4 * spiCount b ∨ crc32c (b.take (b.length - 4)) ≠ wd (u32 b (b.length - 4)))) ∧
    (∃ (s : State) (b : List Byte), s.spiOn = true ∧ u8 b 0 = 2 ∧ b.length = 13 ∧ u8 b 4 = 1 ∧ crc32c (b.take 9) = wd (u32 b 9) ∧
        spiAddr b = Adr.GCTL_SCRATCH ∧ s.acc.admin = false) ∧
    (∃ (s : State) (b : List Byte), s.spiOn = true ∧ u8 b 0 = 2 ∧ b.length = 13 ∧ u8 b 4 = 1 ∧ crc32c (b.take 9) = wd (u32 b 9) ∧
        spiAddr b = Adr.GCTL_SCRATCH ∧ s.acc.admin = true) ∧
    (∃ (s : State) (b : List Byte), s.spiOn = true ∧ u8 b 0 = 0x0B ∧ 5 ≤ b.length ∧ u8 b 4 = 1 ∧ spiAddr b < 0x400000) ∧
    (∃ (s : State) (m : Master) (w : Word), Acts s m Adr.ACC_SPI_RESP_HI 0 ∧
        (s.keySet && !s.acc.blocked && s.spiAnswer == s.acc.respLo.toNat + 2 ^ 32 * w.toNat) = true) ∧
    (∃ (s : State) (m : Master) (w : Word), Acts s m Adr.ACC_SPI_RESP_HI 0 ∧
        (s.keySet && !s.acc.blocked && s.spiAnswer == s.acc.respLo.toNat + 2 ^ 32 * w.toNat) = false) ∧
    (∃ (s : State) (m : Master), Acts s m 0x40034 0) ∧
    (∃ (s : State) (a : Nat), s.sys.powered = true ∧ isCfg a = true ∧ a < 0x1A0000 ∧ s.acc.parity.contains a = false) ∧
    (∃ (a : Nat), isCfg a = false ∧ a < 0x1A0000) ∧
    (∃ (s : State) (m : Master), Acts s m Adr.ACC_PAR_STAT 1) :=
  ⟨⟨live, [3], by decide +kernel⟩,
   ⟨live, [2], by decide +kernel⟩,
   ⟨{ live.setReg Adr.ACC_OPT 1 with acc := { live.acc with admin := false } }, [2, 0, 0, 0, 1], by decide +kernel⟩,
   ⟨{ live.setReg Adr.ACC_OPT 1 with acc := { live.acc with admin := false } }, spiScratch, by decide +kernel⟩,
   ⟨{ live.setReg Adr.ACC_OPT 1 with acc := { live.acc with admin := true } }, spiScratch, by decide +kernel⟩,
   ⟨{ live.setReg Adr.ACC_OPT 1 with acc := { live.acc with admin := true } }, [0x0B, 0, 0, 0, 1], by decide +kernel⟩,
   ⟨(given keySet keySet.spiAnswer), .pf0, (BitVec.ofNat 32 (keySet.spiAnswer / 2 ^ 32)),
       by unfold Acts; decide +kernel, given_ok keySet _ (by decide +kernel) rfl⟩,
   ⟨live, .spiOpen, 0, by unfold Acts; decide +kernel⟩,
   ⟨live, .spiAdmin, by unfold Acts; decide +kernel⟩,
   ⟨live, Adr.FB_SLMIN_LO 23, by decide +kernel⟩,
   ⟨Adr.FRM_COUNT_LO, by decide +kernel⟩,
   ⟨live, .pf0, by unfold Acts; decide +kernel⟩⟩

theorem witness_PowerAndBoot :
    (∃ (s : State), s.sys.powered = true) ∧
    (∃ (s : State), s.sys.powered = false) ∧
    (∃ (s : State) (m : Master) (w : Word), Acts s m Adr.GCTL_RESET 0xFFFF0001 ∧ fld w 31 16 = 0x5A5A ∧ bitOf w 0 = true) ∧
    (∃ (s : State) (m : Master) (w : Word), Acts s m Adr.GCTL_RESET 0xFFFF0001 ∧ (fld w 31 16 ≠ 0x5A5A ∨ bitOf w 0 = false)) ∧
    (∃ (s : State) (a : Bool) (b : Bool) (k : Bool), s.sys.powered = true ∧ s.sys.booted = false ∧
        (fun (k : Bool) => (if k then b else a) && (s.upd.slot k).good) k = true ∧
        ((k = s.upd.boot ∨ (fun (k : Bool) => (if k then b else a) && (s.upd.slot k).good) s.upd.boot = false))) ∧
    (∃ (s : State) (a : Bool) (b : Bool), s.sys.powered = true ∧ s.sys.booted = false ∧
        (fun (k : Bool) => (if k then b else a) && (s.upd.slot k).good) true = false ∧
        (fun (k : Bool) => (if k then b else a) && (s.upd.slot k).good) false = false) ∧
    (∃ (s : State), (s.sys.powered = false ∨ s.sys.booted = true)) ∧
    (∃ (s : State) (m : Master), Acts s m Adr.GCTL_PWR 1) ∧
    (∃ (s : State), s.sys.powered = true ∧ s.rb Adr.GCTL_PWR 0 = true ∧ s.sys.prepCkpt = true ∧
        ((∀ x : AxisId, (s.ax.get x).tt.mode = .parked ∨ (s.ax.get x).tt.mode = .disabled))) ∧
    (∃ (s : State), s.sys.prepCkpt = false) :=
  ⟨⟨live, by decide +kernel⟩,
   ⟨dark, by decide +kernel⟩,
   ⟨live, .pf0, 0x5A5A0001#32, by unfold Acts; decide +kernel⟩,
   ⟨live, .pf0, 0x5A5A0000#32, by unfold Acts; decide +kernel⟩,
   ⟨State.reset, true, false, false, by decide +kernel⟩,
   ⟨State.reset, false, false, by decide +kernel⟩,
   ⟨live, by decide +kernel⟩,
   ⟨live, .pf0, by unfold Acts; decide +kernel⟩,
   ⟨{ live.setReg Adr.GCTL_PWR 1 with sys := { live.sys with prepCkpt := true } }, by decide +kernel⟩,
   ⟨live, by decide +kernel⟩⟩

theorem witness_CalibrationAndUpdates :
    (∃ (s : State) (u : CarrierId), (s.cu.get u).cal = none) ∧
    (∃ (s : State) (u : CarrierId) (zr : List (Nat × Nat)) (g : Bool) (f : FrameNo), (s.cu.get u).cal = some f ∧ s.carriers = true ∧
        80 ≤ s.since f ∧ g = true ∧ ((∀ c < 16, ((zr[c]?).bind calPair).isSome = true))) ∧
    (∃ (s : State) (u : CarrierId) (g : Bool) (f : FrameNo), (s.cu.get u).cal = some f ∧ s.carriers = true ∧ 80 ≤ s.since f ∧ g = false) ∧
    (∃ (s : State), s.sys.powered = true ∧ s.frm.started = true ∧ s.rf Adr.UPD_CAL_CFG 15 0 ≠ 0 ∧
        s.since s.upd.passFrom < s.rf Adr.UPD_CAL_CFG 15 0 * s.hz) ∧
    (∃ (s : State), s.sys.powered = true ∧ s.frm.started = true ∧ s.rf Adr.UPD_CAL_CFG 15 0 ≠ 0 ∧
        s.rf Adr.UPD_CAL_CFG 15 0 * s.hz ≤ s.since s.upd.passFrom ∧ s.upd.pass = none) ∧
    (∃ (s : State), s.sys.powered = true ∧ s.frm.started = true ∧ s.rf Adr.UPD_CAL_CFG 15 0 ≠ 0 ∧
        s.rf Adr.UPD_CAL_CFG 15 0 * s.hz ≤ s.since s.upd.passFrom ∧ s.upd.pass.isSome = true) ∧
    (∃ (s : State) (m : Master), Acts s m Adr.UPD_CAL_CFG (bits 31 31)) ∧
    (∃ (s : State) (m : Master) (w : Word), Acts s m Adr.UPD_CTL 3 ∧ bitOf w 1 = true ∧ bitOf w 0 = false ∧ fld w 10 8 = 1) ∧
    (∃ (s : State) (m : Master) (w : Word), Acts s m Adr.UPD_CTL 3 ∧ bitOf w 1 = false ∧ bitOf w 0 = true ∧
        (s.upd.state = 0 ∨ s.upd.state = 4 ∨ s.upd.state = 5) ∧ fld w 10 8 < 3 ∧ (fld w 10 8 ≠ 0 ∨ s.mixedCores = false)) ∧
    (∃ (s : State) (m : Master) (w : Word), Acts s m Adr.UPD_CTL 3 ∧ bitOf w 1 = false ∧ bitOf w 0 = true ∧ s.upd.state ∈ [1, 2, 3]) ∧
    (∃ (s : State), s.upd.job = none) ∧
    (∃ (s : State) (k : Nat), s.upd.job = some (0, k)) ∧
    (∃ (s : State) (k : Nat), s.upd.job = some (1, k)) ∧
    (∃ (s : State) (g : Nat) (k : Nat), s.upd.job = some (g, k)) ∧
    (∃ (s : State) (m : Master) (w : Word), Acts s m Adr.UPD_SWITCH (bits 31 31) ∧ s.sys.booted = true ∧ s.upd.switching = none ∧
        fld w 6 0 ≠ 0 ∧ bitOf w 31 = true) ∧
    (∃ (s : State), s.upd.switching = none) ∧
    (∃ (s : State) (g : BitVec 7) (k : BitVec 7), s.upd.switching = some k ∧ s.switchAsked = false ∧
        ((coresOf k).filterMap (s.copyFails (s.upd.slot (!s.upd.boot)) g)) = []) ∧
    (∃ (s : State) (g : BitVec 7) (k : BitVec 7) (r : Nat), s.upd.switching = some k ∧ s.switchAsked = false ∧
        ((coresOf k).filterMap (s.copyFails (s.upd.slot (!s.upd.boot)) g)).head? = some r) :=
  ⟨⟨live, 24, by decide +kernel⟩,
   ⟨live.modCu 24 (fun c => { c with cal := some 920 }), 24, (List.replicate 16 (131072, 218496)), true, 920, by decide +kernel⟩,
   ⟨live.modCu 24 (fun c => { c with cal := some 920 }), 24, false, 920, by decide +kernel⟩,
   ⟨live.setReg Adr.UPD_CAL_CFG 1, by decide +kernel⟩,
   ⟨(liveAt 100000).setReg Adr.UPD_CAL_CFG 1, by decide +kernel⟩,
   ⟨{ (liveAt 100000).setReg Adr.UPD_CAL_CFG 1 with upd := { live.upd with pass := some ⟨none, [], 0⟩ } }, by decide +kernel⟩,
   ⟨live, .pf0, by unfold Acts; decide +kernel⟩,
   ⟨live, .pf0, 0x102#32, by unfold Acts; decide +kernel⟩,
   ⟨live, .pf0, 0x201#32, by unfold Acts; decide +kernel⟩,
   ⟨{ live with upd := { live.upd with state := 2 } }, .pf0, 1, by unfold Acts; decide +kernel⟩,
   ⟨live, by decide +kernel⟩,
   ⟨{ live with upd := { live.upd with job := some (0, 0) } }, 0, by decide +kernel⟩,
   ⟨{ live with upd := { live.upd with job := some (1, 3) } }, 3, by decide +kernel⟩,
   ⟨{ live with upd := { live.upd with job := some (0, 0) } }, 0, 0, by decide +kernel⟩,
   ⟨live, .pf0, 0x80000001#32, by unfold Acts; decide +kernel⟩,
   ⟨live, by decide +kernel⟩,
   ⟨{ live with upd := { live.upd with switching := some 3 } }, 3, 3, by decide +kernel⟩,
   ⟨{ live with upd := { live.upd with switching := some 3 } }, 1, 3, 6, by decide +kernel⟩⟩

end Sys2Proof.Tests
end

section
/-! SUPPORT. The obligations of the frame, the clock, the watchdog, admission, the halts, the samples of a unit, and the line between frames, with
the rules that they need about lists of steps, about the arrays of the state, and about the bits of a register. -/

namespace Sys2Proof.Machine

open Safety

/-! ### Lists of steps, and the arrays of the state -/

/-- A command that gives a next state with a property completes with it. -/
theorem completes_of_exec {c : Instr} {s t : State} {P : State → Prop} (h : exec c s = .next t) (hp : P t) : Completes c s P :=
  ⟨t, h, hp⟩

theorem vector_get_set_self {α : Type} {n : Nat} (v : Vector α n) (i : Fin n) (x : α) : (v.set i x).get i = x := by
  simp [Vector.get_eq_getElem]

theorem vector_get_set_ne {α : Type} {n : Nat} (v : Vector α n) {i j : Fin n} (x : α) (h : j ≠ i) : (v.set i x).get j = v.get j := by
  have : (i : Nat) ≠ j := fun e => h (Fin.ext e.symm)
  simp [Vector.get_eq_getElem, this]

theorem vector_get_ofFn {α : Type} {n : Nat} (f : Fin n → α) (i : Fin n) : (Vector.ofFn f).get i = f i := by
  simp [Vector.get_eq_getElem]

theorem vector_get_map {α β : Type} {n : Nat} (f : α → β) (v : Vector α n) (i : Fin n) : (v.map f).get i = f (v.get i) := by
  simp [Vector.get_eq_getElem]

theorem vector_get_replicate {α : Type} {n : Nat} (x : α) (i : Fin n) : (Vector.replicate n x).get i = x := by
  simp [Vector.get_eq_getElem]

/-- What every step of a list leaves alone, the list leaves alone. -/
theorem State.forAll_proj {α β : Type} (p : State → β) {l : List α} {f : State → α → State} (h : ∀ t a, p (f t a) = p t) (s : State) :
    p (s.forAll l f) = p s := by
  unfold State.forAll
  induction l generalizing s with
  | nil => rfl
  | cons a l ih => exact (ih (f s a)).trans (h s a)

/-- What every step of a list keeps, the list keeps. -/
theorem State.forAll_keeps {α : Type} (Q : State → Prop) {l : List α} {f : State → α → State} (h : ∀ t a, Q t → Q (f t a)) {s : State}
    (hs : Q s) : Q (s.forAll l f) := by
  unfold State.forAll
  induction l generalizing s with
  | nil => exact hs
  | cons a l ih => exact ih (h s a hs)

/-- What the step of `a` brings about for `a`, and the other steps keep, holds of every member of the list at its end. -/
theorem State.forAll_reaches {α : Type} (Q : α → State → Prop) {l : List α} {f : State → α → State} (hset : ∀ t a, Q a (f t a))
    (hkeep : ∀ t a b, Q b t → Q b (f t a)) (s : State) : ∀ b ∈ l, Q b (s.forAll l f) := by
  induction l generalizing s with
  | nil => exact fun b hb => nomatch hb
  | cons a l ih =>
    intro b hb
    rcases List.mem_cons.1 hb with rfl | hb
    · exact State.forAll_keeps (Q b) (l := l) (fun t c => hkeep t c b) (hset s b)
    · exact ih (f s a) b hb

theorem mem_allFin {n : Nat} (i : Fin n) : i ∈ allFin n := List.mem_finRange i

/-! ### Bits of a register -/

/-- A bit that is set reads 1. -/
theorem State.rb_orReg_self (s : State) (a : Nat) {k : Nat} (h : k < 32) : (s.orReg a (2 ^ k)).rb a k = true := by
  rw [State.rb, State.orReg, State.reg_setReg_self]
  exact bit_or_two_pow _ h

/-! ### Carrier units -/

@[simp] theorem State.cu_modCu_self (s : State) (u : CarrierId) (f : CUnit → CUnit) : (s.modCu u f).cu.get u = f (s.cu.get u) :=
  vector_get_set_self ..

theorem State.cu_modCu_ne (s : State) {u v : CarrierId} (f : CUnit → CUnit) (h : v ≠ u) : (s.modCu u f).cu.get v = s.cu.get v :=
  vector_get_set_ne _ _ h

/-- A part of a unit that an update leaves alone, wherever the update is made. -/
theorem State.cu_modCu_proj {β : Type} (p : CUnit → β) (s : State) (u v : CarrierId) {f : CUnit → CUnit} (h : ∀ c, p (f c) = p c) :
    p ((s.modCu u f).cu.get v) = p (s.cu.get v) := by
  by_cases e : v = u
  · subst e; rw [State.cu_modCu_self, h]
  · rw [State.cu_modCu_ne s f e]

/-! ### The safe state of a unit (R228) -/

/-- BRAKE moves what the legs were told, a unit's clock and the free values, and nothing else (R228). -/
theorem State.brakeFrom_eqn (s : State) (u : CarrierId) :
    s.brakeFrom u = { s with ax := (s.brakeFrom u).ax, cu := (s.brakeFrom u).cu, free := (s.brakeFrom u).free } := by
  unfold State.brakeFrom
  dsimp only
  split
  · rfl
  · generalize hF : State.forAll _ _ _ = F
    have h : F = { s with ax := F.ax, free := s.free + 1 } := by
      rw [← hF]
      exact State.forAll_keeps (fun t => t = { s with ax := t.ax, free := s.free + 1 })
        (fun t x h => (congrArg (fun t : State => t.modBr x _) h).trans rfl) rfl
    rw [h]
    rfl

theorem State.frm_brakeFrom (s : State) (u : CarrierId) : (s.brakeFrom u).frm = s.frm := by rw [State.brakeFrom_eqn]
theorem State.regs_brakeFrom (s : State) (u : CarrierId) : (s.brakeFrom u).regs = s.regs := by rw [State.brakeFrom_eqn]
theorem State.upd_brakeFrom (s : State) (u : CarrierId) : (s.brakeFrom u).upd = s.upd := by rw [State.brakeFrom_eqn]

/-- Of the units BRAKE moves the clock from which it holds the legs low, and nothing else. -/
theorem State.cu_brakeFrom (s : State) (u v : CarrierId) :
    ∃ k, (s.brakeFrom u).cu.get v = { s.cu.get v with brakeAt := k } := by
  unfold State.brakeFrom
  dsimp only
  split
  · exact ⟨_, rfl⟩
  · generalize hf : (fun (v : State) (x : AxisId) => v.modBr x _) = f
    have hcu : ∀ t : State, (t.forAll (axesOf u) f).cu = t.cu := State.forAll_proj State.cu fun t x => by rw [← hf]; rfl
    by_cases e : v = u
    · subst e
      exact ⟨_, by rw [State.cu_modCu_self, hcu]; rfl⟩
    · exact ⟨_, by rw [State.cu_modCu_ne _ _ e, hcu]; rfl⟩

/-- The bridge fault action moves no register (R223). -/
theorem State.regs_bridgeFault (s : State) (x : AxisId) : (s.bridgeFault x).regs = s.regs := by
  have hundo : ∀ (t : State) n y, (t.undoOn n y).regs = t.regs := by
    intro t n y; unfold State.undoOn; split <;> rfl
  refine State.forAll_proj State.regs (fun t n => ?_) s
  exact State.forAll_proj State.regs (fun t y => hundo t n y) t

theorem State.frm_enterSafe (s : State) (u : CarrierId) : (s.enterSafe u).frm = s.frm :=
  (within_enterSafe (z := true) s u).frm.trans (State.frm_brakeFrom s u)

theorem State.upd_enterSafe (s : State) (u : CarrierId) : (s.enterSafe u).upd = s.upd :=
  (within_enterSafe (z := true) s u).upd.trans (State.upd_brakeFrom s u)

theorem State.regs_enterSafe (s : State) (u : CarrierId) : (s.enterSafe u).regs = s.regs :=
  (State.forAll_proj State.regs State.regs_bridgeFault _).trans (State.regs_brakeFrom s u)

/-- A unit that enters its safe state is marked so; its other fields, but for the clock of its BRAKE, stay. -/
theorem State.cu_enterSafe_self (s : State) (u : CarrierId) :
    ∃ k, (s.enterSafe u).cu.get u = { s.cu.get u with safe := true, brakeAt := k } := by
  obtain ⟨k, hk⟩ := State.cu_brakeFrom s u u
  exact ⟨k, by rw [(within_enterSafe (z := true) s u).cu, State.cu_modCu_self, hk]⟩

/-- A part of a unit beside its safe state and its BRAKE stays, whichever unit enters its safe state. -/
theorem State.cu_enterSafe_proj {β : Type} (p : CUnit → β) (s : State) (u v : CarrierId)
    (hsafe : ∀ c b, p { c with safe := b } = p c) (hbrake : ∀ c k, p { c with brakeAt := k } = p c) :
    p ((s.enterSafe u).cu.get v) = p (s.cu.get v) := by
  obtain ⟨k, hk⟩ := State.cu_brakeFrom s u v
  rw [(within_enterSafe (z := true) s u).cu, State.cu_modCu_proj p _ u v (hsafe · _), hk, hbrake]

/-- A unit in its safe state stays so as another enters its own. -/
theorem State.safe_enterSafe (s : State) (u v : CarrierId) (h : (s.cu.get v).safe = true) : ((s.enterSafe u).cu.get v).safe = true := by
  by_cases e : v = u
  · subst e
    obtain ⟨k, hk⟩ := State.cu_enterSafe_self s v
    rw [hk]
  · obtain ⟨k, hk⟩ := State.cu_brakeFrom s u v
    rw [(within_enterSafe (z := true) s u).cu, State.cu_modCu_ne _ _ e, hk]
    exact h

/-! ### The state after reset -/

/-- Settles O2: each field of the state after reset is read off its definition. -/
theorem resetState : Obligations.ResetState := by
  unfold Obligations.ResetState
  refine ⟨(by decide : regsWf [] = true), ⟨List.Pairwise.nil, fun n h => nomatch h⟩, rfl, rfl, rfl, fun x => ?_, fun q => ?_, rfl, by decide +kernel⟩
  · have hx : State.reset.ax.get x = .reset (decide (192 ≤ x.val)) := vector_get_ofFn ..
    rw [hx]
    exact ⟨rfl, rfl⟩
  · have hs : State.reset.sq.get q = .reset := vector_get_replicate ..
    have hc : State.reset.cq.get q = .reset := vector_get_replicate ..
    rw [hs, hc]
    exact ⟨rfl, rfl⟩

/-! ### The tick and what lies between ticks -/

/-- The counter as a tick moves it on (R26). -/
theorem State.advance_count (s : State) :
    s.advance.frm.started = true ∧ s.advance.frm.count = if s.frm.started then s.frm.count + 1 else 0 := by
  have h : s.advance.frm = _ := State.forAll_proj State.frm (fun t x => (within_enterHold (z := true) (.refl _ t) x).frm) _
  rw [h]
  exact ⟨rfl, rfl⟩

/-- Nothing that a tick does beside moving the counter on moves it (R26). -/
theorem State.tick_count (s : State) (t : TickIn) (hp : s.sys.powered = true) (hb : s.sys.booted = true) (hl : s.frm.lock = true) :
    (s.tick t).frm.started = true ∧ (s.tick t).frm.count = if s.frm.started then s.frm.count + 1 else 0 := by
  have hrun : ¬ (¬ s.sys.powered = true ∨ ¬ s.sys.booted = true ∨ ¬ s.frm.lock = true) := by simp [hp, hb, hl]
  unfold State.tick
  rw [if_neg hrun]
  by_cases hs : s.frm.started = true
  · rw [if_pos hs]
    generalize he : s.gathering.settleEnd.fullRings.readyChange.judgeAll.tellAll = e
    have k : Quiet s e := by
      rw [← he]
      exact (kept_tellAll (kept_judgeAll (kept_readyChange (kept_fullRings (kept_settleEnd (kept_gathering (.refl true s))))))).quiet rfl
    have q : Quiet e.advance _ := (kept_tellAll (kept_atTick (kept_gathering (.refl true e.advance)) t)).quiet rfl
    have a := State.advance_count e
    rw [k.started, k.count] at a
    exact ⟨q.started.trans a.1, q.count.trans a.2⟩
  · rw [if_neg hs]
    have q : Quiet s.advance _ := (kept_tellAll (kept_atTick (kept_firstTick (kept_gathering (.refl true s.advance))) t)).quiet rfl
    have a := State.advance_count s
    exact ⟨q.started.trans a.1, q.count.trans a.2⟩

/-- Settles O7: the counter moves on where the axes do, and what comes before and after in a tick keeps it. -/
theorem frameTickCountsOne : Obligations.FrameTickCountsOne := by
  unfold Obligations.FrameTickCountsOne
  refine fun t s => ⟨fun hp hb hl => completes_of_exec rfl (State.tick_count s t hp hb hl), fun h => ?_⟩
  have hstop : ¬ s.sys.powered = true ∨ ¬ s.sys.booted = true ∨ ¬ s.frm.lock = true := by simpa using h
  show Host.Outcome.next (s.tick t) = .next s
  unfold State.tick
  rw [if_pos hstop]

/-- Settles O8: the rule that every operation keeps what `Quiet` says. -/
theorem quietBetweenTicks : Obligations.QuietBetweenTicks := by
  unfold Obligations.QuietBetweenTicks
  intro c s t hc e
  have q : Quiet s t := (kept_exec (z := true) (fun _ => hc) e).quiet rfl
  exact ⟨q.count, q.started, q.powered, q.booted, fun a ha => q.locked.subset ha⟩

/-! ### The clock -/

/-! ### A cause of the safe state in every unit (R228) -/

theorem State.frm_everyUnitSafe (s : State) (l : List CarrierId) (mark : CUnit → CUnit) :
    (s.forAll l fun t u => (t.enterSafe u).modCu u mark).frm = s.frm :=
  State.forAll_proj State.frm (fun t u => (State.modCu_frm ..).trans (State.frm_enterSafe t u)) s

theorem State.regs_everyUnitSafe (s : State) (l : List CarrierId) (mark : CUnit → CUnit) :
    (s.forAll l fun t u => (t.enterSafe u).modCu u mark).regs = s.regs :=
  State.forAll_proj State.regs (fun t u => (State.modCu_regs ..).trans (State.regs_enterSafe t u)) s

/-- A cause that a loop over every unit sets stands in every unit. -/
theorem State.cu_everyUnitSafe (s : State) (p : CUnit → Bool) (mark : CUnit → CUnit) (hmark : ∀ c, p (mark c) = true)
    (hsafe : ∀ c b, p { c with safe := b } = p c) (hbrake : ∀ c k, p { c with brakeAt := k } = p c) (v : CarrierId) :
    p ((s.forAll (allFin 25) fun t u => (t.enterSafe u).modCu u mark).cu.get v) = true := by
  refine State.forAll_reaches (fun v t => p (t.cu.get v) = true) (fun t u => ?_) (fun t u w h => ?_) s v (mem_allFin v)
  · simp [hmark]
  · by_cases e : w = u
    · subst e; simp [hmark]
    · rw [State.cu_modCu_ne _ _ e, State.cu_enterSafe_proj p t u w hsafe hbrake]; exact h

/-! ### The clock -/

/-- What the first loss of an outage does once its cause stands (R19, R228): the frame's state stays, every unit has the clock as a cause
of its safe state, no register beside those of events moves, and event 47 is pending. -/
theorem State.clockFail_does (s : State) (live : List AxisId) (d0 : Word) :
    let t := ((s.forAll live fun t x => t.faultAxis x 47).forAll (allFin 25) fun t u =>
      (t.enterSafe u).modCu u fun c => { c with cClock := true }).raise 47 0x220 d0 0
    t.frm = s.frm ∧ (∀ u : CarrierId, (t.cu.get u).cClock = true) ∧ t.reg Adr.FRM_CLK = s.reg Adr.FRM_CLK ∧
      t.rb Adr.EVT_PEND_HI 15 = true := by
  have w : Within true s (s.forAll live fun t x => t.faultAxis x 47) := within_forAll (.refl _ _) fun t x k => within_faultAxis k x 47
  generalize (s.forAll live fun t x => t.faultAxis x 47) = v at w
  have hf := State.frm_everyUnitSafe v (allFin 25) fun c => { c with cClock := true }
  have hr := State.regs_everyUnitSafe v (allFin 25) fun c => { c with cClock := true }
  have hc := State.cu_everyUnitSafe v CUnit.cClock (fun c => { c with cClock := true }) (fun _ => rfl) (fun _ _ => rfl) fun _ _ => rfl
  generalize (v.forAll (allFin 25) fun t u => (t.enterSafe u).modCu u fun c => { c with cClock := true }) = z at hf hr hc
  have r : Within true z (z.raise 47 0x220 d0 0) := within_raise (.refl _ _) ..
  refine ⟨?_, fun u => ?_, ?_, State.rb_raise_self z 47 ..⟩
  · rw [r.frm, hf, w.frm]
  · rw [r.cu]; exact hc u
  · rw [r.reg rfl _ (by decide), State.reg_of_regs hr, w.reg rfl _ (by decide)]

/-- Settles O9: the first loss of an outage acts on every unit, and what it does beside sets no register but those of events. -/
theorem clockLossAndRelock : Obligations.ClockLossAndRelock := by
  unfold Obligations.ClockLossAndRelock
  intro s hp
  refine ⟨fun b hl ho => ?_, fun b c hl ho => ?_, fun b hl => ?_, fun c ho => ?_, fun ho => ?_⟩
  · have hrun : ¬ (¬ s.sys.powered = true ∨ ¬ s.frm.lock = true) := by simp [hp, hl]
    have hfirst : ¬ s.frm.outage.isSome = true := by simp [ho]
    refine completes_of_exec (congrArg Host.Outcome.next ((if_neg hrun).trans (if_neg hfirst))) ?_
    obtain ⟨hfrm, hcu, hclk, hpend⟩ := State.clockFail_does _ _ _
    refine ⟨hfrm, hcu, ?_, hpend⟩
    rw [State.rb, hclk]
    exact State.rb_orReg_self { s with frm := { s.frm with lock := false } } Adr.FRM_CLK (k := 3) (by decide)
  · have hrun : ¬ (¬ s.sys.powered = true ∨ ¬ s.frm.lock = true) := by simp [hp, hl]
    exact congrArg Host.Outcome.next ((if_neg hrun).trans (if_pos (by simp [ho])))
  · exact congrArg Host.Outcome.next (if_pos (by simp [hl]))
  · exact congrArg Host.Outcome.next (if_pos ⟨hp, by simp [ho]⟩)
  · exact congrArg Host.Outcome.next (if_neg (by simp [ho]))

end Sys2Proof.Machine
end

section

namespace Sys2Proof.Machine

open Safety

/-! ### The count of a violation of privilege (R396) -/

/-- No master of the host or of the module is barred from a register that no ring owns and that enables no event (R81, R409). -/
theorem State.mayWrite_of_plain (s : State) {m : Master} {a : Nat} (hm : m ≠ .spiOpen) (hr : ringOf a = none) (he : isEqReg a = false)
    (hn : (a == Adr.EVT_EN_LO || a == Adr.EVT_EN_HI) = false) : s.mayWrite m a = true := by
  cases m with
  | pf1 => simp [State.mayWrite, State.pf1Owns, hr, he, hn]
  | spiOpen => exact absurd rfl hm
  | pf0 | spiAdmin | supervisor => rfl

/-- An admin master's write is no violation. -/
theorem State.notePrv_admin (s : State) {m : Master} (h : m.admin = true) (a : Nat) : s.notePrv m a = s := by
  simp [State.notePrv, h]

theorem State.noted_admin (s : State) {m : Master} (h : m.admin = true) (a : Nat) : s.noted m a = s := by
  simp [State.noted, State.notePrv_admin s h]

/-- A capture counts one, up to 65,535 (R396, R402). -/
theorem State.fld_capture (s : State) {info addr : Nat} (m : Master) (a : Nat) (h : info ≠ addr) :
    fld ((s.capture info addr m a).reg info) 15 0 = min (fld (s.reg info) 15 0 + 1) 65535 := by
  have hm : m.code ≤ 4 := by cases m <;> decide
  have hw := (s.reg info).isLt
  simp only [State.capture]
  split
  · rw [State.reg_setReg_self]
    simp only [fld, wd, BitVec.toNat_ofNat]
    omega
  · rw [State.reg_setReg_other _ _ h, State.reg_setReg_self]
    simp only [fld, wd, BitVec.toNat_ofNat]
    omega

/-- A capture moves its two registers and nothing else. -/
theorem State.capture_eqn (s : State) (info addr : Nat) (m : Master) (a : Nat) :
    s.capture info addr m a = { s with regs := (s.capture info addr m a).regs } := by
  simp only [State.capture]
  split <;> rfl

theorem State.reg_capture_other (s : State) {info addr b : Nat} (m : Master) (a : Nat) (hi : b ≠ info) (ha : b ≠ addr) :
    (s.capture info addr m a).reg b = s.reg b := by
  simp only [State.capture]
  split
  · exact State.reg_setReg_other _ _ hi
  · rw [State.reg_setReg_other _ _ ha, State.reg_setReg_other _ _ hi]

/-- A write that is noted moves the registers of the count and nothing else. -/
theorem State.notePrv_eqn (s : State) (m : Master) (a : Nat) : s.notePrv m a = { s with regs := (s.notePrv m a).regs } := by
  unfold State.notePrv
  split
  · exact State.capture_eqn ..
  · rfl

theorem State.reg_notePrv_other (s : State) {b : Nat} (m : Master) (a : Nat) (hi : b ≠ Adr.ACC_PRVV_INFO) (ha : b ≠ Adr.ACC_PRVV_ADDR) :
    (s.notePrv m a).reg b = s.reg b := by
  unfold State.notePrv
  split
  · exact State.reg_capture_other s m a hi ha
  · rfl

theorem State.noted_eqn (s : State) (m : Master) (a : Nat) : s.noted m a = { s with regs := (s.noted m a).regs } := by
  unfold State.noted
  split
  · exact State.notePrv_eqn ..
  · rfl

theorem State.reg_noted_other (s : State) {b : Nat} (m : Master) (a : Nat) (hi : b ≠ Adr.ACC_PRVV_INFO) (ha : b ≠ Adr.ACC_PRVV_ADDR) :
    (s.noted m a).reg b = s.reg b := by
  unfold State.noted
  split
  · exact State.reg_notePrv_other s m a hi ha
  · rfl

/-! ### The frame watchdog (R38 to R41) -/

/-- A step over units that each changes its own unit alone changes each unit of the list once. -/
theorem State.cu_forAll_modCu (s : State) (f : CUnit → CUnit) {l : List CarrierId} (hl : l.Nodup) (v : CarrierId) :
    (s.forAll l fun t u => t.modCu u f).cu.get v = if v ∈ l then f (s.cu.get v) else s.cu.get v := by
  induction l generalizing s with
  | nil => rfl
  | cons a l ih =>
    obtain ⟨ha, hl⟩ := List.nodup_cons.1 hl
    refine (ih (s.modCu a f) hl).trans ?_
    by_cases e : v = a
    · subst e; simp [ha]
    · simp [e, State.cu_modCu_ne s f e]

/-- What the watchdog's fire does (R39, R228). -/
theorem State.wdogFire_does (s : State) (unit d1 : Nat) :
    (s.wdogFire unit d1).rb Adr.FRM_WDOG 0 = true ∧ (s.wdogFire unit d1).rb Adr.FRM_WDOG 1 = false ∧
      (∀ v : CarrierId, ((s.wdogFire unit d1).cu.get v).cWdog = true) ∧ (s.wdogFire unit d1).rb Adr.EVT_PEND_HI 23 = true := by
  unfold State.wdogFire
  dsimp only
  generalize hx : List.filter _ _ = live
  clear hx
  have w : Within true (s.putReg Adr.FRM_WDOG 3 1)
      ((s.putReg Adr.FRM_WDOG 3 1).forAll live fun t x => (t.faultAxis x 55).modBr x fun b => { b with byHalt := false }) :=
    within_forAll (.refl _ _) fun t x k => within_modBr (within_faultAxis k x 55) ..
  generalize (s.putReg Adr.FRM_WDOG 3 1).forAll live _ = v at w
  have r : Within true v (v.raise 55 0x220 (wd unit) (wd d1)) := within_raise (.refl _ _) ..
  have hp := State.rb_raise_self v 55 0x220 (wd unit) (wd d1)
  generalize v.raise 55 0x220 (wd unit) (wd d1) = z at r hp
  have hr := State.regs_everyUnitSafe z (allFin 25) fun c => { c with cWdog := true }
  have hc := State.cu_everyUnitSafe z CUnit.cWdog (fun c => { c with cWdog := true }) (fun _ => rfl) (fun _ _ => rfl) fun _ _ => rfl
  generalize (z.forAll (allFin 25) fun t u => (t.enterSafe u).modCu u fun c => { c with cWdog := true }) = y at hr hc
  have hw : y.reg Adr.FRM_WDOG = mergeW (s.reg Adr.FRM_WDOG) (wd 1) 3 := by
    rw [State.reg_of_regs hr, r.reg rfl _ (by decide), w.reg rfl _ (by decide), State.putReg, State.reg_setReg_self]
  refine ⟨?_, ?_, hc, ?_⟩
  · rw [State.rb, hw]; simp [bitOf, mergeW, wd]
  · rw [State.rb, hw]; simp [bitOf, mergeW, wd]
  · rw [State.rb, State.reg_of_regs hr]; exact hp

/-- WATCHDOG_CHECK of the references fires where a processor has not finished them, and does nothing else (R38). -/
theorem exec_watchdogCheck_references (s : State) :
    exec (.watchdogCheck .references) s =
      .next (if s.carriers then s.refsFailed.elim s fun u => s.wdogFire u 0xFF else s) := by
  refine congrArg Host.Outcome.next ?_
  by_cases h : s.carriers = true
  · rw [if_neg (by simpa using h), if_pos h]
    dsimp only
    split
    · next k hf => rw [hf, Option.elim_some]
    · next hf => rw [hf, Option.elim_none]
  · rw [if_pos h, if_neg h]

/-- WATCHDOG_CHECK of the duties of a unit, likewise. -/
theorem exec_watchdogCheck_duties (s : State) (v : CarrierId) :
    exec (.watchdogCheck (.duties v)) s =
      .next (if s.carriers then (s.dutiesFailed v).elim s fun k => s.wdogFire k (v.val + 256) else s) := by
  refine congrArg Host.Outcome.next ?_
  by_cases h : s.carriers = true
  · rw [if_neg (by simpa using h), if_pos h]
    dsimp only
    split
    · next k hf => rw [hf, Option.elim_some]
    · next hf => rw [hf, Option.elim_none]
  · rw [if_pos h, if_neg h]

theorem prvOf_wdog : prvOf Adr.FRM_WDOG = 2 := by decide +kernel

/-- FIRED is no privileged field: every master but an unauthorised SPI master reaches it (R40). -/
theorem State.reaches_fired (s : State) {m : Master} (hp : s.sys.powered = true) (hm : m ≠ .spiOpen) : s.reaches m Adr.FRM_WDOG 1 = true := by
  simp [State.reaches, hp, State.mayWrite_of_plain s hm (a := Adr.FRM_WDOG) (by decide) (by decide) (by decide), prvOf_wdog]

/-- TEST is privileged (R41). -/
theorem State.reaches_test (s : State) (m : Master) (hp : s.sys.powered = true) : s.reaches m Adr.FRM_WDOG 2 = m.admin := by
  cases m <;> simp [State.reaches, hp, State.mayWrite, Master.admin, prvOf_wdog]

/-- FIRED written 1, by a master that reaches it. -/
theorem State.wdogClear_does (s : State) {m : Master} (h : s.reaches m Adr.FRM_WDOG 1 = true) :
    (s.wdogClear m).reg Adr.FRM_WDOG = s.reg Adr.FRM_WDOG &&& ~~~(wd 1) ∧
      (∀ u : CarrierId, (s.wdogClear m).cu.get u = { s.cu.get u with cWdog := false }) ∧ (s.wdogClear m).ax = s.ax := by
  unfold State.wdogClear
  rw [if_pos h]
  refine ⟨?_, fun u => ?_, State.forAll_proj State.ax (fun _ _ => State.modCu_ax ..) _⟩
  · have hr := State.forAll_proj State.regs (l := allFin 25) (f := fun t u => t.modCu u fun c => { c with cWdog := false })
      (fun _ _ => rfl) (s.clrReg Adr.FRM_WDOG 1)
    rw [State.reg_of_regs hr, State.clrReg, State.reg_setReg_self]
  · rw [State.cu_forAll_modCu _ _ (List.nodup_finRange 25), if_pos (mem_allFin u)]
    rfl

/-- Settles O10: the fire where a check fails, and who reaches FIRED and TEST. -/
theorem frameWatchdog : Obligations.FrameWatchdog := by
  unfold Obligations.FrameWatchdog
  refine ⟨fun s u hc hf => ?_, fun s v k hc hf => ?_, fun s hf => ?_, fun s v hf => ?_, fun s m hp hm => ?_, fun s m hp ha => ?_, fun s hp => ⟨?_, ?_⟩⟩
  · refine completes_of_exec (exec_watchdogCheck_references s) ?_
    rw [if_pos hc, hf, Option.elim_some]
    exact State.wdogFire_does s u 0xFF
  · refine completes_of_exec (exec_watchdogCheck_duties s v) ?_
    rw [if_pos hc, hf, Option.elim_some]
    exact State.wdogFire_does s k (v.val + 256)
  · rw [exec_watchdogCheck_references, hf]
    simp
  · rw [exec_watchdogCheck_duties, hf]
    simp
  · refine completes_of_exec (t := (s.noted m Adr.FRM_WDOG).wdogClear m) rfl ?_
    have e := State.noted_eqn s m Adr.FRM_WDOG
    have hreg := State.reg_noted_other s (b := Adr.FRM_WDOG) m Adr.FRM_WDOG (by decide) (by decide)
    generalize s.noted m Adr.FRM_WDOG = t at e hreg
    obtain ⟨hw, hcu, hax⟩ := State.wdogClear_does t (State.reaches_fired t (by rw [e]; exact hp) hm)
    refine ⟨?_, ?_, fun u => ?_, ?_⟩
    · rw [State.rb, hw]; simp [bitOf, wd]
    · rw [State.rb, hw, hreg]; simp [State.rb, bitOf, wd]
    · rw [hcu, e]
    · rw [hax, e]
  · show Host.Outcome.next ((s.noted m Adr.FRM_WDOG).wdogTest m) = _
    rw [State.noted_admin s ha, State.wdogTest, State.reaches_test s m hp, if_pos ha]
    rfl
  · show Host.Outcome.next ((s.noted .spiOpen Adr.FRM_WDOG).wdogTest .spiOpen) = _
    have hn : s.noted .spiOpen Adr.FRM_WDOG = s := by simp [State.noted, State.notePrv, State.mayWrite]
    rw [hn, State.wdogTest, State.reaches_test s _ hp, if_neg (by decide)]
  · refine completes_of_exec (t := s.capture Adr.ACC_PRVV_INFO Adr.ACC_PRVV_ADDR .pf1 Adr.FRM_WDOG) ?_ ?_
    · show Host.Outcome.next ((s.noted .pf1 Adr.FRM_WDOG).wdogTest .pf1) = _
      have hn : s.noted .pf1 Adr.FRM_WDOG = s.capture Adr.ACC_PRVV_INFO Adr.ACC_PRVV_ADDR .pf1 Adr.FRM_WDOG := by
        simp [State.noted, State.notePrv, hp, Master.admin, prvOf_wdog]
      have hp1 : (s.noted .pf1 Adr.FRM_WDOG).sys.powered = true := by rw [State.noted_eqn]; exact hp
      rw [State.wdogTest, State.reaches_test _ _ hp1, if_neg (by decide), hn]
    · exact ⟨State.reg_capture_other s _ _ (by decide) (by decide), State.capture_eqn .., State.fld_capture s _ _ (by decide)⟩

end Sys2Proof.Machine
end

section

namespace Sys2Proof.Machine

open Safety

/-! ### Debug halts (R228, R229) -/

/-- The bit of a one-hot word. -/
theorem getLsbD_ofNat_two_pow {w : Nat} (k i : Nat) : (BitVec.ofNat w (2 ^ k)).getLsbD i = (decide (i < w) && decide (k = i)) := by
  rw [BitVec.getLsbD_ofNat, Nat.testBit_two_pow]

/-- A word with one bit set. -/
theorem getLsbD_or_two_pow {w : Nat} (x : BitVec w) (k i : Nat) :
    (x ||| BitVec.ofNat w (2 ^ k)).getLsbD i = (x.getLsbD i || (decide (i < w) && decide (k = i))) := by
  rw [BitVec.getLsbD_or, getLsbD_ofNat_two_pow]

/-- A word with one bit cleared. -/
theorem getLsbD_and_not_two_pow {w : Nat} (x : BitVec w) (k i : Nat) :
    (x &&& ~~~(BitVec.ofNat w (2 ^ k))).getLsbD i = (x.getLsbD i && !decide (k = i)) := by
  rw [BitVec.getLsbD_and, BitVec.getLsbD_not, getLsbD_ofNat_two_pow]
  by_cases h : i < w
  · simp [h]
  · simp [BitVec.getLsbD_of_ge x i (by omega)]

/-- What one unit does as a core halts. -/
def State.haltUnit (s : State) (u : CarrierId) : State :=
  ((s.enterSafe u).modCu u fun c => { c with cHalt := true }).forAll (s.liveAxes u) fun v x => v.modBr x fun b => { b with byHalt := true }

theorem State.frm_haltUnit (s : State) (u : CarrierId) : (s.haltUnit u).frm = s.frm :=
  (State.forAll_proj State.frm (fun _ _ => State.modBr_frm ..) _).trans (State.frm_enterSafe s u)

theorem State.upd_haltUnit (s : State) (u : CarrierId) : (s.haltUnit u).upd = s.upd :=
  (State.forAll_proj State.upd (fun _ _ => State.modBr_upd ..) _).trans (State.upd_enterSafe s u)

theorem State.regs_haltUnit (s : State) (u : CarrierId) : (s.haltUnit u).regs = s.regs :=
  (State.forAll_proj State.regs (fun _ _ => State.modBr_regs ..) _).trans (State.regs_enterSafe s u)

theorem State.cu_haltUnit (s : State) (u : CarrierId) :
    (s.haltUnit u).cu = ((s.enterSafe u).modCu u fun c => { c with cHalt := true }).cu :=
  State.forAll_proj State.cu (fun _ _ => State.modBr_cu ..) _

/-- A unit that halts is in its safe state, for the halt. -/
theorem State.haltUnit_self (s : State) (u : CarrierId) : ((s.haltUnit u).cu.get u).safe = true ∧ ((s.haltUnit u).cu.get u).cHalt = true := by
  obtain ⟨k, hk⟩ := State.cu_enterSafe_self s u
  rw [State.cu_haltUnit, State.cu_modCu_self, hk]
  exact ⟨rfl, rfl⟩

/-- A unit that is in its safe state for a halt stays so as another halts. -/
theorem State.haltUnit_keeps (s : State) (u v : CarrierId) (h : (s.cu.get v).safe = true ∧ (s.cu.get v).cHalt = true) :
    ((s.haltUnit u).cu.get v).safe = true ∧ ((s.haltUnit u).cu.get v).cHalt = true := by
  by_cases e : v = u
  · subst e; exact State.haltUnit_self s v
  · rw [State.cu_haltUnit, State.cu_modCu_ne _ _ e]
    exact ⟨State.safe_enterSafe s u v h.1, (State.cu_enterSafe_proj CUnit.cHalt s u v (fun _ _ => rfl) fun _ _ => rfl).trans h.2⟩

/-- The state with a core marked as halted, and its references and duties not finished (R38, R228). -/
def State.haltMarked (s : State) (k : Fin 14) : State :=
  { s with upd := { s.upd with halted := s.upd.halted ||| BitVec.ofNat 14 (2 ^ k.val) }
           frm := { s.frm with refsOk := s.frm.refsOk &&& ~~~(BitVec.ofNat 7 (2 ^ k.val)) } }.forAll
    ((allFin 25).filter fun u => (enginesOf u).contains k.val) fun t u => t.modCu u fun c => { c with dutiesOk := false }

theorem State.frm_haltMarked (s : State) (k : Fin 14) :
    (s.haltMarked k).frm = { s.frm with refsOk := s.frm.refsOk &&& ~~~(BitVec.ofNat 7 (2 ^ k.val)) } :=
  State.forAll_proj State.frm (fun _ _ => State.modCu_frm ..) _

theorem State.upd_haltMarked (s : State) (k : Fin 14) :
    (s.haltMarked k).upd = { s.upd with halted := s.upd.halted ||| BitVec.ofNat 14 (2 ^ k.val) } :=
  State.forAll_proj State.upd (fun _ _ => State.modCu_upd ..) _

theorem State.regs_haltMarked (s : State) (k : Fin 14) : (s.haltMarked k).regs = s.regs :=
  State.forAll_proj State.regs (fun _ _ => State.modCu_regs ..) _

/-- DEBUG_HALT of a core that exists marks it, and then every unit halts. -/
theorem exec_debugHalt (s : State) (k : Fin 14) (hp : s.sys.powered = true) (hk : k.val ≠ 7) :
    exec (.debugHalt k) s = .next ((s.haltMarked k).forAll (allFin 25) State.haltUnit) :=
  congrArg Host.Outcome.next (if_neg (by simp [hp, coreExists, hk]))

/-- The state without the halt of a core. -/
def State.haltCleared (s : State) (k : Fin 14) : State :=
  { s with upd := { s.upd with halted := s.upd.halted &&& ~~~(BitVec.ofNat 14 (2 ^ k.val)) } }

/-- DEBUG_HALT_RELEASE ends the cause in every unit once no core is halted. -/
theorem exec_debugHaltRelease (s : State) (k : Fin 14) :
    exec (.debugHaltRelease k) s = .next (
      if (s.haltCleared k).upd.halted = 0 then (s.haltCleared k).forAll (allFin 25) fun t u => t.modCu u fun c => { c with cHalt := false }
      else s.haltCleared k) := rfl

/-- Settles O43: the core is marked first, then each unit enters its safe state, in which the later units leave it. -/
theorem debugHalts : Obligations.DebugHalts := by
  unfold Obligations.DebugHalts
  refine fun s k => ⟨fun hp hk => ?_, fun h => ?_, ?_⟩
  · refine completes_of_exec (exec_debugHalt s k hp hk) ?_
    have hu := (State.forAll_proj State.upd State.upd_haltUnit (l := allFin 25) _).trans (State.upd_haltMarked s k)
    have hf := (State.forAll_proj State.frm State.frm_haltUnit (l := allFin 25) _).trans (State.frm_haltMarked s k)
    have hr := (State.forAll_proj State.regs State.regs_haltUnit (l := allFin 25) _).trans (State.regs_haltMarked s k)
    have hc := State.forAll_reaches (fun u t => (t.cu.get u).safe = true ∧ (t.cu.get u).cHalt = true) State.haltUnit_self
      State.haltUnit_keeps (s.haltMarked k) (l := allFin 25)
    refine ⟨?_, fun j hj => ?_, fun u => hc u (mem_allFin u), ?_, hr, fun h7 => ?_⟩
    · rw [hu, getLsbD_or_two_pow]; simp
    · have hne : k.val ≠ j.val := fun e => hj (Fin.ext e.symm)
      rw [hu, getLsbD_or_two_pow]; simp [hne]
    · rw [hf]
    · rw [hf, getLsbD_and_not_two_pow]; simp
  · exact congrArg Host.Outcome.next (if_pos (by simpa [coreExists] using h))
  · refine completes_of_exec (exec_debugHaltRelease s k) ?_
    have hu : (s.haltCleared k).upd.halted = s.upd.halted &&& ~~~(BitVec.ofNat 14 (2 ^ k.val)) := rfl
    have ha : (s.haltCleared k).ax = s.ax := rfl
    have hr : (s.haltCleared k).regs = s.regs := rfl
    have hc : (s.haltCleared k).cu = s.cu := rfl
    generalize s.haltCleared k = t at hu ha hr hc
    by_cases h0 : t.upd.halted = 0
    · rw [if_pos h0]
      have hupd := State.forAll_proj State.upd (l := allFin 25) (f := fun t u => t.modCu u fun c => { c with cHalt := false })
        (fun _ _ => State.modCu_upd ..) t
      refine ⟨by rw [hupd, hu], fun _ u => ?_, fun hne => absurd (by rw [hupd, h0]) hne, ?_, ?_⟩
      · rw [State.cu_forAll_modCu _ _ (List.nodup_finRange 25), if_pos (mem_allFin u)]
      · exact (State.forAll_proj State.ax (fun _ _ => State.modCu_ax ..) _).trans ha
      · exact (State.forAll_proj State.regs (fun _ _ => State.modCu_regs ..) _).trans hr
    · rw [if_neg h0]
      exact ⟨hu, fun h => absurd h h0, fun _ => hc, ha, hr⟩

/-! ### The copy of FRM_COUNT_HI (R27) -/

/-- Masters have different codes. -/
theorem master_eq_of_code {m k : Master} (h : m.code = k.code) : m = k := by
  cases m <;> cases k <;> simp_all [Master.code]

/-- The one register whose read captures FRM_COUNT_HI is FRM_COUNT_LO. -/
theorem countLo_of_companion {a : Nat} (h : Adr.FRM_COUNT_HI ∈ companions a) : a = Adr.FRM_COUNT_LO := by
  unfold companions at h
  split at h
  · simp only [List.mem_singleton, Adr.FRM_COUNT_HI] at h
    show a = 0x10010
    omega
  · exfalso
    simp only [among, Bool.and_eq_true, decide_eq_true_eq] at h
    repeat' split at h
    all_goals
      simp only [List.mem_append, List.mem_cons, List.mem_map, List.mem_range, List.not_mem_nil, or_false,
        Adr.FRM_COUNT_HI, Adr.AX_ID_STAT, Adr.PRB_STAT, Adr.WB_RECSTAT] at *
    · omega
    · omega
    · obtain (h | h) | ⟨i, -, h⟩ := h <;> omega
    · obtain ⟨i, -, h⟩ := h
      omega

/-- The captures after a read: those of the companions that it takes are replaced (R401, R403). -/
theorem State.caps_captureFor (s : State) (k : Master) (a : Nat) :
    ∃ cs : List Nat, (∀ b ∈ cs, b ∈ companions a) ∧ (isResLo a = false → cs = companions a) ∧
      (s.captureFor k a).caps = (s.caps.filter fun c => !(c.master == k.code && cs.contains c.addr)) ++
        cs.map fun b => ⟨k.code, b, s.view k b⟩ := by
  unfold State.captureFor
  dsimp only
  generalize hc : (if isResLo a = true ∧ (s.capOf k a).isSome = true then [] else companions a) = cs
  refine ⟨cs, fun b hb => ?_, fun hr => ?_, ?_⟩
  · rw [← hc] at hb
    split at hb
    · exact nomatch hb
    · exact hb
  · rw [← hc, if_neg (by simp [hr])]
  · split
    · next h => simp [h]
    · rfl

/-- A read keeps a copy that it does not take anew. -/
theorem State.capOf_captureFor_other (s : State) {m k : Master} {a b : Nat} (h : k ≠ m ∨ b ∉ companions a) :
    (s.captureFor k a).capOf m b = s.capOf m b := by
  obtain ⟨cs, hsub, -, hcaps⟩ := State.caps_captureFor s k a
  have hb : k.code ≠ m.code ∨ b ∉ cs := h.imp (fun hk e => hk (master_eq_of_code e)) fun hn hm => hn (hsub b hm)
  have hkept : (fun c : Capture => decide ((!(c.master == k.code && cs.contains c.addr)) = true ∧ (c.master == m.code && c.addr == b) = true))
      = fun c => c.master == m.code && c.addr == b := by
    funext c
    by_cases e : c.master = m.code ∧ c.addr = b
    · obtain ⟨e1, e2⟩ := e
      rcases hb with hb | hb
      · simp [e1, e2, hb.symm]
      · simp [e1, e2, hb]
    · have : (c.master == m.code && c.addr == b) = false := by simpa using e
      simp [this]
  have hnew : (cs.map fun b => (⟨k.code, b, s.view k b⟩ : Capture)).find? (fun c => c.master == m.code && c.addr == b) = none := by
    rw [List.find?_eq_none]
    intro c hc
    obtain ⟨d, hd, rfl⟩ := List.mem_map.1 hc
    rcases hb with hb | hb
    · simp [hb]
    · have : d ≠ b := fun e => hb (e ▸ hd)
      simp [this]
  simp only [State.capOf, hcaps, List.find?_append, hnew, List.find?_filter, hkept, Option.or_none]

/-- A read that is made anew replaces the copy. -/
theorem State.capOf_captureFor_self (s : State) (m : Master) {a b : Nat} (hr : isResLo a = false) (hc : companions a = [b]) :
    (s.captureFor m a).capOf m b = some (s.view m b) := by
  obtain ⟨cs, -, hcs, hcaps⟩ := State.caps_captureFor s m a
  rw [hcs hr, hc] at hcaps
  have hold : ((s.caps.filter fun c => !(c.master == m.code && [b].contains c.addr)).find? fun c => c.master == m.code && c.addr == b) = none := by
    rw [List.find?_eq_none]
    intro c hm
    have := (List.mem_filter.1 hm).2
    simp only [List.contains_cons, List.contains_nil, Bool.or_false] at this
    simp only [Bool.not_eq_true', Bool.eq_false_iff] at this
    exact this
  rw [State.capOf, hcaps, List.find?_append, hold]
  simp

/-- A plain read moves the captures as it takes its own, and no others. -/
theorem State.caps_readPlain (s : State) (m : Master) (a : Nat) (hp : s.sys.powered = true) (hs : s.maySee m a = true) :
    (s.readPlain m a).caps = (s.captureFor m a).caps ∧ (s.readPlain m a).bus = (s.capOf m a).getD (s.view m a) := by
  unfold State.readPlain
  rw [if_neg (by simp [hp, hs])]
  refine ⟨?_, rfl⟩
  dsimp only
  split <;> rfl

theorem State.caps_apertureRead (s : State) (m : Master) (o : Nat) : (s.apertureRead m o .good).caps = s.caps := by
  have hw : (s.sramWord o).2.caps = s.caps := by
    unfold State.sramWord
    split <;> rfl
  unfold State.apertureRead
  split
  · rfl
  · exact hw

/-- A read of another register, or by another master, keeps the copy. -/
theorem State.capOf_readReg_other (s : State) {m k : Master} {a : Nat} (h : a ≠ Adr.FRM_COUNT_LO ∨ k ≠ m) :
    (s.readReg k a).capOf m Adr.FRM_COUNT_HI = s.capOf m Adr.FRM_COUNT_HI := by
  have caps : ∀ {t : State}, t.caps = s.caps → t.capOf m Adr.FRM_COUNT_HI = s.capOf m Adr.FRM_COUNT_HI := fun e => by simp [State.capOf, e]
  unfold State.readReg
  split
  · exact caps (State.caps_apertureRead ..)
  · by_cases hs : s.sys.powered = true ∧ s.maySee k a = true
    · rw [State.capOf, (State.caps_readPlain s k a hs.1 hs.2).1]
      exact State.capOf_captureFor_other s (h.symm.imp_right fun hn hm => hn (countLo_of_companion hm))
    · refine caps ?_
      unfold State.readPlain
      rw [if_pos (Classical.not_and_iff_not_or_not.1 hs)]

/-- No master of the host or of the module is barred from seeing a register that no ring owns (R81, R394). -/
theorem State.maySee_of_plain (s : State) {m : Master} {a : Nat} (hm : m ≠ .spiOpen) (hr : ringOf a = none) (he : isEqReg a = false) :
    s.maySee m a = true := by
  cases m with
  | spiOpen => exact absurd rfl hm
  | pf1 => simp [State.maySee, State.pf1Owns, hr, he]
  | pf0 | spiAdmin | supervisor => rfl

/-- What every master but an unauthorised SPI master sees of FRM_COUNT_HI: the live high word. -/
theorem State.view_countHi (s : State) {m : Master} (hp : s.sys.powered = true) (hm : m ≠ .spiOpen) :
    s.view m Adr.FRM_COUNT_HI = (s.frm.count >>> 32).setWidth 32 := by
  have hw : wordOf s.frm.count.toNat true = (s.frm.count >>> 32).setWidth 32 := by
    apply BitVec.eq_of_toNat_eq
    simp [wordOf, wd, Nat.shiftRight_eq_div_pow]
  have hf : s.fullView m Adr.FRM_COUNT_HI = wordOf s.frm.count.toNat true := rfl
  have hs : s.maySee m Adr.FRM_COUNT_HI = true := State.maySee_of_plain s hm (by decide) (by decide)
  have hprv : prvOf Adr.FRM_COUNT_HI = 0 := by decide +kernel
  unfold State.view
  rw [if_neg (by simp [hp, hs]), hprv, hf, hw]
  split
  · rfl
  · exact BitVec.and_allOnes

/-- The three commands of reads of a word of BAR0. -/
theorem exec_read (s : State) {k : Master} {a : Nat} {c : Instr} (hc : c ∈ [.captureRead k a, .rcFieldRead k a, .resultRegisterRead k a])
    (ha : inBar a = true) : exec c s = .next (s.readReg k a) := by
  have h : s.readAt k a = .next (s.readReg k a) := if_pos ha
  simp only [List.mem_cons, List.not_mem_nil, or_false] at hc
  rcases hc with rfl | rfl | rfl <;> exact h

/-- Settles O13: a read of FRM_COUNT_LO captures the one companion that it has, and no other read has it. -/
theorem frameCountCopy : Obligations.FrameCountCopy := by
  unfold Obligations.FrameCountCopy
  refine ⟨fun s m hp hm => ?_, fun s m k a c hc ha hk => ?_, fun m => rfl⟩
  · have hlo := State.caps_readPlain s m Adr.FRM_COUNT_LO hp (State.maySee_of_plain s hm (by decide) (by decide))
    have hhi := State.maySee_of_plain s hm (a := Adr.FRM_COUNT_HI) (by decide) (by decide)
    have hre := exec_read s (k := m) (a := Adr.FRM_COUNT_HI) (c := .captureRead m Adr.FRM_COUNT_HI) (by simp) (by decide)
    have hkeep := State.capOf_readReg_other s (m := m) (k := m) (a := Adr.FRM_COUNT_HI) (.inl (by decide))
    have hplain : (s.readReg m Adr.FRM_COUNT_HI).bus = (s.capOf m Adr.FRM_COUNT_HI).getD (s.view m Adr.FRM_COUNT_HI) :=
      (State.caps_readPlain s m Adr.FRM_COUNT_HI hp hhi).2
    refine ⟨completes_of_exec (t := s.readPlain m Adr.FRM_COUNT_LO) rfl ⟨?_, fun k hk => ?_⟩, fun v hv => ?_, fun hn => ?_⟩
    · rw [State.capOf, hlo.1, ← State.view_countHi s hp hm]
      exact State.capOf_captureFor_self s m (by decide) (by decide)
    · rw [State.capOf, hlo.1]
      exact State.capOf_captureFor_other s (.inl hk.symm)
    · exact completes_of_exec hre ⟨by rw [hplain, hv]; rfl, hkeep.trans hv⟩
    · exact completes_of_exec hre ⟨by rw [hplain, hn, State.view_countHi s hp hm]; rfl, hkeep.trans hn⟩
  · exact completes_of_exec (exec_read s hc ha) (State.capOf_readReg_other s hk)

end Sys2Proof.Machine
end

section

namespace Sys2Proof.Machine

open Safety

/-! ### Fields of words (R10) -/

theorem fld_eq_extract (w : Word) (hi lo : Nat) : fld w hi lo = (w.extractLsb' lo (hi + 1 - lo)).toNat := by
  rw [fld, BitVec.extractLsb'_toNat, Nat.shiftRight_eq_div_pow]

/-- A field is as one word has it, where its bits are. -/
theorem fld_congr {v w : Word} {hi lo : Nat} (h : ∀ i < hi + 1 - lo, v.getLsbD (lo + i) = w.getLsbD (lo + i)) : fld v hi lo = fld w hi lo := by
  rw [fld_eq_extract, fld_eq_extract]
  refine congrArg BitVec.toNat (BitVec.eq_of_getLsbD_eq fun i hi => ?_)
  simp only [BitVec.getLsbD_extractLsb', hi, decide_true, Bool.true_and]
  exact h i hi

theorem getLsbD_mergeW (w v : Word) (mask : Nat) {i : Nat} (h : i < 32) :
    (mergeW w v mask).getLsbD i = if (wd mask).getLsbD i then v.getLsbD i else w.getLsbD i := by
  simp only [mergeW, BitVec.getLsbD_or, BitVec.getLsbD_and, BitVec.getLsbD_not, h, decide_true, Bool.true_and]
  cases (wd mask).getLsbD i <;> simp

/-! ### GO (R31, R36) -/

/-- An admin master writes every register (R394). -/
theorem State.mayWrite_admin (s : State) {m : Master} (h : m.admin = true) (a : Nat) : s.mayWrite m a = true := by
  cases m with
  | pf1 | spiOpen => exact nomatch h
  | pf0 | spiAdmin | supervisor => rfl

theorem rowOf_admitCtl : (rowOf Adr.FRM_ADMIT_CTL).map (fun r => (r.rw, r.prv, r.w1c)) = some (0x3F00, 0x3F00, 0) := by decide +kernel

/-- The slack that a write of FRM_ADMIT_CTL asks for (R36). -/
theorem fld_normalise_slack (w : Word) : fld (normalise Adr.FRM_ADMIT_CTL w) 13 8 = clampNat 8 50 (fld w 13 8) := by
  have hn : clampNat 8 50 (fld w 13 8) ≤ 50 := by simp [clampNat]
  have hv : fld (wd (clampNat 8 50 (fld w 13 8) * 2 ^ 8)) 13 8 = clampNat 8 50 (fld w 13 8) := by
    simp only [fld, wd, BitVec.toNat_ofNat] at hn ⊢
    omega
  rw [normalise, if_pos rfl, holdFld, putFld]
  refine Eq.trans (fld_congr fun i hi => ?_) hv
  rw [getLsbD_mergeW _ _ _ (by omega), if_pos]
  interval_cases i <;> decide

/-- A write of FRM_ADMIT_CTL by an admin master stores the slack, and moves nothing but that register and its parity. -/
theorem State.plainWrite_admitCtl (s : State) {m : Master} (w : Word) (hp : s.sys.powered = true) (hm : m.admin = true) :
    ∃ v : Word, fld v 13 8 = clampNat 8 50 (fld w 13 8) ∧
      s.plainWrite m Adr.FRM_ADMIT_CTL w = (s.setReg Adr.FRM_ADMIT_CTL v).rewritten Adr.FRM_ADMIT_CTL := by
  obtain ⟨r, hr, he⟩ := Option.map_eq_some_iff.1 rowOf_admitCtl
  obtain ⟨hrw, -, hw1⟩ : r.rw = 0x3F00 ∧ r.prv = 0x3F00 ∧ r.w1c = 0 := by simpa using he
  let v := mergeW (s.reg Adr.FRM_ADMIT_CTL) (normalise Adr.FRM_ADMIT_CTL (mergeW (s.reg Adr.FRM_ADMIT_CTL) w 0x3F00)) 0x3F00
  refine ⟨v &&& ~~~(w &&& wd 0), ?_, ?_⟩
  · have slack : ∀ i < 13 + 1 - 8, (wd 0x3F00).getLsbD (8 + i) = true := by decide
    have h1 : v &&& ~~~(w &&& wd 0) = v := by
      rw [show wd 0 = 0#32 from rfl, BitVec.and_zero]
      exact BitVec.and_allOnes
    calc fld (v &&& ~~~(w &&& wd 0)) 13 8 = fld v 13 8 := by rw [h1]
      _ = fld (normalise Adr.FRM_ADMIT_CTL (mergeW (s.reg Adr.FRM_ADMIT_CTL) w 0x3F00)) 13 8 :=
        fld_congr fun i hi => by rw [getLsbD_mergeW _ _ _ (by omega), if_pos (slack i hi)]
      _ = clampNat 8 50 (fld (mergeW (s.reg Adr.FRM_ADMIT_CTL) w 0x3F00) 13 8) := fld_normalise_slack _
      _ = clampNat 8 50 (fld w 13 8) :=
        congrArg _ (fld_congr fun i hi => by rw [getLsbD_mergeW _ _ _ (by omega), if_pos (slack i hi)])
  · simp only [State.plainWrite, hp, if_true, State.notePrv_admin s hm, State.mayWrite_admin s hm, State.storeWord, hr, hm, hrw, hw1]
    rfl

/-- A request of GO asks for the staged rate and offsets, and is no descriptor's (R31). -/
theorem State.admitGo_eq_ask (s : State) (h : s.admBusy = false) :
    ∃ ofs, s.admitGo = s.ask (.go (Fin.ofNat 4 (s.rf Adr.FRM_CFG 1 0)) (BitVec.ofNat 3 (s.rf Adr.FRM_CFG 5 3)) ofs
      (s.rf Adr.FRM_ADMIT_CTL 13 8)) s.frm.count := by
  have hvy : s.stagedOfs.getD 24 0 = BitVec.ofNat 3 (s.rf Adr.FRM_CFG 5 3) := by
    simp [State.stagedOfs]
  refine ⟨s.stagedOfs.take 24, ?_⟩
  rw [State.admitGo, if_neg (by simp [h]), ← hvy]

/-- What a request moves of the frame's state is read off that state alone. -/
theorem State.frm_ask_congr {s t : State} (h : t.frm = s.frm) (k : AdmKind) (f : FrameNo) : (t.ask k f).frm = (s.ask k f).frm := by
  simp [State.ask, h]

theorem frameLe_refl (f : FrameNo) : frameLe f f = true := by simp [frameLe]

/-- A request made for the frame in progress, with nothing to drop it, is in progress (R31). -/
theorem State.admBusy_ask (s : State) {k : AdmKind} (h : s.dropped k = false) : (s.ask k s.frm.count).admBusy = true := by
  have hd : (s.ask k s.frm.count).dropped k = false := h
  simp only [State.admBusy, List.any_eq_true]
  refine ⟨⟨k, s.frm.count, none⟩, ?_, ?_⟩
  · simp [State.ask]
  · simp only [hd]
    exact (Bool.and_true _).trans (frameLe_refl s.frm.count)

/-! ### The result of an admission (R30, R31, R37) -/

/-- The verdict's place in FRM_ADMIT_STAT. -/
def AdmVerdict.mark : AdmVerdict → Nat
  | .accepted => 1
  | .refused _ => 2

/-- The result field of a status word: bit 3 is kept and says nothing of it. -/
theorem fld_stat (w : Word) (n : Nat) : fld (w &&& 8#32 ||| wd n) 2 1 = n / 2 % 4 := by
  have h : fld (w &&& 8#32 ||| wd n) 2 1 = fld (wd n) 2 1 := fld_congr fun i hi => by
    interval_cases i <;> simp
  rw [h]
  simp only [fld, wd, BitVec.toNat_ofNat]
  omega

/-- A write after what moved registers only moves registers only. -/
theorem State.regsOnly_setReg {s t : State} (h : t = { s with regs := t.regs }) (a : Nat) (w : Word) :
    t.setReg a w = { s with regs := (t.setReg a w).regs } :=
  congrArg (fun u : State => { u with regs := (t.setReg a w).regs }) h

/-- A verdict that is posted moves the report registers and nothing else (R37). -/
theorem State.postVerdict_eqn (s : State) (slack : Nat) (v : AdmVerdict) :
    s.postVerdict slack v = { s with regs := (s.postVerdict slack v).regs } := by
  have put : ∀ b d a l n : Word,
      ∃ r, ((((s.setReg Adr.FRM_ADMIT_STAT b).setReg Adr.FRM_ADMIT_DEMAND d).setReg Adr.FRM_ADMIT_AVAIL a).setReg
        Adr.FRM_ADMIT_LIMIT l).setReg Adr.FRM_ADMIT_SHORT n = { s with regs := r } := fun b d a l n =>
    ⟨_, State.regsOnly_setReg (State.regsOnly_setReg (State.regsOnly_setReg (State.regsOnly_setReg (State.regsOnly_setReg rfl
      _ _) _ _) _ _) _ _) _ _⟩
  have h : ∃ r, s.postVerdict slack v = { s with regs := r } := by
    unfold State.postVerdict
    cases v with
    | accepted => exact put ..
    | refused r => dsimp only; split <;> exact put ..
  obtain ⟨r, hr⟩ := h
  rw [hr]

/-- The result that a verdict shows. -/
theorem State.rf_postVerdict (s : State) (slack : Nat) (v : AdmVerdict) : (s.postVerdict slack v).rf Adr.FRM_ADMIT_STAT 2 1 = v.mark := by
  have put : ∀ stat d a l n : Nat,
      (((((s.setReg Adr.FRM_ADMIT_STAT (s.reg Adr.FRM_ADMIT_STAT &&& 8#32 ||| wd stat)).setReg Adr.FRM_ADMIT_DEMAND (wd d)).setReg
        Adr.FRM_ADMIT_AVAIL (wd a)).setReg Adr.FRM_ADMIT_LIMIT (wd l)).setReg Adr.FRM_ADMIT_SHORT (wd n)).rf Adr.FRM_ADMIT_STAT 2 1 =
          stat / 2 % 4 := by
    intro stat d a l n
    rw [State.rf, State.reg_setReg_other _ _ (by decide), State.reg_setReg_other _ _ (by decide), State.reg_setReg_other _ _ (by decide),
      State.reg_setReg_other _ _ (by decide), State.reg_setReg_self, fld_stat]
  unfold State.postVerdict
  cases v with
  | accepted => exact put ..
  | refused r =>
    dsimp only
    split
    · refine (put ..).trans ?_
      simp only [AdmVerdict.mark]; omega
    · refine (put ..).trans ?_
      simp only [AdmVerdict.mark]; omega

/-- The offsets that a rate brings (R23, R29). -/
theorem State.ofs_takeRate (s : State) (rate : Fin 4) (ofs : List (BitVec 3)) (u : CarrierId) :
    ((s.takeRate rate ofs).cu.get u).ofs = ofs.getD u (s.cu.get u).ofs := by
  have h : (s.takeRate rate ofs).cu.get u = _ := vector_get_ofFn _ u
  rw [h]
  dsimp only
  split
  · next e => exact e.symm
  · rfl

/-- The result that is posted for a GO (R30, R31). -/
theorem State.postResult_go (s : State) (r : AdmReq) {rate : Fin 4} {hvy : BitVec 3} {ofs : List (BitVec 3)} {slack : Nat}
    (hk : r.kind = .go rate hvy ofs slack) :
    ∃ n, s.postResult r =
      let t := { s with frm := { s.frm with adm := s.frm.adm.erase r } }.postVerdict n (s.verdictOf s.admCfg r)
      if s.verdictOf s.admCfg r = .accepted then t.takeRate rate (ofs ++ [hvy]) else t := by
  refine ⟨(s.askedCfg s.admCfg r.kind).slack, ?_⟩
  have hd : s.dropped r.kind = false := by rw [hk]; rfl
  unfold State.postResult
  dsimp only
  rw [if_neg (by simp [hd])]
  generalize hv : s.verdictOf s.admCfg r = v
  cases v with
  | accepted => rw [if_pos rfl, hk]; rfl
  | refused w => rw [if_neg (by simp), hk]; rfl

/-- ADMISSION_RESULT posts the first result that is due. -/
theorem exec_admissionResult_due (s : State) {r : AdmReq} (h : s.frm.adm.find? (fun q => frameLe (q.frame + 2) s.frm.count) = some r) :
    exec .admissionResult s = .next (s.postResult r) := by
  show Host.Outcome.next _ = _
  rw [h]

theorem exec_admissionResult_none (s : State) (h : ∀ r ∈ s.frm.adm, frameLe (r.frame + 2) s.frm.count = false) :
    exec .admissionResult s = .next s := by
  have hn : s.frm.adm.find? (fun q => frameLe (q.frame + 2) s.frm.count) = none := by
    rw [List.find?_eq_none]; exact fun r hr => by rw [h r hr]; exact Bool.false_ne_true
  show Host.Outcome.next _ = _
  rw [hn]

/-- Settles O11: what a GO asks for, what the posting of its result moves, and the judgement of a request alone. -/
theorem admission : Obligations.Admission := by
  unfold Obligations.Admission
  refine ⟨fun s m w hp hm hgo => ?_, ⟨exec_admissionResult_none, fun s r rate hvy ofs slack hr hk => ⟨fun hv => ?_, fun hv => ?_⟩⟩,
    fun s r v hadm hd hle hv => ?_⟩
  · obtain ⟨v, hv, ht⟩ := State.plainWrite_admitCtl s w hp hm
    have he : exec (.frmAdmitGo m w) s = .next ((s.setReg Adr.FRM_ADMIT_CTL v).rewritten Adr.FRM_ADMIT_CTL).admitGo := by
      have hr : s.reaches m Adr.FRM_ADMIT_CTL 1 = true := by simp [State.reaches, hp, hm, State.mayWrite_admin s hm]
      show Host.Outcome.next (s.admitWrite m w) = _
      rw [State.admitWrite, ht, if_pos ⟨hgo, hr⟩]
    have hreg : ∀ a, ((s.setReg Adr.FRM_ADMIT_CTL v).rewritten Adr.FRM_ADMIT_CTL).reg a = (s.setReg Adr.FRM_ADMIT_CTL v).reg a :=
      State.reg_of_regs rfl
    have hfrm : ((s.setReg Adr.FRM_ADMIT_CTL v).rewritten Adr.FRM_ADMIT_CTL).frm = s.frm := rfl
    have hbusy : ((s.setReg Adr.FRM_ADMIT_CTL v).rewritten Adr.FRM_ADMIT_CTL).admBusy = s.admBusy := rfl
    generalize (s.setReg Adr.FRM_ADMIT_CTL v).rewritten Adr.FRM_ADMIT_CTL = t at he hreg hfrm hbusy
    have hctl : t.rf Adr.FRM_ADMIT_CTL 13 8 = clampNat 8 50 (fld w 13 8) := by rw [State.rf, hreg, State.reg_setReg_self, hv]
    have hcfg : ∀ hi lo, t.rf Adr.FRM_CFG hi lo = s.rf Adr.FRM_CFG hi lo := fun hi lo => by
      rw [State.rf, hreg, State.reg_setReg_other _ _ (by decide)]; rfl
    refine ⟨fun hb => completes_of_exec he ?_, fun hb => completes_of_exec he ?_⟩
    · obtain ⟨ofs, hofs⟩ := State.admitGo_eq_ask t (hbusy.trans hb)
      rw [hofs, hctl, hcfg, hcfg]
      exact ⟨⟨_, _, ofs, _, by rw [State.frm_ask_congr hfrm, hfrm], rfl, rfl, rfl⟩, State.admBusy_ask t rfl, hctl⟩
    · rw [State.admitGo, if_pos (hbusy.trans hb)]
      exact ⟨hfrm, State.rb_orReg_self t _ (k := 3) (by decide)⟩
  · obtain ⟨n, hn⟩ := State.postResult_go s r hk
    rw [hv] at hn
    dsimp only at hn
    rw [if_pos rfl] at hn
    refine completes_of_exec ((exec_admissionResult_due s hr).trans (congrArg _ hn)) ?_
    have e := State.postVerdict_eqn { s with frm := { s.frm with adm := s.frm.adm.erase r } } n .accepted
    have hm := State.rf_postVerdict { s with frm := { s.frm with adm := s.frm.adm.erase r } } n .accepted
    generalize State.postVerdict _ n .accepted = t at e hm
    refine ⟨by rw [e]; rfl, rfl, fun u => ?_, hm⟩
    rw [State.ofs_takeRate, e]
  · obtain ⟨n, hn⟩ := State.postResult_go s r hk
    dsimp only at hn
    rw [if_neg hv] at hn
    refine completes_of_exec ((exec_admissionResult_due s hr).trans (congrArg _ hn)) ?_
    have e := State.postVerdict_eqn { s with frm := { s.frm with adm := s.frm.adm.erase r } } n (s.verdictOf s.admCfg r)
    refine ⟨by rw [e], by rw [e], ?_⟩
    rw [State.rf_postVerdict]
    cases h : s.verdictOf s.admCfg r with
    | accepted => exact absurd h hv
    | refused w => rfl
  · have hj : s.judgeList s.admCfg s.frm.adm = [{ r with verdict := some v }] := by
      rw [hadm, State.judgeList, if_neg (not_or.2 ⟨by simp [hd], not_not.2 hle⟩)]
      dsimp only
      rw [hv, State.judgeList]
    rw [State.judgeAll, if_neg (by rw [hadm]; exact List.cons_ne_nil _ _)]
    exact hj

end Sys2Proof.Machine
end

section

namespace Sys2Proof.Machine

open Safety

/-! ### The samples of a unit (O47)

`heldWr` keeps a write to a threshold register while its comparator is under test (R318), but the state's type lets it name any register.
Where it names the unit's own BAY_SMP_STAT, REF_ERR ends the test in the same sample, and the write that ends it overwrites the bit that
REF_ERR has just set. No command brings about such a state (only `cmpThresholdWrite` sets `heldWr`, for a threshold register); the
statement asks it of every state. -/

/-- The module after reset with its carriers running, and a test in unit 0 that holds a write to BAY_SMP_STAT of the unit. -/
def heldOverStat : State :=
  { State.reset with
    frm := { State.reset.frm with lock := true, started := true, count := 1000 }
    cmp := { State.reset.cmp with sweep := some (0, 0), heldWr := some (Adr.BAY_SMP_STAT 0, 0) } }

/-- A peak sample whose internal reference reads 0, far from its 2867. -/
def peakWithoutRef : PeakIn := ⟨[], 0, 0, none⟩

/-- BAY_SMP_STAT bit 1 of unit 0 where a command completes, else true. -/
def refErrShown : Host.Outcome State Fault Refusal → Bool
  | .next t => t.rb (Adr.BAY_SMP_STAT 0) 1
  | _ => true

theorem refErr_hidden_by_heldWr : refErrShown (exec (.bayPeakSample 0 peakWithoutRef) heldOverStat) = false := by decide +kernel

/-- Refutes O47: a held write that names BAY_SMP_STAT takes back the bit of REF_ERR in the sample that sets it. -/
theorem not_unitSamples : ¬ Obligations.UnitSamples := by
  intro h
  obtain ⟨-, -, peak⟩ := h heldOverStat 0
  obtain ⟨t, run, -, -, -, -, -, shown, -⟩ := peak peakWithoutRef (by decide +kernel)
  have hidden := refErr_hidden_by_heldWr
  rw [run] at hidden
  exact absurd (shown (by decide) (by decide)) (by simpa [refErrShown] using hidden)

end Sys2Proof.Machine
end

section

namespace Sys2Proof.Machine

open Safety

/-! ### Telling the host leaves the axes alone -/

theorem State.ax_putRec (s : State) (q : RingId) (r : Rec) (late : Bool) : (s.putRec q r late).ax = s.ax := by
  have signalCq (t : State) : (t.signalCq q).ax = t.ax := (tells_signal ..).ax
  have full (t u : State) (c : Prop) [Decidable c] (h : t.ax = u.ax) : (if c then t.signalCq q else t).ax = u.ax := by
    split
    · rw [signalCq, h]
    · exact h
  exact full _ s _ (by split <;> rfl)

theorem State.ax_dropOf (s : State) (o : Option Nat) : (s.dropOf o).ax = s.ax := by cases o <;> rfl

theorem State.ax_keepOf (s : State) (o : Option Nat) : (s.keepOf o).ax = s.ax := by cases o <;> rfl

theorem State.ax_produce (s : State) (q : RingId) (r : Rec) : (s.produce q r).ax = s.ax := by
  unfold State.produce
  split
  · split
    · split
      · exact ax_keepOf ..
      · rw [ax_putRec, ax_dropOf]
    · split
      · rw [(tells_hold _ _).ax, ax_keepOf]
      · rw [(tells_hold _ _).ax, ax_dropOf]
  · exact ax_dropOf ..

theorem State.ax_finishEvents (s : State) (d : Desc) (status : Nat) (d0 : Word) (fr : FrameNo) : (s.finishEvents d status d0 fr).ax = s.ax := by
  have rejects (t : State) (l : List Nat) (w v : Word) : (t.forAll l fun t u => t.raiseAt fr 9 u w v).ax = t.ax :=
    State.forAll_proj State.ax (fun _ _ => (tells_raiseAt ..).ax) t
  have done : (if d.isEvent ∧ isMotionOp d.op ∧ (status = 0 ∨ status = 9) then
      (match d.lead with | some x => s.raiseAt fr 8 x.val d0 d.tag | none => s) else s).ax = s.ax := by
    split
    · split
      · exact (tells_raiseAt ..).ax
      · rfl
    · rfl
  unfold State.finishEvents
  extract_lets s1
  split
  · exact (rejects ..).trans done
  · exact done

theorem State.ax_moveFeed (s : State) (xs : List AxisId) (starts : List Int) : (s.moveFeed xs starts).ax = s.ax :=
  State.forAll_proj State.ax (f := fun s (p : AxisId × Int) =>
    if s.wb.table.minMove ≤ (s.tickPos p.1 - p.2).natAbs then
      { s with wb := { s.wb with sb := { s.wb.sb with moves := s.wb.sb.moves.set p.1 ((s.wb.sb.moves.getD p.1 0 + 1) % 2 ^ 48) } } }
    else s) (fun _ _ => by split <;> rfl) s

/-! ### What stays of the fault of an axis (R103, R104)

`faultOn` is the fault that an axis stands in. Only `faultAt` sets one; ending descriptors, undoing what they set up and stopping motions
keep it. -/

/-- The fault that axis `x` stands in. -/
def State.faultOn (s : State) (x : AxisId) : Option FaultInfo := (s.ax.get x).tt.faulted

theorem State.faultOn_of_ax {s t : State} (h : t.ax = s.ax) (y : AxisId) : t.faultOn y = s.faultOn y := by rw [faultOn, h, faultOn]

theorem State.faultOn_modAx_self (s : State) (x : AxisId) (f : Axis → Axis) : (s.modAx x f).faultOn x = (f (s.ax.get x)).tt.faulted := by
  rw [faultOn, State.modAx_ax, vector_get_set_self]

theorem State.faultOn_modAx_ne (s : State) {x y : AxisId} (f : Axis → Axis) (h : y ≠ x) : (s.modAx x f).faultOn y = s.faultOn y := by
  rw [faultOn, State.modAx_ax, vector_get_set_ne _ _ h, faultOn]

theorem State.faultOn_modAx (s : State) (x y : AxisId) {f : Axis → Axis} (h : (f (s.ax.get x)).tt.faulted = (s.ax.get x).tt.faulted) :
    (s.modAx x f).faultOn y = s.faultOn y := by
  by_cases e : y = x
  · subst e; rw [faultOn_modAx_self, h, faultOn]
  · exact faultOn_modAx_ne s f e

theorem State.faultOn_modTt (s : State) (x y : AxisId) {f : TtState → TtState} (h : (f (s.ax.get x).tt).faulted = (s.ax.get x).tt.faulted) :
    (s.modTt x f).faultOn y = s.faultOn y := faultOn_modAx s x y h

theorem State.faultOn_forAll {α : Type} {l : List α} {f : State → α → State} {y : AxisId} (h : ∀ t a, (f t a).faultOn y = t.faultOn y)
    (s : State) : (s.forAll l f).faultOn y = s.faultOn y := State.forAll_proj (fun t => t.faultOn y) h s

/-! #### Motions -/

theorem State.faultOn_tellAt (s : State) (fr : FrameNo) (e : Nat) (x : AxisId) (d0 d1 : Word) (y : AxisId) :
    (s.tellAt fr e x d0 d1).faultOn y = s.faultOn y := by
  unfold State.tellAt
  split
  · exact faultOn_of_ax (tells_raise ..).ax y
  · exact faultOn_modAx s x y rfl

theorem State.faultOn_limitClipped (s : State) (x : AxisId) (d0 : Int) (cause : Nat) (high : Bool) (y : AxisId) :
    (s.limitClipped x d0 cause high).faultOn y = s.faultOn y := faultOn_tellAt ..

theorem Axis.returning_faulted (a : Axis) (f : Nat) : (a.returning f).faulted = a.tt.faulted := by
  unfold Axis.returning
  split <;> rfl

theorem TtState.plan_faulted (t : TtState) (f : Nat) (u : RefPt) : (t.plan f u).faulted = t.faulted := rfl

theorem State.faultOn_planProfile (s : State) (x y : AxisId) : (s.planProfile x).faultOn y = s.faultOn y := by
  unfold State.planProfile
  extract_lets a t pl
  split
  · exact faultOn_modTt s x y (TtState.plan_faulted ..)
  · split
    · exact faultOn_modTt s x y (TtState.plan_faulted ..)
    · exact faultOn_modTt s x y ((TtState.plan_faulted ..).trans (Axis.returning_faulted ..))
  · exact faultOn_modTt s x y (TtState.plan_faulted ..)
  · extract_lets u
    split
    · exact (faultOn_modTt _ x y (TtState.plan_faulted ..)).trans (faultOn_limitClipped ..)
    · exact faultOn_modTt s x y (TtState.plan_faulted ..)

theorem State.faultOn_stopFrom (s : State) (x : AxisId) (new old : Limits) (park : Bool) (y : AxisId) :
    (s.stopFrom x new old park).faultOn y = s.faultOn y := by
  unfold State.stopFrom
  extract_lets a t lo hi within past l p s1
  have clipped : s1.faultOn y = s.faultOn y := by
    unfold s1
    split
    · exact faultOn_limitClipped ..
    · rfl
  rw [faultOn_planProfile, ← clipped]
  exact faultOn_modAx s1 x y rfl

theorem State.faultOn_stopMotion (s : State) (x : AxisId) (d jd : Nat) (park : Bool) (y : AxisId) :
    (s.stopMotion x d jd park).faultOn y = s.faultOn y := faultOn_stopFrom ..

theorem State.faultOn_stopStored (s : State) (x : AxisId) (park : Bool) (y : AxisId) : (s.stopStored x park).faultOn y = s.faultOn y :=
  (faultOn_modTt _ x y rfl).trans (faultOn_stopMotion ..)

theorem State.faultOn_stopOthers (s : State) (d : Desc) (but : List AxisId) (y : AxisId) : (s.stopOthers d but).faultOn y = s.faultOn y := by
  unfold State.stopOthers
  split
  · refine faultOn_forAll (fun t x => ?_) s
    split
    · split
      · exact faultOn_stopStored ..
      · rfl
    · rfl
  · rfl

/-! #### The end of a descriptor -/

theorem State.faultOn_camHead (s : State) (x y : AxisId) : (s.camHead x).faultOn y = s.faultOn y := by
  have filled (f : FollowSt) : ((s.fillCam f).1).ax = s.ax := by
    unfold State.fillCam
    split
    · exact State.forAll_proj State.ax (f := fun t n => t.emit (.dmaRead (t.owner f.ring) (f.addr + 64 * n) 64)) (fun _ _ => rfl) s
    · rfl
  unfold State.camHead
  extract_lets ahead
  split
  · split
    · split
      · rfl
      · exact (faultOn_modAx _ x y rfl).trans (faultOn_of_ax (filled _) y)
    · split
      · exact faultOn_modAx s x y rfl
      · rfl
  · split
    · exact faultOn_modAx s x y rfl
    · rfl

theorem State.faultOn_queueLow (s : State) (x : AxisId) (fr : FrameNo) (y : AxisId) : (s.queueLow x fr).faultOn y = s.faultOn y := by
  unfold State.queueLow
  extract_lets a n moving
  split
  · exact faultOn_of_ax (tells_raiseAt ..).ax y
  · rfl

theorem State.faultOn_finish (s : State) (d : Desc) (status : Nat) (d0 d1 : Word) (fr : FrameNo) (y : AxisId) :
    (s.finish d status d0 d1 fr).faultOn y = s.faultOn y := by
  unfold State.finish
  extract_lets s1 s2 s3
  have h1 : s1.ax = s.ax := by
    unfold s1
    split
    · rfl
    · exact ax_produce ..
  have h2 : s2.ax = s.ax := (ax_finishEvents ..).trans h1
  have h3 : s3.ax = s.ax := by
    unfold s3
    split
    · exact (ax_moveFeed ..).trans h2
    · exact h2
  split
  · refine (faultOn_forAll (fun t x => ?_) s3).trans (faultOn_of_ax h3 y)
    rw [faultOn_camHead, faultOn_queueLow]
  · exact faultOn_of_ax h3 y

theorem State.faultOn_finishRejected (s : State) (d : Desc) (fr : FrameNo) (y : AxisId) :
    (s.finishRejected d fr).faultOn y = s.faultOn y := by
  unfold State.finishRejected
  split
  · exact faultOn_finish ..
  · rfl

theorem State.faultOn_release (s : State) (d : Desc) (y : AxisId) : (s.release d).faultOn y = s.faultOn y :=
  faultOn_forAll (fun t x => faultOn_modAx t x y rfl) s

/-! #### Undoing -/

theorem State.faultOn_undo (s : State) (n : Nat) (y : AxisId) : (s.undo n).faultOn y = s.faultOn y := by
  refine faultOn_forAll (fun t x => ?_) s
  unfold State.undoOn
  split <;> exact faultOn_modAx t x y rfl

theorem State.faultOn_undoAxis (s : State) (x y : AxisId) : (s.undoAxis x).faultOn y = s.faultOn y := by
  refine faultOn_forAll (fun t n => ?_) s
  split
  · exact (faultOn_of_ax rfl y).trans (faultOn_undo t n y)
  · exact faultOn_undo ..

theorem State.faultOn_replan (s : State) (x y : AxisId) : (s.replan x).faultOn y = s.faultOn y :=
  faultOn_forAll (f := fun t n => (t.undo n).putBack n) (fun t n => (faultOn_of_ax rfl y).trans (faultOn_undo t n y)) s

theorem State.faultOn_undoFound (s : State) (x y : AxisId) : (s.undoFound x).faultOn y = s.faultOn y := by
  refine faultOn_forAll (fun t b => faultOn_modAx t x y ?_) s
  simp only [Axis.unset]
  split <;> rfl

/-! #### The fault and the bridge fault action -/

theorem Axis.stopHold_faulted (a : Axis) (sr : Int) : (a.stopHold sr).tt.faulted = a.tt.faulted := rfl

/-- A fault leaves its axis faulted, and every other axis as it was (R103). -/
theorem State.faultOn_faultAt (s : State) (x : AxisId) (event : Nat) (pos : Int) :
    ((s.faultAt x event pos).faultOn x).isSome = true ∧ ∀ y, y ≠ x → (s.faultAt x event pos).faultOn y = s.faultOn y := by
  unfold State.faultAt
  split
  case isTrue h => exact ⟨h, fun _ _ => rfl⟩
  case isFalse h =>
    extract_lets fr stalled s0 q s1 s2
    have stalled_faulted (a : Axis) : (stalled a).tt.faulted = a.tt.faulted := by
      unfold stalled
      split
      · split <;> rfl
      · rfl
    have ended (t : State) (d : Desc) (st : Nat) (y : AxisId) :
        (((t.stopOthers d [x]).finish d st (wd event) (wdI pos) fr).release d).faultOn y = t.faultOn y := by
      rw [faultOn_release, faultOn_finish, faultOn_stopOthers]
    refine ⟨?_, fun y hy => ?_⟩
    · rw [faultOn_modAx_self, stalled_faulted]; rfl
    · have h0 : s0.faultOn y = s.faultOn y := (faultOn_undoFound ..).trans (faultOn_undoAxis ..)
      have h1 : s1.faultOn y = s0.faultOn y := faultOn_forAll (fun t d => ended t d 8 y) s0
      have h2 : s2.faultOn y = s1.faultOn y := faultOn_forAll (fun t d => by
        split
        · exact faultOn_finishRejected ..
        · exact ended t d 7 y) s1
      rw [faultOn_modAx_ne _ _ hy, h2, h1, h0]

theorem State.faultOn_bridgeFault (s : State) (x y : AxisId) : (s.bridgeFault x).faultOn y = s.faultOn y :=
  (faultOn_modAx _ x y rfl).trans (faultOn_replan ..)

/-- A bridge fault leaves its axis faulted. -/
theorem State.bridgeFaulted_self (s : State) (x : AxisId) (event : Nat) : ((s.bridgeFaulted x event).faultOn x).isSome = true := by
  unfold State.bridgeFaulted
  rw [faultOn_bridgeFault]
  exact (faultOn_faultAt ..).1

/-- A bridge fault clears no fault. -/
theorem State.bridgeFaulted_keeps (s : State) (x y : AxisId) (event : Nat) (h : (s.faultOn y).isSome = true) :
    ((s.bridgeFaulted x event).faultOn y).isSome = true := by
  by_cases e : y = x
  · subst e; exact bridgeFaulted_self ..
  · unfold State.bridgeFaulted State.faultAxis
    rw [faultOn_bridgeFault, (faultOn_faultAt ..).2 y e]; exact h

/-- Every energised axis of the list ends up faulted. -/
theorem State.faultEnergised_faults (s : State) (xs : List AxisId) (event : Nat) {x : AxisId} (hx : x ∈ xs)
    (on : (s.ax.get x).energised = true) : ((s.faultEnergised xs event).1.faultOn x).isSome = true :=
  State.forAll_reaches (fun x t => (t.faultOn x).isSome = true) (fun t x => bridgeFaulted_self t x event)
    (fun t x y h => bridgeFaulted_keeps t x y event h) s x (List.mem_filter.2 ⟨hx, on⟩)

end Sys2Proof.Machine
end

section

namespace Sys2Proof.Machine

open Safety

/-! ### What operations of the line move (R344 to R365)

`LineMoves` extends the frame of `Within`: the line's own state and the count of free values drawn may have moved as well. Registers but
those of events stay, and a pending event stays pending. -/

/-- Nothing has moved but the line, the free values and what `Within` allows. -/
def LineMoves (s t : State) : Prop := Within true { s with line := t.line, free := t.free } t

theorem LineMoves.refl (s : State) : LineMoves s s := Within.refl true s

theorem Within.lineMoves {s t : State} (h : Within true s t) : LineMoves s t := by
  have e : ({ s with line := t.line, free := t.free } : State) = s := by rw [h.line, h.free]
  unfold LineMoves
  rw [e]; exact h

theorem State.raise_moves (s : State) (e u : Nat) (d0 d1 : Word) : LineMoves s (s.raise e u d0 d1) :=
  (within_raise (Within.refl true s) e u d0 d1).lineMoves

theorem LineMoves.trans {s t u : State} (h : LineMoves s t) (k : LineMoves t u) : LineMoves s u where
  eqn := by rw [Within.eqn k, Within.eqn h]
  link := ⟨k.link.1.trans h.link.1, k.link.2.1.trans h.link.2.1, k.link.2.2.trans h.link.2.2⟩
  next e := (k.next e).trans (h.next e)
  reg e a n := (k.reg e a n).trans (h.reg e a n)
  lo e i w := k.lo e i (h.lo e i w)
  hi e i w := k.hi e i (h.hi e i w)

theorem LineMoves.modLine (s : State) (f : Line → Line) : LineMoves s (s.modLine f) := Within.same rfl

theorem LineMoves.drawFree (s : State) : LineMoves s s.drawFree.2 := Within.same rfl

theorem LineMoves.emit (s : State) (o : Output) : LineMoves s (s.emit o) := Within.same rfl

theorem LineMoves.forAll {α : Type} {l : List α} {f : State → α → State} (h : ∀ t a, LineMoves t (f t a)) (s : State) :
    LineMoves s (s.forAll l f) :=
  State.forAll_keeps (LineMoves s) (fun t a k => k.trans (h t a)) (.refl s)

theorem LineMoves.frm {s t : State} (h : LineMoves s t) : t.frm = s.frm := by rw [Within.eqn h]

theorem LineMoves.reg_eq {s t : State} (h : LineMoves s t) {a : Nat} (n : evReg a = false) : t.reg a = s.reg a := Within.reg h rfl a n

theorem LineMoves.lineCfg {s t : State} (h : LineMoves s t) : t.reg Adr.LINE_CFG = s.reg Adr.LINE_CFG := h.reg_eq (by decide)

theorem LineMoves.station {s t : State} (h : LineMoves s t) : t.station = s.station := by
  rw [State.station, State.rf, h.lineCfg, State.station, State.rf]

/-- A pending event of the second word stays pending. -/
theorem LineMoves.pending {s t : State} (h : LineMoves s t) {i : Nat} (w : s.rb Adr.EVT_PEND_HI i = true) : t.rb Adr.EVT_PEND_HI i = true :=
  Within.hi h rfl i w

theorem State.station_lt (s : State) : s.station < 8 := by
  unfold State.station State.rf fld
  exact Nat.mod_lt _ (by decide)

/-! #### The joined set and the topology (R363, R364) -/

theorem State.topology_moves (s : State) : LineMoves s s.topology := by
  unfold State.topology
  extract_lets t d
  split
  · exact .modLine ..
  · exact ((LineMoves.modLine ..).trans (State.raise_moves ..)).trans (.modLine ..)

theorem State.topology_line (s : State) : ∃ d, s.topology.line = { s.line with topo := s.line.topoOf, topoD0 := d } := by
  unfold State.topology
  extract_lets t d
  split
  · exact ⟨_, rfl⟩
  · exact ⟨d, by rw [modLine, (tells_raise ..).line]; rfl⟩

theorem State.topology_ax (s : State) : s.topology.ax = s.ax := by
  unfold State.topology
  extract_lets t d
  split
  · rfl
  · rw [modLine, (tells_raise ..).ax]; rfl

/-! #### The end of a stop (R356) -/

theorem State.estopCleared_tells (s : State) (i : Nat) (own : Option Nat) :
    ∃ t, (t = s ∨ t = s.drawFree.2) ∧ ∃ d0 d1, s.estopCleared i own = t.raise 51 (stationCode i) d0 d1 := by
  cases own with
  | none => exact ⟨_, .inr rfl, _, _, rfl⟩
  | some c => exact ⟨_, .inl rfl, _, _, rfl⟩

theorem State.estopCleared_moves (s : State) (i : Nat) (own : Option Nat) : LineMoves s (s.estopCleared i own) := by
  obtain ⟨t, rfl | rfl, d0, d1, e⟩ := s.estopCleared_tells i own <;> rw [e]
  · exact State.raise_moves ..
  · exact (LineMoves.drawFree s).trans (State.raise_moves ..)

theorem State.estopCleared_line (s : State) (i : Nat) (own : Option Nat) : (s.estopCleared i own).line = s.line := by
  obtain ⟨t, rfl | rfl, d0, d1, e⟩ := s.estopCleared_tells i own <;> rw [e, (tells_raise ..).line]
  rfl

theorem State.estopCleared_ax (s : State) (i : Nat) (own : Option Nat) : (s.estopCleared i own).ax = s.ax := by
  obtain ⟨t, rfl | rfl, d0, d1, e⟩ := s.estopCleared_tells i own <;> rw [e, (tells_raise ..).ax]
  rfl

/-- The stations that assert the stop, without station `i`. -/
def Line.without (l : Line) (i : Nat) : Line := { l with estop := l.estop &&& ~~~(BitVec.ofNat 8 (2 ^ i)) }

theorem State.dropEstop_moves (s : State) (i : Nat) (own : Option Nat) : LineMoves s (s.dropEstop i own) := by
  unfold State.dropEstop
  split
  · extract_lets t
    split
    · exact (LineMoves.modLine ..).trans (estopCleared_moves ..)
    · exact .modLine ..
  · exact .refl s

theorem State.dropEstop_ax (s : State) (i : Nat) (own : Option Nat) : (s.dropEstop i own).ax = s.ax := by
  unfold State.dropEstop
  split
  · extract_lets t
    split
    · exact estopCleared_ax ..
    · rfl
  · rfl

theorem and_not_two_pow_of_clear {w : BitVec 8} {i : Nat} (h : w.getLsbD i = false) : w &&& ~~~(BitVec.ofNat 8 (2 ^ i)) = w := by
  refine BitVec.eq_of_getLsbD_eq fun k hk => ?_
  rw [getLsbD_and_not_two_pow]
  by_cases e : i = k
  · subst e; simp [h]
  · simp [e]

theorem State.dropEstop_line (s : State) (i : Nat) (own : Option Nat) : (s.dropEstop i own).line = s.line.without i := by
  unfold State.dropEstop
  split
  · extract_lets t
    split
    · exact estopCleared_line ..
    · rfl
  · case isFalse h =>
    rw [Line.without, and_not_two_pow_of_clear (Bool.not_eq_true _ ▸ h)]

end Sys2Proof.Machine
end

section

namespace Sys2Proof.Machine

open Safety

/-! #### Stops of others, and what ends on the line (R354, R356, R358, R363) -/

/-- One step of `dropOthers`. -/
def State.dropOther (s : State) (i : Nat) : State := if i = s.station then s else s.dropEstop i none

theorem State.dropOther_moves (s : State) (i : Nat) : LineMoves s (s.dropOther i) := by
  unfold State.dropOther
  split
  · exact .refl s
  · exact dropEstop_moves ..

theorem State.dropOthers_moves (s : State) : LineMoves s s.dropOthers := .forAll dropOther_moves s

theorem State.dropOther_line (s : State) (i : Nat) : (s.dropOther i).line = if i = s.station then s.line else s.line.without i := by
  unfold State.dropOther
  split
  · rfl
  · exact dropEstop_line ..

theorem State.dropOthers_line (s : State) : ∃ e, s.dropOthers.line = { s.line with estop := e } := by
  refine State.forAll_keeps (fun t => ∃ e, t.line = { s.line with estop := e }) (f := State.dropOther) (fun t i h => ?_) ⟨s.line.estop, rfl⟩
  obtain ⟨e, h⟩ := h
  rw [dropOther_line, h]
  split
  · exact ⟨e, rfl⟩
  · exact ⟨_, rfl⟩

/-- A bit that is clear among the stops stays clear when one more is dropped. -/
theorem Line.without_clear {l : Line} {o : Nat} (i : Nat) (h : l.estop.getLsbD o = false) : (l.without i).estop.getLsbD o = false := by
  rw [Line.without, getLsbD_and_not_two_pow, h, Bool.false_and]

theorem Line.without_self (l : Line) (i : Nat) : (l.without i).estop.getLsbD i = false := by
  rw [Line.without, getLsbD_and_not_two_pow]; simp

/-- After `dropOthers` no stop of another station is in force. -/
theorem State.dropOthers_clears (s : State) {o : Nat} (ho : o < 8) (hs : o ≠ s.station) : s.dropOthers.line.estop.getLsbD o = false := by
  have reached := State.forAll_reaches (fun i t => i ≠ t.station → t.line.estop.getLsbD i = false) (l := List.range 8) (f := State.dropOther)
    (fun t i hi => by
      rw [(t.dropOther_moves i).station] at hi
      rw [dropOther_line, if_neg hi]; exact Line.without_self ..)
    (fun t i j keep hj => by
      rw [(t.dropOther_moves i).station] at hj
      rw [dropOther_line]
      split
      · exact keep hj
      · exact Line.without_clear _ (keep hj)) s o (List.mem_range.2 ho)
  exact reached fun e => hs (e.trans s.dropOthers_moves.station)

/-- The line with a stop registered for station `origin` in frame `fr`. -/
def Line.stopped (l : Line) (origin : Nat) (fr : FrameNo) : Line :=
  { l with estop := l.estop ||| BitVec.ofNat 8 (2 ^ origin), peers := l.peers.modify origin fun q => { q with stopAt := fr } }

theorem State.estopSet_eq (s : State) (origin cause : Nat) : s.estopSet origin cause =
    if s.line.estop = 0 then (s.modLine (·.stopped origin s.frm.count)).estopAct origin cause
    else s.modLine (·.stopped origin s.frm.count) := rfl

theorem State.estopSet_moves (s : State) (origin cause : Nat) : LineMoves s (s.estopSet origin cause) := by
  rw [estopSet_eq]
  split
  · exact (LineMoves.modLine ..).trans (within_estopAct (Within.refl true _) ..).lineMoves
  · exact .modLine ..

theorem State.estopSet_line (s : State) (origin cause : Nat) : (s.estopSet origin cause).line = s.line.stopped origin s.frm.count := by
  rw [estopSet_eq]
  split
  · rw [(within_estopAct (Within.refl true _) ..).line]; rfl
  · rfl

theorem State.estopSet_bit (s : State) {origin : Nat} (ho : origin < 8) (cause : Nat) :
    (s.estopSet origin cause).line.estop.getLsbD origin = true := by
  rw [estopSet_line, Line.stopped, getLsbD_or_two_pow]; simp [ho]

theorem State.originate_of_own {s : State} (h : s.line.own.isSome = true) (cause : Nat) : s.originate cause = s := by
  unfold State.originate; rw [if_pos h]

theorem State.originate_moves (s : State) (cause : Nat) : LineMoves s (s.originate cause) := by
  unfold State.originate
  split
  · exact .refl s
  · extract_lets t
    exact ((LineMoves.modLine ..).trans (.emit ..)).trans (estopSet_moves ..)

/-- Where a station originates a stop, the stop's origins, their times and its own cause are what changes on the line. -/
theorem State.originate_line (s : State) (cause : Nat) :
    ∃ e o p, (s.originate cause).line = { s.line with estop := e, own := o, peers := p } := by
  unfold State.originate
  split
  · exact ⟨_, _, _, rfl⟩
  · rw [estopSet_line]; exact ⟨_, _, _, rfl⟩

theorem State.originate_sets {s : State} (h : s.line.own = none) (cause : Nat) :
    (s.originate cause).line.own = some cause ∧ (s.originate cause).line.estop.getLsbD s.station = true := by
  unfold State.originate
  rw [if_neg (by rw [h]; simp)]
  exact ⟨by rw [estopSet_line]; rfl, estopSet_bit _ s.station_lt cause⟩

theorem State.endLineOps_moves (s : State) (e : Nat) : LineMoves s (s.endLineOps e) := by
  unfold State.endLineOps
  extract_lets ds s1 gone s2
  have h1 : LineMoves s s1 := .forAll (fun t d => (within_finish (Within.refl true t) ..).lineMoves) s
  have h2 : LineMoves s1 s2 := .modLine ..
  refine (h1.trans h2).trans (.forAll (fun t d => ?_) s2)
  split
  · exact (within_enterRing (Within.refl true t) ..).lineMoves
  · exact .refl t

theorem State.endLineOps_line (s : State) (e : Nat) :
    ∃ ta ba, (s.endLineOps e).line = { s.line with toSend := [], tally := ta, bars := ba } := by
  unfold State.endLineOps
  extract_lets ds s1 gone s2
  have h1 : s1.line = s.line := State.forAll_proj State.line (fun t d => (within_finish (Within.refl true t) ..).line) s
  have h2 : s2.line = { s.line with toSend := [], tally := s.line.tally.map fun a => { a with desc := none },
                                    bars := s.line.bars.map fun b => { b with who := gone b.who } } := by rw [← h1]; rfl
  refine ⟨_, _, Eq.trans (State.forAll_proj State.line (fun t d => ?_) s2) h2⟩
  split
  · exact (within_enterRing (Within.refl true t) ..).line
  · rfl

theorem State.leaves_moves (s : State) (i : Nat) : LineMoves s (s.leaves i) := by
  unfold State.leaves
  extract_lets t
  exact (((LineMoves.modLine ..).trans (within_snapCut (Within.refl true t) i).lineMoves).trans (dropEstop_moves ..)).trans (topology_moves _)

theorem State.leaves_up (s : State) (i : Nat) : (s.leaves i).line.up = s.line.up := by
  unfold State.leaves
  extract_lets t
  obtain ⟨d, h⟩ := ((t.snapCut i).dropEstop i none).topology_line
  rw [h, dropEstop_line, (within_snapCut (Within.refl true t) i).line]
  rfl

/-! #### A station that is cut off (R358, R363) -/

/-- The line of a station that is cut off, before its own stop: isolated, joined with none. -/
def Line.cut (l : Line) : Line :=
  { l with mode := .isolated, present := 0, bars := [], tally := [], snaps := [], dones := [], trim := 0, missed := 0, locked := false,
           peers := l.peers.map Peer.forgotten, joinAt := none, trimNow := 0, trimNext := 0, measured := 0, round := none }

/-- A state in which a station that is cut off stops the line where LINE_CFG says so. -/
def State.ownStop (s : State) : State := if s.rb Adr.LINE_CFG 13 then s.originate 2 else s

theorem State.cutOff_eq (s : State) : s.cutOff = (((s.endLineOps 48).modLine Line.cut).ownStop).dropOthers.topology := rfl

theorem State.ownStop_moves (s : State) : LineMoves s s.ownStop := by
  unfold State.ownStop
  split
  · exact originate_moves ..
  · exact .refl s

theorem State.ownStop_line (s : State) : ∃ e o p, s.ownStop.line = { s.line with estop := e, own := o, peers := p } := by
  unfold State.ownStop
  split
  · exact originate_line ..
  · exact ⟨_, _, _, rfl⟩

theorem State.cutOff_moves (s : State) : LineMoves s s.cutOff := by
  rw [cutOff_eq]
  exact ((((endLineOps_moves s 48).trans (.modLine ..)).trans (ownStop_moves _)).trans (dropOthers_moves _)).trans (topology_moves _)

/-- A station that is cut off is isolated, joined with none, and keeps its ports. -/
theorem State.cutOff_line (s : State) : s.cutOff.line.mode = .isolated ∧ s.cutOff.line.present = 0 ∧ s.cutOff.line.bars = [] ∧
    s.cutOff.line.tally = [] ∧ s.cutOff.line.up = s.line.up := by
  obtain ⟨ta, ba, ended⟩ := s.endLineOps_line 48
  obtain ⟨e, o, p, own⟩ := ((s.endLineOps 48).modLine Line.cut).ownStop_line
  obtain ⟨e', others⟩ := (((s.endLineOps 48).modLine Line.cut).ownStop).dropOthers_line
  obtain ⟨d, topo⟩ := ((((s.endLineOps 48).modLine Line.cut).ownStop).dropOthers).topology_line
  rw [cutOff_eq, topo, others, own, State.modLine, ended]
  exact ⟨rfl, rfl, rfl, rfl, rfl⟩

/-- No stop of another station is in force on a station that is cut off. -/
theorem State.cutOff_clears (s : State) {o : Nat} (ho : o < 8) (hs : o ≠ s.station) : s.cutOff.line.estop.getLsbD o = false := by
  obtain ⟨d, topo⟩ := ((((s.endLineOps 48).modLine Line.cut).ownStop).dropOthers).topology_line
  have same := (((endLineOps_moves s 48).trans (.modLine _ Line.cut)).trans (ownStop_moves _)).station
  rw [cutOff_eq, topo]
  exact dropOthers_clears _ ho (by rwa [same])

end Sys2Proof.Machine
end

section

namespace Sys2Proof.Machine

open Safety

/-! ### The commands of the line between frames (O55) -/

/-! #### TICK (R348, R349, R352) -/

/-- The state in which TICK has been sent on, and the clock of its arrival noted for its port. -/
def State.tickNoted (s : State) (p : Fin 2) (k : Nat) : State :=
  (if s.portUp (1 - p) then s.emit (.lineTick (s.onward p)) else s).modLine fun l =>
    if p = 0 then { l with tick0 := some k } else { l with tick1 := some k }

theorem State.tickNoted_eqn (s : State) (p : Fin 2) (k : Nat) : s.tickNoted p k =
    { s with out := (s.tickNoted p k).out,
             line := if p = 0 then { s.line with tick0 := some k } else { s.line with tick1 := some k } } := by
  unfold State.tickNoted
  split <;> rfl

/-- The state in which a station has locked on TICK. -/
def State.tickTaken (s : State) (p : Fin 2) (k : Nat) : State :=
  ((s.tickNoted p k).modLine fun l => { l with gotTick := true, missed := 0 }).lockOn p k

/-- The line as a station has locked on TICK: the clocks at which TICK came do not bear on the error. -/
theorem State.tickTaken_line (s : State) (p : Fin 2) (k : Nat) : let e := s.phaseError (s.line.delayOn p) k
    (s.tickTaken p k).line = { (s.tickNoted p k).line with
      gotTick := true, missed := 0, err := e, port := p, locked := !decide (10 < e.natAbs),
      trimNext := if 10 < e.natAbs then e else clampInt (-2) 2 e } := by
  have err : ((s.tickNoted p k).modLine fun l => { l with gotTick := true, missed := 0 }).phaseError
      (((s.tickNoted p k).modLine fun l => { l with gotTick := true, missed := 0 }).line.delayOn p) k = s.phaseError (s.line.delayOn p) k := by
    rw [s.tickNoted_eqn p k]
    split <;> rfl
  intro e
  unfold State.tickTaken State.lockOn
  rw [err]
  simp only [State.modLine, decide_eq_true_eq]
  rfl

theorem exec_tickMarker_other {s : State} {p : Fin 2} (k : Nat) (hm : s.line.mode ≠ .off) (hs : s.station ≠ 0) (hp : p ≠ s.line.lockPort)
    (ht : s.line.topo ≠ 1) : exec (.tickMarkerReceive p k) s = .next (s.tickNoted p k) :=
  congrArg Host.Outcome.next ((if_neg (not_or.2 ⟨hm, hs⟩)).trans (if_pos ⟨hp, ht⟩))

theorem exec_tickMarker_locks {s : State} {p : Fin 2} (k : Nat) (hm : s.line.mode ≠ .off) (hs : s.station ≠ 0)
    (hp : p = s.line.lockPort ∨ s.line.topo = 1) : exec (.tickMarkerReceive p k) s = .next
      (if 10 < (s.tickTaken p k).line.err.natAbs ∧ s.line.mode = .joined then
        (s.tickTaken p k).raise 52 (stationCode (s.tickTaken p k).station) (wdI (s.tickTaken p k).line.err) 0 else s.tickTaken p k) :=
  congrArg Host.Outcome.next ((if_neg (not_or.2 ⟨hm, hs⟩)).trans (if_neg (by tauto)))

/-- `tickTaken` moves the line and what is sent out. -/
theorem State.tickTaken_eqn (s : State) (p : Fin 2) (k : Nat) :
    s.tickTaken p k = { s with out := (s.tickTaken p k).out, line := (s.tickTaken p k).line } := by
  unfold State.tickTaken State.lockOn
  rw [s.tickNoted_eqn p k]
  rfl

/-- What a TICK that a station locks on leaves of its state. -/
theorem tickMarker_locks (s : State) (p : Fin 2) (k : Nat) (hm : s.line.mode ≠ .off) (hs : s.station ≠ 0)
    (hp : p = s.line.lockPort ∨ s.line.topo = 1) :
    let e := s.phaseError (s.line.delayOn p) k
    Completes (.tickMarkerReceive p k) s fun t =>
      t.line.err = e ∧ t.line.port = p ∧ t.line.gotTick = true ∧ t.line.missed = 0 ∧ t.line.locked = decide (e.natAbs ≤ 10) ∧ t.ax = s.ax ∧
      t.line.trimNext = (if 10 < e.natAbs then e else clampInt (-2) 2 e) ∧
      (s.line.mode = .joined → 10 < e.natAbs → t.rb Adr.EVT_PEND_HI 20 = true) ∧ (e.natAbs ≤ 10 → t.regs = s.regs) := by
  intro e
  refine completes_of_exec (exec_tickMarker_locks k hm hs hp) ?_
  have line := s.tickTaken_line p k
  have err : (s.tickTaken p k).line.err = e := by rw [line]
  have same := s.tickTaken_eqn p k
  have near : (!decide (10 < e.natAbs)) = decide (e.natAbs ≤ 10) := by rw [← decide_not]; simp
  rw [err]
  by_cases slip : 10 < e.natAbs ∧ s.line.mode = .joined
  · rw [if_pos slip, (tells_raise ..).line, (tells_raise ..).ax, line, same]
    exact ⟨rfl, rfl, rfl, rfl, near, rfl, rfl, fun _ _ => State.rb_raise_self _ 52 .., fun h => absurd slip.1 (by omega)⟩
  · rw [if_neg slip, line, same]
    exact ⟨rfl, rfl, rfl, rfl, near, rfl, rfl, fun hj he => absurd ⟨he, hj⟩ slip, fun _ => rfl⟩

theorem tickMarker_does (s : State) (p : Fin 2) (k : Nat) :
    (s.line.mode = .off ∨ s.station = 0 → exec (.tickMarkerReceive p k) s = .next s) ∧
    (s.line.mode ≠ .off → s.station ≠ 0 → p = s.line.lockPort ∨ s.line.topo = 1 →
      let e := s.phaseError (s.line.delayOn p) k
      Completes (.tickMarkerReceive p k) s fun t =>
        t.line.err = e ∧ t.line.port = p ∧ t.line.gotTick = true ∧ t.line.missed = 0 ∧ t.line.locked = decide (e.natAbs ≤ 10) ∧ t.ax = s.ax ∧
        t.line.trimNext = (if 10 < e.natAbs then e else clampInt (-2) 2 e) ∧
        (s.line.mode = .joined → 10 < e.natAbs → t.rb Adr.EVT_PEND_HI 20 = true) ∧ (e.natAbs ≤ 10 → t.regs = s.regs)) ∧
    (s.line.mode ≠ .off → s.station ≠ 0 → p ≠ s.line.lockPort → s.line.topo ≠ 1 → Completes (.tickMarkerReceive p k) s fun t =>
      t.line = (if p = 0 then { s.line with tick0 := some k } else { s.line with tick1 := some k }) ∧ t.regs = s.regs ∧ t.ax = s.ax) := by
  refine ⟨fun h => congrArg Host.Outcome.next (if_pos h), tickMarker_locks s p k, fun hm hs hp ht => ?_⟩
  refine completes_of_exec (exec_tickMarker_other k hm hs hp ht) ?_
  rw [s.tickNoted_eqn p k]
  exact ⟨rfl, rfl, rfl⟩

/-! #### The broadcast stop (R354 to R356) -/

/-- The state in which a stop's sequence has been sent on. -/
def State.estopForwarded (s : State) (p : Fin 2) (origin : Nat) (set : Bool) : State :=
  if s.portUp (1 - p) then s.emit (.lineEstop (s.onward p) (estopBytes origin set)) else s

theorem State.estopForwarded_eqn (s : State) (p : Fin 2) (origin : Nat) (set : Bool) :
    s.estopForwarded p origin set = { s with out := (s.estopForwarded p origin set).out } := by
  unfold State.estopForwarded
  split <;> rfl

section

variable {s : State} (p : Fin 2) {data inv : Byte} (hi : inv = ~~~data) (hm : s.line.mode ≠ .off) (ho : data.toNat % 8 ≠ s.station)
include hi hm ho

theorem exec_estopMarker : exec (.estopMarkerReceive p data inv) s = .next (
    let t := s.estopForwarded p (data.toNat % 8) (data.getLsbD 7)
    if data.getLsbD 7 then
      if t.line.estop = 0 then (t.drawFree.2).estopSet (data.toNat % 8) ((t.drawFree.1).toNat % 4) else t.estopSet (data.toNat % 8) 0
    else t.dropEstop (data.toNat % 8) none) :=
  congrArg Host.Outcome.next (if_neg (by tauto))

end

/-- The first stop acts on the axes: with ACT 0 every energised one is faulted, and event 51 is pending (R355). -/
theorem State.estopSet_first (s : State) (h : s.line.estop = 0) (origin cause : Nat) :
    (s.estopSet origin cause).rb Adr.EVT_PEND_HI 19 = true ∧ (s.rf Adr.LINE_CFG 8 8 = 0 → ∀ x : AxisId, (s.ax.get x).energised = true →
      ((s.estopSet origin cause).ax.get x).tt.faulted.isSome = true) := by
  rw [State.estopSet_eq, if_pos h]
  generalize ht : s.modLine (·.stopped origin s.frm.count) = t
  have ax : t.ax = s.ax := by rw [← ht]; rfl
  have act : t.rf Adr.LINE_CFG 8 8 = s.rf Adr.LINE_CFG 8 8 := by rw [← ht]; rfl
  refine ⟨State.rb_raise_self _ 51 .., fun h0 x on => ?_⟩
  unfold State.estopAct
  rw [act, h0, (tells_raise ..).ax]
  exact State.faultEnergised_faults t (allFin 200) 51 (mem_allFin x) (by rwa [ax])

theorem estopMarker_does (s : State) (p : Fin 2) (data inv : Byte) :
    let o := data.toNat % 8
    (inv ≠ ~~~data → exec (.estopMarkerReceive p data inv) s = .next s) ∧
    (inv = ~~~data → s.line.mode ≠ .off → o ≠ s.station →
      (data.getLsbD 7 = true → s.line.estop = 0 → Completes (.estopMarkerReceive p data inv) s fun t => t.line.estop.getLsbD o = true ∧
        t.rb Adr.EVT_PEND_HI 19 = true ∧ (s.rf Adr.LINE_CFG 8 8 = 0 → ∀ x : AxisId, (s.ax.get x).energised = true →
          (t.ax.get x).tt.faulted.isSome = true)) ∧
      (data.getLsbD 7 = true → s.line.estop ≠ 0 → Completes (.estopMarkerReceive p data inv) s fun t =>
        t.line.estop = s.line.estop ||| BitVec.ofNat 8 (2 ^ o) ∧ t.ax = s.ax ∧ t.regs = s.regs) ∧
      (data.getLsbD 7 = false → Completes (.estopMarkerReceive p data inv) s fun t => t.line.estop.getLsbD o = false ∧ t.ax = s.ax)) := by
  intro o
  have hlt : o < 8 := Nat.mod_lt _ (by decide)
  refine ⟨fun h => congrArg Host.Outcome.next (if_pos (.inr (.inl h))), fun hi hm ho => ⟨fun hset h0 => ?_, fun hset h0 => ?_, fun hclr => ?_⟩⟩
  · refine completes_of_exec (exec_estopMarker p hi hm ho) ?_
    rw [hset, if_pos rfl, s.estopForwarded_eqn, if_pos h0]
    refine ⟨State.estopSet_bit _ hlt _, ?_⟩
    exact State.estopSet_first { s with out := (s.estopForwarded p (data.toNat % 8) true).out, free := s.free + 1 } h0 _ _
  · refine completes_of_exec (exec_estopMarker p hi hm ho) ?_
    rw [hset, if_pos rfl, s.estopForwarded_eqn, if_neg h0, State.estopSet, if_neg h0]
    exact ⟨rfl, rfl, rfl⟩
  · refine completes_of_exec (exec_estopMarker p hi hm ho) ?_
    rw [hclr, if_neg Bool.false_ne_true, s.estopForwarded_eqn, State.dropEstop_line, State.dropEstop_ax]
    exact ⟨Line.without_self .., rfl⟩

end Sys2Proof.Machine
end

section

namespace Sys2Proof.Machine

open Safety

/-! #### Writes of LINE_CTL (R351, R354) -/

/-- Whether a register outside the rings and the event ring may be written hangs on the master alone (R394). -/
theorem State.mayWrite_congr (s t : State) (m : Master) {a : Nat} (hr : ringOf a = none) (he : isEqReg a = false)
    (hn : (a == Adr.EVT_EN_LO || a == Adr.EVT_EN_HI) = false) : t.mayWrite m a = s.mayWrite m a := by
  cases m with
  | pf1 => simp [State.mayWrite, State.pf1Owns, hr, he, hn]
  | pf0 => rfl
  | spiOpen => rfl
  | spiAdmin => rfl
  | supervisor => rfl

theorem State.noted_line (s : State) (m : Master) (a : Nat) : (s.noted m a).line = s.line := by rw [State.noted_eqn]

theorem State.noted_ax (s : State) (m : Master) (a : Nat) : (s.noted m a).ax = s.ax := by rw [State.noted_eqn]

theorem State.noted_frm (s : State) (m : Master) (a : Nat) : (s.noted m a).frm = s.frm := by rw [State.noted_eqn]

theorem State.noted_sys (s : State) (m : Master) (a : Nat) : (s.noted m a).sys = s.sys := by rw [State.noted_eqn]

theorem State.noted_station (s : State) (m : Master) (a : Nat) : (s.noted m a).station = s.station := by
  rw [State.station, State.rf, State.reg_noted_other s m a (by decide) (by decide), State.station, State.rf]

section

variable {s : State} {m : Master} {k : Nat} (h : Acts s m Adr.LINE_CTL k)
include h

/-- The count of a write takes nothing from its reach. -/
theorem reaches_noted_lineCtl : (s.noted m Adr.LINE_CTL).reaches m Adr.LINE_CTL k = true := by
  have reach := h.2
  unfold State.reaches at reach ⊢
  rwa [State.noted_sys, State.mayWrite_congr s _ m (by decide) (by decide) (by decide)]

end

theorem exec_lineCtlEstop {s : State} {m : Master} (h : Acts s m Adr.LINE_CTL 0) :
    exec (.lineCtlEstop m) s = .next ((s.noted m Adr.LINE_CTL).originate 0) :=
  congrArg Host.Outcome.next (if_pos (reaches_noted_lineCtl h))

/-- The state in which a station has taken back its own stop, of cause `c`. -/
def State.ownDropped (s : State) (c : Nat) : State :=
  ((s.modLine fun l => { l with own := none }).emit (.lineEstop s.line.up (estopBytes s.station false))).dropEstop s.station (some c)

theorem State.lineEstopClear_none {s : State} {m : Master} (h : s.line.own = none) : s.lineEstopClear m = s := by
  unfold State.lineEstopClear
  rw [h]
  split <;> rfl

theorem State.lineEstopClear_some {s : State} {m : Master} {c : Nat} (hr : s.reaches m Adr.LINE_CTL 0 = true) (h : s.line.own = some c) :
    s.lineEstopClear m = s.ownDropped c := by
  unfold State.lineEstopClear
  rw [if_pos hr, h]
  rfl

theorem State.ownDropped_does (s : State) (c : Nat) : (s.ownDropped c).line.own = none ∧
    (s.ownDropped c).line.estop.getLsbD s.station = false ∧ (s.ownDropped c).ax = s.ax := by
  unfold State.ownDropped
  rw [dropEstop_line, dropEstop_ax]
  exact ⟨rfl, Line.without_self .., rfl⟩

theorem lineCtlEstop_does (s : State) (m : Master) (h : Acts s m Adr.LINE_CTL 0) :
    (s.line.own = none → Completes (.lineCtlEstop m) s fun t => t.line.own = some 0 ∧ t.line.estop.getLsbD s.station = true) ∧
    (s.line.own.isSome = true → Completes (.lineCtlEstop m) s fun t => t.line = s.line ∧ t.ax = s.ax) ∧
    (s.line.own.isSome = true → Completes (.lineCtlEstopClr m) s fun t => t.line.own = none ∧
      t.line.estop.getLsbD s.station = false ∧ t.ax = s.ax) ∧
    (s.line.own = none → Completes (.lineCtlEstopClr m) s fun t => t.line = s.line ∧ t.ax = s.ax) := by
  have line := s.noted_line m Adr.LINE_CTL
  have ax := s.noted_ax m Adr.LINE_CTL
  have station := s.noted_station m Adr.LINE_CTL
  refine ⟨fun hn => ?_, fun hs => ?_, fun hs => ?_, fun hn => ?_⟩
  · refine completes_of_exec (exec_lineCtlEstop h) ?_
    have sets := State.originate_sets (s := s.noted m Adr.LINE_CTL) (by rw [line, hn]) 0
    rwa [station] at sets
  · refine completes_of_exec (exec_lineCtlEstop h) ?_
    rw [State.originate_of_own (by rwa [line])]
    exact ⟨line, ax⟩
  · obtain ⟨c, hc⟩ := Option.isSome_iff_exists.1 hs
    refine completes_of_exec (t := (s.noted m Adr.LINE_CTL).ownDropped c) (congrArg Host.Outcome.next
      (State.lineEstopClear_some (reaches_noted_lineCtl h) (by rw [line, hc]))) ?_
    have does := (s.noted m Adr.LINE_CTL).ownDropped_does c
    rwa [station, ax] at does
  · refine completes_of_exec (t := s.noted m Adr.LINE_CTL) (congrArg Host.Outcome.next
      (State.lineEstopClear_none (by rw [line, hn]))) ⟨line, ax⟩

theorem lineCtlReset_does (s : State) (m : Master) (h : Acts s m Adr.LINE_CTL 1) (hm : s.line.mode ≠ .off) :
    Completes (.lineCtlReset m) s fun t => t.frm = s.frm ∧
      if s.station = 0 then t.line.reset.any (fun r => r.start == s.frm.count + 1 && r.places.filterMap id == [0]) = true ∧ t.line.pos = 0
      else t.line = s.line := by
  have line := s.noted_line m Adr.LINE_CTL
  have frm := s.noted_frm m Adr.LINE_CTL
  have station := s.noted_station m Adr.LINE_CTL
  refine completes_of_exec rfl ?_
  unfold State.lineResetWrite
  by_cases h0 : s.station = 0
  · rw [if_pos ⟨reaches_noted_lineCtl h, by rw [station, h0], by rwa [line]⟩, if_pos h0, frm]
    exact ⟨frm, by simp [State.modLine, show List.range 8 = [0, 1, 2, 3, 4, 5, 6, 7] by rfl], rfl⟩
  · rw [if_neg (by rw [station]; exact fun c => h0 c.2.1), if_neg h0]
    exact ⟨frm, line⟩

/-! #### Ports and the cut (R349, R363) -/

theorem lineCutOff_cuts (s : State) (hs : s.station ≠ 0) (hm : s.line.mode = .joined ∨ s.line.mode = .locking)
    (hc : s.line.gotTick = false ∨ s.line.up = 0) :
    Completes .lineCutOff s fun t => t.line.mode = .isolated ∧ t.line.present = 0 ∧ t.line.bars = [] ∧ t.line.tally = [] ∧
      t.frm.count = s.frm.count ∧ ∀ o < 8, o ≠ s.station → t.line.estop.getLsbD o = false := by
  refine completes_of_exec (t := s.cutOff) (congrArg Host.Outcome.next (if_pos ⟨hs, hm, hc⟩)) ?_
  obtain ⟨mode, present, bars, tally, -⟩ := s.cutOff_line
  exact ⟨mode, present, bars, tally, by rw [s.cutOff_moves.frm], fun o ho hne => s.cutOff_clears ho hne⟩

theorem lineCutOff_none (s : State) (h : s.station = 0 ∨ (s.line.gotTick = true ∧ s.line.up ≠ 0)) : exec .lineCutOff s = .next s := by
  refine congrArg Host.Outcome.next (if_neg fun c => ?_)
  obtain ⟨hs, -, hc⟩ := c
  rcases h with h | ⟨hg, hu⟩
  · exact hs h
  · exact hc.elim (fun e => Bool.false_ne_true (e.symm.trans hg)) hu

/-- The state in which a port has gone down and the host has been told. -/
def State.portFell (s : State) (p : Fin 2) : State :=
  (s.modLine fun l => { l with up := l.up &&& ~~~(BitVec.ofNat 2 (2 ^ p.val)) }).raise 48 (0x208 + p.val) (wd (b2n false))
    (wd (s.frm.count - if p = 0 then s.line.upAt0 else s.line.upAt1).toNat)

theorem State.portFell_up (s : State) (p : Fin 2) : (s.portFell p).line.up = s.line.up &&& ~~~(BitVec.ofNat 2 (2 ^ p.val)) := by
  unfold State.portFell
  rw [(tells_raise ..).line]
  rfl

/-- What a port that has gone down brings about for the station. -/
def State.portLost (t : State) : State :=
  if t.line.up = 0 ∧ t.line.mode = .joined then
    (if t.station ≠ 0 then t.cutOff else (stations t.line.present).foldl (fun u i => if i = 0 then u else u.leaves i) t)
  else t.topology

theorem State.portLost_keeps (t : State) : LineMoves t t.portLost ∧ t.portLost.line.up = t.line.up := by
  unfold State.portLost
  split
  · split
    · obtain ⟨-, -, -, -, up⟩ := t.cutOff_line
      exact ⟨t.cutOff_moves, up⟩
    · refine State.forAll_keeps (fun u => LineMoves t u ∧ u.line.up = t.line.up) (f := fun u i => if i = 0 then u else u.leaves i)
        (fun u i h => ?_) ⟨.refl t, rfl⟩
      split
      · exact h
      · exact ⟨h.1.trans (u.leaves_moves i), (u.leaves_up i).trans h.2⟩
  · obtain ⟨d, topo⟩ := t.topology_line
    exact ⟨t.topology_moves, by rw [topo]⟩

theorem exec_linePortDown {s : State} {p : Fin 2} (h : s.portUp p = true) : exec (.linePortDown p false) s = .next (s.portFell p).portLost :=
  congrArg Host.Outcome.next (if_neg (by simp [h]))

theorem portUp_and_not (w : BitVec 2) (p : Fin 2) : (w &&& ~~~(BitVec.ofNat 2 (2 ^ p.val))).getLsbD p = false ∧
    (w &&& ~~~(BitVec.ofNat 2 (2 ^ p.val))).getLsbD (1 - p : Fin 2) = w.getLsbD (1 - p : Fin 2) := by
  revert w p; decide

theorem linePortDown_does (s : State) (p : Fin 2) (h : s.portUp p = true) :
    Completes (.linePortDown p false) s fun t => t.portUp p = false ∧ t.portUp (1 - p) = s.portUp (1 - p) ∧
      t.rb Adr.EVT_PEND_HI 16 = true := by
  refine completes_of_exec (exec_linePortDown h) ?_
  obtain ⟨moves, up⟩ := (s.portFell p).portLost_keeps
  obtain ⟨down, other⟩ := portUp_and_not s.line.up p
  rw [State.portUp, State.portUp, State.portUp, up, State.portFell_up]
  exact ⟨down, other, moves.pending (State.rb_raise_self _ 48 ..)⟩

/-- The line with a port up again from frame `fr` on. -/
def Line.risen (l : Line) (p : Fin 2) (fr : FrameNo) : Line :=
  let u := { l with loop := true }
  if p = 0 then { u with up := l.up ||| 1, upAt0 := fr } else { u with up := l.up ||| 2, upAt1 := fr }

theorem Line.risen_up (l : Line) (p : Fin 2) (fr : FrameNo) :
    (l.risen p fr).up.getLsbD p = true ∧ (l.risen p fr).up.getLsbD (1 - p : Fin 2) = l.up.getLsbD (1 - p : Fin 2) := by
  have bits : ∀ w : BitVec 2, ((w ||| 1).getLsbD 0 = true ∧ (w ||| 1).getLsbD 1 = w.getLsbD 1) ∧
      ((w ||| 2).getLsbD 1 = true ∧ (w ||| 2).getLsbD 0 = w.getLsbD 0) := by decide
  fin_cases p
  · exact (bits l.up).1
  · exact (bits l.up).2

theorem linePortUp_does (s : State) (p : Fin 2) (h : s.portUp p = false) :
    exec (.linePortDown p false) s = .next s ∧
    Completes (.linePortUp p) s fun t => t.portUp p = true ∧ t.portUp (1 - p) = s.portUp (1 - p) ∧ t.frm = s.frm ∧ t.ax = s.ax := by
  refine ⟨congrArg Host.Outcome.next (if_pos (.inl (by simp [h]))), ?_⟩
  refine completes_of_exec (t := (s.modLine (·.risen p s.frm.count)).topology) (congrArg Host.Outcome.next (if_neg (by simp [h]))) ?_
  obtain ⟨d, topo⟩ := (s.modLine (·.risen p s.frm.count)).topology_line
  obtain ⟨up, other⟩ := Line.risen_up s.line p s.frm.count
  rw [State.portUp, State.portUp, State.portUp, topo]
  exact ⟨up, other, (State.topology_moves _).frm, State.topology_ax _⟩

theorem linePortUp_none (s : State) (p : Fin 2) (h : s.portUp p = true) : exec (.linePortUp p) s = .next s :=
  congrArg Host.Outcome.next (if_pos h)

/-! #### The release of a line barrier (R358) -/

theorem lineBarrierRelease_does (s : State) (i : Word) (b : LineBar)
    (h : s.line.bars.find? (fun b => b.id == i && !b.released && b.full.any fun f => frameLe (f + 2) s.frm.count) = some b) :
    Completes (.lineBarrierRelease i) s fun t => t.line.bars = s.line.bars.replace b { b with who := [], released := true } ∧
      t.rb Adr.EVT_PEND_HI 17 = true := by
  have run : exec (.lineBarrierRelease i) s = .next (match some b with
      | none => s
      | some b =>
        let t := (s.modLine fun l => { l with bars := l.bars.replace b { b with who := [], released := true } }).releaseAll b.who
        t.raise 49 (stationCode t.station) b.id (wd b.parts)) := by
    rw [← h]; rfl
  refine completes_of_exec run ⟨?_, State.rb_raise_self _ 49 ..⟩
  rw [(tells_raise ..).line, (within_releaseAll (Within.refl true _) _).line]
  rfl

end Sys2Proof.Machine
end

section

namespace Sys2Proof.Machine

open Safety

/-! #### Joining and the line reset (R28, R351 to R353) -/

theorem State.setCount_count (s : State) (n : FrameNo) : (s.setCount n).frm.count = n := rfl

theorem State.followRate_line (s : State) (r : Fin 4) : (s.followRate r).line = s.line := by
  unfold State.followRate
  split <;> rfl

theorem State.followRate_count (s : State) (r : Fin 4) : (s.followRate r).frm.count = s.frm.count := by
  unfold State.followRate
  split <;> rfl

/-- The line of a station that joins by itself, with the counter and the ring order that it finds. -/
def Line.joins (l : Line) (station : Nat) (found : JoinIn) : Line :=
  { l with mode := .joined, present := l.present ||| BitVec.ofNat 8 (2 ^ station), missed := 0, reset := none, joinAt := none,
           map := (List.range 8).map fun i => found.places.getD i none,
           pos := ((List.range 8).find? fun i => found.places.getD i none == some station).getD l.pos,
           size := (found.places.filter Option.isSome).length, loop := true, round := none,
           peers := l.peers.map fun p => { p with seen := some found.count, base0 := none, base1 := none, got := [], lost := false } }

/-- The state in which a station has joined, before the host is told. -/
def State.joins (s : State) (found : JoinIn) : State :=
  let t := (s.setCount found.count).modLine fun l => l.joins s.station found
  if (s.line.peer 0).seen.isSome then t.followRate (Fin.ofNat 4 (s.line.peer 0).rate) else t

theorem State.joins_line (s : State) (found : JoinIn) : (s.joins found).line = (s.setCount found.count).line.joins s.station found := by
  unfold State.joins
  extract_lets t
  split
  · exact followRate_line ..
  · rfl

theorem State.joins_count (s : State) (found : JoinIn) : (s.joins found).frm.count = found.count := by
  unfold State.joins
  extract_lets t
  split
  · exact followRate_count ..
  · rfl

theorem exec_lineJoin {s : State} (found : JoinIn) (hs : s.station ≠ 0) (hm : s.line.mode = .locking) (hl : s.line.locked = true)
    (h0 : s.line.missed = 0) (ha : s.line.joinAt.any (fun f => frameLe (f + 2) s.frm.count) = true) (hr : s.rateFits = true) :
    exec (.lineJoin found) s =
      .next ((s.joins found).raise 52 (stationCode (s.joins found).station) (wdI (s.joins found).line.err) 1).topology :=
  congrArg Host.Outcome.next (if_pos ⟨hs, hm, hl, h0, ha, hr⟩)

theorem rateFits_of {s : State} (h : (s.line.peer 0).seen = none ∨ (Fin.ofNat 4 (s.line.peer 0).rate = s.frm.rate) ∨
    (∀ x : AxisId, (s.ax.get x).isParked = true)) : s.rateFits = true := by
  unfold State.rateFits
  rcases h with h | h | h
  · simp only [h, Option.isNone_none, Bool.true_or]
  · simp only [h, beq_self_eq_true, Bool.or_true, Bool.true_or]
  · rw [List.all_eq_true.2 fun x _ => h x, Bool.or_true]

theorem lineJoin_does (s : State) (n : FrameNo) (places : List (Option Nat)) :
    (s.station ≠ 0 → s.line.mode = .locking → s.line.locked = true → s.line.missed = 0 →
      s.line.joinAt.any (fun f => frameLe (f + 2) s.frm.count) = true →
      (s.line.peer 0).seen = none ∨ (Fin.ofNat 4 (s.line.peer 0).rate = s.frm.rate) ∨ (∀ x : AxisId, (s.ax.get x).isParked = true) →
      Completes (.lineJoin ⟨n, places⟩) s fun t => t.line.mode = .joined ∧ t.frm.count = n ∧
      t.line.present.getLsbD s.station = true ∧ t.line.map = (List.range 8).map (fun i => places.getD i none) ∧
      t.rb Adr.EVT_PEND_HI 20 = true) ∧
    (s.station = 0 ∨ s.line.mode ≠ .locking ∨ s.line.locked = false ∨ s.line.joinAt = none → exec (.lineJoin ⟨n, places⟩) s = .next s) := by
  refine ⟨fun hs hm hl h0 ha hr => ?_, fun h => ?_⟩
  · refine completes_of_exec (exec_lineJoin ⟨n, places⟩ hs hm hl h0 ha (rateFits_of hr)) ?_
    generalize hu : (s.joins ⟨n, places⟩).raise 52 (stationCode (s.joins ⟨n, places⟩).station) (wdI (s.joins ⟨n, places⟩).line.err) 1 = u
    obtain ⟨d, topo⟩ := u.topology_line
    have line : u.line = (s.setCount n).line.joins s.station ⟨n, places⟩ := by rw [← hu, (tells_raise ..).line, s.joins_line]
    have count : u.frm.count = n := by rw [← hu, (tells_raise ..).frm, s.joins_count]
    have told : u.rb Adr.EVT_PEND_HI 20 = true := by rw [← hu]; exact State.rb_raise_self _ 52 ..
    rw [topo, u.topology_moves.frm, line]
    refine ⟨rfl, count, ?_, rfl, u.topology_moves.pending told⟩
    rw [Line.joins, getLsbD_or_two_pow]
    simp [s.station_lt]
  · refine congrArg Host.Outcome.next (if_neg fun c => ?_)
    obtain ⟨hs, hm, hl, -, ha, -⟩ := c
    rcases h with h | h | h | h
    · exact hs h
    · exact h hm
    · exact Bool.false_ne_true (h.symm.trans hl)
    · rw [h] at ha
      exact Bool.false_ne_true ha

/-- The line of a station that takes part in a line reset, as the counter becomes 0. -/
def Line.begins (l : Line) (station n : Nat) (r : LineReset) : Line :=
  { l with mode := .joined, present := stationBits ((onceOnly r.places).filterMap id) ||| BitVec.ofNat 8 (2 ^ station), reset := none,
           missed := 0, map := onceOnly r.places, size := n, loop := true, round := none,
           peers := l.peers.map fun p => { p with seen := some 0, base0 := none, base1 := none, got := [], lost := false } }

/-- The state in which a line reset has begun the count anew, before the host is told. -/
def State.begins (s : State) (n : Nat) (r : LineReset) : State :=
  ((s.setCount 0).modLine fun l => l.begins s.station n r).modLine fun l => { l with topo := l.topoOf }

/-- The state after a line reset. -/
def State.begun (s : State) (n : Nat) (r : LineReset) : State :=
  let t := s.begins n r
  let d := t.line.present.toNat + 256 * t.line.topo
  (t.raise 53 (stationCode t.station) (wd d) (wd t.line.topoD0)).modLine fun l => { l with topoD0 := d }

theorem exec_lineEpoch_eq (s : State) : exec .lineEpoch s = .next (s.line.reset.elim s fun r =>
    if (s.frm.count - r.start).toNat = 0 ∨ 8 < (s.frm.count - r.start).toNat ∨
        (r.places.drop (s.frm.count - r.start).toNat).any Option.isSome then s
    else s.begun (s.frm.count - r.start).toNat r) := by
  show execLineEpoch s = _
  unfold execLineEpoch
  cases s.line.reset <;> rfl

theorem exec_lineEpoch {s : State} {r : LineReset} (h : s.line.reset = some r) : exec .lineEpoch s = .next (
    if (s.frm.count - r.start).toNat = 0 ∨ 8 < (s.frm.count - r.start).toNat ∨
        (r.places.drop (s.frm.count - r.start).toNat).any Option.isSome then s
    else s.begun (s.frm.count - r.start).toNat r) := by
  rw [exec_lineEpoch_eq, h, Option.elim_some]

theorem frames_since {k start : FrameNo} {n : Nat} (hn : n < 9) (h : k = start + BitVec.ofNat 64 n) : (k - start).toNat = n := by
  subst h
  have : start + BitVec.ofNat 64 n - start = BitVec.ofNat 64 n := by bv_omega
  rw [this, BitVec.toNat_ofNat]
  omega

theorem lineEpoch_does (s : State) (r : LineReset) (h : s.line.reset = some r) :
    (∀ n : Fin 9, s.frm.count = r.start + BitVec.ofNat 64 n.val → n ≠ 0 → (r.places.drop n.val).any Option.isSome = false →
      Completes .lineEpoch s fun t => t.line.mode = .joined ∧ t.line.map = onceOnly r.places ∧ t.line.size = n.val ∧
      t.frm.count = 0 ∧ t.line.present.getLsbD s.station = true ∧ t.line.reset = none ∧ t.rb Adr.EVT_PEND_HI 21 = true) ∧
    ((∀ n : Fin 9, n ≠ 0 → s.frm.count ≠ r.start + BitVec.ofNat 64 n.val) → exec .lineEpoch s = .next s) := by
  refine ⟨fun n hk hn hd => ?_, fun hk => ?_⟩
  · have since := frames_since n.isLt hk
    have some' : n.val ≠ 0 := fun e => hn (Fin.ext e)
    refine completes_of_exec (t := s.begun n.val r) ((exec_lineEpoch h).trans (congrArg Host.Outcome.next ?_)) ?_
    · rw [since, if_neg]
      rintro (c | c | c)
      · exact some' c
      · omega
      · exact Bool.false_ne_true (hd.symm.trans c)
    · unfold State.begun
      extract_lets t d
      refine ⟨?_, ?_, ?_, ?_, ?_, ?_, State.rb_raise_self t 53 ..⟩
      case refine_4 => exact congrArg Frm.count (tells_raise t ..).frm
      all_goals rw [State.modLine, (tells_raise t ..).line]
      case refine_5 =>
        show (stationBits ((onceOnly r.places).filterMap id) ||| BitVec.ofNat 8 (2 ^ s.station)).getLsbD s.station = true
        rw [getLsbD_or_two_pow]; simp [s.station_lt]
      all_goals rfl
  · rw [exec_lineEpoch h, if_pos]
    by_contra c
    push Not at c
    obtain ⟨h0, h8, -⟩ := c
    refine hk ⟨(s.frm.count - r.start).toNat, by omega⟩ (fun e => h0 (congrArg Fin.val e)) ?_
    rw [BitVec.ofNat_toNat, BitVec.setWidth_eq]
    bv_omega

theorem lineEpoch_none (s : State) (h : s.line.reset = none) : exec .lineEpoch s = .next s := by
  rw [exec_lineEpoch_eq, h]
  rfl

end Sys2Proof.Machine
end

section

namespace Sys2Proof.Machine

open Safety

/-! #### LINE_CFG.EN (R342) -/

/-- The word that a register takes hangs on the word it holds and the master's rights. -/
theorem State.written_congr {s t : State} (m : Master) {a : Nat} (h : t.reg a = s.reg a) (w : Word) : t.written m a w = s.written m a w := by
  unfold State.written State.storeWord
  cases rowOf a with
  | none => exact h
  | some r =>
    show (t.setReg a _).reg a = (s.setReg a _).reg a
    rw [State.reg_setReg_self, State.reg_setReg_self, h]

theorem gate_lineCfg {s : State} {m : Master} (h : Acts s m Adr.LINE_CFG 0) : s.gate m Adr.LINE_CFG 0 = (s.noted m Adr.LINE_CFG, true) := by
  unfold State.gate State.noted
  rw [if_pos h.1, if_pos h.1, h.2]

/-- The word that LINE_CFG takes: STATION stays while `keep` holds. -/
def cfgWord (keep : Bool) (v old : Word) : Word := if keep then mergeW v old (bits 6 4) else v

/-- What a write of LINE_CFG does in `t` that sets EN, with no request made. -/
def State.lineAsks (t : State) (v : Word) : State :=
  ((t.setReg Adr.LINE_CFG (mergeW v 0 1)).rewritten Adr.LINE_CFG).ask .line t.frm.count

/-- A write of LINE_CFG has cleared EN: what ran on the line ends. -/
def State.lineEnds (t : State) (v1 : Word) : State :=
  (((t.setReg Adr.LINE_CFG v1).rewritten Adr.LINE_CFG).endLineOps 48).dropOthers

/-- The line of a station that is disabled: its own stop, its ports and its ALIVE counts stay. -/
def Line.disabled (l : Line) : Line :=
  { Line.init with up := l.up, upAt0 := l.upAt0, upAt1 := l.upAt1, own := l.own, estop := l.estop, topoD0 := l.topoD0, tx0 := l.tx0,
                   tx1 := l.tx1, peers := l.peers.map Peer.forgotten }

/-- What a write of LINE_CFG does in `t` that clears EN. -/
def State.lineDisabled (t : State) (v1 : Word) : State :=
  { t.lineEnds v1 with frm := { (t.lineEnds v1).frm with lineCost := false }, line := (t.lineEnds v1).line.disabled }

/-- A write of LINE_CFG that acts, with `t` the state in which it has been counted (R342). -/
theorem lineCfgWrite_eq {s : State} {m : Master} (h : Acts s m Adr.LINE_CFG 0) (w : Word) :
    let t := s.noted m Adr.LINE_CFG
    let old := t.reg Adr.LINE_CFG
    let v := t.written m Adr.LINE_CFG w
    let asked := t.frm.adm.any fun r => r.kind == .line
    let v1 := cfgWord (bitOf old 0 || asked) v old
    s.lineCfgWrite m w =
      if bitOf v 0 = bitOf old 0 then (t.setReg Adr.LINE_CFG v1).rewritten Adr.LINE_CFG
      else if bitOf v 0 then
        (if asked then (t.setReg Adr.LINE_CFG (mergeW v1 0 1)).rewritten Adr.LINE_CFG else t.lineAsks v1)
      else t.lineDisabled v1 := by
  unfold State.lineCfgWrite
  rw [gate_lineCfg h]
  rfl

section

variable {s : State} {m : Master} {w : Word} (h : Acts s m Adr.LINE_CFG 0)
include h

theorem lineCfgWrite_asks (off : s.rb Adr.LINE_CFG 0 = false) (on : bitOf (s.written m Adr.LINE_CFG w) 0 = true)
    (free : ∀ r ∈ s.frm.adm, r.kind ≠ .line) :
    s.lineCfgWrite m w = (s.noted m Adr.LINE_CFG).lineAsks (s.written m Adr.LINE_CFG w) := by
  have reg : (s.noted m Adr.LINE_CFG).reg Adr.LINE_CFG = s.reg Adr.LINE_CFG := State.reg_noted_other s m _ (by decide) (by decide)
  have off' : bitOf (s.reg Adr.LINE_CFG) 0 = false := off
  have none_asked : (s.frm.adm.any fun r => r.kind == .line) = false := by
    rw [List.any_eq_false]
    exact fun r hr e => free r hr (eq_of_beq e)
  rw [lineCfgWrite_eq h, State.written_congr m reg, reg, State.noted_frm, none_asked, off', on]
  rfl

theorem lineCfgWrite_disables (on : s.rb Adr.LINE_CFG 0 = true) (off : bitOf (s.written m Adr.LINE_CFG w) 0 = false) :
    s.lineCfgWrite m w =
      (s.noted m Adr.LINE_CFG).lineDisabled (mergeW (s.written m Adr.LINE_CFG w) (s.reg Adr.LINE_CFG) (bits 6 4)) := by
  have reg : (s.noted m Adr.LINE_CFG).reg Adr.LINE_CFG = s.reg Adr.LINE_CFG := State.reg_noted_other s m _ (by decide) (by decide)
  have on' : bitOf (s.reg Adr.LINE_CFG) 0 = true := on
  rw [lineCfgWrite_eq h, State.written_congr m reg, reg, on', off]
  rfl

end

theorem State.lineAsks_does (t : State) (v : Word) : (t.lineAsks v).rb Adr.LINE_CFG 0 = false ∧ (t.lineAsks v).line = t.line ∧
    (t.lineAsks v).frm = (t.ask .line t.frm.count).frm := by
  refine ⟨?_, rfl, rfl⟩
  show bitOf ((t.setReg Adr.LINE_CFG (mergeW v 0 1)).reg Adr.LINE_CFG) 0 = false
  rw [State.reg_setReg_self, bitOf, getLsbD_mergeW _ _ _ (by decide)]
  rfl

/-- What ends where EN is cleared leaves the ports, the own stop and the ALIVE counts, and LINE_CFG as written. -/
theorem State.lineEnds_does (t : State) (v1 : Word) : (t.lineEnds v1).reg Adr.LINE_CFG = v1 ∧ (t.lineEnds v1).line.up = t.line.up ∧
    (t.lineEnds v1).line.own = t.line.own ∧ (t.lineEnds v1).line.tx0 = t.line.tx0 ∧ (t.lineEnds v1).line.tx1 = t.line.tx1 := by
  unfold State.lineEnds
  generalize hu : (t.setReg Adr.LINE_CFG v1).rewritten Adr.LINE_CFG = u
  have reg : u.reg Adr.LINE_CFG = v1 := by rw [← hu]; exact State.reg_setReg_self ..
  have line : u.line = t.line := by rw [← hu]; rfl
  obtain ⟨ta, ba, ended⟩ := u.endLineOps_line 48
  obtain ⟨e, others⟩ := (u.endLineOps 48).dropOthers_line
  refine ⟨((u.endLineOps_moves 48).trans (State.dropOthers_moves _)).lineCfg.trans reg, ?_⟩
  rw [others, ended, line]
  exact ⟨rfl, rfl, rfl, rfl⟩

theorem lineEnable_does (s : State) (m : Master) (w : Word) (h : Acts s m Adr.LINE_CFG 0) :
    (s.rb Adr.LINE_CFG 0 = false → bitOf (s.written m Adr.LINE_CFG w) 0 = true → (∀ r ∈ s.frm.adm, r.kind ≠ .line) →
      Completes (.lineEnable m w) s fun t => t.rb Adr.LINE_CFG 0 = false ∧ t.line = s.line ∧
        t.frm = (s.ask .line s.frm.count).frm) ∧
    (s.rb Adr.LINE_CFG 0 = true → bitOf (s.written m Adr.LINE_CFG w) 0 = false → Completes (.lineEnable m w) s fun t =>
      t.rb Adr.LINE_CFG 0 = false ∧ t.line.mode = .off ∧ t.frm.lineCost = false ∧ t.line.up = s.line.up ∧ t.line.own = s.line.own ∧
      t.line.tx0 = s.line.tx0 ∧ t.line.tx1 = s.line.tx1) := by
  have line := s.noted_line m Adr.LINE_CFG
  refine ⟨fun off on free => ?_, fun on off => ?_⟩
  · refine completes_of_exec (congrArg Host.Outcome.next (lineCfgWrite_asks h off on free)) ?_
    obtain ⟨en, same, frm⟩ := (s.noted m Adr.LINE_CFG).lineAsks_does (s.written m Adr.LINE_CFG w)
    exact ⟨en, same.trans line, frm.trans (by rw [State.noted_eqn]; rfl)⟩
  · refine completes_of_exec (congrArg Host.Outcome.next (lineCfgWrite_disables h on off)) ?_
    generalize hv : mergeW (s.written m Adr.LINE_CFG w) (s.reg Adr.LINE_CFG) (bits 6 4) = v1
    obtain ⟨reg, up, own, tx0, tx1⟩ := (s.noted m Adr.LINE_CFG).lineEnds_does v1
    refine ⟨?_, rfl, rfl, up.trans (by rw [line]), own.trans (by rw [line]), tx0.trans (by rw [line]), tx1.trans (by rw [line])⟩
    show bitOf (((s.noted m Adr.LINE_CFG).lineEnds v1).reg Adr.LINE_CFG) 0 = false
    rw [reg, ← hv, bitOf, getLsbD_mergeW _ _ _ (by decide)]
    exact off

end Sys2Proof.Machine

namespace Sys2Proof.Proofs

open Machine Safety

/-- Settles O55, clause by clause: what each command of the line does between frames. -/
theorem lineState : Obligations.LineState := fun s p =>
  ⟨tickMarker_does s p, estopMarker_does s p, lineCtlEstop_does s, lineCtlReset_does s, lineCutOff_cuts s, lineCutOff_none s,
    linePortDown_does s p, linePortUp_does s p, linePortUp_none s p, lineJoin_does s, lineEpoch_does s, lineEpoch_none s,
    lineBarrierRelease_does s, lineEnable_does s⟩

end Sys2Proof.Proofs
end

section
/-! SUPPORT. The obligations of the rings: what is sent out, the host link and the resets of its functions, the enables of the rings, the
block reads and the messages, acceptance, and the completion record. -/

namespace Sys2Proof.Machine

/-- Settles O5, by the rule that every command keeps the queue, what has been sent out and the count of the free values drawn. -/
theorem queueAndOutputs : Obligations.QueueAndOutputs := by
  unfold Obligations.QueueAndOutputs
  refine ⟨fun c s t e => ?_, fun s => rfl⟩
  have k : Kept false s t := kept_exec (fun z => nomatch z) e
  exact ⟨k.pending, k.out, k.free⟩

end Sys2Proof.Machine
end

section

namespace Sys2Proof.Machine

open Safety

/-! ### One ring that moves -/

theorem State.modSq_same (s : State) (q : RingId) (f : Sq → Sq) : (s.modSq q f).sq.get q = f (s.sq.get q) := by
  rw [State.modSq_sq, vector_get_set_self]

theorem State.modSq_other (s : State) {p q : RingId} (f : Sq → Sq) (h : q ≠ p) : (s.modSq p f).sq.get q = s.sq.get q := by
  rw [State.modSq_sq, vector_get_set_ne _ _ h]

theorem State.modCq_same (s : State) (q : RingId) (f : Cq → Cq) : (s.modCq q f).cq.get q = f (s.cq.get q) := by
  rw [State.modCq_cq, vector_get_set_self]

theorem State.modCq_other (s : State) {p q : RingId} (f : Cq → Cq) (h : q ≠ p) : (s.modCq p f).cq.get q = s.cq.get q := by
  rw [State.modCq_cq, vector_get_set_ne _ _ h]

/-! ### Writes of the configuration of the rings (R50, R61) -/

theorem State.noted_sq (s : State) (m : Master) (a : Nat) : (s.noted m a).sq = s.sq := by rw [State.noted_eqn]

theorem State.noted_cq (s : State) (m : Master) (a : Nat) : (s.noted m a).cq = s.cq := by rw [State.noted_eqn]

theorem State.noted_eq (s : State) (m : Master) (a : Nat) : (s.noted m a).eq = s.eq := by rw [State.noted_eqn]

theorem State.noted_ord (s : State) (m : Master) (a : Nat) : (s.noted m a).ord = s.ord := by rw [State.noted_eqn]

theorem State.gate_of_acts {s : State} {m : Master} {a : Nat} (h : Acts s m a 0) : s.gate m a 0 = (s.noted m a, true) := by
  unfold State.gate State.noted
  rw [if_pos h.1, if_pos h.1, h.2]

/-- The RW, PRV and W1C bits of the register at `a` (R396). -/
def rights (a : Nat) : Option (Nat × Nat × Nat) := (rowOf a).map fun r => (r.rw, r.prv, r.w1c)

/-- A bit that every master may write, and that is stored as written, is taken from the word written. -/
theorem State.written_bit (s : State) (m : Master) {a i rw prv : Nat} (w : Word) (row : rights a = some (rw, prv, 0)) (hi : i < 32)
    (full : (wd rw).getLsbD i = true) (open_ : (wd (rw - (rw &&& prv))).getLsbD i = true)
    (plain : ∀ v, (normalise a v).getLsbD i = v.getLsbD i) : (s.written m a w).getLsbD i = w.getLsbD i := by
  obtain ⟨r, hr, he⟩ := Option.map_eq_some_iff.1 row
  simp only [Prod.mk.injEq] at he
  obtain ⟨hrw, hprv, hw1⟩ := he
  have mine : (wd (if m.admin then r.rw else r.rw - (r.rw &&& r.prv))).getLsbD i = true := by
    rw [hrw, hprv]
    split <;> assumption
  have clears : wd (if m.admin then r.w1c else r.w1c - (r.w1c &&& r.prv)) = 0#32 := by
    rw [hw1, Nat.zero_and, Nat.sub_zero, ite_self]
    rfl
  unfold State.written State.storeWord
  rw [hr]
  show ((s.setReg a _).reg a).getLsbD i = _
  rw [State.reg_setReg_self, clears, BitVec.and_zero, show (~~~(0#32)) = BitVec.allOnes 32 from rfl, BitVec.and_allOnes,
    getLsbD_mergeW _ _ _ hi, if_pos mine, plain, getLsbD_mergeW _ _ _ hi, if_pos mine]

/-- A field that is held to a range leaves the bits outside it. -/
theorem getLsbD_holdFld (w : Word) {h l a b i : Nat} (hi : i < 32) (out : (wd (bits h l)).getLsbD i = false) :
    (holdFld w h l a b).getLsbD i = w.getLsbD i := by
  rw [holdFld, putFld, getLsbD_mergeW _ _ _ hi, if_neg (by rw [out]; exact Bool.false_ne_true)]

theorem rights_sqCfg (q : RingId) : rights (Adr.HIF_SQ_CFG q) = some (bits 29 28 + bits 15 8 + bits 4 0, bits 29 29, 0) := by
  revert q; decide +kernel

theorem rights_cqCfg (q : RingId) : rights (Adr.HIF_CQ_CFG q) = some (bits 28 8 + bits 4 0, 0, 0) := by
  revert q; decide +kernel

theorem rights_eqCfg : rights Adr.HIF_EQ_CFG = some (bits 29 8 + bits 4 0, bits 29 29, 0) := by decide +kernel

theorem normalise_sqCfg (q : RingId) (w : Word) : normalise (Adr.HIF_SQ_CFG q) w = holdFld w 4 0 6 16 := by
  rw [normalise, if_neg (by simp only [Adr.HIF_SQ_CFG, Adr.FRM_ADMIT_CTL]; omega), if_pos]
  simp only [among, Adr.HIF_SQ_CFG, Bool.and_eq_true, decide_eq_true_eq]
  omega

theorem normalise_cqCfg (q : RingId) (w : Word) : normalise (Adr.HIF_CQ_CFG q) w = holdFld (holdFld w 4 0 6 16) 19 12 1 255 := by
  have here : among (Adr.HIF_CQ_CFG q) (Adr.HIF_CQ_CFG 0) 0x40 16 = true := by
    simp only [among, Adr.HIF_CQ_CFG, Bool.and_eq_true, decide_eq_true_eq]
    omega
  have away : ¬ among (Adr.HIF_CQ_CFG q) (Adr.HIF_SQ_CFG 0) 0x40 16 = true := by
    simp only [among, Adr.HIF_SQ_CFG, Adr.HIF_CQ_CFG, Bool.and_eq_true, decide_eq_true_eq]
    omega
  rw [normalise, if_neg (by simp only [Adr.HIF_CQ_CFG, Adr.FRM_ADMIT_CTL]; omega), if_neg away, if_pos (.inl here)]

theorem normalise_eqCfg (w : Word) : normalise Adr.HIF_EQ_CFG w = holdFld (holdFld w 4 0 6 16) 19 12 1 255 := by
  rw [normalise, if_neg (by decide), if_neg (by decide), if_pos (.inr rfl)]

/-- ENABLE and AC_START of a submission ring are stored as written, by every master (R50, R396). -/
theorem State.written_sqCfg (s : State) (m : Master) (q : RingId) (w : Word) {i : Nat} (hi : i = 28 ∨ (8 ≤ i ∧ i < 16)) :
    (s.written m (Adr.HIF_SQ_CFG q) w).getLsbD i = w.getLsbD i := by
  have cases : ∀ i < 29, i = 28 ∨ (8 ≤ i ∧ i < 16) →
      (wd (bits 29 28 + bits 15 8 + bits 4 0)).getLsbD i = true ∧
      (wd (bits 29 28 + bits 15 8 + bits 4 0 - ((bits 29 28 + bits 15 8 + bits 4 0) &&& bits 29 29))).getLsbD i = true ∧
      (wd (bits 4 0)).getLsbD i = false := by decide +kernel
  obtain ⟨full, opened, out⟩ := cases i (by omega) hi
  exact s.written_bit m w (rights_sqCfg q) (by omega) full opened fun v => by
    rw [normalise_sqCfg]; exact getLsbD_holdFld v (by omega) out

/-- ENABLE of a completion ring is stored as written, by every master (R50, R396). -/
theorem State.written_cqCfg (s : State) (m : Master) (q : RingId) (w : Word) :
    bitOf (s.written m (Adr.HIF_CQ_CFG q) w) 28 = bitOf w 28 :=
  s.written_bit m w (rights_cqCfg q) (by decide) (by decide +kernel) (by decide +kernel) fun v => by
    rw [normalise_cqCfg, getLsbD_holdFld _ (by decide) (by decide +kernel), getLsbD_holdFld _ (by decide) (by decide +kernel)]

/-- ENABLE of the event ring is stored as written, by every master (R61, R396). -/
theorem State.written_eqCfg (s : State) (m : Master) (w : Word) : bitOf (s.written m Adr.HIF_EQ_CFG w) 28 = bitOf w 28 :=
  s.written_bit m w rights_eqCfg (by decide) (by decide +kernel) (by decide +kernel) fun v => by
    rw [normalise_eqCfg, getLsbD_holdFld _ (by decide) (by decide +kernel), getLsbD_holdFld _ (by decide) (by decide +kernel)]

/-- The state in which a master's write of a ring's CFG register at `a` has been counted and stored. -/
def State.cfgStored (s : State) (m : Master) (a : Nat) (w : Word) : State := ((s.noted m a).setReg a (s.written m a w)).rewritten a

theorem State.cfgStored_reg (s : State) (m : Master) (a : Nat) (w : Word) : (s.cfgStored m a w).reg a = s.written m a w :=
  State.reg_setReg_self ..

theorem State.cfgStored_keeps (s : State) (m : Master) (a : Nat) (w : Word) : (s.cfgStored m a w).sq = s.sq ∧
    (s.cfgStored m a w).cq = s.cq ∧ (s.cfgStored m a w).eq = s.eq ∧ (s.cfgStored m a w).ord = s.ord :=
  ⟨s.noted_sq m a, s.noted_cq m a, s.noted_eq m a, s.noted_ord m a⟩

/-- The state in which a master's write at `a` has been counted and ignored, with CFG_IGNORED in the STAT register. -/
def State.writeIgnored (s : State) (m : Master) (a stat : Nat) : State := (s.noted m a).cfgIgnored stat

theorem State.writeIgnored_keeps (s : State) (m : Master) (a stat : Nat) : (s.writeIgnored m a stat).sq = s.sq ∧
    (s.writeIgnored m a stat).cq = s.cq ∧ (s.writeIgnored m a stat).rb stat 7 = true :=
  ⟨s.noted_sq m a, s.noted_cq m a, State.rb_orReg_self _ _ (k := 7) (by decide)⟩

section

variable {s : State} {m : Master} (w : Word)

theorem State.written_noted (a : Nat) (hi : a ≠ Adr.ACC_PRVV_INFO) (ha : a ≠ Adr.ACC_PRVV_ADDR) :
    (s.noted m a).reg a = s.reg a ∧ (s.noted m a).written m a w = s.written m a w :=
  have reg := s.reg_noted_other m a hi ha
  ⟨reg, State.written_congr m reg w⟩

/-- A write of HIF_SQn_CFG that acts (R50, R60, R61). -/
theorem State.sqCfgWrite_eq {q : RingId} (h : Acts s m (Adr.HIF_SQ_CFG q) 0) : s.sqCfgWrite m q w =
    if ((s.sq.get q).state ≠ .disabled ∧ differIn (s.written m (Adr.HIF_SQ_CFG q) w) (s.reg (Adr.HIF_SQ_CFG q)) sqFixed = true) ∨
        (bitOf w 28 = true ∧ ((s.sq.get q).state = .draining ∨ ((s.sq.get q).state = .disabled ∧ ¬ (s.cq.get q).enabled = true))) then
      s.writeIgnored m (Adr.HIF_SQ_CFG q) (Adr.HIF_SQ_STAT q)
    else if bitOf w 28 = true then
      (if (s.sq.get q).state = .disabled then (s.cfgStored m (Adr.HIF_SQ_CFG q) w).sqStart q else s.cfgStored m (Adr.HIF_SQ_CFG q) w)
    else if (s.sq.get q).state = .disabled ∨ (s.sq.get q).state = .draining then s.cfgStored m (Adr.HIF_SQ_CFG q) w
    else (s.cfgStored m (Adr.HIF_SQ_CFG q) w).sqDrain q := by
  obtain ⟨reg, word⟩ := State.written_noted (s := s) (m := m) w (Adr.HIF_SQ_CFG q) (by simp only [Adr.HIF_SQ_CFG, Adr.ACC_PRVV_INFO]; omega)
    (by simp only [Adr.HIF_SQ_CFG, Adr.ACC_PRVV_ADDR]; omega)
  have enable : bitOf (s.written m (Adr.HIF_SQ_CFG q) w) 28 = bitOf w 28 := s.written_sqCfg m q w (.inl rfl)
  unfold State.sqCfgWrite
  dsimp only
  rw [gate_of_acts h]
  dsimp only
  rw [word, reg, noted_sq, noted_cq, enable]
  rfl

/-- A write of HIF_CQn_CFG that acts (R50, R51, R61). -/
theorem State.cqCfgWrite_eq {q : RingId} (h : Acts s m (Adr.HIF_CQ_CFG q) 0) : s.cqCfgWrite m q w =
    if (s.cq.get q).enabled = true ∧ (differIn (s.written m (Adr.HIF_CQ_CFG q) w) (s.reg (Adr.HIF_CQ_CFG q)) cqFixed = true ∨
        (¬ bitOf w 28 = true ∧ (s.sq.get q).state ≠ .disabled)) then
      s.writeIgnored m (Adr.HIF_CQ_CFG q) (Adr.HIF_CQ_STAT q)
    else if bitOf w 28 = true then
      (if (s.cq.get q).enabled = true then s.cfgStored m (Adr.HIF_CQ_CFG q) w
       else (s.cfgStored m (Adr.HIF_CQ_CFG q) w).modCq q fun _ => { Cq.reset with enabled := true })
    else (s.cfgStored m (Adr.HIF_CQ_CFG q) w).modCq q fun x =>
      { x with enabled := false, waiting := [], fullDue := false, unsig := 0, oldest := none } := by
  obtain ⟨reg, word⟩ := State.written_noted (s := s) (m := m) w (Adr.HIF_CQ_CFG q) (by simp only [Adr.HIF_CQ_CFG, Adr.ACC_PRVV_INFO]; omega)
    (by simp only [Adr.HIF_CQ_CFG, Adr.ACC_PRVV_ADDR]; omega)
  unfold State.cqCfgWrite
  dsimp only
  rw [gate_of_acts h]
  dsimp only
  rw [word, reg, noted_sq, noted_cq, s.written_cqCfg m q w]
  rfl

/-- A write of HIF_EQ_CFG that acts (R51, R61, R75). -/
theorem State.eqCfgWrite_eq (h : Acts s m Adr.HIF_EQ_CFG 0) : s.eqCfgWrite m w =
    let t := s.cfgStored m Adr.HIF_EQ_CFG w
    if s.eq.enabled = true ∧ differIn (s.written m Adr.HIF_EQ_CFG w) (s.reg Adr.HIF_EQ_CFG) cqFixed = true then
      s.writeIgnored m Adr.HIF_EQ_CFG Adr.HIF_EQ_STAT
    else if bitOf w 28 = true then (if s.eq.enabled = true then t else { t with eq := { EvRing.reset with enabled := true } })
    else { t with eq := { t.eq with enabled := false, unsig := 0, oldest := none } } := by
  obtain ⟨reg, word⟩ := State.written_noted (s := s) (m := m) w Adr.HIF_EQ_CFG (by decide) (by decide)
  unfold State.eqCfgWrite
  dsimp only
  rw [gate_of_acts h]
  dsimp only
  rw [word, reg, noted_eq, s.written_eqCfg m w]
  rfl

end

/-! ### The enables of the rings (O18) -/

section

variable (s : State) (m : Master) (q : RingId) (w : Word)

theorem exec_sqEnable : exec (.sqEnable m q w) s = .next (if bitOf w 28 = true then s.sqCfgWrite m q w else s) := rfl
theorem exec_sqDisable : exec (.sqDisable m q w) s = .next (if bitOf w 28 = true then s else s.sqCfgWrite m q w) := rfl
theorem exec_cqEnable : exec (.cqEnable m q w) s = .next (if bitOf w 28 = true then s.cqCfgWrite m q w else s) := rfl
theorem exec_cqDisable : exec (.cqDisable m q w) s = .next (if bitOf w 28 = true then s else s.cqCfgWrite m q w) := rfl
theorem exec_eqEnable : exec (.eqEnable m w) s = .next (if bitOf w 28 = true then s.eqCfgWrite m w else s) := rfl
theorem exec_eqDisable : exec (.eqDisable m w) s = .next (if bitOf w 28 = true then s else s.eqCfgWrite m w) := rfl

theorem cqEnable_starts (h : Acts s m (Adr.HIF_CQ_CFG q) 0) (on : bitOf w 28 = true) (was : (s.cq.get q).enabled = false) :
    Completes (.cqEnable m q w) s fun t => t.cq = s.cq.set q { Cq.reset with enabled := true } ∧ t.sq = s.sq ∧ t.ord = s.ord := by
  obtain ⟨sq, cq, -, ord⟩ := s.cfgStored_keeps m (Adr.HIF_CQ_CFG q) w
  refine completes_of_exec (t := (s.cfgStored m (Adr.HIF_CQ_CFG q) w).modCq q fun _ => { Cq.reset with enabled := true }) ?_ ⟨?_, sq, ord⟩
  · rw [exec_cqEnable, if_pos on, State.cqCfgWrite_eq w h, if_neg (by simp [was]), if_pos on, if_neg (by simp [was])]
  · rw [State.modCq_cq, cq]

theorem cqDisable_ignored (h : Acts s m (Adr.HIF_CQ_CFG q) 0) (off : bitOf w 28 = false) (was : (s.cq.get q).enabled = true)
    (runs : (s.sq.get q).state ≠ .disabled) :
    Completes (.cqDisable m q w) s fun t => t.cq = s.cq ∧ t.rb (Adr.HIF_CQ_STAT q) 7 = true := by
  obtain ⟨-, cq, told⟩ := s.writeIgnored_keeps m (Adr.HIF_CQ_CFG q) (Adr.HIF_CQ_STAT q)
  refine completes_of_exec ?_ ⟨cq, told⟩
  rw [exec_cqDisable, if_neg (by simp [off]), State.cqCfgWrite_eq w h, if_pos ⟨was, .inr ⟨by simp [off], runs⟩⟩]

theorem cqDisable_stops (h : Acts s m (Adr.HIF_CQ_CFG q) 0) (off : bitOf w 28 = false)
    (may : (s.cq.get q).enabled = false ∨ ((s.sq.get q).state = .disabled ∧
      differIn (s.written m (Adr.HIF_CQ_CFG q) w) (s.reg (Adr.HIF_CQ_CFG q)) cqFixed = false)) :
    Completes (.cqDisable m q w) s fun t => (t.cq.get q).enabled = false ∧ t.sq = s.sq := by
  obtain ⟨sq, -, -, -⟩ := s.cfgStored_keeps m (Adr.HIF_CQ_CFG q) w
  refine completes_of_exec (t := (s.cfgStored m (Adr.HIF_CQ_CFG q) w).modCq q fun x =>
    { x with enabled := false, waiting := [], fullDue := false, unsig := 0, oldest := none }) ?_ ⟨?_, sq⟩
  · have kept : ¬ ((s.cq.get q).enabled = true ∧ (differIn (s.written m (Adr.HIF_CQ_CFG q) w) (s.reg (Adr.HIF_CQ_CFG q)) cqFixed = true ∨
        (¬ bitOf w 28 = true ∧ (s.sq.get q).state ≠ .disabled))) := by
      rcases may with was | ⟨rests, same⟩
      · simp [was]
      · simp [rests, same]
    rw [exec_cqDisable, if_neg (by simp [off]), State.cqCfgWrite_eq w h, if_neg kept, if_neg (by simp [off])]
  · rw [State.modCq_same]

theorem sqEnable_starts (h : Acts s m (Adr.HIF_SQ_CFG q) 0) (on : bitOf w 28 = true) (rests : (s.sq.get q).state = .disabled)
    (ready : (s.cq.get q).enabled = true) :
    Completes (.sqEnable m q w) s fun t => (t.sq.get q).state = .running ∧ (t.sq.get q).fcount = 0 ∧ (t.sq.get q).pcount = 0 ∧
      (t.sq.get q).lastAc = BitVec.ofNat 8 (fld w 15 8 + 255) ∧ t.cq = s.cq ∧ t.ord = s.ord ∧
      ∀ p : RingId, p ≠ q → t.sq.get p = s.sq.get p := by
  obtain ⟨sq, cq, -, ord⟩ := s.cfgStored_keeps m (Adr.HIF_SQ_CFG q) w
  have first : fld ((s.cfgStored m (Adr.HIF_SQ_CFG q) w).reg (Adr.HIF_SQ_CFG q)) 15 8 = fld w 15 8 := by
    rw [State.cfgStored_reg]
    exact fld_congr fun i hi => s.written_sqCfg m q w (.inr ⟨by omega, by omega⟩)
  refine completes_of_exec (t := (s.cfgStored m (Adr.HIF_SQ_CFG q) w).sqStart q) ?_ ?_
  · rw [exec_sqEnable, if_pos on, State.sqCfgWrite_eq w h, if_neg (by simp [rests, ready]), if_pos on, if_pos rests]
  · unfold State.sqStart
    rw [State.modSq_same, first]
    exact ⟨rfl, rfl, rfl, rfl, cq, ord, fun p hp => (State.modSq_other _ _ hp).trans (by rw [sq])⟩

theorem sqEnable_ignored (h : Acts s m (Adr.HIF_SQ_CFG q) 0) (on : bitOf w 28 = true) (rests : (s.sq.get q).state = .disabled)
    (off : (s.cq.get q).enabled = false) :
    Completes (.sqEnable m q w) s fun t => t.sq = s.sq ∧ t.rb (Adr.HIF_SQ_STAT q) 7 = true := by
  obtain ⟨sq, -, told⟩ := s.writeIgnored_keeps m (Adr.HIF_SQ_CFG q) (Adr.HIF_SQ_STAT q)
  refine completes_of_exec ?_ ⟨sq, told⟩
  rw [exec_sqEnable, if_pos on, State.sqCfgWrite_eq w h, if_pos (.inr ⟨on, .inr ⟨rests, by simp [off]⟩⟩)]

theorem sqDisable_drains (h : Acts s m (Adr.HIF_SQ_CFG q) 0) (runs : (s.sq.get q).state ≠ .disabled)
    (fresh : (s.sq.get q).state ≠ .draining) (off : bitOf w 28 = false)
    (same : differIn (s.written m (Adr.HIF_SQ_CFG q) w) (s.reg (Adr.HIF_SQ_CFG q)) sqFixed = false) :
    Completes (.sqDisable m q w) s fun t => (t.sq.get q).state = .draining ∧ t.cq = s.cq ∧ t.ord = s.ord := by
  obtain ⟨-, cq, -, ord⟩ := s.cfgStored_keeps m (Adr.HIF_SQ_CFG q) w
  refine completes_of_exec (t := (s.cfgStored m (Adr.HIF_SQ_CFG q) w).sqDrain q) ?_ ⟨?_, cq, ord⟩
  · rw [exec_sqDisable, if_neg (by simp [off]), State.sqCfgWrite_eq w h, if_neg (by simp [same, off]), if_neg (by simp [off]),
      if_neg (not_or.2 ⟨runs, fresh⟩)]
  · rw [State.sqDrain, State.modSq_same]

theorem sqDisable_rests (h : Acts s m (Adr.HIF_SQ_CFG q) 0) (rests : (s.sq.get q).state = .disabled) (off : bitOf w 28 = false) :
    Completes (.sqDisable m q w) s fun t => t.sq = s.sq ∧ t.cq = s.cq ∧ t.ord = s.ord := by
  obtain ⟨sq, cq, -, ord⟩ := s.cfgStored_keeps m (Adr.HIF_SQ_CFG q) w
  refine completes_of_exec ?_ ⟨sq, cq, ord⟩
  rw [exec_sqDisable, if_neg (by simp [off]), State.sqCfgWrite_eq w h, if_neg (by simp [rests, off]), if_neg (by simp [off]),
    if_pos (.inl rests)]

theorem sqDrainDone_ends (drains : (s.sq.get q).state = .draining) (gone : ∀ d ∈ s.ord.descs, d.ring ≠ q ∨ d.mute = true) :
    exec (.sqDrainDone q) s = .next (s.modSq q fun x => { x with state := .disabled }) :=
  congrArg Host.Outcome.next (if_pos ⟨drains, List.all_eq_true.2 fun d hd => by simpa using gone d hd⟩)

theorem eqEnable_starts (h : Acts s m Adr.HIF_EQ_CFG 0) (on : bitOf w 28 = true) (was : s.eq.enabled = false) :
    Completes (.eqEnable m w) s fun t => t.eq = { EvRing.reset with enabled := true } ∧ t.cq = s.cq := by
  obtain ⟨-, cq, -, -⟩ := s.cfgStored_keeps m Adr.HIF_EQ_CFG w
  refine completes_of_exec (t := { s.cfgStored m Adr.HIF_EQ_CFG w with eq := { EvRing.reset with enabled := true } }) ?_ ⟨rfl, cq⟩
  rw [exec_eqEnable, if_pos on, State.eqCfgWrite_eq w h]
  dsimp only
  rw [if_neg (by simp [was]), if_pos on, if_neg (by simp [was])]

theorem eqDisable_stops (h : Acts s m Adr.HIF_EQ_CFG 0) (off : bitOf w 28 = false)
    (may : s.eq.enabled = false ∨ differIn (s.written m Adr.HIF_EQ_CFG w) (s.reg Adr.HIF_EQ_CFG) cqFixed = false) :
    Completes (.eqDisable m w) s fun t => t.eq.enabled = false ∧ t.cq = s.cq ∧ t.sq = s.sq := by
  obtain ⟨sq, cq, -, -⟩ := s.cfgStored_keeps m Adr.HIF_EQ_CFG w
  have kept : ¬ (s.eq.enabled = true ∧ differIn (s.written m Adr.HIF_EQ_CFG w) (s.reg Adr.HIF_EQ_CFG) cqFixed = true) := by
    rcases may with was | same
    · simp [was]
    · simp [same]
  refine completes_of_exec (t := { s.cfgStored m Adr.HIF_EQ_CFG w with
    eq := { (s.cfgStored m Adr.HIF_EQ_CFG w).eq with enabled := false, unsig := 0, oldest := none } }) ?_ ⟨rfl, cq, sq⟩
  rw [exec_eqDisable, if_neg (by simp [off]), State.eqCfgWrite_eq w h]
  dsimp only
  rw [if_neg kept, if_neg (by simp [off])]

end

/-- Settles O18, clause by clause: what each enable and disable stores, starts and ends. -/
theorem ringEnables : Obligations.RingEnables := by
  unfold Obligations.RingEnables
  exact fun s m q w =>
    ⟨cqEnable_starts s m q w, cqDisable_ignored s m q w, cqDisable_stops s m q w, sqEnable_starts s m q w, sqEnable_ignored s m q w,
      sqDisable_drains s m q w, sqDisable_rests s m q w, sqDrainDone_ends s q,
      fun other => congrArg Host.Outcome.next (if_neg fun c => other c.1), eqEnable_starts s m w, eqDisable_stops s m w,
      fun off => have no : ¬ bitOf w 28 = true := by simp [off]
        ⟨congrArg Host.Outcome.next (if_neg no), congrArg Host.Outcome.next (if_neg no), congrArg Host.Outcome.next (if_neg no)⟩,
      fun on => ⟨congrArg Host.Outcome.next (if_pos on), congrArg Host.Outcome.next (if_pos on), congrArg Host.Outcome.next (if_pos on)⟩⟩

end Sys2Proof.Machine
end

section

namespace Sys2Proof.Machine

open Safety

/-! ### What the host has set up (R44, R50, R79) -/

/-- Which completion rings are enabled, whether the event ring is, and the masks and tables of the messages. -/
def State.setUp (s : State) : Vector Bool 16 × Bool × BitVec 16 × BitVec 16 × List MsixEntry × List MsixEntry :=
  (s.cq.map Cq.enabled, s.eq.enabled, s.hif.mask0, s.hif.mask1, s.hif.table0, s.hif.table1)

theorem State.setUp_iff {s t : State} : t.setUp = s.setUp ↔ (∀ q : RingId, (t.cq.get q).enabled = (s.cq.get q).enabled) ∧
    t.eq.enabled = s.eq.enabled ∧ t.hif.mask0 = s.hif.mask0 ∧ t.hif.mask1 = s.hif.mask1 ∧ t.hif.table0 = s.hif.table0 ∧
    t.hif.table1 = s.hif.table1 := by
  have rings : t.cq.map Cq.enabled = s.cq.map Cq.enabled ↔ ∀ q : RingId, (t.cq.get q).enabled = (s.cq.get q).enabled := by
    refine ⟨fun h q => ?_, fun h => Vector.ext fun i hi => ?_⟩
    · rw [← vector_get_map Cq.enabled, h, vector_get_map]
    · have := h ⟨i, hi⟩
      simpa [Vector.get_eq_getElem] using this
  simp only [State.setUp, Prod.mk.injEq, rings]

section

variable (s : State)

@[simp] theorem State.setUp_emit (o : Output) : (s.emit o).setUp = s.setUp := rfl
@[simp] theorem State.setUp_setReg (a : Nat) (w : Word) : (s.setReg a w).setUp = s.setUp := rfl
@[simp] theorem State.setUp_orReg (a m : Nat) : (s.orReg a m).setUp = s.setUp := rfl
@[simp] theorem State.setUp_incReg (a : Nat) : (s.incReg a).setUp = s.setUp := rfl
@[simp] theorem State.setUp_modAx (x : AxisId) (f : Axis → Axis) : (s.modAx x f).setUp = s.setUp := rfl
@[simp] theorem State.setUp_modTt (x : AxisId) (f : TtState → TtState) : (s.modTt x f).setUp = s.setUp := rfl
@[simp] theorem State.setUp_modDesc (d : Nat) (f : Desc → Desc) : (s.modDesc d f).setUp = s.setUp := rfl
@[simp] theorem State.setUp_dropDesc (d : Nat) : (s.dropDesc d).setUp = s.setUp := rfl
@[simp] theorem State.setUp_withdraw (n : Nat) : (s.withdraw n).setUp = s.setUp := rfl

theorem State.setUp_forAll {α : Type} {l : List α} {f : State → α → State} (h : ∀ t a, (f t a).setUp = t.setUp) :
    (s.forAll l f).setUp = s.setUp := State.forAll_proj State.setUp h s

/-- A completion ring that stays enabled, or stays disabled. -/
theorem State.setUp_modCq (q : RingId) {f : Cq → Cq} (h : ∀ c, (f c).enabled = c.enabled) : (s.modCq q f).setUp = s.setUp := by
  refine State.setUp_iff.2 ⟨fun p => ?_, rfl, rfl, rfl, rfl, rfl⟩
  by_cases e : p = q
  · rw [e, State.modCq_same, h]
  · rw [State.modCq_other _ _ e]

/-! #### Messages and records -/

@[simp] theorem State.setUp_signal (f : Fin 2) (v : Fin 16) : (s.signal f v).setUp = s.setUp := by
  unfold State.signal
  repeat' split
  all_goals rfl

@[simp] theorem State.setUp_signalEq : s.signalEq.setUp = s.setUp := State.setUp_signal ..

@[simp] theorem State.setUp_putEvent (r : EvRec) (late : Bool) : (s.putEvent r late).setUp = s.setUp := by
  unfold State.putEvent
  dsimp only
  split
  · rw [setUp_signalEq]; rfl
  · rfl

@[simp] theorem State.setUp_writeEvent (r : EvRec) (late : Bool) : (s.writeEvent r late).setUp = s.setUp := by
  unfold State.writeEvent
  split
  · exact setUp_putEvent ..
  · rfl

@[simp] theorem State.setUp_hold (h : HeldRec) : (s.hold h).setUp = s.setUp := by
  unfold State.hold
  split <;> rfl

@[simp] theorem State.setUp_tell (r : EvRec) : (s.tell r).setUp = s.setUp := by
  unfold State.tell
  dsimp only
  split
  · exact setUp_writeEvent ..
  · exact setUp_hold ..

@[simp] theorem State.setUp_raiseAt (fr : FrameNo) (e u : Nat) (d0 d1 : Word) : (s.raiseAt fr e u d0 d1).setUp = s.setUp := by
  unfold State.raiseAt
  extract_lets t
  have ht : t.setUp = s.setUp := rfl
  split
  · split
    · exact ht
    · exact (setUp_tell t _).trans ht
  · exact ht

@[simp] theorem State.setUp_raise (e u : Nat) (d0 d1 : Word) : (s.raise e u d0 d1).setUp = s.setUp := setUp_raiseAt ..

@[simp] theorem State.setUp_signalCq (q : RingId) : (s.signalCq q).setUp = s.setUp :=
  (setUp_signal ..).trans (setUp_modCq s q fun _ => rfl)

@[simp] theorem State.setUp_putRec (q : RingId) (r : Rec) (late : Bool) : (s.putRec q r late).setUp = s.setUp := by
  unfold State.putRec
  extract_lets size n t u v
  have hu : u.setUp = s.setUp := setUp_modCq t q fun _ => rfl
  have hv : v.setUp = s.setUp := by
    unfold v
    split
    · exact (setUp_modCq u q fun _ => by rfl).trans hu
    · exact hu
  split
  · exact (setUp_signalCq v q).trans hv
  · exact hv

@[simp] theorem State.setUp_dropOf (o : Option Nat) : (s.dropOf o).setUp = s.setUp := by cases o <;> rfl

@[simp] theorem State.setUp_keepOf (o : Option Nat) : (s.keepOf o).setUp = s.setUp := by cases o <;> rfl

@[simp] theorem State.setUp_produce (q : RingId) (r : Rec) : (s.produce q r).setUp = s.setUp := by
  unfold State.produce
  split
  · split
    · split
      · exact (setUp_modCq _ q fun _ => by rfl).trans (setUp_keepOf ..)
      · simp
    · split <;> simp
  · simp

/-! #### The end of a descriptor -/

@[simp] theorem State.setUp_camHead (x : AxisId) : (s.camHead x).setUp = s.setUp := by
  have filled (f : FollowSt) : ((s.fillCam f).1).setUp = s.setUp := by
    unfold State.fillCam
    split
    · exact setUp_forAll s (f := fun t n => t.emit (.dmaRead (t.owner f.ring) (f.addr + 64 * n) 64)) fun _ _ => rfl
    · rfl
  unfold State.camHead
  extract_lets ahead
  split
  · split
    · split
      · rfl
      · exact filled _
    · split <;> rfl
  · split <;> rfl

@[simp] theorem State.setUp_queueLow (x : AxisId) (fr : FrameNo) : (s.queueLow x fr).setUp = s.setUp := by
  unfold State.queueLow
  dsimp only
  split
  · exact setUp_raiseAt ..
  · rfl

@[simp] theorem State.setUp_finishEvents (d : Desc) (status : Nat) (d0 : Word) (fr : FrameNo) :
    (s.finishEvents d status d0 fr).setUp = s.setUp := by
  unfold State.finishEvents
  extract_lets s1
  have h1 : s1.setUp = s.setUp := by
    unfold s1
    split
    · split
      · exact setUp_raiseAt ..
      · rfl
    · rfl
  split
  · exact (setUp_forAll s1 fun t u => setUp_raiseAt ..).trans h1
  · exact h1

@[simp] theorem State.setUp_moveFeed (xs : List AxisId) (starts : List Int) : (s.moveFeed xs starts).setUp = s.setUp :=
  State.forAll_proj State.setUp (fun t a => by obtain ⟨x, p⟩ := a; dsimp only; split <;> rfl) s

@[simp] theorem State.setUp_finish (d : Desc) (status : Nat) (d0 d1 : Word) (fr : FrameNo) :
    (s.finish d status d0 d1 fr).setUp = s.setUp := by
  unfold State.finish
  extract_lets s1 s2 s3
  have h1 : s1.setUp = s.setUp := by
    unfold s1
    split <;> simp
  have h2 : s2.setUp = s.setUp := (setUp_finishEvents ..).trans h1
  have h3 : s3.setUp = s.setUp := by
    unfold s3
    split
    · exact (setUp_moveFeed ..).trans h2
    · exact h2
  split
  · exact (setUp_forAll s3 fun t x => by simp).trans h3
  · exact h3

@[simp] theorem State.setUp_finishOk (d : Desc) (d0 d1 : Word) (fr : FrameNo) : (s.finishOk d d0 d1 fr).setUp = s.setUp := by
  unfold State.finishOk
  split <;> simp

@[simp] theorem State.setUp_finishRejected (d : Desc) (fr : FrameNo) : (s.finishRejected d fr).setUp = s.setUp := by
  unfold State.finishRejected
  split <;> simp

@[simp] theorem State.setUp_retire (d : Desc) : (s.retire d).setUp = s.setUp := setUp_forAll _ fun _ _ => setUp_camHead ..

@[simp] theorem State.setUp_release (d : Desc) : (s.release d).setUp = s.setUp := setUp_forAll _ fun _ _ => setUp_modAx ..

@[simp] theorem State.setUp_undo (n : Nat) : (s.undo n).setUp = s.setUp := by
  refine setUp_forAll s fun t x => ?_
  unfold State.undoOn
  split <;> rfl

@[simp] theorem State.setUp_endOne (d e : Desc) (x : AxisId) (fr : FrameNo) : (s.endOne d e x fr).setUp = s.setUp := by
  unfold State.endOne
  dsimp only
  split
  · split <;> simp
  · split
    · split
      · simp
      · split <;> simp
    · simp

@[simp] theorem State.setUp_replaceNow (d : Desc) : (s.replaceNow d).setUp = s.setUp := by
  have ended (l : List Desc) (x : AxisId) (t : State) : (t.forAll l fun u e => u.endOne d e x s.frm.count).setUp = t.setUp :=
    setUp_forAll t fun u e => setUp_endOne ..
  unfold State.replaceNow State.supersede
  split
  · rw [setUp_modDesc]
    exact setUp_forAll s fun t x => (ended ..).trans (ended ..)
  · rfl

/-! #### The stop of an axis -/

@[simp] theorem State.setUp_limitClipped (x : AxisId) (d0 : Int) (cause : Nat) (high : Bool) :
    (s.limitClipped x d0 cause high).setUp = s.setUp := by
  unfold State.limitClipped State.tellAt
  split <;> simp

@[simp] theorem State.setUp_planProfile (x : AxisId) : (s.planProfile x).setUp = s.setUp := by
  unfold State.planProfile
  extract_lets a t pl
  split
  · rfl
  · split <;> rfl
  · rfl
  · extract_lets u
    split
    · exact (setUp_modTt ..).trans (setUp_limitClipped ..)
    · rfl

@[simp] theorem State.setUp_stopStored (x : AxisId) (park : Bool) : (s.stopStored x park).setUp = s.setUp := by
  unfold State.stopStored State.stopMotion State.stopFrom
  extract_lets _ _ _ _ _ _ _ _ _ _ s1
  have h1 : s1.setUp = s.setUp := by
    unfold s1
    split
    · exact setUp_limitClipped ..
    · rfl
  rw [setUp_modTt, setUp_planProfile, setUp_modAx, h1]

@[simp] theorem State.setUp_flrStop (x : AxisId) : (s.flrStop x).setUp = s.setUp := by
  unfold State.flrStop
  dsimp only
  split <;> simp

@[simp] theorem State.setUp_flrAxis (q : RingId) (x : AxisId) : (s.flrAxis q x).setUp = s.setUp := by
  unfold State.flrAxis
  extract_lets a runs
  split <;> simp

@[simp] theorem State.setUp_flrDesc (d : Desc) : (s.flrDesc d).setUp = s.setUp := by
  have stops (t : State) (l : List AxisId) : (t.forAll l State.flrStop).setUp = t.setUp := setUp_forAll t fun u x => setUp_flrStop ..
  unfold State.flrDesc
  repeat' split
  all_goals simp [stops]

/-- What settles the descriptors of a function that is reset leaves what the host has set up. -/
theorem State.setUp_flrDescs (f : Fin 2) : (s.flrDescs f).setUp = s.setUp := by
  unfold State.flrDescs
  extract_lets s1 s2 s3
  have h1 : s1.setUp = s.setUp := setUp_forAll s fun t d => setUp_replaceNow ..
  have h2 : s2.setUp = s1.setUp := setUp_forAll s1 fun t d => by simp
  have h3 : s3.setUp = s2.setUp := setUp_forAll s2 fun t d => setUp_flrDesc ..
  have h4 (q : RingId) (t : State) : (t.forAll (allFin 200) fun t x => t.flrAxis q x).setUp = t.setUp :=
    setUp_forAll t fun t x => setUp_flrAxis ..
  rw [setUp_forAll s3 fun t q => h4 q t, h3, h2, h1]

end

end Sys2Proof.Machine
end

section

namespace Sys2Proof.Machine

open Safety

/-! ### Steps of a list that speak of its members -/

/-- What the step of every member of a list leaves alone, the list leaves alone. -/
theorem State.forAll_proj_mem {α β : Type} (p : State → β) {l : List α} {f : State → α → State} (h : ∀ t, ∀ a ∈ l, p (f t a) = p t)
    (s : State) : p (s.forAll l f) = p s := by
  unfold State.forAll
  induction l generalizing s with
  | nil => rfl
  | cons a l ih =>
    exact (ih (fun t b hb => h t b (List.mem_cons_of_mem a hb)) (f s a)).trans (h s a List.mem_cons_self)

/-! ### The rings of a function that is reset (R47) -/

theorem fin2_cases (f : Fin 2) : f = 0 ∨ f = 1 := by revert f; decide

/-- The bits of a register that `clrReg` does not name stay. -/
theorem State.rb_clrReg (s : State) (a b : Nat) {i k : Nat} (h : i ≠ k) : (s.clrReg a (2 ^ k)).rb b i = s.rb b i := by
  by_cases e : b = a
  · subst e
    have other : ¬ k = i := fun e => h e.symm
    rw [State.rb, State.clrReg, State.reg_setReg_self, bitOf, wd, getLsbD_and_not_two_pow]
    simp [other, State.rb, bitOf]
  · rw [State.rb, State.clrReg, State.reg_setReg_other _ _ e, State.rb]

/-- OWNER stays as the ENABLE bits are cleared (R46, R47). -/
theorem State.rb_flrRing (s : State) (q : RingId) (b : Nat) : (s.flrRing q).rb b 29 = s.rb b 29 := by
  unfold State.flrRing
  extract_lets s1 s2
  rw [State.rb_clrReg _ _ _ (by decide), State.rb_clrReg _ _ _ (by decide)]
  rfl

theorem State.flrRing_sq (s : State) (q : RingId) : (s.flrRing q).sq =
    s.sq.set q { s.sq.get q with state := .disabled, flight := (s.sq.get q).stale, wait := false, fresh := 0 } := rfl

theorem State.flrRing_cq (s : State) (q : RingId) : (s.flrRing q).cq =
    s.cq.set q { s.cq.get q with enabled := false, waiting := [], fullDue := false, unsig := 0, oldest := none } := rfl

/-- Is ring `q` disabled, with its completion ring (R47)? -/
def State.ringOff (s : State) (q : RingId) : Prop := (s.sq.get q).state = .disabled ∧ (s.cq.get q).enabled = false

theorem State.ringOff_flrRing (s : State) (q : RingId) : (s.flrRing q).ringOff q := by
  rw [ringOff, flrRing_sq, flrRing_cq, vector_get_set_self, vector_get_set_self]
  exact ⟨rfl, rfl⟩

/-- The rings and completion rings but `q` stay as `q` is disabled. -/
theorem State.flrRing_other (s : State) {p q : RingId} (h : p ≠ q) :
    (s.flrRing q).sq.get p = s.sq.get p ∧ (s.flrRing q).cq.get p = s.cq.get p := by
  rw [flrRing_sq, flrRing_cq, vector_get_set_ne _ _ h, vector_get_set_ne _ _ h]
  exact ⟨rfl, rfl⟩

/-- The rings of function `f`. -/
def State.ringsOf (s : State) (f : Fin 2) : List RingId := (allFin 16).filter fun q => s.owner q == f

theorem State.mem_ringsOf {s : State} {f : Fin 2} {q : RingId} : q ∈ s.ringsOf f ↔ s.owner q = f := by
  simp [ringsOf]

/-- The held records of a function are dropped. -/
def State.heldDropped (s : State) (f : Fin 2) : State := { s with hif := { s.hif with held := s.hif.held.filter fun h => !h.of s f } }

/-- The state in which the rings of a function that is reset are disabled, with the event ring if it is the function's, and its held records
are dropped (R47). -/
def State.flrRings (s : State) (f : Fin 2) : State :=
  let t := (s.heldDropped f).forAll (s.ringsOf f) State.flrRing
  if s.eqOwner = f then { t with eq := { t.eq with enabled := false, unsig := 0, oldest := none } }.clrReg Adr.HIF_EQ_CFG (2 ^ 28) else t

/-- The messages of a function at its reset: masked, none pending, the table empty (R44, R47). -/
def Hif.masked (h : Hif) (f : Fin 2) : Hif :=
  if f = 0 then { h with mask0 := 0xFFFF, pend0 := 0, table0 := List.replicate 16 ⟨0, 0⟩ }
  else { h with mask1 := 0xFFFF, pend1 := 0, table1 := List.replicate 16 ⟨0, 0⟩ }

theorem State.flr_eq (s : State) (f : Fin 2) :
    s.flr f = { (s.flrRings f).flrDescs f with hif := ((s.flrRings f).flrDescs f).hif.masked f } := rfl

/-- A part that neither a ring's disabling nor that of the event ring moves, nor the drop of held records, stays. -/
theorem State.flrRings_proj {β : Type} (p : State → β) (s : State) (f : Fin 2) (held : p (s.heldDropped f) = p s)
    (ring : ∀ t, ∀ q ∈ s.ringsOf f, p (t.flrRing q) = p t)
    (events : ∀ t : State, s.eqOwner = f →
      p ({ t with eq := { t.eq with enabled := false, unsig := 0, oldest := none } }.clrReg Adr.HIF_EQ_CFG (2 ^ 28)) = p t) :
    p (s.flrRings f) = p s := by
  unfold State.flrRings
  extract_lets t
  have ht : p t = p s := (State.forAll_proj_mem p ring _).trans held
  split
  · next e => exact (events t e).trans ht
  · exact ht

section

variable (s : State) (f : Fin 2)

theorem State.flrRings_frm : (s.flrRings f).frm = s.frm := State.flrRings_proj State.frm s f rfl (fun _ _ _ => rfl) fun _ _ => rfl
theorem State.flrRings_cu : (s.flrRings f).cu = s.cu := State.flrRings_proj State.cu s f rfl (fun _ _ _ => rfl) fun _ _ => rfl
theorem State.flrRings_sys : (s.flrRings f).sys = s.sys := State.flrRings_proj State.sys s f rfl (fun _ _ _ => rfl) fun _ _ => rfl

/-- The link, the masks and the tables stay. -/
theorem State.flrRings_hif : (s.flrRings f).hif = { s.hif with held := (s.flrRings f).hif.held } :=
  State.flrRings_proj (fun t => t.hif = { s.hif with held := t.hif.held }) s f (propext ⟨fun _ => rfl, fun _ => rfl⟩) (fun _ _ _ => rfl)
    (fun _ _ => rfl) |>.mpr rfl

theorem State.flrRings_owner (b : Nat) : (s.flrRings f).rb b 29 = s.rb b 29 :=
  State.flrRings_proj (fun t => t.rb b 29) s f rfl (fun t q _ => t.rb_flrRing q b) fun _ _ =>
    (State.rb_clrReg _ _ _ (by decide)).trans rfl

/-- The rings of the other function, and their completion rings, stay. -/
theorem State.flrRings_others {q : RingId} (h : s.owner q ≠ f) :
    (s.flrRings f).sq.get q = s.sq.get q ∧ (s.flrRings f).cq.get q = s.cq.get q := by
  have other (t : State) (p : RingId) (hp : p ∈ s.ringsOf f) := t.flrRing_other (p := q) (q := p) fun e => h (by rw [e]; exact mem_ringsOf.1 hp)
  exact ⟨State.flrRings_proj (fun t => t.sq.get q) s f rfl (fun t p hp => (other t p hp).1) fun _ _ => rfl,
    State.flrRings_proj (fun t => t.cq.get q) s f rfl (fun t p hp => (other t p hp).2) fun _ _ => rfl⟩

/-- The rings of the function are disabled, with their completion rings. -/
theorem State.flrRings_off {q : RingId} (h : s.owner q = f) : (s.flrRings f).ringOff q := by
  unfold State.flrRings
  extract_lets t
  have off : t.ringOff q := by
    refine State.forAll_reaches (fun q u => State.ringOff u q) ringOff_flrRing (fun u p r off => ?_) _ q (mem_ringsOf.2 h)
    by_cases e : r = p
    · subst e; exact u.ringOff_flrRing r
    · obtain ⟨sq, cq⟩ := u.flrRing_other e
      rw [ringOff, sq, cq]
      exact off
  split
  · exact off
  · exact off

/-- The event ring is disabled where it is the function's, and else stays. -/
theorem State.flrRings_eq : (s.eqOwner = f → (s.flrRings f).eq.enabled = false) ∧ (s.eqOwner ≠ f → (s.flrRings f).eq = s.eq) := by
  refine ⟨fun h => ?_, fun h => State.flrRings_proj State.eq s f rfl (fun _ _ _ => rfl) fun _ e => absurd e h⟩
  unfold State.flrRings
  rw [if_pos h]
  rfl

/-! #### The descriptors of the function -/

theorem State.withdraw_moves (n : Nat) : LineMoves s (s.withdraw n) := Within.same rfl

theorem State.flrDesc_moves (d : Desc) : LineMoves s (s.flrDesc d) := by
  have retires {t : State} (h : LineMoves s t) : LineMoves s (t.retire d) := h.trans (within_retire (Within.refl true t) d).lineMoves
  have stops : Within true s ((s.release d).forAll d.axes State.flrStop) :=
    within_forAll (within_release (.refl _ s) d) fun _ x k => within_flrStop k x
  unfold State.flrDesc
  repeat' split
  · exact retires (.refl s)
  · exact retires (within_release (Within.refl true s) d).lineMoves
  · exact retires stops.lineMoves
  · exact retires (withdraw_moves ..)
  · exact retires (.refl s)
  · exact (within_modDesc (Within.refl true s) ..).lineMoves

theorem State.flrDescs_moves : LineMoves s (s.flrDescs f) := by
  unfold State.flrDescs
  extract_lets s1 s2 s3
  have h1 : LineMoves s s1 := .forAll (fun t d => (within_replaceNow (Within.refl true t) d).lineMoves) s
  have h2 : LineMoves s1 s2 := .forAll (fun t d => (within_retire (within_undo (Within.refl true t) _) d).lineMoves) s1
  have h3 : LineMoves s2 s3 := .forAll flrDesc_moves s2
  have h4 : LineMoves s3 (s3.forAll ((allFin 16).filter fun q => s3.owner q == f) fun t q => t.forAll (allFin 200) fun t x => t.flrAxis q x) :=
    .forAll (fun t q => .forAll (fun u x => (within_flrAxis (Within.refl true u) q x).lineMoves) t) s3
  exact ((h1.trans h2).trans h3).trans h4

end

/-! ### A Function Level Reset (R47) -/

theorem LineMoves.sq {s t : State} (h : LineMoves s t) : t.sq = s.sq := by rw [Within.eqn h]
theorem LineMoves.cu {s t : State} (h : LineMoves s t) : t.cu = s.cu := by rw [Within.eqn h]
theorem LineMoves.sys {s t : State} (h : LineMoves s t) : t.sys = s.sys := by rw [Within.eqn h]

section

variable (s : State) (f : Fin 2)

/-- The frame, the units, the supply and the link are no function's. -/
theorem State.flr_frame : (s.flr f).frm = s.frm ∧ (s.flr f).cu = s.cu ∧ (s.flr f).sys = s.sys ∧ (s.flr f).hif.linkUp = s.hif.linkUp ∧
    (s.flr f).hif.perst = s.hif.perst := by
  have moves := (s.flrRings f).flrDescs_moves f
  obtain ⟨up, perst, -⟩ := moves.link
  have hif := s.flrRings_hif f
  have masked (h : Hif) : (h.masked f).linkUp = h.linkUp ∧ (h.masked f).perst = h.perst := by
    unfold Hif.masked
    split <;> exact ⟨rfl, rfl⟩
  rw [flr_eq]
  refine ⟨moves.frm.trans (flrRings_frm ..), moves.cu.trans (flrRings_cu ..), moves.sys.trans (flrRings_sys ..), ?_, ?_⟩
  · exact (masked _).1.trans (up.trans (by rw [hif]))
  · exact (masked _).2.trans (perst.trans (by rw [hif]))

/-- OWNER of each ring and of the event ring stays. -/
theorem State.flr_owner : (∀ q : RingId, (s.flr f).owner q = s.owner q) ∧ (s.flr f).eqOwner = s.eqOwner := by
  have kept (b : Nat) (n : evReg b = false) : (s.flr f).rb b 29 = s.rb b 29 :=
    (congrArg (bitOf · 29) (((s.flrRings f).flrDescs_moves f).reg_eq n)).trans (flrRings_owner ..)
  refine ⟨fun q => ?_, ?_⟩
  · rw [State.owner, State.owner, kept]
    simp only [evReg, Adr.HIF_SQ_CFG, Adr.EVT_PEND_LO, Adr.EVT_PEND_HI, Bool.or_eq_false_iff, beq_eq_false_iff_ne,
      Bool.and_eq_false_iff, decide_eq_false_iff_not]
    omega
  · rw [State.eqOwner, State.eqOwner, kept _ (by decide)]

theorem State.flr_setUp : (∀ q : RingId, ((s.flr f).cq.get q).enabled = ((s.flrRings f).cq.get q).enabled) ∧
    (s.flr f).eq.enabled = (s.flrRings f).eq.enabled := by
  obtain ⟨cq, eq, -⟩ := State.setUp_iff.1 ((s.flrRings f).setUp_flrDescs f)
  exact ⟨cq, eq⟩

theorem State.flr_sq : (s.flr f).sq = (s.flrRings f).sq := ((s.flrRings f).flrDescs_moves f).sq

/-- The rings of the function that is reset are disabled (R47). -/
theorem State.flr_off {q : RingId} (h : s.owner q = f) : (s.flr f).ringOff q := by
  rw [ringOff, flr_sq, (s.flr_setUp f).1]
  exact s.flrRings_off f h

/-- The rings of the other function stay, and their completion rings stay enabled or disabled. -/
theorem State.flr_others {q : RingId} (h : s.owner q ≠ f) :
    (s.flr f).sq.get q = s.sq.get q ∧ ((s.flr f).cq.get q).enabled = (s.cq.get q).enabled := by
  obtain ⟨sq, cq⟩ := s.flrRings_others f h
  rw [flr_sq, (s.flr_setUp f).1, sq, cq]
  exact ⟨rfl, rfl⟩

theorem State.flr_eqRing : (s.eqOwner = f → (s.flr f).eq.enabled = false) ∧ (s.eqOwner ≠ f → (s.flr f).eq.enabled = s.eq.enabled) := by
  obtain ⟨off, stays⟩ := s.flrRings_eq f
  rw [(s.flr_setUp f).2]
  exact ⟨off, fun h => by rw [stays h]⟩

/-- The messages of the function are masked, and the masks and the table of the other one stay. -/
theorem State.flr_messages : (s.flr f).hif.mask0 = (if f = 0 then 0xFFFF#16 else s.hif.mask0) ∧
    (s.flr f).hif.mask1 = (if f = 0 then s.hif.mask1 else 0xFFFF#16) ∧
    (s.flr f).hif.table0 = (if f = 0 then List.replicate 16 ⟨0, 0⟩ else s.hif.table0) ∧
    (s.flr f).hif.table1 = (if f = 0 then s.hif.table1 else List.replicate 16 ⟨0, 0⟩) ∧
    (f = 0 → (s.flr f).hif.pend0 = 0) ∧ (f ≠ 0 → (s.flr f).hif.pend1 = 0) := by
  obtain ⟨-, -, mask0, mask1, table0, table1⟩ := State.setUp_iff.1 ((s.flrRings f).setUp_flrDescs f)
  have hif := s.flrRings_hif f
  rw [hif] at mask0 mask1 table0 table1
  rw [flr_eq]
  rcases fin2_cases f with rfl | rfl
  · exact ⟨rfl, mask1, rfl, table1, fun _ => rfl, fun h => absurd rfl h⟩
  · exact ⟨mask0, rfl, table0, rfl, fun h => absurd h (by decide), fun _ => rfl⟩

theorem Hif.vector_of_empty {h : Hif} {f : Fin 2} (e : (if f = 0 then h.table0 else h.table1) = List.replicate 16 ⟨0, 0⟩) (v : Fin 16) :
    h.vector f v = ⟨0, 0⟩ := by
  rw [Hif.vector, e, List.getD_eq_getElem?_getD, List.getElem?_replicate, if_pos v.isLt]
  rfl

/-- The table of the function that is reset is empty. -/
theorem State.flr_vector (v : Fin 16) : (s.flr f).hif.vector f v = ⟨0, 0⟩ := by
  obtain ⟨-, -, table0, table1, -⟩ := s.flr_messages f
  refine Hif.vector_of_empty ?_ v
  by_cases e : f = 0
  · rw [if_pos e, table0, if_pos e]
  · rw [if_neg e, table1, if_neg e]

end

theorem functionLevelReset_does (f : Fin 2) (s : State) :
    Completes (.functionLevelReset f) s fun t =>
      (∀ q : RingId, s.owner q = f → (t.sq.get q).state = .disabled ∧ (t.cq.get q).enabled = false) ∧
      (∀ q : RingId, s.owner q ≠ f → t.sq.get q = s.sq.get q ∧ (t.cq.get q).enabled = (s.cq.get q).enabled) ∧
      (s.eqOwner = f → t.eq.enabled = false) ∧ (s.eqOwner ≠ f → t.eq.enabled = s.eq.enabled) ∧
      (if f = 0 then t.hif.mask0 = 0xFFFF#16 ∧ t.hif.pend0 = 0 ∧ t.hif.mask1 = s.hif.mask1 ∧ t.hif.table1 = s.hif.table1
        else t.hif.mask1 = 0xFFFF#16 ∧ t.hif.pend1 = 0 ∧ t.hif.mask0 = s.hif.mask0 ∧ t.hif.table0 = s.hif.table0) ∧
      (∀ v : Fin 16, t.hif.vector f v = ⟨0, 0⟩) ∧
      t.frm = s.frm ∧ t.cu = s.cu ∧ t.hif.linkUp = s.hif.linkUp ∧ t.sys = s.sys := by
  obtain ⟨frm, cu, sys, up, -⟩ := s.flr_frame f
  obtain ⟨mask0, mask1, table0, table1, pend0, pend1⟩ := s.flr_messages f
  obtain ⟨off, stays⟩ := s.flr_eqRing f
  refine completes_of_exec (t := s.flr f) rfl
    ⟨fun q h => s.flr_off f h, fun q h => s.flr_others f h, off, stays, ?_, s.flr_vector f, frm, cu, up, sys⟩
  by_cases e : f = 0
  · rw [if_pos e, mask0, mask1, table1, if_pos e, if_pos e, if_pos e]
    exact ⟨rfl, pend0 e, rfl, rfl⟩
  · rw [if_neg e, mask0, mask1, table0, if_neg e, if_neg e, if_neg e]
    exact ⟨rfl, pend1 e, rfl, rfl⟩

/-! ### PERST# (R419) -/

/-- The reset of both functions leaves nothing enabled, every vector masked and the tables empty (R44, R47). -/
theorem State.flr_both (s : State) : let t := (s.flr 0).flr 1
    t.hif.linkUp = s.hif.linkUp ∧ t.hif.mask0 = 0xFFFF#16 ∧ t.hif.mask1 = 0xFFFF#16 ∧
      (∀ (f : Fin 2) (v : Fin 16), t.hif.vector f v = ⟨0, 0⟩) ∧ t.frm = s.frm ∧ (∀ q : RingId, t.ringOff q) ∧ t.eq.enabled = false := by
  intro t
  obtain ⟨frm, -, -, up, -⟩ := s.flr_frame 0
  obtain ⟨frm', -, -, up', -⟩ := (s.flr 0).flr_frame 1
  obtain ⟨mask0, -, table0, -, -⟩ := s.flr_messages 0
  obtain ⟨mask0', mask1', table0', -, -⟩ := (s.flr 0).flr_messages 1
  obtain ⟨owner, eqOwner⟩ := s.flr_owner 0
  obtain ⟨eqOff, -⟩ := s.flr_eqRing 0
  obtain ⟨eqOff', eqStays'⟩ := (s.flr 0).flr_eqRing 1
  refine ⟨up'.trans up, mask0'.trans mask0, mask1', fun f v => ?_, frm'.trans frm, fun q => ?_, ?_⟩
  · rcases fin2_cases f with rfl | rfl
    · exact Hif.vector_of_empty (f := 0) (table0'.trans table0) v
    · exact (s.flr 0).flr_vector 1 v
  · rcases fin2_cases (s.owner q) with h | h
    · obtain ⟨sq, cq⟩ := (s.flr 0).flr_others 1 (q := q) (by rw [owner, h]; decide)
      rw [State.ringOff, sq, cq]
      exact s.flr_off 0 h
    · exact (s.flr 0).flr_off 1 (by rw [owner, h])
  · rcases fin2_cases s.eqOwner with h | h
    · exact (eqStays' (by rw [eqOwner, h]; decide)).trans (eqOff h)
    · exact eqOff' (by rw [eqOwner, h])

theorem perstRelease_does (s : State) (h : s.hif.perst = true) :
    Completes .perstRelease s fun t => t.hif.perst = false ∧ t.hif.linkUp = s.hif.linkUp ∧ t.hif.mask0 = 0xFFFF#16 ∧
      t.hif.mask1 = 0xFFFF#16 ∧ (∀ (f : Fin 2) (v : Fin 16), t.hif.vector f v = ⟨0, 0⟩) ∧ t.frm = s.frm ∧
      (∀ q : RingId, (t.sq.get q).state = .disabled ∧ (t.cq.get q).enabled = false) ∧ t.eq.enabled = false :=
  completes_of_exec (congrArg Host.Outcome.next (if_pos h)) ⟨rfl, s.flr_both⟩

end Sys2Proof.Machine
end

section

namespace Sys2Proof.Machine

open Safety

/-! ### What a link loss does to the descriptors and the axes (R48) -/

/-- No register has moved but those of events and the Granary's count of refusals (R334). -/
def SteadyRegs (s t : State) : Prop := ∀ a : Nat, evReg a = false → a ≠ Adr.GRN_REFCNT → t.reg a = s.reg a

theorem SteadyRegs.trans {s t u : State} (h : SteadyRegs s t) (k : SteadyRegs t u) : SteadyRegs s u :=
  fun a n r => (k a n r).trans (h a n r)

theorem Within.steady {s t : State} (h : Within true s t) : SteadyRegs s t := fun a n _ => h.reg rfl a n

theorem SteadyRegs.forAll {α : Type} {l : List α} {f : State → α → State} (h : ∀ t a, SteadyRegs t (f t a)) (s : State) :
    SteadyRegs s (s.forAll l f) :=
  State.forAll_keeps (SteadyRegs s) (fun t a k => k.trans (h t a)) fun _ _ _ => rfl

theorem State.leave_steady (s : State) (d : Desc) : SteadyRegs s (s.leave d) := by
  unfold State.leave
  split
  · refine SteadyRegs.trans ?_ (within_finishHead (Within.refl true _) ..).steady
    split
    · exact fun a _ n => State.reg_setReg_other _ _ n
    · exact fun _ _ _ => rfl
  · exact fun _ _ _ => rfl

theorem State.settle_steady (s : State) (n : Nat) : SteadyRegs s (s.settle n) := by
  unfold State.settle
  split
  · exact fun _ _ _ => rfl
  · next d _ =>
    extract_lets s1
    have h1 : Within true s s1 := within_replaceNow (.refl _ s) d
    have h2 : Within true s1 (s1.forAll d.axes fun t x =>
        if (t.ax.get x).tt.faulted.any fun f => d.clears f then t.clearFault x else t) :=
      within_forAll (.refl _ s1) fun t x k => within_ite (within_clearFault k x) k
    exact (h1.trans h2).steady.trans (leave_steady _ d)

theorem State.settleEnd_steady (s : State) : SteadyRegs s s.settleEnd := by
  unfold State.settleEnd
  extract_lets t
  exact (SteadyRegs.forAll settle_steady s).trans (SteadyRegs.forAll leave_steady t)

theorem State.linkLoss_steady (s : State) : SteadyRegs s s.linkLoss := by
  unfold State.linkLoss
  extract_lets act t s0 xs s1
  split
  · exact fun _ _ _ => rfl
  · have h0 : Within true t s0 := within_forAll (.refl _ t) fun u d k => within_unstart k d
    have h1 : Within true s0 s1 := within_forAll (.refl _ s0) fun u x k => within_linkAxis k _ x
    have h2 : Within true s1 (s1.forAll (s1.ord.descs.filter fun d => d.stage == .staged || d.stage == .queued) fun t d =>
        if d.rej.isSome then t.finishRejected d t.frm.count else t.flush d 0 t.frm.count) :=
      within_forAll (.refl _ s1) fun u d k => within_ite (within_finishRejected k d _) (within_flush k d 0 _)
    exact (settleEnd_steady s).trans ((h0.trans h1).trans h2).steady

/-- With LINKLOSS 2 a link loss does nothing to the descriptors and the axes. -/
theorem State.linkLoss_none {s : State} (h : s.rf Adr.HIF_CFG 11 10 = 2) : s.linkLoss = s := if_pos h

/-! ### The host link (R48) -/

/-- The state in which the link has gone down and the reads in flight are lost, before the descriptors and the axes act on it. -/
def State.linkCut (s : State) : State :=
  ({ s.orReg Adr.HIF_STAT 8 with
      hif := { s.hif with linkUp := false, lostAt := some s.frm.count, dbFlight := [], rbFlight := [], dbPending := false, dbAgain := 0,
                          rbAgain := 0 }
      sq := s.sq.map Sq.lose } : State).loseReads

theorem State.linkDown_up {s : State} (h : s.hif.linkUp = true) : s.linkDown = s.linkCut.linkLoss := if_pos h

theorem State.linkDown_down {s : State} (h : s.hif.linkUp = false) : s.linkDown = s := if_neg (by simp [h])

theorem State.linkCut_reg (s : State) {a : Nat} (h : a ≠ Adr.HIF_STAT) : s.linkCut.reg a = s.reg a :=
  State.reg_setReg_other s _ h

theorem State.linkCut_lost (s : State) : s.linkCut.rb Adr.HIF_STAT 3 = true := State.rb_orReg_self s Adr.HIF_STAT (k := 3) (by decide)

theorem hostLinkDown_does (s : State) (h : s.hif.linkUp = true) :
    Completes .hostLinkDown s fun t => t.hif.linkUp = false ∧ t.hif.lostAt = some s.frm.count ∧ t.rb Adr.HIF_STAT 3 = true ∧
      t.frm = s.frm ∧ t.cu = s.cu ∧ t.line = s.line ∧ (∀ q : RingId, (t.sq.get q).state = (s.sq.get q).state) ∧
      (∀ a : Nat, evReg a = false → a ≠ Adr.HIF_STAT → a ≠ Adr.GRN_REFCNT → t.reg a = s.reg a) ∧
      (s.rf Adr.HIF_CFG 11 10 = 2 → t.ax = s.ax ∧ t.ord = s.loseReads.ord) := by
  refine completes_of_exec (congrArg Host.Outcome.next (State.linkDown_up h)) ?_
  have loss : Within false s.linkCut s.linkCut.linkLoss := within_linkLoss (.refl _ _)
  have steady := s.linkCut.linkLoss_steady
  obtain ⟨up, -, lostAt⟩ := loss.link
  refine ⟨up, lostAt, ?_, loss.frm, loss.cu, loss.line, fun q => ?_, fun a n hs hg => ?_, fun keeps => ?_⟩
  · rw [State.rb, steady _ (by decide) (by decide)]
    exact s.linkCut_lost
  · have lost : s.linkCut.sq.get q = (s.sq.get q).lose := vector_get_map ..
    rw [loss.sq, lost]
    rfl
  · exact (steady a n hg).trans (s.linkCut_reg hs)
  · have cfg : s.linkCut.rf Adr.HIF_CFG 11 10 = 2 := by rw [State.rf, s.linkCut_reg (by decide)]; exact keeps
    rw [State.linkLoss_none cfg]
    exact ⟨rfl, rfl⟩

/-- The state in which the link is up again and the records that were held are written. -/
def State.linkBack (s : State) : State :=
  { s with hif := { s.hif with linkUp := true, held := [], discarded := 0, lostAt := none } }.forAll s.hif.held State.writeHeld

theorem exec_hostLinkUp {s : State} (down : s.hif.linkUp = false) (free : s.hif.perst = false) (on : s.sys.powered = true) :
    exec .hostLinkUp s = .next (s.hif.lostAt.elim s.linkBack fun f => s.linkBack.raise 7 0x122 (wd (s.since f)) (wd s.hif.discarded)) := by
  have go : ¬ (s.hif.linkUp = true ∨ s.hif.perst = true ∨ ¬ s.sys.powered = true) := by simp [down, free, on]
  refine congrArg Host.Outcome.next ((if_neg go).trans ?_)
  cases s.hif.lostAt <;> rfl

theorem hostLinkUp_does (s : State) (down : s.hif.linkUp = false) (free : s.hif.perst = false) (on : s.sys.powered = true) :
    Completes .hostLinkUp s fun t => t.hif.linkUp = true ∧ t.frm = s.frm ∧ t.cu = s.cu ∧ t.sq = s.sq ∧
      (s.hif.lostAt ≠ none → t.rb Adr.EVT_PEND_LO 7 = true) ∧ ∀ a : Nat, evReg a = false → t.reg a = s.reg a := by
  have back : Within true { s with hif := { s.hif with linkUp := true, held := [], discarded := 0, lostAt := none } } s.linkBack :=
    within_forAll (.refl _ _) fun t r k => within_writeHeld k r
  refine completes_of_exec (exec_hostLinkUp down free on) ?_
  cases s.hif.lostAt with
  | none => exact ⟨back.link.1, back.frm, back.cu, back.sq, fun h => absurd rfl h, fun a n => back.reg rfl a n⟩
  | some f =>
    have told := within_raise back 7 0x122 (wd (s.since f)) (wd s.hif.discarded)
    exact ⟨told.link.1, told.frm, told.cu, told.sq, fun _ => State.rb_raise_self _ 7 .., fun a n => told.reg rfl a n⟩

/-- PERST# takes the link down, and is asserted from then on (R419). -/
theorem perst_does (s : State) : Completes .perst s fun t => t.hif.perst = true ∧ t.hif.linkUp = false ∧ t.frm = s.frm ∧ t.cu = s.cu := by
  refine completes_of_exec (t := { s.linkDown with hif := { s.linkDown.hif with perst := true } }) rfl ⟨rfl, ?_⟩
  cases h : s.hif.linkUp with
  | false => rw [State.linkDown_down h]; exact ⟨h, rfl, rfl⟩
  | true =>
    have loss : Within false s.linkCut s.linkCut.linkLoss := within_linkLoss (.refl _ _)
    rw [State.linkDown_up h]
    exact ⟨loss.link.1, loss.frm, loss.cu⟩

/-- Settles O17, clause by clause: the link, PERST# and the reset of a function. -/
theorem hostLinkAndReset : Obligations.HostLinkAndReset := by
  unfold Obligations.HostLinkAndReset
  refine ⟨fun s => ⟨hostLinkDown_does s, fun down => congrArg Host.Outcome.next (State.linkDown_down down), hostLinkUp_does s,
    fun h => congrArg Host.Outcome.next (if_pos ?_), perst_does s, perstRelease_does s,
    fun h => congrArg Host.Outcome.next (if_neg (by simp [h]))⟩, functionLevelReset_does⟩
  simpa using h

end Sys2Proof.Machine
end

section

namespace Sys2Proof.Machine

open Safety

/-! ### Reads that go out (R54, R57) -/

/-- Reads have gone out: of each submission ring what is in flight may have moved, of the host interface the reads of the blocks, and what is
sent out; nothing else has. -/
structure Fetches (s t : State) : Prop where
  eqn : t = { s with hif := t.hif, sq := t.sq, out := t.out }
  hif : t.hif = { s.hif with dbFlight := t.hif.dbFlight, rbFlight := t.hif.rbFlight, dbPending := t.hif.dbPending }
  ring : ∀ p : RingId, t.sq.get p = { s.sq.get p with flight := (t.sq.get p).flight, wait := (t.sq.get p).wait }

theorem Fetches.refl (s : State) : Fetches s s := ⟨rfl, rfl, fun _ => rfl⟩

theorem Fetches.trans {s t u : State} (h : Fetches s t) (k : Fetches t u) : Fetches s u :=
  ⟨by rw [k.eqn, h.eqn], by rw [k.hif, h.hif], fun p => by rw [k.ring p, h.ring p]⟩

theorem Fetches.frm {s t : State} (h : Fetches s t) : t.frm = s.frm := by rw [h.eqn]
theorem Fetches.cq {s t : State} (h : Fetches s t) : t.cq = s.cq := by rw [h.eqn]
theorem Fetches.ord {s t : State} (h : Fetches s t) : t.ord = s.ord := by rw [h.eqn]
theorem Fetches.ax {s t : State} (h : Fetches s t) : t.ax = s.ax := by rw [h.eqn]
theorem Fetches.reg {s t : State} (h : Fetches s t) (a : Nat) : t.reg a = s.reg a := State.reg_of_regs (by rw [h.eqn]) a

/-- What a descriptor read does not move of its ring. -/
theorem Fetches.state {s t : State} (h : Fetches s t) (p : RingId) : (t.sq.get p).state = (s.sq.get p).state ∧
    (t.sq.get p).fcount = (s.sq.get p).fcount ∧ (t.sq.get p).pcount = (s.sq.get p).pcount ∧
    (t.sq.get p).retryRef = (s.sq.get p).retryRef ∧ (t.sq.get p).fresh = (s.sq.get p).fresh ∧
    (t.sq.get p).lastAc = (s.sq.get p).lastAc ∧ (t.sq.get p).attempts = (s.sq.get p).attempts := by
  rw [h.ring p]
  exact ⟨rfl, rfl, rfl, rfl, rfl, rfl, rfl⟩

theorem State.issueRead_fetches (s : State) (q : RingId) (n : Nat) : Fetches s (s.issueRead q n) := by
  refine ⟨rfl, rfl, fun p => ?_⟩
  unfold State.issueRead
  by_cases e : p = q
  · rw [e, State.modSq_same]; rfl
  · rw [State.modSq_other _ _ e]; rfl

theorem State.fetchAll_fetches (s : State) : Fetches s s.fetchAll := by
  refine State.forAll_keeps (Fetches s) (fun t i h => ?_) (.refl s)
  unfold State.fetchOne
  dsimp only
  split
  · exact h.trans (State.issueRead_fetches ..)
  · exact h

/-! ### A descriptor read that ends (R57, R62, R69) -/

/-- A ring whose descriptor read has ended. -/
def Sq.landed (x : Sq) : Sq := { x with flight := none }

/-- What follows acceptance: the ring's descriptors enter ordering, and the rings are served. -/
def State.afterRead (s : State) (q : RingId) : State := (s.enterRing q 64).fetchAll

/-- What follows acceptance leaves the ring's state, the acceptance sequence and what is pending. -/
theorem State.afterRead_keeps (s : State) (q p : RingId) : let t := s.afterRead q
    (t.sq.get p).state = (s.sq.get p).state ∧ (t.sq.get p).fcount = (s.sq.get p).fcount ∧ (t.sq.get p).lastAc = (s.sq.get p).lastAc ∧
      (t.sq.get p).attempts = (s.sq.get p).attempts ∧ t.ord.next = s.ord.next ∧ t.frm = s.frm ∧
      ∀ i, s.rb Adr.EVT_PEND_LO i = true → t.rb Adr.EVT_PEND_LO i = true := by
  intro t
  have enters : Within true s (s.enterRing q 64) := within_enterRing (.refl _ s) q 64
  have fetches : Fetches (s.enterRing q 64) t := State.fetchAll_fetches _
  obtain ⟨state, fcount, -, -, -, lastAc, attempts⟩ := fetches.state p
  rw [enters.sq] at state fcount lastAc attempts
  refine ⟨state, fcount, lastAc, attempts, by rw [fetches.ord, enters.next rfl], fetches.frm.trans enters.frm, fun i w => ?_⟩
  rw [State.rb, fetches.reg]
  exact enters.lo rfl i w

section

variable {s : State} {q : RingId} {c : BitVec 24} {b : List Byte} (flight : (s.sq.get q).flight = some (c, 1)) (wait : (s.sq.get q).wait = false)
include flight wait

/-- A read of one entry that brings data passes the entry through acceptance. -/
theorem exec_descriptorReadDone_data (run : (s.sq.get q).state = .running) (open_ : s.cqOpen q = true) (len : b.length = 64) :
    exec (.descriptorReadDone q (.data b)) s = .next (((s.modSq q Sq.landed).acceptEntry q b).1.afterRead q) := by
  have one (t : State) (h : t.cqOpen q = true) : t.acceptAll q 1 b = (t.acceptEntry q b).1 := by
    rw [State.acceptAll, if_pos h, List.take_of_length_le (by omega)]
    rcases t.acceptEntry q b with ⟨u, more⟩
    cases more <;> rfl
  show execDescriptorReadDone q (.data b) s = _
  unfold execDescriptorReadDone
  dsimp only
  rw [flight]
  dsimp only
  rw [wait, if_neg Bool.false_ne_true, if_neg (by decide), if_pos (by omega), if_neg (by simp [run]), ← one]
  · rfl
  · exact open_

/-- A read that fails moves the ring on by its retries. -/
theorem exec_descriptorReadDone_failed (e : BitVec 8) :
    exec (.descriptorReadDone q (.failed e)) s = .next ((s.modSq q Sq.landed).fetchFailed q c 1 e).fetchAll := by
  show execDescriptorReadDone q (.failed e) s = _
  unfold execDescriptorReadDone
  dsimp only
  rw [flight]
  dsimp only
  rw [wait, if_neg Bool.false_ne_true, if_neg (by decide)]
  rfl

end

/-! ### The entry (R69) -/

/-- A change of ring `q`, a record for it and an event, as a faulty entry brings them. -/
theorem State.told_keeps (s : State) (q : RingId) (f : Sq → Sq) (r : Rec) {e : Nat} (he : e < 32) (u : Nat) (d0 d1 : Word) :
    let t := ((s.modSq q f).produce q r).raise e u d0 d1
    t.sq.get q = f (s.sq.get q) ∧ t.ord.next = s.ord.next ∧ t.rb Adr.EVT_PEND_LO e = true := by
  intro t
  have told : Within true (s.modSq q f) t := within_raise (within_produce (.refl _ _) q r) e u d0 d1
  have pending := State.rb_raise_self ((s.modSq q f).produce q r) e u d0 d1
  rw [if_pos he, Nat.mod_eq_of_lt he] at pending
  refine ⟨?_, told.next rfl, pending⟩
  rw [told.sq, State.modSq_same]

section

variable {s : State} {q : RingId} {b : List Byte}

/-- A wrong CRC stalls the ring, with a record and event 0. -/
theorem State.acceptEntry_check (crc : crc32c (b.take 60) ≠ wd (u32 b 60)) : ∃ (stall : BitVec 16) (r : Rec) (u : Nat) (d0 d1 : Word),
    (s.acceptEntry q b).1 =
      ((s.modSq q fun x => { x with state := .stalledCheck, stall := stall, attempts := (s.sq.get q).attempts + 1 }).produce q r).raise 0 u d0 d1 := by
  unfold State.acceptEntry
  dsimp only
  rw [if_pos crc]
  exact ⟨_, _, _, _, _, rfl⟩

variable (crc : crc32c (b.take 60) = wd (u32 b 60))
include crc

/-- A repeated alive counter is passed over, with a record and event 2. -/
theorem State.acceptEntry_repeat (old : (b.getD 2 0 - (s.sq.get q).lastAc).toNat = 0 ∨ 129 ≤ (b.getD 2 0 - (s.sq.get q).lastAc).toNat) :
    ∃ (r : Rec) (u : Nat) (d0 d1 : Word), (s.acceptEntry q b).1 =
      ((s.modSq q fun x => { x with fcount := (s.sq.get q).fcount + 1, state := .running }).produce q r).raise 2 u d0 d1 := by
  unfold State.acceptEntry
  dsimp only
  rw [if_neg (not_not.2 crc), if_pos old]
  exact ⟨_, _, _, _, rfl⟩

/-- A gap of the alive counter stalls the ring, with a record and event 1. -/
theorem State.acceptEntry_gap (low : 2 ≤ (b.getD 2 0 - (s.sq.get q).lastAc).toNat) (high : (b.getD 2 0 - (s.sq.get q).lastAc).toNat ≤ 128) :
    ∃ (stall : BitVec 16) (r : Rec) (u : Nat) (d0 d1 : Word), (s.acceptEntry q b).1 =
      ((s.modSq q fun x => { x with state := .stalledGap, stall := stall }).produce q r).raise 1 u d0 d1 := by
  unfold State.acceptEntry
  dsimp only
  rw [if_neg (not_not.2 crc), if_neg (by omega), if_pos low]
  exact ⟨_, _, _, _, _, rfl⟩

/-- The next alive counter is taken, and the entry accepted. -/
theorem State.acceptEntry_next (next : (b.getD 2 0 - (s.sq.get q).lastAc).toNat = 1) : (s.acceptEntry q b).1 =
    (s.modSq q fun x => { x with lastAc := b.getD 2 0, attempts := 0, state := .running, fcount := (s.sq.get q).fcount + 1 }).accept
      (s.newDesc q (s.sq.get q).fcount b) := by
  unfold State.acceptEntry
  dsimp only
  rw [if_neg (not_not.2 crc), if_neg (by omega), if_neg (by omega)]

end

/-- An entry that has got the next number of the acceptance sequence. -/
def State.numbered (s : State) (d : Desc) : State := { s with ord := { s.ord with next := s.ord.next + 1, descs := s.ord.descs ++ [d] } }

/-- Acceptance gives the next number of the acceptance sequence (R82), and leaves the rings and the frame. -/
theorem State.accept_next (s : State) (d : Desc) :
    (s.accept d).ord.next = s.ord.next + 1 ∧ (s.accept d).sq = s.sq ∧ (s.accept d).frm = s.frm := by
  have start := Within.refl true (s.numbered d)
  have taken : Within true (s.numbered d) (s.accept d) :=
    within_ite (within_ite start (within_finishRejected start d _))
      (within_ite (within_finish start ..) (within_ite (within_readList (within_modDesc start ..) d) start))
  exact ⟨taken.next rfl, taken.sq, taken.frm⟩

/-- The first failure of a read is told, with event 3 (R60). -/
def State.readFailed (s : State) (q : RingId) (slot : Nat) (err : BitVec 8) : State :=
  s.raise 3 (0x100 + q.val) (wd (err.toNat + 256 * 1)) (wd slot)

theorem State.fetchFailed_of_running {s : State} {q : RingId} (run : (s.sq.get q).state = .running) (c : BitVec 24) (n : Nat) (err : BitVec 8) :
    s.fetchFailed q c n err = if s.rf Adr.HIF_CFG 6 4 = 0
      then ((s.readFailed q (s.slotOfCount q c) err).modSq q fun x =>
        { x with state := .error, flight := none, wait := false, tries := 0, tried := 1 }).readFailed q (s.slotOfCount q c) err
      else (s.readFailed q (s.slotOfCount q c) err).modSq q fun x =>
        { x with state := .fetchWait, flight := some (c, n), wait := true, tries := s.rf Adr.HIF_CFG 6 4, tried := 1 } := by
  have first : ¬ (s.sq.get q).state = .fetchWait := by simp [run]
  unfold State.fetchFailed
  simp only [if_neg first, State.readFailed]

/-- A read that fails the first time is told, and ends the ring or waits, by the retries that HIF_CFG gives (R60, R62). -/
theorem State.fetchFailed_first {s : State} {q : RingId} (run : (s.sq.get q).state = .running) (c : BitVec 24) (n : Nat) (err : BitVec 8) :
    (s.fetchFailed q c n err).rb Adr.EVT_PEND_LO 3 = true ∧ (s.fetchFailed q c n err).ord.next = s.ord.next ∧
      ((s.fetchFailed q c n err).sq.get q).state = if s.rf Adr.HIF_CFG 6 4 = 0 then .error else .fetchWait := by
  have tells (t : State) : Tells t (t.readFailed q (s.slotOfCount q c) err) := tells_raise ..
  rw [State.fetchFailed_of_running run]
  split
  · refine ⟨State.rb_raise_self _ 3 .., ?_, ?_⟩
    · rw [(tells _).ord, State.modSq_ord, (tells _).ord]
    · rw [(tells _).sq, State.modSq_same]
  · refine ⟨State.rb_raise_self s 3 .., ?_, ?_⟩
    · rw [State.modSq_ord, (tells _).ord]
    · rw [State.modSq_same]

/-! ### Acceptance (O20) -/

/-- Settles O20, case by case of the entry: the check, the alive counter, and the read that fails. -/
theorem acceptance : Obligations.Acceptance := by
  unfold Obligations.Acceptance
  intro s q c b flight wait run open_ len step
  have data := exec_descriptorReadDone_data flight wait run open_ len
  have ring : (s.modSq q Sq.landed).sq.get q = (s.sq.get q).landed := State.modSq_same ..
  have alive : (b.getD 2 0 - ((s.modSq q Sq.landed).sq.get q).lastAc).toNat = step := by rw [ring]; rfl
  refine ⟨fun crc => ?_, fun crc old => ?_, fun crc low high => ?_, fun crc next => ?_, fun e => ?_⟩
  · obtain ⟨stall, r, u, d0, d1, eqn⟩ := State.acceptEntry_check (s := s.modSq q Sq.landed) (q := q) crc
    obtain ⟨sq, ord, told⟩ := State.told_keeps (s.modSq q Sq.landed) q _ r (e := 0) (by decide) u d0 d1
    rw [eqn] at data
    obtain ⟨state, fcount, -, attempts, next, -, pending⟩ := State.afterRead_keeps _ q q
    refine completes_of_exec data ⟨?_, ?_, ?_, next.trans ord, pending 0 told⟩
    · rw [state, sq]
    · rw [attempts, sq, ring]; rfl
    · rw [fcount, sq, ring]; rfl
  · obtain ⟨r, u, d0, d1, eqn⟩ := State.acceptEntry_repeat (s := s.modSq q Sq.landed) (q := q) crc (by rwa [alive])
    obtain ⟨sq, ord, told⟩ := State.told_keeps (s.modSq q Sq.landed) q _ r (e := 2) (by decide) u d0 d1
    rw [eqn] at data
    obtain ⟨state, fcount, lastAc, -, next, -, pending⟩ := State.afterRead_keeps _ q q
    refine completes_of_exec data ⟨?_, ?_, ?_, next.trans ord, pending 2 told⟩
    · rw [state, sq]
    · rw [fcount, sq, ring]; rfl
    · rw [lastAc, sq, ring]; rfl
  · obtain ⟨stall, r, u, d0, d1, eqn⟩ := State.acceptEntry_gap (s := s.modSq q Sq.landed) (q := q) crc (by rwa [alive]) (by rwa [alive])
    obtain ⟨sq, ord, told⟩ := State.told_keeps (s.modSq q Sq.landed) q _ r (e := 1) (by decide) u d0 d1
    rw [eqn] at data
    obtain ⟨state, fcount, -, -, next, -, pending⟩ := State.afterRead_keeps _ q q
    refine completes_of_exec data ⟨?_, ?_, next.trans ord, pending 1 told⟩
    · rw [state, sq]
    · rw [fcount, sq, ring]; rfl
  · have eqn := State.acceptEntry_next (s := s.modSq q Sq.landed) (q := q) crc (alive.trans next)
    rw [eqn] at data
    obtain ⟨number, sq, frm⟩ := State.accept_next _ _
    obtain ⟨state, fcount, lastAc, attempts, next, frame, -⟩ := State.afterRead_keeps _ q q
    refine completes_of_exec data ⟨?_, ?_, ?_, ?_, next.trans number, frame.trans frm⟩
    · rw [state, sq, State.modSq_same]
    · rw [fcount, sq, State.modSq_same, ring]; rfl
    · rw [lastAc, sq, State.modSq_same]
    · rw [attempts, sq, State.modSq_same]
  · have runs : ((s.modSq q Sq.landed).sq.get q).state = .running := by rw [ring]; exact run
    obtain ⟨told, next, state⟩ := State.fetchFailed_first runs c 1 e
    have fetches := State.fetchAll_fetches ((s.modSq q Sq.landed).fetchFailed q c 1 e)
    refine completes_of_exec (exec_descriptorReadDone_failed flight wait e) ⟨?_, ?_, (fetches.state q).1.trans state⟩
    · rw [State.rb, fetches.reg]; exact told
    · rw [fetches.ord]; exact next

end Sys2Proof.Machine
end

section

namespace Sys2Proof.Machine

open Safety

/-! ### The member of a list that a step is about -/

/-- Where the other steps of a list keep what holds before the step of `a` and what it brings about, the list brings that about. -/
theorem State.forAll_at {α : Type} {I Q : State → Prop} {f : State → α → State} {a : α} (before : ∀ t b, b ≠ a → I t → I (f t b))
    (own : ∀ t, I t → Q (f t a)) (after : ∀ t b, b ≠ a → Q t → Q (f t b)) {l : List α} (mem : a ∈ l) (once : l.Nodup) {s : State} (h : I s) :
    Q (s.forAll l f) := by
  unfold State.forAll
  induction l generalizing s with
  | nil => exact absurd mem List.not_mem_nil
  | cons c l ih =>
    obtain ⟨fresh, once⟩ := List.nodup_cons.1 once
    rcases List.mem_cons.1 mem with rfl | mem
    · rw [List.foldl_cons]
      exact List.foldlRecOn _ _ (own s h) fun t q b hb => after t b (fun e => fresh (e ▸ hb)) q
    · exact ih mem once (before s c (fun e => fresh (e ▸ mem)) h)

/-! ### Ring by ring -/

theorem State.modSq_modSq (s : State) (q : RingId) (f g : Sq → Sq) : (s.modSq q f).modSq q g = s.modSq q (g ∘ f) := by
  rw [State.modSq, State.modSq_sq, vector_get_set_self]
  simp [State.modSq]

/-- Submission ring `q`, the axes, the descriptors and the registers but for those of events stand as they were. -/
structure Beside (q : RingId) (s t : State) : Prop where
  ring : t.sq.get q = s.sq.get q
  ax : t.ax = s.ax
  ord : t.ord = s.ord
  reg : ∀ a : Nat, evReg a = false → t.reg a = s.reg a

section

variable {q p : RingId} {s t u : State}

theorem Beside.refl (q : RingId) (s : State) : Beside q s s := ⟨rfl, rfl, rfl, fun _ _ => rfl⟩

theorem Beside.trans (h : Beside q s t) (k : Beside q t u) : Beside q s u :=
  ⟨k.ring.trans h.ring, k.ax.trans h.ax, k.ord.trans h.ord, fun a n => (k.reg a n).trans (h.reg a n)⟩

theorem Beside.modSq (h : Beside q s t) (f : Sq → Sq) (ne : q ≠ p) : Beside q s (t.modSq p f) :=
  h.trans ⟨t.modSq_other f ne, rfl, rfl, fun _ _ => rfl⟩

theorem Beside.modSq_same (h : Beside q s t) (f : Sq → Sq) : Beside q (s.modSq q f) (t.modSq q f) :=
  ⟨by rw [State.modSq_same, State.modSq_same, h.ring], h.ax, h.ord, h.reg⟩

theorem Beside.raise (h : Beside q s t) (e n : Nat) (d0 d1 : Word) : Beside q s (t.raise e n d0 d1) :=
  have told := tells_raise t e n d0 d1
  h.trans ⟨by rw [told.sq], told.ax, told.ord, (within_raise (.refl true t) e n d0 d1).reg rfl⟩

theorem Beside.issueRead (h : Beside q s t) (n : Nat) (ne : q ≠ p) : Beside q s (t.issueRead p n) := by
  unfold State.issueRead
  dsimp only
  refine Beside.modSq (t := t.emit _) ?_ _ ne
  exact h.trans ⟨rfl, rfl, rfl, fun _ _ => rfl⟩

theorem Beside.ite {c : Prop} [Decidable c] (h : Beside q s t) (k : Beside q s u) : Beside q s (if c then t else u) := by
  split <;> assumption

/-- The doorbell word of one ring moves no other ring. -/
theorem Beside.doorbell (h : Beside q s t) (w : Word) (ne : q ≠ p) : Beside q s (t.doorbell p w) := by
  unfold State.doorbell
  extract_lets x c retry s1 s2
  have first : Beside q s s1 := (h.modSq _ ne).ite h
  have second : Beside q s s2 := (first.modSq _ ne).ite (first.ite ((first.modSq _ ne).raise ..))
  exact h.ite ((h.modSq _ ne).ite (((second.modSq _ ne).issueRead 1 ne).ite second))

end

/-! ### The doorbell word of a running ring (R56, R61) -/

theorem State.pcountOk_congr {s t : State} {q : RingId} (ord : t.ord = s.ord) (reg : t.reg (Adr.HIF_SQ_CFG q) = s.reg (Adr.HIF_SQ_CFG q))
    (fcount : (t.sq.get q).fcount = (s.sq.get q).fcount) (p : BitVec 24) : t.pcountOk q p = s.pcountOk q p := by
  rw [State.pcountOk, State.pcountOk, State.rcount, State.rcount, State.sqSize, State.sqSize, State.rf, State.rf, ord, reg, fcount]

theorem evReg_sqCfg (q : RingId) : evReg (Adr.HIF_SQ_CFG q) = false := by revert q; decide

theorem evReg_cqCfg (q : RingId) : evReg (Adr.HIF_CQ_CFG q) = false := by revert q; decide

/-- The producer count of a doorbell word is taken. -/
def Sq.produced (w : Word) (x : Sq) : Sq := { x with pcount := w.setWidth 24 }

/-- The first doorbell word after an enable gives the ring its reference of RETRY. -/
def Sq.referred (w : Word) (x : Sq) : Sq := { x with fresh := 0, retryRef := BitVec.ofNat 8 (fld w 31 24) }

section

variable {s t : State} {q : RingId} {w : Word} (run : (s.sq.get q).state = .running) (ok : s.pcountOk q (w.setWidth 24) = true)
include run ok

theorem State.doorbell_of_old (old : (s.sq.get q).fresh = 0) : s.doorbell q w = s.modSq q (Sq.produced w) := by
  unfold State.doorbell
  simp [run, ok, old]
  rfl

theorem State.doorbell_of_fresh (fresh : (s.sq.get q).fresh = 1) :
    s.doorbell q w = (s.modSq q (Sq.referred w)).modSq q (Sq.produced w) := by
  have fcount : ((s.modSq q (Sq.referred w)).sq.get q).fcount = (s.sq.get q).fcount := by rw [State.modSq_same]; rfl
  have ok1 : (s.modSq q (Sq.referred w)).pcountOk q (w.setWidth 24) = true :=
    (State.pcountOk_congr (s := s) (t := s.modSq q (Sq.referred w)) rfl rfl fcount _).trans ok
  unfold State.doorbell
  dsimp only
  rw [if_neg (by simp [run]), if_neg (by omega), if_neg (by simp [run]), if_pos fresh]
  exact if_pos ok1

end

/-- What the own word of ring `q` brings about stands when every ring has been given its word. -/
theorem State.doorbells_at {s u : State} {q : RingId} {b : List Byte} (own : ∀ t, Beside q s t → Beside q u (t.doorbell q (wordAt b q)))
    {t : State} (start : Beside q s t) : Beside q u (t.forAll (allFin 16) fun t p => t.doorbell p (wordAt b p)) :=
  State.forAll_at (I := Beside q s) (Q := Beside q u) (f := fun t p => t.doorbell p (wordAt b p)) (fun _ _ ne h => h.doorbell _ ne.symm) own
    (fun _ _ ne h => h.doorbell _ ne.symm) (mem_allFin q) (List.nodup_finRange 16) start

/-! ### A block read that ends (R54, R55) -/

theorem State.kickReads_fetches (s : State) : Fetches s s.kickReads := ⟨rfl, rfl, fun _ => rfl⟩

/-- The end of DOORBELL_BLOCK_READ_DONE: the pair of reads that was remembered goes out, and the rings are served. -/
def State.rung (s : State) : State :=
  (if s.hif.dbPending then { s with hif := { s.hif with dbPending := false } }.kickReads else s).fetchAll

theorem State.rung_fetches (s : State) : Fetches s s.rung := by
  have pending : Fetches s { s with hif := { s.hif with dbPending := false } } := ⟨rfl, rfl, fun _ => rfl⟩
  unfold State.rung
  split
  · exact (pending.trans (State.kickReads_fetches _)).trans (State.fetchAll_fetches _)
  · exact State.fetchAll_fetches _

/-- A failed block read is told by HIF_STAT.DB_FETCH_ERR and event 3, and by nothing else. -/
theorem State.blockFailed_tells (s : State) (err : BitVec 8) (n : Nat) : Tells s (s.blockFailed err n) ∧
    (s.blockFailed err n).rb Adr.HIF_STAT 2 = true ∧ (s.blockFailed err n).rb Adr.EVT_PEND_LO 3 = true := by
  refine ⟨(tells_setReg ..).trans (tells_raise ..), ?_, State.rb_raise_self _ 3 ..⟩
  rw [State.rb, State.blockFailed, (within_raise (.refl true (s.orReg Adr.HIF_STAT 4)) ..).reg rfl _ (by decide)]
  exact s.rb_orReg_self Adr.HIF_STAT (k := 2) (by decide)

theorem Sq.passed_pcount (x : Sq) : x.passed.pcount = x.pcount := by
  unfold Sq.passed
  split <;> rfl

/-- The oldest read of the doorbell block is over, and `l` are left. -/
def State.rang (s : State) (l : List BlockRead) : State := { s with hif := { s.hif with dbFlight := l } }

/-- A read of the doorbell block has failed at attempt `n`: it is told, and is asked again. -/
def State.ringFailed (s : State) (e : BitVec 8) (n : Nat) : State :=
  let u := s.blockFailed e n
  { u with hif := { u.hif with dbAgain := n }, sq := u.sq.map Sq.passed }

theorem exec_doorbellBlockReadDone_failed {s : State} {f : BlockRead} {l : List BlockRead} (read : s.hif.dbFlight = f :: l) (e : BitVec 8) :
    exec (.doorbellBlockReadDone (.failed e)) s = .next ((s.rang l).ringFailed e f.attempt).rung := by
  show execDoorbellBlockReadDone (.failed e) s = _
  unfold execDoorbellBlockReadDone
  rw [read]
  dsimp only
  rfl

theorem exec_doorbellBlockReadDone_data {s : State} {f : BlockRead} {l : List BlockRead} (read : s.hif.dbFlight = f :: l) (b : List Byte) :
    exec (.doorbellBlockReadDone (.data b)) s = .next ((s.rang l).forAll (allFin 16) fun t q => t.doorbell q (wordAt b q)).rung := by
  show execDoorbellBlockReadDone (.data b) s = _
  unfold execDoorbellBlockReadDone State.rang State.rung
  rw [read]

/-- DOORBELL_BLOCK_READ_DONE of a failed read (R55). -/
theorem doorbellFailed_does {s : State} {f : BlockRead} {l : List BlockRead} (read : s.hif.dbFlight = f :: l) (e : BitVec 8) :
    Completes (.doorbellBlockReadDone (.failed e)) s fun t => t.rb Adr.HIF_STAT 2 = true ∧ t.rb Adr.EVT_PEND_LO 3 = true ∧
      t.hif.dbAgain = f.attempt ∧ ∀ q : RingId, (t.sq.get q).pcount = (s.sq.get q).pcount := by
  have fetches := ((s.rang l).ringFailed e f.attempt).rung_fetches
  obtain ⟨tells, stat, pending⟩ := (s.rang l).blockFailed_tells e f.attempt
  refine completes_of_exec (exec_doorbellBlockReadDone_failed read e) ⟨?_, ?_, ?_, fun q => ?_⟩
  · rw [State.rb, fetches.reg]; exact stat
  · rw [State.rb, fetches.reg]; exact pending
  · rw [fetches.hif]; rfl
  · obtain ⟨-, -, pcount, -⟩ := fetches.state q
    rw [pcount, State.ringFailed, vector_get_map, Sq.passed_pcount, tells.sq]
    rfl

section

variable {s : State} {f : BlockRead} {l : List BlockRead} {b : List Byte} {q : RingId}

/-- DOORBELL_BLOCK_READ_DONE moves ring `q` as its word does, and leaves the axes and the descriptors. -/
theorem doorbellData_moves (read : s.hif.dbFlight = f :: l) (g : Sq → Sq)
    (own : ∀ t, Beside q s t → t.doorbell q (wordAt b q) = t.modSq q g) :
    Completes (.doorbellBlockReadDone (.data b)) s fun t => (t.sq.get q).pcount = (g (s.sq.get q)).pcount ∧
      (t.sq.get q).fresh = (g (s.sq.get q)).fresh ∧ (t.sq.get q).retryRef = (g (s.sq.get q)).retryRef ∧
      (t.sq.get q).state = (g (s.sq.get q)).state ∧ t.ax = s.ax ∧ t.ord = s.ord := by
  have start : Beside q s (s.rang l) := ⟨rfl, rfl, rfl, fun _ _ => rfl⟩
  have taken : Beside q (s.modSq q g) _ := State.doorbells_at (b := b) (fun t h => by rw [own t h]; exact h.modSq_same g) start
  have fetches := ((s.rang l).forAll (allFin 16) fun t q => t.doorbell q (wordAt b q)).rung_fetches
  obtain ⟨state, -, pcount, retry, fresh, -⟩ := fetches.state q
  have ring := taken.ring.trans (s.modSq_same q g)
  refine completes_of_exec (exec_doorbellBlockReadDone_data read b) ⟨?_, ?_, ?_, ?_, fetches.ax.trans taken.ax, fetches.ord.trans taken.ord⟩
  · rw [pcount, ring]
  · rw [fresh, ring]
  · rw [retry, ring]
  · rw [state, ring]

variable (read : s.hif.dbFlight = f :: l) (run : (s.sq.get q).state = .running)
  (ok : s.pcountOk q (BitVec.setWidth 24 (wd (u32 b (4 * q.val)))) = true)
include read run ok

/-- DOORBELL_BLOCK_READ_DONE takes the producer count of a running ring (R56). -/
theorem doorbellData_old (old : (s.sq.get q).fresh = 0) : Completes (.doorbellBlockReadDone (.data b)) s fun t =>
    (t.sq.get q).pcount = BitVec.setWidth 24 (wd (u32 b (4 * q.val))) ∧ (t.sq.get q).retryRef = (s.sq.get q).retryRef ∧
      (t.sq.get q).state = .running ∧ t.ax = s.ax ∧ t.ord = s.ord := by
  obtain ⟨t, eqn, pcount, -, retry, state, ax, ord⟩ := doorbellData_moves (b := b) read (Sq.produced (wordAt b q)) fun t h =>
    State.doorbell_of_old (by rw [h.ring, run]) ((State.pcountOk_congr h.ord (h.reg _ (evReg_sqCfg q)) (by rw [h.ring]) _).trans ok)
      (by rw [h.ring, old])
  exact ⟨t, eqn, pcount, retry, state.trans run, ax, ord⟩

/-- The first read of the doorbell block after an enable also gives the ring its reference of RETRY (R61). -/
theorem doorbellData_fresh (fresh : (s.sq.get q).fresh = 1) : Completes (.doorbellBlockReadDone (.data b)) s fun t =>
    (t.sq.get q).pcount = BitVec.setWidth 24 (wd (u32 b (4 * q.val))) ∧ (t.sq.get q).fresh = 0 ∧
      (t.sq.get q).retryRef = BitVec.ofNat 8 (fld (wd (u32 b (4 * q.val))) 31 24) ∧ t.ord = s.ord := by
  obtain ⟨t, eqn, pcount, old, retry, -, -, ord⟩ :=
    doorbellData_moves (q := q) (b := b) read (Sq.produced (wordAt b q) ∘ Sq.referred (wordAt b q)) fun t h =>
      (State.doorbell_of_fresh (by rw [h.ring, run])
        ((State.pcountOk_congr h.ord (h.reg _ (evReg_sqCfg q)) (by rw [h.ring]) _).trans ok) (by rw [h.ring, fresh])).trans
          (State.modSq_modSq ..)
  exact ⟨t, eqn, pcount, old, retry, ord⟩

end

end Sys2Proof.Machine
end

section

namespace Sys2Proof.Machine

open Safety

/-! ### The head count of a completion ring (R56, R102) -/

/-- Completion ring `q`, the submission rings, the frame and the registers but for those of events stand as they were. -/
structure HeadBeside (q : RingId) (s t : State) : Prop where
  ring : t.cq.get q = s.cq.get q
  sq : t.sq = s.sq
  frm : t.frm = s.frm
  reg : ∀ a : Nat, evReg a = false → t.reg a = s.reg a

section

variable {q p : RingId} {s t u : State}

theorem HeadBeside.trans (h : HeadBeside q s t) (k : HeadBeside q t u) : HeadBeside q s u :=
  ⟨k.ring.trans h.ring, k.sq.trans h.sq, k.frm.trans h.frm, fun a n => (k.reg a n).trans (h.reg a n)⟩

theorem State.putRec_cq_other (s : State) (r : Rec) (late : Bool) (ne : q ≠ p) : (s.putRec p r late).cq.get q = s.cq.get q := by
  have signalled (t : State) : (t.signalCq p).cq.get q = t.cq.get q :=
    (congrArg (·.get q) (tells_signal ..).cq).trans (t.modCq_other _ ne)
  unfold State.putRec
  extract_lets size n t u v
  have written : u.cq.get q = s.cq.get q := t.modCq_other _ ne
  have full : v.cq.get q = s.cq.get q := by
    by_cases c : u.cqFull p = true
    · rw [show v = _ from if_pos c, State.modCq_other _ _ ne, written]
    · rw [show v = _ from if_neg c, written]
  split
  · rw [signalled, full]
  · exact full

theorem State.dropOf_cq (s : State) (d : Option Nat) : (s.dropOf d).cq = s.cq := by
  cases d <;> rfl

theorem State.drainWaiting_cq_other (s : State) (l : List Rec) (ne : q ≠ p) : (s.drainWaiting p l).cq.get q = s.cq.get q := by
  induction l generalizing s with
  | nil => exact s.modCq_other _ ne
  | cons r l ih =>
    rw [State.drainWaiting]
    split
    · exact s.modCq_other _ ne
    · rw [ih, State.putRec_cq_other _ _ _ ne, State.dropOf_cq]

/-- The head count of one completion ring moves no other. -/
theorem HeadBeside.takeHead (h : HeadBeside q s t) (w : Word) (ne : q ≠ p) : HeadBeside q s (t.takeHead p w) := by
  have moves : Within true t (t.takeHead p w) := within_takeHead (.refl true t) p w
  refine h.trans ⟨?_, moves.sq, moves.frm, moves.reg rfl⟩
  unfold State.takeHead
  dsimp only
  split
  · rfl
  · split
    · rw [State.drainWaiting_cq_other _ _ ne, State.modCq_other _ _ ne]
    · split
      · rfl
      · rw [(tells_raise ..).cq, State.modCq_other _ _ ne]

/-- The head count of a return word is taken, where no record waits. -/
def Cq.taken (w : Word) (x : Cq) : Cq := { x with head := w.setWidth 24, waiting := [] }

theorem State.takeHead_of_ok {w : Word} (on : (s.cq.get q).enabled = true) (none : (s.cq.get q).waiting = [])
    (ok : headOk (s.cq.get q).wcount (s.cq.get q).head (w.setWidth 24) (s.cqSize q) = true) : s.takeHead q w = s.modCq q (Cq.taken w) := by
  unfold State.takeHead
  dsimp only
  rw [if_neg (by simp [on]), if_pos ok, none, State.drainWaiting, State.modCq, State.modCq_same, State.modCq_cq]
  simp [State.modCq, Cq.taken]

theorem HeadBeside.modCq_same (h : HeadBeside q s t) (f : Cq → Cq) : HeadBeside q (s.modCq q f) (t.modCq q f) :=
  ⟨by rw [State.modCq_same, State.modCq_same, h.ring], h.sq, h.frm, h.reg⟩

theorem HeadBeside.of_tells (h : Tells s t) (reg : ∀ a : Nat, evReg a = false → t.reg a = s.reg a) : HeadBeside q s t :=
  ⟨by rw [h.cq], h.sq, h.frm, reg⟩

/-- The head count of the event ring moves no completion ring. -/
theorem State.takeEqHead_tells (s : State) (w : Word) : Tells s (s.takeEqHead w) := by
  have moved (e : EvRing) : Tells s { s with eq := e } := ⟨rfl, rfl, List.prefix_refl _, id⟩
  unfold State.takeEqHead
  dsimp only
  split
  · exact .refl s
  · split
    · exact (moved _).trans (tells_eqOverflow _)
    · split
      · exact .refl s
      · exact (moved _).trans (tells_raise ..)

end

/-! ### RETURN_BLOCK_READ_DONE (R53, R55, R56) -/

/-- The oldest read of the return block is over, and `l` are left. -/
def State.returned (s : State) (l : List BlockRead) : State := { s with hif := { s.hif with rbFlight := l } }

/-- A read of the return block has failed at attempt `n`: it is told, and is asked again. -/
def State.returnFailed (s : State) (e : BitVec 8) (n : Nat) : State :=
  let u := s.blockFailed e n
  { u with hif := { u.hif with rbAgain := n } }

section

variable {s : State} {f : BlockRead} {l : List BlockRead} (read : s.hif.rbFlight = f :: l)
include read

theorem exec_returnBlockReadDone_failed (e : BitVec 8) :
    exec (.returnBlockReadDone (.failed e)) s = .next ((s.returned l).returnFailed e f.attempt) := by
  show execReturnBlockReadDone (.failed e) s = _
  unfold execReturnBlockReadDone
  rw [read]
  rfl

theorem exec_returnBlockReadDone_data (b : List Byte) : exec (.returnBlockReadDone (.data b)) s =
    .next ((((s.returned l).forAll (allFin 16) fun t q => t.takeHead q (wordAt b q)).takeEqHead (wordAt b 16)).fetchAll) := by
  show execReturnBlockReadDone (.data b) s = _
  unfold execReturnBlockReadDone State.returned
  rw [read]

/-- RETURN_BLOCK_READ_DONE of a failed read (R55). -/
theorem returnFailed_does (e : BitVec 8) : Completes (.returnBlockReadDone (.failed e)) s fun t => t.rb Adr.HIF_STAT 2 = true ∧
    t.rb Adr.EVT_PEND_LO 3 = true ∧ t.cq = s.cq ∧ t.hif.rbFlight = l ∧ t.hif.rbAgain = f.attempt := by
  obtain ⟨tells, stat, pending⟩ := (s.returned l).blockFailed_tells e f.attempt
  refine completes_of_exec (exec_returnBlockReadDone_failed read e) ⟨stat, pending, tells.cq, ?_, rfl⟩
  show ((s.returned l).blockFailed e f.attempt).hif.rbFlight = l
  rw [tells.hif]
  rfl

/-- RETURN_BLOCK_READ_DONE takes a completion ring's head count where it is valid (R56). -/
theorem returnData_does {b : List Byte} {q : RingId} (on : (s.cq.get q).enabled = true) (none : (s.cq.get q).waiting = [])
    (ok : headOk (s.cq.get q).wcount (s.cq.get q).head (BitVec.setWidth 24 (wd (u32 b (4 * q.val)))) (s.cqSize q) = true) :
    Completes (.returnBlockReadDone (.data b)) s fun t => (t.cq.get q).head = BitVec.setWidth 24 (wd (u32 b (4 * q.val))) ∧
      t.frm = s.frm ∧ ∀ p : RingId, (t.sq.get p).state = (s.sq.get p).state := by
  have start : HeadBeside q s (s.returned l) := ⟨rfl, rfl, rfl, fun _ _ => rfl⟩
  have own (t : State) (h : HeadBeside q s t) : HeadBeside q (s.modCq q (Cq.taken (wordAt b q))) (t.takeHead q (wordAt b q)) := by
    have size : t.cqSize q = s.cqSize q := by rw [State.cqSize, State.rf, h.reg _ (evReg_cqCfg q)]; rfl
    rw [State.takeHead_of_ok (by rw [h.ring, on]) (by rw [h.ring, none]) (by rw [h.ring, size]; exact ok)]
    exact h.modCq_same _
  have heads := State.forAll_at (I := HeadBeside q s) (f := fun t p => t.takeHead p (wordAt b p)) (fun _ _ ne h => h.takeHead _ ne.symm) own
    (fun _ _ ne h => h.takeHead _ ne.symm) (mem_allFin q) (List.nodup_finRange 16) start
  have events := State.takeEqHead_tells ((s.returned l).forAll (allFin 16) fun t p => t.takeHead p (wordAt b p)) (wordAt b 16)
  have fetches := State.fetchAll_fetches
    (((s.returned l).forAll (allFin 16) fun t p => t.takeHead p (wordAt b p)).takeEqHead (wordAt b 16))
  refine completes_of_exec (exec_returnBlockReadDone_data read b) ⟨?_, ?_, fun p => ?_⟩
  · rw [fetches.cq, events.cq, heads.ring, State.modCq_same]; rfl
  · rw [fetches.frm, events.frm, heads.frm]; rfl
  · obtain ⟨state, -⟩ := fetches.state p
    rw [state, events.sq, heads.sq]; rfl

end

/-! ### HIF_KICK (R54) -/

section

variable {s : State} {m : Master} (acts : Acts s m 0x20008 0) (up : s.hif.linkUp = true)
include acts up

theorem exec_hifKick_idle (idle : s.hif.dbFlight = []) : exec (.hifKick m) s = .next s.kickReads := by
  show Host.Outcome.next (s.kickWrite m) = _
  rw [State.kickWrite, if_pos acts.2, State.kick, if_pos up, if_pos idle]

theorem exec_hifKick_reading (reading : s.hif.dbFlight ≠ []) :
    exec (.hifKick m) s = .next { s with hif := { s.hif with dbPending := true } } := by
  show Host.Outcome.next (s.kickWrite m) = _
  rw [State.kickWrite, if_pos acts.2, State.kick, if_pos up, if_neg reading]

/-- HIF_KICK.GO issues the reads of both blocks. -/
theorem hifKick_does (idle : s.hif.dbFlight = []) : Completes (.hifKick m) s fun t => t.hif.dbFlight = [⟨true, 1⟩] ∧
    t.hif.rbFlight = s.hif.rbFlight ++ [⟨true, 1⟩] ∧
    t.out = s.out ++ [.dmaRead 0 (s.reg64 Adr.HIF_DBA_LO) 64, .dmaRead 0 (s.reg64 Adr.HIF_RBA_LO) 128] ∧
    t = { s with hif := t.hif, out := t.out } :=
  completes_of_exec (exec_hifKick_idle acts up idle) ⟨congrArg (fun l => l ++ [(⟨true, 1⟩ : BlockRead)]) idle, rfl, List.append_assoc .., rfl⟩

end

/-! ### MSI-X (R80) -/

/-- The host interface with the mask and the pending bit of vector `v` of function `f` cleared. -/
def Hif.unmasked (h : Hif) (f : Fin 2) (v : Fin 16) : Hif :=
  let b : BitVec 16 := BitVec.ofNat 16 (2 ^ v.val)
  if f = 0 then { h with mask0 := h.mask0 &&& ~~~b, pend0 := h.pend0 &&& ~~~b } else { h with mask1 := h.mask1 &&& ~~~b, pend1 := h.pend1 &&& ~~~b }

theorem Hif.unmasked_does (h : Hif) (f : Fin 2) (v : Fin 16) :
    (if f = 0 then (h.unmasked f v).mask0 else (h.unmasked f v).mask1).getLsbD v = false ∧
    (if f = 0 then (h.unmasked f v).pend0 else (h.unmasked f v).pend1).getLsbD v = false ∧
    (if f = 0 then (h.unmasked f v).mask1 = h.mask1 else (h.unmasked f v).mask0 = h.mask0) := by
  have cleared (x : BitVec 16) : (x &&& ~~~(BitVec.ofNat 16 (2 ^ v.val))).getLsbD v = false := by
    rw [getLsbD_and_not_two_pow, decide_eq_true rfl, Bool.not_true, Bool.and_false]
  rcases fin2_cases f with rfl | rfl
  · exact ⟨cleared _, cleared _, rfl⟩
  · exact ⟨cleared _, cleared _, rfl⟩

theorem State.unmask_eqn (s : State) (f : Fin 2) (v : Fin 16) : s.unmask f v =
    { s with hif := s.hif.unmasked f v, out := s.out ++ if (if f = 0 then s.hif.pend0 else s.hif.pend1).getLsbD v
      then [.msix f v (s.hif.vector f v).addr (s.hif.vector f v).data] else [] } := by
  rcases fin2_cases f with rfl | rfl
  · by_cases pending : s.hif.pend0.getLsbD v = true
    · rw [if_pos rfl, if_pos pending]
      exact if_pos pending
    · rw [if_pos rfl, if_neg pending, List.append_nil]
      exact if_neg pending
  · by_cases pending : s.hif.pend1.getLsbD v = true
    · rw [if_neg (show ¬(1 : Fin 2) = 0 by decide), if_pos pending]
      exact if_pos pending
    · rw [if_neg (show ¬(1 : Fin 2) = 0 by decide), if_neg pending, List.append_nil]
      exact if_neg pending

/-- MSIX_VECTOR_UNMASK clears the mask and the pending bit, and sends what was pending. -/
theorem msixVectorUnmask_does (s : State) (f : Fin 2) (v : Fin 16) : Completes (.msixVectorUnmask f v) s fun t =>
    t.out = s.out ++ (if (if f = 0 then s.hif.pend0 else s.hif.pend1).getLsbD v
      then [.msix f v (s.hif.vector f v).addr (s.hif.vector f v).data] else []) ∧
    (if f = 0 then t.hif.mask0 else t.hif.mask1).getLsbD v = false ∧ (if f = 0 then t.hif.pend0 else t.hif.pend1).getLsbD v = false ∧
    (if f = 0 then t.hif.mask1 = s.hif.mask1 else t.hif.mask0 = s.hif.mask0) ∧
    t = { s with hif := t.hif, out := t.out } := by
  obtain ⟨mask, pend, other⟩ := s.hif.unmasked_does f v
  exact ⟨s.unmask f v, rfl, by rw [State.unmask_eqn]; exact ⟨rfl, mask, pend, other, rfl⟩⟩

theorem exec_msixCoalesceTimeout_cq (s : State) (q : RingId) : exec (.msixCoalesceTimeout q.castSucc) s =
    .next (if s.coalesced (s.reg (Adr.HIF_CQ_CFG q)) (s.cq.get q).oldest then s.signalCq q else s) := by
  show execMsixCoalesceTimeout q.castSucc s = _
  unfold execMsixCoalesceTimeout
  rw [dif_pos (show q.castSucc.val < 16 from q.isLt)]
  rfl

/-! ### Block reads and messages (O19) -/

/-- Settles O19, clause by clause: the kick, the ends of the reads of either block, and the messages. -/
theorem hostTraffic : Obligations.HostTraffic := by
  unfold Obligations.HostTraffic
  refine ⟨fun s => ⟨fun m acts up idle => hifKick_does acts up idle, fun m acts up reading => exec_hifKick_reading acts up reading,
    fun e f l read => doorbellFailed_does read e,
    fun b q f l read run ok => ⟨doorbellData_old read run ok, doorbellData_fresh read run ok⟩, fun none r => ?_,
    fun e f l read => returnFailed_does read e, fun b q reading on none ok => ?_, fun none r => ?_⟩,
    fun s q due => ?_, fun s q due => ?_, fun s => rfl, msixVectorUnmask_does⟩
  · show execDoorbellBlockReadDone r s = _
    rw [execDoorbellBlockReadDone, none]
  · obtain ⟨f, l, read⟩ := List.exists_cons_of_ne_nil reading
    exact returnData_does read on none ok
  · show execReturnBlockReadDone r s = _
    rw [execReturnBlockReadDone, none]
  · rw [exec_msixCoalesceTimeout_cq, if_pos due]
  · rw [exec_msixCoalesceTimeout_cq, if_neg (by simp [due])]

end Sys2Proof.Machine
end

section

namespace Sys2Proof.Machine

open Safety

/-! ### Bytes of numbers (R9) -/

theorem leBytes_length (n v : Nat) : (leBytes n v).length = n := by
  induction n generalizing v with
  | zero => rfl
  | succ n ih => rw [leBytes, List.length_cons, ih]

/-- The bytes of a number spell it, as far as they go. -/
theorem leNat_leBytes (n v : Nat) : leNat (leBytes n v) = v % 256 ^ n := by
  induction n generalizing v with
  | zero => rw [pow_zero, Nat.mod_one]; rfl
  | succ n ih => rw [leBytes, leNat, ih, BitVec.toNat_ofNat, pow_succ' 256 n, Nat.mod_mul (x := v) (a := 256)]

theorem leNat_leBytes_word (w : Word) : leNat (leBytes 4 w.toNat) = w.toNat := by
  rw [leNat_leBytes, Nat.mod_eq_of_lt (show w.toNat < 256 ^ 4 from w.isLt)]

/-! ### The bytes of a completion record (R71) -/

/-- The 28 bytes of a completion record before its CRC. -/
def Rec.body (r : Rec) (rcount : Nat) (flags : Byte) : List Byte :=
  [r.status, r.axis, r.alive, r.opcode] ++ leBytes 4 r.tag.toNat ++ leBytes 8 r.frame.toNat
    ++ leBytes 4 r.d0.toNat ++ leBytes 4 r.d1.toNat ++ leBytes 3 rcount ++ [flags]

section

variable (r : Rec) (rcount : Nat) (flags : Byte)

theorem Rec.bytes_eq : r.bytes rcount flags = r.body rcount flags ++ leBytes 4 (crc32c (r.body rcount flags)).toNat := rfl

theorem Rec.body_length : (r.body rcount flags).length = 28 := rfl

theorem Rec.bytes_length : (r.bytes rcount flags).length = 32 := by
  rw [Rec.bytes_eq, List.length_append, Rec.body_length, leBytes_length]

/-- The last four bytes are the CRC-32C of those before. -/
theorem Rec.bytes_crc : leNat ((r.bytes rcount flags).drop 28) = (crc32c ((r.bytes rcount flags).take 28)).toNat := by
  rw [Rec.bytes_eq, List.take_left' (Rec.body_length ..), List.drop_left' (Rec.body_length ..), leNat_leBytes_word]

theorem Rec.bytes_tag : leNat (((r.bytes rcount flags).drop 4).take 4) = r.tag.toNat := by
  have field : ((r.bytes rcount flags).drop 4).take 4 = leBytes 4 r.tag.toNat := rfl
  rw [field, leNat_leBytes_word]

theorem Rec.bytes_frame : leNat (((r.bytes rcount flags).drop 8).take 8) = r.frame.toNat := by
  have field : ((r.bytes rcount flags).drop 8).take 8 = leBytes 8 r.frame.toNat := rfl
  rw [field, leNat_leBytes, Nat.mod_eq_of_lt (show r.frame.toNat < 256 ^ 8 from r.frame.isLt)]

/-- The detail words. -/
theorem Rec.bytes_details : ((r.bytes rcount flags).drop 16).take 8 = leBytes 4 r.d0.toNat ++ leBytes 4 r.d1.toNat := rfl

end

/-! ### Where a record goes (R72) -/

/-- A record is sent as one write at the next entry of its ring. -/
theorem State.putRec_sends (s : State) (q : RingId) (r : Rec) (late : Bool) :
    s.out ++ [.dmaWrite (s.owner q) (s.reg64 (Adr.HIF_CQ_BASE_LO q) + 32 * ((s.cq.get q).wcount.toNat % 2 ^ s.cqSize q))
      (r.bytes (s.rcount q).toNat (rflags (s.cq.get q).wcount.toNat (s.cqSize q) late))] <+: (s.putRec q r late).out := by
  unfold State.putRec
  extract_lets size n t u v
  have hu : Kept false t u := kept_modCq (.refl _ t) ..
  have hv : Kept false t v := kept_ite (kept_modCq hu ..) hu
  exact (kept_ite (kept_signalCq hv q) hv).out

/-- Where a ring's records go hangs on the registers and the ring alone. -/
theorem State.recordPlace_congr {s t : State} (h : t.regs = s.regs) (q : RingId) : t.owner q = s.owner q ∧
    t.reg64 (Adr.HIF_CQ_BASE_LO q) = s.reg64 (Adr.HIF_CQ_BASE_LO q) ∧ t.cqSize q = s.cqSize q := by
  have reg := State.reg_of_regs h
  refine ⟨?_, ?_, ?_⟩
  · rw [State.owner, State.rb, reg]; rfl
  · rw [State.reg64, reg, reg]; rfl
  · rw [State.cqSize, State.rf, reg]; rfl

theorem State.putRec_ord (s : State) (q : RingId) (r : Rec) (late : Bool) : (s.putRec q r late).ord = s.ord := by
  have signalled (t : State) : (t.signalCq q).ord = t.ord := (tells_signal ..).ord
  unfold State.putRec
  extract_lets size n t u v
  have hv : v.ord = s.ord := by
    unfold v
    split <;> rfl
  split
  · exact (signalled v).trans hv
  · exact hv

/-! ### The end of a descriptor moves no other one -/

theorem tells_finishEvents (s : State) (d : Desc) (status : Nat) (d0 : Word) (fr : FrameNo) : Tells s (s.finishEvents d status d0 fr) := by
  unfold State.finishEvents
  extract_lets s1
  have h1 : Tells s s1 := by
    unfold s1
    split
    · split
      · exact tells_raiseAt ..
      · exact .refl s
    · exact .refl s
  split
  · exact h1.trans (tells_forAll _ _ (fun t u => tells_raiseAt ..) s1)
  · exact h1

theorem State.queueLow_ord (s : State) (x : AxisId) (fr : FrameNo) : (s.queueLow x fr).ord = s.ord := by
  unfold State.queueLow
  dsimp only
  split
  · exact (tells_raiseAt ..).ord
  · rfl

theorem State.camHead_ord (s : State) (x : AxisId) : (s.camHead x).ord = s.ord := by
  have filled (f : FollowSt) : ((s.fillCam f).1).ord = s.ord := by
    unfold State.fillCam
    split
    · exact State.forAll_proj State.ord (f := fun t n => t.emit (.dmaRead (t.owner f.ring) (f.addr + 64 * n) 64)) (fun _ _ => rfl) s
    · rfl
  unfold State.camHead
  extract_lets ahead
  split
  · split
    · split
      · rfl
      · exact filled _
    · split <;> rfl
  · split <;> rfl

/-! ### A record that goes out at once (O23) -/

/-- A descriptor that is not mute, and no QUIET one, ends as OK with its record. -/
theorem State.finish_produces {s : State} {d : Desc} (quiet : d.isQuiet = false) (loud : d.mute = false) (op : d.op = 0) (d0 d1 : Word) (fr : FrameNo) :
    ∃ l : List AxisId, s.finish d 0 d0 d1 fr =
      ((s.produce d.ring (d.record 0 d0 d1 fr)).finishEvents d 0 d0 fr).forAll l fun t x => (t.queueLow x fr).camHead x := by
  have record : ¬ ((0 = 0 ∧ d.isQuiet = true) ∨ d.mute = true) := by simp [quiet, loud]
  have moves : ¬ ((0 = 0 ∨ 0 = 9) ∧ (d.op = 1 ∨ d.op = 2 ∨ d.op = 0x10)) := by simp [op]
  unfold State.finish
  dsimp only
  rw [if_neg record, if_neg moves]
  split
  · exact ⟨d.axes, rfl⟩
  · exact ⟨[], rfl⟩

theorem State.produce_writes {s : State} {q : RingId} (r : Rec) (on : (s.cq.get q).enabled = true) (up : s.hif.linkUp = true)
    (room : s.cqFull q = false) (first : (s.cq.get q).waiting = []) : s.produce q r = (s.dropOf r.desc).putRec q r false := by
  rw [State.produce, if_pos on, if_pos up, if_neg (by simp [room, first])]

theorem exec_nop {s : State} {n : Nat} {d : Desc} (is : s.desc? n = some d) (op : d.op = 0) (sound : d.rej = none)
    (held : d.refetch = false) (waits : d.stage = .staged ∨ d.stage = .queued) : exec (.nop n) s = .next (s.finish d 0 0 0 s.frm.count) := by
  show Host.Outcome.next _ = _
  rw [is]
  exact congrArg Host.Outcome.next (if_pos ⟨op, by rw [sound]; rfl, by simp [held], waits⟩)

/-- Settles O23: the record of NOP is sent as the descriptor leaves, and what follows sends after it and keeps the descriptors. -/
theorem completionRecord : Obligations.CompletionRecord := by
  unfold Obligations.CompletionRecord
  intro s n d is op sound held waits quiet loud on up room first
  have acc : d.acc = n := by simpa using List.find?_some is
  obtain ⟨l, ends⟩ := State.finish_produces (s := s) quiet loud op 0 0 s.frm.count
  rw [State.produce_writes _ on up room first] at ends
  have whole : Within true s (s.finish d 0 0 0 s.frm.count) := within_finish (.refl _ s) ..
  refine completes_of_exec (exec_nop is op sound held waits) ⟨?_, whole.frm, whole.cu, whole.reg rfl, ?_⟩
  all_goals rw [ends]
  · have ord : ∀ t : State, (t.forAll l fun t x => (t.queueLow x s.frm.count).camHead x).ord = t.ord :=
      State.forAll_proj State.ord fun t x => (State.camHead_ord ..).trans (State.queueLow_ord ..)
    rw [ord, (tells_finishEvents ..).ord, State.putRec_ord]
    intro e he
    have := (List.mem_filter.1 he).2
    rw [acc] at this
    simpa using this
  · have after (t : State) : t.out <+: ((t.finishEvents d 0 0 s.frm.count).forAll l fun t x => (t.queueLow x s.frm.count).camHead x).out :=
      (kept_forAll (kept_finishEvents (Kept.refl false t) ..) fun u x k => kept_camHead (kept_queueLow k ..) x).out
    have sends := (s.dropOf (d.record 0 0 0 s.frm.count).desc).putRec_sends d.ring (d.record 0 0 0 s.frm.count) false
    obtain ⟨owner, base, size⟩ := State.recordPlace_congr (s := s) (t := s.dropOf (d.record 0 0 0 s.frm.count).desc) rfl d.ring
    rw [owner, base, size] at sends
    refine ⟨_, sends.trans (after _), Rec.bytes_length .., rfl, rfl, rfl, rfl, Rec.bytes_tag .., Rec.bytes_frame .., ?_,
      Rec.bytes_crc ..⟩
    rw [Rec.bytes_details]
    exact (by decide : leNat (leBytes 4 (0 : Word).toNat ++ leBytes 4 (0 : Word).toNat) = 0)

end Sys2Proof.Machine
end

section
/-! SUPPORT. The obligations of one step and of the acceptance sequence, and those of the fences and barriers. -/

namespace Sys2Proof.Machine

open Safety

/-! ### One step (O1, O4) -/

theorem step_cons {s : State} {c : Instr} {rest : List Instr} (h : s.pending = c :: rest) : step s = exec c { s with pending := rest } := by
  rw [step, h]

theorem step_nil {s : State} (h : s.pending = []) : step s = .next s := by
  rw [step, h]

/-- Settles O1: the two cases of the queue. -/
theorem stepRunsFrontCommand : Obligations.StepRunsFrontCommand :=
  ⟨fun _ _ _ h => step_cons h, fun _ h => step_nil h⟩

/-- Settles O4: an idle step changes nothing, and every command keeps the acceptance sequence. -/
theorem acceptanceOrderKept : Obligations.AcceptanceOrderKept := by
  unfold Obligations.AcceptanceOrderKept
  intro s t ordered stepped
  cases queue : s.pending with
  | nil =>
    rw [step_nil queue] at stepped
    cases stepped
    exact ordered
  | cons c rest =>
    rw [step_cons queue] at stepped
    exact (kept_exec (z := false) (fun e => nomatch e) stepped).ord ordered

/-! ### A descriptor under its acceptance number -/

theorem State.acc_of_desc? {s : State} {n : Nat} {d : Desc} (is : s.desc? n = some d) : d.acc = n := by
  simpa using List.find?_some is

/-- An update of descriptor `k` that keeps its number is seen under that number alone. -/
theorem State.desc?_modDesc (s : State) (k n : Nat) {f : Desc → Desc} (keeps : ∀ e, (f e).acc = e.acc) :
    (s.modDesc k f).desc? n = (s.desc? n).map fun e => if e.acc = k then f e else e := by
  have number : ((fun e : Desc => e.acc == n) ∘ fun e => if e.acc = k then f e else e) = fun e => e.acc == n := by
    funext e
    dsimp only [Function.comp]
    split
    · rw [keeps]
    · rfl
  rw [State.desc?, State.modDesc, List.find?_map, number, State.desc?]

theorem State.desc?_modDesc_self {s : State} {n : Nat} {d : Desc} (is : s.desc? n = some d) {f : Desc → Desc}
    (keeps : ∀ e, (f e).acc = e.acc) : (s.modDesc n f).desc? n = some (f d) := by
  rw [State.desc?_modDesc s n n keeps, is, Option.map_some, if_pos (State.acc_of_desc? is)]

theorem State.desc?_modDesc_ne (s : State) {k n : Nat} (ne : k ≠ n) {f : Desc → Desc} (keeps : ∀ e, (f e).acc = e.acc) :
    (s.modDesc k f).desc? n = s.desc? n := by
  rw [State.desc?_modDesc s k n keeps]
  cases is : s.desc? n with
  | none => rfl
  | some d => rw [Option.map_some, if_neg fun e => ne (e.symm.trans (State.acc_of_desc? is))]

/-! ### FENCE and BARRIER (O24) -/

/-- A due descriptor takes effect at once (R86). -/
theorem State.withEffect_of_due {s : State} {n op : Nat} {d : Desc} (due : Due s n op d) (p : Nat → Bool) (hp : p op = true)
    (f : State → Desc → State) : s.withEffect n p f = f (onset s d) (onsetOf s d) := by
  obtain ⟨power, is, opcode, stands, unsettled, start, grant⟩ := due
  have begun : s.begin n p = ((s.decideOne d).1, some ((s.decideOne d).1.fresh d)) := by
    simp [State.begin, is, opcode, hp, power, stands, Option.isNone_iff_eq_none.1 unsettled, start, grant]
  rw [State.withEffect, begun]
  rfl

theorem State.withEffect_none {s : State} {n : Nat} (gone : s.desc? n = none) (p : Nat → Bool) (f : State → Desc → State) :
    s.withEffect n p f = s := by
  rw [State.withEffect, State.begin, gone]

theorem State.doneBefore_iff {s : State} {n : Nat} {on : RingId → Bool} : s.doneBefore n on = true ↔
    ∀ e ∈ s.ord.descs, on e.ring = true → e.acc < n → e.stage = .recordWaits ∨ e.mute = true := by
  simp only [State.doneBefore, List.all_eq_true]
  refine forall₂_congr fun e _ => ?_
  cases on e.ring <;> cases e.mute <;> simp [imp_iff_not_or]

/-- A FENCE that waits ends once what it waits for has completed, and until then nothing happens (R92, R93). -/
theorem exec_fenceComplete {s : State} {n : Nat} {d : Desc} (is : s.desc? n = some d) (op : d.op = 9) (waits : d.waits = true) :
    exec (.fenceComplete n) s = .next (if s.doneBefore d.acc (s.fenceRings d) then
      (s.finish d 0 0 0 s.frm.count).enterRing d.ring 64 else s) := by
  show execFenceComplete n s = _
  simp [execFenceComplete, is, op, waits]

theorem exec_fenceComplete_none {s : State} {n : Nat} (gone : s.desc? n = none) : exec (.fenceComplete n) s = .next s := by
  show execFenceComplete n s = _
  rw [execFenceComplete, gone]

/-- A BARRIER arrives once all before it in its ring has completed (R94, R357). -/
theorem exec_barrierArrive {s : State} {n : Nat} {d : Desc} (is : s.desc? n = some d) (op : d.op = 0xA) (waits : d.waits = true)
    (first : d.arrived = none) (done : s.doneBefore d.acc (· == d.ring) = true) :
    exec (.barrierArrive n) s = .next (if u8 d.bytes 21 = 1 then s.arriveLine d else s.arriveDevice d) := by
  show execBarrierArrive n s = _
  simp [execBarrierArrive, is, op, waits, first, done]

/-- An arrival counts on the first open barrier of its id that is not full. -/
theorem countArrival_append {id : Word} (n : Nat) (fr : FrameNo) {l : List OpenBarrier} (r : List OpenBarrier) {b : OpenBarrier}
    (other : ∀ c ∈ l, c.id ≠ id) (same : b.id = id) (room : b.full = none) : countArrival id n fr (l ++ b :: r) =
      l ++ { b with who := b.who ++ [n], full := if b.parts ≤ b.who.length + 1 then some fr else none } :: r := by
  induction l with
  | nil => simp [countArrival, same, room]
  | cons c l ih =>
    obtain ⟨hc, hl⟩ := List.forall_mem_cons.1 other
    simp [countArrival, hc, ih hl]

/-- An arrival on the device, as it stands in the list of open barriers and in its descriptor. -/
def State.arrivedOn (s : State) (n : Nat) (l : List OpenBarrier) : State :=
  { s with ord := { s.ord with barriers := l } }.modDesc n fun e => { e with arrived := some s.frm.count }

theorem State.arrived_arrivedOn {s : State} {n : Nat} {d : Desc} (is : s.desc? n = some d) (l : List OpenBarrier) :
    ((s.arrivedOn n l).desc? n).any (fun e => e.arrived == some s.frm.count) = true := by
  have arrived : (s.arrivedOn n l).desc? n = some { d with arrived := some s.frm.count } :=
    State.desc?_modDesc_self (s := { s with ord := { s.ord with barriers := l } }) is fun _ => rfl
  rw [arrived]
  simp

/-- The first arrival of an id opens a barrier, full at once where it is the only one, and the 65th open id is refused (R95). -/
theorem State.arriveDevice_new {s : State} {d : Desc} (fresh : ∀ b ∈ s.ord.barriers, b.id ≠ wd (u32 d.bytes 16)) :
    s.arriveDevice d = if 64 ≤ (openIds s.ord.barriers).length then s.barrierRefused d 16 else s.arrivedOn d.acc (s.ord.barriers ++
      [⟨wd (u32 d.bytes 16), u8 d.bytes 20, [d.acc], if u8 d.bytes 20 ≤ 1 then some s.frm.count else none⟩]) := by
  have none_open : s.ord.barriers.find? (fun b => b.id == wd (u32 d.bytes 16)) = none :=
    List.find?_eq_none.2 fun b hb => by simpa using fresh b hb
  rw [State.arriveDevice, none_open]
  dsimp only
  rw [countArrival_append _ _ _ fresh rfl rfl]
  rfl

/-- A further arrival joins the open barrier of its id, and one of another number is refused (R94, R95). -/
theorem State.arriveDevice_open {s : State} {d : Desc} {l r : List OpenBarrier} {b : OpenBarrier} (bars : s.ord.barriers = l ++ b :: r)
    (other : ∀ c ∈ l, c.id ≠ wd (u32 d.bytes 16)) (same : b.id = wd (u32 d.bytes 16)) :
    (b.parts ≠ u8 d.bytes 20 → s.arriveDevice d = s.barrierRefused d 20) ∧
    (b.parts = u8 d.bytes 20 → b.full = none → s.arriveDevice d = s.arrivedOn d.acc (l ++ { b with
      who := b.who ++ [d.acc], full := if u8 d.bytes 20 ≤ b.who.length + 1 then some s.frm.count else none } :: r)) := by
  have found : s.ord.barriers.find? (fun c => c.id == wd (u32 d.bytes 16)) = some b := by
    rw [bars, List.find?_append, List.find?_eq_none.2 (by simpa using other)]
    simp [same]
  refine ⟨fun differs => ?_, fun agrees room => ?_⟩
  · rw [State.arriveDevice, found]
    exact if_pos differs
  · have joins : s.ord.barriers.any (fun c => c.id == wd (u32 d.bytes 16) && c.full.isNone) = true := by
      simp [bars, same, room]
    rw [State.arriveDevice, found]
    dsimp only
    rw [if_neg (not_not.2 agrees), if_pos joins, bars, countArrival_append _ _ _ other same room, agrees]
    rfl

/-- A full barrier of an earlier frame, the only one that is open, is released (R94). -/
theorem exec_barrierRelease_full {s : State} {b : OpenBarrier} {f : FrameNo} (bars : s.ord.barriers = [b]) (full : b.full = some f)
    (past : frameLt f s.frm.count = true) :
    exec (.barrierRelease b.id) s = .next ({ s with ord := { s.ord with barriers := [] } }.releaseAll b.who) := by
  show execBarrierRelease b.id s = _
  simp [execBarrierRelease, bars, full, past]

theorem exec_barrierRelease_none {s : State} {i : Word}
    (stays : ∀ b ∈ s.ord.barriers, b.id = i → b.full.any (fun f => frameLt f s.frm.count) = false) :
    exec (.barrierRelease i) s = .next s := by
  have none_due : s.ord.barriers.find? (fun b => b.id == i && b.full.any fun f => frameLt f s.frm.count) = none :=
    List.find?_eq_none.2 fun b hb due => by
      obtain ⟨same, past⟩ := Bool.and_eq_true_iff.1 due
      rw [stays b hb (beq_iff_eq.1 same)] at past
      exact absurd past Bool.false_ne_true
  show execBarrierRelease i s = _
  rw [execBarrierRelease, none_due]

/-- Settles O24, command by command. -/
theorem fencesAndBarriers : Obligations.FencesAndBarriers := by
  unfold Obligations.FencesAndBarriers
  refine ⟨⟨fun s n d due => ?_, fun s n d is op effect begun => ?_, fun s n gone => ⟨?_, exec_fenceComplete_none gone⟩⟩,
    fun s n d due => ?_, fun s n d is op waits first done => ?_, fun s b f bars full past => exec_barrierRelease_full bars full past,
    fun s i stays => exec_barrierRelease_none stays⟩
  · exact congrArg Host.Outcome.next (State.withEffect_of_due due (· == 9) rfl fun t _ => t)
  · have waits : d.waits = true := by simp [Desc.waits, effect, begun]
    rw [exec_fenceComplete is op waits]
    refine ⟨fun done => by rw [if_pos (State.doneBefore_iff.2 done)], fun e he on before open_ loud => ?_⟩
    rw [if_neg fun done => ?_]
    rcases State.doneBefore_iff.1 done e he on before with h | h
    · exact open_ h
    · exact absurd (h.symm.trans loud) (by decide)
  · exact congrArg Host.Outcome.next (State.withEffect_none gone (· == 9) fun t _ => t)
  · exact congrArg Host.Outcome.next (State.withEffect_of_due due (· == 0xA) rfl fun t _ => t)
  · have runs := exec_barrierArrive is op waits first done
    have arrived := State.arrived_arrivedOn is
    have acc := State.acc_of_desc? is
    subst acc
    refine ⟨fun device fresh => ?_, fun device l r b bars other same => ?_, fun line => ?_⟩
    · rw [if_neg device, State.arriveDevice_new fresh] at runs
      refine ⟨fun room => ?_, fun none_left => runs.trans (congrArg _ (if_pos none_left))⟩
      exact completes_of_exec (runs.trans (congrArg _ (if_neg (Nat.not_le.2 room)))) ⟨rfl, arrived _, rfl⟩
    · obtain ⟨refused, joins⟩ := State.arriveDevice_open bars other same
      rw [if_neg device] at runs
      refine ⟨fun agrees room => ?_, fun differs => runs.trans (congrArg _ (refused differs))⟩
      exact completes_of_exec (runs.trans (congrArg _ (joins agrees room))) ⟨by rw [agrees]; rfl, arrived _, rfl⟩
    · rw [if_pos line] at runs
      refine ⟨fun connected => ?_, fun cut => runs.trans (congrArg _ (if_pos cut))⟩
      exact completes_of_exec (runs.trans (congrArg _ (if_neg connected))) ⟨rfl, arrived s.ord.barriers, rfl⟩

end Sys2Proof.Machine
end

section
/-! SUPPORT. The obligation of what a due descriptor does as it takes effect, and of what a replacing one ends, with the rules about the
operations that end a descriptor and about those that move the axes alone. -/

namespace Sys2Proof.Machine

open Safety

/-! ### The end of a descriptor (R83, R102) -/

/-- Descriptor `n` has ended: it has left the device or waits with its record, and no other has moved. -/
structure Ended (n : Nat) (s t : State) : Prop where
  each : ∀ e ∈ t.ord.descs, (e ∈ s.ord.descs ∧ e.acc ≠ n) ∨ (e.acc = n ∧ e.stage = .recordWaits)

theorem Ended.of_ord {n : Nat} {s t u : State} (h : Ended n s t) (ord : u.ord = t.ord) : Ended n s u :=
  ⟨fun e he => h.each e (ord ▸ he)⟩

theorem State.dropDesc_ended (s : State) (n : Nat) : Ended n s (s.dropDesc n) := by
  refine ⟨fun e he => ?_⟩
  obtain ⟨stood, other⟩ := List.mem_filter.1 he
  exact .inl ⟨stood, by simpa using other⟩

theorem State.keepOf_ended (s : State) (n : Nat) : Ended n s (s.keepOf (some n)) := by
  refine ⟨fun e he => ?_⟩
  obtain ⟨c, stood, rfl⟩ := List.mem_map.1 he
  by_cases own : c.acc = n
  · rw [if_pos own]
    exact .inr ⟨own, rfl⟩
  · rw [if_neg own]
    exact .inl ⟨stood, own⟩

theorem State.produce_ended (s : State) (q : RingId) {r : Rec} {n : Nat} (of : r.desc = some n) : Ended n s (s.produce q r) := by
  have dropped : Ended n s (s.dropOf (some n)) := s.dropDesc_ended n
  have kept := s.keepOf_ended n
  unfold State.produce
  rw [of]
  split
  · split
    · split
      · exact kept.of_ord (State.modCq_ord ..)
      · exact dropped.of_ord (State.putRec_ord ..)
    · split
      · exact kept.of_ord (tells_hold ..).ord
      · exact dropped.of_ord (tells_hold ..).ord
  · exact dropped

theorem State.moveFeed_ord (s : State) (xs : List AxisId) (starts : List Int) : (s.moveFeed xs starts).ord = s.ord :=
  State.forAll_proj State.ord (f := fun s (p : AxisId × Int) =>
    if s.wb.table.minMove ≤ (s.tickPos p.1 - p.2).natAbs then
      { s with wb := { s.wb with sb := { s.wb.sb with moves := s.wb.sb.moves.set p.1 ((s.wb.sb.moves.getD p.1 0 + 1) % 2 ^ 48) } } }
    else s) (fun _ _ => by split <;> rfl) s

/-- A descriptor that completes has ended. -/
theorem State.finish_ended (s : State) (d : Desc) (status : Nat) (d0 d1 : Word) (fr : FrameNo) :
    Ended d.acc s (s.finish d status d0 d1 fr) := by
  unfold State.finish
  extract_lets s1 s2 s3
  have gone : Ended d.acc s s1 := by
    unfold s1
    split
    · exact s.dropDesc_ended d.acc
    · exact s.produce_ended d.ring rfl
  have fed : s3.ord = s1.ord := by
    unfold s3
    split
    · rw [State.moveFeed_ord, (tells_finishEvents ..).ord]
    · exact (tells_finishEvents ..).ord
  refine gone.of_ord ?_
  split
  · exact (State.forAll_proj State.ord (fun t x => (State.camHead_ord ..).trans (State.queueLow_ord ..)) s3).trans fed
  · exact fed

theorem State.finishOk_ended (s : State) (d : Desc) (d0 d1 : Word) (fr : FrameNo) : Ended d.acc s (s.finishOk d d0 d1 fr) := by
  unfold State.finishOk
  split <;> exact State.finish_ended ..

theorem State.finishRejected_ended (s : State) (d : Desc) (fr : FrameNo) (rejected : d.rej.isSome = true) :
    Ended d.acc s (s.finishRejected d fr) := by
  obtain ⟨r, hr⟩ := Option.isSome_iff_exists.1 rejected
  rw [State.finishRejected, hr]
  exact State.finish_ended ..

theorem State.rejectMode_ended (s : State) (d : Desc) (code : Nat) (fr : FrameNo) : Ended d.acc s (s.rejectMode d code fr) := by
  have ended := s.finish_ended d 5 1 (wd code) fr
  unfold State.rejectMode
  extract_lets s1
  split
  · exact ended
  · exact ended.of_ord (tells_forAll _ _ (fun t u => tells_raiseAt ..) s1).ord

theorem State.finishHead_ended (s : State) (d : Desc) (status : Nat) (d0 d1 : Word) (fr : FrameNo) :
    Ended d.acc s (s.finishHead d status d0 d1 fr) := by
  unfold State.finishHead
  split
  · exact State.rejectMode_ended ..
  · exact State.finish_ended ..

theorem State.release_ord (s : State) (d : Desc) : (s.release d).ord = s.ord :=
  State.forAll_proj State.ord (fun t x => State.modAx_ord t x _) s

/-- What a replacing descriptor ends has ended (R90). -/
theorem State.endOne_ended (s : State) (d e : Desc) (x : AxisId) (fr : FrameNo) : Ended e.acc s (s.endOne d e x fr) := by
  unfold State.endOne
  extract_lets pos
  split
  · split
    · exact (State.finishOk_ended ..).of_ord (State.release_ord ..)
    · exact (State.finish_ended ..).of_ord (State.release_ord ..)
  · split
    · split
      · exact State.finish_ended ..
      · split
        next rejected => exact State.finishRejected_ended _ _ _ rejected
        next => exact State.finish_ended ..
    · exact State.finish_ended ..

/-- A descriptor that leaves with its outcome has ended (R83, R102). -/
theorem State.leave_ended (s : State) {d : Desc} (out : d.out.isSome = true) : Ended d.acc s (s.leave d) := by
  obtain ⟨⟨st, d0, d1⟩, ho⟩ := Option.isSome_iff_exists.1 out
  rw [State.leave, ho]
  dsimp only
  split
  · exact ⟨((s.incReg Adr.GRN_REFCNT).finishHead_ended d st d0 d1 s.frm.count).each⟩
  · exact s.finishHead_ended d st d0 d1 _

/-! ### What a replacing descriptor leaves active (R90) -/

/-- Every descriptor that is active in `t` was so in `s`. -/
structure Sheds (s t : State) : Prop where
  stood : ∀ e ∈ t.ord.descs, e.active = true → e ∈ s.ord.descs

theorem Sheds.refl (s : State) : Sheds s s := ⟨fun _ he _ => he⟩

theorem Sheds.trans {s t u : State} (h : Sheds s t) (k : Sheds t u) : Sheds s u :=
  ⟨fun e he active => h.stood e (k.stood e he active) active⟩

theorem Sheds.forAll {α : Type} {l : List α} {f : State → α → State} (h : ∀ t a, Sheds t (f t a)) (s : State) :
    Sheds s (s.forAll l f) :=
  State.forAll_keeps (Sheds s) (fun t a k => k.trans (h t a)) (.refl s)

theorem Ended.sheds {n : Nat} {s t : State} (h : Ended n s t) : Sheds s t := by
  refine ⟨fun e he active => ?_⟩
  rcases h.each e he with ⟨stood, _⟩ | ⟨_, waits⟩
  · exact stood
  · simp [Desc.active, waits] at active

/-- No active descriptor has the number `n`. -/
def State.idle (s : State) (n : Nat) : Prop := ∀ e ∈ s.ord.descs, e.active = true → e.acc ≠ n

theorem State.idle.sheds {s t : State} {n : Nat} (h : s.idle n) (k : Sheds s t) : t.idle n :=
  fun e he active => h e (k.stood e he active) active

theorem Ended.idle {n : Nat} {s t : State} (h : Ended n s t) : t.idle n := by
  intro e he active
  rcases h.each e he with ⟨_, other⟩ | ⟨_, waits⟩
  · exact other
  · simp [Desc.active, waits] at active

/-- Every descriptor of a list that is ended has ended. -/
theorem State.endAll_idle (s : State) (d : Desc) (x : AxisId) (fr : FrameNo) (l : List Desc) :
    ∀ e ∈ l, (s.forAll l fun u e => u.endOne d e x fr).idle e.acc :=
  State.forAll_reaches (fun e t => t.idle e.acc) (f := fun u e => u.endOne d e x fr) (fun t e => (t.endOne_ended d e x fr).idle)
    (fun t e c (h : t.idle c.acc) => h.sheds (t.endOne_ended d e x fr).sheds) s

theorem State.endAll_sheds (s : State) (d : Desc) (x : AxisId) (fr : FrameNo) (l : List Desc) :
    Sheds s (s.forAll l fun u e => u.endOne d e x fr) := .forAll (fun t e => (t.endOne_ended d e x fr).sheds) s

/-- Of what was accepted before `n`, nothing is active on axis `x` but what a replacing descriptor waits for (R90). -/
def State.yields (s : State) (n : Nat) (x : AxisId) : Prop :=
  ∀ e ∈ s.queueOf x, n ≤ e.acc ∨ (e.stage = .effect ∧ e.kept = true)

theorem State.mem_queueOf {s : State} {x : AxisId} {e : Desc} :
    e ∈ s.queueOf x ↔ e ∈ s.ord.descs ∧ e.active = true ∧ e.axes.contains x = true := by
  rw [State.queueOf, List.mem_filter, Bool.and_eq_true]

theorem State.yields.sheds {s t : State} {n : Nat} {x : AxisId} (h : s.yields n x) (k : Sheds s t) : t.yields n x := by
  intro e he
  obtain ⟨stands, active, joins⟩ := State.mem_queueOf.1 he
  exact h e (State.mem_queueOf.2 ⟨k.stood e stands active, active, joins⟩)

/-- What a replacing descriptor ends on one of its axes. -/
def State.supersedeOn (s : State) (d : Desc) (fr : FrameNo) (x : AxisId) : State :=
  let before := (s.queueOf x).filter fun e => decide (e.acc < d.acc)
  let t := s.forAll (before.filter fun e => e.stage == .queued) fun u e => u.endOne d e x fr
  t.forAll (before.filter fun e => e.stage == .effect && !e.kept) fun u e => u.endOne d e x fr

theorem State.supersede_eq (s : State) (d : Desc) (fr : FrameNo) :
    s.supersede d fr = s.forAll d.axes fun t x => t.supersedeOn d fr x := rfl

theorem State.supersedeOn_sheds (s : State) (d : Desc) (fr : FrameNo) (x : AxisId) : Sheds s (s.supersedeOn d fr x) :=
  (s.endAll_sheds ..).trans (State.endAll_sheds ..)

theorem State.supersedeOn_yields (s : State) (d : Desc) (fr : FrameNo) (x : AxisId) : (s.supersedeOn d fr x).yields d.acc x := by
  intro e he
  obtain ⟨stands, active, joins⟩ := State.mem_queueOf.1 he
  have before (early : e.acc < d.acc) : e ∈ (s.queueOf x).filter fun e => decide (e.acc < d.acc) :=
    List.mem_filter.2 ⟨State.mem_queueOf.2 ⟨(s.supersedeOn_sheds d fr x).stood e stands active, active, joins⟩, decide_eq_true early⟩
  refine (Nat.lt_or_ge e.acc d.acc).symm.imp id fun early => ?_
  have late : e.stage ≠ .queued := fun queued => by
    have ended : e ∈ ((s.queueOf x).filter fun e => decide (e.acc < d.acc)).filter fun e => e.stage == .queued :=
      List.mem_filter.2 ⟨before early, by rw [queued]; rfl⟩
    exact ((s.endAll_idle d x fr _ e ended).sheds (State.endAll_sheds ..)) e stands active rfl
  have effect : e.stage = .effect := by simpa [Desc.active, late] using active
  refine ⟨effect, by_contra fun notKept => ?_⟩
  have ended : e ∈ ((s.queueOf x).filter fun e => decide (e.acc < d.acc)).filter fun e => e.stage == .effect && !e.kept :=
    List.mem_filter.2 ⟨before early, by simp [effect, notKept]⟩
  exact State.endAll_idle _ d x fr _ e ended e stands active rfl

theorem State.supersede_yields (s : State) (d : Desc) (fr : FrameNo) : ∀ x ∈ d.axes, (s.supersede d fr).yields d.acc x :=
  State.forAll_reaches (fun x t => t.yields d.acc x) (fun t x => t.supersedeOn_yields d fr x)
    (fun t x _ h => h.sheds (t.supersedeOn_sheds d fr x)) s

/-! ### The frame of effect (R90, R104) -/

theorem State.yields.modDesc_self {s : State} {n : Nat} {x : AxisId} (h : s.yields n x) {f : Desc → Desc}
    (keeps : ∀ e, (f e).acc = e.acc) : (s.modDesc n f).yields n x := by
  intro e he
  obtain ⟨stands, active, joins⟩ := State.mem_queueOf.1 he
  obtain ⟨c, stood, rfl⟩ := List.mem_map.1 stands
  by_cases own : c.acc = n
  · rw [if_pos own]
    exact .inl (Nat.le_of_eq (own.symm.trans (keeps c).symm))
  · rw [if_neg own] at active joins ⊢
    exact h c (State.mem_queueOf.2 ⟨stood, active, joins⟩)

/-- A replacing descriptor leaves nothing active before it on its axes but what it waits for (R90). -/
theorem State.replaceNow_yields (s : State) {d : Desc} (repl : d.repl = true) : ∀ x ∈ d.axes, (s.replaceNow d).yields d.acc x := by
  intro x joins
  rw [State.replaceNow, if_pos repl]
  exact (s.supersede_yields d s.frm.count x joins).modDesc_self fun _ => rfl

/-- The fault of axis `x` is cleared where descriptor `d` may clear it (R104). -/
def State.clearOn (s : State) (d : Desc) (x : AxisId) : State :=
  if (s.ax.get x).tt.faulted.any fun f => d.clears f then s.clearFault x else s

/-- The faults of the axes of a descriptor that it may clear are cleared (R104). -/
def State.clearFor (s : State) (d : Desc) : State := s.forAll d.axes fun t x => t.clearOn d x

/-- What a descriptor does with its frame of effect: it ends what it replaces, clears what faults it may, and leaves with its outcome. -/
theorem State.settle_eq {s : State} {n : Nat} {d : Desc} (is : s.desc? n = some d) :
    s.settle n = ((s.replaceNow d).clearFor d).leave d := by
  rw [State.settle, is]
  rfl

theorem State.clearOn_ord (s : State) (d : Desc) (x : AxisId) : (s.clearOn d x).ord = s.ord := by
  unfold State.clearOn
  split <;> rfl

theorem State.clearFor_ord (s : State) (d : Desc) : (s.clearFor d).ord = s.ord :=
  State.forAll_proj State.ord (fun t x => t.clearOn_ord d x) s

theorem State.leave_sheds (s : State) (d : Desc) : Sheds s (s.leave d) := by
  cases out : d.out with
  | some r => exact (s.leave_ended (by rw [out]; rfl)).sheds
  | none =>
    rw [State.leave, out]
    exact .refl s

theorem State.faultOn_clearOn (s : State) (d : Desc) (x y : AxisId) :
    (s.clearOn d x).faultOn y = none ∨ (s.clearOn d x).faultOn y = s.faultOn y := by
  unfold State.clearOn
  split
  · by_cases own : y = x
    · subst own
      exact .inl (State.faultOn_modAx_self ..)
    · exact .inr (State.faultOn_modAx_ne _ _ own)
  · exact .inr rfl

theorem State.faultOn_clearOn_self (s : State) (d : Desc) (x : AxisId) : ((s.clearOn d x).faultOn x).any d.clears = false := by
  unfold State.clearOn
  split
  · rw [State.clearFault, State.modTt, State.faultOn_modAx_self]
    rfl
  · next stays => exact Bool.eq_false_iff.2 stays

/-- A fault that the descriptor may clear is cleared on each of its axes. -/
theorem State.faultOn_clearFor (s : State) {d : Desc} {x : AxisId} (joins : x ∈ d.axes) {f : FaultInfo} (fault : s.faultOn x = some f)
    (clears : d.clears f = true) : (s.clearFor d).faultOn x = none := by
  have left : (s.clearFor d).faultOn x = none ∨ (s.clearFor d).faultOn x = some f :=
    State.forAll_keeps (fun t => t.faultOn x = none ∨ t.faultOn x = some f) (f := fun t y => t.clearOn d y) (fun t y h => by
      rcases t.faultOn_clearOn d y x with e | e
      · exact .inl e
      · rw [e]; exact h) (.inr fault)
  have cleared : ((s.clearFor d).faultOn x).any d.clears = false :=
    State.forAll_reaches (fun x t => (t.faultOn x).any d.clears = false) (f := fun t y => t.clearOn d y)
      (fun t y => t.faultOn_clearOn_self d y)
      (fun t y z h => by
        rcases t.faultOn_clearOn d y z with e | e
        · rw [e]; rfl
        · rw [e]; exact h) s x joins
  refine left.resolve_right fun stays => ?_
  rw [stays, Option.any_some, clears] at cleared
  exact absurd cleared (by decide)

theorem State.faultOn_finishOk (s : State) (d : Desc) (d0 d1 : Word) (fr : FrameNo) (y : AxisId) :
    (s.finishOk d d0 d1 fr).faultOn y = s.faultOn y := by
  unfold State.finishOk
  split <;> exact State.faultOn_finish ..

theorem State.faultOn_finishHead (s : State) (d : Desc) (status : Nat) (d0 d1 : Word) (fr : FrameNo) (y : AxisId) :
    (s.finishHead d status d0 d1 fr).faultOn y = s.faultOn y := by
  unfold State.finishHead
  split
  · unfold State.rejectMode
    extract_lets s1
    have ended : s1.faultOn y = s.faultOn y := State.faultOn_finish ..
    split
    · exact ended
    · exact (State.faultOn_of_ax (tells_forAll _ _ (fun t u => tells_raiseAt ..) s1).ax y).trans ended
  · exact State.faultOn_finish ..

theorem State.faultOn_endOne (s : State) (d e : Desc) (x : AxisId) (fr : FrameNo) (y : AxisId) :
    (s.endOne d e x fr).faultOn y = s.faultOn y := by
  unfold State.endOne
  extract_lets pos
  split
  · split
    · exact (State.faultOn_release ..).trans (State.faultOn_finishOk ..)
    · exact (State.faultOn_release ..).trans (State.faultOn_finish ..)
  · split
    · split
      · exact State.faultOn_finish ..
      · split
        · exact State.faultOn_finishRejected ..
        · exact State.faultOn_finish ..
    · exact State.faultOn_finish ..

theorem State.faultOn_replaceNow (s : State) (d : Desc) (y : AxisId) : (s.replaceNow d).faultOn y = s.faultOn y := by
  unfold State.replaceNow
  split
  · rw [State.faultOn_of_ax (State.modDesc_ax ..), State.supersede_eq]
    refine State.faultOn_forAll (fun t x => ?_) s
    exact (State.faultOn_forAll (fun u e => u.faultOn_endOne ..) _).trans (State.faultOn_forAll (fun u e => u.faultOn_endOne ..) t)
  · rfl

theorem State.faultOn_leave (s : State) (d : Desc) (y : AxisId) : (s.leave d).faultOn y = s.faultOn y := by
  unfold State.leave
  split
  · split <;> exact State.faultOn_finishHead ..
  · rfl

/-! ### What moves the axes alone -/

/-- Nothing but the axes has moved. -/
structure AxesMove (s t : State) : Prop where
  eqn : t = { s with ax := t.ax }

theorem AxesMove.refl (s : State) : AxesMove s s := ⟨rfl⟩

theorem AxesMove.trans {s t u : State} (h : AxesMove s t) (k : AxesMove t u) : AxesMove s u := ⟨by rw [k.eqn, h.eqn]⟩

theorem AxesMove.modAx (s : State) (x : AxisId) (f : Axis → Axis) : AxesMove s (s.modAx x f) := ⟨rfl⟩

theorem AxesMove.modTt (s : State) (x : AxisId) (f : TtState → TtState) : AxesMove s (s.modTt x f) := ⟨rfl⟩

theorem AxesMove.forAll {α : Type} {l : List α} {f : State → α → State} (h : ∀ t a, AxesMove t (f t a)) (s : State) :
    AxesMove s (s.forAll l f) := State.forAll_keeps (AxesMove s) (fun t a k => k.trans (h t a)) (.refl s)

/-- An event of the next frame waits with its axis until that frame's tick (R145). -/
theorem State.limitClipped_moves (s : State) (x : AxisId) (d0 : Int) (cause : Nat) (high : Bool) :
    AxesMove s (s.limitClipped x d0 cause high) := by
  have next : s.frm.count + 1 ≠ s.frm.count := by simp
  rw [State.limitClipped, State.tellAt, if_neg next]
  exact .modAx ..

theorem State.planProfile_moves (s : State) (x : AxisId) : AxesMove s (s.planProfile x) := by
  unfold State.planProfile
  extract_lets a t pl
  split
  · exact .modTt ..
  · split <;> exact .modTt ..
  · exact .modTt ..
  · extract_lets u
    split
    · exact (State.limitClipped_moves ..).trans (.modTt ..)
    · exact .modTt ..

theorem State.stopFrom_moves (s : State) (x : AxisId) (new old : Limits) (park : Bool) : AxesMove s (s.stopFrom x new old park) := by
  unfold State.stopFrom
  extract_lets a t lo hi within past l p s1
  have clipped : AxesMove s s1 := by
    unfold s1
    split
    · exact State.limitClipped_moves ..
    · exact .refl s
  exact (clipped.trans (.modAx ..)).trans (State.planProfile_moves ..)

theorem State.stopStored_moves (s : State) (x : AxisId) (park : Bool) : AxesMove s (s.stopStored x park) := by
  unfold State.stopStored State.stopMotion
  exact (State.stopFrom_moves ..).trans (.modTt ..)

theorem State.stopOthers_moves (s : State) (d : Desc) (but : List AxisId) : AxesMove s (s.stopOthers d but) := by
  unfold State.stopOthers
  split
  · refine .forAll (fun t x => ?_) s
    split
    · split
      · exact State.stopStored_moves ..
      · exact .refl t
    · exact .refl t
  · exact .refl s

theorem State.keepAxis_moves (s : State) (d : Desc) (x : AxisId) : AxesMove s (s.keepAxis d x) := .modAx ..

/-! ### Taking effect (R86, R90) -/

/-- Descriptor `n` stands as it stood, and nothing but the axes and other descriptors has moved. -/
structure Prepares (n : Nat) (s t : State) : Prop where
  eqn : t = { s with ax := t.ax, ord := t.ord }
  same : t.desc? n = s.desc? n

theorem Prepares.refl (n : Nat) (s : State) : Prepares n s s := ⟨rfl, rfl⟩

theorem Prepares.trans {n : Nat} {s t u : State} (h : Prepares n s t) (k : Prepares n t u) : Prepares n s u :=
  ⟨by rw [k.eqn, h.eqn], k.same.trans h.same⟩

theorem AxesMove.prepares {s t : State} (h : AxesMove s t) (n : Nat) : Prepares n s t :=
  ⟨by rw [h.eqn], by rw [h.eqn]; rfl⟩

/-- What a descriptor is going to end is told so, or stops on the axes that are left to it (R90, R122, R156). -/
theorem State.endAhead_prepares (s : State) (d : Desc) {e : Desc} (other : e.acc ≠ d.acc) : Prepares d.acc s (s.endAhead d e) := by
  unfold State.endAhead
  split
  · exact ⟨rfl, State.desc?_modDesc_ne s other fun _ => rfl⟩
  · have kept : AxesMove s ((e.members.filter fun x => !d.axes.contains x).foldl (fun t x => t.keepAxis d x) s) :=
      .forAll (fun t x => t.keepAxis_moves d x) s
    exact (kept.trans (State.stopOthers_moves ..)).prepares d.acc

theorem State.ends_other {s : State} {d e : Desc} (h : e ∈ s.ends d) : e.acc ≠ d.acc := by
  have ended := (List.mem_filter.1 h).2
  simp only [Bool.and_eq_true, bne_iff_ne] at ended
  obtain ⟨⟨⟨-, other⟩, -⟩, -⟩ := ended
  exact other

theorem State.get_modAx_ne (s : State) {x y : AxisId} (f : Axis → Axis) (ne : y ≠ x) : (s.modAx x f).ax.get y = s.ax.get y := by
  rw [State.modAx_ax, vector_get_set_ne _ _ ne]

/-- The axes of a descriptor's queues are among those that its effect reaches. -/
theorem Desc.touches_of_axes {d : Desc} {x : AxisId} (joins : x ∈ d.axes) : x ∈ d.touches := by
  unfold Desc.touches
  split
  next queueless => exact absurd (queueless.1 ▸ joins) List.not_mem_nil
  next => exact joins

/-- What a descriptor does before it takes effect moves only axes and other descriptors, and where it replaces nothing, only axes that
it touches. -/
theorem State.takeOver_prepared (s : State) (d : Desc) : ∃ u, Prepares d.acc s u ∧
    s.takeOver d = (u.takeEffect d).modDesc d.acc (fun e => { e with starts := d.axes.map s.posOf, repl := d.replaces }) ∧
    (d.replaces = false → ∀ x ∉ d.touches, u.ax.get x = s.ax.get x) := by
  unfold State.takeOver
  extract_lets s1 s2 s3
  have kept : AxesMove s s1 := .forAll (fun t x => t.keepAxis_moves d x) s
  have told : Prepares d.acc s s2 := by
    refine (kept.prepares d.acc).trans ?_
    unfold s2
    split
    · have each : ∀ e ∈ s.ends d, ∀ t, Prepares d.acc t (t.endAhead d e) := fun e he t => t.endAhead_prepares d (State.ends_other he)
      exact List.foldlRecOn _ _ (.refl d.acc s1) fun t h e he => h.trans (each e he t)
    · exact .refl d.acc s1
  have marked : AxesMove s2 s3 := by
    unfold s3
    split
    · exact .forAll (fun t x => .modTt ..) s2
    · exact .refl s2
  refine ⟨s3, told.trans (marked.prepares d.acc), rfl, fun alone x apart => ?_⟩
  have h1 : s1.ax.get x = s.ax.get x :=
    State.forAll_proj_mem (fun t => t.ax.get x) (f := fun t y => t.keepAxis d y)
      (fun t y touched => State.get_modAx_ne t _ fun own => apart (own ▸ touched)) s
  have h2 : s2 = s1 := if_neg (by simp [alone])
  have h3 : s3.ax.get x = s2.ax.get x := by
    unfold s3
    split
    · exact State.forAll_proj_mem (fun t => t.ax.get x) (f := fun t y => t.modTt y fun u => { u with runRing := some d.ring })
        (fun t y joins => State.get_modAx_ne t _ fun own => apart (own ▸ Desc.touches_of_axes joins)) s2
    · rfl
  rw [h3, h2, h1]

/-- A descriptor that takes effect in the next frame (R86). -/
def Desc.taken (d : Desc) (eff : FrameNo) (starts : List Int) : Desc :=
  { d with stage := .effect, eff := eff, begun := false, starts := starts, repl := d.replaces }

/-- Taking effect moves only the axes and the descriptors, and where it replaces nothing, only the axes that it touches (R86). -/
theorem State.takeOver_does {s : State} {d : Desc} (is : s.desc? d.acc = some d) :
    s.takeOver d = { s with ax := (s.takeOver d).ax, ord := (s.takeOver d).ord } ∧
    (s.takeOver d).desc? d.acc = some (d.taken (s.frm.count + 1) (d.axes.map s.posOf)) ∧
    (d.replaces = false → ∀ x ∉ d.touches, (s.takeOver d).ax.get x = s.ax.get x) := by
  obtain ⟨u, ready, taken, apart⟩ := s.takeOver_prepared d
  have frame : u.frm = s.frm := by rw [ready.eqn]
  have effect : (u.takeEffect d).desc? d.acc = some { d with stage := .effect, eff := u.frm.count + 1, begun := false } :=
    State.desc?_modDesc_self (ready.same.trans is) fun _ => rfl
  rw [taken]
  refine ⟨?_, ?_, apart⟩
  · rw [ready.eqn]
    rfl
  · rw [← frame]
    exact State.desc?_modDesc_self effect fun _ => rfl

/-! ### The Granary's grant (R331, R333, R334) -/

/-- The hold factors of the pools are set. -/
def State.withHold (s : State) (ghs : List Nat) : State :=
  s.forAll (allFin 7) fun t p => t.modPool p fun q => { q with gh := ghs.getD p q.gh }

theorem State.withHold_eqn (s : State) (ghs : List Nat) : s.withHold ghs = { s with pool := (s.withHold ghs).pool } :=
  State.forAll_keeps (fun t => t = { s with pool := t.pool })
    (fun _ p h => (congrArg (fun t : State => t.modPool p fun q => { q with gh := ghs.getD p q.gh }) h).trans rfl) rfl

theorem State.desc?_withHold (s : State) (ghs : List Nat) (n : Nat) : (s.withHold ghs).desc? n = s.desc? n := by
  have ord : (s.withHold ghs).ord = s.ord := State.forAll_proj State.ord (fun t p => State.modPool_ord t p _) s
  rw [State.desc?, ord, State.desc?]

/-- Event 15 tells of a held descriptor (R334). -/
def State.tellHeld (s : State) (d : Desc) (u : Nat) (w0 w1 : Word) : State :=
  (s.raise 15 u w0 w1).modDesc d.acc fun e => { e with holdTold := true }

/-- A grant, where the descriptor needs one, sets the hold factors and stands in the descriptor; one that was held is first told so. -/
theorem State.decideOne_granted {s t : State} {d : Desc} (decided : s.decideOne d = (t, .granted)) :
    (s.needsGrant d = false ∧ t = s) ∨
    ∃ ghs u w0 w1, t = ((if d.held.isSome = true ∧ ¬ d.holdTold = true then s.tellHeld d u w0 w1 else s).withHold ghs).modDesc d.acc
        fun e => { e with grantAt := some (s.frm.count + 1) } := by
  unfold State.decideOne at decided
  extract_lets j l xs timed waits at decided
  by_cases needs : s.needsGrant d = true
  · rw [if_neg (not_not.2 needs)] at decided
    generalize (if waits = true then (s.ghs, false) else s.lowerGh xs l 128 s.ghs) = p at decided
    obtain ⟨ghs, ok⟩ := p
    dsimp only at decided
    split at decided
    · obtain ⟨rfl, -⟩ := Prod.mk.inj decided
      exact .inr ⟨ghs, _, _, _, rfl⟩
    · exfalso
      split at decided
      · exact nomatch (Prod.mk.inj decided).2
      · split at decided <;> exact nomatch (Prod.mk.inj decided).2
  · rw [if_pos needs] at decided
    exact .inl ⟨Bool.eq_false_iff.2 needs, (Prod.mk.inj decided).1.symm⟩

/-- What a grant moves: the descriptors, the pools, and where the descriptor was held and is first told so, what event 15 moves. -/
structure Grants (s : State) (d : Desc) (t : State) : Prop where
  moves : ∃ r, Tells s r ∧ t = { r with ord := t.ord, pool := t.pool } ∧ (d.held.isNone = true ∨ d.holdTold = true → r = s) ∧
    (s.needsGrant d = true → d.held.isSome = true → d.holdTold = false → r.rb Adr.EVT_PEND_LO 15 = true)
  desc : ∃ g h, t.desc? d.acc = some { d with grantAt := g, holdTold := h }

theorem State.decideOne_grants {s t : State} {d : Desc} (is : s.desc? d.acc = some d) (decided : s.decideOne d = (t, .granted)) :
    Grants s d t := by
  rcases State.decideOne_granted decided with ⟨free, rfl⟩ | ⟨ghs, u, w0, w1, rfl⟩
  · exact ⟨⟨t, .refl t, rfl, fun _ => rfl, fun needs => absurd (needs.symm.trans free) (by decide)⟩, d.grantAt, d.holdTold, is⟩
  · split
    next tells =>
      obtain ⟨held, untold⟩ := tells
      have stands : (s.raise 15 u w0 w1).desc? d.acc = some d := by rw [State.desc?, (tells_raise ..).ord, ← State.desc?, is]
      have told : (s.tellHeld d u w0 w1).desc? d.acc = some { d with holdTold := true } := State.desc?_modDesc_self stands fun _ => rfl
      refine ⟨⟨s.raise 15 u w0 w1, tells_raise .., ?_, fun quiet => ?_, fun _ _ _ => s.rb_raise_self 15 u w0 w1⟩,
        some (s.frm.count + 1), true, ?_⟩
      · rw [State.withHold_eqn]
        rfl
      · exact absurd quiet (by simp [untold, Option.isSome_iff_ne_none.1 held])
      · exact State.desc?_modDesc_self ((State.desc?_withHold ..).trans told) fun _ => rfl
    next quiet =>
      refine ⟨⟨s, .refl s, ?_, fun _ => rfl, fun _ held untold => absurd ⟨held, by simp [untold]⟩ quiet⟩,
        some (s.frm.count + 1), d.holdTold, ?_⟩
      · rw [State.withHold_eqn]
        rfl
      · exact State.desc?_modDesc_self ((State.desc?_withHold ..).trans is) fun _ => rfl

/-! ### A due descriptor takes effect, and its frame of effect comes (O22) -/

/-- The state in which a due descriptor takes effect is that of its grant, taken over by the descriptor with its grant. -/
theorem onset_of_due {s : State} {n op : Nat} {d : Desc} (due : Due s n op d) : ∃ t g h, Grants s d t ∧
    t.desc? n = some { d with grantAt := g, holdTold := h } ∧ onset s d = t.takeOver { d with grantAt := g, holdTold := h } ∧
    onsetOf s d = { d with grantAt := g, holdTold := h }.taken (s.frm.count + 1) (d.axes.map t.posOf) := by
  obtain ⟨-, is, -, -, -, -, grant⟩ := due
  obtain rfl := State.acc_of_desc? is
  have grants : Grants s d (s.decideOne d).1 := State.decideOne_grants is (Prod.ext rfl grant)
  obtain ⟨g, h, stands⟩ := grants.desc
  have fresh : (s.decideOne d).1.fresh d = { d with grantAt := g, holdTold := h } := by
    rw [State.fresh, stands, Option.getD_some]
  obtain ⟨-, taken, -⟩ := State.takeOver_does (d := { d with grantAt := g, holdTold := h }) stands
  have frame : (s.decideOne d).1.frm = s.frm := by
    obtain ⟨r, tells, eqn, -⟩ := grants.moves
    rw [eqn]
    exact tells.frm
  refine ⟨(s.decideOne d).1, g, h, grants, stands, by rw [onset, fresh], ?_⟩
  rw [onsetOf, fresh, onset, fresh, State.fresh, taken, Option.getD_some, frame]
  rfl

/-- What a due descriptor does as it takes effect (R86, R101). -/
theorem onset_does {s : State} {n op : Nat} {d : Desc} (due : Due s n op d) :
    (onset s d).desc? n = some (onsetOf s d) ∧
    (d.held.isNone = true ∨ d.holdTold = true →
      onset s d = { s with ax := (onset s d).ax, ord := (onset s d).ord, pool := (onset s d).pool }) ∧
    (s.needsGrant d = true → d.held.isSome = true → d.holdTold = false →
      (onset s d).rb Adr.EVT_PEND_LO 15 = true ∧ (onset s d).frm = s.frm ∧ (onset s d).cu = s.cu) ∧
    (d.replaces = false → ∀ x : AxisId, x ∉ d.touches → (onset s d).ax.get x = s.ax.get x) := by
  obtain ⟨t, g, h, grants, stands, onset_eq, onsetOf_eq⟩ := onset_of_due due
  obtain ⟨-, is, -⟩ := due
  obtain rfl := State.acc_of_desc? is
  obtain ⟨r, tells, granted, quiet, told⟩ := grants.moves
  obtain ⟨moves, taken, apart⟩ := State.takeOver_does (d := { d with grantAt := g, holdTold := h }) stands
  rw [onset_eq, onsetOf_eq]
  have frame : t.frm = s.frm := by rw [granted]; exact tells.frm
  refine ⟨by rw [← frame]; exact taken, fun hq => ?_, fun needs held untold => ⟨?_, ?_, ?_⟩, fun alone x out => ?_⟩
  · rw [moves, granted, quiet hq]
  · rw [moves, State.rb, State.reg_of_regs (s := r) (by rw [granted])]
    exact told needs held untold
  · rw [moves]
    exact frame
  · rw [moves, granted]
    exact tells.cu
  · rw [apart alone x out, granted]
    exact congrArg (fun v => v.get x) tells.ax

/-- Settles O22: the grant and the taking over, and then what a descriptor does with its frame of effect. -/
theorem takesEffect : Obligations.TakesEffect := by
  unfold Obligations.TakesEffect
  refine ⟨fun s n op d due => ?_, fun s n d is effect => ?_⟩
  · obtain ⟨stands, quiet, told, apart⟩ := onset_does due
    obtain ⟨t, g, h, -, -, -, onsetOf_eq⟩ := onset_of_due due
    obtain ⟨-, is, opcode, -⟩ := due
    have acc := State.acc_of_desc? is
    rw [onsetOf_eq] at stands ⊢
    exact ⟨stands, acc, opcode, rfl, rfl, rfl, rfl, rfl, rfl, quiet, told, apart⟩
  · obtain rfl := State.acc_of_desc? is
    rw [State.settle_eq is]
    refine ⟨fun repl x joins => ?_, fun x joins f fault clears => ?_, fun out e he own => ?_⟩
    · have cleared : Sheds (s.replaceNow d) ((s.replaceNow d).clearFor d) := ⟨fun e he _ => State.clearFor_ord .. ▸ he⟩
      exact (s.replaceNow_yields repl x joins).sheds (cleared.trans (State.leave_sheds ..))
    · have kept : (s.replaceNow d).faultOn x = some f := (State.faultOn_replaceNow ..).trans fault
      exact (State.faultOn_leave ..).trans (State.faultOn_clearFor _ joins kept clears)
    · rcases (State.leave_ended _ out).each e he with ⟨_, other⟩ | ⟨_, waits⟩
      · exact absurd own other
      · exact waits

end Sys2Proof.Machine
end

section
/-! SUPPORT. The obligations of the Timetable's commands: the moves, STOP and PARK, the ends of motions, SET_PARAM and POS_SET,
TRIGGER_ARM and MASK_SET, and what holds a coil, with the rules about the operations that plan one axis anew. -/

namespace Sys2Proof.Machine

open Safety

/-! ### One axis -/

@[simp] theorem State.get_modAx_self (s : State) (x : AxisId) (f : Axis → Axis) : (s.modAx x f).ax.get x = f (s.ax.get x) := by
  rw [State.modAx_ax, vector_get_set_self]

@[simp] theorem State.get_modTt_self (s : State) (x : AxisId) (f : TtState → TtState) :
    (s.modTt x f).ax.get x = { s.ax.get x with tt := f (s.ax.get x).tt } := State.get_modAx_self ..

@[simp] theorem State.get_modCd_self (s : State) (x : AxisId) (f : CdState → CdState) :
    (s.modCd x f).ax.get x = { s.ax.get x with cd := f (s.ax.get x).cd } := State.get_modAx_self ..

/-- Nothing but axis `x` has moved. -/
structure AxisMoves (x : AxisId) (s t : State) : Prop where
  eqn : t = { s with ax := t.ax }
  apart : ∀ y : AxisId, y ≠ x → t.ax.get y = s.ax.get y

theorem AxisMoves.refl (x : AxisId) (s : State) : AxisMoves x s s := ⟨rfl, fun _ _ => rfl⟩

theorem AxisMoves.trans {x : AxisId} {s t u : State} (h : AxisMoves x s t) (k : AxisMoves x t u) : AxisMoves x s u :=
  ⟨by rw [k.eqn, h.eqn], fun y ne => (k.apart y ne).trans (h.apart y ne)⟩

theorem AxisMoves.modAx (s : State) (x : AxisId) (f : Axis → Axis) : AxisMoves x s (s.modAx x f) :=
  ⟨rfl, fun _ ne => s.get_modAx_ne f ne⟩

theorem AxisMoves.modTt (s : State) (x : AxisId) (f : TtState → TtState) : AxisMoves x s (s.modTt x f) := .modAx ..

theorem AxisMoves.modCd (s : State) (x : AxisId) (f : CdState → CdState) : AxisMoves x s (s.modCd x f) := .modAx ..

theorem AxisMoves.frm {x : AxisId} {s t : State} (h : AxisMoves x s t) : t.frm = s.frm := by rw [h.eqn]

theorem AxisMoves.cards {x : AxisId} {s t : State} (h : AxisMoves x s t) : t.cards = s.cards := by rw [h.eqn]

theorem AxisMoves.hz {x : AxisId} {s t : State} (h : AxisMoves x s t) : t.hz = s.hz := by rw [State.hz, h.frm, State.hz]

/-! ### The planning of one axis (R109 to R143) -/

/-- An axis with the plan of `b`: where it goes, under which limits, whether it follows, and what is told of it. -/
def Axis.planned (a b : Axis) : Axis :=
  { a with
    fol := b.fol
    due := b.due
    dropDue := b.dropDue
    tt := { a.tt with goal := b.tt.goal, target := b.tt.target, reversal := b.tt.reversal, lim := b.tt.lim, own := b.tt.own,
                      uNext := b.tt.uNext, oNext := b.tt.oNext } }

/-- The motion of axis `x` alone is planned anew: its parameters, its mode, its reference and what runs on it stay. -/
structure Steers (x : AxisId) (s t : State) : Prop where
  moves : AxisMoves x s t
  axis : t.ax.get x = (s.ax.get x).planned (t.ax.get x)

theorem Steers.refl (x : AxisId) (s : State) : Steers x s s := ⟨.refl x s, rfl⟩

theorem Steers.trans {x : AxisId} {s t u : State} (h : Steers x s t) (k : Steers x t u) : Steers x s u :=
  ⟨h.moves.trans k.moves, by rw [k.axis, h.axis]; rfl⟩

section

variable {x : AxisId} {s t : State} (h : Steers x s t)
include h

theorem Steers.act : (t.ax.get x).act = (s.ax.get x).act := by rw [h.axis]; rfl
theorem Steers.cd : (t.ax.get x).cd = (s.ax.get x).cd := by rw [h.axis]; rfl
theorem Steers.u0 : (t.ax.get x).tt.u0 = (s.ax.get x).tt.u0 := by rw [h.axis]; rfl
theorem Steers.running : (t.ax.get x).tt.running = (s.ax.get x).tt.running := by rw [h.axis]; rfl
theorem Steers.modeNext : (t.ax.get x).tt.modeNext = (s.ax.get x).tt.modeNext := by rw [h.axis]; rfl
theorem Steers.effFrame : (t.ax.get x).tt.effFrame = (s.ax.get x).tt.effFrame := by rw [h.axis]; rfl
theorem Steers.bypass : (t.ax.get x).tt.bypass = (s.ax.get x).tt.bypass := by rw [h.axis]; rfl

end

/-- A new plan of the axis: `f` changes nothing else. -/
theorem Steers.modAx {s : State} {x : AxisId} {f : Axis → Axis} (plans : ∀ a, f a = a.planned (f a)) : Steers x s (s.modAx x f) :=
  ⟨.modAx .., by rw [State.get_modAx_self]; exact plans _⟩

/-- Nothing has moved but what the next tick tells of axis `x`. -/
structure Notes (x : AxisId) (s t : State) : Prop where
  moves : AxisMoves x s t
  axis : ∃ due, t.ax.get x = { s.ax.get x with due := due }

theorem Notes.refl (x : AxisId) (s : State) : Notes x s s := ⟨.refl x s, _, rfl⟩

theorem Notes.steers {x : AxisId} {s t : State} (h : Notes x s t) : Steers x s t := by
  obtain ⟨moves, due, axis⟩ := h
  exact ⟨moves, by rw [axis]; rfl⟩

theorem Notes.ite {x : AxisId} {s t u : State} {c : Prop} [Decidable c] (h : Notes x s t) (k : Notes x s u) :
    Notes x s (if c then t else u) := by
  split
  · exact h
  · exact k

/-- An event of the next frame waits with its axis until that frame's tick (R145). -/
theorem State.tellAt_next (s : State) (e : Nat) (x : AxisId) (d0 d1 : Word) : Notes x s (s.tellAt (s.frm.count + 1) e x d0 d1) := by
  rw [State.tellAt, if_neg (by simp)]
  exact ⟨.modAx .., _, State.get_modAx_self ..⟩

theorem State.limitClipped_notes (s : State) (x : AxisId) (d0 : Int) (cause : Nat) (high : Bool) :
    Notes x s (s.limitClipped x d0 cause high) := s.tellAt_next ..

theorem State.modAx_congr {s : State} {x : AxisId} {f g : Axis → Axis} (h : f (s.ax.get x) = g (s.ax.get x)) : s.modAx x f = s.modAx x g := by
  rw [State.modAx, h, State.modAx]

/-- The return leg of a reversal keeps where the axis goes. -/
theorem Axis.returning_eq (a : Axis) (f : Nat) : ∃ r l, a.returning f = { a.tt with reversal := r, lim := l } := by
  unfold Axis.returning
  split
  · exact ⟨_, _, rfl⟩
  · exact ⟨_, _, rfl⟩

theorem Axis.returning_of_goal {a : Axis} (other : a.tt.goal ≠ .target) (f : Nat) : a.returning f = a.tt :=
  if_neg fun h => other h.1

theorem TtState.plan_eq (t : TtState) (f : Nat) (u : RefPt) : ∃ o, t.plan f u = { t with uNext := u, oNext := o } := ⟨_, rfl⟩

/-- A plan toward rest, the target or a stop keeps where the axis goes. -/
theorem State.planProfile_of_goal {s : State} {x : AxisId} (goal : ∀ v, (s.ax.get x).tt.goal ≠ .velocity v) :
    ∃ r l u o, s.planProfile x = s.modTt x fun t => { t with reversal := r, lim := l, uNext := u, oNext := o } := by
  obtain ⟨r, l, back⟩ := (s.ax.get x).returning_eq s.hz
  have same : ((s.ax.get x).returning s.hz).goal = (s.ax.get x).tt.goal := by rw [back]
  unfold State.planProfile
  extract_lets a t pl
  split
  · exact ⟨_, _, _, _, State.modAx_congr rfl⟩
  · split
    · exact ⟨_, _, _, _, State.modAx_congr rfl⟩
    · exact ⟨_, _, _, _, State.modAx_congr (by simp only [t, a, back]; rfl)⟩
  · exact ⟨_, _, _, _, State.modAx_congr rfl⟩
  next v speeds => exact absurd (same.symm.trans speeds) (goal v)

/-- A plan toward a stop sets the references of the next frame alone. -/
theorem State.planProfile_stop {s : State} {x : AxisId} {p : Int} {park : Bool} (goal : (s.ax.get x).tt.goal = .stop p park) :
    ∃ u : TtState → RefPt, s.planProfile x = s.modTt x fun t => t.plan s.hz (u t) := by
  have same : (s.ax.get x).returning s.hz = (s.ax.get x).tt := Axis.returning_of_goal (fun h => nomatch goal.symm.trans h) s.hz
  simp only [State.planProfile, same, goal]
  exact ⟨_, rfl⟩

/-- A plan toward a velocity (R125), whose next step is `u`: the limit ahead acts as a target (R136). -/
theorem State.planProfile_velocity {s : State} {x : AxisId} {v : Int} {u : RefPt} (goal : (s.ax.get x).tt.goal = .velocity v)
    (step : stepVelocity ((s.ax.get x).tt.lim.plim (s.ax.get x).tt.sc) (s.ax.get x).tt.u0 v = u) :
    let a := s.ax.get x
    (breaksGuard a.tt.sc a.tt.lim a.act.limLo a.act.limHi u = false → s.planProfile x = s.modTt x fun t => t.plan s.hz u) ∧
    (breaksGuard a.tt.sc a.tt.lim a.act.limLo a.act.limHi u = true → ∃ (d0 : Int) (r : TtState → RefPt),
      s.planProfile x = (s.limitClipped x d0 2 (decide (0 < u.dir))).modTt x fun t =>
        { t with goal := .target
                 target := limitPoint a.act.limLo a.act.limHi a.tt.u0.p (decide (0 < u.dir)) }.plan s.hz (r t)) := by
  have same : (s.ax.get x).returning s.hz = (s.ax.get x).tt := Axis.returning_of_goal (fun h => nomatch goal.symm.trans h) s.hz
  simp only [State.planProfile, same, goal, step]
  exact ⟨fun free => if_neg (by simp [free]), fun breaks => ⟨_, _, if_pos breaks⟩⟩

theorem State.planProfile_steers (s : State) (x : AxisId) : Steers x s (s.planProfile x) := by
  cases goal : (s.ax.get x).tt.goal with
  | velocity v =>
    obtain ⟨u, step⟩ : ∃ u, stepVelocity ((s.ax.get x).tt.lim.plim (s.ax.get x).tt.sc) (s.ax.get x).tt.u0 v = u := ⟨_, rfl⟩
    obtain ⟨free, breaks⟩ := State.planProfile_velocity goal step
    cases guard : breaksGuard (s.ax.get x).tt.sc (s.ax.get x).tt.lim (s.ax.get x).act.limLo (s.ax.get x).act.limHi u with
    | false =>
      rw [free guard]
      exact .modAx fun _ => rfl
    | true =>
      obtain ⟨d0, r, planned⟩ := breaks guard
      rw [planned]
      exact (s.limitClipped_notes ..).steers.trans (.modAx fun _ => rfl)
  | rest | target | stop =>
    obtain ⟨r, l, u, o, planned⟩ := State.planProfile_of_goal (s := s) (x := x) fun v h => nomatch goal.symm.trans h
    rw [planned]
    exact .modAx fun _ => rfl

/-- Choosing between the direct profile and the reversal (R120) keeps the target and the motion's own limits. -/
theorem State.decideTarget_next {s t : State} {x : AxisId} {l : Limits} {old : Option Int}
    (decided : s.decideTarget x l old (s.frm.count + 1) = t) :
    Steers x s t ∧ (t.ax.get x).fol = (s.ax.get x).fol ∧ (t.ax.get x).tt.target = (s.ax.get x).tt.target ∧
      (t.ax.get x).tt.own = (s.ax.get x).tt.own ∧ ∀ v, (t.ax.get x).tt.goal ≠ .velocity v := by
  unfold State.decideTarget at decided
  extract_lets a b pl sn r s1 at decided
  split at decided
  · subst decided
    refine ⟨.modAx fun _ => rfl, ?_⟩
    rw [State.get_modTt_self]
    exact ⟨rfl, rfl, rfl, fun v => by dsimp only; split <;> exact fun h => nomatch h⟩
  · split at decided
    · subst decided
      refine ⟨.modAx fun _ => rfl, ?_⟩
      rw [State.get_modTt_self]
      exact ⟨rfl, rfl, rfl, fun v h => nomatch h⟩
    · have told : Notes x s s1 := .ite (.refl x s) (s.tellAt_next ..)
      subst decided
      refine ⟨told.steers.trans (.modAx fun _ => rfl), ?_⟩
      obtain ⟨-, due, axis⟩ := told
      rw [State.get_modTt_self, axis]
      exact ⟨rfl, rfl, rfl, fun v h => nomatch h⟩

/-- A new target (R120) ends a following and is held inside the limits (R134). -/
theorem State.newTarget_does {s t : State} {x : AxisId} {target : Int} {l : Limits} (taken : s.newTarget x target l = t) :
    Steers x s t ∧ (t.ax.get x).fol = none ∧
      (t.ax.get x).tt.target = clipTarget (s.ax.get x).act.limLo (s.ax.get x).act.limHi target (s.ax.get x).tt.u0.p ∧
      (t.ax.get x).tt.own = (s.ax.get x).tt.own ∧ ∀ v, (t.ax.get x).tt.goal ≠ .velocity v := by
  unfold State.newTarget at taken
  extract_lets a tc s1 s2 at taken
  have clipped : Notes x s s1 := .ite (.refl x s) (s.limitClipped_notes ..)
  have steers : Steers x s s2 := clipped.steers.trans (.modAx fun _ => rfl)
  have axis : s2.ax.get x = { (s1.ax.get x).unplanned with tt := { (s1.ax.get x).tt with target := tc, reversal := none } } :=
    State.get_modAx_self ..
  obtain ⟨decides, fol, target, own, goal⟩ := State.decideTarget_next taken
  obtain ⟨-, due, told⟩ := clipped
  rw [told] at axis
  rw [axis] at fol target own
  exact ⟨steers.trans decides, fol, target, own, goal⟩

/-- The stop of an axis (R118, R119) makes for a rest, which becomes the commanded target, and ends a following. -/
theorem State.stopFrom_does {s t : State} {x : AxisId} {new old : Limits} {park : Bool} (stopped : s.stopFrom x new old park = t) :
    Steers x s t ∧ (t.ax.get x).fol = none ∧ (t.ax.get x).tt.reversal = none ∧
      (t.ax.get x).tt.goal = .stop (t.ax.get x).tt.target park := by
  unfold State.stopFrom at stopped
  extract_lets a b lo hi within past l p s1 at stopped
  have clipped : Notes x s s1 := .ite (s.limitClipped_notes ..) (.refl x s)
  obtain ⟨u, brakes⟩ : ∃ u, s1.modAx x (fun a => { a.unplanned with
    tt := { a.tt with goal := .stop p park, lim := l, own := new, target := p, reversal := none } }) = u := ⟨_, rfl⟩
  rw [brakes] at stopped
  have steers : Steers x s u := clipped.steers.trans (brakes ▸ .modAx fun _ => rfl)
  have axis : u.ax.get x = { (s1.ax.get x).unplanned with
      tt := { (s1.ax.get x).tt with goal := .stop p park, lim := l, own := new, target := p, reversal := none } } := by
    rw [← brakes, State.get_modAx_self]
  obtain ⟨r, planned⟩ := State.planProfile_stop (s := u) (x := x) (p := p) (park := park) (by rw [axis])
  refine ⟨steers.trans (stopped ▸ u.planProfile_steers x), ?_⟩
  rw [← stopped, planned, State.get_modTt_self, axis]
  exact ⟨rfl, rfl, rfl⟩

end Sys2Proof.Machine
end

section

namespace Sys2Proof.Machine

open Safety

/-! ### What a descriptor takes effect with (R86) -/

section

variable {s : State} {n op : Nat} {d : Desc} (due : Due s n op d)
include due

/-- Taking effect moves neither the frame nor the cards. -/
theorem onset_frame : (onset s d).frm = s.frm ∧ (onset s d).cards = s.cards := by
  obtain ⟨t, g, h, grants, stands, onset_eq, -⟩ := onset_of_due due
  obtain ⟨r, tells, granted, -⟩ := grants.moves
  obtain rfl := State.acc_of_desc? due.2.1
  obtain ⟨moves, -⟩ := State.takeOver_does (d := { d with grantAt := g, holdTold := h }) stands
  rw [onset_eq, moves, granted]
  exact ⟨tells.frm, tells.cards⟩

theorem onset_hz : (onset s d).hz = s.hz := by rw [State.hz, (onset_frame due).1, State.hz]

/-- A descriptor takes effect under its number, with its operands. -/
theorem onsetOf_operands : (onsetOf s d).acc = n ∧ (onsetOf s d).bytes = d.bytes := by
  obtain ⟨t, g, h, -, -, -, onsetOf_eq⟩ := onset_of_due due
  rw [onsetOf_eq]
  exact ⟨(State.acc_of_desc? due.2.1 :), rfl⟩

end

theorem Desc.axis?_congr {d e : Desc} (h : e.bytes = d.bytes) : e.axis? = d.axis? := by
  unfold Desc.axis? Desc.axisByte
  rw [h]

theorem Desc.paramAxis_congr {d e : Desc} (h : e.bytes = d.bytes) : e.paramAxis = d.paramAxis := by
  rw [Desc.paramAxis, Desc.axis?_congr h, h, Desc.paramAxis]

/-! ### The moves (O26) -/

/-- The forms of a move that starts at rest (R130): nothing else of the axis changes. -/
theorem State.takeForms_does (s : State) (x : AxisId) : AxisMoves x s (s.takeForms x) ∧ ∃ pr sh h fi,
    (s.takeForms x).ax.get x =
      { s.ax.get x with tt := { (s.ax.get x).tt with profile := pr, shaper := sh, hist := h, fill := fi } } := by
  refine ⟨.modAx .., ?_⟩
  rw [State.takeForms, State.get_modAx_self]
  split
  · exact ⟨_, _, _, _, rfl⟩
  · exact ⟨_, _, _, _, rfl⟩

/-- A motion takes over axis `x` (R107): its own plan comes after it. -/
theorem State.get_startMotion (s : State) (x : AxisId) (run : Running) (m : Mode) : (s.startMotion x run m).ax.get x =
    { s.ax.get x with
      tt := { (s.ax.get x).tt with running := run, modeNext := some m, effFrame := s.frm.count + 1 }
      cd := { (s.ax.get x).cd with phaseNext := some .run } } := by
  rw [State.startMotion, State.runPhase, State.get_modCd_self, State.get_modTt_self]

theorem State.startMotion_moves (s : State) (x : AxisId) (run : Running) (m : Mode) : AxisMoves x s (s.startMotion x run m) := by
  unfold State.startMotion State.runPhase
  exact (AxisMoves.modTt ..).trans (.modCd ..)

/-- A motion that takes over axis `x` is planned: it runs, in its mode from the next frame on. -/
theorem State.startMotion_planProfile (s : State) (x : AxisId) (run : Running) (m : Mode) :
    let b := ((s.startMotion x run m).planProfile x).ax.get x
    AxisMoves x s ((s.startMotion x run m).planProfile x) ∧ b.tt.running = run ∧ b.tt.effFrame = s.frm.count + 1 ∧
      b.tt.modeNext = some m ∧ b.cd.phaseNext = some .run ∧ b.tt.bypass = (s.ax.get x).tt.bypass ∧ b.act = (s.ax.get x).act ∧
      b.tt.u0 = (s.ax.get x).tt.u0 := by
  have plans := (s.startMotion x run m).planProfile_steers x
  have axis := s.get_startMotion x run m
  refine ⟨(s.startMotion_moves ..).trans plans.moves, plans.running.trans ?_, plans.effFrame.trans ?_, plans.modeNext.trans ?_,
    (congrArg CdState.phaseNext plans.cd).trans ?_, plans.bypass.trans ?_, plans.act.trans ?_, plans.u0.trans ?_⟩ <;> rw [axis]

/-- A move (R120, R121): the target inside the limits, the move's own limits, and the axis in POSITION from the next frame on. -/
theorem State.moveTo_does (s : State) (x : AxisId) (target : Int) (l : Limits) (bypass : Bool) (run : Running) :
    let a := s.ax.get x
    let b := (s.moveTo x target l bypass run).ax.get x
    AxisMoves x s (s.moveTo x target l bypass run) ∧ b.tt.target = clipTarget a.act.limLo a.act.limHi target a.tt.u0.p ∧
      b.tt.running = run ∧ b.tt.modeNext = some .position ∧ b.tt.effFrame = s.frm.count + 1 ∧ b.tt.bypass = bypass ∧ b.fol = none ∧
      b.act = a.act ∧ b.tt.own = l ∧ b.tt.u0 = a.tt.u0 ∧ b.cd.phaseNext = some .run := by
  unfold State.moveTo
  obtain ⟨formed, pr, sh, hi, fi, forms⟩ := s.takeForms_does x
  obtain ⟨u, prepared⟩ : ∃ u, (s.takeForms x).modTt x (fun t => { t with bypass := bypass, own := l }) = u := ⟨_, rfl⟩
  obtain ⟨v, aims⟩ : ∃ v, u.newTarget x target (l.capV (velForm s.hz (s.ax.get x).act.vmax)) = v := ⟨_, rfl⟩
  dsimp only
  rw [prepared, aims]
  have axis : u.ax.get x = { s.ax.get x with
      tt := { (s.ax.get x).tt with profile := pr, shaper := sh, hist := hi, fill := fi, bypass := bypass, own := l } } := by
    rw [← prepared, State.get_modTt_self, forms]
  obtain ⟨steers, fol, aimed, own, goal⟩ := State.newTarget_does aims
  have aside : AxisMoves x s v := (formed.trans (prepared ▸ .modTt ..)).trans steers.moves
  obtain ⟨plans, running, eff, mode, phase, shaped, act, u0⟩ := v.startMotion_planProfile x run .position
  have started := v.get_startMotion x run .position
  obtain ⟨r, l', w, o, planned⟩ := State.planProfile_of_goal (s := v.startMotion x run .position) (x := x) (by rw [started]; exact goal)
  have final := congrArg (fun t : State => t.ax.get x) planned
  rw [State.get_modTt_self, started] at final
  rw [aside.frm] at eff
  refine ⟨aside.trans plans, ?_, running, mode, eff, shaped.trans (steers.bypass.trans ?_), ?_, act.trans (steers.act.trans ?_), ?_,
    u0.trans (steers.u0.trans ?_), phase⟩
  · rw [final]; exact aimed.trans (by rw [axis])
  · rw [axis]
  · rw [final]; exact fol
  · rw [axis]
  · rw [final]; exact own.trans (by rw [axis])
  · rw [axis]

theorem State.moveEffect_of_axis {s : State} {d : Desc} {x : AxisId} (named : d.axis? = some x) (base : AxisId → Int) :
    s.moveEffect d base = s.moveTo x (base x + s32 d.bytes 16) (moveLimits (s.ax.get x).act s.hz (u32 d.bytes 20) d.bytes)
      (u8 d.bytes 40 == 1) (.move d.acc) := by
  rw [State.moveEffect, named]

/-- Settles O26: both moves take effect by `moveTo`, each from its base. -/
theorem moves : Obligations.Moves := by
  unfold Obligations.Moves
  intro s n d x named p hp due
  obtain ⟨acc, bytes⟩ := onsetOf_operands due
  have axis : (onsetOf s d).axis? = some x := (Desc.axis?_congr bytes).trans named
  have runs : ∃ base : AxisId → Int, base x = p.2.2 ∧ exec p.2.1 s = .next ((onset s d).moveEffect (onsetOf s d) base) := by
    simp only [List.mem_cons, List.not_mem_nil, or_false] at hp
    rcases hp with rfl | rfl
    · exact ⟨fun _ => 0, rfl, congrArg Host.Outcome.next (State.withEffect_of_due due (· == 1) rfl _)⟩
    · exact ⟨s.relBase, rfl, congrArg Host.Outcome.next (State.withEffect_of_due due (· == 2) rfl _)⟩
  obtain ⟨base, based, runs⟩ := runs
  rw [State.moveEffect_of_axis axis, acc, bytes, based, onset_hz due] at runs
  obtain ⟨only, target, running, mode, eff, bypass, fol, act, own, u0, phase⟩ := (onset s d).moveTo_does x (p.2.2 + s32 d.bytes 16)
    (moveLimits ((onset s d).ax.get x).act s.hz (u32 d.bytes 20) d.bytes) (u8 d.bytes 40 == 1) (.move n)
  rw [(onset_frame due).1] at eff
  exact completes_of_exec runs ⟨target, running, mode, eff, bypass, fol, act, own, u0, phase, only.apart, only.eqn⟩

/-! ### MOVE_VEL (O27) -/

/-- A speed of 0 on an axis in HOLD: it stays at rest there. -/
theorem State.velEffect_hold {s : State} {d : Desc} {x : AxisId} (named : d.axis? = some x) (speed : u32 d.bytes 16 = 0)
    (hold : (s.ax.get x).tt.modeAhead = .hold) :
    s.velEffect d = (s.modTt x fun t =>
      { t with running := .vel (some d.acc) 0 (u8 d.bytes 20 == 1), goal := .rest, effFrame := s.frm.count + 1 }).runPhase x := by
  rw [State.velEffect, named]
  exact if_pos ⟨speed, by rw [hold]; rfl⟩

/-- A speed of 0 on another axis: it brakes to a rest (R115). -/
theorem State.velEffect_brake {s : State} {d : Desc} {x : AxisId} (named : d.axis? = some x) (speed : u32 d.bytes 16 = 0)
    (other : (s.ax.get x).tt.modeAhead ≠ .hold) : ∃ own old,
    s.velEffect d = (((((s.takeForms x).modTt x fun t => { t with bypass := false }).stopFrom x own old false).startMotion x
      (.vel (some d.acc) 0 (u8 d.bytes 20 == 1)) .velocity).planProfile x) := by
  rw [State.velEffect, named]
  dsimp only
  rw [if_neg (by simp [other]), if_pos speed, speed]
  exact ⟨_, _, rfl⟩

/-- The limits that a MOVE_VEL runs under, with its speed operand (R125). -/
def velLimits (t : TtSet) (f : Nat) (b : List Byte) : Limits := { moveLimits t f (u32 b 16) b with v := velForm f (u32 b 16) }

/-- The velocity that a MOVE_VEL makes for: its speed under VMAX, in its direction. -/
def velGoal (t : TtSet) (f : Nat) (b : List Byte) : Int := ((velLimits t f b).capV (velForm f t.vmax)).signed (u8 b 20 == 1)

/-- A speed other than 0: the axis makes for that velocity (R125). -/
theorem State.velEffect_run {s : State} {d : Desc} {x : AxisId} (named : d.axis? = some x) (speed : u32 d.bytes 16 ≠ 0) : ∃ l,
    s.velEffect d = (((s.takeForms x).modAx x fun a =>
        { a.unplanned with
          tt := { a.tt with
            goal := .velocity (velGoal ((s.takeForms x).ax.get x).act s.hz d.bytes)
            lim := l
            own := velLimits ((s.takeForms x).ax.get x).act s.hz d.bytes
            reversal := none
            bypass := false } }).startMotion x
      (.vel (some d.acc) (u32 d.bytes 16) (u8 d.bytes 20 == 1)) .velocity).planProfile x := by
  rw [State.velEffect, named]
  dsimp only
  rw [if_neg fun h => speed h.1, if_neg speed]
  exact ⟨_, rfl⟩

/-- A plan toward a velocity whose next step is `u` keeps the limits, and gives way to the limit ahead where the guard asks for it
(R135, R136). -/
theorem State.get_planProfile_velocity {s : State} {x : AxisId} {v : Int} {u : RefPt} (goal : (s.ax.get x).tt.goal = .velocity v)
    (step : stepVelocity ((s.ax.get x).tt.lim.plim (s.ax.get x).tt.sc) (s.ax.get x).tt.u0 v = u) :
    let a := s.ax.get x
    let b := (s.planProfile x).ax.get x
    b.fol = a.fol ∧ b.tt.lim = a.tt.lim ∧ b.tt.own = a.tt.own ∧ b.tt.sc = a.tt.sc ∧
      (breaksGuard a.tt.sc a.tt.lim a.act.limLo a.act.limHi u = false → b.tt.goal = .velocity v ∧ b.tt.uNext = u) ∧
      (breaksGuard a.tt.sc a.tt.lim a.act.limLo a.act.limHi u = true → b.tt.goal = .target ∧
        b.tt.target = limitPoint a.act.limLo a.act.limHi a.tt.u0.p (decide (0 < u.dir))) := by
  obtain ⟨free, breaks⟩ := State.planProfile_velocity goal step
  dsimp only
  cases guard : breaksGuard (s.ax.get x).tt.sc (s.ax.get x).tt.lim (s.ax.get x).act.limLo (s.ax.get x).act.limHi u with
  | false =>
    rw [free guard, State.get_modTt_self]
    refine ⟨rfl, rfl, rfl, rfl, fun _ => ⟨goal, rfl⟩, fun h => ?_⟩
    cases h
  | true =>
    obtain ⟨d0, r, planned⟩ := breaks guard
    obtain ⟨-, due, told⟩ := s.limitClipped_notes x d0 2 (decide (0 < u.dir))
    rw [planned, State.get_modTt_self, told]
    refine ⟨rfl, rfl, rfl, rfl, fun h => ?_, fun _ => ⟨rfl, rfl⟩⟩
    cases h

/-- The plan of an axis that makes for the velocity of a MOVE_VEL (R125, R134 to R136): that velocity, or the limit ahead. -/
theorem State.planProfile_velGoal {s : State} {x : AxisId} {f : Nat} {p : List Byte}
    (goal : (s.ax.get x).tt.goal = .velocity (velGoal (s.ax.get x).act f p))
    (own : (s.ax.get x).tt.own = velLimits (s.ax.get x).act f p) :
    let b := (s.planProfile x).ax.get x
    let w := (b.tt.own.capV (velForm f b.act.vmax)).signed (u8 p 20 == 1)
    let u := stepVelocity (b.tt.lim.plim b.tt.sc) b.tt.u0 w
    b.fol = (s.ax.get x).fol ∧ b.tt.own = velLimits b.act f p ∧
      (breaksGuard b.tt.sc b.tt.lim b.act.limLo b.act.limHi u = false → b.tt.goal = .velocity w ∧ b.tt.uNext = u) ∧
      (breaksGuard b.tt.sc b.tt.lim b.act.limLo b.act.limHi u = true → b.tt.goal = .target ∧
        b.tt.target = limitPoint b.act.limLo b.act.limHi b.tt.u0.p (decide (0 < u.dir))) := by
  obtain ⟨u, step⟩ : ∃ u, stepVelocity ((s.ax.get x).tt.lim.plim (s.ax.get x).tt.sc) (s.ax.get x).tt.u0
    (velGoal (s.ax.get x).act f p) = u := ⟨_, rfl⟩
  have plans := s.planProfile_steers x
  obtain ⟨fol, lim, limits, sc, free, breaks⟩ := State.get_planProfile_velocity goal step
  have aim : (((s.ax.get x).tt.own.capV (velForm f (s.ax.get x).act.vmax)).signed (u8 p 20 == 1)) = velGoal (s.ax.get x).act f p := by
    rw [own, velGoal]
  dsimp only
  rw [plans.act, plans.u0, lim, sc, limits, aim, step]
  exact ⟨fol, own, free, breaks⟩

/-- Settles O27, by the three branches of its effect: the rest in HOLD, the braking, and the run. -/
theorem velocityMoves : Obligations.VelocityMoves := by
  unfold Obligations.VelocityMoves
  intro s n d x due named
  obtain ⟨acc, bytes⟩ := onsetOf_operands due
  have axis : (onsetOf s d).axis? = some x := (Desc.axis?_congr bytes).trans named
  have runs : exec (.moveVel n) s = .next ((onset s d).velEffect (onsetOf s d)) :=
    congrArg Host.Outcome.next (State.withEffect_of_due due (· == 3) rfl _)
  have frame := (onset_frame due).1
  have hz := onset_hz due
  generalize onset s d = o at runs frame hz ⊢
  have formed := (o.takeForms_does x).1
  by_cases speed : u32 d.bytes 16 = 0
  · by_cases hold : (o.ax.get x).tt.modeAhead = .hold
    · rw [State.velEffect_hold axis (bytes.symm ▸ speed) hold, acc, bytes, frame, State.runPhase] at runs
      have only := (AxisMoves.modTt o x fun t =>
        { t with running := .vel (some n) 0 (u8 d.bytes 20 == 1), goal := .rest, effFrame := s.frm.count + 1 }).trans
        (.modCd _ x fun c => { c with phaseNext := some .run })
      refine completes_of_exec runs ?_
      rw [if_pos ⟨speed, hold⟩, speed, State.get_modCd_self, State.get_modTt_self]
      exact ⟨rfl, rfl, rfl, rfl, only.apart, only.eqn⟩
    · obtain ⟨own, old, brakes⟩ := State.velEffect_brake axis (bytes.symm ▸ speed) hold
      rw [brakes, acc, bytes] at runs
      obtain ⟨u, freed⟩ : ∃ u, (o.takeForms x).modTt x (fun t => { t with bypass := false }) = u := ⟨_, rfl⟩
      obtain ⟨v, stopped⟩ : ∃ v, u.stopFrom x own old false = v := ⟨_, rfl⟩
      rw [freed, stopped] at runs
      obtain ⟨stops, fol, -, goal⟩ := State.stopFrom_does stopped
      have aside : AxisMoves x o v := (formed.trans (freed ▸ .modTt ..)).trans stops.moves
      obtain ⟨plans, running, eff, mode, phase, bypass, -⟩ :=
        v.startMotion_planProfile x (.vel (some n) 0 (u8 d.bytes 20 == 1)) .velocity
      have started := v.get_startMotion x (.vel (some n) 0 (u8 d.bytes 20 == 1)) .velocity
      obtain ⟨r, planned⟩ := State.planProfile_stop (s := v.startMotion x (.vel (some n) 0 (u8 d.bytes 20 == 1)) .velocity) (x := x)
        (by rw [started]; exact goal)
      have final := congrArg (fun t : State => t.ax.get x) planned
      rw [State.get_modTt_self, started] at final
      have only := aside.trans plans
      refine completes_of_exec runs ?_
      rw [if_neg fun h => hold h.2]
      refine ⟨by rw [speed]; exact running, ?_, ⟨mode, ?_, ?_, fun _ => ?_, fun h => absurd speed h⟩, phase, only.apart, only.eqn⟩
      · rw [eff, aside.frm, frame]
      · rw [final]
        exact fol
      · rw [bypass, stops.bypass, ← freed, State.get_modTt_self]
      · rw [final]
        exact goal
  · obtain ⟨l, makes⟩ := State.velEffect_run axis (bytes.symm ▸ speed)
    rw [makes, acc, bytes, hz] at runs
    obtain ⟨u, steered⟩ : ∃ u, (o.takeForms x).modAx x (fun a => { a.unplanned with
      tt := { a.tt with
        goal := .velocity (velGoal ((o.takeForms x).ax.get x).act s.hz d.bytes)
        lim := l
        own := velLimits ((o.takeForms x).ax.get x).act s.hz d.bytes
        reversal := none
        bypass := false } }) = u := ⟨_, rfl⟩
    rw [steered] at runs
    have aside : AxisMoves x o u := formed.trans (steered ▸ .modAx ..)
    obtain ⟨plans, running, eff, mode, phase, bypass, act, u0⟩ :=
      u.startMotion_planProfile x (.vel (some n) (u32 d.bytes 16) (u8 d.bytes 20 == 1)) .velocity
    have started := u.get_startMotion x (.vel (some n) (u32 d.bytes 16) (u8 d.bytes 20 == 1)) .velocity
    have given : (u.ax.get x).fol = none ∧ (u.ax.get x).tt.bypass = false ∧
        (u.ax.get x).tt.goal = .velocity (velGoal (u.ax.get x).act s.hz d.bytes) ∧
        (u.ax.get x).tt.own = velLimits (u.ax.get x).act s.hz d.bytes := by
      rw [← steered, State.get_modAx_self]
      exact ⟨rfl, rfl, rfl, rfl⟩
    obtain ⟨fol, free, goal, own⟩ := given
    obtain ⟨follows, limits, reaches, gives⟩ := State.planProfile_velGoal (f := s.hz) (p := d.bytes)
      (s := u.startMotion x (.vel (some n) (u32 d.bytes 16) (u8 d.bytes 20 == 1)) .velocity) (x := x)
      (by rw [started]; exact goal) (by rw [started]; exact own)
    have only := aside.trans plans
    refine completes_of_exec runs ?_
    rw [if_neg fun h => speed h.1]
    refine ⟨running, ?_, ⟨mode, ?_, ?_, fun h => absurd h speed, fun _ => ⟨limits, reaches, gives⟩⟩, phase, only.apart, only.eqn⟩
    · rw [eff, aside.frm, frame]
    · rw [follows, started]
      exact fol
    · rw [bypass, free]

/-! ### STOP and PARK (O28) -/

/-- A stop of kind `kind` (R118, R119): an axis at rest in HOLD or PARKED stays, another makes for a rest. -/
theorem State.stopEffect_does {s t : State} {d : Desc} {x : AxisId} (named : d.axis? = some x) {kind dec : Nat}
    (stops : s.stopEffect d kind dec = t) :
    AxisMoves x s t ∧ (t.ax.get x).tt.running = .stop (some d.acc) kind ∧ (t.ax.get x).tt.effFrame = s.frm.count + 1 ∧
      (if (s.ax.get x).tt.modeAhead = .parked ∨ (s.ax.get x).tt.modeAhead = .hold
        then (t.ax.get x).tt.goal = (s.ax.get x).tt.goal ∧ (t.ax.get x).fol = (s.ax.get x).fol
        else (t.ax.get x).fol = none ∧ (t.ax.get x).tt.reversal = none ∧
          (t.ax.get x).tt.goal = .stop (t.ax.get x).tt.target (kind == 1)) := by
  rw [State.stopEffect, named] at stops
  dsimp only at stops
  split at stops
  next holds =>
    subst stops
    refine ⟨.modTt .., ?_⟩
    rw [if_pos holds, State.get_modTt_self]
    exact ⟨rfl, rfl, rfl, rfl⟩
  next moves =>
    rw [if_neg moves]
    unfold State.stopMotion at stops
    extract_lets a old at stops
    obtain ⟨u, brakes⟩ : ∃ u, s.stopFrom x { old with
      d := accForm s.hz (orStored dec (if kind = 2 then (s.ax.get x).act.qsDec else (s.ax.get x).act.stopDec))
      jd := jerkForm s.hz (s.ax.get x).act.jdec } old (kind == 1) = u := ⟨_, rfl⟩
    rw [brakes] at stops
    obtain ⟨steers, fol, reversal, goal⟩ := State.stopFrom_does brakes
    subst stops
    refine ⟨steers.moves.trans (.modTt ..), ?_⟩
    rw [State.get_modTt_self]
    exact ⟨rfl, rfl, fol, reversal, goal⟩

/-- Settles O28: STOP and PARK are the stop of their kind. -/
theorem stopsAndParks : Obligations.StopsAndParks := by
  unfold Obligations.StopsAndParks
  intro s n d x named p hp due
  obtain ⟨acc, bytes⟩ := onsetOf_operands due
  have runs : ∃ dec, exec p.2.1 s = .next ((onset s d).stopEffect (onsetOf s d) p.2.2 dec) := by
    simp only [List.mem_cons, List.not_mem_nil, or_false] at hp
    rcases hp with rfl | rfl
    · refine ⟨u32 d.bytes 20, ?_⟩
      rw [← bytes]
      exact congrArg Host.Outcome.next (State.withEffect_of_due due (· == 4) rfl _)
    · exact ⟨0, congrArg Host.Outcome.next (State.withEffect_of_due due (· == 8) rfl _)⟩
  obtain ⟨dec, runs⟩ := runs
  obtain ⟨only, running, eff, does⟩ := State.stopEffect_does ((Desc.axis?_congr bytes).trans named) (kind := p.2.2) (dec := dec) rfl
  rw [acc] at running
  rw [(onset_frame due).1] at eff
  exact completes_of_exec runs ⟨running, eff, does, only.apart, only.eqn⟩

end Sys2Proof.Machine
end

section

namespace Sys2Proof.Machine

open Safety

/-! ### TRIGGER_ARM and MASK_SET (O34) -/

/-- The outcome of a descriptor in its frame of effect moves the descriptors alone (R73, R87). -/
theorem State.laterOk_eqn (s : State) (d : Desc) (d0 d1 : Word) : s.laterOk d d0 d1 = { s with ord := (s.laterOk d d0 d1).ord } := by
  unfold State.laterOk
  split <;> rfl

theorem State.laterOk_trg (s : State) (d : Desc) (d0 d1 : Word) : (s.laterOk d d0 d1).trg = s.trg := by rw [State.laterOk_eqn]

@[simp] theorem State.get_modTrg_self (s : State) (m : Fin 64) (f : Trig → Trig) : (s.modTrg m f).trg.get m = f (s.trg.get m) :=
  vector_get_set_self ..

theorem State.get_modTrg_ne (s : State) {m j : Fin 64} (f : Trig → Trig) (ne : j ≠ m) : (s.modTrg m f).trg.get j = s.trg.get j :=
  vector_get_set_ne _ _ ne

@[simp] theorem State.get_modBr_self (s : State) (x : AxisId) (f : BrState → BrState) :
    (s.modBr x f).ax.get x = { s.ax.get x with br := f (s.ax.get x).br } := State.get_modAx_self ..

/-- A trigger slot as a TRIGGER_ARM arms it (R147): what its kind does not use is 0. -/
def Trig.armedBy (b : List Byte) (m : Trig) : Trig :=
  { m with
    armed := true
    kind := u8 b 17
    edge := if u8 b 17 = 2 then 0 else u8 b 18
    source := if u8 b 17 = 2 then 0 else u8 b 19
    pos := if u8 b 17 = 0 then s32 b 20 else 0
    frame := if u8 b 17 = 2 then BitVec.ofNat 64 (u64 b 24) else 0
    auto := u8 b 32 == 1 }

/-- A frame that has passed is refused, and arms nothing (R151). -/
theorem State.armEffect_late {s : State} {d : Desc} (frame : u8 d.bytes 17 = 2)
    (late : frameLt (BitVec.ofNat 64 (u64 d.bytes 24)) s.frm.count = true) : s.armEffect d = s.later d 5 24 (wd s.frm.count.toNat) :=
  if_pos ⟨frame, late⟩

theorem State.armEffect_arms {s : State} {d : Desc}
    (open_ : ¬ (u8 d.bytes 17 = 2 ∧ frameLt (BitVec.ofNat 64 (u64 d.bytes 24)) s.frm.count = true)) :
    s.armEffect d = (s.modTrg (Fin.ofNat 64 (u8 d.bytes 16)) (Trig.armedBy d.bytes)).laterOk d 0 0 := if_neg open_

/-- What the tick of a TRIGGER_ARM's frame of effect does (R147, R150, R151). -/
theorem State.armEffect_does (s : State) (d : Desc) :
    let t := s.armEffect d
    (∀ j : Fin 64, j ≠ Fin.ofNat 64 (u8 d.bytes 16) → t.trg.get j = s.trg.get j) ∧ t = { s with trg := t.trg, ord := t.ord } ∧
      (¬ (u8 d.bytes 17 = 2 ∧ frameLt (BitVec.ofNat 64 (u64 d.bytes 24)) s.frm.count = true) →
        t.trg.get (Fin.ofNat 64 (u8 d.bytes 16)) = (s.trg.get (Fin.ofNat 64 (u8 d.bytes 16))).armedBy d.bytes) := by
  by_cases late : u8 d.bytes 17 = 2 ∧ frameLt (BitVec.ofNat 64 (u64 d.bytes 24)) s.frm.count = true
  · dsimp only
    rw [State.armEffect_late late.1 late.2]
    exact ⟨fun _ _ => rfl, rfl, fun open_ => absurd late open_⟩
  · dsimp only
    rw [State.armEffect_arms late, State.laterOk_trg]
    refine ⟨fun j ne => State.get_modTrg_ne _ _ ne, ?_, fun _ => State.get_modTrg_self ..⟩
    rw [State.laterOk_eqn]
    rfl

/-- Settles O34: the arming comes with the tick, the mask with the effect. -/
theorem armsAndMasks : Obligations.ArmsAndMasks := by
  unfold Obligations.ArmsAndMasks
  refine ⟨fun s n d => ⟨fun due => ?_, fun x due named => ?_⟩, fun s d op first => ?_⟩
  · exact congrArg Host.Outcome.next (State.withEffect_of_due due (· == 0xC) rfl fun t _ => t)
  · obtain ⟨acc, bytes⟩ := onsetOf_operands due
    have runs : exec (.maskSet n) s = .next ((onset s d).maskEffect (onsetOf s d)) :=
      congrArg Host.Outcome.next (State.withEffect_of_due due (· == 0xD) rfl _)
    rw [State.maskEffect, (Desc.axis?_congr bytes).trans named, acc, bytes] at runs
    refine completes_of_exec runs ?_
    have only : AxisMoves x (onset s d) ((onset s d).modBr x fun b => { b with wait := some ⟨n, d.bytes.getD 16 0,
      if u8 d.bytes 17 = 1 then some (u8 d.bytes 18) else none, none, true⟩ }) := .modAx ..
    rw [State.get_modBr_self]
    exact ⟨by simp, by simp, rfl, only.apart, only.eqn⟩
  · have acts : s.tickAct d = s.armEffect d := by simp [State.tickAct, op, first]
    rw [acts]
    obtain ⟨others, only, arms⟩ := s.armEffect_does d
    refine ⟨fun kind => ?_, fun kind => ?_, fun kind open_ => ?_, fun kind late => State.armEffect_late kind late, others, only⟩
    all_goals rw [arms (by simp [*])]; simp [Trig.armedBy, kind]

end Sys2Proof.Machine
end

section

namespace Sys2Proof.Machine

open Safety

/-! ### What the end of a descriptor takes from an axis (R83, R90) -/

/-- Is it no descriptor's to end: nothing runs, or what runs goes on without a descriptor? -/
def Running.unowned : Running → Bool
  | .none => true
  | .vel o _ _ => o.isNone
  | .stop o _ => o.isNone
  | .move _ | .group _ | .ident _ => false

/-- An axis from which the end of descriptors has taken what `b` has no more: what they set up, and a fault that they clear. -/
def Axis.released (a b : Axis) : Axis :=
  { a with
    ahead := b.ahead
    tt := { a.tt with running := b.tt.running, ring := b.tt.ring, faulted := b.tt.faulted }
    cd := { a.cd with seq := b.cd.seq }
    br := { a.br with wait := b.br.wait } }

/-- Descriptors have ended: the axes keep all but what those set up. -/
structure Retires (s t : State) : Prop where
  axis : ∀ y : AxisId, t.ax.get y = (s.ax.get y).released (t.ax.get y)
  runs : ∀ y : AxisId, (s.ax.get y).tt.running.unowned = true → (t.ax.get y).tt.running = (s.ax.get y).tt.running
  ring : ∀ y : AxisId, (s.ax.get y).tt.ring = none → (t.ax.get y).tt.ring = none

theorem Retires.of_ax {s t : State} (h : t.ax = s.ax) : Retires s t :=
  ⟨fun _ => by rw [h]; rfl, fun _ _ => by rw [h], fun _ none => by rw [h, none]⟩

theorem Retires.refl (s : State) : Retires s s := .of_ax rfl

theorem Retires.trans {s t u : State} (h : Retires s t) (k : Retires t u) : Retires s u where
  axis y := by rw [k.axis y, h.axis y]; rfl
  runs y free := by
    have same := h.runs y free
    exact (k.runs y (same ▸ free)).trans same
  ring y none := k.ring y (h.ring y none)

theorem Retires.forAll {α : Type} {l : List α} {f : State → α → State} (h : ∀ t a, Retires t (f t a)) (s : State) :
    Retires s (s.forAll l f) := State.forAll_keeps (Retires s) (fun t a k => k.trans (h t a)) (.refl s)

theorem Retires.modAx {s : State} {x : AxisId} {f : Axis → Axis} (axis : ∀ a, f a = a.released (f a))
    (runs : ∀ a : Axis, a.tt.running.unowned = true → (f a).tt.running = a.tt.running)
    (ring : ∀ a : Axis, a.tt.ring = none → (f a).tt.ring = none) : Retires s (s.modAx x f) := by
  have each (y : AxisId) : (s.modAx x f).ax.get y = f (s.ax.get y) ∨ (s.modAx x f).ax.get y = s.ax.get y := by
    by_cases own : y = x
    · subst own
      exact .inl (State.get_modAx_self ..)
    · exact .inr (State.get_modAx_ne _ _ own)
  refine ⟨fun y => ?_, fun y free => ?_, fun y none => ?_⟩ <;> rcases each y with h | h <;> rw [h]
  · exact axis _
  · rfl
  · exact runs _ free
  · exact ring _ none
  · exact none

theorem State.fillCam_ax (s : State) (f : FollowSt) : (s.fillCam f).1.ax = s.ax := by
  unfold State.fillCam
  split
  · exact State.forAll_proj State.ax (f := fun t n => t.emit (.dmaRead (t.owner f.ring) (f.addr + 64 * n) 64)) (fun _ _ => rfl) s
  · rfl

theorem State.camHead_retires (s : State) (x : AxisId) : Retires s (s.camHead x) := by
  have store (t : State) (f : Option FollowSt) : Retires t (t.modAx x fun a => { a with ahead := f }) :=
    .modAx (fun _ => rfl) (fun _ _ => rfl) (fun _ none => none)
  unfold State.camHead
  extract_lets ahead
  split
  · split
    · split
      · exact .refl s
      · exact (Retires.of_ax (s.fillCam_ax _)).trans (store ..)
    · split
      · exact store ..
      · exact .refl s
  · split
    · exact store ..
    · exact .refl s

theorem State.queueLow_ax (s : State) (x : AxisId) (fr : FrameNo) : (s.queueLow x fr).ax = s.ax := by
  unfold State.queueLow
  extract_lets a n moving
  split
  · exact (tells_raiseAt ..).ax
  · rfl

theorem State.finish_retires (s : State) (d : Desc) (status : Nat) (d0 d1 : Word) (fr : FrameNo) :
    Retires s (s.finish d status d0 d1 fr) := by
  unfold State.finish
  extract_lets s1 s2 s3
  have h1 : s1.ax = s.ax := by
    unfold s1
    split
    · rfl
    · exact State.ax_produce ..
  have h3 : s3.ax = s.ax := by
    unfold s3
    split
    · exact (State.ax_moveFeed ..).trans ((State.ax_finishEvents ..).trans h1)
    · exact (State.ax_finishEvents ..).trans h1
  split
  · exact (Retires.of_ax h3).trans (.forAll (fun t x => (Retires.of_ax (t.queueLow_ax x fr)).trans (State.camHead_retires ..)) s3)
  · exact .of_ax h3

theorem State.finishOk_retires (s : State) (d : Desc) (d0 d1 : Word) (fr : FrameNo) : Retires s (s.finishOk d d0 d1 fr) := by
  unfold State.finishOk
  split <;> exact State.finish_retires ..

theorem State.finishRejected_retires (s : State) (d : Desc) (fr : FrameNo) : Retires s (s.finishRejected d fr) := by
  unfold State.finishRejected
  split
  · exact State.finish_retires ..
  · exact .refl s

theorem State.finishHead_retires (s : State) (d : Desc) (status : Nat) (d0 d1 : Word) (fr : FrameNo) :
    Retires s (s.finishHead d status d0 d1 fr) := by
  unfold State.finishHead
  split
  · unfold State.rejectMode
    extract_lets s1
    have ended : Retires s s1 := State.finish_retires ..
    split
    · exact ended
    · exact ended.trans (.of_ax (tells_forAll _ _ (fun t u => tells_raiseAt ..) s1).ax)
  · exact State.finish_retires ..

theorem State.release_retires (s : State) (d : Desc) : Retires s (s.release d) := by
  refine .forAll (fun t x => .modAx (fun _ => rfl) (fun a free => ?_) fun a none => ?_) s
  · dsimp only
    revert free
    cases a.tt.running with
    | none => exact fun _ => rfl
    | vel o _ _ => exact fun free => by rw [Option.isNone_iff_eq_none.1 free]; rfl
    | stop o _ => exact fun free => by rw [Option.isNone_iff_eq_none.1 free]; rfl
    | move _ | group _ | ident _ => exact fun free => nomatch free
  · dsimp only
    rw [none]

theorem State.endOne_retires (s : State) (d e : Desc) (x : AxisId) (fr : FrameNo) : Retires s (s.endOne d e x fr) := by
  unfold State.endOne
  extract_lets pos
  split
  · split
    · exact (State.finishOk_retires ..).trans (State.release_retires ..)
    · exact (State.finish_retires ..).trans (State.release_retires ..)
  · split
    · split
      · exact State.finish_retires ..
      · split
        · exact State.finishRejected_retires ..
        · exact State.finish_retires ..
    · exact State.finish_retires ..

theorem State.replaceNow_retires (s : State) (d : Desc) : Retires s (s.replaceNow d) := by
  unfold State.replaceNow
  split
  · refine Retires.trans ?_ (.of_ax (State.modDesc_ax ..))
    rw [State.supersede_eq]
    exact .forAll (fun t x => (Retires.forAll (fun u e => u.endOne_retires ..) t).trans (.forAll (fun u e => u.endOne_retires ..) _)) s
  · exact .refl s

theorem State.clearFor_retires (s : State) (d : Desc) : Retires s (s.clearFor d) := by
  refine .forAll (fun t x => ?_) s
  unfold State.clearOn
  split
  · unfold State.clearFault State.modTt
    exact .modAx (fun _ => rfl) (fun _ _ => rfl) fun _ none => none
  · exact .refl t

theorem State.leave_retires (s : State) (d : Desc) : Retires s (s.leave d) := by
  unfold State.leave
  split
  · refine .trans (.of_ax ?_) (State.finishHead_retires ..)
    split <;> rfl
  · exact .refl s

/-- A motion's descriptor that completes takes nothing else from the axes (R73). -/
theorem State.motionDone_retires (s : State) (n : Nat) : Retires s (s.motionDone n) := by
  unfold State.motionDone
  split
  next d is =>
    split
    · rw [State.settle_eq is]
      exact (((s.replaceNow_retires d).trans (State.clearFor_retires ..)).trans (State.leave_retires ..)).trans (State.finishOk_retires ..)
    · exact .refl s
  next => exact .refl s

end Sys2Proof.Machine
end

section

namespace Sys2Proof.Machine

open Safety

/-! ### The ends of motions (O29) -/

/-- Where nothing takes effect in the next frame, an axis is in it as it stands (R82). -/
theorem Axis.now_of_back {a : Axis} (alone : a.back = []) : a.now = a := by
  rw [Axis.now, alone]
  rfl

/-- Where nothing takes effect in the next frame, what moves an axis goes on. -/
theorem Axis.runsOn_of_back {a : Axis} (alone : a.back = []) (stays : a.tt.modeNext = none) : a.runsOn = true := by
  rw [Axis.runsOn, Axis.now_of_back alone, stays]
  simp

theorem State.get_enterHold (s : State) {x : AxisId} (on : (s.ax.get x).runsOn = true) :
    ((s.enterHold x).ax.get x).tt = (s.ax.get x).tt.held := by
  unfold State.enterHold
  rw [State.get_modAx_self]
  exact if_pos on

theorem State.get_parkNow (s : State) (x : AxisId) :
    ((s.parkNow x).ax.get x).tt = (s.ax.get x).tt.parked ∧ ((s.parkNow x).ax.get x).cd.phase = .off := by
  unfold State.parkNow
  rw [State.get_modAx_self]
  exact ⟨rfl, rfl⟩

/-- A motion at rest, of an axis that neither holds nor parks, ends in HOLD (R107). -/
theorem State.holdRest_enters {s : State} {x : AxisId} (moving : (s.ax.get x).tt.mode = .position ∨ (s.ax.get x).tt.mode = .velocity)
    (stays : (s.ax.get x).tt.modeNext = none) : s.holdRest x = s.enterHold x := by
  unfold State.holdRest
  rcases moving with h | h <;> simp [h, stays]

theorem State.get_holdRest {s : State} {x : AxisId} (alone : (s.ax.get x).back = [])
    (moving : (s.ax.get x).tt.mode = .position ∨ (s.ax.get x).tt.mode = .velocity) (stays : (s.ax.get x).tt.modeNext = none) :
    ((s.holdRest x).ax.get x).tt = (s.ax.get x).tt.held := by
  rw [State.holdRest_enters moving stays]
  exact s.get_enterHold (Axis.runsOn_of_back alone stays)

section

variable {s : State} {x : AxisId}

theorem State.restNow_moving (moves : (s.ax.get x).now.tt.rests (s.ax.get x).now.tt.o1 (s.ax.get x).now.tt.u1 = false) :
    s.restNow x = s := by
  simp [State.restNow, moves]

variable (begun : frameLe (s.ax.get x).now.tt.effFrame s.frm.count = true) (free : (s.ax.get x).now.fol = none)
  (rests : (s.ax.get x).now.tt.rests (s.ax.get x).now.tt.o1 (s.ax.get x).now.tt.u1 = true)
include begun free rests

theorem State.restNow_move {n : Nat} (runs : (s.ax.get x).now.tt.running = .move n) (effect : s.inEffect n = true) :
    s.restNow x = (s.holdRest x).motionDone n := by
  simp [State.restNow, begun, free, rests, runs, effect]

theorem State.restNow_park {n : Nat} (runs : (s.ax.get x).now.tt.running = .stop (some n) 1) (effect : s.inEffect n = true)
    (unparked : (s.ax.get x).now.tt.mode ≠ .parked) (on : (s.ax.get x).runsOn = true) :
    s.restNow x = (s.parkNow x).motionDone n := by
  simp [State.restNow, begun, free, rests, runs, State.inEffectO, effect, unparked, on, State.motionDoneO]

theorem State.restNow_none (runs : (s.ax.get x).now.tt.running = .none) : s.restNow x = s.holdRest x := by
  simp [State.restNow, begun, free, rests, runs]

end

/-- The commands of a velocity that is commanded, and of one that is not (R125). -/
theorem exec_moveVelComplete_run {s : State} {x : AxisId} {n v : Nat} {neg : Bool} {w : Int}
    (runs : (s.ax.get x).now.tt.running = .vel (some n) v neg) (goal : (s.ax.get x).now.tt.goal = .velocity w) (speed : v ≠ 0) :
    exec (.moveVelComplete x) s = .next (
      if s.inEffect n = true ∧ (s.ax.get x).now.tt.o1.v = w ∧ (s.ax.get x).now.tt.u1.v = w
      then (s.runsOut x fun _ => .vel none v neg).motionDone n else s) := by
  have arm : exec (.moveVelComplete x) s = execMoveVelComplete x s := rfl
  simp only [arm, execMoveVelComplete, runs, goal, if_pos speed]

theorem exec_moveVelComplete_none {s : State} {x : AxisId} (runs : (s.ax.get x).now.tt.running = .none) :
    exec (.moveVelComplete x) s = .next s := by
  have arm : exec (.moveVelComplete x) s = execMoveVelComplete x s := rfl
  simp only [arm, execMoveVelComplete, runs]

/-- The motion of an axis goes on without its descriptor. -/
theorem State.get_runsOut (s : State) {x : AxisId} (alone : (s.ax.get x).back = []) (f : Running → Running) :
    ((s.runsOut x f).ax.get x).tt = { (s.ax.get x).tt with running := f (s.ax.get x).tt.running } := by
  unfold State.runsOut
  rw [State.get_modAx_self, Axis.now_of_back alone]
  exact if_pos rfl

/-- What the end of a motion's descriptor leaves of an axis that no descriptor moves any more. -/
theorem Retires.rested {s t : State} (h : Retires s t) {x : AxisId} {u : TtState} (axis : (s.ax.get x).tt = u)
    (free : u.running.unowned = true) : (t.ax.get x).tt.mode = u.mode ∧ (t.ax.get x).tt.running = u.running ∧
      (t.ax.get x).tt.goal = u.goal ∧ (t.ax.get x).tt.u0 = u.u0 := by
  subst axis
  have runs := h.runs x free
  rw [runs, h.axis x]
  exact ⟨rfl, rfl, rfl, rfl⟩

/-- Settles O29, kind of motion by kind of motion. -/
theorem motionEnds : Obligations.MotionEnds := by
  unfold Obligations.MotionEnds
  intro s x
  have arm : exec (.moveComplete x) s = .next (s.restNow x) := rfl
  refine ⟨fun n runs begun free => ⟨fun effect direct rested => ?_, fun moving => ?_⟩,
    fun n alone runs begun free unparked stays effect rested => ?_,
    fun runs => ⟨exec_moveVelComplete_none runs, fun still slow => ?_, fun moving direct rested begun free alone stays => ?_⟩,
    fun n v neg w runs goal speed => ⟨fun effect shaped unshaped alone => ?_, fun other => ?_⟩⟩
  · have rests : (s.ax.get x).now.tt.rests (s.ax.get x).now.tt.o1 (s.ax.get x).now.tt.u1 = true := by
      simp [TtState.rests, runs, direct, rested]
    rw [State.restNow_move begun free rests runs effect] at arm
    have within : Within false s ((s.holdRest x).motionDone n) := within_motionDone (within_holdRest (.refl _ s) x) n
    refine ⟨arm, completes_of_exec arm ⟨within.frm, within.cu, fun alone moves stays => ?_⟩⟩
    rw [Axis.now_of_back alone] at moves stays ⊢
    obtain ⟨mode, running, -, u0⟩ := ((s.holdRest x).motionDone_retires n).rested (State.get_holdRest alone (.inl moves) stays) rfl
    exact ⟨mode, running, u0⟩
  · exact arm.trans (congrArg _ (State.restNow_moving (by simp [TtState.rests, runs, moving])))
  · have rests : (s.ax.get x).now.tt.rests (s.ax.get x).now.tt.o1 (s.ax.get x).now.tt.u1 = true := by
      simp [TtState.rests, runs, rested]
    rw [State.restNow_park begun free rests runs effect unparked
      (Axis.runsOn_of_back alone (Axis.now_of_back alone ▸ stays))] at arm
    obtain ⟨parks, off⟩ := s.get_parkNow x
    have ends := (s.parkNow x).motionDone_retires n
    obtain ⟨mode, -⟩ := ends.rested parks rfl
    refine completes_of_exec arm ⟨mode, ?_, (within_motionDone (within_parkNow (.refl _ s) x) n).frm⟩
    rw [ends.axis x]
    exact off
  · exact arm.trans (congrArg _ (State.restNow_moving (by simp [TtState.rests, runs, still, slow])))
  · have rests : (s.ax.get x).now.tt.rests (s.ax.get x).now.tt.o1 (s.ax.get x).now.tt.u1 = true := by
      rcases moving with h | h <;> simp [TtState.rests, runs, h, direct, rested]
    rw [State.restNow_none begun free rests runs] at arm
    rw [Axis.now_of_back alone] at moving stays ⊢
    have holds := State.get_holdRest alone moving stays
    refine completes_of_exec arm ?_
    rw [holds, State.holdRest_enters moving stays]
    exact ⟨rfl, rfl, rfl, rfl, rfl⟩
  · have done := exec_moveVelComplete_run runs goal speed
    rw [if_pos ⟨effect, shaped, unshaped⟩] at done
    rw [Axis.now_of_back alone] at goal ⊢
    obtain ⟨mode, running, aims, -⟩ := ((s.runsOut x fun _ => .vel none v neg).motionDone_retires n).rested
      (s.get_runsOut alone fun _ => .vel none v neg) rfl
    exact completes_of_exec done ⟨running, mode, aims.trans goal, (within_motionDone (within_runsOut (.refl _ s) x _) n).frm⟩
  · have stays := exec_moveVelComplete_run runs goal speed
    rwa [if_neg fun h => other.elim (· h.2.1) (· h.2.2)] at stays

end Sys2Proof.Machine
end

section

namespace Sys2Proof.Machine

open Safety

/-! ### The fit of a ringing test (R280) -/

theorem stronger_cases (a b : Option (Damped × FitSums)) : stronger a b = a ∨ stronger a b = b := by
  unfold stronger
  split
  · exact .inr rfl
  · exact .inl rfl
  · split
    · exact .inr rfl
    · exact .inl rfl

theorem candidates_bounds {c : Damped} (searched : c ∈ candidates) : 50 ≤ c.freq ∧ c.freq ≤ 5000 ∧ c.damp ≤ 300 := by
  obtain ⟨i, hi, inner⟩ := List.mem_flatMap.1 searched
  obtain ⟨z, hz, rfl⟩ := List.mem_map.1 inner
  rw [List.mem_range] at hi hz
  dsimp only
  omega

/-- The strongest fit is one of those searched. -/
theorem mem_candidates_of_bestFit {hz n : Nat} {ys : List Int} {d : Damped} (best : bestFit hz n ys = some d) : d ∈ candidates := by
  unfold bestFit at best
  split at best
  · cases best
  · obtain ⟨p, found, rfl⟩ := Option.map_eq_some_iff.1 best
    clear best
    revert p
    refine List.foldlRecOn candidates _ (motive := fun best => ∀ p : Damped × FitSums, best = some p → p.1 ∈ candidates)
      (fun p h => nomatch h)
      fun best ih c searched p taken => ?_
    dsimp only at taken
    split at taken
    · rcases stronger_cases best (some (c, c.sums hz n ys)) with old | new
      · exact ih p (old ▸ taken)
      · cases new.symm.trans taken
        exact searched
    · exact ih p taken

/-- A ringing test reports no oscillation, or one of 5 to 500 Hz. -/
theorem State.ringFit_bounds (s : State) (r : RingDown) (f z : Nat) :
    (s.ringFit r f z).1 = 0 ∨ 50 ≤ (s.ringFit r f z).1 ∧ (s.ringFit r f z).1 ≤ 5000 ∧ (s.ringFit r f z).2 ≤ 300 := by
  unfold State.ringFit
  split
  · exact .inl rfl
  next d best =>
    split
    next close =>
      obtain ⟨least, most, damp, -, -⟩ := of_decide_eq_true close
      exact .inr ⟨least, most, damp⟩
    · exact .inr (candidates_bounds (mem_candidates_of_bestFit best))

/-! ### SHAPER_IDENT_COMPLETE (R144, R280) -/

/-- The word of a ringing test's result is VALID. -/
theorem bitOf_idshpWord (old : Word) (freq damp : Nat) : bitOf (idshpWord old freq damp) 31 = true := by
  rw [bitOf, idshpWord, wd, BitVec.getLsbD_ofNat, Nat.testBit_eq_decide_div_mod_eq]
  simp only [Nat.reduceLT, decide_true, Bool.true_and, decide_eq_true_eq]
  have number := Nat.mod_lt (fld old 30 23 + 1) (show 0 < 256 by decide)
  have damping := Nat.mod_lt damp (show 0 < 1024 by decide)
  have frequency := Nat.mod_lt freq (show 0 < 8192 by decide)
  omega

theorem evReg_AX_IDSHP (x : AxisId) : evReg (Adr.AX_IDSHP x) = false := by
  simp only [evReg, Adr.AX_IDSHP, Adr.EVT_PEND_LO, Adr.EVT_PEND_HI, Bool.or_eq_false_iff, beq_eq_false_iff_ne, Bool.and_eq_false_iff,
    decide_eq_false_iff_not]
  omega

theorem State.shaperIdentComplete_does (s : State) (x : AxisId) (f z : Nat) (r : RingDown) (g : FrameNo) (d : Desc)
    (rings : (s.ax.get x).tt.ring = some r) (arrived : r.arrived = some g) (desc : s.desc? r.desc = some d) (effect : d.stage = .effect)
    (elapsed : s.msFrames 400 ≤ s.since g) {p : Nat × Nat} (fit : s.ringFit r f z = p) :
    Completes (.shaperIdentComplete x f z) s fun t =>
      (if p.1 = 0 then (t.ax.get x).stg = (s.ax.get x).stg
        else (t.ax.get x).stg.shpFreq = p.1 ∧ (t.ax.get x).stg.shpDamp = p.2) ∧
      (t.ax.get x).tt.ring = none ∧ (t.ax.get x).act = (s.ax.get x).act ∧ t.rb (Adr.AX_IDSHP x) 31 = true := by
  obtain ⟨w, word⟩ : ∃ w, idshpWord (s.reg (Adr.AX_IDSHP x)) p.1 p.2 = w := ⟨_, rfl⟩
  obtain ⟨u, written⟩ : ∃ u, (s.setReg (Adr.AX_IDSHP x) w).modAx x (fun a =>
    { a with stg := if p.1 = 0 then a.stg else { a.stg with shpFreq := p.1, shpDamp := p.2 }
             tt := { a.tt with ring := none } }) = u := ⟨_, rfl⟩
  have axis : u.ax.get x = { s.ax.get x with
      stg := if p.1 = 0 then (s.ax.get x).stg else { (s.ax.get x).stg with shpFreq := p.1, shpDamp := p.2 }
      tt := { (s.ax.get x).tt with ring := none } } := by
    rw [← written, State.get_modAx_self]
    rfl
  have valid : u.rb (Adr.AX_IDSHP x) 31 = true := by
    rw [← written]
    exact (congrArg (bitOf · 31) ((State.reg_setReg_self ..).trans word.symm)).trans (bitOf_idshpWord ..)
  have ends := u.finishOk_retires d (wd p.1) 0 s.frm.count
  refine completes_of_exec (t := u.finishOk d (wd p.1) 0 s.frm.count) ?_ ⟨?_, ends.ring x (by rw [axis]), ?_, ?_⟩
  · show execShaperIdentComplete x f z s = _
    simp only [execShaperIdentComplete, rings, arrived, desc, effect, elapsed, and_self, if_true, fit, word, written]
  · rw [ends.axis x, axis]
    by_cases none : p.1 = 0
    · simp only [none, if_true]
      rfl
    · simp only [none, if_false]
      exact ⟨rfl, rfl⟩
  · rw [ends.axis x, axis]
    rfl
  · have kept := (within_finishOk (.refl true u) d (wd p.1) 0 s.frm.count).reg rfl _ (evReg_AX_IDSHP x)
    rw [State.rb, kept]
    exact valid

/-! ### The power-down of a coil (R184) -/

theorem exec_powerDownDelayEnd_of_due {s : State} {x : AxisId} (waits : (s.ax.get x).cd.phase = .pdWait)
    (elapsed : s.msFrames (s.cardOf x).pddelay ≤ s.since (s.ax.get x).cd.phaseAt) :
    exec (.powerDownDelayEnd x) s = .next (s.modCd x fun c =>
      { c with phase := if (s.cardOf x).pdramp = 0 then .holdLow else .pdRamp
               phaseAt := c.phaseAt + BitVec.ofNat 64 (s.msFrames (s.cardOf x).pddelay) }) := by
  show execPowerDownDelayEnd x s = _
  simp only [execPowerDownDelayEnd, waits, elapsed, and_self, if_true]

theorem exec_powerDownRampEnd_of_due {s : State} {x : AxisId} (ramps : (s.ax.get x).cd.phase = .pdRamp)
    (elapsed : s.msFrames (s.cardOf x).pdramp ≤ s.since (s.ax.get x).cd.phaseAt) :
    exec (.powerDownRampEnd x) s = .next (s.modCd x fun c =>
      { c with phase := .holdLow, phaseAt := c.phaseAt + BitVec.ofNat 64 (s.msFrames (s.cardOf x).pdramp) }) := by
  show execPowerDownRampEnd x s = _
  simp only [execPowerDownRampEnd, ramps, elapsed, and_self, if_true]

theorem exec_powerDown_of_run {s : State} {x : AxisId} (runs : (s.ax.get x).cd.phase = .run) :
    exec (.powerDownDelayEnd x) s = .next s ∧ exec (.powerDownRampEnd x) s = .next s := by
  constructor
  · show execPowerDownDelayEnd x s = _
    simp [execPowerDownDelayEnd, runs]
  · show execPowerDownRampEnd x s = _
    simp [execPowerDownRampEnd, runs]

/-! ### The tracking at standstill (R191, R192) -/

/-- A new resistance gives the axis a new winding temperature and its warning (R192). -/
theorem State.get_rhatChanged (s : State) (x : AxisId) :
    ∃ w h, (s.rhatChanged x).ax.get x = { s.ax.get x with cd := { (s.ax.get x).cd with twind := w, twWarn := h } } := by
  unfold State.rhatChanged
  extract_lets c a r t lim s1
  have told : s1.ax = s.ax := by
    unfold s1
    split
    · exact (tells_raise ..).ax
    · rfl
  exact ⟨_, _, (State.get_modCd_self ..).trans (by rw [told])⟩

theorem State.writeId_ax (s : State) (x : AxisId) (kind : Nat) (outside : Bool) (ra rb la lb : Nat) :
    (s.writeId x kind outside ra rb la lb).ax = s.ax := by
  unfold State.writeId
  extract_lets n
  rw [State.setReg_ax, State.setReg_ax, State.setReg_ax]

theorem State.formR_of_formed (s : State) {c : Coil} {r : Int} (formed : c.rFormed = some r) : s.formR c = (s, r) := by
  rw [State.formR, formed]

/-- With a current in both coils each takes what it has formed. -/
theorem State.stillR_of_formed (s : State) {c : CdState} {ra rb : Int} (a : c.smallA = false) (b : c.smallB = false)
    (fa : c.ca.rFormed = some ra) (fb : c.cb.rFormed = some rb) : s.stillR c = (s, ra, rb) := by
  simp only [State.stillR, a, b, State.formR_of_formed s fa, State.formR_of_formed s fb, Bool.false_eq_true, if_false]

theorem coilsWhere_eq_nil {ra rb : Int} {p : Int → Bool} (a : p ra = false) (b : p rb = false) : coilsWhere ra rb p = [] := by
  rw [coilsWhere, a, b]
  rfl

/-- Of 50 mΩ to 60 Ω a coil is neither short nor open (R234). -/
theorem State.openShort_of_between (s : State) (x : AxisId) (q : Option SeqSt) {ra rb : Int} (a : 50 ≤ ra ∧ ra ≤ 60000)
    (b : 50 ≤ rb ∧ rb ≤ 60000) : s.openShort x q ra rb = none := by
  unfold State.openShort
  rw [coilsWhere_eq_nil (decide_eq_false (by omega)) (decide_eq_false (by omega)),
    coilsWhere_eq_nil (decide_eq_false (by omega)) (decide_eq_false (by omega))]
  rfl

theorem rWord_of_between {r : Int} (h : 50 ≤ r ∧ r ≤ 60000) : rWord r = r.toNat := by
  unfold rWord clampInt
  omega

theorem State.standstillWindowEnd_does (s : State) (x : AxisId) (ra rb : Int) (elapsed : 256 ≤ (s.ax.get x).cd.still)
    (a : (s.ax.get x).cd.smallA = false) (b : (s.ax.get x).cd.smallB = false)
    (fa : (s.ax.get x).cd.ca.rFormed = some ra) (fb : (s.ax.get x).cd.cb.rFormed = some rb)
    (ba : 50 ≤ ra ∧ ra ≤ 60000) (bb : 50 ≤ rb ∧ rb ≤ 60000)
    (ia : (s.cardOf x).rInBand ra = true) (ib : (s.cardOf x).rInBand rb = true) :
    Completes (.standstillWindowEnd x) s fun t => (t.ax.get x).cd.ca.rhat = ra.toNat ∧ (t.ax.get x).cd.cb.rhat = rb.toNat ∧
      (t.ax.get x).cd.rsrc = 3 ∧ (t.ax.get x).cd.idValid = true ∧ (t.ax.get x).cd.still = 0 ∧ (t.ax.get x).tt = (s.ax.get x).tt := by
  obtain ⟨u, taken⟩ : ∃ u, ((s.modCd x fun c => { c.both Coil.zeroSums with still := 0, stillAt := s.frm.count }).writeId x 3 false
    (rWord ra) (rWord rb) 0 0).modCd x (fun c => { c with ca := { c.ca with rhat := rWord ra }, cb := { c.cb with rhat := rWord rb },
                                                          rsrc := 3, idValid := true }) = u := ⟨_, rfl⟩
  obtain ⟨w, h, axis⟩ := u.get_rhatChanged x
  refine completes_of_exec (t := u.rhatChanged x) ?_ ?_
  · show execStandstillWindowEnd x s = _
    simp only [execStandstillWindowEnd, Nat.not_lt.2 elapsed, if_false, State.stillR_of_formed s a b fa fb, ia, ib, Bool.and_self,
      Bool.not_true, State.openShort_of_between _ x none ba bb, if_true, taken]
  · rw [axis, ← taken, State.get_modCd_self, State.writeId_ax, State.get_modCd_self]
    exact ⟨rWord_of_between ba, rWord_of_between bb, rfl, rfl, rfl, rfl⟩

theorem exec_standstillWindowEnd_of_short {s : State} {x : AxisId} (short : (s.ax.get x).cd.still < 256) :
    exec (.standstillWindowEnd x) s = .next s := by
  show execStandstillWindowEnd x s = _
  simp only [execStandstillWindowEnd, short, if_true]

/-- Settles O39, from the bounds of the search for the fit, what ending a descriptor takes from an axis, and one equation for each end of a
coil's phase. -/
theorem holdingCoils : Obligations.HoldingCoils := by
  unfold Obligations.HoldingCoils
  refine ⟨fun s x f z r g d rings arrived desc effect elapsed => ⟨s.ringFit_bounds r f z,
      s.shaperIdentComplete_does x f z r g d rings arrived desc effect elapsed rfl⟩, fun s x waits elapsed => ?_, fun s x ramps elapsed => ?_,
    fun s x runs => exec_powerDown_of_run runs,
    fun s x ra rb elapsed a b fa fb la ha lb hb ia ib => s.standstillWindowEnd_does x ra rb elapsed a b fa fb ⟨la, ha⟩ ⟨lb, hb⟩ ia ib,
    fun s x short => exec_standstillWindowEnd_of_short short⟩
  · refine completes_of_exec (exec_powerDownDelayEnd_of_due waits elapsed) ?_
    rw [State.get_modCd_self]
    exact ⟨rfl, rfl, rfl⟩
  · refine completes_of_exec (exec_powerDownRampEnd_of_due ramps elapsed) ?_
    rw [State.get_modCd_self]
    exact ⟨rfl, rfl, rfl⟩

end Sys2Proof.Machine
end

section

namespace Sys2Proof.Machine

open Safety

/-! ### The motion under way after a commit (R119, R131, R132, R136 to R138) -/

theorem State.reclip_steers (s : State) (x : AxisId) : Steers x s (s.reclip x) := by
  unfold State.reclip
  extract_lets a m t
  split
  · exact .refl x s
  · exact (s.limitClipped_notes ..).steers.trans (.modAx fun _ => rfl)

theorem State.redecide_steers (s : State) (x : AxisId) (l : Limits) : Steers x s (s.redecide x l) := by
  unfold State.redecide
  extract_lets a t
  split
  next g past _ =>
    have told : Notes x s (if past = true then s.limitClipped x (intPart t.u0.p) 3 (decide (0 < t.u0.dir)) else s) :=
      .ite (s.limitClipped_notes ..) (.refl x s)
    exact told.steers.trans (State.decideTarget_next rfl).1

theorem State.runVelocity_steers (s : State) (x : AxisId) (v : Int) (l : Limits) (braking : Bool) :
    Steers x s (s.runVelocity x v l braking) := by
  obtain ⟨u, step⟩ : ∃ u, stepVelocity (l.plim (s.ax.get x).tt.sc) (s.ax.get x).tt.u0 v = u := ⟨_, rfl⟩
  simp only [State.runVelocity, step]
  split
  · exact .modAx fun _ => rfl
  · exact .modAx fun _ => rfl

theorem State.revel_steers (s : State) (x : AxisId) (neg : Bool) (l : Limits) (braking : Bool) :
    Steers x s (s.revel x neg l braking) := by
  unfold State.revel
  extract_lets a t
  split
  split
  · exact (s.limitClipped_notes ..).steers.trans (.modAx fun _ => rfl)
  · exact s.runVelocity_steers ..

theorem State.stopMotion_steers (s : State) (x : AxisId) (d jd : Nat) (park : Bool) : Steers x s (s.stopMotion x d jd park) :=
  (State.stopFrom_does rfl).1

/-- A commit of the Timetable set plans the running motion anew, and nothing else. -/
theorem State.rerun_steers (s : State) (x : AxisId) (now : Bool) : Steers x s (s.rerun x now) := by
  unfold State.rerun
  extract_lets a t f own l u s1
  have owned : Steers x s u := .modAx fun _ => rfl
  have steers : Steers x s s1 := by
    unfold s1
    split
    · exact owned.trans (u.redecide_steers ..)
    · exact owned.trans (u.redecide_steers ..)
    · exact owned.trans (u.redecide_steers ..)
    · exact owned.trans (u.revel_steers ..)
    · exact owned.trans (u.revel_steers ..)
    · split
      · exact (State.stopFrom_does rfl).1
      · exact .refl x s
    · split
      · split <;> exact s.stopMotion_steers ..
      · exact .refl x s
    · exact .refl x s
  split
  · exact steers
  · exact steers.trans (s1.planProfile_steers x)

/-! ### What a commit takes (R129) -/

/-- A Timetable set that is taken becomes the axis' active one. -/
theorem State.takeTt_does (s : State) (x : AxisId) (n : TtSet) :
    AxisMoves x s (s.takeTt x n) ∧ ((s.takeTt x n).ax.get x).act = n := by
  unfold State.takeTt
  extract_lets o m s1 s2 lims s3
  have copied : AxisMoves x s s1 ∧ (s1.ax.get x).act = n := ⟨.modAx .., by rw [State.get_modAx_self]⟩
  have moded : AxisMoves x s s2 ∧ (s2.ax.get x).act = n := by
    unfold s2
    split
    · exact ⟨copied.1.trans (.modTt ..), by rw [State.get_modTt_self, copied.2]⟩
    · split
      · exact ⟨copied.1.trans (.modTt ..), by rw [State.get_modTt_self, copied.2]⟩
      · exact copied
  have clipped : Steers x s2 s3 := by
    unfold s3
    split
    · exact s2.reclip_steers x
    · exact .refl x s2
  have planned {t : State} (h : Steers x s2 t) : AxisMoves x s t ∧ (t.ax.get x).act = n :=
    ⟨moded.1.trans h.moves, h.act.trans moded.2⟩
  split
  · exact planned (clipped.trans (s3.rerun_steers ..))
  · exact planned clipped

/-- A coil set that is taken becomes the axis' active one. -/
theorem State.takeCoil_does (s : State) (x : AxisId) (n : CoilSet) :
    AxisMoves x s (s.takeCoil x n) ∧ ((s.takeCoil x n).ax.get x).coilA = n ∧
      ((s.takeCoil x n).ax.get x).act = (s.ax.get x).act := by
  unfold State.takeCoil
  extract_lets o ph s1 c s2
  have copied : AxisMoves x s s2 ∧ (s2.ax.get x).coilA = n ∧ (s2.ax.get x).act = (s.ax.get x).act := by
    unfold s2
    split
    · exact ⟨.modAx .., by rw [State.get_modAx_self], by rw [State.get_modAx_self]⟩
    · refine ⟨(AxisMoves.modAx ..).trans (.modAx ..), ?_⟩
      rw [State.get_modAx_self, State.get_modAx_self]
      exact ⟨rfl, rfl⟩
  split
  · obtain ⟨moves, coil, act⟩ := copied
    rw [State.runPhase, State.get_modCd_self]
    exact ⟨moves.trans (.modCd ..), coil, act⟩
  · exact copied

end Sys2Proof.Machine
end

section

namespace Sys2Proof.Machine

open Safety

/-! ### SET_PARAM in the frame before its frame of effect (R113, R129) -/

/-- The outcome of a SET_PARAM moves the descriptors alone (R73, R87). -/
theorem State.paramDone_eqn (s : State) (d : Desc) (r : Refuse) : s.paramDone d r = { s with ord := (s.paramDone d r).ord } := by
  unfold State.paramDone
  split
  · rfl
  · exact s.laterOk_eqn ..

theorem State.paramDone_ax (s : State) (d : Desc) (r : Refuse) : (s.paramDone d r).ax = s.ax := by rw [State.paramDone_eqn]
theorem State.paramDone_frm (s : State) (d : Desc) (r : Refuse) : (s.paramDone d r).frm = s.frm := by rw [State.paramDone_eqn]
theorem State.paramDone_cards (s : State) (d : Desc) (r : Refuse) : (s.paramDone d r).cards = s.cards := by rw [State.paramDone_eqn]

theorem State.stage_tt (s : State) (x : AxisId) (c : Fin 64) (i : Fin 16) (v : Int) (b : List Byte) :
    s.stage x c (.tt i) v b = s.modAx x fun a => { a with stg := a.stg.put i v } := rfl

theorem State.stage_coil (s : State) (x : AxisId) (c : Fin 64) (i : Fin 4) (v : Int) (b : List Byte) :
    s.stage x c (.coil i) v b = s.modAx x fun a => { a with coilS := a.coilS.put i v.toNat } := rfl

/-- The identifiers of POS_SET, GRP_DEF and TRG_DISARM are commands of their own. -/
theorem execSetParam_other {s : State} {n : Nat} {d : Desc} (desc : s.desc? n = some d)
    (other : paramOf (u16 d.bytes 16) ∈ [some .posSet, some .grpDef, some .trgDisarm]) : exec (.setParam n) s = .next s := by
  show execSetParam n s = _
  simp only [execSetParam, desc]
  rcases (by simpa using other : _ ∨ _ ∨ _) with named | named | named <;> simp only [named]

theorem exec_setParam_of_due {s : State} {n : Nat} {d : Desc} (due : Due s n 0xF d)
    (own : paramOf (u16 d.bytes 16) ∉ [some .posSet, some .grpDef, some .trgDisarm]) :
    exec (.setParam n) s = .next ((onset s d).setParamEffect (onsetOf s d)) := by
  show execSetParam n s = _
  simp only [execSetParam, due.2.1]
  split
  next named => exact absurd named fun h => own (by simp [h])
  next named => exact absurd named fun h => own (by simp [h])
  next named => exact absurd named fun h => own (by simp [h])
  next => exact congrArg Host.Outcome.next (State.withEffect_of_due due (· == 0xF) rfl _)

/-- A parameter of another kind waits for the tick of its frame of effect. -/
theorem State.setParamEffect_of_not_plans {s : State} {d : Desc} (waits : d.plans = false) : s.setParamEffect d = s := by
  unfold State.setParamEffect
  unfold Desc.plans at waits
  split
  next named => rw [named] at waits; cases waits
  next named => rw [named] at waits; cases waits
  next => rfl

section

variable {s u : State} {d : Desc} {x : AxisId} {p : ParamId}

theorem State.setParamAhead_stages (s : State) (d : Desc) (x : AxisId) (p : ParamId) :
    s.setParamAhead d x p false = (s.stage x 0 p (paramValue p d.bytes) d.bytes).paramDone d none := by
  simp [State.setParamAhead]

variable {i : Fin 16} {r : Nat × Word × Word}
variable (staged : s.stage x 0 (.tt i) (paramValue (.tt i) d.bytes) d.bytes = u)
include staged

theorem State.setParamAhead_tt_refused (refused : u.ttRefusal x (u.ax.get x).stg = some r) :
    s.setParamAhead d x (.tt i) true = u.paramDone d (some r) := by
  simp [State.setParamAhead, staged, refused]

variable (allowed : u.ttRefusal x (u.ax.get x).stg = none)
include allowed

theorem State.setParamAhead_tt_takes (free : (u.ax.get x).stg.costs (u.ax.get x).act = false) :
    s.setParamAhead d x (.tt i) true = (u.takeTt x (u.ax.get x).stg).paramDone d none := by
  simp [State.setParamAhead, staged, allowed, free]

theorem State.setParamAhead_tt_asks (costs : (u.ax.get x).stg.costs (u.ax.get x).act = true) :
    s.setParamAhead d x (.tt i) true = u.ask (.commitTt d.acc (u.ax.get x).stg) (u.frm.count + 1) := by
  simp [State.setParamAhead, staged, allowed, costs]

end

section

variable {s u : State} {d : Desc} {x : AxisId} {i : Fin 4} {r : Nat × Word × Word}
variable (staged : s.stage x 0 (.coil i) (paramValue (.coil i) d.bytes) d.bytes = u)
include staged

theorem State.setParamAhead_coil_refused (refused : u.coilRefusal d.acc x (u.ax.get x).coilS = some r) :
    s.setParamAhead d x (.coil i) true = u.paramDone d (some r) := by
  simp [State.setParamAhead, staged, refused]

theorem State.setParamAhead_coil_takes (allowed : u.coilRefusal d.acc x (u.ax.get x).coilS = none) :
    s.setParamAhead d x (.coil i) true = (u.takeCoil x (u.ax.get x).coilS).paramDone d none := by
  simp [State.setParamAhead, staged, allowed]

end

/-- A due SET_PARAM of the Timetable's set acts on its axis, with the value and the commit of its descriptor. -/
theorem exec_setParam_tt {s : State} {n : Nat} {d : Desc} {i : Fin 16} (due : Due s n 0xF d)
    (named : paramOf (u16 d.bytes 16) = some (.tt i)) :
    exec (.setParam n) s = .next ((onset s d).setParamAhead (onsetOf s d) d.paramAxis (.tt i) (u8 d.bytes 19 == 1)) := by
  obtain ⟨-, bytes⟩ := onsetOf_operands due
  rw [exec_setParam_of_due due (by simp [named]), State.setParamEffect, Desc.paramAxis_congr bytes, bytes, named]

theorem exec_setParam_coil {s : State} {n : Nat} {d : Desc} {i : Fin 4} (due : Due s n 0xF d)
    (named : paramOf (u16 d.bytes 16) = some (.coil i)) :
    exec (.setParam n) s = .next ((onset s d).setParamAhead (onsetOf s d) d.paramAxis (.coil i) (u8 d.bytes 19 == 1)) := by
  obtain ⟨-, bytes⟩ := onsetOf_operands due
  rw [exec_setParam_of_due due (by simp [named]), State.setParamEffect, Desc.paramAxis_congr bytes, bytes, named]

/-- A SET_PARAM of the Timetable's set (R113, R129, R130). -/
theorem setParam_tt (s : State) (n : Nat) (d : Desc) (due : Due s n 0xF d) (i : Fin 16)
    (named : paramOf (u16 d.bytes 16) = some (.tt i)) :
    let x := d.paramAxis
    let o := onset s d
    let v := (o.ax.get x).stg.put i (paramValue (.tt i) d.bytes)
    let r := (o.stage x 0 (.tt i) (paramValue (.tt i) d.bytes) d.bytes).ttRefusal x v
    (u8 d.bytes 19 ≠ 1 → Completes (.setParam n) s fun t => (t.ax.get x).stg = v ∧
      (∀ y : AxisId, (t.ax.get y).act = (o.ax.get y).act ∧ (t.ax.get y).tt = (o.ax.get y).tt ∧
        (y ≠ x → (t.ax.get y).stg = (o.ax.get y).stg)) ∧ t.cards = s.cards ∧ t.frm = s.frm) ∧
    (u8 d.bytes 19 = 1 → r ≠ none → Completes (.setParam n) s fun t => ∀ y : AxisId, (t.ax.get y).act = (o.ax.get y).act) ∧
    (u8 d.bytes 19 = 1 → r = none → v.costs (o.ax.get x).act = false → Completes (.setParam n) s fun t => (t.ax.get x).act = v ∧
      t.frm = s.frm ∧ ∀ y : AxisId, y ≠ x → t.ax.get y = o.ax.get y) ∧
    (u8 d.bytes 19 = 1 → r = none → v.costs (o.ax.get x).act = true → Completes (.setParam n) s fun t =>
      t.frm = (s.ask (.commitTt n v) (s.frm.count + 1)).frm ∧ ∀ y : AxisId, (t.ax.get y).act = (o.ax.get y).act) := by
  intro x o v r
  obtain ⟨acc, bytes⟩ := onsetOf_operands due
  obtain ⟨frm, cards⟩ := onset_frame due
  have runs : exec (.setParam n) s = .next (o.setParamAhead (onsetOf s d) x (.tt i) (u8 d.bytes 19 == 1)) := exec_setParam_tt due named
  obtain ⟨u, staged⟩ : ∃ u, o.stage x 0 (.tt i) (paramValue (.tt i) (onsetOf s d).bytes) (onsetOf s d).bytes = u := ⟨_, rfl⟩
  have axis : u.ax.get x = { o.ax.get x with stg := v } := by rw [← staged, State.stage_tt, State.get_modAx_self, bytes]
  have only : AxisMoves x o u := by rw [← staged, State.stage_tt]; exact .modAx ..
  have refusal : r = u.ttRefusal x (u.ax.get x).stg := by rw [axis, ← staged, bytes]
  have acts (y : AxisId) : (u.ax.get y).act = (o.ax.get y).act := by
    by_cases own : y = x
    · rw [own, axis]
    · rw [only.apart y own]
  refine ⟨fun off => ?_, fun on refused => ?_, fun on allowed free => ?_, fun on allowed costs => ?_⟩
  · rw [beq_false_of_ne off, State.setParamAhead_stages, staged] at runs
    refine completes_of_exec runs ?_
    rw [State.paramDone_ax, State.paramDone_cards, State.paramDone_frm, only.cards, only.frm]
    refine ⟨by rw [axis], fun y => ⟨acts y, ?_, fun other => by rw [only.apart y other]⟩, cards, frm⟩
    by_cases own : y = x
    · rw [own, axis]
    · rw [only.apart y own]
  · obtain ⟨f, found⟩ := Option.ne_none_iff_exists'.1 refused
    rw [on, show (1 == 1) = true from rfl, State.setParamAhead_tt_refused staged (refusal ▸ found)] at runs
    refine completes_of_exec runs ?_
    rw [State.paramDone_ax]
    exact acts
  · rw [on, show (1 == 1) = true from rfl, State.setParamAhead_tt_takes staged (refusal ▸ allowed) (by rw [axis]; exact free)] at runs
    refine completes_of_exec runs ?_
    obtain ⟨takes, act⟩ := u.takeTt_does x (u.ax.get x).stg
    rw [State.paramDone_ax, State.paramDone_frm, act, axis]
    rw [axis] at takes
    exact ⟨rfl, (only.trans takes).frm.trans frm, (only.trans takes).apart⟩
  · rw [on, show (1 == 1) = true from rfl, State.setParamAhead_tt_asks staged (refusal ▸ allowed) (by rw [axis]; exact costs), acc] at runs
    refine completes_of_exec runs ⟨?_, acts⟩
    have same : u.frm = s.frm := only.frm.trans frm
    rw [axis, same]
    exact State.frm_ask_congr same _ _

/-- A SET_PARAM of the coil set (R113, R129, R204). -/
theorem setParam_coil (s : State) (n : Nat) (d : Desc) (due : Due s n 0xF d) (i : Fin 4)
    (named : paramOf (u16 d.bytes 16) = some (.coil i)) :
    let x := d.paramAxis
    let o := onset s d
    let v := (o.ax.get x).coilS.put i (paramValue (.coil i) d.bytes).toNat
    let r := (o.stage x 0 (.coil i) (paramValue (.coil i) d.bytes) d.bytes).coilRefusal n x v
    (u8 d.bytes 19 ≠ 1 ∨ r ≠ none → Completes (.setParam n) s fun t => (t.ax.get x).coilS = v ∧ t.frm = s.frm ∧
      ∀ y : AxisId, (t.ax.get y).coilA = (o.ax.get y).coilA ∧ (t.ax.get y).tt = (o.ax.get y).tt) ∧
    (u8 d.bytes 19 = 1 → r = none → Completes (.setParam n) s fun t => (t.ax.get x).coilA = v ∧ t.frm = s.frm ∧
      (t.ax.get x).act = (o.ax.get x).act ∧ ∀ y : AxisId, y ≠ x → t.ax.get y = o.ax.get y) := by
  intro x o v r
  obtain ⟨acc, bytes⟩ := onsetOf_operands due
  obtain ⟨frm, -⟩ := onset_frame due
  have runs : exec (.setParam n) s = .next (o.setParamAhead (onsetOf s d) x (.coil i) (u8 d.bytes 19 == 1)) := exec_setParam_coil due named
  obtain ⟨u, staged⟩ : ∃ u, o.stage x 0 (.coil i) (paramValue (.coil i) (onsetOf s d).bytes) (onsetOf s d).bytes = u := ⟨_, rfl⟩
  have axis : u.ax.get x = { o.ax.get x with coilS := v } := by rw [← staged, State.stage_coil, State.get_modAx_self, bytes]
  have only : AxisMoves x o u := by rw [← staged, State.stage_coil]; exact .modAx ..
  have refusal : r = u.coilRefusal (onsetOf s d).acc x (u.ax.get x).coilS := by rw [axis, acc, ← staged, bytes]
  constructor
  · intro stands
    have done : ∃ f, exec (.setParam n) s = .next (u.paramDone (onsetOf s d) f) := by
      by_cases on : u8 d.bytes 19 = 1
      · obtain ⟨f, found⟩ := Option.ne_none_iff_exists'.1 (stands.resolve_left fun off => off on)
        rw [on, show (1 == 1) = true from rfl, State.setParamAhead_coil_refused staged (refusal ▸ found)] at runs
        exact ⟨_, runs⟩
      · rw [beq_false_of_ne on, State.setParamAhead_stages, staged] at runs
        exact ⟨_, runs⟩
    obtain ⟨f, runs⟩ := done
    refine completes_of_exec runs ?_
    rw [State.paramDone_ax, State.paramDone_frm]
    refine ⟨by rw [axis], only.frm.trans frm, fun y => ?_⟩
    by_cases own : y = x
    · rw [own, axis]
      exact ⟨rfl, rfl⟩
    · rw [only.apart y own]
      exact ⟨rfl, rfl⟩
  · intro on allowed
    rw [on, show (1 == 1) = true from rfl, State.setParamAhead_coil_takes staged (refusal ▸ allowed)] at runs
    refine completes_of_exec runs ?_
    obtain ⟨takes, coil, act⟩ := u.takeCoil_does x (u.ax.get x).coilS
    rw [State.paramDone_ax, State.paramDone_frm, coil, act, axis]
    rw [axis] at takes
    exact ⟨rfl, (only.trans takes).frm.trans frm, rfl, (only.trans takes).apart⟩

end Sys2Proof.Machine
end

section

namespace Sys2Proof.Machine

open Safety

/-! ### SET_PARAM at the tick of its frame of effect (R127, R129) -/

@[simp] theorem State.get_modSg_self (s : State) (x : AxisId) (f : SgState → SgState) :
    (s.modSg x f).ax.get x = { s.ax.get x with sg := f (s.ax.get x).sg } := State.get_modAx_self ..

@[simp] theorem State.get_modFbx_self (s : State) (x : AxisId) (f : FbState → FbState) :
    (s.modFbx x f).ax.get x = { s.ax.get x with fb := f (s.ax.get x).fb } := State.get_modAx_self ..

@[simp] theorem State.get_modCard_self (s : State) (c : Fin 64) (f : Card → Card) :
    (s.modCard c f).cards.get c = f (s.cards.get c) := vector_get_set_self ..

theorem State.get_modCard_ne (s : State) {c k : Fin 64} (f : Card → Card) (ne : k ≠ c) : (s.modCard c f).cards.get k = s.cards.get k :=
  vector_get_set_ne _ _ ne

/-- Does a parameter act with the tick of its frame of effect, as a SET_PARAM (R127, R129)? -/
def ParamId.actsAtTick : ParamId → Bool
  | .qlow | .lagmax | .sg _ | .fb _ | .card _ | .table _ => true
  | .tt _ | .coil _ | .posSet | .grpDef | .trgDisarm => false

section

variable {s u : State} {d : Desc} {p : ParamId} (op : d.op = 0xF) (named : paramOf (u16 d.bytes 16) = some p) (acts : p.actsAtTick = true)
variable (staged : s.stage d.paramAxis (cardIx (u8 d.bytes 18)) p (paramValue p d.bytes) d.bytes = u)
include op named acts staged

theorem State.tickAct_setParam :
    s.tickAct d = if u8 d.bytes 19 = 1 then u.commitTick d d.paramAxis (cardIx (u8 d.bytes 18)) p else u.paramDone d none := by
  cases p with
  | tt | coil | posSet | grpDef | trgDisarm => cases acts
  | qlow | lagmax | sg | fb | card | table => simp only [State.tickAct, op, State.setParamTick, named, staged]

theorem State.tickAct_stages (off : u8 d.bytes 19 ≠ 1) : s.tickAct d = u.paramDone d none :=
  (State.tickAct_setParam op named acts staged).trans (if_neg off)

theorem State.tickAct_commits (on : u8 d.bytes 19 = 1) : s.tickAct d = u.commitTick d d.paramAxis (cardIx (u8 d.bytes 18)) p :=
  (State.tickAct_setParam op named acts staged).trans (if_pos on)

end

/-- QLOW takes its value, whether or not the command commits. -/
theorem tickAct_qlow (s : State) (d : Desc) (op : d.op = 0xF) (named : paramOf (u16 d.bytes 16) = some .qlow) :
    ((s.tickAct d).ax.get d.paramAxis).qlow = (paramValue .qlow d.bytes).toNat ∧ (s.tickAct d).frm = s.frm := by
  have done (u : State) : u.commitTick d d.paramAxis (cardIx (u8 d.bytes 18)) .qlow = u.paramDone d none := rfl
  rw [State.tickAct_setParam op named rfl rfl, done, ite_self, State.paramDone_ax, State.paramDone_frm, State.stage,
    State.get_modAx_self]
  exact ⟨rfl, rfl⟩

theorem tickAct_lagmax (s : State) (d : Desc) (op : d.op = 0xF) (named : paramOf (u16 d.bytes 16) = some .lagmax) :
    ((s.tickAct d).ax.get d.paramAxis).lagmax = (paramValue .lagmax d.bytes).toNat ∧ (s.tickAct d).frm = s.frm := by
  have done (u : State) : u.commitTick d d.paramAxis (cardIx (u8 d.bytes 18)) .lagmax = u.paramDone d none := rfl
  rw [State.tickAct_setParam op named rfl rfl, done, ite_self, State.paramDone_ax, State.paramDone_frm, State.stage,
    State.get_modAx_self]
  exact ⟨rfl, rfl⟩

/-! ### The stall and the feedback set -/

theorem State.takeSg_does (s : State) (x : AxisId) (n : SgSet) :
    AxisMoves x s (s.takeSg x n) ∧ ((s.takeSg x n).ax.get x).sgA = n ∧ ((s.takeSg x n).ax.get x).sgS = (s.ax.get x).sgS := by
  unfold State.takeSg
  extract_lets o s1
  have copied : AxisMoves x s s1 := .modAx ..
  have axis : s1.ax.get x = { s.ax.get x with sgA := n } := State.get_modAx_self ..
  split
  · refine ⟨copied.trans (.modAx ..), ?_⟩
    rw [State.get_modSg_self, axis]
    exact ⟨rfl, rfl⟩
  · split
    · refine ⟨copied.trans (.modAx ..), ?_⟩
      rw [State.get_modSg_self, axis]
      exact ⟨rfl, rfl⟩
    · rw [axis]
      exact ⟨copied, rfl, rfl⟩

theorem State.takeFb_does (s : State) (x : AxisId) (n : FbSet) :
    AxisMoves x s (s.takeFb x n) ∧ ((s.takeFb x n).ax.get x).fbA = n ∧ ((s.takeFb x n).ax.get x).fbS = (s.ax.get x).fbS := by
  unfold State.takeFb
  extract_lets o s1
  have copied : AxisMoves x s s1 := .modAx ..
  have axis : s1.ax.get x = { s.ax.get x with fbA := n } := State.get_modAx_self ..
  split
  · refine ⟨copied.trans (.modAx ..), ?_⟩
    rw [State.get_modFbx_self, axis]
    exact ⟨rfl, rfl⟩
  · rw [axis]
    exact ⟨copied, rfl, rfl⟩

theorem State.stage_sg (s : State) (x : AxisId) (c : Fin 64) (i : Fin 2) (v : Int) (b : List Byte) :
    s.stage x c (.sg i) v b = s.modAx x fun a => { a with sgS := a.sgS.put i v.toNat } := rfl

theorem State.stage_fb (s : State) (x : AxisId) (c : Fin 64) (i : Fin 6) (v : Int) (b : List Byte) :
    s.stage x c (.fb i) v b = s.modAx x fun a => { a with fbS := a.fbS.put i v } := rfl

/-- A SET_PARAM of the stall set (R129, R275). -/
theorem tickAct_sg (s : State) (d : Desc) (op : d.op = 0xF) (i : Fin 2) (named : paramOf (u16 d.bytes 16) = some (.sg i)) :
    let x := d.paramAxis
    let t := s.tickAct d
    let v := (s.ax.get x).sgS.put i (paramValue (.sg i) d.bytes).toNat
    (t.ax.get x).sgS = v ∧ (t.ax.get x).sgA = (if u8 d.bytes 19 = 1 then v else (s.ax.get x).sgA) ∧
      (∀ y : AxisId, y ≠ x → t.ax.get y = s.ax.get y) ∧ t.frm = s.frm := by
  intro x t v
  obtain ⟨u, staged⟩ : ∃ u, s.stage x (cardIx (u8 d.bytes 18)) (.sg i) (paramValue (.sg i) d.bytes) d.bytes = u := ⟨_, rfl⟩
  have axis : u.ax.get x = { s.ax.get x with sgS := v } := by rw [← staged, State.stage_sg, State.get_modAx_self]
  have only : AxisMoves x s u := by rw [← staged, State.stage_sg]; exact .modAx ..
  by_cases on : u8 d.bytes 19 = 1
  · have tick : t = (u.takeSg x (u.ax.get x).sgS).paramDone d none := State.tickAct_commits op named rfl staged on
    obtain ⟨takes, active, stored⟩ := u.takeSg_does x (u.ax.get x).sgS
    rw [tick, State.paramDone_ax, State.paramDone_frm, active, stored, axis, if_pos on]
    rw [axis] at takes
    exact ⟨rfl, rfl, (only.trans takes).apart, (only.trans takes).frm⟩
  · rw [show t = _ from State.tickAct_stages op named rfl staged on, State.paramDone_ax, State.paramDone_frm, axis, if_neg on]
    exact ⟨rfl, rfl, only.apart, only.frm⟩

section

variable {s : State} {d : Desc} {x : AxisId} {c : Fin 64} {i : Fin 6} {r : Nat × Word × Word}

theorem State.commitTick_fb_refused (refused : s.fbRefusal x (s.ax.get x).fbS = some r) :
    s.commitTick d x c (.fb i) = s.paramDone d (some r) := by
  simp only [State.commitTick, refused]

variable (allowed : s.fbRefusal x (s.ax.get x).fbS = none)
include allowed

theorem State.commitTick_fb_asks
    (costs : (s.ax.get x).fbS.chan ≠ (s.ax.get x).fbA.chan ∨ (s.ax.get x).fbS.corr ≠ (s.ax.get x).fbA.corr) :
    s.commitTick d x c (.fb i) = s.ask (.commitFb d.acc (s.ax.get x).fbS) s.frm.count := by
  simp only [State.commitTick, allowed]
  exact if_pos costs

theorem State.commitTick_fb_takes
    (free : ¬ ((s.ax.get x).fbS.chan ≠ (s.ax.get x).fbA.chan ∨ (s.ax.get x).fbS.corr ≠ (s.ax.get x).fbA.corr)) :
    s.commitTick d x c (.fb i) = (s.takeFb x (s.ax.get x).fbS).paramDone d none := by
  simp only [State.commitTick, allowed]
  exact if_neg free

end

/-- A SET_PARAM of the feedback set (R129, R298, R300). -/
theorem tickAct_fb (s : State) (d : Desc) (op : d.op = 0xF) (i : Fin 6) (named : paramOf (u16 d.bytes 16) = some (.fb i)) :
    let x := d.paramAxis
    let t := s.tickAct d
    let v := (s.ax.get x).fbS.put i (paramValue (.fb i) d.bytes)
    let r := (s.stage x (cardIx (u8 d.bytes 18)) (.fb i) (paramValue (.fb i) d.bytes) d.bytes).fbRefusal x v
    let costs := v.chan ≠ (s.ax.get x).fbA.chan ∨ v.corr ≠ (s.ax.get x).fbA.corr
    (t.ax.get x).fbS = v ∧ (∀ y : AxisId, y ≠ x → t.ax.get y = s.ax.get y) ∧
    (u8 d.bytes 19 ≠ 1 ∨ r ≠ none → (t.ax.get x).fbA = (s.ax.get x).fbA ∧ t.frm = s.frm) ∧
    (u8 d.bytes 19 = 1 → r = none → costs → (t.ax.get x).fbA = (s.ax.get x).fbA ∧
      t.frm = (s.ask (.commitFb d.acc v) s.frm.count).frm) ∧
    (u8 d.bytes 19 = 1 → r = none → ¬ costs → (t.ax.get x).fbA = v ∧ t.frm = s.frm) := by
  intro x t v r costs
  obtain ⟨u, staged⟩ : ∃ u, s.stage x (cardIx (u8 d.bytes 18)) (.fb i) (paramValue (.fb i) d.bytes) d.bytes = u := ⟨_, rfl⟩
  have axis : u.ax.get x = { s.ax.get x with fbS := v } := by rw [← staged, State.stage_fb, State.get_modAx_self]
  have only : AxisMoves x s u := by rw [← staged, State.stage_fb]; exact .modAx ..
  have refusal : u.fbRefusal x (u.ax.get x).fbS = r := by rw [axis, ← staged]
  have bears : ((u.ax.get x).fbS.chan ≠ (u.ax.get x).fbA.chan ∨ (u.ax.get x).fbS.corr ≠ (u.ax.get x).fbA.corr) = costs := by rw [axis]
  have stands (f : Refuse) (done : t = u.paramDone d f) : (t.ax.get x).fbS = v ∧ (∀ y : AxisId, y ≠ x → t.ax.get y = s.ax.get y) ∧
      (t.ax.get x).fbA = (s.ax.get x).fbA ∧ t.frm = s.frm := by
    rw [done, State.paramDone_ax, State.paramDone_frm, axis]
    exact ⟨rfl, only.apart, rfl, only.frm⟩
  by_cases on : u8 d.bytes 19 = 1
  · have tick : t = u.commitTick d x (cardIx (u8 d.bytes 18)) (.fb i) := State.tickAct_commits op named rfl staged on
    cases verdict : r with
    | some f =>
      obtain ⟨stored, apart, active, frm⟩ := stands _ (tick.trans (State.commitTick_fb_refused (refusal.trans verdict)))
      exact ⟨stored, apart, fun _ => ⟨active, frm⟩, fun _ found => (nomatch found), fun _ found => (nomatch found)⟩
    | none =>
      by_cases bear : costs
      · have asks : t = u.ask (.commitFb d.acc v) u.frm.count := by
          rw [tick, State.commitTick_fb_asks (refusal.trans verdict) (bears ▸ bear), axis]
        have frm : t.frm = (s.ask (.commitFb d.acc v) s.frm.count).frm := by
          rw [asks, only.frm]
          exact State.frm_ask_congr only.frm _ _
        have ax : t.ax = u.ax := by rw [asks]; rfl
        rw [ax, axis]
        exact ⟨rfl, only.apart, fun off => absurd off (by simp [on]), fun _ _ _ => ⟨rfl, frm⟩, fun _ _ free => absurd bear free⟩
      · have takes : t = (u.takeFb x v).paramDone d none := by
          rw [tick, State.commitTick_fb_takes (refusal.trans verdict) (bears ▸ bear), axis]
        obtain ⟨moves, active, stored⟩ := u.takeFb_does x v
        rw [takes, State.paramDone_ax, State.paramDone_frm, active, stored, axis]
        have frm := (only.trans moves).frm
        exact ⟨rfl, (only.trans moves).apart, fun off => absurd off (by simp [on]), fun _ _ bears => absurd bears bear, fun _ _ _ => ⟨rfl, frm⟩⟩
  · obtain ⟨stored, apart, active, frm⟩ := stands _ (State.tickAct_stages op named rfl staged on)
    exact ⟨stored, apart, fun _ => ⟨active, frm⟩, fun commits => absurd commits on, fun commits => absurd commits on⟩

end Sys2Proof.Machine
end

section

namespace Sys2Proof.Machine

open Safety

/-! ### A card (R175, R200 to R202) -/

theorem State.raise_cards (s : State) (e unit : Nat) (d0 d1 : Word) : (s.raise e unit d0 d1).cards = s.cards := by
  rw [(tells_raise ..).eqn]

theorem State.rhatChanged_cards (s : State) (x : AxisId) : (s.rhatChanged x).cards = s.cards := by
  unfold State.rhatChanged
  extract_lets c a r t lim s1
  have told : s1.cards = s.cards := by
    unfold s1
    split
    · exact State.raise_cards ..
    · rfl
  exact told

theorem State.resetHat_cards (s : State) (x : AxisId) : (s.resetHat x).cards = s.cards := State.rhatChanged_cards ..

/-- What a card in force brings with it changes no other card. -/
theorem State.takeCard_cards (s : State) (c : Fin 64) (n : CardHalf) :
    (s.takeCard c n).cards = (s.modCard c fun k => { k with act := n }).cards := by
  unfold State.takeCard
  extract_lets o s1 s2
  have ramped : s2.cards = s1.cards := by
    unfold s2
    split
    · rfl
    · exact State.forAll_proj State.cards (f := State.rampTo) (fun _ _ => rfl) s1
  split
  · exact (State.forAll_proj State.cards (f := fun t x => (t.resetHat x).modSg x SgState.disarm) (fun t x => t.resetHat_cards x) s2).trans ramped
  · exact ramped

theorem State.stage_card (s : State) (x : AxisId) (c : Fin 64) (i : Fin 46) (v : Int) (b : List Byte) :
    s.stage x c (.card i) v b = s.modCard c fun k => { k with stg := k.stg.put i v.toNat } := rfl

theorem State.stage_table (s : State) (x : AxisId) (c : Fin 64) (k : Fin 16) (v : Int) (b : List Byte) :
    s.stage x c (.table k) v b = s.modCard c fun h => { h with stg := h.stg.putChunk k b } := rfl

section

variable {s : State} {d : Desc} {x : AxisId} {c : Fin 64} {p : ParamId} {r : Nat × Word × Word}
variable (card : (∃ i : Fin 46, p = .card i) ∨ (∃ k : Fin 16, p = .table k))
include card

theorem ParamId.card_actsAtTick : p.actsAtTick = true := by
  obtain ⟨i, rfl⟩ | ⟨k, rfl⟩ := card
  · rfl
  · rfl

/-- A card's parameter goes to its staged half. -/
theorem State.stage_card_eqn (s : State) (x : AxisId) (c : Fin 64) (v : Int) (b : List Byte) :
    ∃ f : CardHalf → CardHalf, s.stage x c p v b = s.modCard c fun k => { k with stg := f k.stg } := by
  obtain ⟨i, rfl⟩ | ⟨k, rfl⟩ := card
  · exact ⟨fun h => h.put i v.toNat, s.stage_card ..⟩
  · exact ⟨fun h => h.putChunk k b, s.stage_table ..⟩

theorem State.commitTick_card_refused (refused : s.cardRefusal c = some r) : s.commitTick d x c p = s.paramDone d (some r) := by
  obtain ⟨i, rfl⟩ | ⟨k, rfl⟩ := card
  · simp only [State.commitTick, refused]
  · simp only [State.commitTick, refused]

theorem State.commitTick_card_takes (allowed : s.cardRefusal c = none) :
    s.commitTick d x c p = (s.takeCard c (s.cards.get c).stg).paramDone d none := by
  obtain ⟨i, rfl⟩ | ⟨k, rfl⟩ := card
  · simp only [State.commitTick, allowed]
  · simp only [State.commitTick, allowed]

end

/-- A SET_PARAM of a card (R129, R199 to R201). -/
theorem tickAct_card (s : State) (d : Desc) (op : d.op = 0xF) (p : ParamId)
    (card : (∃ i : Fin 46, p = .card i) ∨ (∃ k : Fin 16, p = .table k)) (named : paramOf (u16 d.bytes 16) = some p) :
    let c := cardIx (u8 d.bytes 18)
    let t := s.tickAct d
    let u := s.stage d.paramAxis c p (paramValue p d.bytes) d.bytes
    (t.cards.get c).stg = (u.cards.get c).stg ∧ (∀ k : Fin 64, k ≠ c → t.cards.get k = s.cards.get k) ∧ t.frm = s.frm ∧
    (∀ i : Fin 46, p = .card i → (t.cards.get c).stg = (s.cards.get c).stg.put i (paramValue p d.bytes).toNat) ∧
    (u8 d.bytes 19 ≠ 1 ∨ u.cardRefusal c ≠ none → (t.cards.get c).act = (s.cards.get c).act ∧ t.ax = s.ax) ∧
    (u8 d.bytes 19 = 1 → u.cardRefusal c = none → (t.cards.get c).act = (t.cards.get c).stg) := by
  intro c t u
  have acts : p.actsAtTick = true := ParamId.card_actsAtTick card
  obtain ⟨f, staged⟩ : ∃ f : CardHalf → CardHalf, u = s.modCard c fun k => { k with stg := f k.stg } := State.stage_card_eqn card ..
  have put (i : Fin 46) (is : p = .card i) : (u.cards.get c).stg = (s.cards.get c).stg.put i (paramValue p d.bytes).toNat := by
    subst is
    exact congrArg Card.stg (State.get_modCard_self ..)
  have active : (u.cards.get c).act = (s.cards.get c).act := by rw [staged, State.get_modCard_self]
  have others (k : Fin 64) (ne : k ≠ c) : u.cards.get k = s.cards.get k := by rw [staged, State.get_modCard_ne _ _ ne]
  have frm : u.frm = s.frm := by rw [staged, State.modCard_frm]
  have ax : u.ax = s.ax := by rw [staged, State.modCard_ax]
  by_cases stands : u8 d.bytes 19 ≠ 1 ∨ u.cardRefusal c ≠ none
  · have done : ∃ r, t = u.paramDone d r := by
      by_cases on : u8 d.bytes 19 = 1
      · obtain ⟨r, refused⟩ := Option.ne_none_iff_exists'.1 (stands.resolve_left fun off => off on)
        exact ⟨_, (State.tickAct_commits op named acts rfl on).trans (State.commitTick_card_refused card refused)⟩
      · exact ⟨_, State.tickAct_stages op named acts rfl on⟩
    obtain ⟨r, tick⟩ := done
    rw [tick, State.paramDone_cards, State.paramDone_frm, State.paramDone_ax]
    exact ⟨rfl, others, frm, put, fun _ => ⟨active, ax⟩, fun on allowed => absurd stands (by simp [on, allowed])⟩
  · obtain ⟨on, allowed⟩ := not_or.1 stands
    replace on := not_not.1 on
    have tick : t = (u.takeCard c (u.cards.get c).stg).paramDone d none :=
      (State.tickAct_commits op named acts rfl on).trans (State.commitTick_card_takes card (not_not.1 allowed))
    rw [tick, State.paramDone_cards, State.paramDone_frm, State.takeCard_cards, State.get_modCard_self]
    exact ⟨rfl, fun k ne => (State.get_modCard_ne _ _ ne).trans (others k ne), (within_takeCard (.refl true u) ..).frm.trans frm, put,
      fun h => absurd h stands, fun _ _ => rfl⟩

/-! ### POS_SET (R127, R130, R300) -/

theorem exec_posSet_of_due {s : State} {n : Nat} {d : Desc} (due : Due s n 0xF d) (sets : d.isPosSet = true) :
    exec (.posSet n) s = .next ((onset s d).posSetEffect (onsetOf s d)) := by
  show execPosSet n s = _
  simp only [execPosSet, due.2.1, sets, if_true]
  exact congrArg Host.Outcome.next (State.withEffect_of_due due (· == 0xF) rfl _)

/-- A position outside the soft limits changes nothing but the outcome. -/
theorem State.posSetEffect_outside {s : State} {d : Desc} {x : AxisId} (named : d.axis? = some x)
    (outside : paramValue .posSet d.bytes < (s.ax.get x).act.limLo ∨ (s.ax.get x).act.limHi < paramValue .posSet d.bytes) :
    (s.posSetEffect d).ax = s.ax := by
  unfold State.posSetEffect
  rw [named]
  dsimp only
  split
  · exact s.paramDone_ax ..
  · rw [if_pos (outside.resolve_left ‹_›)]
    exact s.paramDone_ax ..

/-- An axis as a POS_SET to `v` leaves it in frame `fr`: at rest there, its electrical angle where it was. -/
def Axis.setTo (a : Axis) (fr : FrameNo) (v : Int) : Axis :=
  { a with
    tt := { a.tt.placeAt (v * 65536) with target := v, posSetAt := (fr + 1) :: a.tt.posSetAt.filter fun e => e == fr }
    cd := { a.cd with angNext := a.tt.oNext.p + a.cd.angNext - v * 65536 } }

theorem State.posSetEffect_inside {s : State} {d : Desc} {x : AxisId} (named : d.axis? = some x)
    (low : (s.ax.get x).act.limLo ≤ paramValue .posSet d.bytes) (high : paramValue .posSet d.bytes ≤ (s.ax.get x).act.limHi) :
    s.posSetEffect d = (s.modAx x fun a => a.setTo s.frm.count (paramValue .posSet d.bytes)).paramDone d none := by
  unfold State.posSetEffect
  rw [named]
  dsimp only
  rw [if_neg (Int.not_lt.2 low), if_neg (Int.not_lt.2 high)]
  exact congrArg (State.paramDone · d none) (State.modAx_congr rfl)

/-- A due POS_SET (R127, R130). -/
theorem posSet_does (s : State) (n : Nat) (d : Desc) (x : AxisId) (due : Due s n 0xF d) (sets : d.isPosSet = true)
    (named : d.axis? = some x) :
    let a := (onset s d).ax.get x
    let v := paramValue .posSet d.bytes
    (a.act.limLo ≤ v → v ≤ a.act.limHi →
      Completes (.posSet n) s fun t => (t.ax.get x).tt.target = v ∧ (t.ax.get x).tt.u0 = restAt (v * 65536) ∧
        (t.ax.get x).tt.oNext = restAt (v * 65536) ∧
        (t.ax.get x).tt.oNext.p + (t.ax.get x).cd.angNext = a.tt.oNext.p + a.cd.angNext ∧
        (t.ax.get x).tt.posSetAt.contains (s.frm.count + 1) = true ∧ ∀ y : AxisId, y ≠ x → t.ax.get y = (onset s d).ax.get y) ∧
    (v < a.act.limLo ∨ a.act.limHi < v → Completes (.posSet n) s fun t => t.ax = (onset s d).ax) := by
  intro a v
  obtain ⟨-, bytes⟩ := onsetOf_operands due
  have axis : (onsetOf s d).axis? = some x := (Desc.axis?_congr bytes).trans named
  have value : paramValue .posSet (onsetOf s d).bytes = v := congrArg _ bytes
  refine ⟨fun low high => ?_, fun outside => ?_⟩
  · refine completes_of_exec (exec_posSet_of_due due sets) ?_
    have only : AxisMoves x (onset s d) ((onset s d).modAx x fun a => a.setTo s.frm.count v) := .modAx ..
    rw [State.posSetEffect_inside axis (value ▸ low) (value ▸ high), value, (onset_frame due).1, State.paramDone_ax, State.get_modAx_self]
    refine ⟨rfl, rfl, rfl, ?_, ?_, only.apart⟩
    · show v * 65536 + (a.tt.oNext.p + a.cd.angNext - v * 65536) = _
      omega
    · exact List.contains_cons.trans (by simp)
  · exact completes_of_exec (exec_posSet_of_due due sets) (State.posSetEffect_outside axis (value ▸ outside))

/-- The tick of a POS_SET's frame of effect (R300). -/
theorem tickAct_posSet (s : State) (d : Desc) (x : AxisId) (st : Nat) (w0 w1 : Word) (sets : d.isPosSet = true)
    (named : d.axis? = some x) (out : d.out = some (st, w0, w1)) :
    (st ≠ 5 → ((s.tickAct d).ax.get x).fb.assocAt = some (paramValue .posSet d.bytes)) ∧ (st = 5 → s.tickAct d = s) := by
  obtain ⟨op, param⟩ : d.op = 0xF ∧ paramOf (u16 d.bytes 16) = some .posSet := by simpa [Desc.isPosSet] using sets
  have tick : s.tickAct d = s.posSetTick d := by simp only [State.tickAct, op, param]
  rw [tick, State.posSetTick, named, out]
  dsimp only
  refine ⟨fun taken => ?_, fun refused => if_pos refused⟩
  rw [if_neg taken, State.get_modFbx_self]

/-- Settles O32: a set that the frame before plans with acts on the onset, the other parameters with the tick, and POS_SET with both. -/
theorem setsParametersAndPosition : Obligations.SetsParametersAndPosition := by
  unfold Obligations.SetsParametersAndPosition
  refine ⟨fun s n d due => ⟨fun waits own => ?_, setParam_tt s n d due, setParam_coil s n d due⟩,
    fun s n d desc other => execSetParam_other desc other,
    fun s d op => ⟨tickAct_qlow s d op, tickAct_lagmax s d op, tickAct_sg s d op, tickAct_fb s d op, tickAct_card s d op⟩,
    posSet_does, tickAct_posSet⟩
  obtain ⟨-, bytes⟩ := onsetOf_operands due
  rw [exec_setParam_of_due due own, State.setParamEffect_of_not_plans (by rw [Desc.plans, bytes]; exact waits)]

end Sys2Proof.Machine
end

section
/-! SUPPORT. The obligations of the step inputs, of following, of the groups and the triggers, and of GROUP_MOVE, with the rules about the
operations that they speak of. -/

namespace Sys2Proof.Machine

open Safety

/-! ### The step inputs (R157, R158) -/

@[simp] theorem State.get_modSd_self (s : State) (p : Fin 16) (f : StepIn → StepIn) : (s.modSd p f).sd.get p = f (s.sd.get p) :=
  vector_get_set_self ..

theorem State.get_modSd_ne (s : State) {p q : Fin 16} (f : StepIn → StepIn) (ne : q ≠ p) : (s.modSd p f).sd.get q = s.sd.get q :=
  vector_get_set_ne _ _ ne

/-- A counter that counts. -/
theorem State.reg_incReg_self (s : State) (a : Nat) : (s.incReg a).reg a = satInc (s.reg a) := State.reg_setReg_self ..

/-- A step input with the levels of an edge. -/
def StepIn.seen (i : StepIn) (e : StepEdge) : StepIn := { i with stepLv := e.stepLevel, dirLv := e.dirLevel }

/-- An active edge of a pair's STEP line (R157). -/
def StepIn.stepEdge (i : StepIn) (e : StepEdge) : Bool :=
  (e.line == .step || e.line == .both) && (i.stepLv != e.stepLevel) && (e.stepLevel != bitOf i.cfg 2)

/-- An active edge of a pair's DIR line (R157). -/
def StepIn.dirEdge (i : StepIn) (e : StepEdge) : Bool :=
  (e.line == .dir || e.line == .both) && (i.dirLv != e.dirLevel) && (e.dirLevel != bitOf i.cfg 2)

/-- The changes of the direction within the setup window before a STEP edge (R157). -/
def StepIn.late (i : StepIn) (e : StepEdge) : List Nat := e.dirAgo.filter fun n => decide (n < 10 * fld i.cfg 15 12)

/-- The direction that held before the setup window (R157). -/
def StepIn.held (i : StepIn) (e : StepEdge) : Bool := e.dirLevel != ((i.late e).length % 2 == 1)

/-- The places of the quadrature cycle from a pair's levels to those of an edge (R157). -/
def StepIn.turns (i : StepIn) (e : StepEdge) : Nat := (quadPlace e.stepLevel e.dirLevel + 4 - quadPlace i.stepLv i.dirLv) % 4

/-- What an edge does that the filter lets through (R157), by the mode of its pair. -/
def State.stepCounts (s : State) (p : Fin 16) (e : StepEdge) : State :=
  let i := s.sd.get p
  match fld i.cfg 1 0 with
  | 1 => s.modSd p fun _ => (i.seen e).add ((if i.stepEdge e then 1 else 0) - (if i.dirEdge e then 1 else 0))
  | 2 =>
    if i.turns e = 2 then (s.modSd p fun _ => i.seen e).incReg (Adr.SD_LOST p)
    else s.modSd p fun _ => (i.seen e).add (match i.turns e with | 1 => 1 | 3 => -1 | _ => 0)
  | _ =>
    if i.stepEdge e then
      let t := s.modSd p fun _ => (i.seen e).add (if i.held e != bitOf i.cfg 3 then -1 else 1)
      if i.late e ≠ [] then t.incReg (Adr.SD_DIRLATE p) else t
    else s.modSd p fun _ => i.seen e

section

variable {s : State} {p : Fin 16} {e : StepEdge}

section

variable (powered : s.sys.powered = true)
include powered

/-- An open pair counts nothing (R158). -/
theorem exec_stepInputEdge_opened (opened : (s.sd.get p).opened = true) :
    exec (.stepInputEdge p e) s = .next (s.modSd p fun _ => (s.sd.get p).seen e) :=
  congrArg Host.Outcome.next ((if_neg (not_not.2 powered)).trans (if_pos opened))

variable (closed : (s.sd.get p).opened = false)
include closed

/-- An edge after a phase shorter than the filter is lost (R157). -/
theorem exec_stepInputEdge_short (short : e.phaseNs < 10 * fld (s.sd.get p).cfg 11 8) :
    exec (.stepInputEdge p e) s = .next ((s.modSd p fun _ => (s.sd.get p).seen e).incReg (Adr.SD_LOST p)) :=
  congrArg Host.Outcome.next ((if_neg (not_not.2 powered)).trans
    ((if_neg (Bool.eq_false_iff.1 closed)).trans (if_pos (decide_eq_true short))))

theorem exec_stepInputEdge_counts (long : 10 * fld (s.sd.get p).cfg 11 8 ≤ e.phaseNs) :
    exec (.stepInputEdge p e) s = .next (s.stepCounts p e) :=
  congrArg Host.Outcome.next ((if_neg (not_not.2 powered)).trans
    ((if_neg (Bool.eq_false_iff.1 closed)).trans (if_neg (mt of_decide_eq_true (Nat.not_lt.2 long)))))

end

theorem State.stepCounts_idle (mode : fld (s.sd.get p).cfg 1 0 = 0) (idle : (s.sd.get p).stepEdge e = false) :
    s.stepCounts p e = s.modSd p fun _ => (s.sd.get p).seen e := by
  simp only [State.stepCounts, mode, idle]
  rfl

theorem State.stepCounts_step (mode : fld (s.sd.get p).cfg 1 0 = 0) (active : (s.sd.get p).stepEdge e = true) :
    s.stepCounts p e =
      let t := s.modSd p fun _ => ((s.sd.get p).seen e).add (if (s.sd.get p).held e != bitOf (s.sd.get p).cfg 3 then -1 else 1)
      if (s.sd.get p).late e ≠ [] then t.incReg (Adr.SD_DIRLATE p) else t := by
  simp only [State.stepCounts, mode, active]
  rfl

theorem State.stepCounts_twoLine (mode : fld (s.sd.get p).cfg 1 0 = 1) :
    s.stepCounts p e = s.modSd p fun _ => ((s.sd.get p).seen e).add
      ((if (s.sd.get p).stepEdge e then 1 else 0) - (if (s.sd.get p).dirEdge e then 1 else 0)) := by
  simp only [State.stepCounts, mode]

/-- In quadrature the count goes as far as the cycle has turned; an edge that skips a place is lost. -/
theorem State.stepCounts_quad (mode : fld (s.sd.get p).cfg 1 0 = 2) :
    ((s.stepCounts p e).sd.get p).count = (s.sd.get p).count + BitVec.ofInt 32
      (if (s.sd.get p).turns e = 1 then 1 else if (s.sd.get p).turns e = 3 then -1 else 0) := by
  simp only [State.stepCounts, mode]
  split
  next skips => simp [skips, StepIn.seen]
  next =>
    rw [State.get_modSd_self]
    simp only [StepIn.add, StepIn.seen]
    split
    next forward => rw [if_pos forward]
    next back => rw [if_neg (by simp [back]), if_pos back]
    next forward back => rw [if_neg forward, if_neg back]

end

/-- A step by a direction and its inversion, in the 32 bits of a count. -/
theorem ofInt_direction (held inverted : Bool) :
    BitVec.ofInt 32 (if held != inverted then -1 else 1) = if held = inverted then 1 else BitVec.allOnes 32 := by
  cases held <;> cases inverted <;> rfl

/-- From both lines low an edge turns the cycle to the place of its own levels. -/
theorem StepIn.turns_of_low {i : StepIn} {e : StepEdge} (step : i.stepLv = false) (dir : i.dirLv = false) :
    i.turns e = quadPlace e.stepLevel e.dirLevel := by
  rw [StepIn.turns, step, dir]
  cases e.stepLevel <;> cases e.dirLevel <;> rfl

theorem exec_stepPairOpen {s : State} (p : Fin 16) (powered : s.sys.powered = true) :
    exec (.stepPairOpen p) s = .next ((s.modSd p fun i => { i with opened := true }).orReg (Adr.SD_STAT p) 2) :=
  congrArg Host.Outcome.next (if_pos powered)

theorem exec_stepPairRestore (s : State) (p : Fin 16) : exec (.stepPairRestore p) s = .next
    (if (s.sd.get p).opened then (s.modSd p fun i => { i with opened := false }).orReg (Adr.SD_STAT p) 2
     else s.modSd p fun i => { i with opened := false }) := rfl

/-- Settles O40: an edge by the filter and the mode of its pair, then what opens and restores a pair. -/
theorem stepInputs : Obligations.StepInputs := by
  unfold Obligations.StepInputs
  intro s p e powered i
  refine ⟨fun opened => ?_, fun closed short => ?_, fun closed long mode line changed => ⟨fun idle => ?_, fun active => ?_⟩,
    fun closed long mode changed same line active => ?_, fun closed long mode changed same line active => ?_,
    fun closed long mode low low' => ?_, ?_, ?_⟩
  · refine completes_of_exec (exec_stepInputEdge_opened powered opened) ?_
    rw [State.get_modSd_self]
    exact ⟨rfl, rfl, rfl⟩
  · refine completes_of_exec (exec_stepInputEdge_short powered closed short) ?_
    rw [State.incReg_sd, State.get_modSd_self, State.reg_incReg_self]
    exact ⟨rfl, rfl⟩
  · refine completes_of_exec (exec_stepInputEdge_counts powered closed long) ?_
    rw [State.stepCounts_idle mode (by simp [StepIn.stepEdge, idle, i]), State.get_modSd_self]
    rfl
  · intro late held
    refine completes_of_exec (exec_stepInputEdge_counts powered closed long) ?_
    rw [State.stepCounts_step mode (by simp [StepIn.stepEdge, line, changed, active, i])]
    have counted : i.count + BitVec.ofInt 32 (if held != bitOf i.cfg 3 then -1 else 1) =
        i.count + (if held = bitOf i.cfg 3 then 1 else BitVec.allOnes 32) := congrArg _ (ofInt_direction ..)
    by_cases early : i.late e = []
    · rw [if_neg (not_not.2 early)]
      refine ⟨?_, fun _ => rfl, fun late => absurd early late, fun q ne => State.get_modSd_ne _ _ ne⟩
      rw [State.get_modSd_self]
      exact counted
    · rw [if_pos early, State.incReg_sd, State.reg_incReg_self]
      refine ⟨?_, fun none => absurd none early, fun _ => rfl, fun q ne => State.get_modSd_ne _ _ ne⟩
      rw [State.get_modSd_self]
      exact counted
  · refine completes_of_exec (exec_stepInputEdge_counts powered closed long) ?_
    rw [State.stepCounts_twoLine mode, State.get_modSd_self]
    simp [StepIn.stepEdge, StepIn.dirEdge, StepIn.add, StepIn.seen, line, changed, active, i]
  · refine completes_of_exec (exec_stepInputEdge_counts powered closed long) ?_
    rw [State.stepCounts_twoLine mode, State.get_modSd_self]
    simp [StepIn.stepEdge, StepIn.dirEdge, StepIn.add, StepIn.seen, line, changed, active, i]
  · refine completes_of_exec (exec_stepInputEdge_counts powered closed long) ?_
    rw [State.stepCounts_quad mode, StepIn.turns_of_low low low']
    obtain ⟨-, step, dir, -⟩ := e
    cases step <;> cases dir <;> rfl
  · refine completes_of_exec (exec_stepPairOpen p powered) ?_
    rw [State.orReg_sd, State.get_modSd_self]
    exact ⟨rfl, rfl, State.rb_orReg_self _ _ (k := 1) (by decide)⟩
  · refine completes_of_exec (exec_stepPairRestore s p) ?_
    cases opened : (s.sd.get p).opened with
    | true =>
      rw [if_pos rfl, State.orReg_sd, State.get_modSd_self]
      exact ⟨rfl, rfl, fun _ => State.rb_orReg_self _ _ (k := 1) (by decide), fun closed => nomatch closed⟩
    | false =>
      rw [if_neg (by decide), State.get_modSd_self]
      exact ⟨rfl, rfl, (fun h => nomatch h), fun _ => rfl⟩

end Sys2Proof.Machine
end

section

namespace Sys2Proof.Machine

open Safety

/-! ### GRP_DEF and TRG_DISARM (R150, R151, R153) -/

theorem exec_grpDef_of_due {s : State} {n : Nat} {d : Desc} (due : Due s n 0xF d) (defines : paramOf (u16 d.bytes 16) = some .grpDef) :
    exec (.grpDef n) s = .next (onset s d) := by
  show execGrpDef n s = _
  simp only [execGrpDef, due.2.1, defines, if_true]
  exact congrArg Host.Outcome.next (State.withEffect_of_due due (· == 0xF) rfl fun t _ => t)

theorem exec_trgDisarm_of_due {s : State} {n : Nat} {d : Desc} (due : Due s n 0xF d)
    (disarms : paramOf (u16 d.bytes 16) = some .trgDisarm) : exec (.trgDisarm n) s = .next (onset s d) := by
  show execTrgDisarm n s = _
  simp only [execTrgDisarm, due.2.1, disarms, if_true]
  exact congrArg Host.Outcome.next (State.withEffect_of_due due (· == 0xF) rfl fun t _ => t)

/-- A group that no GROUP_MOVE names takes the members of the mask (R153). -/
theorem State.grpDefEffect_free {s : State} {d : Desc} (free : s.groupPending (u8 d.bytes 18) = 0) :
    s.grpDefEffect d = { s with grp := s.grp.set (Fin.ofNat 32 (u8 d.bytes 18)) (axisMask d.bytes 28) }.paramDone d none :=
  if_neg (not_not.2 free)

/-- One that is named keeps its members (R153). -/
theorem State.grpDefEffect_named {s : State} {d : Desc} (named : s.groupPending (u8 d.bytes 18) ≠ 0) :
    s.grpDefEffect d = s.later d 5 28 (wd (s.groupPending (u8 d.bytes 18))) := if_pos named

theorem State.disarmEffect_trg (s : State) (d : Desc) :
    (s.disarmEffect d).trg = (s.modTrg (Fin.ofNat 64 (u8 d.bytes 18)) fun m => { m with armed := false }).trg := by
  rw [State.disarmEffect, State.paramDone_eqn]

/-- Settles O33: both act with the tick of their frame of effect. -/
theorem groupsAndTriggers : Obligations.GroupsAndTriggers := by
  unfold Obligations.GroupsAndTriggers
  refine ⟨fun s n d due => ⟨exec_grpDef_of_due due, exec_trgDisarm_of_due due⟩, fun s d op first => ⟨fun named free => ?_,
    fun named pending => ?_, fun named => ?_⟩⟩
  · have tick : s.tickAct d = s.grpDefEffect d := by simp [State.tickAct, op, named, first]
    rw [tick, State.grpDefEffect_free free, State.paramDone_eqn]
    exact ⟨rfl, rfl⟩
  · have tick : s.tickAct d = s.grpDefEffect d := by simp [State.tickAct, op, named, first]
    exact tick.trans (State.grpDefEffect_named pending)
  · have tick : s.tickAct d = s.disarmEffect d := by simp [State.tickAct, op, named, first]
    rw [tick, State.disarmEffect_trg]
    refine ⟨by rw [State.get_modTrg_self], fun m ne => State.get_modTrg_ne _ _ ne, ?_⟩
    rw [State.disarmEffect, State.paramDone_eqn]
    rfl

end Sys2Proof.Machine
end

section

namespace Sys2Proof.Machine

open Safety

/-! ### How a due descriptor begins (R86, R331) -/

theorem State.begin_of_due {s : State} {n op : Nat} {d : Desc} (due : Due s n op d) {p : Nat → Bool} (hp : p op = true) :
    s.begin n p = ((s.decideOne d).1, some ((s.decideOne d).1.fresh d)) := by
  obtain ⟨power, is, opcode, stands, unsettled, start, grant⟩ := due
  simp [State.begin, is, opcode, hp, power, stands, Option.isNone_iff_eq_none.1 unsettled, start, grant]

/-- A descriptor as it stands is the one under its number. -/
theorem State.fresh_of_desc? {s : State} {d : Desc} (is : s.desc? d.acc = some d) : s.fresh d = d := by
  rw [State.fresh, is, Option.getD_some]

/-- A due descriptor takes effect as one in effect, held where it was held. -/
theorem onsetOf_in_effect {s : State} {n op : Nat} {d : Desc} (due : Due s n op d) :
    (onsetOf s d).stage = .effect ∧ (onsetOf s d).held = d.held := by
  obtain ⟨t, g, h, -, -, -, taken⟩ := onset_of_due due
  rw [taken]
  exact ⟨rfl, rfl⟩

/-- A grant that moves nothing leaves the state and the descriptor as they stand. -/
theorem State.begin_of_due_stays {s : State} {n op : Nat} {d : Desc} (due : Due s n op d) (stays : (s.decideOne d).1 = s)
    {p : Nat → Bool} (hp : p op = true) : s.begin n p = (s, some d) ∧ onset s d = s.takeOver d := by
  have is := due.2.1
  obtain rfl := State.acc_of_desc? is
  have fresh : s.fresh d = d := State.fresh_of_desc? is
  exact ⟨by rw [State.begin_of_due due hp, stays, fresh], by rw [onset, stays, fresh]⟩

theorem AxisMoves.desc? {x : AxisId} {s t : State} (h : AxisMoves x s t) (n : Nat) : t.desc? n = s.desc? n := by rw [h.eqn]; rfl

theorem AxisMoves.sd {x : AxisId} {s t : State} (h : AxisMoves x s t) : t.sd = s.sd := by rw [h.eqn]

theorem AxisMoves.cu {x : AxisId} {s t : State} (h : AxisMoves x s t) : t.cu = s.cu := by rw [h.eqn]

/-! ### The start of a following (R160) -/

/-- The mode of an axis that follows. -/
def FollowKind.mode : FollowKind → Mode
  | .step => .step
  | .cam => .cam

/-- An axis that follows from frame `fr` on: its own position is the base, and it makes for nothing. -/
def Axis.following (a : Axis) (f : FollowSt) (fr : FrameNo) : Axis :=
  { a.unplanned with
    fol := some { f with base := a.tt.u0.p, eff := fr }
    ahead := none
    tt := { a.tt with goal := .rest, reversal := none, bypass := false } }

theorem State.startFollow_eq (s : State) (x : AxisId) (f : FollowSt) : s.startFollow x f =
    ((s.takeForms x).modAx x fun a => a.following f (s.frm.count + 1)).startMotion x .none f.kind.mode := by
  have same : (match f.kind with | .step => Mode.step | .cam => .cam) = f.kind.mode := by cases f.kind <;> rfl
  rw [← same]
  rfl

theorem State.startFollow_does (s : State) (x : AxisId) (f : FollowSt) :
    let a := s.ax.get x
    let b := (s.startFollow x f).ax.get x
    AxisMoves x s (s.startFollow x f) ∧ b.fol = some { f with base := a.tt.u0.p, eff := s.frm.count + 1 } ∧
      b.tt.running = .none ∧ b.tt.modeNext = some f.kind.mode ∧ b.tt.effFrame = s.frm.count + 1 ∧ b.tt.u0 = a.tt.u0 := by
  obtain ⟨formed, pr, sh, hi, fi, forms⟩ := s.takeForms_does x
  dsimp only
  rw [State.startFollow_eq]
  obtain ⟨u, prepared⟩ : ∃ u, (s.takeForms x).modAx x (fun a => a.following f (s.frm.count + 1)) = u := ⟨_, rfl⟩
  have aside : AxisMoves x s u := formed.trans (prepared ▸ .modAx ..)
  rw [prepared, State.get_startMotion, aside.frm, ← prepared, State.get_modAx_self, forms]
  exact ⟨prepared ▸ aside.trans (u.startMotion_moves ..), rfl, rfl, rfl, rfl, rfl⟩

/-! ### The plan of a following axis (R161 to R168) -/

/-- Nothing but axis `x` has moved, and its motion is of the frame that it was of. -/
structure Carries (x : AxisId) (s t : State) : Prop where
  moves : AxisMoves x s t
  effFrame : (t.ax.get x).tt.effFrame = (s.ax.get x).tt.effFrame

theorem Carries.trans {x : AxisId} {s t u : State} (h : Carries x s t) (k : Carries x t u) : Carries x s u :=
  ⟨h.moves.trans k.moves, k.effFrame.trans h.effFrame⟩

theorem Steers.carries {x : AxisId} {s t : State} (h : Steers x s t) : Carries x s t := ⟨h.moves, h.effFrame⟩

theorem Carries.modAx {s : State} {x : AxisId} {f : Axis → Axis} (same : (f (s.ax.get x)).tt.effFrame = (s.ax.get x).tt.effFrame) :
    Carries x s (s.modAx x f) := ⟨.modAx .., by rw [State.get_modAx_self, same]⟩

theorem State.stopStored_carries (s : State) (x : AxisId) (park : Bool) : Carries x s (s.stopStored x park) := by
  unfold State.stopStored State.stopMotion
  extract_lets t a old
  exact (State.stopFrom_does rfl).1.carries.trans (.modAx rfl)

theorem State.leaveFollow_carries (s : State) (x : AxisId) : Carries x s (s.leaveFollow x) :=
  .trans (.modAx (by rfl)) (State.stopStored_carries ..)

theorem State.camUnderrun_carries (s : State) (x : AxisId) (i d1 : Nat) : Carries x s (s.camUnderrun x i d1) :=
  (s.tellAt_next ..).steers.carries

theorem State.takeFollowed_carries (s : State) (x : AxisId) (f : FollowSt) (r u : Int) : Carries x s (s.takeFollowed x f r u) := by
  unfold State.takeFollowed
  extract_lets a nx
  split
  · exact (s.leaveFollow_carries x).trans (State.limitClipped_notes ..).steers.carries
  · exact .trans (.modAx rfl) (.modAx rfl)

theorem State.followStep_carries (s : State) (x : AxisId) (f : FollowSt) (demand : Int) : Carries x s (s.followStep x f demand) := by
  unfold State.followStep
  extract_lets a c d r0 u e lim past
  split
  · exact (State.takeFollowed_carries ..).trans (.modAx rfl)
  · exact State.takeFollowed_carries ..

/-- Whatever a following axis is planned to, only it moves. -/
theorem State.planFollow_carries (s : State) (x : AxisId) (f : FollowSt) : Carries x s (s.planFollow x f) := by
  unfold State.planFollow
  split
  · exact .modAx rfl
  · split
    · exact State.followStep_carries ..
    · extract_lets m
      dsimp only
      split
      · split
        · exact (State.followStep_carries ..).trans (.modAx rfl)
        · exact State.followStep_carries ..
      · split
        · exact (State.takeFollowed_carries ..).trans (State.camUnderrun_carries ..)
        · exact (State.leaveFollow_carries ..).trans (State.camUnderrun_carries ..)

theorem clampInt_zero {c : Int} (h : 0 ≤ c) : clampInt (-c) c 0 = 0 := by
  unfold clampInt
  omega

/-- A state at rest breaks no guard (R136). -/
theorem breaksGuard_still (sc : Bool) (l : Limits) (lo hi r : Int) : breaksGuard sc l lo hi ⟨r, 0, 0⟩ = false := rfl

/-- A follower with its axis at its base and no demand holds it there (R161). -/
theorem State.followStep_still {s : State} {x : AxisId} {f : FollowSt} (base : f.base = (s.ax.get x).tt.u0.p) (off : f.off = 0) :
    s.followStep x f 0 = (s.modAx x fun a => { a with fol := some { f with backlog := 0, lastU := 0, missed := 0 } }).modTt x
      fun t => t.plan s.hz ⟨(s.ax.get x).tt.u0.p, 0, 0⟩ := by
  have step : clampInt (-s.clampOf x f) (s.clampOf x f) 0 = 0 := clampInt_zero (Int.natCast_nonneg _)
  simp [State.followStep, base, off, step, State.takeFollowed, breaksGuard_still]

/-! ### The outcome of a descriptor that follows (R73, R101) -/

/-- A descriptor that takes effect as OK completes with its frame of effect, as held where it was held. -/
theorem State.desc?_laterOk {s : State} {d : Desc} (is : s.desc? d.acc = some d) (d0 d1 : Word) :
    ∃ w, (s.laterOk d d0 d1).desc? d.acc = some { d with out := some (if d.held.isSome then 9 else 0, d0, w) } := by
  have later (st : Nat) (w : Word) : (s.later d st d0 w).desc? d.acc = some { d with out := some (st, d0, w) } :=
    State.desc?_modDesc_self is fun _ => rfl
  unfold State.laterOk
  split
  next f held => exact ⟨_, (later 9 _).trans (by rw [held]; rfl)⟩
  next held => exact ⟨_, (later 0 _).trans (by rw [held]; rfl)⟩

/-! ### FOLLOW_STEP (O30) -/

/-- The follower of a FOLLOW_STEP (R160, R162): its pair from the count of the tick, at the gain of the operand. -/
def State.stepFollower (s : State) (d : Desc) : FollowSt :=
  let b := d.bytes
  let g : Int := (u16 b 18 * u32 b 20 : Nat)
  let p : Fin 16 := Fin.ofNat 16 (u8 b 16)
  { d.camStore with kind := .step, idx := p, mkind := 0, base0 := (s.sd.get p).latch, gain := if u8 b 17 = 1 then -g else g,
                    clamp := u32 b 24, addr := 0, count := 0, scale := 0, first := 0, cyclic := false, phase := 0 }

theorem State.stepFollower_gain (s : State) (d : Desc) : (s.stepFollower d).gain =
    (if u8 d.bytes 17 = 1 then -1 else 1) * ((u16 d.bytes 18 : Int) * u32 d.bytes 20) := by
  unfold State.stepFollower
  dsimp only
  split <;> simp

/-- An axis starts to follow with follower `f`, is planned, and the descriptor completes with its frame of effect (R160). -/
def State.engage (s : State) (d : Desc) (x : AxisId) (f : FollowSt) : State :=
  let t := s.startFollow x f
  let u := t.planFollow x { f with base := (s.ax.get x).tt.u0.p, eff := s.frm.count + 1 }
  u.laterOk (t.fresh d) (u.posWord d) (wd (t.fresh d).eff.toNat)

theorem State.followStepEffect_eq {s : State} {d : Desc} {x : AxisId} (named : d.axis? = some x) :
    s.followStepEffect d = s.engage d x (s.stepFollower d) := by
  obtain ⟨-, fol, -⟩ := s.startFollow_does x (s.stepFollower d)
  unfold State.stepFollower at fol
  rw [State.followStepEffect, named]
  dsimp only
  rw [fol]
  rfl

/-- What comes of an axis that starts to follow, and of the descriptor. -/
theorem State.engage_does {s : State} {d e : Desc} (is : s.desc? d.acc = some e) (x : AxisId) (f : FollowSt) :
    ∃ u, Carries x (s.startFollow x f) u ∧
      u = (s.startFollow x f).planFollow x { f with base := (s.ax.get x).tt.u0.p, eff := s.frm.count + 1 } ∧
      s.engage d x f = { u with ord := (s.engage d x f).ord } ∧
      ∃ w, (s.engage d x f).desc? d.acc = some { e with out := some (if e.held.isSome then 9 else 0, w) } := by
  obtain ⟨starts, -⟩ := s.startFollow_does x f
  have plans := (s.startFollow x f).planFollow_carries x { f with base := (s.ax.get x).tt.u0.p, eff := s.frm.count + 1 }
  have stands := (starts.desc? d.acc).trans is
  have fresh : (s.startFollow x f).fresh d = e := by rw [State.fresh, stands, Option.getD_some]
  refine ⟨_, plans, rfl, ?_, ?_⟩
  · rw [State.engage, State.laterOk_eqn]
  · have acc := State.acc_of_desc? is
    rw [← acc] at stands
    obtain ⟨w, out⟩ := State.desc?_laterOk ((plans.moves.desc? _).trans stands) _ _
    rw [State.engage, fresh, ← acc]
    exact ⟨_, out⟩

/-- The plan of a step follower from the count that it starts from: its axis is held at the base. -/
theorem State.planFollow_stepFollower {s t : State} {d : Desc} {x : AxisId} (sd : t.sd = s.sd) (eff : FrameNo) :
    let f := { s.stepFollower d with base := (t.ax.get x).tt.u0.p, eff := eff }
    t.planFollow x f = (t.modAx x fun a => { a with fol := some { f with backlog := 0, lastU := 0, missed := 0 } }).modTt x
      fun u => u.plan t.hz ⟨(t.ax.get x).tt.u0.p, 0, 0⟩ := by
  intro f
  have still : f.gain * ((t.sd.get (Fin.ofNat 16 f.idx)).latch - f.base0) = 0 := by
    have pair : Fin.ofNat 16 f.idx = Fin.ofNat 16 (u8 d.bytes 16) := Fin.ext (Nat.mod_mod _ _)
    rw [pair, sd]
    simp [f, State.stepFollower]
  have steps : t.planFollow x f = t.followStep x f (f.gain * ((t.sd.get (Fin.ofNat 16 f.idx)).latch - f.base0)) := rfl
  rw [steps, still]
  exact State.followStep_still rfl rfl

/-- Settles O30: the axis is held at its base, from which it follows. -/
theorem followsSteps : Obligations.FollowsSteps := by
  unfold Obligations.FollowsSteps
  intro s n d x due named
  obtain ⟨acc, bytes⟩ := onsetOf_operands due
  have axis : (onsetOf s d).axis? = some x := (Desc.axis?_congr bytes).trans named
  have runs : exec (.followStep n) s = .next ((onset s d).followStepEffect (onsetOf s d)) :=
    congrArg Host.Outcome.next (State.withEffect_of_due due (· == 5) rfl _)
  obtain ⟨stage, grant⟩ := onsetOf_in_effect due
  obtain ⟨stands, -⟩ := onset_does due
  rw [State.followStepEffect_eq axis] at runs
  have frame := (onset_frame due).1
  generalize onset s d = o at runs frame stands ⊢
  generalize onsetOf s d = e at *
  obtain ⟨starts, -, running, mode, eff, u0⟩ := o.startFollow_does x (o.stepFollower e)
  obtain ⟨u, carries, plans, only, w, out⟩ := State.engage_does (acc ▸ stands) x (o.stepFollower e)
  have ax : (o.engage e x (o.stepFollower e)).ax = u.ax := by rw [only]
  have moves : AxisMoves x o u := starts.trans carries.moves
  rw [← u0] at plans
  have held := congrArg (fun t : State => t.ax.get x) (plans.trans (State.planFollow_stepFollower starts.sd _))
  rw [State.get_modTt_self, State.get_modAx_self] at held
  refine completes_of_exec runs ?_
  rw [ax, held, ← acc, out]
  refine ⟨mode, running, ?_, ?_, moves.apart, ?_, ?_⟩
  · rw [← frame]
    exact eff
  · show ((_ == _ && _ == _ && _ == _) && _ == _) = true
    simp only [Bool.and_eq_true, beq_iff_eq]
    exact ⟨⟨⟨congrArg (fun b => u8 b 16 % 16) bytes, congrArg RefPt.p u0⟩, (o.stepFollower_gain e).trans (by rw [bytes])⟩,
      congrArg (fun b => u32 b 24) bytes⟩
  · simp [stage, grant]
  · rw [only]
    exact moves.frm.trans frame

end Sys2Proof.Machine
end

section

namespace Sys2Proof.Machine

open Safety

/-! ### FOLLOW_CAM (R160, R164, R168) -/

/-- The store of an axis that a FOLLOW_CAM is to take over, its points noted (R164, R167). -/
def State.camFor (s : State) (d : Desc) (x : AxisId) : FollowSt := (((s.ax.get x).ahead).getD d.camStore).note

section

variable {s : State} {n : Nat} {d : Desc} {x : AxisId} (due : Due s n 6 d) (named : d.axis? = some x) (stays : (s.decideOne d).1 = s)
include due named stays

/-- A table without room in the point space is refused (R164). -/
theorem exec_followCam_refused {o v : Nat} (refused : s.camRefusal (s.camFor d x) = some (o, v)) :
    exec (.followCam n) s = .next (s.refuseAhead d 5 (wd o) (wd v)) := by
  obtain ⟨begins, -⟩ := State.begin_of_due_stays due stays (p := (· == 6)) rfl
  unfold State.camFor at refused
  show execFollowCam n s = _
  simp only [execFollowCam, begins, named, refused]

variable (room : s.camRefusal (s.camFor d x) = none)
include room

/-- Without the first points the axis does not follow (R168). -/
theorem exec_followCam_missing {i : Nat} (missing : (s.camFor d x).camDemand ((s.camFor d x).first * 65536) = .inr i) :
    exec (.followCam n) s = .next (((s.keepAxis d x).camUnderrun x i 2).refuseAhead d 8 14 (wdI (s.posOf x))) := by
  obtain ⟨begins, -⟩ := State.begin_of_due_stays due stays (p := (· == 6)) rfl
  unfold State.camFor at room missing
  show execFollowCam n s = _
  simp only [execFollowCam, begins, named, room, missing]

/-- With them it takes the cam's place for that of its motion. -/
theorem exec_followCam_engages {p : Int} (points : (s.camFor d x).camDemand ((s.camFor d x).first * 65536) = .inl p) :
    exec (.followCam n) s = .next ((onset s d).followCamEffect d x (s.camFor d x)) := by
  obtain ⟨begins, taken⟩ := State.begin_of_due_stays due stays (p := (· == 6)) rfl
  unfold State.camFor at room points ⊢
  show execFollowCam n s = _
  simp only [execFollowCam, begins, named, room, points, taken]

end

theorem State.followCamEffect_eq (s : State) (d : Desc) (x : AxisId) (f : FollowSt) :
    s.followCamEffect d x f = s.engage d x { f with base0 := s.masterAt f, lastM := 0 } := by
  obtain ⟨-, fol, -⟩ := s.startFollow_does x { f with base0 := s.masterAt f, lastM := 0 }
  rw [State.followCamEffect]
  dsimp only
  rw [fol]
  rfl

/-! ### CAM_LINE_READ_DONE (R167) -/

/-- What an axis' store has of a line that it asked for: the cam that it follows before the one that waits (R167). -/
def Axis.askedFor (a : Axis) (l : Nat) : Option FollowSt :=
  (a.fol.filter fun f => f.asked.contains l) <|> a.ahead.filter fun f => f.asked.contains l

/-- An axis takes a line to the store that asked, or forgets there that it asked. -/
def Axis.takeLine (a : Axis) (l : Nat) (b : Option (List Int)) : Axis :=
  if (a.fol.filter fun f => f.asked.contains l).isSome then { a with fol := a.fol.map fun g => g.takeLine l b }
  else { a with ahead := a.ahead.map fun g => g.takeLine l b }

section

variable {s : State} {x : AxisId} {l : Nat}

/-- A line that no store of the axis asked for goes nowhere. -/
theorem exec_camLineReadDone_unasked (asks : (s.ax.get x).askedFor l = none) (r : HostRead) : exec (.camLineReadDone x l r) s = .next s := by
  unfold Axis.askedFor at asks
  show execCamLineReadDone x l r s = _
  simp only [execCamLineReadDone, asks]

variable {f : FollowSt} (asks : (s.ax.get x).askedFor l = some f)
include asks

/-- The sixteen points of a line go to the store that asked. -/
theorem exec_camLineReadDone_data {b : List Byte} (length : b.length = 64) :
    exec (.camLineReadDone x l (.data b)) s = .next (s.modAx x fun a => a.takeLine l (some (wordsOf b))) := by
  unfold Axis.askedFor at asks
  show execCamLineReadDone x l (.data b) s = _
  simp only [execCamLineReadDone, asks]
  exact congrArg Host.Outcome.next (if_pos length)

/-- A failed read of a line raises event 3. -/
theorem exec_camLineReadDone_failed (e : BitVec 8) : exec (.camLineReadDone x l (.failed e)) s =
    .next ((s.modAx x fun a => a.takeLine l none).raise 3 (0x100 + f.ring.val) (wd (e.toNat + 256)) 0) := by
  unfold Axis.askedFor at asks
  show execCamLineReadDone x l (.failed e) s = _
  simp only [execCamLineReadDone, asks]
  rfl

end

section

variable {a : Axis} {l : Nat} {f : FollowSt} (asked : f.asked.contains l = true)
include asked

/-- The cam that an axis follows takes the line that it asked for. -/
theorem Axis.takeLine_followed (follows : a.fol = some f) : a.askedFor l = some f ∧
    ∀ b, a.takeLine l b = { a with fol := some (f.takeLine l b) } := by
  have asks : a.fol.filter (fun f => f.asked.contains l) = some f := by rw [follows, Option.filter_some, if_pos asked]
  refine ⟨by rw [Axis.askedFor, asks]; rfl, fun b => ?_⟩
  rw [Axis.takeLine, asks, follows]
  rfl

/-- The cam that waits takes it, where the axis follows none. -/
theorem Axis.takeLine_waiting (idle : a.fol = none) (waits : a.ahead = some f) : a.askedFor l = some f ∧
    ∀ b, a.takeLine l b = { a with ahead := some (f.takeLine l b) } := by
  have asks : a.ahead.filter (fun f => f.asked.contains l) = some f := by rw [waits, Option.filter_some, if_pos asked]
  refine ⟨by rw [Axis.askedFor, asks, idle]; rfl, fun b => ?_⟩
  rw [Axis.takeLine, idle, waits]
  rfl

end

/-- Settles O31: the three ends of a FOLLOW_CAM, then the reads of lines. -/
theorem cams : Obligations.Cams := by
  unfold Obligations.Cams
  refine ⟨fun s n d x o v due named stays refused => exec_followCam_refused due named stays refused,
    fun s n d x i due named stays room missing => exec_followCam_missing due named stays room missing,
    fun s n d x p due named stays room points => ?_, fun s x l b f follows asked length => ?_,
    fun s x l b f idle waits asked length => ?_, fun s x l e f follows asked => ?_, fun s x l r idle none => ?_⟩
  · have runs := exec_followCam_engages due named stays room points
    rw [State.followCamEffect_eq] at runs
    obtain ⟨-, taken⟩ := State.begin_of_due_stays due stays (p := (· == 6)) rfl
    obtain ⟨stands, -⟩ := onset_does due
    obtain rfl := State.acc_of_desc? due.2.1
    have within : Within true s (onset s d) := taken ▸ within_takeOver (.refl true s) d
    generalize s.camFor d x = f at *
    obtain ⟨starts, -, -, -, eff, -⟩ := (onset s d).startFollow_does x { f with base0 := (onset s d).masterAt f, lastM := 0 }
    obtain ⟨u, carries, -, only, -⟩ := State.engage_does stands x { f with base0 := (onset s d).masterAt f, lastM := 0 }
    have moves : AxisMoves x (onset s d) u := starts.trans carries.moves
    refine completes_of_exec runs ?_
    rw [only]
    exact ⟨moves.frm.trans within.frm, moves.cu.trans within.cu, carries.effFrame.trans (eff.trans (by rw [within.frm])), moves.apart⟩
  · obtain ⟨asks, takes⟩ := Axis.takeLine_followed asked follows
    exact (exec_camLineReadDone_data asks length).trans (congrArg Host.Outcome.next (State.modAx_congr (takes _)))
  · obtain ⟨asks, takes⟩ := Axis.takeLine_waiting asked idle waits
    exact (exec_camLineReadDone_data asks length).trans (congrArg Host.Outcome.next (State.modAx_congr (takes _)))
  · obtain ⟨asks, takes⟩ := Axis.takeLine_followed asked follows
    refine completes_of_exec (exec_camLineReadDone_failed asks e) ⟨State.rb_raise_self _ 3 .., ?_⟩
    rw [(tells_raise ..).ax, State.get_modAx_self, takes]
    exact ⟨rfl, fun y ne => State.get_modAx_ne _ _ ne⟩
  · exact exec_camLineReadDone_unasked (by rw [Axis.askedFor, idle, none]; rfl) r

end Sys2Proof.Machine
end

section

namespace Sys2Proof.Machine

open Safety

/-! ### What a grant leaves (R331) -/

theorem Grants.ax {s t : State} {d : Desc} (h : Grants s d t) : t.ax = s.ax := by
  obtain ⟨r, tells, moves, -⟩ := h.moves
  rw [moves]
  exact tells.ax

theorem Grants.frm {s t : State} {d : Desc} (h : Grants s d t) : t.frm = s.frm := by
  obtain ⟨r, tells, moves, -⟩ := h.moves
  rw [moves]
  exact tells.frm

/-- A due descriptor is granted as it stands, with its grant in it. -/
theorem grants_of_due {s : State} {n op : Nat} {d : Desc} (due : Due s n op d) :
    Grants s d (s.decideOne d).1 ∧ ∃ g h, (s.decideOne d).1.fresh d = { d with grantAt := g, holdTold := h } := by
  obtain ⟨-, is, -, -, -, -, grant⟩ := due
  obtain rfl := State.acc_of_desc? is
  have grants : Grants s d (s.decideOne d).1 := State.decideOne_grants is (Prod.ext rfl grant)
  obtain ⟨g, h, stands⟩ := grants.desc
  exact ⟨grants, g, h, by rw [State.fresh, stands, Option.getD_some]⟩

/-! ### The moves of a group (R154, R155) -/

/-- The limits of a member of GROUP_MOVE `d` (R155). -/
def State.memberLimits (s : State) (d : Desc) (x : AxisId) : Limits :=
  let a := (s.ax.get x).act
  limitsOf s.hz (orStored (u32 d.bytes 20) a.speed) a.acc a.dec a.jacc a.jdec

/-- The duration of a member's profile to its target under those limits (R155). -/
def State.memberTime (s : State) (d : Desc) (p : AxisId × Int) : Nat :=
  let a := s.ax.get p.1
  durationOf ((s.memberLimits d p.1).plim (a.act.profile == 1)) (clipTarget a.act.limLo a.act.limHi p.2 a.tt.u0.p - intPart a.tt.u0.p)

/-- The longest of these durations, in whole frames (R155). -/
def State.groupFrames (s : State) (d : Desc) (ts : List (AxisId × Int)) : Nat :=
  ((ts.map (s.memberTime d)).foldl max 0 + 2 ^ 64 - 1) / 2 ^ 64

/-- The limits that a member moves under: scaled with timing 1 by its part of the longest duration (R155). -/
def State.timedLimits (s : State) (d : Desc) (ts : List (AxisId × Int)) (p : AxisId × Int) : Limits :=
  if u8 d.bytes 18 = 0 ∨ s.memberTime d p = 0 then s.memberLimits d p.1
  else (s.memberLimits d p.1).scale (roundDiv (s.memberTime d p : Int) (s.groupFrames d ts * 2 ^ 48)).toNat

theorem le_foldl_max {l : List Nat} {n m : Nat} (h : n ∈ l ∨ n ≤ m) : n ≤ l.foldl max m := by
  induction l generalizing m with
  | nil => simpa using h
  | cons a l ih =>
    refine ih ?_
    rcases h with h | h
    · rcases List.mem_cons.1 h with rfl | h
      · exact .inr (le_max_right ..)
      · exact .inl h
    · exact .inr (h.trans (le_max_left ..))

/-- A group with a member that has somewhere to go takes at least a frame. -/
theorem State.groupFrames_pos {s : State} {d : Desc} {ts : List (AxisId × Int)} {p : AxisId × Int} (hp : p ∈ ts)
    (moves : s.memberTime d p ≠ 0) : s.groupFrames d ts ≠ 0 := by
  have most : s.memberTime d p ≤ (ts.map (s.memberTime d)).foldl max 0 := le_foldl_max (.inl (List.mem_map_of_mem hp))
  unfold State.groupFrames
  generalize (ts.map (s.memberTime d)).foldl max 0 = m at most
  omega

theorem State.groupLimits_eq (s : State) (d : Desc) (ts : List (AxisId × Int)) :
    s.groupLimits d ts = ts.map (s.timedLimits d ts) := by
  unfold State.groupLimits
  extract_lets speed one dur most frames
  have longest : most = (ts.map (s.memberTime d)).foldl max 0 := (List.foldl_map (f := s.memberTime d) (g := max)).symm
  have same : frames = s.groupFrames d ts := by rw [State.groupFrames, ← longest]
  split
  next alone =>
    refine List.map_congr_left fun p _ => ?_
    rw [State.timedLimits, if_pos (.inl alone)]
    rfl
  next together =>
    refine List.map_congr_left fun p hp => ?_
    rw [State.timedLimits, same]
    by_cases stays : s.memberTime d p = 0
    · rw [if_pos (.inr stays)]
      exact if_pos (.inl stays)
    · rw [if_neg (not_or.2 ⟨together, stays⟩)]
      exact if_neg (not_or.2 ⟨stays, State.groupFrames_pos hp stays⟩)

/-- What every member of a group goes by, with its target, from the state it finds. -/
structure Joins (n : Nat) (l : Limits) (target : Int) (a b : Axis) : Prop where
  running : b.tt.running = .group n
  mode : b.tt.modeNext = some .position
  target : b.tt.target = clipTarget a.act.limLo a.act.limHi target a.tt.u0.p
  own : b.tt.own = l

/-- The moves of distinct members: each by its own target and limits, and no other axis moves. -/
theorem State.forAll_moveTo (n : Nat) (f : AxisId × Int → Limits) {l : List (AxisId × Int)} (distinct : (l.map (·.1)).Nodup) (s : State) :
    let t := s.forAll l fun t p => t.moveTo p.1 p.2 (f p) false (.group n)
    AxesMove s t ∧ (∀ y : AxisId, y ∉ l.map (·.1) → t.ax.get y = s.ax.get y) ∧
      ∀ p ∈ l, Joins n (f p) p.2 (s.ax.get p.1) (t.ax.get p.1) := by
  refine ⟨.forAll (fun t p => ⟨(t.moveTo_does ..).1.eqn⟩) s, ?_⟩
  induction l generalizing s with
  | nil => exact ⟨fun _ _ => rfl, fun p hp => nomatch hp⟩
  | cons p l ih =>
    obtain ⟨other, distinct⟩ := List.nodup_cons.1 distinct
    obtain ⟨only, target, running, mode, -, -, -, -, own, -⟩ := s.moveTo_does p.1 p.2 (f p) false (.group n)
    obtain ⟨apart, joins⟩ := ih distinct (s.moveTo p.1 p.2 (f p) false (.group n))
    refine ⟨fun y out => ?_, fun q hq => ?_⟩
    · obtain ⟨ne, out⟩ := not_or.1 (mt List.mem_cons.2 out)
      exact (apart y out).trans (only.apart y ne)
    · rcases List.mem_cons.1 hq with rfl | hq
      · rw [show State.forAll s (q :: l) _ = State.forAll _ l _ from rfl, apart q.1 other]
        exact ⟨running, mode, target, own⟩
      · have ne : q.1 ≠ p.1 := fun same => other (List.mem_map.2 ⟨q, hq, same⟩)
        rw [← only.apart q.1 ne]
        exact joins q hq

theorem State.groupEffect_eq (s u : State) (d e : Desc) (ts : List (AxisId × Int)) : s.groupEffect e ts (u.groupLimits d ts) =
    s.forAll ts fun t p => t.moveTo p.1 p.2 (u.timedLimits d ts p) false (.group e.acc) := by
  rw [State.groupEffect, State.groupLimits_eq, ← List.map_prod_left_eq_zip]
  exact List.foldl_map

/-! ### GROUP_MOVE (R154, R155) -/

theorem State.groupTargets_congr {s t : State} {d e : Desc} (ax : t.ax = s.ax) (bytes : e.bytes = d.bytes)
    (members : e.members = d.members) (targets : e.targets = d.targets) : t.groupTargets e = s.groupTargets d := by
  have base (x : AxisId) : t.relBase x = s.relBase x := by rw [State.relBase, ax, State.relBase]
  simp only [State.groupTargets, bytes, members, targets, base]

theorem State.timedLimits_congr {s t : State} {d e : Desc} (ax : t.ax = s.ax) (frm : t.frm = s.frm) (bytes : e.bytes = d.bytes)
    (ts : List (AxisId × Int)) : t.timedLimits e ts = s.timedLimits d ts := by
  have own : t.memberLimits e = s.memberLimits d := by
    funext x
    rw [State.memberLimits, State.hz, ax, frm, bytes, State.memberLimits, State.hz]
  have time : t.memberTime e = s.memberTime d := by
    funext p
    rw [State.memberTime, own, ax, State.memberTime]
  funext p
  rw [State.timedLimits, State.groupFrames, own, time, bytes, State.timedLimits, State.groupFrames]

theorem map_fst_zip_sublist {α β : Type} (l : List α) (m : List β) : ((l.zip m).map (·.1)).Sublist l := by
  induction l generalizing m with
  | nil => exact List.Sublist.slnil
  | cons a l ih =>
    cases m with
    | nil => exact List.nil_sublist _
    | cons b m => exact (ih m).cons_cons a

/-- The axes that have a target are members, each once. -/
theorem State.groupTargets_axes (s : State) (d : Desc) : ((s.groupTargets d).map (·.1)).Sublist d.members := by
  rw [State.groupTargets, List.map_map]
  exact map_fst_zip_sublist d.members (d.targets.getD [])

section

variable {s : State} {n : Nat} {d : Desc} (due : Due s n 0x10 d)
include due

/-- With timing 1 and a member still moving, a GROUP_MOVE is refused (R155). -/
theorem exec_groupMove_refused {x : AxisId} (timed : u8 d.bytes 18 = 1)
    (moving : (d.members.find? fun y => !(s.ax.get y).tt.atRest) = some x) :
    exec (.groupMove n) s = .next ((s.decideOne d).1.refuseAhead ((s.decideOne d).1.fresh d) 5 18 (wd x.val)) := by
  have begins := State.begin_of_due due (p := (· == 0x10)) rfl
  obtain ⟨grants, g, h, fresh⟩ := grants_of_due due
  show execGroupMove n s = _
  simp only [execGroupMove, begins, fresh, grants.ax, timed, moving, if_true]

/-- Else its members are planned as the state before finds them, once it has taken effect (R155). -/
theorem exec_groupMove_goes (free : u8 d.bytes 18 = 0 ∨ (u8 d.bytes 18 = 1 ∧ ∀ y ∈ d.members, (s.ax.get y).tt.atRest = true)) :
    exec (.groupMove n) s = .next ((onset s d).forAll (s.groupTargets d) fun t p =>
      t.moveTo p.1 p.2 (s.timedLimits d (s.groupTargets d) p) false (.group n)) := by
  have begins := State.begin_of_due due (p := (· == 0x10)) rfl
  obtain ⟨grants, g, h, fresh⟩ := grants_of_due due
  obtain ⟨acc, -⟩ := onsetOf_operands due
  have still : (if u8 d.bytes 18 = 1 then d.members.find? fun y => !(s.ax.get y).tt.atRest else none) = none := by
    rcases free with alone | ⟨timed, rest⟩
    · rw [if_neg (by omega)]
    · rw [if_pos timed, List.find?_eq_none]
      exact fun y hy => by simp [rest y hy]
  have bytes : ((s.decideOne d).1.fresh d).bytes = d.bytes := by rw [fresh]
  have members : ((s.decideOne d).1.fresh d).members = d.members := by rw [fresh]
  have targets : ((s.decideOne d).1.fresh d).targets = d.targets := by rw [fresh]
  show execGroupMove n s = _
  simp only [execGroupMove, begins, bytes, members, grants.ax, still, State.groupEffect_eq,
    State.groupTargets_congr grants.ax bytes members targets, State.timedLimits_congr grants.ax grants.frm bytes]
  rw [← acc]
  rfl

end

end Sys2Proof.Machine
end

section

namespace Sys2Proof.Machine

open Safety

/-! ### The end of a descriptor keeps the motions (R83, R102) -/

theorem State.tt_camHead (s : State) (x y : AxisId) : ((s.camHead x).ax.get y).tt = (s.ax.get y).tt := by
  have store (t : State) (f : Option FollowSt) : ((t.modAx x fun a => { a with ahead := f }).ax.get y).tt = (t.ax.get y).tt := by
    by_cases own : y = x
    · rw [own, State.get_modAx_self]
    · rw [State.get_modAx_ne _ _ own]
  unfold State.camHead
  extract_lets ahead
  split
  · split
    · split
      · rfl
      · exact (store ..).trans (congrArg (fun v : Vector Axis 200 => (v.get y).tt) (s.fillCam_ax _))
    · split
      · exact store ..
      · rfl
  · split
    · exact store ..
    · rfl

theorem State.tt_finish (s : State) (d : Desc) (status : Nat) (d0 d1 : Word) (fr : FrameNo) (y : AxisId) :
    ((s.finish d status d0 d1 fr).ax.get y).tt = (s.ax.get y).tt := by
  unfold State.finish
  extract_lets s1 s2 s3
  have h1 : s1.ax = s.ax := by
    unfold s1
    split
    · rfl
    · exact State.ax_produce ..
  have h2 : s2.ax = s.ax := (State.ax_finishEvents ..).trans h1
  have h3 : s3.ax = s.ax := by
    unfold s3
    split
    · exact (State.ax_moveFeed ..).trans h2
    · exact h2
  rw [← h3]
  split
  · exact State.forAll_proj (fun t => (t.ax.get y).tt) (fun t x => (State.tt_camHead ..).trans (by rw [State.queueLow_ax])) s3
  · rfl

/-! ### GROUP_TARGET_LIST_READ_DONE (R154, R156) -/

/-- What answers the read of the target list of `d`, with `k` retries left: the list of the length asked, or a try that failed. -/
def State.listAnswered (s : State) (k : Nat) (d : Desc) : HostRead → State
  | .data b =>
    if b.length = 4 * u16 d.bytes 32 then
      s.modDesc d.acc fun x => { x with targets := some (wordsOf b), readAt := s.frm.count, tries := none }
    else s
  | .failed e =>
    if k = 0 then (s.raise 3 (0x100 + d.ring.val) (wd (e.toNat + 256 * (d.tried + 1))) 0).finish d 8 3 (s.posWord d) s.frm.count
    else s.modDesc d.acc fun x => { x with tries := some (k - 1), tried := x.tried + 1, readAt := s.frm.count }

section

variable {s : State} {n k : Nat} {d : Desc} (is : s.desc? n = some d) (tries : d.tries = some k)
include is tries

/-- Nothing answers a read that is not in flight. -/
theorem exec_groupTargetListReadDone_idle (arrived : d.readAt ≠ BitVec.allOnes 64) (r : HostRead) :
    exec (.groupTargetListReadDone n r) s = .next s := by
  show execGroupTargetListReadDone n r s = _
  simp only [execGroupTargetListReadDone, is, tries]
  rw [if_pos (.inr (.inr (.inr (.inl arrived))))]

variable (op : d.op = 0x10) (unread : d.targets = none) (whole : d.refetch = false)
  (stands : d.stage = .staged ∨ d.stage = .queued) (flight : d.readAt = BitVec.allOnes 64)
include op unread whole stands flight

theorem exec_groupTargetListReadDone_flight (r : HostRead) : exec (.groupTargetListReadDone n r) s = .next (s.listAnswered k d r) := by
  have waits : d.active = true ∨ d.stage = .staged := by
    rcases stands with staged | queued
    · exact .inr staged
    · exact .inl (by rw [Desc.active, queued]; rfl)
  have asks : ¬ (d.op ≠ 0x10 ∨ d.targets.isSome = true ∨ d.refetch = true ∨ d.readAt ≠ BitVec.allOnes 64 ∨
      ¬ (d.active = true ∨ d.stage = .staged)) := by simp [op, unread, whole, flight, waits]
  obtain rfl := State.acc_of_desc? is
  show execGroupTargetListReadDone d.acc r s = _
  simp only [execGroupTargetListReadDone, is, tries]
  cases r <;> exact congrArg Host.Outcome.next (if_neg asks)

end

/-- Settles O35: the moves of the members, the refusal, and the read of the target list. -/
theorem groupMoves : Obligations.GroupMoves := by
  unfold Obligations.GroupMoves
  refine ⟨fun s n d due distinct free => ?_, fun s n d x due timed moving => exec_groupMove_refused due timed moving,
    fun s n k d is op tries unread whole stands => ⟨fun flight b length => ?_, fun flight e last => ?_, fun flight e left => ?_,
      fun arrived r => exec_groupTargetListReadDone_idle is tries arrived r⟩⟩
  · have axes := s.groupTargets_axes d
    obtain ⟨only, apart, joins⟩ := State.forAll_moveTo n (s.timedLimits d (s.groupTargets d)) (distinct.sublist axes) (onset s d)
    refine completes_of_exec (exec_groupMove_goes due free) ⟨fun p hp => ?_, fun y out => apart y fun h => out (axes.subset h), ?_, ?_⟩
    · obtain ⟨running, mode, target, own⟩ := joins p hp
      exact ⟨running, mode, target, own⟩
    · rw [only.eqn]
    · rw [only.eqn]
      exact (onset_frame due).1
  · refine completes_of_exec ((exec_groupTargetListReadDone_flight is tries op unread whole stands flight _).trans
      (congrArg Host.Outcome.next (if_pos length))) ⟨?_, rfl⟩
    rw [State.acc_of_desc? is, State.desc?_modDesc_self is (by intro; rfl)]
    simp
  · have runs := (exec_groupTargetListReadDone_flight is tries op unread whole stands flight (.failed e)).trans
      (congrArg Host.Outcome.next (if_pos last))
    refine ⟨runs, completes_of_exec runs ⟨?_, fun y => ?_⟩⟩
    · exact (within_finish (.refl true _) ..).lo rfl 3 (State.rb_raise_self s 3 ..)
    · rw [State.tt_finish, (tells_raise ..).ax]
  · refine completes_of_exec ((exec_groupTargetListReadDone_flight is tries op unread whole stands flight _).trans
      (congrArg Host.Outcome.next (if_neg (Nat.ne_of_gt left)))) ⟨?_, rfl⟩
    rw [State.acc_of_desc? is, State.desc?_modDesc_self is (by intro; rfl)]
    simp

end Sys2Proof.Machine
end

section
/-! SUPPORT. The obligations of the coil drive: ENERGIZE and IDENTIFY as they take effect, and the ends of the steps of their
sequences, with the rules about the operations that these share. -/

namespace Sys2Proof.Machine

open Safety

/-! ### The beginning of a sequence (R182, R184) -/

/-- PD_EN is written in both sets, and what the next tick brings to the phase may give way to RUN. -/
theorem State.writePdEn_does (s : State) (x : AxisId) (v : Nat) : AxisMoves x s (s.writePdEn x v) ∧ ∃ ph,
    (s.writePdEn x v).ax.get x =
      { s.ax.get x with
        coilA := { (s.ax.get x).coilA with pdEn := v }
        coilS := { (s.ax.get x).coilS with pdEn := v }
        cd := { (s.ax.get x).cd with phaseNext := ph } } := by
  unfold State.writePdEn
  extract_lets now s1
  have written : AxisMoves x s s1 := .modAx ..
  have axis : s1.ax.get x = { s.ax.get x with
      coilA := { (s.ax.get x).coilA with pdEn := v }, coilS := { (s.ax.get x).coilS with pdEn := v } } := State.get_modAx_self ..
  split
  · refine ⟨written.trans (.modCd ..), some .run, ?_⟩
    rw [State.runPhase, State.get_modCd_self, axis]
  · exact ⟨written, _, axis⟩

theorem State.get_beginSeq (s : State) (x : AxisId) (ph : Phase) (q : SeqSt) : (s.beginSeq x ph q).ax.get x =
    { s.ax.get x with cd := { (s.ax.get x).cd.both Coil.zeroSums with phaseNext := some ph, seq := some q } } := State.get_modCd_self ..

theorem State.beginSeq_moves (s : State) (x : AxisId) (ph : Phase) (q : SeqSt) : AxisMoves x s (s.beginSeq x ph q) := .modCd ..

/-- Sequence `q` begins on axis `x` with phase `ph`, and PD_EN is `v`; the axis does not move. -/
structure Begins (x : AxisId) (ph : Phase) (q : SeqSt) (v : Nat) (s t : State) : Prop where
  moves : AxisMoves x s t
  phaseNext : (t.ax.get x).cd.phaseNext = some ph
  seq : (t.ax.get x).cd.seq = some q
  tt : (t.ax.get x).tt = (s.ax.get x).tt
  pdEn : (t.ax.get x).coilA.pdEn = v

theorem State.writePdEn_begins (s : State) (x : AxisId) (v : Nat) (ph : Phase) (q : SeqSt) :
    Begins x ph q v s ((s.writePdEn x v).beginSeq x ph q) := by
  obtain ⟨moves, next, axis⟩ := s.writePdEn_does x v
  refine ⟨moves.trans (State.beginSeq_moves ..), ?_, ?_, ?_, ?_⟩ <;> rw [State.get_beginSeq, axis]

/-- A sequence without IDENT starts from integrators of 0 (R182). -/
theorem Begins.zeroInt {x : AxisId} {ph : Phase} {q : SeqSt} {v : Nat} {s t : State} (h : Begins x ph q v s t) :
    Begins x ph q v s (t.modCd x CdState.zeroInt) := by
  refine ⟨h.moves.trans (.modCd ..), ?_, ?_, ?_, ?_⟩ <;> rw [State.get_modCd_self]
  exacts [h.phaseNext, h.seq, h.tt, h.pdEn]

/-! ### ENERGIZE takes effect (R182, R183, R254) -/

/-- The sequence that an ENERGIZE begins on axis `x`, not in HOLD: its first ramp is the last where IDENT does not run. -/
def State.energizeSeq (s : State) (d : Desc) (x : AxisId) : SeqSt where
  desc := d.acc
  ident := identRuns (s.ax.get x) (u8 d.bytes 17)
  rOnly := false
  identify := false
  fromHold := false
  final := !identRuns (s.ax.get x) (u8 d.bytes 17)
  start := s.frm.count + 1
  gr := (s.factors x true).gr
  boot := heavy x
  theta := identAngle (s.ax.get x).elecAhead

section

variable {s : State} {d : Desc} {x : AxisId} (named : d.axis? = some x)
include named

/-- Outside HOLD the energising ramp begins; beside the axis only the bootstraps of a heavy one have moved (R254). -/
theorem State.energizeEffect_ramps (other : (s.ax.get x).tt.modeAhead ≠ .hold) : ∃ t,
    Begins x .energising (s.energizeSeq d x) (u8 d.bytes 16) s t ∧ (s.energizeEffect d).ax = t.ax ∧
      (s.energizeEffect d).frm = t.frm := by
  have begins := s.writePdEn_begins x (u8 d.bytes 16) .energising (s.energizeSeq d x)
  rw [State.energizeEffect, named]
  dsimp only
  rw [if_neg other]
  by_cases ident : identRuns (s.ax.get x) (u8 d.bytes 17) = true
  · refine ⟨_, begins, ?_⟩
    rw [if_pos ident]
    split <;> exact ⟨rfl, rfl⟩
  · refine ⟨_, begins.zeroInt, ?_⟩
    rw [if_neg ident]
    split <;> exact ⟨rfl, rfl⟩

variable (hold : (s.ax.get x).tt.modeAhead = .hold)
include hold

/-- In HOLD without identification it has its outcome (R183). -/
theorem State.energizeEffect_done (without : u8 d.bytes 17 ≠ 1) :
    s.energizeEffect d = (s.writePdEn x (u8 d.bytes 16)).laterOk d 0 0 := by
  rw [State.energizeEffect, named]
  dsimp only
  rw [if_pos hold, if_neg without]

/-- In HOLD with identification the measurement of R begins (R183). -/
theorem State.energizeEffect_identifies (with_ : u8 d.bytes 17 = 1) :
    s.energizeEffect d = (s.writePdEn x (u8 d.bytes 16)).beginSeq x .identR
      { s.energizeSeq d x with fromHold := true, final := false, boot := false, theta := (s.ax.get x).elecAhead } := by
  rw [State.energizeEffect, named]
  dsimp only
  rw [if_pos hold, if_pos with_]
  rfl

end

/-! ### IDENTIFY takes effect (R144, R190) -/

section

variable {s : State} {d : Desc} {x : AxisId} (named : d.axis? = some x)
include named

/-- Kinds 0 and 1 begin with the measurement of R, kind 1 with nothing after it but the ramp (R190). -/
theorem State.identifyEffect_identifies (coils : u8 d.bytes 16 ≠ 2) : s.identifyEffect d = s.beginSeq x .identR
    { desc := d.acc, ident := true, rOnly := u8 d.bytes 16 == 1, identify := true, fromHold := true, final := false,
      start := s.frm.count + 1, gr := 0, boot := false, theta := identAngle (s.ax.get x).elecAhead } := by
  rw [State.identifyEffect, named]
  exact if_neg coils

/-- Kind 2 is a move past the shaper, whose end is observed (R144). -/
theorem State.identifyEffect_moves (ringing : u8 d.bytes 16 = 2) : s.identifyEffect d =
    (s.moveTo x (s.relBase x + s32 d.bytes 20) ((s.ax.get x).act.limits s.hz) true (.ident d.acc)).modTt x
      fun t => { t with ring := some ⟨d.acc, none, 0, 0, 0, []⟩ } := by
  rw [State.identifyEffect, named]
  exact if_pos ringing

end

/-! ### O37 -/

theorem exec_energize_of_due {s : State} {n : Nat} {d : Desc} (due : Due s n 7 d) :
    exec (.energize n) s = .next ((onset s d).energizeEffect (onsetOf s d)) :=
  congrArg Host.Outcome.next (State.withEffect_of_due due (· == 7) rfl _)

theorem exec_identify_of_due {s : State} {n : Nat} {d : Desc} (due : Due s n 0xE d) :
    exec (.identify n) s = .next ((onset s d).identifyEffect (onsetOf s d)) :=
  congrArg Host.Outcome.next (State.withEffect_of_due due (· == 0xE) rfl _)

/-- Settles O37, by what the effect of either does in each of its cases. -/
theorem energizesAndIdentifies : Obligations.EnergizesAndIdentifies := by
  unfold Obligations.EnergizesAndIdentifies
  intro s n d x named
  refine ⟨fun due other => ?_, fun due hold without => ?_, fun due hold with_ => ?_, fun due coils => ?_, fun due ringing => ?_⟩
  all_goals
    obtain ⟨acc, bytes⟩ := onsetOf_operands due
    have axis : (onsetOf s d).axis? = some x := (Desc.axis?_congr bytes).trans named
    have frame := (onset_frame due).1
  · obtain ⟨t, begins, ax, frm⟩ := State.energizeEffect_ramps axis other
    refine completes_of_exec (exec_energize_of_due due) ?_
    rw [ax, frm, begins.phaseNext, begins.seq, begins.tt, begins.pdEn, begins.moves.frm, bytes]
    refine ⟨rfl, ?_, rfl, rfl, begins.moves.apart, frame⟩
    simp [State.energizeSeq, acc, frame, bytes]
  · have runs := exec_energize_of_due due
    obtain ⟨written, ph, pdEn⟩ := (onset s d).writePdEn_does x (u8 d.bytes 16)
    have stands : ((onset s d).writePdEn x (u8 d.bytes 16)).desc? (onsetOf s d).acc = some (onsetOf s d) := by
      rw [State.desc?, written.eqn, acc]
      exact (onset_does due).1
    obtain ⟨w, outcome⟩ := State.desc?_laterOk stands 0 0
    have effect : (onsetOf s d).stage = .effect := by
      obtain ⟨t, g, h, -, -, -, onsetOf_eq⟩ := onset_of_due due
      rw [onsetOf_eq]
      rfl
    rw [State.energizeEffect_done axis hold (bytes.symm ▸ without), bytes] at runs
    rw [acc] at outcome
    refine completes_of_exec runs ?_
    rw [outcome, State.laterOk_eqn, pdEn]
    exact ⟨by simp [effect], rfl, rfl, rfl⟩
  · have begins := (onset s d).writePdEn_begins x (u8 d.bytes 16) .identR
      { (onset s d).energizeSeq (onsetOf s d) x with
        fromHold := true, final := false, boot := false, theta := ((onset s d).ax.get x).elecAhead }
    have runs := exec_energize_of_due due
    rw [State.energizeEffect_identifies axis hold (bytes.symm ▸ with_), bytes] at runs
    refine completes_of_exec runs ⟨begins.phaseNext, ?_, begins.tt, begins.pdEn⟩
    rw [begins.seq]
    simp [State.energizeSeq, acc, frame]
  · have runs := exec_identify_of_due due
    rw [State.identifyEffect_identifies axis (bytes.symm ▸ coils), acc, bytes, frame] at runs
    refine completes_of_exec runs ?_
    rw [State.get_beginSeq]
    exact ⟨rfl, by simp, rfl, (State.beginSeq_moves ..).apart⟩
  · have runs := exec_identify_of_due due
    rw [State.identifyEffect_moves axis (bytes.symm ▸ ringing), acc, bytes] at runs
    obtain ⟨only, -, running, -, -, bypass, -⟩ := (onset s d).moveTo_does x ((onset s d).relBase x + s32 d.bytes 20)
      (((onset s d).ax.get x).act.limits (onset s d).hz) true (.ident n)
    generalize (onset s d).moveTo x ((onset s d).relBase x + s32 d.bytes 20)
      (((onset s d).ax.get x).act.limits (onset s d).hz) true (.ident n) = t at runs only running bypass
    refine completes_of_exec runs ?_
    rw [State.get_modTt_self]
    exact ⟨running, by simp, bypass, (only.trans (.modTt ..)).apart⟩

end Sys2Proof.Machine
end

section

namespace Sys2Proof.Machine

open Safety

/-! ### The steps of a sequence (R182, R187) -/

theorem State.get_nextStep (s : State) (x : AxisId) (q : SeqSt) (ph : Phase) : (s.nextStep x q ph).ax.get x =
    { s.ax.get x with cd := { (s.ax.get x).cd with
        phase := ph
        phaseNext := none
        phaseAt := q.start + BitVec.ofNat 64 (s.seqLen x (s.ax.get x).cd.phase)
        seq := some { q with start := q.start + BitVec.ofNat 64 (s.seqLen x (s.ax.get x).cd.phase) } } } := State.get_modCd_self ..

theorem State.nextStep_moves (s : State) (x : AxisId) (q : SeqSt) (ph : Phase) : AxisMoves x s (s.nextStep x q ph) := by
  unfold State.nextStep
  exact .modCd ..

/-- The length of a step is of the frame and of the card, not of the coils (R182). -/
theorem State.seqLen_modCd (s : State) (x : AxisId) (f : CdState → CdState) (ph : Phase) :
    (s.modCd x f).seqLen x ph = s.seqLen x ph := by
  have card : (s.modCd x f).cardOf x = s.cardOf x := by
    rw [State.cardOf, State.get_modCd_self]
    rfl
  cases ph with
  | energising =>
    show (s.modCd x f).stepFrames ((s.modCd x f).cardOf x).eramp = _
    rw [card]
    rfl
  | off | identR | identL | run | pdWait | pdRamp | holdLow => rfl

theorem State.stepOver_iff (s : State) (x : AxisId) (q : SeqSt) : s.stepOver x q = true ↔
    q.boot = false ∧ s.seqLen x (s.ax.get x).cd.phase ≤ framesFrom q.start s.frm.count := by simp [State.stepOver]

/-- A coil with the inductance that its sums give, where enough frames were kept (R188). -/
def Coil.withL (k : Coil) : Coil :=
  { k with lMeas := if k.cntL < 32 then none else some (clampInt 0 65535 (roundDiv k.sumL (k.cntL * 65536))).toNat }

section

variable {s : State} {x : AxisId} {q : SeqSt} (runs : (s.ax.get x).cd.seq = some q)
include runs

/-- Before the end of its step a sequence goes on as it is. -/
theorem exec_stepEnds_of_early (early : s.stepOver x q = false) :
    exec (.energisingRampEnd x) s = .next s ∧ exec (.identREnd x) s = .next s ∧ exec (.identLEnd x) s = .next s ∧
      exec (.energizeComplete x) s = .next s ∧ exec (.identifyComplete x) s = .next s := by
  refine ⟨?_, ?_, ?_, ?_, ?_⟩
  · show execEnergisingRampEnd x s = _
    simp [execEnergisingRampEnd, runs, early]
  · show execIdentREnd x s = _
    simp [execIdentREnd, runs, early]
  · show execIdentLEnd x s = _
    simp [execIdentLEnd, runs, early]
  · show execEnergizeComplete x s = _
    simp [execEnergizeComplete, runs, early]
  · show execIdentifyComplete x s = _
    simp [execIdentifyComplete, runs, early]

variable (elapsed : s.stepOver x q = true)
include elapsed

/-- The first ramp leads to the measurement of R, whose sums start anew (R187). -/
theorem exec_energisingRampEnd_of_elapsed (ramps : (s.ax.get x).cd.phase = .energising) (first : q.final = false) :
    exec (.energisingRampEnd x) s = .next ((s.nextStep x q .identR).modCd x fun c => c.both Coil.zeroSums) := by
  show execEnergisingRampEnd x s = _
  simp [execEnergisingRampEnd, runs, elapsed, ramps, first]

/-- The measurement of R leads on to that of L, where no coil is short or open (R187, R234). -/
theorem exec_identREnd_of_elapsed (measures : (s.ax.get x).cd.phase = .identR) (both : q.rOnly = false) {ra rb : Int}
    (fa : (s.ax.get x).cd.ca.rFormed = some ra) (fb : (s.ax.get x).cd.cb.rFormed = some rb)
    (a : 50 ≤ ra ∧ ra ≤ 60000) (b : 50 ≤ rb ∧ rb ≤ 60000) :
    exec (.identREnd x) s = .next ((s.modCd x fun c =>
      { c with ca := { c.ca with rMeas := some (rWord ra), lMeas := none }
               cb := { c.cb with rMeas := some (rWord rb), lMeas := none } }).nextStep x q .identL) := by
  show execIdentREnd x s = _
  simp [execIdentREnd, runs, elapsed, measures, both, State.formR_of_formed s fa, State.formR_of_formed s fb,
    State.openShort_of_between _ x (some q) a b]

/-- The measurement of L ends in the judgement of the result (R188, R189). -/
theorem exec_identLEnd_of_elapsed (measures : (s.ax.get x).cd.phase = .identL) :
    exec (.identLEnd x) s = .next ((s.modCd x fun c => c.both Coil.withL).judge x q) := by
  show execIdentLEnd x s = _
  simp only [execIdentLEnd, runs, elapsed, measures, and_self, if_true]
  rfl

/-- The last ramp of an ENERGIZE leads to HOLD, with an association where none is in force (R182, R300). -/
theorem exec_energizeComplete_of_elapsed (ramps : (s.ax.get x).cd.phase = .energising) (last : q.final = true) (own : q.identify = false) :
    exec (.energizeComplete x) s = .next (((s.enterHold x).associate x).coilDone q.desc 0 0 s.frm.count) := by
  show execEnergizeComplete x s = _
  simp [execEnergizeComplete, runs, elapsed, ramps, last, own]

/-- The last ramp of an IDENTIFY leads to HOLD, with what has been measured (R190). -/
theorem exec_identifyComplete_of_elapsed (ramps : (s.ax.get x).cd.phase = .energising) (last : q.final = true) (own : q.identify = true) :
    exec (.identifyComplete x) s = .next ((s.enterHold x).coilDone q.desc
      (wd ((s.ax.get x).cd.ca.rMeas.getD 0 + 65536 * (s.ax.get x).cd.cb.rMeas.getD 0))
      (if q.rOnly then 0 else wd ((s.ax.get x).cd.ca.lMeas.getD 0 + 65536 * (s.ax.get x).cd.cb.lMeas.getD 0)) s.frm.count) := by
  show execIdentifyComplete x s = _
  simp only [execIdentifyComplete, runs, elapsed, ramps, last, own, and_self, if_true]

end

/-! ### The judgement of an IDENTIFY (R189, R205) -/

/-- The word of a result is VALID. -/
theorem State.writeId_valid (s : State) (x : AxisId) {kind : Nat} (known : kind < 4) (outside : Bool) (ra rb la lb : Nat) :
    (s.writeId x kind outside ra rb la lb).rb (Adr.AX_ID_STAT x) 31 = true := by
  unfold State.writeId
  extract_lets n
  have number : n < 256 := Nat.mod_lt _ (by decide)
  have flag : b2n outside < 2 := by cases outside <;> decide
  rw [State.rb, State.reg_setReg_other _ _ (by simp only [Adr.AX_ID_STAT, Adr.AX_ID_L]; omega),
    State.reg_setReg_other _ _ (by simp only [Adr.AX_ID_STAT, Adr.AX_ID_R]; omega), State.reg_setReg_self,
    bitOf, wd, BitVec.getLsbD_ofNat, Nat.testBit_eq_decide_div_mod_eq]
  simp only [Nat.reduceLT, decide_true, Bool.true_and, decide_eq_true_eq]
  omega

theorem SeqSt.kind_lt (q : SeqSt) : q.kind < 4 := by
  unfold SeqSt.kind
  split
  · split <;> decide
  · decide

/-- An IDENTIFY goes on to its last ramp whatever it has measured, with its result in the registers (R189, R190). -/
theorem State.judge_of_identify (s : State) (x : AxisId) {q : SeqSt} (own : q.identify = true) : ∃ u : State,
    s.judge x q = u.finalRamp x q ∧ (u.ax.get x).cd.phase = (s.ax.get x).cd.phase ∧ u.rb (Adr.AX_ID_STAT x) 31 = true := by
  unfold State.judge
  extract_lets card c ra rb one formed taken refused
  split
  · refine ⟨_, rfl, ?_, State.writeId_valid _ x q.kind_lt ..⟩
    obtain ⟨w, h, axis⟩ := taken.get_rhatChanged x
    rw [State.writeId_ax, axis]
    unfold taken
    rw [State.get_modCd_self]
  · rw [if_pos own]
    refine ⟨_, rfl, ?_, State.writeId_valid _ x q.kind_lt ..⟩
    rw [State.writeId_ax, State.get_modCd_self]

/-- The last ramp begins where the step before ended (R182). -/
theorem State.finalRamp_does (s : State) (x : AxisId) (q : SeqSt) :
    ((s.finalRamp x q).ax.get x).cd.phase = .energising ∧ (s.finalRamp x q).regs = s.regs ∧
      ((s.finalRamp x q).ax.get x).cd.seq = some
        { q with final := true, gr := (s.factors x false).gr
                 start := q.start + BitVec.ofNat 64 (s.seqLen x (s.ax.get x).cd.phase) } := by
  unfold State.finalRamp
  rw [State.get_modCd_self, State.get_nextStep]
  exact ⟨rfl, rfl, rfl⟩

/-! ### The end in HOLD (R107, R184) -/

/-- An axis enters HOLD where it stands; nothing is in progress any more, where nothing takes effect in the next frame. -/
theorem State.enterHold_does (s : State) (x : AxisId) :
    ((s.enterHold x).ax.get x).tt.mode = .hold ∧ ((s.enterHold x).ax.get x).tt.u0 = (s.ax.get x).tt.u0 ∧
      ((s.enterHold x).ax.get x).cd.ca = (s.ax.get x).cd.ca ∧
      ((s.ax.get x).back = [] → (s.ax.get x).tt.modeNext = none → ((s.enterHold x).ax.get x).cd.seq = none) := by
  unfold State.enterHold
  rw [State.get_modAx_self]
  refine ⟨?_, ?_, rfl, fun alone stays => if_pos (Axis.runsOn_of_back alone stays)⟩
  all_goals
    dsimp only
    split <;> rfl

theorem State.get_associate (s : State) (x : AxisId) : ∃ f, (s.associate x).ax.get x = { s.ax.get x with fb := f } := by
  unfold State.associate
  extract_lets a
  split
  · exact ⟨_, rfl⟩
  · exact ⟨_, State.get_modFbx_self ..⟩

section

variable {β : Type} (p : Axis → β) (stores : ∀ a f, p { a with ahead := f } = p a)
include stores

/-- Of an axis only the store of a cam that stands at its head can move as another comes there (R167). -/
theorem State.camHead_proj (s : State) (x y : AxisId) : p ((s.camHead x).ax.get y) = p (s.ax.get y) := by
  have store (t : State) (f : Option FollowSt) : p ((t.modAx x fun a => { a with ahead := f }).ax.get y) = p (t.ax.get y) := by
    by_cases own : y = x
    · rw [own, State.get_modAx_self, stores]
    · rw [State.get_modAx_ne _ _ own]
  unfold State.camHead
  extract_lets ahead
  split
  · split
    · split
      · rfl
      · exact (store ..).trans (congrArg (fun v : Vector Axis 200 => p (v.get y)) (s.fillCam_ax _))
    · split
      · exact store ..
      · rfl
  · split
    · exact store ..
    · rfl

/-- The end of a descriptor moves no axis but by what stands at its head then (R83, R167). -/
theorem State.finish_proj (s : State) (d : Desc) (status : Nat) (d0 d1 : Word) (fr : FrameNo) (y : AxisId) :
    p ((s.finish d status d0 d1 fr).ax.get y) = p (s.ax.get y) := by
  unfold State.finish
  extract_lets s1 s2 s3
  have h1 : s1.ax = s.ax := by
    unfold s1
    split
    · rfl
    · exact State.ax_produce ..
  have h2 : s2.ax = s.ax := (State.ax_finishEvents ..).trans h1
  have h3 : s3.ax = s.ax := by
    unfold s3
    split
    · exact (State.ax_moveFeed ..).trans h2
    · exact h2
  rw [← h3]
  split
  · exact State.forAll_proj (fun t => p (t.ax.get y)) (fun t x => (State.camHead_proj p stores ..).trans (by rw [State.queueLow_ax])) s3
  · rfl

theorem State.coilDone_proj (s : State) (n : Nat) (d0 d1 : Word) (fr : FrameNo) (y : AxisId) :
    p ((s.coilDone n d0 d1 fr).ax.get y) = p (s.ax.get y) := by
  unfold State.coilDone State.finishOk
  split
  · split <;> exact State.finish_proj p stores ..
  · rfl

end

theorem State.tt_coilDone (s : State) (n : Nat) (d0 d1 : Word) (fr : FrameNo) (y : AxisId) :
    ((s.coilDone n d0 d1 fr).ax.get y).tt = (s.ax.get y).tt := State.coilDone_proj Axis.tt (fun _ _ => rfl) ..

theorem State.cd_coilDone (s : State) (n : Nat) (d0 d1 : Word) (fr : FrameNo) (y : AxisId) :
    ((s.coilDone n d0 d1 fr).ax.get y).cd = (s.ax.get y).cd := State.coilDone_proj Axis.cd (fun _ _ => rfl) ..

/-! ### O38 -/

/-- Settles O38, end of step by end of step. -/
theorem sequenceSteps : Obligations.SequenceSteps := by
  unfold Obligations.SequenceSteps
  intro s x q runs len
  have length : len = s.seqLen x (s.ax.get x).cd.phase := by
    unfold len
    cases (s.ax.get x).cd.phase <;> rfl
  rw [length]
  refine ⟨s.stepOver_iff x q, fun ramps first elapsed => ?_, fun ra rb measures elapsed both fa fb la ha lb hb => ?_,
    fun _ early => ?_, fun measures elapsed own => ?_, fun ramps last own elapsed => ?_,
    fun ramps last own elapsed => ?_, fun early => ?_⟩
  · refine completes_of_exec (exec_energisingRampEnd_of_elapsed runs elapsed ramps first) ?_
    have only := (s.nextStep_moves x q .identR).trans (.modCd _ x fun c => c.both Coil.zeroSums)
    rw [State.get_modCd_self, State.get_nextStep]
    exact ⟨rfl, by simp [CdState.both], rfl, only.apart, only.eqn⟩
  · refine completes_of_exec (exec_identREnd_of_elapsed runs elapsed measures both fa fb ⟨la, ha⟩ ⟨lb, hb⟩) ?_
    rw [State.get_nextStep, State.get_modCd_self, State.seqLen_modCd, rWord_of_between ⟨la, ha⟩, rWord_of_between ⟨lb, hb⟩]
    exact ⟨rfl, rfl, rfl, rfl, by simp⟩
  · obtain ⟨-, -, inductance, -, -⟩ := exec_stepEnds_of_early runs early
    exact inductance
  · obtain ⟨u, judged, phase, valid⟩ := (s.modCd x fun c => c.both Coil.withL).judge_of_identify x own
    obtain ⟨ramps, regs, seq⟩ := u.finalRamp_does x q
    have frame : (u.finalRamp x q).frm = s.frm := by
      rw [← judged]
      exact (within_judge (.refl false _) x q).frm
    rw [State.get_modCd_self] at phase
    have ends := exec_identLEnd_of_elapsed runs elapsed measures
    rw [judged] at ends
    refine completes_of_exec ends ⟨ramps, ?_, ?_, frame⟩
    · rw [State.rb, State.reg_of_regs regs]
      exact valid
    · rw [seq, phase]
      simp [CdState.both, measures, State.seqLen]
  · obtain ⟨mode, u0, -, free⟩ := s.enterHold_does x
    obtain ⟨f, associates⟩ := (s.enterHold x).get_associate x
    refine completes_of_exec (exec_energizeComplete_of_elapsed runs elapsed ramps last own) ?_
    rw [State.tt_coilDone, State.cd_coilDone, associates]
    exact ⟨mode, free, u0, (within_coilDone (within_associate (within_enterHold (.refl true s) x) x) ..).frm⟩
  · obtain ⟨mode, -, ca, free⟩ := s.enterHold_does x
    refine completes_of_exec (exec_identifyComplete_of_elapsed runs elapsed ramps last own) ?_
    rw [State.tt_coilDone, State.cd_coilDone]
    exact ⟨mode, free, congrArg Coil.rMeas ca, (within_coilDone (within_enterHold (.refl true s) x) ..).frm⟩
  · obtain ⟨ramp, resistance, -, energize, identify⟩ := exec_stepEnds_of_early runs early
    exact ⟨ramp, resistance, energize, identify⟩

end Sys2Proof.Machine
end

section
/-! SUPPORT. The obligations of the light bridges: direct mode, commits and releases, the trips of the coil windows, safe torque off, and the
faults of a bridge, with the rules about the operations that they speak of. -/

namespace Sys2Proof.Machine

open Safety

/-! ### Writes that act (R394, R396) -/

theorem State.noted_cu (s : State) (m : Master) (a : Nat) : (s.noted m a).cu = s.cu := by rw [State.noted_eqn]

/-- A write that reaches its bits is counted, and acts. -/
theorem State.gate_of_reach {s : State} {m : Master} {a k : Nat} (h : Acts s m a k) : s.gate m a k = (s.noted m a, true) := by
  unfold State.gate State.noted
  rw [if_pos h.1, if_pos h.1, h.2]

/-- What reaches a privileged bit has admin rights. -/
theorem admin_of_acts {s : State} {m : Master} {a k : Nat} (h : Acts s m a k) (prv : prvOf a &&& k ≠ 0) : m.admin = true := by
  have reach := h.2
  simp only [State.reaches, Bool.and_eq_true, Bool.or_eq_true, beq_iff_eq] at reach
  exact reach.2.resolve_right prv

/-! ### Direct mode (R217, R242, R330) -/

theorem prvOf_brCfg (x : AxisId) : prvOf (Adr.AX_BR_CFG x) = 1 := by revert x; decide +kernel

/-- A write that reaches SRC is an admin master's, which is not counted. -/
theorem State.gate_brCfg {s : State} {m : Master} {x : AxisId} (h : Acts s m (Adr.AX_BR_CFG x) 1) :
    s.gate m (Adr.AX_BR_CFG x) 1 = (s, true) := by
  rw [State.gate_of_reach h, State.noted_admin s (admin_of_acts h (by rw [prvOf_brCfg]; decide))]

/-- The state with SRC of an axis written. -/
def State.srcStored (s : State) (x : AxisId) (v : Word) : State := (s.setReg (Adr.AX_BR_CFG x) v).rewritten (Adr.AX_BR_CFG x)

/-- SRC alone makes a light axis direct. -/
theorem State.direct_of_reg {s : State} {x : AxisId} {v : Word} (light : heavy x = false) (h : s.reg (Adr.AX_BR_CFG x) = v) :
    s.direct x = bitOf v 0 := by
  rw [State.direct, light, State.rb, h]; rfl

theorem State.reg_srcStored (s : State) (x : AxisId) (v : Word) : (s.srcStored x v).reg (Adr.AX_BR_CFG x) = v := State.reg_setReg_self ..

/-- CFG_IGNORED of an axis moves its own register alone. -/
theorem State.brIgnored_does (s : State) (x : AxisId) :
    (s.orReg (Adr.AX_BR_STAT x) (2 ^ 18)).rb (Adr.AX_BR_STAT x) 18 = true ∧ (s.orReg (Adr.AX_BR_STAT x) (2 ^ 18)).ax = s.ax ∧
      (s.orReg (Adr.AX_BR_STAT x) (2 ^ 18)).reg (Adr.AX_BR_CFG x) = s.reg (Adr.AX_BR_CFG x) :=
  ⟨State.rb_orReg_self s _ (k := 18) (by decide), rfl,
    State.reg_setReg_other _ _ (by simp only [Adr.AX_BR_STAT, Adr.AX_BR_CFG]; omega)⟩

/-! #### The parity of a register takes no part in a pool's check (R329, R408) -/

theorem State.grantOf_rewritten (s : State) (a : Nat) (x : AxisId) (gr gh : Nat) : (s.rewritten a).grantOf x gr gh = s.grantOf x gr gh := rfl

theorem State.poolSum_rewritten (s : State) (a : Nat) (p : DomainId) (gr gh : Nat) : (s.rewritten a).poolSum p gr gh = s.poolSum p gr gh := by
  simp only [State.poolSum, State.grantOf_rewritten]

theorem State.poolGrant_rewritten (s : State) (a : Nat) (p : DomainId) : (s.rewritten a).poolGrant p = s.poolGrant p :=
  State.poolSum_rewritten s a p (s.pool.get p).gr (s.pool.get p).gh

theorem State.modGrant_rewritten (s : State) (a : Nat) : (s.rewritten a).modGrant = s.modGrant := by
  simp only [State.modGrant, State.poolGrant_rewritten]

theorem State.poolOk_rewritten (s : State) (a : Nat) (p : DomainId) (gr gh : Nat) : (s.rewritten a).poolOk p gr gh = s.poolOk p gr gh := by
  have pools : (s.rewritten a).poolAllow p = s.poolAllow p := rfl
  have total : (s.rewritten a).modAllow = s.modAllow := rfl
  rw [State.poolOk, State.poolOk, State.poolSum_rewritten, State.modGrant_rewritten, State.poolGrant_rewritten, pools, total]

section

variable {s : State} {m : Master} {x : AxisId} {w : Word} (acts : Acts s m (Adr.AX_BR_CFG x) 1)
include acts

/-- A heavy axis, or one that is not parked, ignores the write. -/
theorem exec_brSrcWrite_ignored (other : heavy x = true ∨ (s.ax.get x).isParked = false) :
    exec (.brSrcWrite m x w) s = .next (s.orReg (Adr.AX_BR_STAT x) (2 ^ 18)) := by
  show Host.Outcome.next (s.brSrcWrite m x w) = _
  unfold State.brSrcWrite
  rw [State.gate_brCfg acts]
  exact congrArg _ ((if_neg (by simp)).trans (if_pos (by simpa using other)))

variable (light : heavy x = false) (parked : (s.ax.get x).isParked = true)
include light parked

/-- A write that reaches a parked light axis, by what it asks for. -/
theorem State.brSrcWrite_eq : s.brSrcWrite m x w =
    let u := s.srcStored x (w &&& 1)
    let p := s.pool.get (domOf x)
    if bitOf w 0 = true ∧ ¬ s.direct x = true ∧ ¬ u.poolOk (domOf x) p.gr p.gh = true then s.orReg (Adr.AX_BR_STAT x) (2 ^ 18)
    else if bitOf w 0 = true ∧ ¬ s.direct x = true then u.modBr x fun b => { b with code := 0, tail := false }
    else if ¬ bitOf w 0 = true ∧ s.direct x = true then u.modBr x fun b => { b with tail := true }
    else u := by
  unfold State.brSrcWrite
  rw [State.gate_brCfg acts]
  exact (if_neg (by simp)).trans (if_neg (by simp [light, parked]))

/-- Direct mode given back: the legs keep the active set until the next valley. -/
theorem exec_brSrcWrite_ends (off : bitOf w 0 = false) (was : s.direct x = true) :
    exec (.brSrcWrite m x w) s = .next ((s.srcStored x (w &&& 1)).modBr x fun b => { b with tail := true }) := by
  refine congrArg Host.Outcome.next ((State.brSrcWrite_eq acts light parked).trans ?_)
  simp [off, was]

/-- Direct mode taken where the pool has room; the room is that of the state with SRC set. -/
theorem exec_brSrcWrite_starts (on : bitOf w 0 = true) (was : s.direct x = false) : exec (.brSrcWrite m x w) s = .next (
    if (s.setReg (Adr.AX_BR_CFG x) 1#32).poolOk (domOf x) (s.pool.get (domOf x)).gr (s.pool.get (domOf x)).gh = true then
      (s.srcStored x 1#32).modBr x fun b => { b with code := 0, tail := false }
    else s.orReg (Adr.AX_BR_STAT x) (2 ^ 18)) := by
  have set : w &&& 1 = 1#32 := by
    refine BitVec.eq_of_getLsbD_eq fun i hi => ?_
    rw [BitVec.getLsbD_and]
    cases i with
    | zero => rw [show w.getLsbD 0 = true from on]; rfl
    | succ i => simp [BitVec.getLsbD_one]
  refine congrArg Host.Outcome.next ((State.brSrcWrite_eq acts light parked).trans ?_)
  dsimp only
  rw [set, State.srcStored, State.poolOk_rewritten, ← State.srcStored]
  by_cases room : (s.setReg (Adr.AX_BR_CFG x) 1#32).poolOk (domOf x) (s.pool.get (domOf x)).gr (s.pool.get (domOf x)).gh = true
  · rw [if_neg (by simp [room]), if_pos (by simp [on, was]), if_pos room]
  · rw [if_pos (by simp [on, was, room]), if_neg room]

end

/-! ### Commits and releases of latches (R218, R224, R260) -/

/-- A word with the bit of one slot names that slot. -/
theorem slots_of_one (j : Fin 8) : ((allFin 8).filter fun i : Fin 8 => bitOf (wd (2 ^ j.val)) i.val) = [j] := by
  revert j; decide

/-- A commit of one slot waits for the next load in direct mode, and is ignored elsewhere. -/
theorem exec_bayCommitWrite_one {s : State} {m : Master} {b : BayId} (acts : Acts s m (Adr.BAY_COMMIT b) 0xFF) (j : Fin 8) :
    exec (.bayCommitWrite m b (wd (2 ^ j.val))) s = .next (
      if s.direct (axisAt (bayUnit b) j) = true then
        (s.noted m (Adr.BAY_COMMIT b)).modCu (bayUnit b) fun c => { c with commit := c.commit ||| BitVec.ofNat 8 (2 ^ j.val) }
      else (s.noted m (Adr.BAY_COMMIT b)).orReg (Adr.BAY_BR_STAT b) 4) := by
  have direct : (s.noted m (Adr.BAY_COMMIT b)).direct (axisAt (bayUnit b) j) = s.direct (axisAt (bayUnit b) j) := by
    have apart (a : Nat) (low : 0x80000 ≤ a) : (s.noted m (Adr.BAY_COMMIT b)).reg a = s.reg a :=
      State.reg_noted_other s m _ (by simp only [Adr.ACC_PRVV_INFO]; omega) (by simp only [Adr.ACC_PRVV_ADDR]; omega)
    rw [State.direct, State.rb, apart _ (by simp only [Adr.AX_BR_CFG]; omega), State.direct, State.rb]
  show Host.Outcome.next (s.bayCommitWrite m b _) = _
  unfold State.bayCommitWrite
  rw [State.gate_of_reach acts, slots_of_one, ← direct]
  rfl

theorem exec_legLatchRelease {s : State} {m : Master} {u : CarrierId} (acts : Acts s m (latchAdr u) 0xFFFFFFFF) (w : Word) :
    exec (.legLatchRelease m u w) s =
      .next ((s.noted m (latchAdr u)).modCu u fun c => { c with relPend := c.relPend ||| (c.latch &&& w) }) := by
  show Host.Outcome.next (s.latchWrite m u w) = _
  unfold State.latchWrite
  rw [State.gate_of_reach acts]
  rfl

/-- Settles O41, by what each of the three writes does where it acts. -/
theorem bridgeSources : Obligations.BridgeSources := by
  unfold Obligations.BridgeSources
  intro s m x w
  refine ⟨fun acts other => ?_, fun acts light parked off was => ?_, fun acts light parked on was => ⟨fun room => ?_, fun full => ?_⟩,
    fun b j acts one => ⟨fun direct => ?_, fun engine => ?_⟩, fun u acts => ?_⟩
  · exact completes_of_exec (exec_brSrcWrite_ignored acts other) (s.brIgnored_does x)
  · refine completes_of_exec (exec_brSrcWrite_ends acts light parked off was) ⟨?_, ?_, fun y ne => State.get_modAx_ne _ _ ne⟩
    · refine (State.direct_of_reg light (s.reg_srcStored x (w &&& 1))).trans ?_
      simpa [bitOf] using off
    · rw [State.get_modBr_self]
  · refine completes_of_exec (exec_brSrcWrite_starts acts light parked on was) ?_
    rw [if_pos room]
    refine ⟨State.direct_of_reg light (s.reg_srcStored x 1#32), ?_, ?_, fun y ne => State.get_modAx_ne _ _ ne⟩ <;>
      rw [State.get_modBr_self]
  · obtain ⟨ignored, ax, src⟩ := s.brIgnored_does x
    refine completes_of_exec (exec_brSrcWrite_starts acts light parked on was) ?_
    rw [if_neg (by simp [full])]
    refine ⟨?_, ax, ignored⟩
    rw [State.direct_of_reg light src, ← State.direct_of_reg light rfl]
    exact was
  · subst one
    refine completes_of_exec (exec_bayCommitWrite_one acts j) ?_
    rw [if_pos direct, State.cu_modCu_self, State.noted_cu]
    exact ⟨rfl, s.noted_ax m _⟩
  · subst one
    refine completes_of_exec (exec_bayCommitWrite_one acts j) ?_
    rw [if_neg (by simp [engine])]
    exact ⟨State.rb_orReg_self _ _ (k := 2) (by decide), s.noted_cu m _⟩
  · refine completes_of_exec (exec_legLatchRelease acts w) ?_
    rw [State.cu_modCu_self, State.noted_cu]
    exact ⟨rfl, rfl, fun v ne => by rw [State.cu_modCu_ne _ _ ne, State.noted_cu]⟩

end Sys2Proof.Machine
end

section

namespace Sys2Proof.Machine

open Safety

/-! ### Window trips (R220 to R222) -/

/-- A register above those of events tells of none (R409). -/
theorem evReg_of_above {a : Nat} (above : 0x30200 ≤ a) : evReg a = false := by
  simp only [evReg, Adr.EVT_PEND_LO, Adr.EVT_PEND_HI, Bool.or_eq_false_iff, beq_eq_false_iff_ne, Bool.and_eq_false_iff,
    decide_eq_false_iff_not]
  omega

theorem slotOf_axisAt (u : CarrierId) (j : HeavyId) : slotOf (axisAt u j) = j := by
  have bay : 8 * u.val + j.val < 192 ↔ u.val < 24 := by omega
  refine Fin.ext ?_
  by_cases h : u.val < 24
  · simp only [slotOf, axisAt, bay, h, if_true]; omega
  · simp only [slotOf, axisAt, bay, h, if_false]; omega

/-- The state with one side of a coil's window registered (R316). -/
def State.sided (s : State) (u : CarrierId) (c : Fin 16) (hi : Bool) : State :=
  (s.modCu u fun q =>
    if hi then { q with cmpHi := q.cmpHi ||| BitVec.ofNat 16 (2 ^ c.val) } else { q with cmpLo := q.cmpLo ||| BitVec.ofNat 16 (2 ^ c.val) }).orReg
    (if u.val < 24 then Adr.BAY_WSIDE u else Adr.CMP_HWSIDE) (2 ^ (c.val + if hi then 16 else 0))

/-- Is a side of a coil's window tripped in a unit? -/
def CUnit.sideSet (q : CUnit) (c : Fin 16) (hi : Bool) : Bool := (if hi then q.cmpHi else q.cmpLo).getLsbD c

/-- A comparator that is out or blanked, or has registered already, does nothing. -/
theorem exec_coilWindowTrip_idle {s : State} {u : CarrierId} {c : Fin 16} {hi : Bool} {trip : TripIn}
    (idle : s.sys.powered = false ∨ s.cmpOut (coilCmp u c) = true ∨
      s.blanked (coilOf u c).1 (coilOf u c).2 (s.halfClock u trip.clk) (trip.edges.map s.edgeNow) = true ∨
      (s.cu.get u).sideSet c hi = true) : exec (.coilWindowTrip u c hi trip) s = .next s := by
  refine congrArg Host.Outcome.next ?_
  by_cases out : ¬ s.sys.powered = true ∨ s.cmpOut (coilCmp u c) = true ∨
      s.blanked (coilOf u c).1 (coilOf u c).2 (s.halfClock u trip.clk) (trip.edges.map s.edgeNow) = true
  · exact if_pos out
  · have side : (s.cu.get u).sideSet c hi = true := by
      simp only [Bool.not_eq_true] at out
      tauto
    refine (if_neg out).trans ?_
    rw [show s.coilSide u c hi = none from if_pos side]

/-- A comparator that registers. -/
theorem exec_coilWindowTrip_registers {s : State} {u : CarrierId} {c : Fin 16} {hi : Bool} {trip : TripIn} (on : s.sys.powered = true)
    (there : s.cmpOut (coilCmp u c) = false)
    (seen : s.blanked (coilOf u c).1 (coilOf u c).2 (s.halfClock u trip.clk) (trip.edges.map s.edgeNow) = false)
    (clear : (s.cu.get u).sideSet c hi = false) : exec (.coilWindowTrip u c hi trip) s =
      .next ((s.sided u c hi).coilTrip u c (s.halfClock u trip.clk) (wd trip.clk) trip.same) := by
  refine congrArg Host.Outcome.next ((if_neg (by simp [on, there, seen])).trans ?_)
  have side : ¬ (s.cu.get u).sideSet c hi = true := by rw [clear]; decide
  rw [show s.coilSide u c hi = some (s.sided u c hi) from if_neg side]

theorem State.sided_does (s : State) (u : CarrierId) (c : Fin 16) (hi : Bool) :
    ((s.sided u c hi).cu.get u).sideSet c hi = true ∧ ((s.sided u c hi).cu.get u).tripped = (s.cu.get u).tripped ∧
      ((s.sided u c hi).cu.get u).trips = (s.cu.get u).trips ∧ (s.sided u c hi).ax = s.ax ∧ (s.sided u c hi).frm = s.frm := by
  have set (w : BitVec 16) : (w ||| BitVec.ofNat 16 (2 ^ c.val)).getLsbD c = true := by rw [getLsbD_or_two_pow]; simp
  unfold State.sided
  rw [State.orReg_cu, State.cu_modCu_self]
  cases hi
  · exact ⟨set (s.cu.get u).cmpLo, rfl, rfl, rfl, rfl⟩
  · exact ⟨set (s.cu.get u).cmpHi, rfl, rfl, rfl, rfl⟩

/-- The state with the bay's sticky bit of a coil set (R222). -/
def State.stuck (s : State) (u : CarrierId) (c : Fin 16) : State :=
  if u.val < 24 then s.orReg (Adr.BAY_TRIP_STICKY u) (2 ^ c.val) else s

theorem State.stuck_eqn (s : State) (u : CarrierId) (c : Fin 16) : s.stuck u c = { s with regs := (s.stuck u c).regs } := by
  unfold State.stuck
  split <;> rfl

theorem State.stuck_sticky (s : State) {u : CarrierId} (c : Fin 16) (bay : u.val < 24) :
    ((s.stuck u c).reg (Adr.BAY_TRIP_STICKY u)).getLsbD c = true := by
  rw [State.stuck, if_pos bay]
  exact State.rb_orReg_self s _ (k := c.val) (by omega)

/-- The counting of a trip and the latching of legs move, of the units, what is latched and counted and what is kept for the detections of
one clock (R220, R222, R259); beside the units, what `Within` allows. -/
structure TripMoves (s t : State) : Prop where
  within : Within true { s with cu := t.cu } t
  unit : ∀ v : CarrierId, ∃ l n b g, t.cu.get v = { s.cu.get v with latch := l, trips := n, tripSeen := b, highs0 := g }

theorem TripMoves.refl (s : State) : TripMoves s s := ⟨.refl true s, fun _ => ⟨_, _, _, _, rfl⟩⟩

theorem TripMoves.trans {s t u : State} (h : TripMoves s t) (k : TripMoves t u) : TripMoves s u where
  within :=
    { eqn := by rw [k.within.eqn, h.within.eqn]
      link := ⟨k.within.link.1.trans h.within.link.1, k.within.link.2.1.trans h.within.link.2.1, k.within.link.2.2.trans h.within.link.2.2⟩
      next := fun e => (k.within.next e).trans (h.within.next e)
      reg := fun e a n => (k.within.reg e a n).trans (h.within.reg e a n)
      lo := fun e i w => k.within.lo e i (h.within.lo e i w)
      hi := fun e i w => k.within.hi e i (h.within.hi e i w) }
  unit v := by
    obtain ⟨l, n, b, g, eq⟩ := h.unit v
    obtain ⟨l', n', b', g', eq'⟩ := k.unit v
    exact ⟨l', n', b', g', by rw [eq', eq]⟩

theorem Within.tripMoves {s t : State} (h : Within true s t) : TripMoves s t where
  within := by
    have same : ({ s with cu := t.cu } : State) = s := by rw [h.cu]
    rw [same]; exact h
  unit v := ⟨_, _, _, _, by rw [h.cu]⟩

theorem TripMoves.modCu (s : State) (u : CarrierId) {f : CUnit → CUnit}
    (hf : ∃ l n b g, f (s.cu.get u) = { s.cu.get u with latch := l, trips := n, tripSeen := b, highs0 := g }) : TripMoves s (s.modCu u f) where
  within := Within.same rfl
  unit v := by
    by_cases e : v = u
    · subst e; rwa [State.cu_modCu_self]
    · exact ⟨_, _, _, _, State.cu_modCu_ne s f e⟩

theorem TripMoves.forAll {α : Type} {l : List α} {f : State → α → State} (h : ∀ t a, TripMoves t (f t a)) (s : State) :
    TripMoves s (s.forAll l f) :=
  State.forAll_keeps (TripMoves s) (fun t a k => k.trans (h t a)) (.refl s)

theorem TripMoves.frm {s t : State} (h : TripMoves s t) : t.frm = s.frm := by rw [h.within.eqn]

theorem TripMoves.reg {s t : State} (h : TripMoves s t) {a : Nat} (n : evReg a = false) : t.reg a = s.reg a := h.within.reg rfl a n

theorem State.raise_tripMoves (s : State) (e u : Nat) (d0 d1 : Word) : TripMoves s (s.raise e u d0 d1) := (within_raise (.refl true s) ..).tripMoves

theorem State.keepHighs_moves (s : State) (same : Bool) (x : AxisId) : TripMoves s (s.keepHighs same x) := by
  refine .modCu s _ ?_
  by_cases kept : ((if same then (s.cu.get (unitOf x)).highs0 else []).any fun e => e.1 == x) = true
  · exact ⟨_, _, _, _, if_pos kept⟩
  · exact ⟨_, _, _, _, if_neg kept⟩

theorem State.latchLegs_moves (s : State) (x : AxisId) (legs : List Nat) : TripMoves s (s.latchLegs x legs) := .modCu s _ ⟨_, _, _, _, rfl⟩

theorem State.countTrip_moves (s : State) (u : CarrierId) (x : AxisId) (i : Nat) (clk : Word) : TripMoves s (s.countTrip u x i clk) := by
  unfold State.countTrip
  extract_lets l c s1
  have counted : TripMoves s s1 := .modCu s u ⟨_, _, _, _, rfl⟩
  split
  · exact (counted.trans (State.raise_tripMoves ..)).trans (.modCu _ u ⟨_, _, _, _, rfl⟩)
  · exact counted

theorem State.tripLatch_moves (s : State) (u : CarrierId) (x : AxisId) (legs : List Nat) : TripMoves s (s.tripLatch u x legs) := by
  have faulted (hit : List Nat) (e : Nat) : TripMoves s ((s.latchLegs x hit).bridgeFaulted x e) :=
    (State.latchLegs_moves ..).trans (within_bridgeFaulted (.refl true _) ..).tripMoves
  unfold State.tripLatch
  dsimp only
  split
  · exact .refl s
  · split
    · exact (faulted ..).trans (State.raise_tripMoves ..)
    · exact (faulted ..).trans (.forAll (fun _ _ => State.raise_tripMoves ..) _)

/-- A unit in which coil `c` trips, its cut from clock `t` on (R220). -/
def CUnit.coilTripped (q : CUnit) (n : Nat) (c : Fin 16) (t : Nat) : CUnit :=
  { q.cutFrom n c t with
    tripped := q.tripped ||| BitVec.ofNat 16 (2 ^ c.val), held := q.held ||| BitVec.ofNat 32 (3 * 4 ^ c.val) }

/-- The cut moves nothing of a unit but the cuts. -/
theorem CUnit.sideSet_coilTripped (q : CUnit) (n : Nat) (c : Fin 16) (t : Nat) (hi : Bool) :
    (q.coilTripped n c t).sideSet c hi = q.sideSet c hi := by
  unfold CUnit.coilTripped CUnit.cutFrom
  split <;> rfl

/-- A coil that has tripped in the half period is not counted again. -/
theorem State.coilTrip_again {s : State} {u : CarrierId} {c : Fin 16} (again : (s.cu.get u).tripped.getLsbD c = true) (t : Nat) (clk : Word)
    (same : Bool) : s.coilTrip u c t clk same = s.stuck u c := if_pos again

/-- The first trip of a coil in its half period: its cut, and then what is counted and latched. -/
theorem State.coilTrip_first {s : State} {u : CarrierId} {c : Fin 16} (first : (s.cu.get u).tripped.getLsbD c = false) (t : Nat) (clk : Word)
    (same : Bool) : TripMoves (((s.stuck u c).keepHighs same (coilOf u c).1).modCu u fun q => q.coilTripped s.nClk c (t + 2))
      (s.coilTrip u c t clk same) := by
  unfold State.coilTrip
  dsimp only
  rw [if_neg (by rw [first]; decide)]
  exact (TripMoves.forAll (fun _ _ => State.countTrip_moves ..) _).trans (State.tripLatch_moves ..)

/-- The bits of a coil's two legs in the word of what is held. -/
theorem heldBits (c : Fin 16) : ∀ i ∈ coilLegs (c.val % 2 == 1), (BitVec.ofNat 32 (3 * 4 ^ c.val)).getLsbD (4 * (c.val / 2) + i) = true := by
  revert c; decide

/-- The legs of a coil that trips are held off. -/
theorem CUnit.legBit_coilTripped (q : CUnit) (n : Nat) (u : CarrierId) (c : Fin 16) (t : Nat) : ∀ i ∈ coilLegs (coilOf u c).2,
    legBit (q.coilTripped n c t).held (slotOf (coilOf u c).1).val i = true := by
  intro i leg
  have bit := heldBits c i leg
  rw [legBit, coilOf, slotOf_axisAt, CUnit.coilTripped, BitVec.getLsbD_or]
  simp [bit]

/-- What the first trip of a coil in its half period does. -/
theorem State.coilTrip_first_does {s : State} {u : CarrierId} {c : Fin 16} (first : (s.cu.get u).tripped.getLsbD c = false) (t : Nat)
    (clk : Word) (same hi : Bool) :
    let v := s.coilTrip u c t clk same
    ((s.cu.get u).sideSet c hi = true → (v.cu.get u).sideSet c hi = true) ∧ (v.cu.get u).tripped.getLsbD c = true ∧
      (u.val < 24 → (v.reg (Adr.BAY_TRIP_STICKY u)).getLsbD c = true) ∧ v.frm = s.frm ∧
      ∀ i ∈ coilLegs (coilOf u c).2, legBit (v.cu.get u).held (slotOf (coilOf u c).1).val i = true := by
  intro v
  have moves : TripMoves _ v := State.coilTrip_first first t clk same
  have kept : TripMoves (s.stuck u c) ((s.stuck u c).keepHighs same (coilOf u c).1) := State.keepHighs_moves ..
  generalize (s.stuck u c).keepHighs same (coilOf u c).1 = w at moves kept
  obtain ⟨l, n, b, g, old⟩ := kept.unit u
  obtain ⟨l', n', b', g', new⟩ := moves.unit u
  rw [State.cu_modCu_self] at new
  have unit : (s.stuck u c).cu.get u = s.cu.get u := by rw [State.stuck_eqn]
  have frame : (s.stuck u c).frm = s.frm := by rw [State.stuck_eqn]
  have sides : (v.cu.get u).sideSet c hi = (s.cu.get u).sideSet c hi := by
    rw [new]
    refine (CUnit.sideSet_coilTripped (w.cu.get u) s.nClk c (t + 2) hi).trans ?_
    rw [old, unit]; rfl
  refine ⟨fun set => sides.trans set, ?_, fun bay => ?_, moves.frm.trans (kept.frm.trans frame), ?_⟩
  · rw [new]
    show ((w.cu.get u).tripped ||| BitVec.ofNat 16 (2 ^ c.val)).getLsbD c = true
    rw [getLsbD_or_two_pow]; simp
  · have apart : evReg (Adr.BAY_TRIP_STICKY u) = false := evReg_of_above (by simp only [Adr.BAY_TRIP_STICKY]; omega)
    rw [moves.reg apart, State.reg_of_regs (State.modCu_regs ..), kept.reg apart]
    exact s.stuck_sticky c bay
  · rw [new]
    exact (w.cu.get u).legBit_coilTripped s.nClk u c (t + 2)

/-- Settles O42, by whether the coil has tripped in the half period already. -/
theorem windowTrips : Obligations.WindowTrips := by
  unfold Obligations.WindowTrips
  refine fun s u c hi k edges same => ⟨exec_coilWindowTrip_idle (trip := ⟨k, edges, same⟩), fun on there seen clear => ?_⟩
  refine completes_of_exec (exec_coilWindowTrip_registers (trip := ⟨k, edges, same⟩) on there seen clear) ?_
  obtain ⟨side, tripped, trips, ax, frame⟩ := s.sided_does u c hi
  generalize s.sided u c hi = v at side tripped trips ax frame
  rw [← tripped, ← trips, ← ax, ← frame]
  cases first : (v.cu.get u).tripped.getLsbD c with
  | true =>
    have eqn := v.stuck_eqn u c
    have sticky := v.stuck_sticky (u := u) c
    rw [State.coilTrip_again first]
    generalize v.stuck u c = t at eqn sticky
    have unit : t.cu = v.cu := by rw [eqn]
    rw [unit]
    exact ⟨side, first, sticky, by rw [eqn], nofun, fun _ => ⟨rfl, by rw [eqn]⟩⟩
  | false =>
    obtain ⟨sides, trip, sticky, same_frame, held⟩ := State.coilTrip_first_does first (s.halfClock u k) (wd k) same hi
    exact ⟨sides side, trip, sticky, same_frame, fun _ => held, nofun⟩

end Sys2Proof.Machine
end

section

namespace Sys2Proof.Machine

open Safety

/-! ### STO_DISCREPANCY and DISC_T (R232) -/

section

variable {a rw prv hi lo : Nat} (row : rights a = some (rw, prv, 0)) (full : ∀ i < hi + 1 - lo, (wd rw).getLsbD (lo + i) = true)
  (top : hi < 32)
include full top

/-- A field that is written whole is taken from the word written. -/
theorem fld_mergeW_full (v w : Word) : fld (mergeW v w rw) hi lo = fld w hi lo :=
  fld_congr fun i hi => by rw [getLsbD_mergeW _ _ _ (by omega), if_pos (full i hi)]

include row

/-- A plain write by an admin master stores a field as the register normalises it (R393, R396). -/
theorem State.rf_plainWrite_admin {s : State} {m : Master} (w : Word) (on : s.sys.powered = true) (adm : m.admin = true) :
    (s.plainWrite m a w).rf a hi lo = fld (normalise a (mergeW (s.reg a) w rw)) hi lo := by
  obtain ⟨r, found, same⟩ := Option.map_eq_some_iff.1 row
  obtain ⟨rfl, -, clears⟩ : r.rw = rw ∧ r.prv = prv ∧ r.w1c = 0 := by simpa using same
  have kept (v : Word) : v &&& ~~~(w &&& wd 0) = v := by
    rw [show wd 0 = 0#32 from rfl, BitVec.and_zero]
    exact BitVec.and_allOnes
  simp only [State.plainWrite, on, if_true, State.notePrv_admin s adm, State.mayWrite_admin s adm, State.storeWord, found, adm, clears, kept]
  show fld ((s.setReg a _).reg a) hi lo = _
  rw [State.reg_setReg_self]
  exact fld_mergeW_full full top ..

end

theorem rights_sto : rights Adr.GCTL_STO = some (bits 23 8, bits 23 8, 0) := by decide +kernel

theorem discBits : ∀ i < 23 + 1 - 8, (wd (bits 23 8)).getLsbD (8 + i) = true := by decide +kernel

/-- DISC_T is held to its range as it is stored. -/
theorem fld_normalise_sto (w : Word) : fld (normalise Adr.GCTL_STO w) 23 8 = clampNat 1 65535 (fld w 23 8) := by
  have small : clampNat 1 65535 (fld w 23 8) ≤ 65535 := by simp only [clampNat]; omega
  have held : fld (wd (clampNat 1 65535 (fld w 23 8) * 2 ^ 8)) 23 8 = clampNat 1 65535 (fld w 23 8) := by
    simp only [fld, wd, BitVec.toNat_ofNat] at small ⊢
    omega
  have norm : normalise Adr.GCTL_STO w = holdFld w 23 8 1 65535 := rfl
  rw [norm, holdFld, putFld, fld_mergeW_full discBits (by decide), held]

/-- GCTL_STO has no rule of its own for writes (R393). -/
theorem exec_registerWrite_sto (s : State) (m : Master) (w : Word) (on : s.sys.powered = true) :
    exec (.registerWrite m Adr.GCTL_STO 15 w) s = .next (s.plainWrite m Adr.GCTL_STO w) := by
  have goes : s.writeReg m Adr.GCTL_STO w = s.writeFrm m Adr.GCTL_STO w := if_neg (by simp [on])
  exact congrArg Host.Outcome.next goes

/-- Settles O45: the bit of the discrepancy, and the write of the register. -/
theorem stoDiscrepancy : Obligations.StoDiscrepancy := by
  unfold Obligations.StoDiscrepancy
  refine ⟨fun s on differ => ?_, fun s same => ?_, fun s m w on adm => ?_, by decide +kernel⟩
  · exact congrArg Host.Outcome.next (if_pos ⟨on, differ⟩)
  · exact congrArg Host.Outcome.next (if_neg fun h => h.2 same)
  · refine completes_of_exec (exec_registerWrite_sto s m w on) ?_
    rw [State.rf_plainWrite_admin rights_sto discBits (by decide) w on adm, fld_normalise_sto, fld_mergeW_full discBits (by decide)]

/-! ### Safe torque off (R230, R231) -/

/-- The state with an input low: no gate is driven, and the next tick reports it (R230). -/
def State.stoLow (s : State) (a b : Bool) (us : Nat) : State :=
  { s with
    sys := { s.sys with
      stoA := !a, stoB := !b, stoActive := true, gateOk := false
      stoDue := if s.sys.powered then (if s.sys.stoActive ∧ s.sys.stoDue.isNone then none else some us) else none } }

theorem exec_stoInputLow_low (s : State) {a b : Bool} (us : Nat) (low : a = true ∨ b = true) : exec (.stoInputLow a b us) s = .next (
    if s.sys.powered = true ∧ ¬ s.sys.stoActive = true ∧ s.rb Adr.LINE_CFG 12 = true then (s.stoLow a b us).originate 1
    else s.stoLow a b us) := congrArg Host.Outcome.next (if_pos low)

theorem State.noDrive_of_sto {s : State} (active : s.sys.stoActive = true) (x : AxisId) : s.noDrive x = true := by
  simp [State.noDrive, State.stoOff, active]

/-- The codes of the axes of a list end, each once. -/
theorem State.get_forAll_modBr (s : State) (f : BrState → BrState) {l : List AxisId} (once : l.Nodup) (y : AxisId) :
    (s.forAll l fun t x => t.modBr x f).ax.get y = if y ∈ l then { s.ax.get y with br := f (s.ax.get y).br } else s.ax.get y := by
  induction l generalizing s with
  | nil => rfl
  | cons x l ih =>
    obtain ⟨apart, once⟩ := List.nodup_cons.1 once
    refine (ih (s.modBr x f) once).trans ?_
    by_cases e : y = x
    · subst e; simp [apart]
    · have other : (s.modBr x f).ax.get y = s.ax.get y := State.get_modAx_ne s _ e
      simp [e, other]

/-- The axes whose codes end with a release: those in direct mode, where torque off was active (R231, R478). -/
def State.stoEnds (s : State) : List AxisId := if s.sys.stoActive then (allFin 200).filter s.direct else []

theorem State.stoEnds_nodup (s : State) : s.stoEnds.Nodup := by
  unfold State.stoEnds
  split
  · exact (List.nodup_finRange 200).filter _
  · exact List.nodup_nil

/-- The state with the inputs and the gates back (R231). -/
def State.stoBack (s : State) : State :=
  let t := s.forAll s.stoEnds fun t x => t.modBr x fun b => { b with code := 0 }
  { t with sys := { t.sys with stoA := true, stoB := true, stoActive := false, gateOk := true } }

theorem exec_stoRelease (s : State) (us : Nat) : exec (.stoRelease us) s = .next (
    if s.sys.stoActive = true ∧ s.sys.powered = true then s.stoBack.raise 46 0x160 256 (wd (min us 0xFFFFFFFF)) else s.stoBack) := rfl

theorem State.get_stoBack (s : State) (x : AxisId) : s.stoBack.ax.get x =
    if x ∈ s.stoEnds then { s.ax.get x with br := { (s.ax.get x).br with code := 0 } } else s.ax.get x :=
  s.get_forAll_modBr _ s.stoEnds_nodup x

/-- A release tells of itself where torque off was active, and moves nothing else beside what comes back. -/
theorem State.stoRelease_tells (s : State) (us : Nat) : ∃ t, exec (.stoRelease us) s = .next t ∧ Tells s.stoBack t ∧
    (s.sys.stoActive = true → s.sys.powered = true → t.rb Adr.EVT_PEND_HI 14 = true) := by
  refine ⟨_, exec_stoRelease s us, ?_⟩
  split
  · exact ⟨tells_raise .., fun _ _ => State.rb_raise_self s.stoBack 46 ..⟩
  · case isFalse quiet => exact ⟨.refl _, fun active on => absurd ⟨active, on⟩ quiet⟩

/-- Settles O44: what a low input does and what it sends out, and what comes back. -/
theorem safeTorqueOff : Obligations.SafeTorqueOff := by
  unfold Obligations.SafeTorqueOff
  refine fun s us => ⟨fun a b low => completes_of_exec (exec_stoInputLow_low s us low) ?_, rfl, ?_⟩
  · split
    · case isTrue sends =>
      obtain ⟨on, idle, prop⟩ := sends
      have moves := (s.stoLow a b us).originate_moves 1
      rw [moves.sys, moves.frm]
      have active : ((s.stoLow a b us).originate 1).sys.stoActive = true := by rw [moves.sys]; rfl
      refine ⟨rfl, rfl, rfl, rfl, rfl, fun x => State.noDrive_of_sto active x, fun on idle => ?_, fun other => ?_, fun _ _ _ free => ?_⟩
      · simp [State.stoLow, on, idle]
      · simp [on, idle, prop] at other
      · exact (State.originate_sets (s := s.stoLow a b us) free 1).1
    · case isFalse stays =>
      refine ⟨rfl, rfl, rfl, rfl, rfl, fun x => State.noDrive_of_sto rfl x, fun on idle => ?_, fun _ => rfl, fun on idle prop => ?_⟩
      · simp [State.stoLow, on, idle]
      · simp [on, idle, prop] at stays
  · obtain ⟨t, run, tells, pending⟩ := s.stoRelease_tells us
    have sys : s.stoBack.sys = { s.sys with stoA := true, stoB := true, stoActive := false, gateOk := true } := by
      have same := State.forAll_proj State.sys (fun _ _ => State.modBr_sys ..) s (l := s.stoEnds)
        (f := fun t x => t.modBr x fun b => { b with code := 0 })
      rw [State.stoBack, same]
    have cu : s.stoBack.cu = s.cu := State.forAll_proj State.cu (fun _ _ => State.modBr_cu ..) s
    have ord : s.stoBack.ord = s.ord := State.forAll_proj State.ord (fun _ _ => State.modBr_ord ..) s
    refine completes_of_exec run ?_
    rw [tells.sys, tells.cu, tells.ord, tells.ax, sys, cu, ord]
    refine ⟨rfl, rfl, rfl, rfl, pending, rfl, rfl, fun idle => ?_, fun x engine => ?_, fun active x direct => ?_⟩
    · simp [State.stoBack, State.stoEnds, idle, State.forAll]
    · rw [State.get_stoBack, if_neg]
      unfold State.stoEnds
      split <;> simp [engine]
    · have ends : x ∈ s.stoEnds := by simp [State.stoEnds, active, direct]
      rw [State.get_stoBack, if_pos ends]
      exact ⟨rfl, rfl⟩

end Sys2Proof.Machine
end

section

namespace Sys2Proof.Machine

open Safety

/-! ### Faults of a light bridge (R233 to R237) -/

/-- A bridge fault leaves its axis faulted, with its phase and its bridge off (R103, R223). -/
theorem State.bridgeFaulted_does (s : State) (x : AxisId) (event : Nat) :
    ((s.bridgeFaulted x event).ax.get x).tt.faulted.isSome = true ∧ ((s.bridgeFaulted x event).ax.get x).cd.phase = .off ∧
      ((s.bridgeFaulted x event).ax.get x).br.faultOff = true := by
  refine ⟨s.bridgeFaulted_self x event, ?_⟩
  unfold State.bridgeFaulted State.bridgeFault State.bridgeFaultAt
  rw [State.get_modAx_self]
  exact ⟨rfl, rfl⟩

theorem getLsbD_foldl_or (l : List Nat) (k : Nat) {i : Nat} (w : BitVec 32) (h : k + i < 32) (set : w.getLsbD (k + i) = true ∨ i ∈ l) :
    (l.foldl (fun w i => w ||| BitVec.ofNat 32 (2 ^ (k + i))) w).getLsbD (k + i) = true := by
  induction l generalizing w with
  | nil => exact set.resolve_right List.not_mem_nil
  | cons j l ih =>
    refine ih _ ?_
    rw [getLsbD_or_two_pow]
    rcases set with set | set
    · simp [set]
    · rcases List.mem_cons.1 set with rfl | set
      · simp [h]
      · exact .inr set

/-- Every leg that is latched off shows as latched. -/
theorem State.legBit_latchLegs (s : State) (x : AxisId) {legs : List Nat} {i : Nat} (leg : i < 4) (named : i ∈ legs) :
    legBit ((s.latchLegs x legs).cu.get (unitOf x)).latch (slotOf x).val i = true := by
  rw [State.latchLegs, State.cu_modCu_self]
  exact getLsbD_foldl_or legs (4 * (slotOf x).val) _ (by omega) (.inr named)

/-- A pending event of the first word stays pending. -/
theorem Within.pending_lo {s t : State} (h : Within true s t) {i : Nat} (w : s.rb Adr.EVT_PEND_LO i = true) :
    t.rb Adr.EVT_PEND_LO i = true := h.lo rfl i w

/-! #### Fast overcurrents (R233) -/

/-- The state with leg `i` of an axis latched off and marked seen (R233). -/
def State.overcurrentLatched (s : State) (x : AxisId) (i : Nat) : State :=
  (s.latchLegs x [i]).orReg (Adr.BAY_SHORT_SEEN (unitOf x)) (2 ^ (4 * (slotOf x).val + i))

theorem State.overcurrentLatched_does (s : State) (x : AxisId) {i : Nat} (leg : i < 4) :
    legBit ((s.overcurrentLatched x i).cu.get (unitOf x)).latch (slotOf x).val i = true ∧
      ((s.overcurrentLatched x i).reg (Adr.BAY_SHORT_SEEN (unitOf x))).getLsbD (4 * (slotOf x).val + i) = true ∧
      (s.overcurrentLatched x i).frm = s.frm :=
  ⟨s.legBit_latchLegs x leg (List.mem_singleton.2 rfl), State.rb_orReg_self _ _ (k := 4 * (slotOf x).val + i) (by omega), rfl⟩

section

variable {s : State} {l : Fin 768} (low : Bool)

theorem exec_fastOvercurrent_latched
    (off : legBit (s.cu.get (unitOf (lightAxis l))).latch (slotOf (lightAxis l)).val (l.val % 4) = true) :
    exec (.fastOvercurrent l low) s = .next s := congrArg Host.Outcome.next (if_pos (.inr off))

theorem exec_fastOvercurrent_acts (on : s.sys.powered = true)
    (live : legBit (s.cu.get (unitOf (lightAxis l))).latch (slotOf (lightAxis l)).val (l.val % 4) = false) :
    exec (.fastOvercurrent l low) s = .next (((s.overcurrentLatched (lightAxis l) (l.val % 4)).bridgeFaulted (lightAxis l) 20).raise 20
      (lightAxis l).val (wd (l.val % 4 + 65536 * b2n low)) 0) := congrArg Host.Outcome.next (if_neg (by simp [on, live]))

end

/-- What is latched and marked stays so through the fault and its event, which is pending (R103, R223). -/
theorem State.overcurrent_does (s : State) (x : AxisId) {i : Nat} (leg : i < 4) (d0 : Word) :
    let t := ((s.overcurrentLatched x i).bridgeFaulted x 20).raise 20 x.val d0 0
    legBit (t.cu.get (unitOf x)).latch (slotOf x).val i = true ∧
      (t.reg (Adr.BAY_SHORT_SEEN (unitOf x))).getLsbD (4 * (slotOf x).val + i) = true ∧ (t.ax.get x).tt.faulted.isSome = true ∧
      (t.ax.get x).cd.phase = .off ∧ (t.ax.get x).br.faultOff = true ∧ t.rb Adr.EVT_PEND_LO 20 = true ∧ t.frm = s.frm := by
  intro t
  obtain ⟨latched, seen, frame⟩ := s.overcurrentLatched_does x leg
  obtain ⟨faulted, phase, off⟩ := (s.overcurrentLatched x i).bridgeFaulted_does x 20
  have ax : t.ax = ((s.overcurrentLatched x i).bridgeFaulted x 20).ax := (tells_raise ..).ax
  have within : Within true (s.overcurrentLatched x i) t := within_raise (within_bridgeFaulted (.refl true _) x 20) ..
  have quiet : evReg (Adr.BAY_SHORT_SEEN (unitOf x)) = false := evReg_of_above (by simp only [Adr.BAY_SHORT_SEEN]; omega)
  rw [ax, within.cu, within.frm, within.reg rfl _ quiet]
  exact ⟨latched, seen, faulted, phase, off, State.rb_raise_self _ 20 .., frame⟩

/-! #### Open loads (R235) -/

/-- A coil whose 64 open frames have been told. -/
def Coil.openTold (k : Coil) : Coil := { k with openCnt := if k.openCnt = 64 then 65 else k.openCnt }

/-- A motor that is found detached faults its axis, and switches it off (R103, R223). -/
theorem State.detached_does (s : State) (x : AxisId) (source frames : Nat) :
    ((s.detached x source frames).ax.get x).tt.faulted.isSome = true ∧ ((s.detached x source frames).ax.get x).cd.phase = .off ∧
      (s.detached x source frames).rb Adr.EVT_PEND_LO 22 = true := by
  unfold State.detached
  generalize s.modSg x SgState.disarm = t
  obtain ⟨faulted, phase, -⟩ := t.bridgeFaulted_does x 22
  rw [(tells_raise ..).ax]
  exact ⟨faulted, phase, State.rb_raise_self _ 22 ..⟩

section

variable {s : State} {x : AxisId}

/-- A coil that has not counted to 64 tells nothing, nor does one of an axis without current. -/
theorem exec_openLoadCountEnd_idle (other : ((s.ax.get x).cd.ca.openCnt ≠ 64 ∧ (s.ax.get x).cd.cb.openCnt ≠ 64) ∨
    ¬ (s.ax.get x).energised = true) : exec (.openLoadCountEnd x) s = .next s := congrArg Host.Outcome.next (if_pos other)

variable (first : (s.ax.get x).cd.ca.openCnt = 64) (on : (s.ax.get x).energised = true)
include first on

/-- Coil A alone is open. -/
theorem exec_openLoadCountEnd_one (alone : (s.ax.get x).cd.cb.openCnt < 64) : exec (.openLoadCountEnd x) s =
    .next ((s.modCd x fun c => c.both Coil.openTold).raise 19 x.val (wd 1) (wdI (maOf (s.ax.get x).cd.ca.ipk))) := by
  refine congrArg Host.Outcome.next ((if_neg (by simp [first, on])).trans ((if_neg (by omega)).trans ?_))
  dsimp only
  rw [if_pos first, if_pos first]
  rfl

/-- Both coils are open. -/
theorem exec_openLoadCountEnd_both (both : 64 ≤ (s.ax.get x).cd.cb.openCnt) : exec (.openLoadCountEnd x) s =
    .next ((s.modCd x fun c => c.both Coil.openTold).detached x 0 64) :=
  congrArg Host.Outcome.next ((if_neg (by simp [first, on])).trans (if_pos ⟨first.ge, both⟩))

end

/-! #### Probes (R236, R237) -/

/-- The current that a probe of axis `x` finds. -/
def State.probed (s : State) (x : AxisId) (code : Nat) : Int := s.current (unitOf x) (chanOf x (s.probesB x)) code

/-- The state with a probe's current stored in its history and in AXn_BR_PROBE. -/
def State.probeStored (s : State) (x : AxisId) (code : Nat) : State :=
  let b := s.probesB x
  let d := s.probed x code
  let s1 := s.modBr x fun r => if b then { r with prB := r.prB.take d } else { r with prA := r.prA.take d }
  let old := s1.reg (Adr.AX_BR_PROBE x)
  s1.setReg (Adr.AX_BR_PROBE x) (hiLo (if b then maOf d else sext 16 (fld old 31 16)) (if b then sext 16 (fld old 15 0) else maOf d))

/-- A short that a probe finds latches every leg of its axis and faults it (R236). -/
def State.probeShort (s : State) (x : AxisId) (b : Bool) (d : Int) : State :=
  ((s.raise 20 x.val (wd (2 * b2n b + 2 * 65536)) (wdI (maOf d))).latchLegs x [0, 1, 2, 3]).bridgeFaulted x 20

theorem exec_parkedAxisProbe_idle {s : State} {x : AxisId} (code : Nat) (idle : s.probes x = false) :
    exec (.parkedAxisProbe x code) s = .next s := congrArg Host.Outcome.next (if_pos (.inr (by simp [idle])))

theorem exec_parkedAxisProbe_due {s : State} {x : AxisId} (code : Nat) (on : s.sys.powered = true) (due : s.probes x = true) :
    exec (.parkedAxisProbe x code) s = .next (
      if 15360 ≤ (s.probed x code).natAbs then
        (((s.probeStored x code).gathering.probeVerdict x).probeShort x (s.probesB x) (s.probed x code)).tellAll
      else ((s.probeStored x code).gathering.probeVerdict x).tellAll) := by
  have runs : ¬ (¬ s.sys.powered = true ∨ ¬ s.probes x = true) := by simp [on, due]
  exact congrArg Host.Outcome.next ((if_neg runs).trans (apply_ite State.tellAll ..))

/-- The probe histories of an axis. -/
def State.probeHists (s : State) (x : AxisId) : ProbeHist × ProbeHist := ((s.ax.get x).br.prA, (s.ax.get x).br.prB)

theorem State.probeHists_of_ax {s t : State} (h : t.ax = s.ax) (x : AxisId) : t.probeHists x = s.probeHists x := by
  rw [State.probeHists, h, State.probeHists]

/-- The verdict about the motor reads the histories, and leaves them (R237). -/
theorem State.probeHists_probeVerdict (s : State) (x : AxisId) : (s.probeVerdict x).probeHists x = s.probeHists x := by
  have disarmed (t : State) : (t.modSg x SgState.disarm).probeHists x = t.probeHists x := by
    rw [State.probeHists, State.get_modSg_self]; rfl
  have noted (e : Nat) (d0 d1 : Word) (v : Nat) :
      ((s.modBr x fun b => { b with present := v }).raise e x.val d0 d1).probeHists x = s.probeHists x := by
    rw [State.probeHists_of_ax (tells_raise ..).ax, State.probeHists, State.get_modBr_self]; rfl
  unfold State.probeVerdict
  extract_lets b v s1 words open_
  clear_value v
  split
  · rfl
  · split
    · rfl
    · split
      · rw [disarmed, State.probeHists, State.get_modCd_self]
        exact noted ..
      · rw [disarmed]
        exact noted ..
      · exact noted ..

/-- A probe without a short stores its current with its coil. -/
theorem State.probeHists_tellAll (s : State) (x : AxisId) (code : Nat) :
    (((s.probeStored x code).gathering.probeVerdict x).tellAll).probeHists x = (s.probeStored x code).probeHists x := by
  rw [State.probeHists_of_ax (tells_tellAll _).ax, State.probeHists_probeVerdict, State.probeHists_of_ax (tells_gathering _).ax]

theorem State.probeHists_probeStored (s : State) (x : AxisId) (code : Nat) : (s.probeStored x code).probeHists x =
    if s.probesB x then ((s.ax.get x).br.prA, (s.ax.get x).br.prB.take (s.probed x code))
    else ((s.ax.get x).br.prA.take (s.probed x code), (s.ax.get x).br.prB) := by
  refine (State.probeHists_of_ax (State.setReg_ax ..) x).trans ?_
  rw [State.probeHists, State.get_modBr_self]
  split <;> rfl

theorem State.frm_probeStored (s : State) (x : AxisId) (code : Nat) : (s.probeStored x code).frm = s.frm := rfl

/-- What a short that a probe finds does, once it is told (R236). -/
theorem State.probeShort_does (s : State) (x : AxisId) (b : Bool) (d : Int) :
    ((s.probeShort x b d).tellAll.ax.get x).tt.faulted.isSome = true ∧ ((s.probeShort x b d).tellAll.ax.get x).br.faultOff = true ∧
      (∀ i < 4, legBit ((s.probeShort x b d).tellAll.cu.get (unitOf x)).latch (slotOf x).val i = true) ∧
      (s.probeShort x b d).tellAll.rb Adr.EVT_PEND_LO 20 = true := by
  unfold State.probeShort
  have pending := s.rb_raise_self 20 x.val (wd (2 * b2n b + 2 * 65536)) (wdI (maOf d))
  generalize s.raise 20 _ _ _ = u at pending
  have latched (i : Nat) (leg : i < 4) := u.legBit_latchLegs x (legs := [0, 1, 2, 3]) leg (by interval_cases i <;> decide)
  have regs : (u.latchLegs x [0, 1, 2, 3]).regs = u.regs := rfl
  generalize u.latchLegs x [0, 1, 2, 3] = v at latched regs
  obtain ⟨faulted, -, off⟩ := v.bridgeFaulted_does x 20
  have within : Within true v (v.bridgeFaulted x 20).tellAll := within_tellAll (within_bridgeFaulted (.refl true v) x 20)
  rw [(tells_tellAll _).ax, within.cu]
  refine ⟨faulted, off, latched, within.pending_lo ?_⟩
  rw [State.rb, State.reg_of_regs regs]
  exact pending

/-- Settles O46, kind of fault by kind of fault. -/
theorem lightBridgeFaults : Obligations.LightBridgeFaults := by
  unfold Obligations.LightBridgeFaults
  refine ⟨fun s l low on => ⟨exec_fastOvercurrent_latched low, fun live => ?_⟩,
    fun s x => ⟨fun first alone on => ?_, fun first both on => ?_, fun a b => exec_openLoadCountEnd_idle (.inl ⟨a, b⟩)⟩,
    fun s x c on => ⟨exec_parkedAxisProbe_idle c, fun due small => ?_, fun due short => ?_⟩⟩
  · refine completes_of_exec (exec_fastOvercurrent_acts low on live) ?_
    exact s.overcurrent_does (lightAxis l) (Nat.mod_lt _ (by decide)) _
  · refine completes_of_exec (exec_openLoadCountEnd_one first on alone) ?_
    have tells := tells_raise (s.modCd x fun c => c.both Coil.openTold) 19 x.val (wd 1) (wdI (maOf (s.ax.get x).cd.ca.ipk))
    refine ⟨?_, ?_, State.rb_raise_self _ 19 .., tells.frm⟩
    · rw [tells.ax, State.get_modCd_self]
      exact if_pos first
    · rw [tells.ax, State.get_modCd_self]
  · refine completes_of_exec (exec_openLoadCountEnd_both first on both) ?_
    exact State.detached_does ..
  · refine completes_of_exec (exec_parkedAxisProbe_due c on due) ?_
    rw [if_neg (by rw [State.probed]; exact Nat.not_le.2 small)]
    have hists := (s.probeHists_tellAll x c).trans (s.probeHists_probeStored x c)
    have within := within_tellAll (within_probeVerdict (within_gathering (.refl true (s.probeStored x c))) x)
    refine ⟨within.frm.trans (s.frm_probeStored x c), ?_⟩
    by_cases side : s.probesB x = true
    · rw [if_pos side, State.probed, side] at hists
      obtain ⟨a, b⟩ := Prod.mk.inj hists
      rw [if_pos side]
      exact ⟨b, a⟩
    · rw [if_neg side, State.probed, (Bool.not_eq_true _).mp side] at hists
      rw [if_neg side]
      exact Prod.mk.inj hists
  · refine completes_of_exec (exec_parkedAxisProbe_due c on due) ?_
    rw [if_pos (show 15360 ≤ (s.probed x c).natAbs from short)]
    exact State.probeShort_does ..

end Sys2Proof.Machine
end

section

namespace Sys2Proof.Machine

open Safety

/-! ### The heavy bridges (R250 to R258) -/

theorem slotOf_hvAxis (h : HeavyId) : slotOf (hvAxis h) = h := slotOf_axisAt 24 h

theorem unitOf_hvAxis (h : HeavyId) : unitOf (hvAxis h) = 24 := Fin.ext (if_neg (by simp only [hvAxis]; omega))

/-- The axis of a coil of the heavy group is a heavy axis. -/
theorem hvAxis_slotOf_coilOf (c : Fin 16) : hvAxis (slotOf (coilOf 24 c).1) = (coilOf 24 c).1 := by
  rw [coilOf, slotOf_axisAt]; rfl

theorem heavyLeg_lt (l : Fin 32) : (heavyLeg l).2 < 4 := Nat.mod_lt _ (by decide)

theorem coilLegs_lt (b : Bool) : ∀ i ∈ coilLegs b, i < 4 := by cases b <;> decide

@[simp] theorem State.hv_modHv_self (s : State) (h : HeavyId) (f : HvState → HvState) : (s.modHv h f).hv.get h = f (s.hv.get h) :=
  vector_get_set_self ..

theorem evReg_hvyStat (h : HeavyId) : evReg (Adr.HVY_STAT h) = false := evReg_of_above (by simp only [Adr.HVY_STAT]; omega)

/-- An occurrence of an event of the first word is pending (R409). -/
theorem State.rb_raise_lo (s : State) {e : Nat} (low : e < 32) (u : Nat) (d0 d1 : Word) :
    (s.raise e u d0 d1).rb Adr.EVT_PEND_LO e = true := by
  have pending := s.rb_raise_self e u d0 d1
  rwa [if_pos low, Nat.mod_eq_of_lt low] at pending

/-! #### A bridge fault and its event (R103, R223) -/

/-- The state in which a heavy axis has taken a bridge fault, and its event is told. -/
def State.heavyFaulted (s : State) (h : HeavyId) (e : Nat) (d0 d1 : Word) : State :=
  (s.bridgeFaulted (hvAxis h) e).raise e (hvAxis h).val d0 d1

theorem State.heavyFaulted_within (s : State) (h : HeavyId) (e : Nat) (d0 d1 : Word) : Within true s (s.heavyFaulted h e d0 d1) :=
  within_raise (within_bridgeFaulted (.refl true s) _ e) ..

theorem State.heavyFaulted_does (s : State) (h : HeavyId) {e : Nat} (low : e < 32) (d0 d1 : Word) :
    let t := s.heavyFaulted h e d0 d1
    (t.ax.get (hvAxis h)).tt.faulted.isSome = true ∧ (t.ax.get (hvAxis h)).cd.phase = .off ∧
      (t.ax.get (hvAxis h)).br.faultOff = true ∧ t.rb Adr.EVT_PEND_LO e = true := by
  intro t
  obtain ⟨faulted, phase, off⟩ := s.bridgeFaulted_does (hvAxis h) e
  have ax : t.ax = (s.bridgeFaulted (hvAxis h) e).ax := (tells_raise ..).ax
  rw [ax]
  exact ⟨faulted, phase, off, State.rb_raise_lo _ low ..⟩

/-! #### Bootstraps (R254) -/

/-- The state in which the bootstrap of leg `i` is no longer released. -/
def State.bootFallen (s : State) (h : HeavyId) (i : Nat) : State :=
  s.modHv h fun v => { v with rel := v.rel &&& ~~~(BitVec.ofNat 4 (2 ^ i)) }

theorem exec_bootstrapUndervoltage_energised {s : State} {l : Fin 32} (on : (s.ax.get (hvAxis (heavyLeg l).1)).energised = true) :
    exec (.bootstrapUndervoltage l) s =
      .next ((s.bootFallen (heavyLeg l).1 (heavyLeg l).2).heavyFaulted (heavyLeg l).1 26 (wd (heavyLeg l).2) 0) :=
  congrArg Host.Outcome.next (if_pos on)

theorem exec_bootstrapUndervoltage_idle {s : State} {l : Fin 32} (off : (s.ax.get (hvAxis (heavyLeg l).1)).energised = false) :
    exec (.bootstrapUndervoltage l) s = .next s := congrArg Host.Outcome.next (if_neg (ne_true_of_eq_false off))

/-- The state in which all four bootstraps are released, and the ramp of the sequence `q` begins with the next frame. -/
def State.bootReleased (s : State) (h : HeavyId) (q : SeqSt) : State :=
  (s.modHv h fun v => { v with rel := 0xF }).modCd (hvAxis h) fun c =>
    { c with seq := some { q with boot := false, start := s.frm.count + 1 } }

section

variable {s : State} {h : HeavyId} {q : SeqSt} (seq : (s.ax.get (hvAxis h)).cd.seq = some q)
include seq

theorem exec_bootstrapRelease_waiting (boot : q.boot = true) (ramp : (s.ax.get (hvAxis h)).cd.phase = .energising) :
    exec (.bootstrapRelease h) s = .next (s.bootReleased h q) := by
  refine congrArg Host.Outcome.next ?_
  dsimp only
  rw [seq]
  exact if_pos ⟨boot, ramp⟩

theorem exec_bootstrapReleaseTimeout_late (boot : q.boot = true) (ramp : (s.ax.get (hvAxis h)).cd.phase = .energising)
    (late : 40 ≤ s.since q.start) :
    exec (.bootstrapReleaseTimeout h) s = .next (s.heavyFaulted h 26 (wd ((s.hv.get h).unreleased + 256)) 40) := by
  refine congrArg Host.Outcome.next ?_
  dsimp only
  rw [seq]
  exact if_pos ⟨boot, ramp, late⟩

theorem exec_bootstrapReleaseTimeout_early (early : s.since q.start < 40) : exec (.bootstrapReleaseTimeout h) s = .next s := by
  refine congrArg Host.Outcome.next ?_
  dsimp only
  rw [seq]
  exact if_neg fun ⟨_, _, late⟩ => Nat.not_le.2 early late

end

/-! #### Gate supplies (R255) -/

/-- The state in which gate supply `r` is locked out. -/
def State.supplyLocked (s : State) (r : Fin 2) : State :=
  { s with cmp := { s.cmp with vghLock := s.cmp.vghLock ||| BitVec.ofNat 2 (2 ^ r.val) } }

/-- The state in which gate supply `r` is locked out by a fall of its own. -/
def State.supplyFallen (s : State) (r : Fin 2) : State :=
  { s.supplyLocked r with cmp := { (s.supplyLocked r).cmp with vghFell := s.cmp.vghFell ||| BitVec.ofNat 2 (2 ^ r.val) } }

/-- The state in which the fall of gate supply `r` has faulted every energised heavy axis, and is told. -/
def State.supplyFaulted (s : State) (r : Fin 2) : State :=
  let f := (s.supplyFallen r).faultEnergised (axesOf 24) 27
  f.1.raise 27 (0x170 + r.val) (wd r.val) (wd f.2)

theorem State.vghLock_supplyLocked (s : State) (r : Fin 2) : (s.supplyLocked r).cmp.vghLock.getLsbD r = true := by
  show (s.cmp.vghLock ||| BitVec.ofNat 2 (2 ^ r.val)).getLsbD r = true
  rw [getLsbD_or_two_pow, decide_eq_true r.isLt, decide_eq_true rfl, Bool.and_self, Bool.or_true]

theorem State.supplyFaulted_does (s : State) (r : Fin 2) :
    (s.supplyFaulted r).cmp.vghLock.getLsbD r = true ∧ (s.supplyFaulted r).frm = s.frm ∧
      (s.supplyFaulted r).rb Adr.EVT_PEND_LO 27 = true := by
  have within : Within true (s.supplyFallen r) (s.supplyFaulted r) :=
    within_raise (within_faultEnergised (.refl true _) (axesOf 24) 27) ..
  exact ⟨by rw [within.cmp]; exact s.vghLock_supplyLocked r, within.frm, State.rb_raise_self _ 27 ..⟩

section

variable {s : State} {r : Fin 2}

theorem exec_gateSupplyFall_locked (locked : s.cmp.vghLock.getLsbD r = true) : exec (.gateSupplyFall r) s = .next s :=
  congrArg Host.Outcome.next (if_pos (.inr locked))

variable (on : s.sys.powered = true) (free : s.cmp.vghLock.getLsbD r = false)
include on free

/-- A fall that STO_A causes locks the supply, and does no more (R230). -/
theorem exec_gateSupplyFall_sto (sto : s.sys.stoActive = true) (cause : s.sys.stoA = false) :
    exec (.gateSupplyFall r) s = .next (s.supplyLocked r) :=
  congrArg Host.Outcome.next ((if_neg (by simp [on, free])).trans (if_pos ⟨sto, by simp [cause]⟩))

theorem exec_gateSupplyFall_faults (own : s.sys.stoActive = false ∨ s.sys.stoA = true) :
    exec (.gateSupplyFall r) s = .next (s.supplyFaulted r) :=
  congrArg Host.Outcome.next ((if_neg (by simp [on, free])).trans (if_neg (by rcases own with own | own <;> simp [own])))

end

/-! #### Detections (R250, R257, R258) -/

/-- The state in which a detection has set bit `k` of HVYh_STAT. -/
def State.heavyMarked (s : State) (same : Bool) (h : HeavyId) (k : Nat) : State := (s.keepHighs same (hvAxis h)).hvStat h (2 ^ k)

/-- A mark on an axis latches nothing. -/
theorem State.latch_keepHighs (s : State) (same : Bool) (x : AxisId) (u : CarrierId) :
    ((s.keepHighs same x).cu.get u).latch = (s.cu.get u).latch :=
  State.cu_modCu_proj CUnit.latch s (unitOf x) u fun _ => (apply_ite CUnit.latch ..).trans (ite_self _)

theorem State.rb_heavyMarked (s : State) (same : Bool) (h : HeavyId) {k : Nat} (bit : k < 32) :
    (s.heavyMarked same h k).rb (Adr.HVY_STAT h) k = true := State.rb_orReg_self _ _ bit

/-- The state in which a detection is marked, its legs are latched off and its axis has taken a bridge fault. -/
def State.heavyProtected (s : State) (same : Bool) (h : HeavyId) (k : Nat) (legs : List Nat) (e : Nat) (d0 d1 : Word) : State :=
  ((s.heavyMarked same h k).latchLegs (hvAxis h) legs).heavyFaulted h e d0 d1

theorem State.heavyProtected_does (s : State) (same : Bool) (h : HeavyId) {k e : Nat} {legs : List Nat} (bit : k < 32) (low : e < 32)
    (four : ∀ i ∈ legs, i < 4) (d0 d1 : Word) :
    let t := s.heavyProtected same h k legs e d0 d1
    (∀ i ∈ legs, legBit (t.cu.get 24).latch h.val i = true) ∧ (t.ax.get (hvAxis h)).tt.faulted.isSome = true ∧
      (t.ax.get (hvAxis h)).cd.phase = .off ∧ (t.ax.get (hvAxis h)).br.faultOff = true ∧ t.rb (Adr.HVY_STAT h) k = true ∧
      t.rb Adr.EVT_PEND_LO e = true := by
  intro t
  have within : Within true ((s.heavyMarked same h k).latchLegs (hvAxis h) legs) t := State.heavyFaulted_within ..
  obtain ⟨faulted, phase, off, pending⟩ := State.heavyFaulted_does ((s.heavyMarked same h k).latchLegs (hvAxis h) legs) h low d0 d1
  refine ⟨fun i leg => ?_, faulted, phase, off, ?_, pending⟩
  · have latched := (s.heavyMarked same h k).legBit_latchLegs (hvAxis h) (four i leg) leg
    rwa [unitOf_hvAxis, slotOf_hvAxis, ← within.cu] at latched
  · rw [State.rb, within.reg rfl _ (evReg_hvyStat h)]
    exact s.rb_heavyMarked same h bit

/-- The state in which a desaturation that opens no bridge is marked, and told once a window for each leg (R257). -/
def State.vdsTold (s : State) (same : Bool) (h : HeavyId) (i : Nat) (d0 d1 : Word) : State :=
  if (s.hv.get h).vdsSeen.getLsbD i then s.heavyMarked same h 3
  else ((s.heavyMarked same h 3).raise 24 (hvAxis h).val d0 d1).modHv h fun v => { v with vdsSeen := v.vdsSeen ||| BitVec.ofNat 4 (2 ^ i) }

theorem State.vdsTold_does (s : State) (same : Bool) (h : HeavyId) {i : Nat} (leg : i < 4) (d0 d1 : Word) :
    let t := s.vdsTold same h i d0 d1
    t.ax = s.ax ∧ (t.cu.get 24).latch = (s.cu.get 24).latch ∧ t.rb (Adr.HVY_STAT h) 3 = true ∧
      (t.hv.get h).vdsSeen.getLsbD i = true ∧ ((s.hv.get h).vdsSeen.getLsbD i = false → t.rb Adr.EVT_PEND_LO 24 = true) := by
  have ax : (s.heavyMarked same h 3).ax = s.ax := rfl
  have hv : (s.heavyMarked same h 3).hv = s.hv := rfl
  have latch : ((s.heavyMarked same h 3).cu.get 24).latch = (s.cu.get 24).latch := s.latch_keepHighs same (hvAxis h) 24
  have marked := s.rb_heavyMarked same h (k := 3) (by decide)
  unfold State.vdsTold
  generalize s.heavyMarked same h 3 = u at ax hv latch marked
  split
  case isTrue seen => exact ⟨ax, latch, marked, by rw [hv]; exact seen, fun first => absurd (seen.symm.trans first) (by decide)⟩
  case isFalse =>
    have tells := tells_raise u 24 (hvAxis h).val d0 d1
    have within := within_raise (.refl true u) 24 (hvAxis h).val d0 d1
    have pending := u.rb_raise_lo (e := 24) (by decide) (hvAxis h).val d0 d1
    refine ⟨tells.ax.trans ax, ?_, ?_, ?_, fun _ => pending⟩
    · rw [State.modHv_cu, tells.cu, latch]
    · rw [State.rb, State.reg_of_regs (State.modHv_regs ..), within.reg rfl _ (evReg_hvyStat h)]
      exact marked
    · rw [State.hv_modHv_self, getLsbD_or_two_pow]
      simp [leg]

section

variable {s : State} (on : s.sys.powered = true)

section

variable {l : Fin 32} (low : Bool) (k : Nat) {same : Bool}

/-- A switch that is not watched, or whose leg was latched at an earlier clock, shows no desaturation. -/
theorem exec_vdsDetection_idle (idle : s.rf (Adr.HVY_VDS_CFG (heavyLeg l).1) 17 16 = 0 ∨
    (same = false ∧ legBit (s.cu.get 24).latch (heavyLeg l).1.val (heavyLeg l).2 = true)) :
    exec (.vdsDetection l low ⟨k, same⟩) s = .next s := by
  refine congrArg Host.Outcome.next (if_pos (.inr ?_))
  exact idle.imp_right fun ⟨earlier, latched⟩ => ⟨by simp [earlier], latched⟩

include on

variable (told : same = true ∨ legBit (s.cu.get 24).latch (heavyLeg l).1.val (heavyLeg l).2 = false)
include told

theorem vdsDetection_not_idle (watched : s.rf (Adr.HVY_VDS_CFG (heavyLeg l).1) 17 16 ≠ 0) :
    ¬ (¬ s.sys.powered = true ∨ s.rf (Adr.HVY_VDS_CFG (heavyLeg l).1) 17 16 = 0 ∨
      (¬ same = true ∧ legBit (s.cu.get 24).latch (heavyLeg l).1.val (heavyLeg l).2 = true)) :=
  not_or.2 ⟨not_not.2 on, not_or.2 ⟨watched, fun ⟨earlier, latched⟩ =>
    told.elim earlier fun free => Bool.noConfusion (latched.symm.trans free)⟩⟩

/-- In mode 1 a desaturation opens no bridge (R257). -/
theorem exec_vdsDetection_mode1 (mode : s.rf (Adr.HVY_VDS_CFG (heavyLeg l).1) 17 16 = 1) : exec (.vdsDetection l low ⟨k, same⟩) s =
    .next (s.vdsTold same (heavyLeg l).1 (heavyLeg l).2 (wd ((heavyLeg l).2 + 256 * b2n low + 65536)) (wd k)) := by
  have watched : s.rf (Adr.HVY_VDS_CFG (heavyLeg l).1) 17 16 ≠ 0 := by rw [mode]; decide
  exact congrArg Host.Outcome.next ((if_neg (vdsDetection_not_idle on told watched)).trans (if_pos mode))

theorem exec_vdsDetection_mode2 (mode : s.rf (Adr.HVY_VDS_CFG (heavyLeg l).1) 17 16 = 2) : exec (.vdsDetection l low ⟨k, same⟩) s =
    .next (s.heavyProtected same (heavyLeg l).1 3 [(heavyLeg l).2] 24 (wd ((heavyLeg l).2 + 256 * b2n low)) (wd k)) := by
  have watched : s.rf (Adr.HVY_VDS_CFG (heavyLeg l).1) 17 16 ≠ 0 := by rw [mode]; decide
  have opens : s.rf (Adr.HVY_VDS_CFG (heavyLeg l).1) 17 16 ≠ 1 := by rw [mode]; decide
  exact congrArg Host.Outcome.next ((if_neg (vdsDetection_not_idle on told watched)).trans (if_neg opens))

end

theorem exec_hardOvercurrent_idle {c : Fin 16} {k : Nat} (same : Bool)
    (small : ((k : Int) - 2048).natAbs < s.rf (Adr.HVY_HOC (slotOf (coilOf 24 c).1)) 10 0) :
    exec (.hardOvercurrent c ⟨k, same⟩) s = .next s := congrArg Host.Outcome.next (if_pos (.inr small))

include on

theorem exec_hardOvercurrent_acts {c : Fin 16} {k : Nat} (same : Bool)
    (large : s.rf (Adr.HVY_HOC (slotOf (coilOf 24 c).1)) 10 0 ≤ ((k : Int) - 2048).natAbs) :
    exec (.hardOvercurrent c ⟨k, same⟩) s = .next (s.heavyProtected same (slotOf (coilOf 24 c).1) 1 (coilLegs (coilOf 24 c).2) 30
      (wd (256 * b2n (coilOf 24 c).2 + 65536)) (wd k)) := by
  rw [State.heavyProtected, State.heavyMarked, State.heavyFaulted, hvAxis_slotOf_coilOf]
  exact congrArg Host.Outcome.next (if_neg (not_or.2 ⟨not_not.2 on, Nat.not_lt.2 large⟩))

theorem exec_gateFeedbackMismatch (l : Fin 32) (low : Bool) (kind : Fin 4) (same : Bool) :
    exec (.gateFeedbackMismatch l low ⟨kind, same⟩) s = .next (s.heavyProtected same (heavyLeg l).1 2 [(heavyLeg l).2] 29
      (wd ((heavyLeg l).2 + 256 * b2n low + 65536 * kind.val)) 0) := congrArg Host.Outcome.next (if_neg (not_not.2 on))

end

/-- Settles O48, kind of fault by kind of fault. -/
theorem heavyBridges : Obligations.HeavyBridges := by
  unfold Obligations.HeavyBridges
  refine ⟨fun s l => ⟨fun on => ?_, exec_bootstrapUndervoltage_idle⟩,
    fun s h q seq boot ramp => ⟨?_, fun late => ?_, exec_bootstrapReleaseTimeout_early seq⟩,
    fun s r on => ⟨fun free => ?_, exec_gateSupplyFall_locked, ?_⟩,
    fun s l low k same on => ⟨fun told mode => ?_, fun told mode => ?_, exec_vdsDetection_idle low k, fun kind => ?_⟩,
    fun s c k same on => ⟨exec_hardOvercurrent_idle same, fun large => ?_⟩⟩
  · refine completes_of_exec (exec_bootstrapUndervoltage_energised on) ?_
    obtain ⟨faulted, -, -, pending⟩ := (s.bootFallen (heavyLeg l).1 (heavyLeg l).2).heavyFaulted_does (heavyLeg l).1 (e := 26)
      (by decide) (wd (heavyLeg l).2) 0
    refine ⟨?_, faulted, pending⟩
    rw [(State.heavyFaulted_within ..).hv, State.bootFallen, State.hv_modHv_self]
  · refine completes_of_exec (exec_bootstrapRelease_waiting seq boot ramp) ⟨?_, ?_, rfl⟩
    · rw [State.bootReleased, State.modCd_hv, State.hv_modHv_self]
      rfl
    · rw [State.bootReleased, State.get_modCd_self]
  · refine completes_of_exec (exec_bootstrapReleaseTimeout_late seq boot ramp late) ?_
    obtain ⟨faulted, phase, -, pending⟩ := s.heavyFaulted_does h (e := 26) (by decide) (wd ((s.hv.get h).unreleased + 256)) 40
    exact ⟨faulted, phase, pending⟩
  · by_cases cause : s.sys.stoActive = true ∧ s.sys.stoA = false
    · obtain ⟨sto, low⟩ := cause
      refine completes_of_exec (exec_gateSupplyFall_sto on free sto low) ⟨s.vghLock_supplyLocked r, rfl, fun own => ?_, fun _ _ => ⟨rfl, rfl⟩⟩
      simp [sto, low] at own
    · have own : s.sys.stoActive = false ∨ s.sys.stoA = true := by
        simpa only [not_and_or, Bool.not_eq_true, Bool.not_eq_false] using cause
      obtain ⟨locked, frame, pending⟩ := s.supplyFaulted_does r
      exact completes_of_exec (exec_gateSupplyFall_faults on free own)
        ⟨locked, frame, fun _ => pending, fun sto low => absurd ⟨sto, low⟩ cause⟩
  · refine completes_of_exec (t := { s with cmp := _ }) rfl ⟨?_, rfl⟩
    rw [getLsbD_and_not_two_pow]; simp
  · refine completes_of_exec (exec_vdsDetection_mode2 on low k told mode) ?_
    obtain ⟨latched, faulted, -, off, marked, pending⟩ := s.heavyProtected_does same (heavyLeg l).1 (k := 3) (e := 24) (by decide)
      (by decide) (List.forall_mem_singleton.2 (heavyLeg_lt l)) (wd ((heavyLeg l).2 + 256 * b2n low)) (wd k)
    exact ⟨latched _ (List.mem_singleton.2 rfl), faulted, off, marked, pending⟩
  · refine completes_of_exec (exec_vdsDetection_mode1 on low k told mode) ?_
    exact s.vdsTold_does same (heavyLeg l).1 (heavyLeg_lt l) ..
  · refine completes_of_exec (exec_gateFeedbackMismatch on l low kind same) ?_
    obtain ⟨latched, faulted, -, off, marked, pending⟩ := s.heavyProtected_does same (heavyLeg l).1 (k := 2) (e := 29) (by decide)
      (by decide) (List.forall_mem_singleton.2 (heavyLeg_lt l)) (wd ((heavyLeg l).2 + 256 * b2n low + 65536 * kind.val)) 0
    exact ⟨latched _ (List.mem_singleton.2 rfl), faulted, off, marked, pending⟩
  · refine completes_of_exec (exec_hardOvercurrent_acts on same large) ?_
    obtain ⟨latched, faulted, phase, -, marked, pending⟩ := s.heavyProtected_does same (slotOf (coilOf 24 c).1) (k := 1) (e := 30)
      (by decide) (by decide) (coilLegs_lt (coilOf 24 c).2) (wd (256 * b2n (coilOf 24 c).2 + 65536)) (wd k)
    rw [hvAxis_slotOf_coilOf] at faulted phase
    exact ⟨faulted, phase, marked, pending, latched⟩

end Sys2Proof.Machine
end

section
/-! SUPPORT. The obligations of position feedback, its writes, the probes and encoder emulation, with the rules about the operations that
they speak of. -/

namespace Sys2Proof.Machine

open Safety

/-! ### Feedback channels -/

@[simp] theorem State.get_modFbc_self (s : State) (c : Fin 24) (f : FbChan → FbChan) : (s.modFbc c f).fbc.get c = f (s.fbc.get c) :=
  vector_get_set_self ..

theorem State.get_modFbc_ne (s : State) {c d : Fin 24} (f : FbChan → FbChan) (ne : d ≠ c) : (s.modFbc c f).fbc.get d = s.fbc.get d :=
  vector_get_set_ne _ _ ne

/-- Keeping the count for the probes moves what the channel keeps of its past, and nothing else (R304). -/
theorem State.notePast_eq (s : State) (c : Fin 24) (k : Nat) (moved : Option Int) :
    ∃ p, s.notePast c k moved = s.modFbc c fun h => { h with past := p } := ⟨_, rfl⟩

theorem State.noteNow_eq (s : State) (c : Fin 24) : ∃ p, s.noteNow c = s.modFbc c fun h => { h with past := p } := ⟨_, rfl⟩

/-- Inside the limits a count is taken as it is, and is held at none (R295). -/
theorem FbChan.put_inside (h : FbChan) {lo hi v : Int} (low : lo ≤ v) (high : v ≤ hi) :
    h.put lo hi v = { h with count := v, satLo := false, satHi := false } := by
  rw [FbChan.put, if_neg (by omega), if_neg (by omega)]

/-- A count is clamped to the limits, and counts as held at the one that it lies beyond (R295). -/
theorem FbChan.put_does (h : FbChan) {lo hi : Int} (ordered : lo ≤ hi) (v : Int) :
    ∃ b, h.put lo hi v =
      { h with count := clampInt lo hi v, satHi := decide (hi < v), satLo := decide (v < lo), lost := b } := by
  unfold FbChan.put clampInt
  split
  · exact ⟨true, by simp; omega⟩
  · split
    · exact ⟨true, by simp; omega⟩
    · exact ⟨h.lost, by simp; omega⟩

/-- Putting a count moves the channel and its sticky bit, and nothing else. -/
theorem State.putCount_eq (s : State) (c : Fin 24) (v : Int) : ∃ r, s.putCount c v =
    { s.modFbc c fun h => h.put (s.slMin c) (s.slMax c) v with regs := r } := by
  unfold State.putCount
  extract_lets t
  split <;> exact ⟨_, rfl⟩

theorem State.putCount_ax (s : State) (c : Fin 24) (v : Int) : (s.putCount c v).ax = s.ax := by
  obtain ⟨r, put⟩ := s.putCount_eq c v
  rw [put]
  rfl

theorem State.get_putCount {s : State} {c : Fin 24} (ordered : s.slMin c ≤ s.slMax c) (v : Int) : ∃ b,
    (s.putCount c v).fbc.get c = { s.fbc.get c with count := clampInt (s.slMin c) (s.slMax c) v, lost := b,
                                                    satHi := decide (s.slMax c < v), satLo := decide (v < s.slMin c) } := by
  obtain ⟨r, put⟩ := s.putCount_eq c v
  obtain ⟨b, held⟩ := (s.fbc.get c).put_does ordered v
  exact ⟨b, by rw [put]; exact (s.get_modFbc_self c fun h => h.put (s.slMin c) (s.slMax c) v).trans held⟩

theorem State.putCount_inside {s : State} {c : Fin 24} {v : Int} (low : s.slMin c ≤ v) (high : v ≤ s.slMax c) :
    s.putCount c v = s.modFbc c fun h => { h with count := v, satLo := false, satHi := false } := by
  rw [State.putCount, if_neg (by omega)]
  simp only [FbChan.put_inside _ low high]

/-! ### What an emulation output drives (R306) -/

/-- Nothing has moved but the emulation outputs and what they send out. -/
def Drives (s t : State) : Prop := t = { s with emu := t.emu, out := t.out }

theorem Drives.refl (s : State) : Drives s s := rfl

theorem Drives.trans {s t u : State} (h : Drives s t) (k : Drives t u) : Drives s u := by
  unfold Drives at *
  rw [k, h]

section

variable {s t : State} (h : Drives s t)
include h

theorem Drives.fbc : t.fbc = s.fbc := by rw [h]
theorem Drives.ax : t.ax = s.ax := by rw [h]
theorem Drives.regs : t.regs = s.regs := by rw [h]
theorem Drives.reg (a : Nat) : t.reg a = s.reg a := State.reg_of_regs h.regs a

end

theorem Drives.forAll {α : Type} {l : List α} {f : State → α → State} (h : ∀ t a, Drives t (f t a)) (s : State) :
    Drives s (s.forAll l f) :=
  State.forAll_keeps (Drives s) (fun t a k => k.trans (h t a)) (.refl s)

theorem State.emuDrive_drives (s : State) (e : Fin 4) (k : Nat) (lines : BitVec 2) (z : Bool) : Drives s (s.emuDrive e k lines z) := by
  unfold State.emuDrive
  split <;> rfl

theorem State.copyCount_drives (s : State) (e : Fin 4) (n : Int) (k : Nat) : Drives s (s.copyCount e n k) := by
  unfold State.copyCount
  extract_lets behind t m goal
  split <;> rfl

theorem State.copyZ_drives (s : State) (e : Fin 4) (z : Bool) (k : Nat) : Drives s (s.copyZ e z k) := by
  unfold State.copyZ
  split
  · exact .refl s
  · exact s.emuDrive_drives ..

/-! ### The axes that correct by a channel (R294, R296) -/

/-- An occurrence of an event of the second word is pending (R409). -/
theorem State.rb_raise_hi (s : State) {e : Nat} (high : 32 ≤ e) (u : Nat) (d0 d1 : Word) :
    (s.raise e u d0 d1).rb Adr.EVT_PEND_HI (e % 32) = true := by
  have pending := s.rb_raise_self e u d0 d1
  rwa [if_neg (by omega)] at pending

/-- Every axis of a list that faults ends up faulted. -/
theorem State.forAll_faultAxis_faults (s : State) {xs : List AxisId} (e : Nat) {x : AxisId} (hx : x ∈ xs) :
    ((s.forAll xs fun u x => u.faultAxis x e).faultOn x).isSome = true := by
  refine State.forAll_reaches (fun x t => (t.faultOn x).isSome = true) (fun t x => (t.faultOn_faultAt ..).1)
    (fun t x y faulted => ?_) s x hx
  by_cases same : y = x
  · exact same ▸ (t.faultOn_faultAt ..).1
  · exact ((t.faultOn_faultAt ..).2 y same).symm ▸ faulted

/-- The state in which the axes that correct by channel `c` are faulted by event `e`, and the event is told. -/
def State.correctorsFault (s : State) (c : Fin 24) (e : Nat) (d0 d1 : Word) : State :=
  (s.forAll ((s.fbAxes c).filter fun x => (s.ax.get x).fbA.corr == 1) fun u x => u.faultAxis x e).raise e (fbUnit c) d0 d1

theorem State.correctorsFault_does (s : State) (c : Fin 24) {e : Nat} (high : 32 ≤ e) (d0 d1 : Word) :
    let t := s.correctorsFault c e d0 d1
    t.fbc = s.fbc ∧ t.rb Adr.EVT_PEND_HI (e % 32) = true ∧
      ∀ x : AxisId, (s.ax.get x).fbA.chan = c.val → (s.ax.get x).fbA.corr = 1 → (t.ax.get x).tt.faulted.isSome = true := by
  intro t
  have within : Within true s t := within_raise (within_forAll (.refl true s) fun _ x k => within_faultAxis k x e) ..
  refine ⟨within.fbc, State.rb_raise_hi _ high .., fun x chan corr => ?_⟩
  have named : x ∈ (s.fbAxes c).filter fun x => (s.ax.get x).fbA.corr == 1 := by
    simp [State.fbAxes, chan, corr]
  have ax : t.ax = _ := (tells_raise ..).ax
  rw [ax]
  exact s.forAll_faultAxis_faults e named

/-! ### Transitions in quadrature (R287, R288) -/

theorem evReg_fbStat (c : Fin 24) : evReg (Adr.FB_STAT c) = false := evReg_of_above (by simp only [Adr.FB_STAT]; omega)

/-- An illegal transition sets LOST and its sticky bit, keeps the count, and is told once in its window (R288, R309). -/
theorem State.illegal_does (s : State) (c : Fin 24) : let t := s.illegal c
    (t.fbc.get c).count = (s.fbc.get c).count ∧ (t.fbc.get c).lost = true ∧ t.rb (Adr.FB_STAT c) 10 = true ∧ t.ax = s.ax ∧
      ((s.fbc.get c).illSeen = false → t.rb Adr.EVT_PEND_HI 4 = true) := by
  unfold State.illegal
  extract_lets u h t
  have channel : u.fbc.get c = { s.fbc.get c with lost := true } :=
    s.get_modFbc_self c fun h => { h with lost := true }
  have sticky : u.rb (Adr.FB_STAT c) 10 = true := by
    have apart : Adr.FB_STAT c ≠ Adr.FB_ILLCNT c := by simp only [Adr.FB_STAT, Adr.FB_ILLCNT]; omega
    exact (congrArg (bitOf · 10) (State.reg_setReg_other _ _ apart)).trans (State.rb_orReg_self _ _ (k := 10) (by decide))
  have seen : h.illSeen = (s.fbc.get c).illSeen := by rw [show h = _ from channel]
  unfold t
  split
  case isTrue again =>
    rw [channel]
    exact ⟨rfl, rfl, sticky, rfl, fun first => by simp [seen, first] at again⟩
  case isFalse first =>
    generalize hw : (u.modFbc c fun h => { h with illSeen := true }) = w
    have within : Within true w (w.raise 36 (fbUnit c) (u.reg (Adr.FB_ILLCNT c)) (wdI h.count)) := within_raise (.refl true w) ..
    refine ⟨?_, ?_, ?_, ?_, fun _ => State.rb_raise_hi _ (e := 36) (by decide) ..⟩
    · rw [within.fbc, ← hw, State.get_modFbc_self, channel]
    · rw [within.fbc, ← hw, State.get_modFbc_self, channel]
    · rw [State.rb, within.reg rfl _ (evReg_fbStat c), ← hw]
      exact sticky
    · exact (tells_raise ..).ax.trans (by rw [← hw]; rfl)

section

variable {s : State} {c : Fin 24} {a b : Bool} (k : Nat) (on : s.sys.powered = true) (mode : s.fbMode c = 2)
include on mode

/-- A channel that is not VALID, or lines that stay, count nothing. -/
theorem exec_fbStateChange_idle (idle : (s.fbc.get c).valid = false ∨ lineState a b = (s.fbc.get c).st) :
    exec (.fbStateChange c a b k) s = .next (s.modFbc c fun h => { h with st := lineState a b }) := by
  refine congrArg Host.Outcome.next ?_
  rcases idle with invalid | same
  · simp [on, mode, invalid]
  · simp [on, mode, same]

variable (valid : (s.fbc.get c).valid = true)
include valid

/-- A legal transition counts one in its direction. -/
theorem exec_fbStateChange_legal {d : Int} (turn : lineState a b = (s.fbc.get c).st + 1 ∧ d = (if s.fbInv c then -1 else 1) ∨
      lineState a b = (s.fbc.get c).st + 3 ∧ d = -(if s.fbInv c then -1 else 1)) :
    exec (.fbStateChange c a b k) s = .next (
      (((s.modFbc c fun h => { h with st := lineState a b }).putCount c ((s.fbc.get c).count + d)).notePast c k none).forAll
        ((allFin 4).filter fun e => s.copies e c) fun u e => u.copyCount e d k) := by
  refine congrArg Host.Outcome.next ?_
  rcases turn with ⟨next, rfl⟩ | ⟨last, rfl⟩
  · simp [on, mode, valid, next]
  · have back : (lineState a b - (s.fbc.get c).st).toNat = 3 := by rw [last]; simp
    have down : (if s.fbInv c then - -1 else -1 : Int) = -(if s.fbInv c then -1 else 1) := by split <;> rfl
    simp only [on, mode, valid, back, down]
    simp

theorem exec_fbStateChange_illegal (across : lineState a b = (s.fbc.get c).st + 2) :
    exec (.fbStateChange c a b k) s = .next ((s.modFbc c fun h => { h with st := lineState a b }).illegal c) := by
  refine congrArg Host.Outcome.next ?_
  simp [on, mode, valid, across]

end

/-! ### Conversions (R289, R290, R293) -/

/-- The conversions in a row whose amplitude lies outside its window, with one of the pair `p`. -/
def State.outsideRow (s : State) (c : Fin 24) (p : Int × Int) : Nat :=
  if s.amplitudeOk c p then 0 else min 3 ((s.fbc.get c).ampOut + 1)

/-- The state with a conversion's phase and amplitude stored. -/
def State.converted (s : State) (c : Fin 24) (p : Int × Int) : State :=
  s.modFbc c fun h => { h with phi := phaseOfPair p, amp := satU 12 (amplitudeOf p), ampOut := s.outsideRow c p }

theorem State.get_converted (s : State) (c : Fin 24) (p : Int × Int) : (s.converted c p).fbc.get c =
    { s.fbc.get c with phi := phaseOfPair p, amp := satU 12 (amplitudeOf p), ampOut := s.outsideRow c p } :=
  s.get_modFbc_self c fun h => { h with phi := phaseOfPair p, amp := satU 12 (amplitudeOf p), ampOut := s.outsideRow c p }

/-- The step of the phase of a conversion from the last one, the shorter way round (R289). -/
def State.phaseStep (s : State) (c : Fin 24) (p : Int × Int) : Int := Int.fmod (phaseOfPair p - (s.fbc.get c).phi + 2048) 4096 - 2048

/-- The state in which a conversion has moved the count of a VALID channel, or was an illegal transition. -/
def State.conversionMoved (s : State) (c : Fin 24) (p : Int × Int) : State :=
  if (s.phaseStep c p).natAbs ≤ 1024 then
    (s.converted c p).moveCount c (if s.fbInv c then -s.phaseStep c p else s.phaseStep c p) (s.phaseBits c (phaseOfPair p))
  else ((s.converted c p).putCount c (withLow (s.fbc.get c).count (s.phaseBits c (phaseOfPair p)))).illegal c

section

variable {s : State} {c : Fin 24} {ca cb : Nat} {p : Int × Int} (k : Nat) (pair : s.sinCos c ca cb = p) (on : s.sys.powered = true)
  (mode : s.fbMode c = 1)
include pair on mode

/-- The third conversion in a row outside the window is a failure of the amplitude check, and counts nothing. -/
theorem exec_fbSincosConversion_third (third : s.outsideRow c p = 3) (before : (s.fbc.get c).ampOut < 3) :
    exec (.fbSincosConversion c ca cb k) s = .next ((s.converted c p).wireFail c 0 true) := by
  subst pair
  exact congrArg Host.Outcome.next ((if_neg (by simp [on, mode])).trans (if_pos ⟨third, before⟩))

variable (other : s.outsideRow c p < 3 ∨ 3 ≤ (s.fbc.get c).ampOut)
include other

theorem exec_fbSincosConversion_invalid (invalid : (s.fbc.get c).valid = false) :
    exec (.fbSincosConversion c ca cb k) s = .next (s.converted c p) := by
  subst pair
  exact congrArg Host.Outcome.next ((if_neg (by simp [on, mode])).trans ((if_neg (by unfold State.outsideRow at other; omega)).trans
    (if_pos (by simp [invalid]))))

variable (valid : (s.fbc.get c).valid = true)
include valid

theorem exec_fbSincosConversion_valid : exec (.fbSincosConversion c ca cb k) s = .next ((s.conversionMoved c p).notePast c k
    (some (((s.conversionMoved c p).fbc.get c).count - (s.fbc.get c).count))) := by
  subst pair
  exact congrArg Host.Outcome.next ((if_neg (by simp [on, mode])).trans ((if_neg (by unfold State.outsideRow at other; omega)).trans
    (if_neg (by simp [valid]))))

end

/-- A short step of the phase of a channel held at no limit moves its count by that step (R289). -/
theorem State.conversionMoved_short {s : State} {c : Fin 24} {p : Int × Int} {v : Int} (short : (s.phaseStep c p).natAbs ≤ 1024)
    (noLo : (s.fbc.get c).satLo = false) (noHi : (s.fbc.get c).satHi = false)
    (count : v = (s.fbc.get c).count + (if s.fbInv c then -s.phaseStep c p else s.phaseStep c p)) (low : s.slMin c ≤ v)
    (high : v ≤ s.slMax c) : s.conversionMoved c p =
      (s.converted c p).modFbc c fun h => { h with count := v, satLo := false, satHi := false } := by
  subst count
  rw [State.conversionMoved, if_pos short, State.moveCount, s.get_converted, if_neg (by simp [noLo, noHi]),
    if_neg (by simp [noHi]), if_neg (by simp [noLo])]
  exact State.putCount_inside (s := s.converted c p) low high

/-- A step of the phase that is too long is an illegal transition (R290). -/
theorem State.conversionMoved_long {s : State} {c : Fin 24} {p : Int × Int} (long : 1024 < (s.phaseStep c p).natAbs) :
    ((s.conversionMoved c p).fbc.get c).lost = true ∧ (s.conversionMoved c p).rb (Adr.FB_STAT c) 10 = true ∧
      (s.conversionMoved c p).ax = s.ax := by
  rw [State.conversionMoved, if_neg (Nat.not_le.2 long)]
  obtain ⟨-, lost, sticky, ax, -⟩ := ((s.converted c p).putCount c (withLow (s.fbc.get c).count
    (s.phaseBits c (phaseOfPair p)))).illegal_does c
  exact ⟨lost, sticky, ax.trans (State.putCount_ax ..)⟩

/-! ### Wire checks (R292 to R294) -/

/-- The state in which a channel has lost VALID, and is not being checked. -/
def State.invalidated (s : State) (c : Fin 24) : State :=
  s.modFbc c fun h => { h with valid := false, lost := true, check := false, reval := false }

/-- A check that fails ends VALID, faults the axes that correct by the channel, and is told (R294, R103). -/
theorem State.wireFail_does {s : State} {c : Fin 24} (valid : (s.fbc.get c).valid = true) (pair : Fin 3) (amplitude : Bool) :
    let t := s.wireFail c pair amplitude
    (t.fbc.get c).valid = false ∧ (t.fbc.get c).lost = true ∧ (t.fbc.get c).count = (s.fbc.get c).count ∧
      t.rb Adr.EVT_PEND_HI 3 = true ∧
      ∀ x : AxisId, (s.ax.get x).fbA.chan = c.val → (s.ax.get x).fbA.corr = 1 → (t.ax.get x).tt.faulted.isSome = true := by
  have fails : ∃ d0 d1, s.wireFail c pair amplitude = (s.invalidated c).correctorsFault c 35 d0 d1 := ⟨_, _, if_pos valid⟩
  obtain ⟨d0, d1, fails⟩ := fails
  obtain ⟨channels, pending, faulted⟩ := (s.invalidated c).correctorsFault_does c (e := 35) (by decide) d0 d1
  dsimp only
  rw [fails, channels, State.invalidated, State.get_modFbc_self]
  exact ⟨rfl, rfl, rfl, pending, faulted⟩

theorem exec_fbWireCheckFail {s : State} {c : Fin 24} {pair : Fin 3} {amp : Bool} (on : s.sys.powered = true)
    (running : s.fbMode c ≠ 0) (amplitude : amp = true → s.fbMode c = 1 ∧ (s.fbc.get c).ampOut = 3)
    (zPair : amp = false → pair = 2 → s.rb (Adr.FB_IDX_CFG c) 0 = true) :
    exec (.fbWireCheckFail c pair amp) s = .next (s.wireFail c pair amp) :=
  congrArg Host.Outcome.next (if_neg (by simpa [on, running] using ⟨amplitude, zPair⟩))

/-- The state in which the checks of a channel have passed. -/
def State.checked (s : State) (c : Fin 24) : State := s.modFbc c fun h => { h with valid := true, check := false, reval := false }

theorem exec_fbChannelValid {s : State} {c : Fin 24} (on : s.sys.powered = true) (running : s.fbMode c ≠ 0)
    (checks : (s.fbc.get c).check = true) (amplitude : s.fbMode c = 1 → (s.fbc.get c).ampOut = 0) :
    exec (.fbChannelValid c) s = .next ((if s.fbMode c = 1 then
      (s.checked c).putCount c (withLow (s.fbc.get c).count (s.phaseBits c (s.fbc.get c).phi)) else s.checked c).noteNow c) :=
  congrArg Host.Outcome.next (if_pos ⟨on, running, checks, amplitude⟩)

theorem exec_fbChannelValid_unchecked {s : State} {c : Fin 24} (checks : (s.fbc.get c).check = false) :
    exec (.fbChannelValid c) s = .next s := congrArg Host.Outcome.next (if_neg (by simp [checks]))

/-! ### The index (R296) -/

/-- The state in which the Z pair stands at a level, and the outputs that copy the channel follow it (R306). -/
def State.zTaken (s : State) (c : Fin 24) (z : Bool) (k : Nat) : State :=
  (s.modFbc c fun h => { h with z := z }).forAll ((allFin 4).filter fun e => s.copies e c) fun u e => u.copyZ e z k

theorem State.zTaken_drives (s : State) (c : Fin 24) (z : Bool) (k : Nat) :
    Drives (s.modFbc c fun h => { h with z := z }) (s.zTaken c z k) := .forAll (fun _ _ => State.copyZ_drives ..) _

theorem State.get_zTaken (s : State) (c : Fin 24) (z : Bool) (k : Nat) : (s.zTaken c z k).fbc.get c = { s.fbc.get c with z := z } := by
  rw [(s.zTaken_drives c z k).fbc, State.get_modFbc_self]

theorem State.reg_zTaken (s : State) (c : Fin 24) (z : Bool) (k a : Nat) : (s.zTaken c z k).reg a = s.reg a :=
  (s.zTaken_drives c z k).reg a

/-- The state in which an index is counted, and its sticky bit set. -/
def State.indexCounted (s : State) (c : Fin 24) : State :=
  (s.setReg (Adr.FB_IDXCNT c) (s.reg (Adr.FB_IDXCNT c) + 1)).orReg (Adr.FB_STAT c) 512

theorem State.reg_indexCounted_self (s : State) (c : Fin 24) :
    (s.indexCounted c).reg (Adr.FB_IDXCNT c) = s.reg (Adr.FB_IDXCNT c) + 1 := by
  rw [State.indexCounted, State.orReg, State.reg_setReg_other _ _ (by simp only [Adr.FB_IDXCNT, Adr.FB_STAT]; omega),
    State.reg_setReg_self]

theorem State.reg_indexCounted_other (s : State) (c : Fin 24) {a : Nat} (notStat : a ≠ Adr.FB_STAT c) (notCount : a ≠ Adr.FB_IDXCNT c) :
    (s.indexCounted c).reg a = s.reg a := by
  rw [State.indexCounted, State.orReg, State.reg_setReg_other _ _ notStat, State.reg_setReg_other _ _ notCount]

/-- The channel, and the registers that an index is judged by, where the index is counted. -/
theorem State.indexCounted_zTaken (s : State) (c : Fin 24) (z : Bool) (k : Nat) : let t := (s.zTaken c z k).indexCounted c
    t.fbc.get c = { s.fbc.get c with z := z } ∧ t.ax = s.ax ∧ t.reg (Adr.FB_IDXCNT c) = s.reg (Adr.FB_IDXCNT c) + 1 ∧
      t.fbMode c = s.fbMode c ∧ t.reg (Adr.FB_IDX_CFG c) = s.reg (Adr.FB_IDX_CFG c) ∧
      t.reg (Adr.FB_IDX_TOL c) = s.reg (Adr.FB_IDX_TOL c) ∧ t.reg (Adr.FB_IDX_PERIOD c) = s.reg (Adr.FB_IDX_PERIOD c) := by
  intro t
  have same {a : Nat} (notStat : a ≠ Adr.FB_STAT c) (notCount : a ≠ Adr.FB_IDXCNT c) : t.reg a = s.reg a :=
    (State.reg_indexCounted_other _ c notStat notCount).trans (s.reg_zTaken ..)
  refine ⟨s.get_zTaken c z k, (s.zTaken_drives c z k).ax, ?_, ?_, ?_, ?_, ?_⟩
  · rw [State.reg_indexCounted_self, State.reg_zTaken]
  · rw [State.fbMode, State.rf, same (by simp only [Adr.FB_CFG, Adr.FB_STAT]; omega) (by simp only [Adr.FB_CFG, Adr.FB_IDXCNT]; omega)]
    rfl
  · exact same (by simp only [Adr.FB_IDX_CFG, Adr.FB_STAT]; omega) (by simp only [Adr.FB_IDX_CFG, Adr.FB_IDXCNT]; omega)
  · exact same (by simp only [Adr.FB_IDX_TOL, Adr.FB_STAT]; omega) (by simp only [Adr.FB_IDX_TOL, Adr.FB_IDXCNT]; omega)
  · exact same (by simp only [Adr.FB_IDX_PERIOD, Adr.FB_STAT]; omega) (by simp only [Adr.FB_IDX_PERIOD, Adr.FB_IDXCNT]; omega)

section

variable {s : State} {c : Fin 24} {z : Bool} (k : Nat) (on : s.sys.powered = true)
include on

/-- A level of Z that is no index is taken, and nothing else. -/
theorem exec_indexQualified_none (idle : s.fbMode c = 0 ∨ (s.fbc.get c).valid = false ∨ s.rb (Adr.FB_IDX_CFG c) 0 = false ∨
    z = s.rb (Adr.FB_IDX_CFG c) 3) : exec (.indexQualified c ⟨z, k⟩) s = .next (s.zTaken c z k) := by
  refine congrArg Host.Outcome.next ((if_neg (by simp [on])).trans (if_neg fun ⟨mode, valid, enabled, qualifies⟩ => ?_))
  change (s.zTaken c z k).fbMode c ≠ 0 at mode
  change ((s.zTaken c z k).fbc.get c).valid = true at valid
  change (s.zTaken c z k).rb (Adr.FB_IDX_CFG c) 0 = true at enabled
  change (s.zTaken c z k).indexQualifies c = true at qualifies
  rw [State.fbMode, State.rf, s.reg_zTaken] at mode
  rw [s.get_zTaken] at valid
  rw [State.rb, s.reg_zTaken] at enabled
  simp only [State.indexQualifies, s.get_zTaken, State.rb, s.reg_zTaken, Bool.and_eq_true, bne_iff_ne] at qualifies
  obtain ⟨active, -⟩ := qualifies
  rcases idle with off | invalid | disabled | same
  · exact mode off
  · simp [invalid] at valid
  · exact absurd enabled (by rw [show bitOf (s.reg (Adr.FB_IDX_CFG c)) 0 = false from disabled]; decide)
  · exact active same

variable (mode : s.fbMode c = 2) (valid : (s.fbc.get c).valid = true) (enabled : s.rb (Adr.FB_IDX_CFG c) 0 = true)
  (active : z ≠ s.rb (Adr.FB_IDX_CFG c) 3)
  (gate : 4 ≤ s.rf (Adr.FB_IDX_CFG c) 6 4 ∨ (s.fbc.get c).st.toNat = s.rf (Adr.FB_IDX_CFG c) 6 4)
include mode valid enabled active gate

/-- An index is counted, and judged by the count on it. -/
theorem exec_indexQualified_judged : exec (.indexQualified c ⟨z, k⟩) s = .next (
    if ¬ (s.fbc.get c).refd then (((s.zTaken c z k).indexCounted c).firstIndex c (s.fbc.get c).count).notePast c k none
    else if (s.fbc.get c).suspect then (s.zTaken c z k).indexCounted c
    else (((s.zTaken c z k).indexCounted c).checkIndex c (s.fbc.get c).count).notePast c k none) := by
  obtain ⟨channel, -, -, stays, cfg, -, -⟩ := s.indexCounted_zTaken c z k
  have taken : (s.zTaken c z k).fbMode c = 2 := by rw [State.fbMode, State.rf, s.reg_zTaken]; exact mode
  have qualifies : (s.zTaken c z k).indexQualifies c = true := by
    simp only [State.indexQualifies, s.get_zTaken, State.rb, State.rf, s.reg_zTaken, taken]
    simp only [State.rb, State.rf] at active gate
    simpa [active] using gate
  have here : (s.zTaken c z k).fbMode c ≠ 0 ∧ ((s.zTaken c z k).fbc.get c).valid = true ∧
      (s.zTaken c z k).rb (Adr.FB_IDX_CFG c) 0 = true ∧ (s.zTaken c z k).indexQualifies c = true := by
    refine ⟨by rw [taken]; decide, by rw [s.get_zTaken]; exact valid, ?_, qualifies⟩
    rw [State.rb, s.reg_zTaken]
    exact enabled
  have count : ((s.zTaken c z k).indexCounted c).indexCount c = (s.fbc.get c).count := by
    rw [State.indexCount, stays, mode]
    simp [channel]
  refine congrArg Host.Outcome.next ((if_neg (by simp [on])).trans ((if_pos here).trans ?_))
  change (if ¬ ((s.zTaken c z k).fbc.get c).refd = true then (((s.zTaken c z k).indexCounted c).firstIndex c
      (((s.zTaken c z k).indexCounted c).indexCount c)).notePast c k none
    else if ((s.zTaken c z k).fbc.get c).suspect = true then (s.zTaken c z k).indexCounted c
    else (((s.zTaken c z k).indexCounted c).checkIndex c (((s.zTaken c z k).indexCounted c).indexCount c)).notePast c k none) = _
  rw [s.get_zTaken, count]

end

/-- A first index without HOME takes the count as its reference (R296). -/
theorem State.firstIndex_plain {s : State} {c : Fin 24} (v : Int) (home : s.rb (Adr.FB_IDX_CFG c) 2 = false) :
    s.firstIndex c v = s.modFbc c fun h => { h with org := v, refd := true } := if_neg (by simp [home])

/-- The expected count of an index at `v`. -/
def State.expected (s : State) (c : Fin 24) (v : Int) : Int := expectedIndex (s.fbc.get c).org v (s.reg (Adr.FB_IDX_PERIOD c)).toNat

/-- An index where it is expected shows that no count is lost (R296). -/
theorem State.checkIndex_exact {s : State} {c : Fin 24} {v : Int} (there : v = s.expected c v) :
    s.checkIndex c v = (s.modFbc c fun h => { h with delta := 0 }).modFbc c fun h => { h with lost := false } := by
  have zero : v - s.expected c v = 0 := by omega
  refine (if_pos zero).trans ?_
  change (s.modFbc c fun h => { h with delta := satS 32 (v - s.expected c v) }).modFbc c (fun h => { h with lost := false }) = _
  rw [zero]
  rfl

/-- The state in which a channel is suspect, its deviation stored. -/
def State.suspected (s : State) (c : Fin 24) (d : Int) : State :=
  (s.modFbc c fun h => { h with delta := satS 32 d }).modFbc c fun h => { h with suspect := true }

/-- An index too far from where it is expected makes the channel suspect, and faults the axes that correct by it (R296, R103). -/
theorem State.checkIndex_far {s : State} {c : Fin 24} {v : Int}
    (far : indexTol (s.rf (Adr.FB_IDX_TOL c) 15 0) (s.reg (Adr.FB_IDX_PERIOD c)).toNat < (v - s.expected c v).natAbs) : ∃ d0 d1,
    s.checkIndex c v = (s.suspected c (v - s.expected c v)).correctorsFault c 38 d0 d1 := by
  have away : v - s.expected c v ≠ 0 := by omega
  exact ⟨_, _, (if_neg away).trans (if_neg (Nat.not_le.2 far))⟩

/-! ### Position feedback -/

section

variable (s : State) (c : Fin 24) (k : Nat) (on : s.sys.powered = true)
include on

/-- A legal transition counts one in its direction (R287). -/
theorem legalTransition_does {a b : Bool} {d : Int} (mode : s.fbMode c = 2) (valid : (s.fbc.get c).valid = true)
    (turn : lineState a b = (s.fbc.get c).st + 1 ∧ d = (if s.fbInv c then -1 else 1) ∨
      lineState a b = (s.fbc.get c).st + 3 ∧ d = -(if s.fbInv c then -1 else 1))
    (low : s.slMin c ≤ (s.fbc.get c).count + d) (high : (s.fbc.get c).count + d ≤ s.slMax c) :
    Completes (.fbStateChange c a b k) s fun t => (t.fbc.get c).count = (s.fbc.get c).count + d ∧
      (t.fbc.get c).lost = (s.fbc.get c).lost ∧ (t.fbc.get c).st = lineState a b ∧ t.regs = s.regs ∧ t.ax = s.ax := by
  refine completes_of_exec (exec_fbStateChange_legal k on mode valid turn) ?_
  rw [State.putCount_inside (s := s.modFbc c _) low high]
  obtain ⟨p, note⟩ := State.notePast_eq ((s.modFbc c fun h => { h with st := lineState a b }).modFbc c
    fun h => { h with count := (s.fbc.get c).count + d, satLo := false, satHi := false }) c k none
  rw [note]
  have drives := Drives.forAll (l := (allFin 4).filter fun e => s.copies e c) (fun t e => t.copyCount_drives e d k)
  rw [(drives _).fbc, (drives _).regs, (drives _).ax, State.get_modFbc_self, State.get_modFbc_self, State.get_modFbc_self]
  exact ⟨rfl, rfl, rfl, rfl, rfl⟩

/-- A conversion that is not the third in a row outside its window stores its phase and amplitude, and its step counts (R289, R290). -/
theorem conversion_does {ca cb : Nat} {p : Int × Int} (pair : s.sinCos c ca cb = p) (mode : s.fbMode c = 1)
    (other : s.outsideRow c p < 3 ∨ 3 ≤ (s.fbc.get c).ampOut) {v : Int}
    (count : v = (s.fbc.get c).count + (if s.fbInv c then -s.phaseStep c p else s.phaseStep c p)) :
    ((s.fbc.get c).valid = false → Completes (.fbSincosConversion c ca cb k) s fun t => (t.fbc.get c).phi = phaseOfPair p ∧
      (t.fbc.get c).count = (s.fbc.get c).count ∧ (t.fbc.get c).amp = satU 12 (amplitudeOf p) ∧
      (t.fbc.get c).ampOut = s.outsideRow c p ∧ t = { s with fbc := t.fbc }) ∧
    ((s.fbc.get c).valid = true → (s.fbc.get c).satLo = false → (s.fbc.get c).satHi = false → (s.phaseStep c p).natAbs ≤ 1024 →
      s.slMin c ≤ v → v ≤ s.slMax c → Completes (.fbSincosConversion c ca cb k) s fun t => (t.fbc.get c).phi = phaseOfPair p ∧
        (t.fbc.get c).count = v ∧ (t.fbc.get c).amp = satU 12 (amplitudeOf p) ∧ (t.fbc.get c).lost = (s.fbc.get c).lost ∧
        t = { s with fbc := t.fbc }) ∧
    ((s.fbc.get c).valid = true → 1024 < (s.phaseStep c p).natAbs → Completes (.fbSincosConversion c ca cb k) s fun t =>
      (t.fbc.get c).lost = true ∧ t.rb (Adr.FB_STAT c) 10 = true ∧ t.ax = s.ax) := by
  refine ⟨fun invalid => ?_, fun valid noLo noHi short low high => ?_, fun valid long => ?_⟩
  · refine completes_of_exec (exec_fbSincosConversion_invalid k pair on mode other invalid) ?_
    rw [s.get_converted]
    exact ⟨rfl, rfl, rfl, rfl, rfl⟩
  · refine completes_of_exec (exec_fbSincosConversion_valid k pair on mode other valid) ?_
    obtain ⟨q, note⟩ := (s.conversionMoved c p).notePast_eq c k (some (((s.conversionMoved c p).fbc.get c).count - (s.fbc.get c).count))
    rw [note, State.conversionMoved_short short noLo noHi count low high, State.get_modFbc_self, State.get_modFbc_self, s.get_converted]
    exact ⟨rfl, rfl, rfl, rfl, rfl⟩
  · refine completes_of_exec (exec_fbSincosConversion_valid k pair on mode other valid) ?_
    obtain ⟨q, note⟩ := (s.conversionMoved c p).notePast_eq c k (some (((s.conversionMoved c p).fbc.get c).count - (s.fbc.get c).count))
    obtain ⟨lost, sticky, ax⟩ := State.conversionMoved_long long
    rw [note, State.get_modFbc_self]
    exact ⟨lost, sticky, ax⟩

/-- Checks that have passed make the channel VALID; in mode 1 its count takes the phase, held at the limits (R286, R294, R295). -/
theorem checksPassed_does (running : s.fbMode c ≠ 0) (checks : (s.fbc.get c).check = true)
    (amplitude : s.fbMode c = 1 → (s.fbc.get c).ampOut = 0) (ordered : s.slMin c ≤ s.slMax c) {v : Int}
    (low : withLow (s.fbc.get c).count (s.phaseBits c (s.fbc.get c).phi) = v) :
    Completes (.fbChannelValid c) s fun t => (t.fbc.get c).valid = true ∧ (t.fbc.get c).check = false ∧ t.ax = s.ax ∧
      (t.fbc.get c).count = (if s.fbMode c = 1 then clampInt (s.slMin c) (s.slMax c) v else (s.fbc.get c).count) ∧
      (s.fbMode c = 1 → (t.fbc.get c).satHi = decide (s.slMax c < v) ∧ (t.fbc.get c).satLo = decide (v < s.slMin c)) ∧
      (s.fbMode c ≠ 1 ∨ (s.slMin c ≤ v ∧ v ≤ s.slMax c) → t = { s with fbc := t.fbc }) := by
  refine completes_of_exec (exec_fbChannelValid on running checks amplitude) ?_
  rw [low]
  by_cases sine : s.fbMode c = 1
  · rw [if_pos sine, if_pos sine]
    obtain ⟨p, note⟩ := ((s.checked c).putCount c v).noteNow_eq c
    rw [note, State.get_modFbc_self]
    obtain ⟨b, held⟩ := State.get_putCount (s := s.checked c) ordered v
    rw [held, State.checked, State.get_modFbc_self]
    refine ⟨rfl, rfl, State.putCount_ax .., rfl, fun _ => ⟨rfl, rfl⟩, fun inside => ?_⟩
    obtain ⟨low, high⟩ := inside.resolve_left (not_not.2 sine)
    rw [State.putCount_inside (s := s.modFbc c _) low high]
    rfl
  · rw [if_neg sine, if_neg sine]
    obtain ⟨p, note⟩ := (s.checked c).noteNow_eq c
    rw [note, State.get_modFbc_self, State.checked, State.get_modFbc_self]
    exact ⟨rfl, rfl, rfl, rfl, fun h => absurd h sine, fun _ => rfl⟩

/-- The level of Z is taken where it is no index (R294, R296). -/
theorem noIndex_does {z : Bool} (idle : s.fbMode c = 0 ∨ (s.fbc.get c).valid = false ∨ s.rb (Adr.FB_IDX_CFG c) 0 = false ∨
    z = s.rb (Adr.FB_IDX_CFG c) 3) : Completes (.indexQualified c ⟨z, k⟩) s fun t => (t.fbc.get c).z = z ∧
      (t.fbc.get c).count = (s.fbc.get c).count ∧ (t.fbc.get c).org = (s.fbc.get c).org ∧ t.regs = s.regs ∧ t.ax = s.ax := by
  refine completes_of_exec (exec_indexQualified_none k on idle) ?_
  rw [s.get_zTaken]
  exact ⟨rfl, rfl, rfl, (s.zTaken_drives c z k).regs, (s.zTaken_drives c z k).ax⟩

/-- An index is judged by what the channel knows (R296): a first one takes the count as its reference, one where it is expected clears
LOST, and one too far off makes the channel suspect. -/
theorem index_does {z : Bool} (mode : s.fbMode c = 2) (valid : (s.fbc.get c).valid = true) (enabled : s.rb (Adr.FB_IDX_CFG c) 0 = true)
    (active : z ≠ s.rb (Adr.FB_IDX_CFG c) 3)
    (gate : 4 ≤ s.rf (Adr.FB_IDX_CFG c) 6 4 ∨ (s.fbc.get c).st.toNat = s.rf (Adr.FB_IDX_CFG c) 6 4) {e : Int}
    (expected : e = expectedIndex (s.fbc.get c).org (s.fbc.get c).count (s.reg (Adr.FB_IDX_PERIOD c)).toNat) :
    ((s.fbc.get c).refd = false → s.rb (Adr.FB_IDX_CFG c) 2 = false → Completes (.indexQualified c ⟨z, k⟩) s fun t =>
      (t.fbc.get c).org = (s.fbc.get c).count ∧ (t.fbc.get c).refd = true ∧ (t.fbc.get c).count = (s.fbc.get c).count ∧
      t.reg (Adr.FB_IDXCNT c) = s.reg (Adr.FB_IDXCNT c) + 1) ∧
    ((s.fbc.get c).refd = true → (s.fbc.get c).suspect = false → (s.fbc.get c).count = e →
      Completes (.indexQualified c ⟨z, k⟩) s fun t => (t.fbc.get c).lost = false ∧ (t.fbc.get c).delta = 0 ∧
        (t.fbc.get c).count = (s.fbc.get c).count ∧ t.ax = s.ax) ∧
    ((s.fbc.get c).refd = true → (s.fbc.get c).suspect = false →
      indexTol (s.rf (Adr.FB_IDX_TOL c) 15 0) (s.reg (Adr.FB_IDX_PERIOD c)).toNat < ((s.fbc.get c).count - e).natAbs →
      Completes (.indexQualified c ⟨z, k⟩) s fun t => (t.fbc.get c).suspect = true ∧ (t.fbc.get c).count = (s.fbc.get c).count ∧
        t.rb Adr.EVT_PEND_HI 6 = true ∧ ∀ x : AxisId, (s.ax.get x).fbA.chan = c.val → (s.ax.get x).fbA.corr = 1 →
          (t.ax.get x).tt.faulted.isSome = true) := by
  have judged := exec_indexQualified_judged k on mode valid enabled active gate
  obtain ⟨channel, ax, cnt, -, cfg, tol, period⟩ := s.indexCounted_zTaken c z k
  generalize (s.zTaken c z k).indexCounted c = t at judged channel ax cnt cfg tol period
  have expects : t.expected c (s.fbc.get c).count = e := by rw [State.expected, channel, period, expected]
  refine ⟨fun first plain => ?_, fun later trusted same => ?_, fun later trusted far => ?_⟩
  · rw [if_pos (by simp [first]), State.firstIndex_plain _ (by rw [State.rb, cfg]; exact plain)] at judged
    obtain ⟨p, note⟩ := (t.modFbc c fun h => { h with org := (s.fbc.get c).count, refd := true }).notePast_eq c k none
    refine completes_of_exec judged ?_
    rw [note, State.get_modFbc_self, State.get_modFbc_self, channel]
    exact ⟨rfl, rfl, rfl, cnt⟩
  · rw [if_neg (by simp [later]), if_neg (by simp [trusted]), State.checkIndex_exact (by rw [expects]; exact same)] at judged
    obtain ⟨p, note⟩ := ((t.modFbc c fun h => { h with delta := 0 }).modFbc c fun h => { h with lost := false }).notePast_eq c k none
    refine completes_of_exec judged ?_
    rw [note, State.get_modFbc_self, State.get_modFbc_self, State.get_modFbc_self, channel]
    exact ⟨rfl, rfl, rfl, ax⟩
  · obtain ⟨d0, d1, suspects⟩ := State.checkIndex_far (s := t) (c := c) (v := (s.fbc.get c).count)
      (by rw [expects, State.rf, tol, period]; exact far)
    rw [if_neg (by simp [later]), if_neg (by simp [trusted]), suspects] at judged
    generalize hu : t.suspected c ((s.fbc.get c).count - t.expected c (s.fbc.get c).count) = u at judged
    obtain ⟨channels, pending, faulted⟩ := u.correctorsFault_does c (e := 38) (by decide) d0 d1
    obtain ⟨p, note⟩ := (u.correctorsFault c 38 d0 d1).notePast_eq c k none
    have axes : u.ax = s.ax := by rw [← hu]; exact ax
    rw [axes] at faulted
    refine completes_of_exec judged ?_
    rw [note, State.get_modFbc_self, channels, ← hu, State.suspected, State.get_modFbc_self, State.get_modFbc_self, channel]
    rw [← hu] at pending faulted
    exact ⟨rfl, rfl, pending, faulted⟩

end

/-- Settles O49, kind of input by kind of input. -/
theorem feedbackInputs : Obligations.FeedbackInputs := by
  unfold Obligations.FeedbackInputs
  intro s c k on h
  refine ⟨fun a b mode => ⟨exec_fbStateChange_idle k on mode, fun d valid turn low high => ?_, fun valid across => ?_⟩,
    fun ca cb mode => ⟨fun other => ?_, fun third before valid => ?_⟩, fun pair amp running valid amplitude zPair => ?_,
    fun running checks amplitude ordered => ?_, exec_fbChannelValid_unchecked, fun z => ⟨?_, ?_, ?_, noIndex_does s c k on⟩⟩
  · exact legalTransition_does s c k on mode valid turn low high
  · refine completes_of_exec (exec_fbStateChange_illegal k on mode valid across) ?_
    obtain ⟨count, lost, sticky, -, told⟩ := (s.modFbc c fun h => { h with st := lineState a b }).illegal_does c
    rw [State.get_modFbc_self] at count told
    exact ⟨count, lost, sticky, told⟩
  · exact conversion_does s c k on rfl mode other rfl
  · refine completes_of_exec (exec_fbSincosConversion_third k rfl on mode third before) ?_
    have does := State.wireFail_does (s := s.converted c (s.sinCos c ca cb)) (c := c) (by rw [s.get_converted]; exact valid) 0 true
    simp only [s.get_converted] at does
    exact does
  · exact completes_of_exec (exec_fbWireCheckFail on running amplitude zPair) (State.wireFail_does valid pair amp)
  · exact checksPassed_does s c on running checks amplitude ordered rfl
  · intro ⟨mode, valid, enabled, active, gate⟩
    obtain ⟨first, -, -⟩ := index_does s c k on mode valid enabled active gate rfl
    exact first
  · intro ⟨mode, valid, enabled, active, gate⟩
    obtain ⟨-, found, -⟩ := index_does s c k on mode valid enabled active gate rfl
    exact found
  · intro ⟨mode, valid, enabled, active, gate⟩
    obtain ⟨-, -, far⟩ := index_does s c k on mode valid enabled active gate rfl
    exact far

end Sys2Proof.Machine
end

section

namespace Sys2Proof.Machine

open Safety

/-! ### Registers that admin masters write (R396) -/

section

variable {s : State} {m : Master} {a rw prv w1c k : Nat}

theorem prvOf_of_rights (row : rights a = some (rw, prv, w1c)) : prvOf a = prv := by
  obtain ⟨r, found, same⟩ := Option.map_eq_some_iff.1 row
  rw [prvOf, found]
  exact congrArg (fun t => t.2.1) same

/-- What reaches a bit of a privileged field has admin rights, and is not counted. -/
theorem State.gate_of_privileged (h : Acts s m a k) (row : rights a = some (rw, prv, w1c)) (reach : prv &&& k ≠ 0) :
    m.admin = true ∧ s.gate m a k = (s, true) ∧ s.noted m a = s := by
  have adm := admin_of_acts h (by rwa [prvOf_of_rights row])
  have noted := s.noted_admin adm a
  exact ⟨adm, by rw [State.gate_of_reach h, noted], noted⟩

/-- A store puts the word written, and renews the parity of the register. -/
theorem State.storeWord_eq (s : State) (m : Master) (w : Word) (row : rights a = some (rw, prv, w1c)) :
    s.storeWord m a w = (s.setReg a (s.written m a w)).rewritten a := by
  obtain ⟨r, found, -⟩ := Option.map_eq_some_iff.1 row
  have stored : ∃ v, s.storeWord m a w = (s.setReg a v).rewritten a := by
    unfold State.storeWord
    rw [found]
    exact ⟨_, rfl⟩
  obtain ⟨v, stored⟩ := stored
  have word : s.written m a w = v := by
    rw [State.written, stored]
    exact State.reg_setReg_self ..
  rw [stored, word]

/-- An admin master writes every RW bit, as the register stores it. -/
theorem State.written_admin (w : Word) (row : rights a = some (rw, prv, 0)) (adm : m.admin = true) :
    s.written m a w = mergeW (s.reg a) (normalise a (mergeW (s.reg a) w rw)) rw := by
  obtain ⟨r, found, same⟩ := Option.map_eq_some_iff.1 row
  obtain ⟨rfl, -, clears⟩ : r.rw = rw ∧ r.prv = prv ∧ r.w1c = 0 := by simpa using same
  have kept (v : Word) : v &&& ~~~(w &&& wd 0) = v := by
    rw [show wd 0 = 0#32 from rfl, BitVec.and_zero]
    exact BitVec.and_allOnes
  simp only [State.written, State.storeWord, found, adm, if_true, clears, kept]
  exact State.reg_setReg_self ..

/-- A register that an admin master writes whole, and that stores what is written. -/
theorem State.written_whole (w : Word) (row : rights a = some (bits 31 0, prv, 0)) (plain : ∀ v, normalise a v = v) (adm : m.admin = true) :
    s.written m a w = w := by
  have whole (x y : Word) : mergeW x y (bits 31 0) = y := by
    rw [mergeW, show wd (bits 31 0) = BitVec.allOnes 32 from by decide, BitVec.and_allOnes, BitVec.not_allOnes, BitVec.and_zero,
      BitVec.zero_or]
  rw [State.written_admin w row adm, plain, whole, whole]

/-- A field that an admin master writes whole is that of the word as the register stores it. -/
theorem State.fld_written_admin {hi lo : Nat} (w : Word) (row : rights a = some (rw, prv, 0))
    (full : ∀ i < hi + 1 - lo, (wd rw).getLsbD (lo + i) = true) (top : hi < 32) (adm : m.admin = true) :
    fld (s.written m a w) hi lo = fld (normalise a (mergeW (s.reg a) w rw)) hi lo := by
  rw [State.written_admin w row adm, fld_mergeW_full full top]

end

/-! ### The registers of a channel (R286, R295, R297) -/

theorem rights_fbCfg (c : Fin 24) : rights (Adr.FB_CFG c) = some (bits 7 0, bits 7 0, 0) := by revert c; decide +kernel

theorem rights_fbCtl (c : Fin 24) : rights (Adr.FB_CTL c) = some (0, bits 1 0, 0) := by revert c; decide +kernel

theorem rights_idxCfg (c : Fin 24) : rights (Adr.FB_IDX_CFG c) = some (bits 6 0, bits 6 0, 0) := by revert c; decide +kernel

/-- The words of a channel that hold 32 bits: the period, and the low words of the reference and of the limits. -/
def fbLows (c : Fin 24) : List Nat := [Adr.FB_IDX_PERIOD c, Adr.FB_IDX_REF_LO c, Adr.FB_SLMIN_LO c, Adr.FB_SLMAX_LO c]

/-- The words of a channel that hold 16 bits: the tolerance, and the high words of the reference and of the limits. -/
def fbHighs (c : Fin 24) : List Nat := [Adr.FB_IDX_TOL c, Adr.FB_IDX_REF_LO c + 4, Adr.FB_SLMIN_LO c + 4, Adr.FB_SLMAX_LO c + 4]

theorem rights_fbLows (c : Fin 24) : ∀ a ∈ fbLows c, rights a = some (bits 31 0, bits 31 0, 0) := by revert c; decide +kernel

theorem rights_fbHighs (c : Fin 24) : ∀ a ∈ fbHighs c, rights a = some (bits 15 0, bits 15 0, 0) := by revert c; decide +kernel

/-- These words store what is written. -/
theorem normalise_fbLows (c : Fin 24) (w : Word) : ∀ a ∈ fbLows c, normalise a w = w := by
  simp only [fbLows, List.forall_mem_cons]
  fin_cases c <;> exact ⟨rfl, rfl, rfl, rfl, nofun⟩

theorem normalise_fbHighs (c : Fin 24) (w : Word) : ∀ a ∈ fbHighs c, normalise a w = w := by
  simp only [fbHighs, List.forall_mem_cons]
  fin_cases c <;> exact ⟨rfl, rfl, rfl, rfl, nofun⟩

theorem normalise_idxCfg (c : Fin 24) (w : Word) : normalise (Adr.FB_IDX_CFG c) w = holdFld w 6 4 0 4 := by
  fin_cases c <;> rfl

/-- The enables and the polarity of the index are stored as written, and its gate up to 4 (R297). -/
theorem State.fld_written_idxCfg (s : State) {m : Master} (c : Fin 24) (w : Word) (adm : m.admin = true) :
    fld (s.written m (Adr.FB_IDX_CFG c) w) 3 0 = fld w 3 0 ∧ fld (s.written m (Adr.FB_IDX_CFG c) w) 6 4 = min 4 (fld w 6 4) := by
  have low : ∀ i < 3 + 1 - 0, (wd (bits 6 0)).getLsbD (0 + i) = true := by decide +kernel
  have gate : ∀ i < 6 + 1 - 4, (wd (bits 6 0)).getLsbD (4 + i) = true := by decide +kernel
  rw [State.fld_written_admin w (rights_idxCfg c) low (by decide) adm, State.fld_written_admin w (rights_idxCfg c) gate (by decide) adm,
    normalise_idxCfg]
  constructor
  · have outside : ∀ i < 3 + 1 - 0, (wd (bits 6 4)).getLsbD (0 + i) = false := by decide +kernel
    rw [fld_congr fun i hi => getLsbD_holdFld _ (by omega) (outside i hi), fld_mergeW_full low (by decide)]
  · have inside : ∀ i < 6 + 1 - 4, (wd (bits 6 4)).getLsbD (4 + i) = true := by decide +kernel
    have held : fld (wd (min 4 (fld w 6 4) * 2 ^ 4)) 6 4 = min 4 (fld w 6 4) := by
      simp only [fld, wd, BitVec.toNat_ofNat]
      omega
    rw [holdFld, putFld, fld_mergeW_full inside (by decide), fld_mergeW_full gate (by decide)]
    simpa only [clampNat, Nat.zero_max, Nat.min_comm] using held

theorem State.written_fbLow (s : State) {m : Master} {c : Fin 24} {a : Nat} (low : a ∈ fbLows c) (w : Word) (adm : m.admin = true) :
    s.written m a w = w := State.written_whole w (rights_fbLows c a low) (fun v => normalise_fbLows c v a low) adm

theorem State.fld_written_fbHigh (s : State) {m : Master} {c : Fin 24} {a : Nat} (high : a ∈ fbHighs c) (w : Word) (adm : m.admin = true) :
    fld (s.written m a w) 15 0 = fld w 15 0 := by
  have full : ∀ i < 15 + 1 - 0, (wd (bits 15 0)).getLsbD (0 + i) = true := by decide +kernel
  rw [State.fld_written_admin w (rights_fbHighs c a high) full (by decide) adm, normalise_fbHighs c _ a high,
    fld_mergeW_full full (by decide)]

/-! ### Writes of feedback -/

section

variable {s : State} {m : Master} {c : Fin 24} (w : Word)

/-- CFG_IGNORED is set, and nothing else (R286, R295). -/
theorem State.fbIgnored_does (s : State) (c : Fin 24) : (s.fbIgnored c).rb (Adr.FB_STAT c) 11 = true ∧ (s.fbIgnored c).fbc = s.fbc ∧
    ∀ a, a ≠ Adr.FB_STAT c → (s.fbIgnored c).reg a = s.reg a :=
  ⟨State.rb_orReg_self _ _ (k := 11) (by decide), rfl, fun _ other => State.reg_setReg_other _ _ other⟩

/-- The state with a master's write of a register stored. -/
def State.stored (s : State) (m : Master) (a : Nat) (w : Word) : State := (s.setReg a (s.written m a w)).rewritten a

theorem State.reg_stored (s : State) (m : Master) (a : Nat) (w : Word) : (s.stored m a w).reg a = s.written m a w :=
  State.reg_setReg_self ..

/-- A write of FBc_CFG that acts (R286). -/
theorem exec_fbCfgWrite (acts : Acts s m (Adr.FB_CFG c) 0xFF) : exec (.fbCfgWrite m c w) s = .next (
    if s.fbMode c ≠ 0 ∧ fld (s.written m (Adr.FB_CFG c) w) 1 0 ≠ 0 then s.fbIgnored c
    else if fld (s.written m (Adr.FB_CFG c) w) 1 0 = s.fbMode c then s.stored m (Adr.FB_CFG c) w
    else (s.stored m (Adr.FB_CFG c) w).modFbc c fun h =>
      { h with valid := false, check := decide (fld (s.written m (Adr.FB_CFG c) w) 1 0 ≠ 0), reval := false, ampOut := 0 }) := by
  obtain ⟨-, gate, -⟩ := State.gate_of_privileged acts (rights_fbCfg c) (by decide)
  refine congrArg Host.Outcome.next ?_
  rw [State.fbCfgWrite, gate]
  dsimp only
  rw [if_neg (by decide), State.storeWord_eq s m w (rights_fbCfg c), State.stored]

/-- A mode that is not 0 does not change to another at once. -/
theorem fbCfgWrite_ignored (acts : Acts s m (Adr.FB_CFG c) 0xFF) (runs : s.fbMode c ≠ 0)
    (other : fld (s.written m (Adr.FB_CFG c) w) 1 0 ≠ 0) : Completes (.fbCfgWrite m c w) s fun t =>
      t.rb (Adr.FB_STAT c) 11 = true ∧ t.reg (Adr.FB_CFG c) = s.reg (Adr.FB_CFG c) ∧ t.fbc = s.fbc := by
  refine completes_of_exec (exec_fbCfgWrite w acts) ?_
  rw [if_pos ⟨runs, other⟩]
  obtain ⟨told, channels, regs⟩ := s.fbIgnored_does c
  exact ⟨told, regs _ (by simp only [Adr.FB_CFG, Adr.FB_STAT]; omega), channels⟩

/-- A mode that changes ends VALID, and the channel is checked where the new one is not 0. -/
theorem fbCfgWrite_changes (acts : Acts s m (Adr.FB_CFG c) 0xFF) {n : Nat} (mode : fld (s.written m (Adr.FB_CFG c) w) 1 0 = n)
    (byZero : s.fbMode c = 0 ∨ n = 0) (changes : n ≠ s.fbMode c) : Completes (.fbCfgWrite m c w) s fun t =>
      t.fbMode c = n ∧ (t.fbc.get c).valid = false ∧ (t.fbc.get c).check = decide (n ≠ 0) ∧
      (t.fbc.get c).count = (s.fbc.get c).count ∧ ∀ d : Fin 24, d ≠ c → t.fbc.get d = s.fbc.get d := by
  refine completes_of_exec (exec_fbCfgWrite w acts) ?_
  rw [mode, if_neg (by tauto), if_neg changes, State.get_modFbc_self]
  refine ⟨?_, rfl, rfl, rfl, fun d ne => State.get_modFbc_ne _ _ ne⟩
  exact (congrArg (fld · 1 0) (s.reg_stored m (Adr.FB_CFG c) w)).trans mode

/-- A REVAL that acts checks a channel that runs and is not VALID (R294). -/
theorem exec_fbReval (acts : Acts s m (Adr.FB_CTL c) 1) : exec (.fbReval m c) s = .next (
    if s.fbMode c ≠ 0 ∧ ¬ (s.fbc.get c).valid then s.modFbc c fun h => { h with check := true, reval := true, ampOut := 0 } else s) := by
  obtain ⟨-, -, noted⟩ := State.gate_of_privileged acts (rights_fbCtl c) (by decide)
  refine congrArg Host.Outcome.next ?_
  rw [noted, State.fbReval, acts.2]
  simp

theorem exec_fbSetcnt (acts : Acts s m (Adr.FB_CTL c) 2) {v : Int} (value : v = if s.fbMode c = 1 then
      withLow (s.reg48 (Adr.FB_SET_LO c)) (s.phaseBits c (s.fbc.get c).phi) else s.reg48 (Adr.FB_SET_LO c)) :
    exec (.fbSetcnt m c) s = .next
      (((s.modFbc c fun h => { h with lost := false, satLo := false, satHi := false }).putCount c v).noteNow c) := by
  obtain ⟨-, -, noted⟩ := State.gate_of_privileged acts (rights_fbCtl c) (by decide)
  refine congrArg Host.Outcome.next ?_
  rw [noted, State.fbSetcnt, if_neg (by rw [acts.2]; decide), value]

/-- SETCNT takes the value as the count, held at the limits, and clears LOST (R297). -/
theorem fbSetcnt_does (acts : Acts s m (Adr.FB_CTL c) 2) (ordered : s.slMin c ≤ s.slMax c) {v : Int} (value : v = if s.fbMode c = 1 then
      withLow (s.reg48 (Adr.FB_SET_LO c)) (s.phaseBits c (s.fbc.get c).phi) else s.reg48 (Adr.FB_SET_LO c)) :
    Completes (.fbSetcnt m c) s fun t => (t.fbc.get c).count = clampInt (s.slMin c) (s.slMax c) v ∧ t.ax = s.ax ∧
      (s.slMin c ≤ v → v ≤ s.slMax c → (t.fbc.get c).lost = false ∧ (t.fbc.get c).satLo = false ∧ (t.fbc.get c).satHi = false) := by
  refine completes_of_exec (exec_fbSetcnt acts value) ?_
  generalize hu : (s.modFbc c fun h => { h with lost := false, satLo := false, satHi := false }) = u
  have channel : u.fbc.get c = { s.fbc.get c with lost := false, satLo := false, satHi := false } := by
    rw [← hu]; exact s.get_modFbc_self c fun h => { h with lost := false, satLo := false, satHi := false }
  have limits : u.slMin c = s.slMin c ∧ u.slMax c = s.slMax c ∧ u.ax = s.ax := by rw [← hu]; exact ⟨rfl, rfl, rfl⟩
  obtain ⟨lo, hi, ax⟩ := limits
  obtain ⟨p, note⟩ := (u.putCount c v).noteNow_eq c
  obtain ⟨b, held⟩ := State.get_putCount (s := u) (c := c) (by rw [lo, hi]; exact ordered) v
  rw [note, State.get_modFbc_self]
  refine ⟨by rw [held, lo, hi], (u.putCount_ax c v).trans ax, fun low high => ?_⟩
  rw [State.putCount_inside (by rw [lo]; exact low) (by rw [hi]; exact high), State.get_modFbc_self, channel]
  exact ⟨rfl, rfl, rfl⟩

end

theorem exec_fbSuspectClear {s : State} {m : Master} {c : Fin 24} (acts : Acts s m (Adr.FB_STAT c) 16) :
    exec (.fbSuspectClear m c) s = .next (s.modFbc c fun h => { h with suspect := false, refd := false }) :=
  congrArg Host.Outcome.next (if_pos acts.2)

/-! #### Index settings and soft limits (R295, R297) -/

/-- The index settings of a channel. -/
def idxRegs (c : Fin 24) : List Nat :=
  [Adr.FB_IDX_CFG c, Adr.FB_IDX_TOL c, Adr.FB_IDX_PERIOD c, Adr.FB_IDX_REF_LO c, Adr.FB_IDX_REF_LO c + 4]

/-- The words of a channel's soft limits. -/
def limitRegs (c : Fin 24) : List Nat := [Adr.FB_SLMIN_LO c, Adr.FB_SLMIN_LO c + 4, Adr.FB_SLMAX_LO c, Adr.FB_SLMAX_LO c + 4]

theorem idxRegs_of (c : Fin 24) : ∀ a ∈ idxRegs c, isIdxReg a = true ∧ fbOf a = c := by revert c; decide +kernel

theorem limitRegs_of (c : Fin 24) : ∀ a ∈ limitRegs c, isLimitReg a = true ∧ fbOf a = c ∧ a ≠ Adr.FB_STAT c := by
  revert c; decide +kernel

/-- Every setting is privileged. -/
theorem rights_settings (c : Fin 24) {a : Nat} (setting : a ∈ idxRegs c ∨ a ∈ limitRegs c) :
    ∃ n, rights a = some (n, n, 0) ∧ n &&& 0xFFFFFFFF ≠ 0 := by
  have lows : a ∈ fbLows c → ∃ n, rights a = some (n, n, 0) ∧ n &&& 0xFFFFFFFF ≠ 0 := fun h => ⟨_, rights_fbLows c a h, by decide⟩
  have highs : a ∈ fbHighs c → ∃ n, rights a = some (n, n, 0) ∧ n &&& 0xFFFFFFFF ≠ 0 := fun h => ⟨_, rights_fbHighs c a h, by decide⟩
  have cfg : a = Adr.FB_IDX_CFG c → ∃ n, rights a = some (n, n, 0) ∧ n &&& 0xFFFFFFFF ≠ 0 :=
    fun h => ⟨_, h ▸ rights_idxCfg c, by decide⟩
  simp only [idxRegs, limitRegs, fbLows, fbHighs, List.mem_cons, List.not_mem_nil, or_false] at *
  tauto

section

variable {s : State} {m : Master} {c : Fin 24} {a : Nat} (w : Word)

/-- A write of an index setting that acts. -/
theorem exec_fbIndexConfigWrite (setting : a ∈ idxRegs c) (acts : Acts s m a 0xFFFFFFFF) : m.admin = true ∧
    exec (.fbIndexConfigWrite m a w) s = .next ((s.stored m a w).modFbc c fun h => { h with refd := false, suspect := false }) := by
  obtain ⟨idx, of⟩ := idxRegs_of c a setting
  obtain ⟨n, row, reach⟩ := rights_settings c (.inl setting)
  obtain ⟨adm, gate, -⟩ := State.gate_of_privileged acts row reach
  refine ⟨adm, congrArg Host.Outcome.next ((if_pos idx).trans ?_)⟩
  rw [State.fbIndexWrite, gate]
  dsimp only
  rw [if_pos rfl, State.storeWord_eq s m w row, State.stored, of]

/-- A write of a soft limit that acts. -/
theorem exec_fbSoftLimitWrite (setting : a ∈ limitRegs c) (acts : Acts s m a 0xFFFFFFFF) : m.admin = true ∧
    exec (.fbSoftLimitWrite m a w) s = .next (
      if (s.stored m a w).slMax c ≤ (s.stored m a w).slMin c then s.fbIgnored c
      else
        let v := (s.stored m a w).modFbc c fun h => h.limit ((s.stored m a w).slMin c) ((s.stored m a w).slMax c)
        if (v.fbc.get c).count = (s.fbc.get c).count then v else v.noteNow c) := by
  obtain ⟨limit, of, -⟩ := limitRegs_of c a setting
  obtain ⟨n, row, reach⟩ := rights_settings c (.inr setting)
  obtain ⟨adm, gate, -⟩ := State.gate_of_privileged acts row reach
  refine ⟨adm, congrArg Host.Outcome.next ((if_pos limit).trans ?_)⟩
  rw [State.fbLimitWrite, gate]
  dsimp only
  rw [if_neg (by decide), State.storeWord_eq s m w row, of]
  rfl

/-- A write of an index setting is stored, and clears REF and SUSPECT of its channel (R297). -/
theorem fbIndexConfigWrite_does (setting : a ∈ idxRegs c) (acts : Acts s m a 0xFFFFFFFF) :
    Completes (.fbIndexConfigWrite m a w) s fun t =>
      (t.fbc.get c).refd = false ∧ (t.fbc.get c).suspect = false ∧ (t.fbc.get c).count = (s.fbc.get c).count ∧
      t.reg a = s.written m a w ∧ (∀ d : Fin 24, d ≠ c → t.fbc.get d = s.fbc.get d) ∧
      (a = Adr.FB_IDX_PERIOD c ∨ a = Adr.FB_IDX_REF_LO c → t.reg a = w) ∧
      (a = Adr.FB_IDX_TOL c ∨ a = Adr.FB_IDX_REF_LO c + 4 → t.rf a 15 0 = fld w 15 0) ∧
      (a = Adr.FB_IDX_CFG c → t.rf a 3 0 = fld w 3 0 ∧ t.rf a 6 4 = min 4 (fld w 6 4)) := by
  obtain ⟨adm, run⟩ := exec_fbIndexConfigWrite w setting acts
  refine completes_of_exec run ?_
  generalize ht : (s.stored m a w).modFbc c (fun h => { h with refd := false, suspect := false }) = t
  have word : t.reg a = s.written m a w := by rw [← ht]; exact s.reg_stored m a w
  have field (hi lo : Nat) : t.rf a hi lo = fld (s.written m a w) hi lo := by rw [State.rf, word]
  refine ⟨?_, ?_, ?_, word, fun d ne => ?_, fun low => ?_, fun high => ?_, fun cfg => ?_⟩
  · rw [← ht, State.get_modFbc_self]
  · rw [← ht, State.get_modFbc_self]
  · rw [← ht, State.get_modFbc_self]; rfl
  · rw [← ht]; exact State.get_modFbc_ne _ _ ne
  · rw [word, s.written_fbLow (c := c) (by rcases low with rfl | rfl <;> simp [fbLows]) w adm]
  · rw [field, s.fld_written_fbHigh (c := c) (by rcases high with rfl | rfl <;> simp [fbHighs]) w adm]
  · rw [field, field, cfg]
    exact s.fld_written_idxCfg c w adm

/-- Limits in the wrong order are ignored (R295). -/
theorem fbSoftLimitWrite_ignored (setting : a ∈ limitRegs c) (acts : Acts s m a 0xFFFFFFFF)
    (crossed : (s.stored m a w).slMax c ≤ (s.stored m a w).slMin c) : Completes (.fbSoftLimitWrite m a w) s fun t =>
      t.reg a = s.reg a ∧ t.fbc = s.fbc ∧ t.rb (Adr.FB_STAT c) 11 = true := by
  obtain ⟨-, run⟩ := exec_fbSoftLimitWrite w setting acts
  obtain ⟨-, -, notStat⟩ := limitRegs_of c a setting
  obtain ⟨told, channels, regs⟩ := s.fbIgnored_does c
  rw [if_pos crossed] at run
  exact completes_of_exec run ⟨regs a notStat, channels, told⟩

/-- Other limits are stored, and clamp the count (R295). -/
theorem fbSoftLimitWrite_clamps (setting : a ∈ limitRegs c) (acts : Acts s m a 0xFFFFFFFF) {lo hi : Int}
    (low : (s.stored m a w).slMin c = lo) (high : (s.stored m a w).slMax c = hi) (ordered : lo < hi) :
    Completes (.fbSoftLimitWrite m a w) s fun t => t.reg a = s.written m a w ∧
      (a = Adr.FB_SLMIN_LO c ∨ a = Adr.FB_SLMAX_LO c → t.reg a = w) ∧
      (a = Adr.FB_SLMIN_LO c + 4 ∨ a = Adr.FB_SLMAX_LO c + 4 → t.rf a 15 0 = fld w 15 0) ∧
      (t.fbc.get c).count = clampInt lo hi (s.fbc.get c).count ∧
      ((t.fbc.get c).count = (s.fbc.get c).count → (t.fbc.get c).lost = (s.fbc.get c).lost) ∧
      (t.fbc.get c).satHi = (decide (hi < (s.fbc.get c).count) || ((s.fbc.get c).satHi && (s.fbc.get c).count == hi)) ∧ t.ax = s.ax := by
  obtain ⟨adm, run⟩ := exec_fbSoftLimitWrite w setting acts
  rw [low, high, if_neg (by omega)] at run
  dsimp only at run
  generalize hv : (s.stored m a w).modFbc c (fun h => h.limit lo hi) = v at run
  have channel : v.fbc.get c = (s.fbc.get c).limit lo hi := by rw [← hv]; exact State.get_modFbc_self ..
  have word : v.reg a = s.written m a w := by rw [← hv]; exact s.reg_stored m a w
  have ax : v.ax = s.ax := by rw [← hv]; rfl
  generalize ht : (if (v.fbc.get c).count = (s.fbc.get c).count then v else v.noteNow c) = t at run
  have noted : t.reg a = v.reg a ∧ t.ax = v.ax ∧ ∃ p, t.fbc.get c = { v.fbc.get c with past := p } := by
    rw [← ht]
    split
    · exact ⟨rfl, rfl, _, rfl⟩
    · obtain ⟨p, note⟩ := v.noteNow_eq c
      rw [note, State.get_modFbc_self]
      exact ⟨rfl, rfl, p, rfl⟩
  obtain ⟨regs, axes, p, chan⟩ := noted
  have field : t.rf a 15 0 = fld (s.written m a w) 15 0 := by rw [State.rf, regs, word]
  refine completes_of_exec run ⟨regs.trans word, fun lows => ?_, fun highs => ?_, ?_, fun same => ?_, ?_, axes.trans ax⟩
  · rw [regs, word, s.written_fbLow (c := c) (by rcases lows with rfl | rfl <;> simp [fbLows]) w adm]
  · rw [field, s.fld_written_fbHigh (c := c) (by rcases highs with rfl | rfl <;> simp [fbHighs]) w adm]
  · rw [chan, channel]; rfl
  · rw [chan, channel] at same ⊢
    change clampInt lo hi (s.fbc.get c).count = (s.fbc.get c).count at same
    simp [FbChan.limit, same]
  · rw [chan, channel]; rfl

end

/-- Settles O50, register by register. -/
theorem feedbackWrites : Obligations.FeedbackWrites := by
  unfold Obligations.FeedbackWrites
  intro s m c w h n
  refine ⟨fbCfgWrite_ignored w, fun acts byZero changes => fbCfgWrite_changes w acts rfl byZero changes, fun acts runs invalid => ?_,
    fun acts other => ?_, fun acts ordered => fbSetcnt_does acts ordered rfl, exec_fbSuspectClear,
    fun a setting acts => fbIndexConfigWrite_does w setting acts, fun a setting acts => ⟨fun crossed => ?_, fun ordered => ?_⟩⟩
  · refine completes_of_exec (exec_fbReval acts) ?_
    rw [if_pos ⟨runs, by simpa using invalid⟩, State.get_modFbc_self]
  · refine completes_of_exec (exec_fbReval acts) ?_
    rw [if_neg fun ⟨runs, invalid⟩ => other.elim runs invalid]
  · exact fbSoftLimitWrite_ignored w setting acts crossed
  · exact fbSoftLimitWrite_clamps w setting acts rfl rfl ordered

end Sys2Proof.Machine
end

section

namespace Sys2Proof.Machine

open Safety

/-! ### Probes (R303 to R305) -/

/-- The state in which a probe has noted an edge of its filtered level. -/
def State.edgeNoted (s : State) (q : Fin 16) (lv : Bool) (k : Nat) : State :=
  { s with prb := s.prb.set q { s.prb.get q with
    level := lv
    rise := if lv then (s.prb.get q).rise <|> some k else (s.prb.get q).rise
    fall := if lv then (s.prb.get q).fall else (s.prb.get q).fall <|> some k } }

theorem State.get_edgeNoted (s : State) (q : Fin 16) (lv : Bool) (k : Nat) : ((s.edgeNoted q lv k).prb.get q).level = lv := by
  rw [State.edgeNoted, vector_get_set_self]

/-- Beside the probe's own level and its edges everything stays. -/
theorem State.edgeNoted_keeps (s : State) (q : Fin 16) (lv : Bool) (k : Nat) :
    (s.edgeNoted q lv k).regs = s.regs ∧ (s.edgeNoted q lv k).ax = s.ax ∧ (s.edgeNoted q lv k).frm = s.frm := ⟨rfl, rfl, rfl⟩

/-- The eight results of a snapshot are written, and nothing else is (R304). -/
def State.shotResults (s : State) (q : Fin 16) (t : FrameNo × Nat) : State :=
  s.forAll (List.range 8) fun u i => (u.setReg (Adr.PRB_RES_LO q i) (s.slotWords (s.probeSource q i) t).1).setReg (Adr.PRB_RES_HI q i)
    (s.slotWords (s.probeSource q i) t).2

theorem State.shotResults_eqn (s : State) (q : Fin 16) (t : FrameNo × Nat) :
    s.shotResults q t = { s with regs := (s.shotResults q t).regs } :=
  State.forAll_keeps (fun u => u = { s with regs := u.regs })
    (fun _ _ h => State.regsOnly_setReg (State.regsOnly_setReg h _ _) _ _) rfl

/-- The status word of a snapshot: its number, its edge, and the loss of the one before. -/
def shotStatus (w : Word) (falling : Bool) : Word :=
  wd (2 ^ 31 + (fld w 30 23 + 1) % 256 * 2 ^ 23 + 4 * b2n (bitOf w 31 || bitOf w 2) + 2 * b2n falling)

theorem shotStatus_does (w : Word) (falling : Bool) : bitOf (shotStatus w falling) 31 = true ∧
    fld (shotStatus w falling) 30 23 = (fld w 30 23 + 1) % 256 ∧ bitOf (shotStatus w falling) 1 = falling := by
  have lost : b2n (bitOf w 31 || bitOf w 2) ≤ 1 := by cases bitOf w 31 <;> cases bitOf w 2 <;> decide
  have edge : b2n falling ≤ 1 := by cases falling <;> decide
  have number : (fld w 30 23 + 1) % 256 < 256 := Nat.mod_lt _ (by decide)
  unfold shotStatus
  generalize b2n (bitOf w 31 || bitOf w 2) = l at lost
  generalize (fld w 30 23 + 1) % 256 = n at number
  have small : 2 ^ 31 + n * 2 ^ 23 + 4 * l + 2 * b2n falling < 2 ^ 32 := by omega
  have bit (i : Nat) : bitOf (wd (2 ^ 31 + n * 2 ^ 23 + 4 * l + 2 * b2n falling)) i =
      decide ((2 ^ 31 + n * 2 ^ 23 + 4 * l + 2 * b2n falling) / 2 ^ i % 2 = 1) := by
    rw [bitOf, BitVec.getLsbD, wd, BitVec.toNat_ofNat, Nat.mod_eq_of_lt small, Nat.testBit_eq_decide_div_mod_eq]
  refine ⟨?_, ?_, ?_⟩
  · rw [bit, decide_eq_true_eq]; omega
  · rw [fld, wd, BitVec.toNat_ofNat, Nat.mod_eq_of_lt small]; omega
  · rw [bit]
    cases falling
    · simp only [b2n]; simp; omega
    · simp only [b2n]; simp; omega

/-- A snapshot at a clock of the frame in progress: its status, its time stamps and its event (R304, R305, R309). -/
theorem State.probeShot_does (s : State) (q : Fin 16) (falling : Bool) (n : Nat) : let t := s.probeShot q falling n
    t.reg (Adr.PRB_STAT q) = shotStatus (s.reg (Adr.PRB_STAT q)) falling ∧ t.reg (Adr.PRB_TS_FRAME q) = wd s.frm.count.toNat ∧
      t.reg (Adr.PRB_TS_CLK q) = wd n ∧ t.rb Adr.EVT_PEND_HI 7 = true ∧ t.prb = s.prb ∧ t.ax = s.ax := by
  have time : s.probeTime n = (s.frm.count, n) := by simp [State.probeTime]
  generalize hu : ((((s.shotResults q (s.frm.count, n)).setReg (Adr.PRB_TS_FRAME q) (wd s.frm.count.toNat)).setReg (Adr.PRB_TS_CLK q)
    (wd n)).setReg (Adr.PRB_STAT q) (shotStatus (s.reg (Adr.PRB_STAT q)) falling)) = u
  have shot : ∃ e d0 d1, s.probeShot q falling n = u.raise 39 e d0 d1 := by
    unfold State.probeShot
    rw [time, ← hu]
    exact ⟨_, _, _, rfl⟩
  obtain ⟨e, d0, d1, shot⟩ := shot
  have within : Within true u (u.raise 39 e d0 d1) := within_raise (.refl true u) ..
  have above {a : Nat} (h : 0x30200 ≤ a) : (u.raise 39 e d0 d1).reg a = u.reg a := within.reg rfl a (evReg_of_above h)
  have eqn := s.shotResults_eqn q (s.frm.count, n)
  dsimp only
  rw [shot]
  refine ⟨?_, ?_, ?_, State.rb_raise_hi _ (e := 39) (by decide) .., ?_, ?_⟩
  · rw [above (by simp only [Adr.PRB_STAT]; omega), ← hu, State.reg_setReg_self]
  · rw [above (by simp only [Adr.PRB_TS_FRAME]; omega), ← hu,
      State.reg_setReg_other _ _ (by simp only [Adr.PRB_TS_FRAME, Adr.PRB_STAT]; omega),
      State.reg_setReg_other _ _ (by simp only [Adr.PRB_TS_FRAME, Adr.PRB_TS_CLK]; omega), State.reg_setReg_self]
  · rw [above (by simp only [Adr.PRB_TS_CLK]; omega), ← hu,
      State.reg_setReg_other _ _ (by simp only [Adr.PRB_TS_CLK, Adr.PRB_STAT]; omega), State.reg_setReg_self]
  · rw [within.prb, ← hu, State.setReg_prb, State.setReg_prb, State.setReg_prb, eqn]
  · rw [(tells_raise ..).ax, ← hu, State.setReg_ax, State.setReg_ax, State.setReg_ax, eqn]

section

variable {s : State} {q : Fin 16} {lv : Bool} (k : Nat)

theorem exec_probeEdge_same (same : (lv != bitOf (s.reg (Adr.PRB_CFG q)) 6) = (s.prb.get q).level) :
    exec (.probeEdge q lv k) s = .next s := congrArg Host.Outcome.next (if_pos (.inr same))

variable (on : s.sys.powered = true)
include on

theorem exec_probeEdge_off (edge : (lv != bitOf (s.reg (Adr.PRB_CFG q)) 6) ≠ (s.prb.get q).level)
    (off : fld (s.reg (Adr.PRB_CFG q)) 5 4 = 0) :
    exec (.probeEdge q lv k) s = .next (s.edgeNoted q (lv != bitOf (s.reg (Adr.PRB_CFG q)) 6) k) := by
  refine congrArg Host.Outcome.next ((if_neg (by simp [on, edge])).trans ?_)
  dsimp only
  rw [off]
  rfl

/-- An armed probe in single mode takes one snapshot at a rising edge, and disarms. -/
theorem exec_probeEdge_single (edge : (lv != bitOf (s.reg (Adr.PRB_CFG q)) 6) = true) (low : (s.prb.get q).level = false)
    (single : fld (s.reg (Adr.PRB_CFG q)) 5 4 = 1) (rising : fld (s.reg (Adr.PRB_CFG q)) 3 2 = 0)
    (armed : bitOf (s.reg (Adr.PRB_CFG q)) 0 = true) {n : Nat} (clock : (n : Int) = k - 8 * fld (s.reg (Adr.PRB_CFG q)) 23 16 - 2) :
    exec (.probeEdge q lv k) s = .next (((s.edgeNoted q true k).probeShot q false n).clrReg (Adr.PRB_CFG q) 1) := by
  refine congrArg Host.Outcome.next ((if_neg (by simp [on, edge, low])).trans ?_)
  dsimp only
  rw [single, rising, edge, ← clock]
  exact if_pos ⟨rfl, armed⟩

end

/-! ### Encoder emulation (R306) -/

@[simp] theorem State.get_modEmu_self (s : State) (e : Fin 4) (f : Emu → Emu) : (s.modEmu e f).emu.get e = f (s.emu.get e) :=
  vector_get_set_self ..

theorem State.get_modEmu_ne (s : State) {e d : Fin 4} (f : Emu → Emu) (ne : d ≠ e) : (s.modEmu e f).emu.get d = s.emu.get d :=
  vector_get_set_ne _ _ ne

/-- An output that is driven takes the state and the level of Z; the others stay. -/
theorem State.emuDrive_does (s : State) (e : Fin 4) (k : Nat) (lines : BitVec 2) (z : Bool) :
    (s.emuDrive e k lines z).emu.get e = { s.emu.get e with lines := lines, z := z } ∧
      ∀ d : Fin 4, d ≠ e → (s.emuDrive e k lines z).emu.get d = s.emu.get d := by
  unfold State.emuDrive
  split
  case isTrue same =>
    obtain ⟨rfl, rfl⟩ := same
    exact ⟨rfl, fun _ _ => rfl⟩
  case isFalse =>
    rw [State.emit_emu, State.get_modEmu_self]
    exact ⟨rfl, fun d ne => s.get_modEmu_ne _ ne⟩

/-- The state in which an output's backlog has ended, and it drives state 0 with Z low. -/
def State.emuStopped (s : State) (e : Fin 4) : State := (s.modEmu e fun m => { m with backlog := 0 }).emuDrive e 0 0 false

theorem State.emuStopped_does (s : State) (e : Fin 4) :
    (s.emuStopped e).emu.get e = { s.emu.get e with backlog := 0, lines := 0, z := false } ∧
      (∀ d : Fin 4, d ≠ e → (s.emuStopped e).emu.get d = s.emu.get d) ∧ ∀ a, (s.emuStopped e).reg a = s.reg a := by
  obtain ⟨driven, others⟩ := (s.modEmu e fun m => { m with backlog := 0 }).emuDrive_does e 0 0 false
  refine ⟨?_, fun d ne => (others d ne).trans (s.get_modEmu_ne _ ne), fun a => (State.emuDrive_drives ..).reg a⟩
  rw [State.emuStopped, driven, State.get_modEmu_self]

theorem rights_emuCfg (e : Fin 4) :
    rights (Adr.EMU_CFG e) = some (bits 23 8 + bits 4 4 + bits 1 0, bits 23 8 + bits 4 4 + bits 1 0, 0) := by
  revert e; decide +kernel

/-- The gap is held to its range, and a MODE 3 is stored as 0 (R306, R308). -/
theorem normalise_emuCfg (e : Fin 4) (w : Word) : normalise (Adr.EMU_CFG e) w =
    if fld (holdFld w 23 16 8 255) 1 0 = 3 then putFld (holdFld w 23 16 8 255) 3 0 0 else holdFld w 23 16 8 255 := by
  fin_cases e <;> rfl

/-- A word with MODE 0 is stored with MODE 0. -/
theorem State.emuMode_written_zero (s : State) {m : Master} (e : Fin 4) {w : Word} (zero : fld w 1 0 = 0) (adm : m.admin = true) :
    fld (s.written m (Adr.EMU_CFG e) w) 1 0 = 0 := by
  have full : ∀ i < 1 + 1 - 0, (wd (bits 23 8 + bits 4 4 + bits 1 0)).getLsbD (0 + i) = true := by decide +kernel
  have outside : ∀ i < 1 + 1 - 0, (wd (bits 23 16)).getLsbD (0 + i) = false := by decide +kernel
  have held (v : Word) : fld (holdFld v 23 16 8 255) 1 0 = fld v 1 0 := fld_congr fun i hi => getLsbD_holdFld _ (by omega) (outside i hi)
  have mode : fld (mergeW (s.reg (Adr.EMU_CFG e)) w (bits 23 8 + bits 4 4 + bits 1 0)) 1 0 = 0 := by
    rw [fld_mergeW_full full (by decide), zero]
  rw [State.fld_written_admin w (rights_emuCfg e) full (by decide) adm, normalise_emuCfg, held, if_neg (by rw [mode]; decide), held, mode]

/-- The state with a master's write of EMUe_CFG stored, and CFG_IGNORED set where it asked for MODE 3. -/
def State.emuStored (s : State) (m : Master) (e : Fin 4) (w : Word) : State :=
  if fld w 1 0 = 3 then (s.stored m (Adr.EMU_CFG e) w).orReg (Adr.EMU_STAT e) 4 else s.stored m (Adr.EMU_CFG e) w

theorem emuCfg_ne_emuStat (e : Fin 4) : Adr.EMU_CFG e ≠ Adr.EMU_STAT e := by simp only [Adr.EMU_CFG, Adr.EMU_STAT]; omega

theorem State.emuStored_does (s : State) (m : Master) (e : Fin 4) (w : Word) :
    (s.emuStored m e w).reg (Adr.EMU_CFG e) = s.written m (Adr.EMU_CFG e) w ∧
      (fld w 1 0 = 3 → (s.emuStored m e w).rb (Adr.EMU_STAT e) 2 = true) ∧ (s.emuStored m e w).emu = s.emu := by
  unfold State.emuStored
  split
  case isTrue three =>
    refine ⟨?_, fun _ => State.rb_orReg_self _ _ (k := 2) (by decide), State.orReg_emu ..⟩
    rw [State.orReg, State.reg_setReg_other _ _ (emuCfg_ne_emuStat e), State.reg_stored]
  case isFalse other => exact ⟨s.reg_stored .., fun three => absurd three other, rfl⟩

/-- The state in which an output begins with count 0, in state 0 with Z low, from where its source stands. -/
def State.emuBegun (s : State) (e : Fin 4) : State := s.modEmu e fun _ => { Emu.reset with base := s.emuSource e }

/-- The output as it starts: it follows its source's Z where it is not held. -/
def State.emuStarted (s : State) (e : Fin 4) : State :=
  if (s.emuBegun e).emuHold e then s.emuBegun e else (s.emuBegun e).emuLevel e 0 ((s.emuBegun e).emuZNow e)

theorem State.emuStarted_does (s : State) (e : Fin 4) : (∀ a, (s.emuStarted e).reg a = s.reg a) ∧
    ((s.emuStarted e).emu.get e).count = 0 ∧ ((s.emuStarted e).emu.get e).backlog = 0 ∧ ((s.emuStarted e).emu.get e).lines = 0 := by
  have begun : (s.emuBegun e).emu.get e = { Emu.reset with base := s.emuSource e } := State.get_modEmu_self ..
  unfold State.emuStarted
  split
  · rw [begun]
    exact ⟨fun _ => rfl, rfl, rfl, rfl⟩
  · obtain ⟨driven, -⟩ := (s.emuBegun e).emuDrive_does e 0 ((s.emuBegun e).emu.get e).lines ((s.emuBegun e).emuZNow e)
    rw [State.emuLevel, driven, begun]
    exact ⟨fun a => (State.emuDrive_drives ..).reg a, rfl, rfl, rfl⟩

section

variable {s : State} {m : Master} {e : Fin 4} {w : Word} (acts : Acts s m (Adr.EMU_CFG e) 0xFFFFFF)
include acts

theorem State.gate_emuCfg : m.admin = true ∧ s.gate m (Adr.EMU_CFG e) 0xFFFFFF = (s, true) := by
  obtain ⟨adm, gate, -⟩ := State.gate_of_privileged acts (rights_emuCfg e) (by decide)
  exact ⟨adm, gate⟩

/-- A mode that is not 0 does not change to another at once. -/
theorem exec_emuCfgWrite_ignored (runs : s.rf (Adr.EMU_CFG e) 1 0 ≠ 0) (other : fld (s.written m (Adr.EMU_CFG e) w) 1 0 ≠ 0) :
    exec (.emuCfgWrite m e w) s = .next (s.orReg (Adr.EMU_STAT e) 4) := by
  obtain ⟨-, gate⟩ := State.gate_emuCfg acts
  refine congrArg Host.Outcome.next ?_
  rw [State.emuCfgWrite, gate]
  exact (if_neg (by decide)).trans (if_pos ⟨runs, other⟩)

/-- Mode 0 stops the output. -/
theorem exec_emuCfgWrite_stops (zero : fld (s.written m (Adr.EMU_CFG e) w) 1 0 = 0) :
    exec (.emuCfgWrite m e w) s = .next ((s.emuStored m e w).emuStopped e) := by
  obtain ⟨-, gate⟩ := State.gate_emuCfg acts
  refine congrArg Host.Outcome.next ?_
  rw [State.emuCfgWrite, gate]
  dsimp only
  rw [zero, if_neg (by decide), if_neg (by simp), if_neg (by simp), State.storeWord_eq s m w (rights_emuCfg e)]
  exact if_pos rfl

/-- Mode 2 after mode 0 starts the output. -/
theorem exec_emuCfgWrite_starts (rests : s.rf (Adr.EMU_CFG e) 1 0 = 0) (two : fld (s.written m (Adr.EMU_CFG e) w) 1 0 = 2) :
    exec (.emuCfgWrite m e w) s = .next ((s.emuStored m e w).emuStarted e) := by
  obtain ⟨-, gate⟩ := State.gate_emuCfg acts
  refine congrArg Host.Outcome.next ?_
  rw [State.emuCfgWrite, gate]
  dsimp only
  rw [two, if_neg (by decide), if_neg (by simp [rests]), if_neg (by simp), State.storeWord_eq s m w (rights_emuCfg e)]
  exact if_neg (by decide)

/-- Mode 1 with a source that is no channel is stored as mode 0. -/
theorem exec_emuCfgWrite_axis (rests : s.rf (Adr.EMU_CFG e) 1 0 = 0) (one : fld (s.written m (Adr.EMU_CFG e) w) 1 0 = 1)
    (axis : bitOf (s.written m (Adr.EMU_CFG e) w) 4 = false) : exec (.emuCfgWrite m e w) s =
      .next (((s.stored m (Adr.EMU_CFG e) (w &&& ~~~3#32)).orReg (Adr.EMU_STAT e) 4).emuStopped e) := by
  obtain ⟨-, gate⟩ := State.gate_emuCfg acts
  refine congrArg Host.Outcome.next ?_
  rw [State.emuCfgWrite, gate]
  dsimp only
  rw [one, if_neg (by decide), if_neg (by simp [rests]), if_pos (by simp [axis]), State.storeWord_eq s m _ (rights_emuCfg e)]
  rfl

end

/-- What the snapshot of an armed probe in single mode shows (R303 to R305). -/
theorem singleShot_does {s : State} {q : Fin 16} {lv : Bool} (k : Nat) (on : s.sys.powered = true)
    (edge : (lv != bitOf (s.reg (Adr.PRB_CFG q)) 6) = true) (low : (s.prb.get q).level = false)
    (single : fld (s.reg (Adr.PRB_CFG q)) 5 4 = 1) (rising : fld (s.reg (Adr.PRB_CFG q)) 3 2 = 0)
    (armed : bitOf (s.reg (Adr.PRB_CFG q)) 0 = true) (late : 8 * fld (s.reg (Adr.PRB_CFG q)) 23 16 + 2 ≤ k) :
    Completes (.probeEdge q lv k) s fun t =>
      (t.prb.get q).level = true ∧ t.rb (Adr.PRB_CFG q) 0 = false ∧ t.rb (Adr.PRB_STAT q) 31 = true ∧
      t.rf (Adr.PRB_STAT q) 30 23 = (s.rf (Adr.PRB_STAT q) 30 23 + 1) % 256 ∧ t.rb (Adr.PRB_STAT q) 1 = false ∧
      t.reg (Adr.PRB_TS_FRAME q) = wd s.frm.count.toNat ∧
      t.reg (Adr.PRB_TS_CLK q) = wd (k - (8 * fld (s.reg (Adr.PRB_CFG q)) 23 16 + 2)) ∧
      t.rb Adr.EVT_PEND_HI 7 = true ∧ t.ax = s.ax := by
  generalize hn : k - (8 * fld (s.reg (Adr.PRB_CFG q)) 23 16 + 2) = n
  refine completes_of_exec (exec_probeEdge_single k on edge low single rising armed (n := n) (by omega)) ?_
  obtain ⟨status, frame, clock, pending, probes, ax⟩ := (s.edgeNoted q true k).probeShot_does q false n
  obtain ⟨unread, number, rose⟩ := shotStatus_does (s.reg (Adr.PRB_STAT q)) false
  obtain ⟨regs, axes, frames⟩ := s.edgeNoted_keeps q true k
  rw [State.reg_of_regs regs] at status
  rw [frames] at frame
  generalize (s.edgeNoted q true k).probeShot q false n = u at status frame clock pending probes ax
  have same {a : Nat} (other : a ≠ Adr.PRB_CFG q) : (u.clrReg (Adr.PRB_CFG q) 1).reg a = u.reg a := State.reg_setReg_other _ _ other
  have shown : (u.clrReg (Adr.PRB_CFG q) 1).reg (Adr.PRB_STAT q) = shotStatus (s.reg (Adr.PRB_STAT q)) false :=
    (same (by simp only [Adr.PRB_CFG, Adr.PRB_STAT]; omega)).trans status
  refine ⟨?_, ?_, ?_, ?_, ?_, ?_, ?_, ?_, (u.clrReg_ax ..).trans (ax.trans axes)⟩
  · rw [State.clrReg_prb, probes, s.get_edgeNoted]
  · rw [State.rb, State.clrReg, State.reg_setReg_self, bitOf, show wd 1 = BitVec.ofNat 32 (2 ^ 0) from rfl, getLsbD_and_not_two_pow]
    simp
  · rw [State.rb, shown, unread]
  · rw [State.rf, shown, number, State.rf]
  · rw [State.rb, shown, rose]
  · rw [same (by simp only [Adr.PRB_CFG, Adr.PRB_TS_FRAME]; omega), frame]
  · rw [same (by simp only [Adr.PRB_CFG, Adr.PRB_TS_CLK]; omega), clock]
  · rw [State.rb, same (by simp only [Adr.PRB_CFG, Adr.EVT_PEND_HI]; omega)]
    exact pending

section

variable {s : State} {m : Master} {e : Fin 4} {w : Word} (acts : Acts s m (Adr.EMU_CFG e) 0xFFFFFF)
include acts

theorem emuCfgWrite_stops_does (zero : fld (s.written m (Adr.EMU_CFG e) w) 1 0 = 0) : Completes (.emuCfgWrite m e w) s fun t =>
    t.rf (Adr.EMU_CFG e) 1 0 = 0 ∧ (fld w 1 0 = 3 → t.rb (Adr.EMU_STAT e) 2 = true) ∧ (t.emu.get e).backlog = 0 ∧
      (t.emu.get e).lines = 0 ∧ (t.emu.get e).z = false ∧ (t.emu.get e).count = (s.emu.get e).count ∧
      ∀ f : Fin 4, f ≠ e → t.emu.get f = s.emu.get f := by
  refine completes_of_exec (exec_emuCfgWrite_stops acts zero) ?_
  obtain ⟨output, others, regs⟩ := (s.emuStored m e w).emuStopped_does e
  obtain ⟨cfg, told, emu⟩ := s.emuStored_does m e w
  rw [output, emu]
  refine ⟨by rw [State.rf, regs, cfg, zero], fun three => ?_, rfl, rfl, rfl, rfl, fun f ne => by rw [others f ne, emu]⟩
  rw [State.rb, regs]
  exact told three

theorem emuCfgWrite_axis_does (rests : s.rf (Adr.EMU_CFG e) 1 0 = 0) (one : fld (s.written m (Adr.EMU_CFG e) w) 1 0 = 1)
    (axis : bitOf (s.written m (Adr.EMU_CFG e) w) 4 = false) : Completes (.emuCfgWrite m e w) s fun t =>
      t.rf (Adr.EMU_CFG e) 1 0 = 0 ∧ t.rb (Adr.EMU_STAT e) 2 = true := by
  have zero : fld (w &&& ~~~3#32) 1 0 = 0 := by
    have none : fld (w &&& ~~~3#32) 1 0 = fld 0#32 1 0 := fld_congr fun i hi => by
      interval_cases i <;> simp
    rw [none]
    rfl
  refine completes_of_exec (exec_emuCfgWrite_axis acts rests one axis) ?_
  obtain ⟨adm, -⟩ := State.gate_emuCfg acts
  obtain ⟨-, -, regs⟩ := ((s.stored m (Adr.EMU_CFG e) (w &&& ~~~3#32)).orReg (Adr.EMU_STAT e) 4).emuStopped_does e
  constructor
  · rw [State.rf, regs, State.orReg, State.reg_setReg_other _ _ (emuCfg_ne_emuStat e), State.reg_stored,
      s.emuMode_written_zero e zero adm]
  · rw [State.rb, regs]
    exact State.rb_orReg_self _ _ (k := 2) (by decide)

end

/-- Settles O51, edge by edge and mode by mode. -/
theorem probesAndEmulation : Obligations.ProbesAndEmulation := by
  unfold Obligations.ProbesAndEmulation
  refine ⟨fun s q lv k on => ⟨exec_probeEdge_same k, fun edge off => ?_, singleShot_does k on⟩,
    fun s m e w acts => ⟨fun runs other => ?_, emuCfgWrite_stops_does acts, fun rests two => ?_, emuCfgWrite_axis_does acts⟩⟩
  · exact completes_of_exec (exec_probeEdge_off k on edge off) ⟨s.get_edgeNoted .., fun p ne => vector_get_set_ne _ _ ne, rfl⟩
  · have told : (s.orReg (Adr.EMU_STAT e) 4).rb (Adr.EMU_STAT e) 2 = true := State.rb_orReg_self _ _ (k := 2) (by decide)
    exact completes_of_exec (exec_emuCfgWrite_ignored acts runs other)
      ⟨told, State.reg_setReg_other s _ (emuCfg_ne_emuStat e), rfl⟩
  · refine completes_of_exec (exec_emuCfgWrite_starts acts rests two) ?_
    obtain ⟨regs, count, backlog, lines⟩ := (s.emuStored m e w).emuStarted_does e
    obtain ⟨cfg, -, -⟩ := s.emuStored_does m e w
    exact ⟨by rw [State.rf, regs, cfg, two], count, backlog, lines⟩

end Sys2Proof.Machine
end

section
/-! SUPPORT. The obligations of supervision: the monitors and supplies, the sweep, the thresholds and the derating, with the rules about the
operations that they speak of. -/

namespace Sys2Proof.Machine

open Safety (evReg)

/-! ### Regeneration and the choppers (R323 to R326) -/

/-- Is regeneration blocked in unit `u` (R323 to R325)? -/
def State.blocksRegen (s : State) (u : CarrierId) : Bool :=
  if s.strapped (domOfUnit u) then (s.sharing (domOfUnit u)).any s.blocksIn else s.blocksUnit u

/-- Does a domain that shares its supply with `b` request its chopper (R325, R326)? -/
def State.brakeAsked (s : State) (b : DomainId) : Bool := (s.sharing b).any s.requests

theorem State.mem_sharing_self (s : State) (d : DomainId) : d ∈ s.sharing d := by
  unfold State.sharing
  split
  next strap => exact List.mem_filter.2 ⟨mem_allFin d, strap⟩
  next => exact List.mem_singleton.2 rfl

theorem mem_unitsOf {u : CarrierId} {d : DomainId} : u ∈ unitsOf d ↔ domOfUnit u = d := by
  simp [unitsOf]

/-- A domain that blocks regeneration blocks it in every unit of it. -/
theorem State.blocksRegen_of_vmHi {s : State} {d : DomainId} (hi : s.cmp.vmHi.getLsbD d = true) {u : CarrierId} (of : u ∈ unitsOf d) :
    s.blocksRegen u = true := by
  obtain rfl := mem_unitsOf.1 of
  unfold State.blocksRegen
  split
  · exact List.any_eq_true.2 ⟨_, s.mem_sharing_self _, by rw [State.blocksIn, hi, Bool.or_true]⟩
  · rw [State.blocksUnit, hi, Bool.or_true]

/-- An over-voltage monitor that has tripped blocks regeneration in its own unit. -/
theorem State.blocksRegen_of_ov {s : State} {u : CarrierId} (ov : (s.cu.get u).ov = true) : s.blocksRegen u = true := by
  unfold State.blocksRegen
  split
  · have own : (unitsOf (domOfUnit u)).any (fun v => (s.cu.get v).ov) = true := List.any_eq_true.2 ⟨u, mem_unitsOf.2 rfl, ov⟩
    exact List.any_eq_true.2 ⟨_, s.mem_sharing_self _, by rw [State.blocksIn, own, Bool.true_or]⟩
  · rw [State.blocksUnit, ov, Bool.true_or]

/-- What the blocks of regeneration and the choppers move: of the units the block, of the supplies the choppers that follow their requests,
and what event 31 moves. -/
structure Supplied (s t : State) : Prop where
  tells : Tells { s with cu := t.cu, cmp := t.cmp } t
  reg : ∀ a, a ≠ Adr.EVT_PEND_LO → a ≠ Adr.EVT_CNT 31 → t.reg a = s.reg a
  cmp : t.cmp = { s.cmp with brkReq := t.cmp.brkReq, brkOn := t.cmp.brkOn, brkSeen := t.cmp.brkSeen, brkFr := t.cmp.brkFr,
                             brkCnt := t.cmp.brkCnt }
  unit : ∀ u : CarrierId, t.cu.get u = { s.cu.get u with regen := (t.cu.get u).regen }

theorem Supplied.refl (s : State) : Supplied s s := ⟨.refl s, fun _ _ _ => rfl, rfl, fun _ => rfl⟩

theorem Supplied.trans {s t u : State} (h : Supplied s t) (k : Supplied t u) : Supplied s u where
  tells :=
    { eqn := by rw [k.tells.eqn, h.tells.eqn]
      hif := by rw [k.tells.hif, h.tells.hif]
      out := h.tells.out.trans k.tells.out
      wf := fun w => k.tells.wf (h.tells.wf w) }
  reg a lo cnt := (k.reg a lo cnt).trans (h.reg a lo cnt)
  cmp := by rw [k.cmp, h.cmp]
  unit v := by rw [k.unit v, h.unit v]

section

variable {s t : State} (h : Supplied s t)
include h

theorem Supplied.ax : t.ax = s.ax := h.tells.ax
theorem Supplied.frm : t.frm = s.frm := h.tells.frm

theorem Supplied.reg_of_not_event {a : Nat} (n : evReg a = false) : t.reg a = s.reg a :=
  h.reg a (fun e => by rw [e] at n; exact absurd n (by decide)) (fun e => by rw [e] at n; exact absurd n (by decide))

theorem Supplied.strapped (d : DomainId) : t.strapped d = s.strapped d := by
  rw [State.strapped, State.rb, h.reg_of_not_event (by decide), State.strapped, State.rb]

theorem Supplied.sharing (d : DomainId) : t.sharing d = s.sharing d := by
  simp only [State.sharing, h.strapped]

theorem Supplied.ov (u : CarrierId) : (t.cu.get u).ov = (s.cu.get u).ov := by rw [h.unit u]
theorem Supplied.ovUnset (u : CarrierId) : (t.cu.get u).ovUnset = (s.cu.get u).ovUnset := by rw [h.unit u]
theorem Supplied.vmLo : t.cmp.vmLo = s.cmp.vmLo := by rw [h.cmp]
theorem Supplied.vmHi : t.cmp.vmHi = s.cmp.vmHi := by rw [h.cmp]
theorem Supplied.vmHiUnset : t.cmp.vmHiUnset = s.cmp.vmHiUnset := by rw [h.cmp]
theorem Supplied.sweep : t.cmp.sweep = s.cmp.sweep := by rw [h.cmp]
theorem Supplied.failed : t.cmp.failed = s.cmp.failed := by rw [h.cmp]
theorem Supplied.fallback : t.cmp.fallback = s.cmp.fallback := by rw [h.cmp]
theorem Supplied.heldWr : t.cmp.heldWr = s.cmp.heldWr := by rw [h.cmp]

/-- The blocks and the requests are judged by what neither of them moves. -/
theorem Supplied.blocksRegen (u : CarrierId) : t.blocksRegen u = s.blocksRegen u := by
  have blocks : t.blocksIn = s.blocksIn := by funext d; simp only [State.blocksIn, h.ov, h.vmHi]
  simp only [State.blocksRegen, h.strapped, h.sharing, blocks, State.blocksUnit, h.ov, h.vmHi]

theorem Supplied.brakeAsked (b : DomainId) : t.brakeAsked b = s.brakeAsked b := by
  have requests : t.requests = s.requests := by funext d; simp only [State.requests, h.ov, h.ovUnset, h.vmHi, h.vmHiUnset]
  rw [State.brakeAsked, h.sharing, requests, State.brakeAsked]

end

theorem Supplied.forAll {α : Type} {l : List α} {f : State → α → State} (h : ∀ t a, Supplied t (f t a)) (s : State) :
    Supplied s (s.forAll l f) := State.forAll_keeps (Supplied s) (fun t a k => k.trans (h t a)) (.refl s)

/-- The choppers alone move. -/
theorem supplied_choppers (s : State) (req on seen fr : BitVec 7) (cnt : List Nat) :
    Supplied s { s with cmp := { s.cmp with brkReq := req, brkOn := on, brkSeen := seen, brkFr := fr, brkCnt := cnt } } :=
  ⟨.refl _, fun _ _ _ => rfl, rfl, fun _ => rfl⟩

theorem State.reg_raise_other (s : State) (e u : Nat) (d0 d1 : Word) {a : Nat}
    (pend : a ≠ if e < 32 then Adr.EVT_PEND_LO else Adr.EVT_PEND_HI) (cnt : a ≠ Adr.EVT_CNT (e % 64)) :
    (s.raise e u d0 d1).reg a = s.reg a := by
  rw [State.raise, State.reg_of_regs (s.regs_raiseAt s.frm.count e u d0 d1), State.incReg, State.reg_setReg_other _ _ cnt,
    State.orReg, State.reg_setReg_other _ _ pend]

theorem supplied_raise (s : State) (u : Nat) (d0 d1 : Word) : Supplied s (s.raise 31 u d0 d1) := by
  have tells := tells_raise s 31 u d0 d1
  refine ⟨?_, fun a lo cnt => s.reg_raise_other 31 u d0 d1 lo cnt, by rw [tells.cmp], fun v => by rw [tells.cu]⟩
  rw [tells.cu, tells.cmp]
  exact tells

theorem supplied_chopper (s : State) (b : DomainId) : Supplied s (s.chopper b) := by
  unfold State.chopper
  extract_lets i req on c s1
  have first : Supplied s s1 := supplied_choppers ..
  clear_value s1
  split
  next s2 c n s3 _ =>
    have second : Supplied s s2 := by
      unfold s2
      split
      · exact first
      · exact first.trans (supplied_raise ..)
    exact second.trans (supplied_choppers ..)
  next => exact first

theorem supplied_modCu_regen (s : State) (u : CarrierId) (on : Bool) : Supplied s (s.modCu u fun c => { c with regen := on }) := by
  refine ⟨.refl _, fun _ _ _ => rfl, rfl, fun v => ?_⟩
  by_cases e : v = u
  · subst e; rw [State.cu_modCu_self]
  · rw [State.cu_modCu_ne s _ e]

theorem supplied_setRegen (s : State) : Supplied s s.setRegen := .forAll (fun _ _ => supplied_modCu_regen ..) s

theorem supplied_supplies (s : State) : Supplied s s.supplies := (supplied_setRegen s).trans (.forAll supplied_chopper _)

theorem getLsbD_putBit7 (w : BitVec 7) {i j : Nat} (v : Bool) (hj : j < 7) :
    (putBit7 w i v).getLsbD j = if i = j then v else w.getLsbD j := by
  cases v
  · rw [putBit7, if_neg (by decide), getLsbD_and_not_two_pow]
    by_cases e : i = j <;> simp [e]
  · rw [putBit7, if_pos rfl, getLsbD_or_two_pow]
    by_cases e : i = j <;> simp [e, hj]

theorem State.setRegen_regen (s : State) (u : CarrierId) : (s.setRegen.cu.get u).regen = s.blocksRegen u := by
  refine State.forAll_reaches (fun u t => (t.cu.get u).regen = s.blocksRegen u) (fun t v => ?_) (fun t v w kept => ?_) s u (mem_allFin u)
  · dsimp only
    rw [State.cu_modCu_self]
    rfl
  · dsimp only
    by_cases e : w = v
    · subst e; rw [State.cu_modCu_self]; rfl
    · rw [State.cu_modCu_ne _ _ e]; exact kept

/-- A chopper notes its own request, and moves no unit. -/
theorem State.chopper_does (s : State) (b : DomainId) :
    (s.chopper b).cmp.brkReq = putBit7 s.cmp.brkReq b (s.brakeAsked b) ∧ (s.chopper b).cu = s.cu := by
  unfold State.chopper
  extract_lets i req on c s1
  have first : s1.cmp.brkReq = putBit7 s.cmp.brkReq b (s.brakeAsked b) ∧ s1.cu = s.cu := ⟨rfl, rfl⟩
  clear_value s1
  split
  next s2 c n s3 _ =>
    show s2.cmp.brkReq = _ ∧ s2.cu = _
    unfold s2
    split
    · exact first
    · rw [(tells_raise ..).cmp, (tells_raise ..).cu]
      exact first
  next => exact first

theorem State.supplies_regen (s : State) (u : CarrierId) : (s.supplies.cu.get u).regen = s.blocksRegen u := by
  have cu : s.supplies.cu = s.setRegen.cu := State.forAll_proj State.cu (fun t b => (t.chopper_does b).2) _
  rw [cu, s.setRegen_regen]

theorem State.supplies_brkReq (s : State) (b : DomainId) : s.supplies.cmp.brkReq.getLsbD b = s.brakeAsked b := by
  have asked : s.supplies.cmp.brkReq.getLsbD b = s.supplies.brakeAsked b := by
    refine State.forAll_reaches (fun (b : DomainId) t => t.cmp.brkReq.getLsbD b = t.brakeAsked b) (fun t c => ?_) (fun t c d kept => ?_) _ b
      (mem_allFin b)
    · rw [(supplied_chopper t c).brakeAsked, (t.chopper_does c).1, getLsbD_putBit7 _ _ c.isLt, if_pos rfl]
    · rw [(supplied_chopper t c).brakeAsked, (t.chopper_does c).1, getLsbD_putBit7 _ _ d.isLt]
      split
      next same => rw [Fin.ext same]
      next => exact kept
  rw [asked, (supplied_supplies s).brakeAsked]

/-- Where no chopper is enabled none is told, and the units and the supplies alone move. -/
theorem State.supplies_quiet {s : State} (off : ∀ b : DomainId, s.rb (Adr.CMP_BRK b) 31 = false) :
    s.supplies = { s with cu := s.supplies.cu, cmp := s.supplies.cmp } := by
  have regen : s.setRegen = { s with cu := s.setRegen.cu, cmp := s.setRegen.cmp } :=
    State.forAll_keeps (fun t => t = { s with cu := t.cu, cmp := t.cmp }) (fun t u h => by rw [h]; rfl) rfl
  refine State.forAll_keeps (fun t => t = { s with cu := t.cu, cmp := t.cmp }) (fun t b h => ?_) regen
  have quiet : t.rb (Adr.CMP_BRK b) 31 = false := by rw [h]; exact off b
  have still : t.chopper b = { t with cmp := (t.chopper b).cmp } := by
    unfold State.chopper
    simp only [quiet, Bool.and_false, Bool.false_and, Bool.false_eq_true, false_and, if_false]
  rw [still, h]

/-! ### A record that goes out at once (R75, R77) -/

/-- A record is written where the event ring has room beside its reserved entry. -/
theorem State.writeEvent_sends {s : State} (room : s.eqUsed < 2 ^ s.eqSize - 1) (whole : s.eq.dropped = 0) (r : EvRec) (late : Bool) :
    ∃ o a f l, (s.writeEvent r late).out = s.out ++ .dmaWrite o a (r.bytes f) :: l := by
  rw [State.writeEvent, if_pos ⟨room, whole⟩]
  unfold State.putEvent
  extract_lets size n t q u
  have sent : u.out = s.out ++ [.dmaWrite s.eqOwner (s.reg64 Adr.HIF_EQ_BASE_LO + 32 * (n % 2 ^ size))
    (r.bytes (rflags n size late))] := rfl
  split
  · obtain ⟨l, more⟩ := (tells_signalEq u).out
    exact ⟨_, _, _, l, by rw [← more, sent, List.append_assoc, List.singleton_append]⟩
  · exact ⟨_, _, _, [], sent⟩

/-- An event that is enabled is told at once, with the next SEQ, where the event ring takes its record. -/
theorem State.raise_sends {s : State} {e : Nat} (enabled : s.evEnabled e = true) (ring : s.eq.enabled = true)
    (up : s.hif.linkUp = true) (room : s.eqUsed < 2 ^ s.eqSize - 1) (whole : s.eq.dropped = 0) (alone : s.gather = none) (u : Nat)
    (d0 d1 : Word) :
    ∃ o a f l, (s.raise e u d0 d1).out = s.out ++ .dmaWrite o a ((⟨e, u, s.eq.seq, s.frm.count, d0, d1⟩ : EvRec).bytes f) :: l := by
  have regs := s.regs_raiseAt s.frm.count e u d0 d1
  unfold State.raise State.raiseAt
  extract_lets t r
  have same {b : Nat} (n : evReg b = false) : t.reg b = s.reg b :=
    (State.reg_of_regs regs b).symm.trans ((within_raise (.refl true s) e u d0 d1).reg rfl b n)
  have on : t.evEnabled e = true := by
    rw [← enabled, State.evEnabled, State.evEnabled, State.rb, State.rb, same (by split <;> decide)]
  have size : t.eqSize = s.eqSize := by rw [State.eqSize, State.rf, same (by decide), State.eqSize, State.rf]
  rw [if_pos ⟨on, ring⟩, show t.gather = none from alone]
  dsimp only
  rw [State.tell, if_pos (show t.hif.linkUp = true from up)]
  refine State.writeEvent_sends (s := { t with eq := { t.eq with seq := t.eq.seq + 1 } }) ?_ whole _ false
  rw [← size] at room
  exact room

/-! ### A VM entry above its window (R324) -/

/-- The state in which the HI side of a VM entry has registered, with its sticky bit. -/
def State.vmHiMarked (s : State) (d : DomainId) : State :=
  ({ s with cmp := { s.cmp with vmHi := putBit7 s.cmp.vmHi d true } }).orReg Adr.CMP_VSTICKY (2 ^ (8 + d.val))

theorem State.vmHiRegister_clear {s : State} {d : DomainId} (clear : s.cmp.vmHi.getLsbD d = false) :
    s.vmHiRegister d = (s.vmHiMarked d).supplies.raise 40 (0x1D0 + d.val) 1 (wd (s.cmp.vmMv.getD d 0)) := if_neg (by rw [clear]; decide)

theorem State.vmHiMarked_vmHi (s : State) (d : DomainId) : (s.vmHiMarked d).cmp.vmHi.getLsbD d = true := by
  show (putBit7 s.cmp.vmHi d true).getLsbD d = true
  rw [getLsbD_putBit7 _ _ d.isLt, if_pos rfl]

theorem State.reg_vmHiMarked (s : State) (d : DomainId) {a : Nat} (n : a ≠ Adr.CMP_VSTICKY) : (s.vmHiMarked d).reg a = s.reg a :=
  State.reg_setReg_other _ _ n

/-- What a HI side that registers does to the supplies and to the axes. -/
theorem State.vmHiRegister_does {s : State} {d : DomainId} (clear : s.cmp.vmHi.getLsbD d = false) :
    (s.vmHiRegister d).cmp.vmHi.getLsbD d = true ∧ (∀ u ∈ unitsOf d, ((s.vmHiRegister d).cu.get u).regen = true) ∧
      (s.cmp.vmHiUnset.getLsbD d = false → (s.vmHiRegister d).cmp.brkReq.getLsbD d = true) ∧
      (s.vmHiRegister d).reg (Adr.EVT_CNT 40) = satInc (s.reg (Adr.EVT_CNT 40)) ∧ (s.vmHiRegister d).rb Adr.EVT_PEND_HI 8 = true ∧
      (s.vmHiRegister d).ax = s.ax := by
  have hi := s.vmHiMarked_vmHi d
  have supplied := supplied_supplies (s.vmHiMarked d)
  have count : (s.vmHiMarked d).supplies.reg (Adr.EVT_CNT 40) = s.reg (Adr.EVT_CNT 40) := by
    rw [supplied.reg _ (by decide) (by decide), s.reg_vmHiMarked d (by decide)]
  have requests (set : s.cmp.vmHiUnset.getLsbD d = false) : (s.vmHiMarked d).brakeAsked d = true := by
    refine List.any_eq_true.2 ⟨d, State.mem_sharing_self _ d, ?_⟩
    have unset : (s.vmHiMarked d).cmp.vmHiUnset.getLsbD d = false := set
    rw [State.requests, hi, unset]
    simp
  have tells := tells_raise (s.vmHiMarked d).supplies 40 (0x1D0 + d.val) 1 (wd (s.cmp.vmMv.getD d 0))
  rw [State.vmHiRegister_clear clear, tells.cmp, tells.cu, tells.ax]
  refine ⟨?_, fun u of => ?_, fun set => ?_, ?_, State.rb_raise_hi _ (e := 40) (by decide) .., supplied.ax⟩
  · rw [supplied.vmHi]; exact hi
  · rw [State.supplies_regen]; exact State.blocksRegen_of_vmHi hi of
  · rw [State.supplies_brkReq]; exact requests set
  · rw [State.raise, State.reg_of_regs (State.regs_raiseAt ..), State.reg_incReg_self, State.orReg,
      State.reg_setReg_other _ _ (by decide), count]

/-- Its record goes out at once where no chopper is enabled (R410). -/
theorem State.vmHiRegister_sends {s : State} {d : DomainId} (clear : s.cmp.vmHi.getLsbD d = false) (enabled : s.evEnabled 40 = true)
    (ring : s.eq.enabled = true) (up : s.hif.linkUp = true) (room : s.eqUsed < 2 ^ s.eqSize - 1) (whole : s.eq.dropped = 0)
    (alone : s.gather = none) (off : ∀ b : DomainId, s.rb (Adr.CMP_BRK b) 31 = false) :
    ∃ o a f l, (s.vmHiRegister d).out = s.out ++ .dmaWrite o a
      ((⟨40, 0x1D0 + d.val, s.eq.seq, s.frm.count, 1, wd (s.cmp.vmMv.getD d 0)⟩ : EvRec).bytes f) :: l := by
  have same {a : Nat} (n : a ≠ Adr.CMP_VSTICKY) := s.reg_vmHiMarked d n
  have quiet := State.supplies_quiet (s := s.vmHiMarked d) fun b => by
    rw [State.rb, same (by simp only [Adr.CMP_BRK, Adr.CMP_VSTICKY]; omega)]
    exact off b
  have reg (a : Nat) : (s.vmHiMarked d).supplies.reg a = (s.vmHiMarked d).reg a := State.reg_of_regs (congrArg State.regs quiet) a
  have eq : (s.vmHiMarked d).supplies.eq = s.eq := (congrArg State.eq quiet).trans rfl
  have hif : (s.vmHiMarked d).supplies.hif = s.hif := (congrArg State.hif quiet).trans rfl
  have frm : (s.vmHiMarked d).supplies.frm = s.frm := (congrArg State.frm quiet).trans rfl
  have out : (s.vmHiMarked d).supplies.out = s.out := (congrArg State.out quiet).trans rfl
  have gather : (s.vmHiMarked d).supplies.gather = s.gather := (congrArg State.gather quiet).trans rfl
  rw [State.vmHiRegister_clear clear]
  generalize (s.vmHiMarked d).supplies = t at reg eq hif frm out gather
  have on : t.evEnabled 40 = true := by
    rw [← enabled, State.evEnabled, State.evEnabled, State.rb, State.rb, reg, same (by decide)]
  have free : t.eqUsed < 2 ^ t.eqSize - 1 := by
    rwa [State.eqUsed, eq, State.eqSize, State.rf, reg, same (by decide)]
  have sent := State.raise_sends on (by rw [eq]; exact ring) (by rw [hif]; exact up) free (by rw [eq]; exact whole)
    (by rw [gather]; exact alone) (0x1D0 + d.val) 1 (wd (s.cmp.vmMv.getD d 0))
  rwa [out, eq, frm] at sent

theorem exec_vmEntryHiTrip {s : State} {d : DomainId} (on : s.sys.powered = true) (there : s.cmpOut (400 + d.val) = false) :
    exec (.vmEntryHiTrip d) s = .next (s.vmHiRegister d) := congrArg Host.Outcome.next (if_neg (by simp [on, there]))

/-- Settles O53: the mark of the side, the supplies that follow it, and the event. -/
theorem highVmEntry : Obligations.HighVmEntry := by
  unfold Obligations.HighVmEntry
  refine fun s d on there => ⟨fun clear set => ?_, fun stands => ?_⟩
  · refine completes_of_exec (exec_vmEntryHiTrip on there) ?_
    obtain ⟨hi, regen, request, count, pending, ax⟩ := State.vmHiRegister_does clear
    exact ⟨hi, regen, request set, count, pending, ax, fun enabled ring up room whole alone off =>
      State.vmHiRegister_sends clear enabled ring up room whole alone off⟩
  · rw [exec_vmEntryHiTrip on there, State.vmHiRegister, if_pos stands]

end Sys2Proof.Machine
end

section

namespace Sys2Proof.Machine

open Safety (evReg)

/-! ### The registers of thresholds (R314, R318) -/

section

variable {a id : Nat} (of : cmpOfReg a = some id)
include of

theorem cmpOfReg_above : 0x100000 ≤ a := by
  by_contra below
  have none : cmpOfReg a = none := by
    simp only [cmpOfReg, among, Adr.BAY, Adr.CMP_HWIN, Adr.CMP_VM, Adr.CMP_HVOV, Adr.CMP_RAIL, Bool.and_eq_true, decide_eq_true_eq]
    repeat rw [if_neg (by omega)]
  exact absurd (of.symm.trans none) (by simp)

theorem threshold_ne {b : Nat} (other : cmpOfReg b = none) : a ≠ b := by
  rintro rfl
  exact absurd (of.symm.trans other) (by simp)

theorem evReg_of_threshold : evReg a = false := evReg_of_above (by have := cmpOfReg_above of; omega)

/-- The threshold register of a VM entry. -/
theorem cmpOfReg_vm {d : DomainId} (vm : id = 400 + d.val) : a = Adr.CMP_VM d := by
  simp only [cmpOfReg, among, ixOf, Adr.BAY, Adr.CMP_HWIN, Adr.CMP_VM, Adr.CMP_HVOV, Adr.CMP_RAIL, Bool.and_eq_true,
    decide_eq_true_eq] at of ⊢
  split_ifs at of <;> simp only [Option.some.injEq] at of <;> omega

end

/-- What a side that registers leaves alone: the frame, the test in progress and the write that it holds, and every threshold. -/
structure SideMoves (s t : State) : Prop where
  frm : t.frm = s.frm
  sweep : t.cmp.sweep = s.cmp.sweep
  heldWr : t.cmp.heldWr = s.cmp.heldWr
  threshold : ∀ a id : Nat, cmpOfReg a = some id → t.reg a = s.reg a

theorem SideMoves.refl (s : State) : SideMoves s s := ⟨rfl, rfl, rfl, fun _ _ _ => rfl⟩

theorem SideMoves.trans {s t u : State} (h : SideMoves s t) (k : SideMoves t u) : SideMoves s u :=
  ⟨k.frm.trans h.frm, k.sweep.trans h.sweep, k.heldWr.trans h.heldWr, fun a id of => (k.threshold a id of).trans (h.threshold a id of)⟩

theorem Supplied.sideMoves {s t : State} (h : Supplied s t) : SideMoves s t :=
  ⟨h.frm, h.sweep, h.heldWr, fun _ _ of => h.reg_of_not_event (evReg_of_threshold of)⟩

theorem Within.sideMoves {s t : State} (h : Within true s t) : SideMoves s t :=
  ⟨h.frm, by rw [h.cmp], by rw [h.cmp], fun _ _ of => h.reg rfl _ (evReg_of_threshold of)⟩

theorem TripMoves.sideMoves {s t : State} (h : TripMoves s t) : SideMoves s t :=
  ⟨h.frm, by rw [h.within.eqn], by rw [h.within.eqn], fun _ _ of => h.reg (evReg_of_threshold of)⟩

theorem sideMoves_raise (s : State) (e u : Nat) (d0 d1 : Word) : SideMoves s (s.raise e u d0 d1) :=
  (within_raise (.refl true s) e u d0 d1).sideMoves

theorem sideMoves_modCu (s : State) (u : CarrierId) (f : CUnit → CUnit) : SideMoves s (s.modCu u f) :=
  ⟨rfl, rfl, rfl, fun _ _ _ => rfl⟩

theorem sideMoves_orReg (s : State) {b : Nat} (other : cmpOfReg b = none) (mask : Nat) : SideMoves s (s.orReg b mask) :=
  ⟨rfl, rfl, rfl, fun _ _ of => State.reg_setReg_other _ _ (threshold_ne of other)⟩

/-- A side of a supply is marked, with its sticky bit. -/
theorem sideMoves_marked (s : State) (c : Cmp) {b : Nat} (other : cmpOfReg b = none) (mask : Nat) (sweep : c.sweep = s.cmp.sweep)
    (held : c.heldWr = s.cmp.heldWr) : SideMoves s (({ s with cmp := c } : State).orReg b mask) :=
  ⟨rfl, sweep, held, fun _ _ of => State.reg_setReg_other _ _ (threshold_ne of other)⟩

theorem cmpOfReg_vsticky : cmpOfReg Adr.CMP_VSTICKY = none := by decide
theorem cmpOfReg_rsticky : cmpOfReg Adr.CMP_RSTICKY = none := by decide
theorem cmpOfReg_wstat (u : CarrierId) : cmpOfReg (Adr.BAY_WSTAT u) = none := by revert u; decide
theorem cmpOfReg_tripSticky (u : CarrierId) : cmpOfReg (Adr.BAY_TRIP_STICKY u) = none := by revert u; decide
theorem cmpOfReg_wside (u : CarrierId) : cmpOfReg (if u.val < 24 then Adr.BAY_WSIDE u else Adr.CMP_HWSIDE) = none := by revert u; decide

/-! ### A VM entry below its window (R322) -/

/-- The state in which the energised axes of a domain have taken a bridge fault by event 41, and it is told. -/
def State.domainFaulted (s : State) (d : DomainId) (cause : Word) : State :=
  (s.faultEnergised (axesOfDom d) 41).1.raise 41 (0x1D0 + d.val) cause (wd (s.faultEnergised (axesOfDom d) 41).2)

theorem State.domainFaulted_within (s : State) (d : DomainId) (cause : Word) : Within true s (s.domainFaulted d cause) :=
  within_raise (within_faultEnergised (.refl true s) ..) ..

theorem State.domainFaulted_does (s : State) (d : DomainId) (cause : Word) : (s.domainFaulted d cause).rb Adr.EVT_PEND_HI 9 = true ∧
    ∀ x ∈ axesOfDom d, (s.ax.get x).energised = true → ((s.domainFaulted d cause).ax.get x).tt.faulted.isSome = true := by
  refine ⟨State.rb_raise_hi _ (e := 41) (by decide) .., fun x of on => ?_⟩
  rw [State.domainFaulted, (tells_raise ..).ax]
  exact s.faultEnergised_faults _ 41 of on

/-- The state in which the LO side of a VM entry has registered, with its sticky bit. -/
def State.vmLoMarked (s : State) (d : DomainId) : State :=
  ({ s with cmp := { s.cmp with vmLo := putBit7 s.cmp.vmLo d true } }).orReg Adr.CMP_VSTICKY (2 ^ d.val)

theorem State.vmLoMarked_vmLo (s : State) (d : DomainId) : (s.vmLoMarked d).cmp.vmLo.getLsbD d = true := by
  show (putBit7 s.cmp.vmLo d true).getLsbD d = true
  rw [getLsbD_putBit7 _ _ d.isLt, if_pos rfl]

section

variable {s : State} {d : DomainId}

theorem State.vmLoRegister_clear (clear : s.cmp.vmLo.getLsbD d = false) : s.vmLoRegister d = (s.vmLoMarked d).domainFaulted d 0 :=
  if_neg (by rw [clear]; decide)

theorem State.vmLoRegister_stands (stands : s.cmp.vmLo.getLsbD d = true) : s.vmLoRegister d = s := if_pos stands

theorem State.vmHiRegister_stands (stands : s.cmp.vmHi.getLsbD d = true) : s.vmHiRegister d = s := if_pos stands

variable (s d)

theorem State.vmLoRegister_vmLo : (s.vmLoRegister d).cmp.vmLo.getLsbD d = true := by
  cases side : s.cmp.vmLo.getLsbD d
  · rw [State.vmLoRegister_clear side, (State.domainFaulted_within ..).cmp]; exact s.vmLoMarked_vmLo d
  · rw [State.vmLoRegister_stands side]; exact side

theorem State.vmHiRegister_vmHi : (s.vmHiRegister d).cmp.vmHi.getLsbD d = true := by
  cases side : s.cmp.vmHi.getLsbD d
  · exact (State.vmHiRegister_does side).1
  · rw [State.vmHiRegister_stands side]; exact side

theorem State.vmHiRegister_vmLo : (s.vmHiRegister d).cmp.vmLo = s.cmp.vmLo := by
  cases side : s.cmp.vmHi.getLsbD d
  · rw [State.vmHiRegister_clear side, (tells_raise ..).cmp, (supplied_supplies _).vmLo]; rfl
  · rw [State.vmHiRegister_stands side]

theorem State.vmLoRegister_moves : SideMoves s (s.vmLoRegister d) := by
  cases side : s.cmp.vmLo.getLsbD d
  · rw [State.vmLoRegister_clear side]
    have marked : SideMoves s (s.vmLoMarked d) := sideMoves_marked s _ cmpOfReg_vsticky _ rfl rfl
    exact marked.trans (State.domainFaulted_within ..).sideMoves
  · rw [State.vmLoRegister_stands side]; exact .refl s

theorem State.vmHiRegister_moves : SideMoves s (s.vmHiRegister d) := by
  cases side : s.cmp.vmHi.getLsbD d
  · rw [State.vmHiRegister_clear side]
    have marked : SideMoves s (s.vmHiMarked d) := sideMoves_marked s _ cmpOfReg_vsticky _ rfl rfl
    exact (marked.trans (supplied_supplies _).sideMoves).trans (sideMoves_raise ..)
  · rw [State.vmHiRegister_stands side]; exact .refl s

theorem State.vmLoRegister_does (clear : s.cmp.vmLo.getLsbD d = false) : (s.vmLoRegister d).cmp.vmLo.getLsbD d = true ∧
    (s.vmLoRegister d).rb Adr.CMP_VSTICKY d.val = true ∧ (s.vmLoRegister d).rb Adr.EVT_PEND_HI 9 = true ∧
    ∀ x ∈ axesOfDom d, (s.ax.get x).energised = true → ((s.vmLoRegister d).ax.get x).tt.faulted.isSome = true := by
  refine ⟨s.vmLoRegister_vmLo d, ?_⟩
  rw [State.vmLoRegister_clear clear]
  obtain ⟨pending, faulted⟩ := (s.vmLoMarked d).domainFaulted_does d 0
  refine ⟨?_, pending, faulted⟩
  rw [State.rb, (State.domainFaulted_within ..).reg rfl _ (by decide)]
  exact State.rb_orReg_self _ _ (k := d.val) (by omega)

end

theorem exec_vmEntryLoTrip {s : State} {d : DomainId} (on : s.sys.powered = true) (there : s.cmpOut (400 + d.val) = false) :
    exec (.vmEntryLoTrip d) s = .next (s.vmLoRegister d) := congrArg Host.Outcome.next (if_neg (by simp [on, there]))

/-! ### Over-voltage monitors and choppers (R323, R326) -/

/-- The state in which an over-voltage monitor has registered, with its sticky bit. -/
def State.ovMarked (s : State) (u : CarrierId) : State :=
  (if u.val < 24 then s.orReg (Adr.BAY_WSTAT u) (2 ^ 18) else s.orReg Adr.CMP_VSTICKY (2 ^ 16)).modCu u fun c =>
    { c with ov := true, ovSeen := true }

theorem State.ovRegister_stands {s : State} {u : CarrierId} (stands : (s.cu.get u).ov = true) : s.ovRegister u = s := if_pos stands

theorem State.ovRegister_clear {s : State} {u : CarrierId} (clear : (s.cu.get u).ov = false) : s.ovRegister u =
    if (s.cu.get u).ovSeen = true then (s.ovMarked u).supplies
    else (s.ovMarked u).supplies.raise 40 (unitCode u) 0 (wd (s.lastVm u)) := if_neg (by rw [clear]; decide)

theorem State.ovMarked_ov (s : State) (u : CarrierId) : ((s.ovMarked u).cu.get u).ov = true := by rw [State.ovMarked, State.cu_modCu_self]

theorem State.ovMarked_moves (s : State) (u : CarrierId) : SideMoves s (s.ovMarked u) ∧ (s.ovMarked u).ax = s.ax := by
  unfold State.ovMarked
  split
  · exact ⟨(sideMoves_orReg s (cmpOfReg_wstat u) _).trans (sideMoves_modCu ..), rfl⟩
  · exact ⟨(sideMoves_orReg s cmpOfReg_vsticky _).trans (sideMoves_modCu ..), rfl⟩

theorem State.ovRegister_moves (s : State) (u : CarrierId) : SideMoves s (s.ovRegister u) := by
  cases side : (s.cu.get u).ov
  · rw [State.ovRegister_clear side]
    have moves := (s.ovMarked_moves u).1.trans (supplied_supplies _).sideMoves
    split
    · exact moves
    · exact moves.trans (sideMoves_raise ..)
  · rw [State.ovRegister_stands side]; exact .refl s

theorem State.ovRegister_does {s : State} {u : CarrierId} (clear : (s.cu.get u).ov = false) :
    ((s.ovRegister u).cu.get u).ov = true ∧ ((s.ovRegister u).cu.get u).regen = true ∧ (s.ovRegister u).ax = s.ax ∧
      ((s.cu.get u).ovSeen = false → (s.ovRegister u).rb Adr.EVT_PEND_HI 8 = true) := by
  have supplied := supplied_supplies (s.ovMarked u)
  have ov : ((s.ovMarked u).supplies.cu.get u).ov = true := by rw [supplied.ov, s.ovMarked_ov u]
  have regen : ((s.ovMarked u).supplies.cu.get u).regen = true := by
    rw [State.supplies_regen]; exact State.blocksRegen_of_ov (s.ovMarked_ov u)
  have ax : (s.ovMarked u).supplies.ax = s.ax := supplied.ax.trans (s.ovMarked_moves u).2
  rw [State.ovRegister_clear clear]
  split
  next seen => exact ⟨ov, regen, ax, fun first => absurd (seen.symm.trans first) (by decide)⟩
  next =>
    rw [(tells_raise ..).cu, (tells_raise ..).ax]
    exact ⟨ov, regen, ax, fun _ => State.rb_raise_hi _ (e := 40) (by decide) ..⟩

theorem exec_overvoltageMonitorTrip {s : State} {u : CarrierId} (on : s.sys.powered = true) (there : s.cmpOut (ovCmp u) = false) :
    exec (.overvoltageMonitorTrip u) s = .next (s.ovRegister u) := congrArg Host.Outcome.next (if_neg (by simp [on, there]))

theorem exec_overvoltageMonitorTrip_idle {s : State} {u : CarrierId} (on : s.sys.powered = true)
    (idle : s.cmpOut (ovCmp u) = true ∨ (s.cu.get u).ov = true) : exec (.overvoltageMonitorTrip u) s = .next s := by
  cases there : s.cmpOut (ovCmp u)
  · have stands := idle.resolve_left (by rw [there]; decide)
    rw [exec_overvoltageMonitorTrip on there, State.ovRegister_stands stands]
  · exact congrArg Host.Outcome.next (if_pos (.inr there))

theorem State.limitChopper_does (s : State) (b : DomainId) :
    (s.limitChopper b).cmp.brkOff.getLsbD b = true ∧ (s.limitChopper b).cmp.brkOn.getLsbD b = false ∧
      (s.limitChopper b).rb Adr.CMP_BRKSTAT (16 + b.val) = true ∧ (s.limitChopper b).rb Adr.EVT_PEND_LO 31 = true ∧
      (s.limitChopper b).ax = s.ax := by
  unfold State.limitChopper
  extract_lets i s1 c
  have pending := s.rb_raise_lo (e := 31) (by decide) (0x1D8 + i) 1 (wd (s.cmp.brkPrev.getD i 0))
  refine ⟨?_, ?_, State.rb_orReg_self _ _ (k := 16 + b.val) (by omega), ?_, (tells_raise ..).ax⟩
  · exact (getLsbD_putBit7 _ _ b.isLt).trans (if_pos rfl)
  · exact (getLsbD_putBit7 _ _ b.isLt).trans (if_pos rfl)
  · exact (congrArg (fun w : Word => bitOf w 31) (State.reg_setReg_other _ _ (by decide))).trans pending

theorem exec_brakeChopperLimit {s : State} {b : DomainId} (on : s.sys.powered = true) :
    exec (.brakeChopperLimit b) s = .next (if s.atLimit b = true then s.limitChopper b else s) := by
  refine congrArg Host.Outcome.next ?_
  simp only [on, true_and]

/-! ### Rails (R327) -/

/-- The state in which the LO side of a rail has registered, with its sticky bit. -/
def State.railLoMarked (s : State) (r : Fin 13) : State :=
  ({ s with cmp := { s.cmp with railLo := s.cmp.railLo ||| BitVec.ofNat 13 (2 ^ r.val) } }).orReg Adr.CMP_RSTICKY (2 ^ r.val)

/-- The state in which the HI side of a rail has registered, with its sticky bit. -/
def State.railHiMarked (s : State) (r : Fin 13) : State :=
  ({ s with cmp := { s.cmp with railHi := s.cmp.railHi ||| BitVec.ofNat 13 (2 ^ r.val) } }).orReg Adr.CMP_RSTICKY (2 ^ (16 + r.val))

section

variable {s : State} {r : Fin 13}

theorem State.railLoRegister_stands (stands : s.cmp.railLo.getLsbD r = true) : s.railLoRegister r = s := if_pos stands

theorem State.railHiRegister_stands (stands : s.cmp.railHi.getLsbD r = true) : s.railHiRegister r = s := if_pos stands

theorem State.railLoRegister_clear (clear : s.cmp.railLo.getLsbD r = false) : s.railLoRegister r =
    if s.railSilent r = true then s.railLoMarked r
    else if 5 ≤ r.val ∧ r.val ≤ 10 then (s.railLoMarked r).domainFaulted (Fin.ofNat 7 (r.val - 5)) 1
    else (s.railLoMarked r).raise 42 (0x1E0 + r.val) 0 (wd (winLo (s.reg (Adr.CMP_RAIL r)) * railStep r)) :=
  if_neg (by rw [clear]; decide)

theorem State.railHiRegister_clear (clear : s.cmp.railHi.getLsbD r = false) : s.railHiRegister r =
    if s.railSilent r = true then s.railHiMarked r
    else (s.railHiMarked r).raise 42 (0x1E0 + r.val) 1 (wd (winHi (s.reg (Adr.CMP_RAIL r)) * railStep r)) :=
  if_neg (by rw [clear]; decide)

variable (s r)

theorem State.railLoMarked_railLo : (s.railLoMarked r).cmp.railLo.getLsbD r = true := by
  show (s.cmp.railLo ||| BitVec.ofNat 13 (2 ^ r.val)).getLsbD r = true
  rw [getLsbD_or_two_pow]
  simp

theorem State.railHiMarked_railHi : (s.railHiMarked r).cmp.railHi.getLsbD r = true := by
  show (s.cmp.railHi ||| BitVec.ofNat 13 (2 ^ r.val)).getLsbD r = true
  rw [getLsbD_or_two_pow]
  simp

theorem State.railLoMarked_moves : SideMoves s (s.railLoMarked r) := sideMoves_marked s _ cmpOfReg_rsticky _ rfl rfl

theorem State.railHiMarked_moves : SideMoves s (s.railHiMarked r) := sideMoves_marked s _ cmpOfReg_rsticky _ rfl rfl

/-- Beside its marks, a LO side of a rail moves what telling and faulting axes do. -/
theorem State.railLoRegister_within {s : State} {r : Fin 13} (clear : s.cmp.railLo.getLsbD r = false) :
    Within true (s.railLoMarked r) (s.railLoRegister r) := by
  rw [State.railLoRegister_clear clear]
  split
  · exact .refl true _
  · split
    · exact State.domainFaulted_within ..
    · exact within_raise (.refl true _) ..

theorem State.railHiRegister_tells {s : State} {r : Fin 13} (clear : s.cmp.railHi.getLsbD r = false) :
    Tells (s.railHiMarked r) (s.railHiRegister r) ∧ Within true (s.railHiMarked r) (s.railHiRegister r) := by
  rw [State.railHiRegister_clear clear]
  split
  · exact ⟨.refl _, .refl true _⟩
  · exact ⟨tells_raise .., within_raise (.refl true _) ..⟩

theorem State.railLoRegister_moves : SideMoves s (s.railLoRegister r) := by
  cases side : s.cmp.railLo.getLsbD r
  · exact (s.railLoMarked_moves r).trans (State.railLoRegister_within side).sideMoves
  · rw [State.railLoRegister_stands side]; exact .refl s

theorem State.railHiRegister_moves : SideMoves s (s.railHiRegister r) := by
  cases side : s.cmp.railHi.getLsbD r
  · exact (s.railHiMarked_moves r).trans (State.railHiRegister_tells side).2.sideMoves
  · rw [State.railHiRegister_stands side]; exact .refl s

end

theorem State.railLoRegister_does {s : State} {r : Fin 13} (clear : s.cmp.railLo.getLsbD r = false) :
    let t := s.railLoRegister r
    t.cmp.railLo.getLsbD r = true ∧ t.rb Adr.CMP_RSTICKY r.val = true ∧ (s.railSilent r = true → t.ax = s.ax ∧ t.eq = s.eq) ∧
      (s.railSilent r = false → (if 5 ≤ r.val ∧ r.val ≤ 10 then t.rb Adr.EVT_PEND_HI 9 else t.rb Adr.EVT_PEND_HI 10) = true) := by
  have within := State.railLoRegister_within clear
  refine ⟨?_, ?_, fun silent => ?_, fun heard => ?_⟩
  · rw [within.cmp]; exact s.railLoMarked_railLo r
  · rw [State.rb, within.reg rfl _ (by decide)]
    exact State.rb_orReg_self _ _ (k := r.val) (by omega)
  · rw [State.railLoRegister_clear clear, if_pos silent]; exact ⟨rfl, rfl⟩
  · have loud : ¬ s.railSilent r = true := by rw [heard]; decide
    rw [State.railLoRegister_clear clear, if_neg loud]
    by_cases gate : 5 ≤ r.val ∧ r.val ≤ 10
    · rw [if_pos gate, if_pos gate]
      exact (State.domainFaulted_does ..).1
    · rw [if_neg gate, if_neg gate]
      exact State.rb_raise_hi _ (e := 42) (by decide) ..

theorem State.railHiRegister_does {s : State} {r : Fin 13} (clear : s.cmp.railHi.getLsbD r = false) :
    let t := s.railHiRegister r
    t.cmp.railHi.getLsbD r = true ∧ t.rb Adr.CMP_RSTICKY (16 + r.val) = true ∧ t.ax = s.ax ∧
      (s.railSilent r = false → t.rb Adr.EVT_PEND_HI 10 = true) := by
  obtain ⟨tells, within⟩ := State.railHiRegister_tells clear
  refine ⟨?_, ?_, tells.ax, fun heard => ?_⟩
  · rw [within.cmp]; exact s.railHiMarked_railHi r
  · rw [State.rb, within.reg rfl _ (by decide)]
    exact State.rb_orReg_self _ _ (k := 16 + r.val) (by omega)
  · rw [State.railHiRegister_clear clear, if_neg (by rw [heard]; decide)]
    exact State.rb_raise_hi _ (e := 42) (by decide) ..

theorem exec_railLoTrip {s : State} {r : Fin 13} (on : s.sys.powered = true) : exec (.railLoTrip r) s = .next (s.railLoRegister r) :=
  congrArg Host.Outcome.next (if_pos on)

theorem exec_railHiTrip {s : State} {r : Fin 13} (on : s.sys.powered = true) : exec (.railHiTrip r) s = .next (s.railHiRegister r) :=
  congrArg Host.Outcome.next (if_pos on)

end Sys2Proof.Machine
end

section

namespace Sys2Proof.Machine

open Safety

/-! ### The sweep (R319, R321) -/

/-- The state in which a sweep begins, and is told (R319). -/
def State.sweepBegun (s : State) : State :=
  ({ s with cmp := { s.cmp with sweep := some (0, 0), sweepAt := s.frm.count } }).raise 45 0x1F1 0x1FF 0

theorem State.startSweep_free {s : State} (free : s.cmp.sweep = none) : s.startSweep = s.sweepBegun :=
  if_neg (by rw [free]; decide)

theorem State.sweepBegun_does (s : State) : s.sweepBegun.cmp = { s.cmp with sweep := some (0, 0), sweepAt := s.frm.count } ∧
    s.sweepBegun.rb Adr.EVT_PEND_HI 13 = true ∧ s.sweepBegun.ax = s.ax ∧ s.sweepBegun.cu = s.cu :=
  ⟨(tells_raise ..).cmp, State.rb_raise_hi _ (e := 45) (by decide) .., (tells_raise ..).ax, (tells_raise ..).cu⟩

/-- What an admin master writes reaches its bits, and is not counted (R396). -/
theorem State.gate_of_admin {s : State} {m : Master} (on : s.sys.powered = true) (adm : m.admin = true) (a k : Nat) :
    s.gate m a k = (s, true) := by
  have may : s.mayWrite m a = true := by
    cases m with
    | pf0 => rfl
    | pf1 => cases adm
    | spiAdmin => rfl
    | spiOpen => cases adm
    | supervisor => rfl
  have acts : Acts s m a k := ⟨on, by rw [State.reaches, on, may, adm]; rfl⟩
  rw [State.gate_of_reach acts, s.noted_admin adm]

theorem exec_cmpSweepWrite {s : State} {m : Master} (on : s.sys.powered = true) (free : s.cmp.sweep = none) (adm : m.admin = true) :
    exec (.cmpSweepWrite m) s = .next s.sweepBegun := by
  refine congrArg Host.Outcome.next ?_
  rw [State.sweepWrite, State.gate_of_admin on adm]
  exact State.startSweep_free free

theorem exec_comparatorSweepStart_idle {s : State}
    (idle : s.rf Adr.CMP_CFG 27 16 = 0 ∨ s.since s.cmp.sweepFrom < s.rf Adr.CMP_CFG 27 16 * s.hz) :
    exec .comparatorSweepStart s = .next s := by
  refine congrArg Host.Outcome.next (if_neg fun ⟨_, set, due⟩ => ?_)
  exact idle.elim set fun early => Nat.not_le.2 early due

theorem exec_comparatorSweepStart_due {s : State} (on : s.sys.powered = true) (free : s.cmp.sweep = none)
    (set : s.rf Adr.CMP_CFG 27 16 ≠ 0) (due : s.rf Adr.CMP_CFG 27 16 * s.hz ≤ s.since s.cmp.sweepFrom) :
    exec .comparatorSweepStart s =
      .next ({ s with cmp := { s.cmp with sweepFrom := s.frm.count } } : State).sweepBegun := by
  refine congrArg Host.Outcome.next ((if_pos ⟨on, set, due⟩).trans ?_)
  exact State.startSweep_free free

/-! ### The end of a test (R318, R319, R321) -/

/-- The state that has taken the threshold write held during the test (R318). -/
def State.heldTaken (s : State) : State :=
  match s.cmp.heldWr with
  | some (a, v) => (({ s with cmp := { s.cmp with heldWr := none } } : State).setReg a v).rewritten a
  | none => s

theorem State.heldTaken_none {s : State} (held : s.cmp.heldWr = none) : s.heldTaken = s := by
  rw [State.heldTaken, held]

theorem State.heldTaken_some {s : State} {a : Nat} {v : Word} (held : s.cmp.heldWr = some (a, v)) :
    s.heldTaken = (({ s with cmp := { s.cmp with heldWr := none } } : State).setReg a v).rewritten a := by
  rw [State.heldTaken, held]

theorem State.heldTaken_cmp (s : State) : s.heldTaken.cmp = { s.cmp with heldWr := none } := by
  cases held : s.cmp.heldWr with
  | none => rw [State.heldTaken_none held, ← held]
  | some p => rw [State.heldTaken_some held]; rfl

theorem State.heldTaken_frm (s : State) : s.heldTaken.frm = s.frm := by
  cases held : s.cmp.heldWr with
  | none => rw [State.heldTaken_none held]
  | some p => rw [State.heldTaken_some held]; rfl

/-- The state in which comparator `id` is back in service with both sides tripped, on its fallback, before the supplies follow (R319). -/
def State.restricted (s : State) (id : Nat) : State :=
  let s1 :=
    if id < 400 then
      s.modCu (Fin.ofNat 25 (id / 16)) fun q =>
        { q with cmpLo := q.cmpLo ||| BitVec.ofNat 16 (2 ^ (id % 16)), cmpHi := q.cmpHi ||| BitVec.ofNat 16 (2 ^ (id % 16)),
                 unset := q.unset ||| BitVec.ofNat 16 (2 ^ (id % 16)) }
    else if id < 407 then
      { s with cmp := { s.cmp with vmLo := putBit7 s.cmp.vmLo (id - 400) true, vmHi := putBit7 s.cmp.vmHi (id - 400) true } }
    else s.modCu ((cmpUnit id).getD 24) fun q => { q with ov := true }
  { s1 with cmp := { s1.cmp with fallback := s1.cmp.fallback ++ [id] } }

theorem State.backToService_eq (s : State) (id : Nat) : s.backToService id = (s.restricted id).supplies := rfl

/-- What a comparator that is back in service leaves alone, but for its sides and the supplies that follow them. -/
theorem State.backToService_does (s : State) (id : Nat) : SideMoves s (s.backToService id) ∧
    (s.backToService id).cmp.fallback = s.cmp.fallback ++ [id] ∧ (s.backToService id).cmp.failed = s.cmp.failed := by
  have restricted : SideMoves s (s.restricted id) ∧ (s.restricted id).cmp.fallback = s.cmp.fallback ++ [id] ∧
      (s.restricted id).cmp.failed = s.cmp.failed := by
    unfold State.restricted
    split
    · exact ⟨⟨rfl, rfl, rfl, fun _ _ _ => rfl⟩, rfl, rfl⟩
    · split <;> exact ⟨⟨rfl, rfl, rfl, fun _ _ _ => rfl⟩, rfl, rfl⟩
  obtain ⟨moves, fallback, failed⟩ := restricted
  have supplied := supplied_supplies (s.restricted id)
  rw [State.backToService_eq]
  exact ⟨moves.trans supplied.sideMoves, supplied.fallback.trans fallback, supplied.failed.trans failed⟩

/-- The state in which comparator `id` has its verdict (R321). -/
def State.judged (s : State) (id : Nat) (o : TestOutcome) : State :=
  match o with
  | .passed => s.passTest id
  | .failed => ({ s with cmp := { s.cmp with failed := insFailed id s.cmp.failed } } : State).raise 45 0x1F1 (wd (id + 131072)) 0
  | .refErr => (s.backToService id).raise 45 0x1F1 (wd (id + 196608)) 0

theorem mem_insFailed (id : Nat) (l : List Nat) : id ∈ insFailed id l := by
  induction l with
  | nil => exact List.mem_singleton.2 rfl
  | cons a l ih =>
    unfold insFailed
    split
    · exact List.mem_cons_self
    · split
      next same => rw [same]; exact List.mem_cons_self
      next => exact List.mem_cons_of_mem _ ih

theorem State.judged_moves (s : State) (id : Nat) (o : TestOutcome) : SideMoves s (s.judged id o) := by
  cases o with
  | passed =>
    have returned := (({ s with cmp := { s.cmp with failed := s.cmp.failed.filter (· != id) } } : State).backToService_does id).1
    exact ⟨returned.frm, returned.sweep, returned.heldWr, returned.threshold⟩
  | failed =>
    have told := sideMoves_raise ({ s with cmp := { s.cmp with failed := insFailed id s.cmp.failed } } : State) 45 0x1F1
      (wd (id + 131072)) 0
    exact ⟨told.frm, told.sweep, told.heldWr, told.threshold⟩
  | refErr => exact (s.backToService_does id).1.trans (sideMoves_raise ..)

/-- A comparator that passes returns with its fallback, and leaves the list of those that failed. -/
theorem State.judged_passed (s : State) (id : Nat) :
    id ∈ (s.judged id .passed).cmp.fallback ∧ id ∉ (s.judged id .passed).cmp.failed := by
  obtain ⟨-, fallback, failed⟩ :=
    ({ s with cmp := { s.cmp with failed := s.cmp.failed.filter (· != id) } } : State).backToService_does id
  refine ⟨?_, ?_⟩
  · rw [State.judged, State.passTest, fallback]
    exact List.mem_append_right _ (List.mem_singleton.2 rfl)
  · rw [State.judged, State.passTest, failed]
    simp

/-- A comparator that fails joins the list of those that failed. -/
theorem State.judged_failed (s : State) (id : Nat) : id ∈ (s.judged id .failed).cmp.failed ∧ (s.judged id .failed).cu = s.cu := by
  refine ⟨?_, (tells_raise ..).cu⟩
  rw [State.judged, (tells_raise ..).cmp]
  exact mem_insFailed id _

/-- A test that is abandoned gives no verdict: the comparator returns with its fallback, and it is told. -/
theorem State.judged_refErr (s : State) (id : Nat) : id ∈ (s.judged id .refErr).cmp.fallback ∧
    (s.judged id .refErr).cmp.failed = s.cmp.failed ∧ (s.judged id .refErr).rb Adr.EVT_PEND_HI 13 = true := by
  obtain ⟨-, fallback, failed⟩ := s.backToService_does id
  refine ⟨?_, ?_, State.rb_raise_hi _ (e := 45) (by decide) ..⟩
  · rw [State.judged, (tells_raise ..).cmp, fallback]
    exact List.mem_append_right _ (List.mem_singleton.2 rfl)
  · rw [State.judged, (tells_raise ..).cmp, failed]

/-- The state in which the next comparator is under test, `n` failures found. -/
def State.testNext (s : State) (id n : Nat) : State :=
  { s with cmp := { s.cmp with sweep := some (id + 1, n), sweepAt := s.frm.count } }

theorem State.endTest_eq (s : State) {id : Nat} (more : id < 431) (n : Nat) (o : TestOutcome) :
    s.endTest id n o = (s.heldTaken.judged id o).testNext id (n + if o = .failed then 1 else 0) := by
  have carrier : ¬ 432 ≤ id := by omega
  have last : ¬ 431 ≤ id := by omega
  cases o <;> exact (if_neg carrier).trans (if_neg last)

/-- What the end of a test does, whatever the verdict. -/
theorem State.endTest_does (s : State) {id : Nat} (more : id < 431) (n : Nat) (o : TestOutcome) :
    (s.endTest id n o).cmp.sweep = some (id + 1, n + if o = .failed then 1 else 0) ∧ (s.endTest id n o).cmp.sweepAt = s.frm.count ∧
      (s.endTest id n o).cmp.heldWr = none ∧
      ∀ (a i : Nat) (v : Word), s.cmp.heldWr = some (a, v) → cmpOfReg a = some i → (s.endTest id n o).reg a = v := by
  have moves := s.heldTaken.judged_moves id o
  rw [s.endTest_eq more]
  refine ⟨rfl, ?_, ?_, fun a i v held of => ?_⟩
  · show (s.heldTaken.judged id o).frm.count = _
    rw [moves.frm, s.heldTaken_frm]
  · show (s.heldTaken.judged id o).cmp.heldWr = _
    rw [moves.heldWr, s.heldTaken_cmp]
  · refine (moves.threshold a i of).trans ?_
    rw [State.heldTaken_some held]
    exact State.reg_setReg_self ..

section

variable {s : State} {id n : Nat} (sweep : s.cmp.sweep = some (id, n)) (o : TestOutcome)
include sweep

theorem exec_comparatorTestEnd_refErr (bad : s.refErrOf id = true) : exec (.comparatorTestEnd o) s = .next (s.endTest id n .refErr) := by
  refine congrArg Host.Outcome.next ?_
  rw [sweep]
  exact if_pos bad

theorem exec_comparatorTestEnd_ends (good : s.refErrOf id = false) (late : 32 ≤ s.since s.cmp.sweepAt) (verdict : o ≠ .refErr) :
    exec (.comparatorTestEnd o) s = .next (s.endTest id n o) := by
  refine congrArg Host.Outcome.next ?_
  rw [sweep]
  refine (if_neg (by rw [good]; decide)).trans (if_neg ?_)
  rintro (abandoned | ⟨-, early⟩)
  · exact verdict abandoned
  · exact Nat.not_le.2 early late

theorem exec_comparatorTestEnd_idle (more : id < 431) (good : s.refErrOf id = false) (idle : s.since s.cmp.sweepAt < 32 ∨ o = .refErr) :
    exec (.comparatorTestEnd o) s = .next s := by
  refine congrArg Host.Outcome.next ?_
  rw [sweep]
  refine (if_neg (by rw [good]; decide)).trans (if_pos (idle.symm.imp_right fun early => ⟨by omega, early⟩))

end

end Sys2Proof.Machine
end

section

namespace Sys2Proof.Machine

open Safety

/-! ### The check after a threshold write (R318) -/

/-- A trip of a coil keeps the thresholds, the frame and the test in progress. -/
theorem State.coilTrip_sideMoves (s : State) (u : CarrierId) (c : Fin 16) (t : Nat) (clk : Word) (same : Bool) :
    SideMoves s (s.coilTrip u c t clk same) := by
  have stuck : SideMoves s (s.stuck u c) := by
    unfold State.stuck
    split
    · exact sideMoves_orReg s (cmpOfReg_tripSticky u) _
    · exact .refl s
  cases again : (s.cu.get u).tripped.getLsbD c
  · exact ((stuck.trans (State.keepHighs_moves ..).sideMoves).trans (sideMoves_modCu ..)).trans
      (State.coilTrip_first again t clk same).sideMoves
  · rw [State.coilTrip_again again]
    exact stuck

/-- The check of one side of a coil's window after a threshold write: a trip's clock is a free value. -/
def State.recheckSide (s : State) (u : CarrierId) (c : Fin 16) (hi : Bool) : State :=
  match s.coilSide u c hi with
  | some t => let (k, t1) := t.drawFree; t1.coilTrip u c (t1.halfClock u k.toNat % t1.nClk) k false
  | none => s

theorem State.recheckSide_moves (s : State) (u : CarrierId) (c : Fin 16) (hi : Bool) : SideMoves s (s.recheckSide u c hi) := by
  unfold State.recheckSide
  by_cases side : (s.cu.get u).sideSet c hi = true
  · rw [show s.coilSide u c hi = none from if_pos side]
    exact .refl s
  · rw [show s.coilSide u c hi = some (s.sided u c hi) from if_neg side]
    have sided : SideMoves s (s.sided u c hi) := (sideMoves_modCu ..).trans (sideMoves_orReg _ (cmpOfReg_wside u) _)
    have drawn : SideMoves s (s.sided u c hi).drawFree.2 := ⟨sided.frm, sided.sweep, sided.heldWr, sided.threshold⟩
    exact drawn.trans (State.coilTrip_sideMoves ..)

theorem SideMoves.ite {s t u : State} {p : Prop} [Decidable p] (h : SideMoves s t) (k : SideMoves s u) :
    SideMoves s (if p then t else u) := by
  split
  · exact h
  · exact k

/-- The check of the side below its threshold and then of the one above it keeps what each of them keeps. -/
theorem SideMoves.sides {s : State} {lo hi : State → State} (low : ∀ t, SideMoves t (lo t)) (high : ∀ t, SideMoves t (hi t))
    (p q : Prop) [Decidable p] [Decidable q] : SideMoves s (if q then hi (if p then lo s else s) else if p then lo s else s) := by
  have first : SideMoves s (if p then lo s else s) := (low s).ite (.refl s)
  exact (first.trans (high _)).ite first

theorem State.recheck_moves (s : State) (id : Nat) : SideMoves s (s.recheck id) := by
  unfold State.recheck
  refine .ite (.refl s) (.ite ?_ (.ite ?_ (.ite ?_ ?_)))
  · exact .sides (fun t => t.recheckSide_moves (Fin.ofNat 25 (id / 16)) (Fin.ofNat 16 id) false)
      (fun t => t.recheckSide_moves (Fin.ofNat 25 (id / 16)) (Fin.ofNat 16 id) true) _ _
  · exact .sides (fun t => t.vmLoRegister_moves (Fin.ofNat 7 (id - 400))) (fun t => t.vmHiRegister_moves (Fin.ofNat 7 (id - 400))) _ _
  · exact .ite (s.ovRegister_moves _) (.refl s)
  · exact .sides (fun t => t.railLoRegister_moves (Fin.ofNat 13 (id - 432)))
      (fun t => t.railHiRegister_moves (Fin.ofNat 13 (id - 432))) _ _

/-- The check of a VM entry: each side beyond its threshold registers. -/
theorem State.recheck_vm {s : State} {d : DomainId} (there : s.cmpOut (400 + d.val) = false) :
    s.recheck (400 + d.val) =
      let low := if s.cmp.vmMv.getD d 0 < winLo (s.reg (Adr.CMP_VM d)) * vmStep (d.val == 6) then s.vmLoRegister d else s
      if winHi (s.reg (Adr.CMP_VM d)) * vmStep (d.val == 6) < s.cmp.vmMv.getD d 0 then low.vmHiRegister d else low := by
  have dom : (Fin.ofNat 7 (400 + d.val - 400) : DomainId) = d := Fin.ext (by simp only [Fin.val_ofNat]; omega)
  have coil : ¬ 400 + d.val < 400 := by omega
  have entry : 400 + d.val < 407 := by omega
  unfold State.recheck
  rw [if_neg (by rw [there]; decide), if_neg coil, if_pos entry]
  dsimp only
  rw [dom]

/-- A threshold of a VM entry that its value lies beyond trips the side of it; one that it lies within moves nothing. -/
theorem State.recheck_vm_does {s : State} {d : DomainId} (there : s.cmpOut (400 + d.val) = false) :
    let mv := s.cmp.vmMv.getD d 0
    let v := s.reg (Adr.CMP_VM d)
    let step := vmStep (d.val == 6)
    (mv < winLo v * step → (s.recheck (400 + d.val)).cmp.vmLo.getLsbD d = true) ∧
      (winHi v * step < mv → (s.recheck (400 + d.val)).cmp.vmHi.getLsbD d = true) ∧
      (winLo v * step ≤ mv → mv ≤ winHi v * step → s.recheck (400 + d.val) = s) := by
  intro mv v step
  rw [State.recheck_vm there]
  refine ⟨fun low => ?_, fun high => ?_, fun low high => ?_⟩
  · dsimp only
    rw [if_pos low]
    split
    · rw [State.vmHiRegister_vmLo]; exact s.vmLoRegister_vmLo d
    · exact s.vmLoRegister_vmLo d
  · dsimp only
    rw [if_pos high]
    exact State.vmHiRegister_vmHi ..
  · dsimp only
    rw [if_neg (Nat.not_lt.2 low), if_neg (Nat.not_lt.2 high)]

/-! ### Threshold writes (R318) -/

/-- No register has privileged bits beyond its word. -/
theorem prvOf_lt (a : Nat) : prvOf a < 2 ^ 32 := by
  have rows : ∀ r ∈ regMap, r.prv < 2 ^ 32 := by decide +kernel
  unfold prvOf
  cases found : rowOf a with
  | none => decide
  | some r => exact rows r (List.mem_of_find?_eq_some found)

/-- A write that reaches the whole word of a register is not counted. -/
theorem State.gate_of_word {s : State} {m : Master} {a : Nat} (acts : Acts s m a 0xFFFFFFFF) : s.gate m a 0xFFFFFFFF = (s, true) := by
  have reach := acts.2
  simp only [State.reaches, Bool.and_eq_true, Bool.or_eq_true, beq_iff_eq] at reach
  have whole : prvOf a &&& 0xFFFFFFFF = prvOf a := by
    rw [show 0xFFFFFFFF = 2 ^ 32 - 1 from rfl, Nat.and_two_pow_sub_one_eq_mod, Nat.mod_eq_of_lt (prvOf_lt a)]
  have plain : m.admin = true ∨ prvOf a = 0 := reach.2.imp_right fun none => whole ▸ none
  have noted : s.noted m a = s := by
    rcases plain with adm | none
    · exact s.noted_admin adm a
    · simp [State.noted, State.notePrv, none]
  rw [State.gate_of_reach acts, noted]

section

variable {s : State} {m : Master} {a id : Nat} (w : Word) (of : cmpOfReg a = some id) (acts : Acts s m a 0xFFFFFFFF)
include of acts

theorem exec_cmpThresholdWrite : exec (.cmpThresholdWrite m a w) s = .next (
    if (id < 407 ∨ 432 ≤ id) ∧ winHi (s.written m a w) ≤ winLo (s.written m a w) then s.orReg Adr.CMP_STAT (2 ^ 30)
    else if (s.cmp.sweep.any fun p => p.1 == id) = true then
      { s with cmp := { s.cmp with heldWr := some (a, s.written m a w) } }
    else (s.stored m a w).recheck id) := by
  refine congrArg Host.Outcome.next ?_
  rw [State.thresholdWrite, of]
  dsimp only
  rw [State.gate_of_word acts]
  dsimp only
  rw [if_neg (not_not.2 rfl)]
  simp only [Bool.or_eq_true, decide_eq_true_eq]
  rfl

theorem exec_cmpThresholdWrite_ignored (two : id < 407 ∨ 432 ≤ id) (crossed : winHi (s.written m a w) ≤ winLo (s.written m a w)) :
    exec (.cmpThresholdWrite m a w) s = .next (s.orReg Adr.CMP_STAT (2 ^ 30)) := by
  rw [exec_cmpThresholdWrite w of acts, if_pos ⟨two, crossed⟩]

variable (good : (407 ≤ id ∧ id < 432) ∨ winLo (s.written m a w) < winHi (s.written m a w))
include good

theorem exec_cmpThresholdWrite_held {n : Nat} (sweep : s.cmp.sweep = some (id, n)) : exec (.cmpThresholdWrite m a w) s =
    .next { s with cmp := { s.cmp with heldWr := some (a, s.written m a w) } } := by
  rw [exec_cmpThresholdWrite w of acts, if_neg (by omega), if_pos (by rw [sweep]; simp)]

theorem exec_cmpThresholdWrite_stored (idle : s.cmp.sweep.map Prod.fst ≠ some id) : exec (.cmpThresholdWrite m a w) s =
    .next ((s.stored m a w).recheck id) := by
  have other : ¬ (s.cmp.sweep.any fun p => p.1 == id) = true := by
    cases sweep : s.cmp.sweep with
    | none => exact Bool.false_ne_true
    | some p => rw [sweep] at idle; simpa using idle
  rw [exec_cmpThresholdWrite w of acts, if_neg (by omega), if_neg other]

theorem cmpThresholdWrite_stores (idle : s.cmp.sweep.map Prod.fst ≠ some id) :
    Completes (.cmpThresholdWrite m a w) s fun t => t.reg a = s.written m a w ∧ t.frm = s.frm ∧
      t.cmp.sweep = s.cmp.sweep ∧ t.cmp.heldWr = s.cmp.heldWr ∧
      ∀ d : DomainId, id = 400 + d.val → s.cmpOut id = false →
        let v := s.written m a w
        let mv := s.cmp.vmMv.getD d 0
        let step := vmStep (d.val == 6)
        (mv < winLo v * step → t.cmp.vmLo.getLsbD d = true) ∧ (winHi v * step < mv → t.cmp.vmHi.getLsbD d = true) ∧
        (winLo v * step ≤ mv → mv ≤ winHi v * step → t.cmp = s.cmp ∧ t.ax = s.ax ∧
          ∀ b : Nat, b ≠ a → t.reg b = s.reg b) := by
  refine completes_of_exec (exec_cmpThresholdWrite_stored w of acts good idle) ?_
  have moves := (s.stored m a w).recheck_moves id
  refine ⟨(moves.threshold a id of).trans (s.reg_stored ..), moves.frm, moves.sweep, moves.heldWr, fun d vm there => ?_⟩
  have place := cmpOfReg_vm of vm
  subst vm
  have out : (s.stored m a w).cmpOut (400 + d.val) = false := there
  obtain ⟨low, high, within⟩ := State.recheck_vm_does out
  rw [← place, s.reg_stored] at low high within
  refine ⟨low, high, fun above below => ?_⟩
  rw [within above below]
  exact ⟨rfl, rfl, fun b other => State.reg_setReg_other _ _ other⟩

end

/-! ### Derating (R329, R332) -/

/-- The derating that a pool stands at (R329). -/
def State.poolDerating (s : State) (p : DomainId) : Nat := (s.pool.get p).d

theorem State.poolDerating_of_pool {s t : State} (h : t.pool = s.pool) : t.poolDerating = s.poolDerating := by
  funext p; rw [State.poolDerating, h, State.poolDerating]

theorem State.poolDerating_modPool (s : State) (p : DomainId) {f : Pool → Pool} (h : ∀ q, (f q).d = q.d) :
    (s.modPool p f).poolDerating = s.poolDerating := by
  funext q
  rw [State.poolDerating, State.modPool_pool]
  by_cases e : q = p
  · subst e; rw [vector_get_set_self, h]; rfl
  · rw [vector_get_set_ne _ _ e]; rfl

/-- Steps that each leave the derating leave it in a list of them. -/
theorem State.poolDerating_forAll {α : Type} {l : List α} {f : State → α → State}
    (h : ∀ t a, (f t a).poolDerating = t.poolDerating) (s : State) : (s.forAll l f).poolDerating = s.poolDerating := State.forAll_proj State.poolDerating h s

/-- The factors of the pools alone move. -/
theorem State.poolDerating_forPools (s : State) (l : List DomainId) {f : State → DomainId → Pool → Pool}
    (h : ∀ t p q, (f t p q).d = q.d) : (s.forAll l fun t p => t.modPool p (f t p)).poolDerating = s.poolDerating :=
  State.poolDerating_forAll (fun t p => t.poolDerating_modPool p (h t p)) s

theorem State.poolDerating_raiseGr (p : DomainId) (n : Nat) (s : State) : (s.raiseGr p n).poolDerating = s.poolDerating := by
  induction n generalizing s with
  | zero => rfl
  | succ n ih =>
    unfold State.raiseGr
    dsimp only
    split
    · exact (ih _).trans (s.poolDerating_modPool p fun _ => rfl)
    · rfl

theorem State.poolDerating_raiseGh (p : DomainId) (n : Nat) (s : State) : (s.raiseGh p n).poolDerating = s.poolDerating := by
  induction n generalizing s with
  | zero => rfl
  | succ n ih =>
    unfold State.raiseGh
    dsimp only
    split
    · exact (ih _).trans (s.poolDerating_modPool p fun _ => rfl)
    · rfl

theorem State.poolDerating_shedGo (n : Nat) (s : State) : (s.shedGo n).poolDerating = s.poolDerating := by
  induction n generalizing s with
  | zero => rfl
  | succ n ih =>
    unfold State.shedGo
    dsimp only
    split
    · rw [ih]
      exact s.poolDerating_forPools _ fun _ _ _ => rfl
    · split
      · rw [ih]
        exact s.poolDerating_forPools _ fun _ _ _ => rfl
      · rfl

theorem State.poolDerating_shed (s : State) : s.shed.poolDerating = s.poolDerating := by
  rw [State.shed, ← s.poolDerating_shedGo 64]
  exact State.poolDerating_forPools _ _ fun _ _ _ => rfl

theorem State.poolDerating_withHold (s : State) (ghs : List Nat) : (s.withHold ghs).poolDerating = s.poolDerating :=
  s.poolDerating_forPools (allFin 7) fun _ _ _ => rfl

theorem State.poolDerating_modDesc (s : State) (n : Nat) (f : Desc → Desc) : (s.modDesc n f).poolDerating = s.poolDerating := rfl

theorem State.poolDerating_decideOne (s : State) (d : Desc) : (s.decideOne d).1.poolDerating = s.poolDerating := by
  have told (t : State) (u : Nat) (w0 w1 : Word) : (t.tellHeld d u w0 w1).poolDerating = t.poolDerating :=
    State.poolDerating_of_pool (tells_raise ..).pool
  unfold State.decideOne
  extract_lets j l xs timed waits
  split
  · rfl
  · generalize (if waits = true then (s.ghs, false) else s.lowerGh xs l 128 s.ghs) = p
    obtain ⟨ghs, ok⟩ := p
    dsimp only
    generalize s.budgetWords xs l ghs = words
    obtain ⟨x, w0, w1⟩ := words
    dsimp only
    split
    · refine (State.poolDerating_modDesc ..).trans ((State.poolDerating_withHold _ ghs).trans ?_)
      split
      · exact told ..
      · rfl
    · split
      · exact State.poolDerating_of_pool (within_forAll (within_later (.refl true s) ..) fun _ _ h => within_camHead h _).pool
      next s1 _ _ _ =>
        have same : s1.poolDerating = s.poolDerating := by
          unfold s1
          split <;> rfl
        split
        · exact same
        · exact (told s1 x.val w0 w1).trans same

theorem State.poolDerating_decideSome (s : State) (p : Desc → Bool) : (s.decideSome p).poolDerating = s.poolDerating := by
  refine State.poolDerating_forAll (fun t d => ?_) s
  split
  · split
    · exact t.poolDerating_decideOne _
    · rfl
  · rfl

/-- The evaluation leaves the derating as it finds it (R332). -/
theorem State.poolDerating_granary (s : State) : s.granary.poolDerating = s.poolDerating := by
  unfold State.granary
  dsimp only
  rw [State.poolDerating_forAll fun t p => t.poolDerating_raiseGh p 16, State.poolDerating_decideSome, State.poolDerating_decideSome,
    State.poolDerating_decideSome, State.poolDerating_forAll fun t p => t.poolDerating_raiseGr p 16, State.poolDerating_shed]
  rfl

/-- The derating of tile `p` at its temperature (R329). -/
def State.tileDerating (s : State) (p : DomainId) : Nat := s.derating (s.tileTemp p)

/-- The state in which pool `p` stands at the derating of its tile. -/
def State.derate (s : State) (p : DomainId) : State := s.modPool p fun q => { q with d := s.tileDerating p }

theorem State.tileDerating_derate (s : State) (p q : DomainId) : (s.derate p).tileDerating q = s.tileDerating q := rfl

theorem State.poolDerating_derate (s : State) (p q : DomainId) :
    (s.derate p).poolDerating q = if q = p then s.tileDerating p else s.poolDerating q := by
  rw [State.poolDerating, State.derate, State.modPool_pool]
  split
  next same => rw [same, vector_get_set_self]
  next other => rw [vector_get_set_ne _ _ other]; rfl

/-- The state in which every light pool stands at the derating of its tile. -/
def State.derated (s : State) : State := s.forAll ((allFin 7).filter fun p => decide (p.val < 6)) State.derate

theorem State.poolDerating_derated (s : State) {p : DomainId} (light : p.val < 6) : s.derated.poolDerating p = s.tileDerating p := by
  have steady : s.derated.tileDerating p = s.tileDerating p :=
    State.forAll_proj (fun t => t.tileDerating p) (fun t q => t.tileDerating_derate q p) s
  have own : s.derated.poolDerating p = s.derated.tileDerating p := by
    refine State.forAll_reaches (fun p t => t.poolDerating p = t.tileDerating p) (f := State.derate) (fun t q => ?_)
      (fun t q r kept => ?_) s p (List.mem_filter.2 ⟨mem_allFin p, decide_eq_true light⟩)
    · rw [t.poolDerating_derate, if_pos rfl, t.tileDerating_derate]
    · rw [t.poolDerating_derate, t.tileDerating_derate]
      split
      next same => rw [same]
      next => exact kept
  exact own.trans steady

theorem exec_granaryDeratingUpdate {s : State} (on : s.carriers = true) (due : s.frm.count.toNat % 1024 = 0) :
    exec .granaryDeratingUpdate s = .next s.derated.granary := congrArg Host.Outcome.next (if_pos ⟨on, due⟩)

theorem exec_granaryDeratingUpdate_idle {s : State} (idle : s.carriers = false ∨ s.frm.count.toNat % 1024 ≠ 0) :
    exec .granaryDeratingUpdate s = .next s :=
  congrArg Host.Outcome.next
    (if_neg fun ⟨on, due⟩ => idle.elim (fun off => absurd (on.symm.trans off) (by decide)) fun other => other due)

/-- Settles O52, clause by clause: the sides that register, the sweep and its tests, the thresholds and the derating. -/
theorem supplies : Obligations.Supplies := by
  unfold Obligations.Supplies
  refine fun s on => ⟨fun d there => ⟨fun clear => ?_, fun stands => ?_⟩, fun u there clear => ?_,
    fun u => exec_overvoltageMonitorTrip_idle on, fun b => ⟨fun limit => ?_, fun below => ?_⟩,
    fun r => ⟨fun clear => ?_, fun clear => ?_, fun stands => ?_, fun stands => ?_⟩, fun m free adm => ?_,
    exec_comparatorSweepStart_idle, fun free set due => ?_,
    fun id n o sweep more => ⟨fun bad => ?_, exec_comparatorTestEnd_idle sweep o more, fun good late verdict => ?_⟩,
    fun m a id w of acts => ⟨fun two crossed => ?_, fun good => ⟨fun n => exec_cmpThresholdWrite_held w of acts good, ?_⟩⟩,
    exec_granaryDeratingUpdate_idle, fun on due => ?_⟩
  · exact completes_of_exec (exec_vmEntryLoTrip on there) (s.vmLoRegister_does d clear)
  · rw [exec_vmEntryLoTrip on there, State.vmLoRegister_stands stands]
  · exact completes_of_exec (exec_overvoltageMonitorTrip on there) (State.ovRegister_does clear)
  · refine completes_of_exec (exec_brakeChopperLimit on) ?_
    rw [if_pos limit]
    exact s.limitChopper_does b
  · rw [exec_brakeChopperLimit on, if_neg (by rw [below]; decide)]
  · exact completes_of_exec (exec_railLoTrip on) (State.railLoRegister_does clear)
  · exact completes_of_exec (exec_railHiTrip on) (State.railHiRegister_does clear)
  · rw [exec_railLoTrip on, State.railLoRegister_stands stands]
  · rw [exec_railHiTrip on, State.railHiRegister_stands stands]
  · exact completes_of_exec (exec_cmpSweepWrite on free adm) s.sweepBegun_does
  · exact completes_of_exec (exec_comparatorSweepStart_due on free set due) (State.sweepBegun_does _)
  · refine completes_of_exec (exec_comparatorTestEnd_refErr sweep o bad) ?_
    obtain ⟨goesOn, -, -, -⟩ := s.endTest_does more n .refErr
    obtain ⟨back, failed, told⟩ := s.heldTaken.judged_refErr id
    rw [s.endTest_eq more] at goesOn ⊢
    exact ⟨goesOn, failed.trans (by rw [s.heldTaken_cmp]), back, told⟩
  · obtain ⟨goesOn, began, taken, held⟩ := s.endTest_does more n o
    refine ⟨fun free => completes_of_exec (exec_comparatorTestEnd_ends sweep o good late verdict) ⟨goesOn, began, ?_, ?_⟩,
      fun a v waits of => completes_of_exec (exec_comparatorTestEnd_ends sweep o good late verdict) ⟨held a id v waits of, taken⟩⟩
    · rintro rfl
      rw [s.endTest_eq more, State.heldTaken_none free]
      exact s.judged_failed id
    · rintro rfl
      rw [s.endTest_eq more, State.heldTaken_none free]
      exact s.judged_passed id
  · refine completes_of_exec (exec_cmpThresholdWrite_ignored w of acts two crossed) ?_
    exact ⟨State.reg_setReg_other _ _ (threshold_ne of (by decide)), rfl, rfl, State.rb_orReg_self _ _ (k := 30) (by decide)⟩
  · exact cmpThresholdWrite_stores w of acts good
  · refine completes_of_exec (exec_granaryDeratingUpdate on due) fun p light => ?_
    exact (congrFun s.derated.poolDerating_granary p).trans (s.poolDerating_derated light)

end Sys2Proof.Machine
end

section
/-! SUPPORT. The obligations of the snapshots and of the line's frames, with the rules about taking a frame. -/

namespace Sys2Proof.Machine

open Safety

/-! ### SNAPSHOT within the device (R359, R360) -/

/-- The capture frame of a SNAPSHOT within the device that takes effect in the next frame: the one asked for, or the first possible one. -/
def State.captureFrame (s : State) (d : Desc) : FrameNo :=
  if u64 d.bytes 16 = 0 then s.frm.count + 2 else BitVec.ofNat 64 (u64 d.bytes 16)

/-- A SNAPSHOT of the device takes its capture frame, or is refused where that frame has passed. -/
theorem State.snapshotEffect_device (s : State) {d : Desc} (device : u8 d.bytes 57 ≠ 1) : s.snapshotEffect d =
    if u64 d.bytes 16 ≠ 0 ∧ u64 d.bytes 16 < (s.frm.count + 2).toNat then s.later d 5 16 (wd (s.frm.count + 2).toNat)
    else s.modDesc d.acc fun x => { x with snapF := s.captureFrame d } := by
  have off : (u8 d.bytes 57 == 1) = false := beq_false_of_ne device
  have first : s.frm.count + 1 + 1 = s.frm.count + 2 := BitVec.add_assoc ..
  simp only [State.snapshotEffect, off, Bool.false_eq_true, if_false, false_and, first]
  rfl

section

variable {s : State} {n : Nat} {d : Desc} (due : Due s n 0xB d) (device : u8 d.bytes 57 ≠ 1)
include due device

theorem exec_snapshot : exec (.snapshot n) s = .next (
    if u64 d.bytes 16 ≠ 0 ∧ u64 d.bytes 16 < (s.frm.count + 2).toNat
    then (onset s d).later (onsetOf s d) 5 16 (wd (s.frm.count + 2).toNat)
    else (onset s d).modDesc n fun x => { x with snapF := s.captureFrame d }) := by
  obtain ⟨acc, bytes⟩ := onsetOf_operands due
  have runs : exec (.snapshot n) s = .next ((onset s d).snapshotEffect (onsetOf s d)) :=
    congrArg Host.Outcome.next (State.withEffect_of_due due (· == 0xB) rfl _)
  rw [runs, State.snapshotEffect_device _ (by rwa [bytes]), State.captureFrame, State.captureFrame, bytes, (onset_frame due).1, acc]

/-- A SNAPSHOT whose frame has not passed stands in effect with its capture frame. -/
theorem snapshot_schedules (free : ¬ (u64 d.bytes 16 ≠ 0 ∧ u64 d.bytes 16 < (s.frm.count + 2).toNat)) :
    Completes (.snapshot n) s fun t => t.ax = (onset s d).ax ∧
      (t.desc? n).any (fun e => e.snapF == s.captureFrame d && e.stage == .effect) = true := by
  refine completes_of_exec ((exec_snapshot due device).trans (congrArg _ (if_neg free))) ⟨rfl, ?_⟩
  obtain ⟨stands, -⟩ := onset_does due
  obtain ⟨stage, -⟩ := onsetOf_in_effect due
  have scheduled := State.desc?_modDesc_self stands (f := fun x => { x with snapF := s.captureFrame d }) fun _ => rfl
  rw [scheduled, Option.any_some, stage, BEq.rfl, BEq.rfl, Bool.and_self]

end

/-! ### SNAPSHOT_COMPLETE (R360) -/

/-- Is a station that is joined with station `me` without a report of its snapshot at frame `f`? -/
def Line.unreported (l : Line) (me : Nat) (f : FrameNo) : Bool :=
  (List.range 8).any fun i => i != me && l.present.getLsbD i && !((l.reports me f).any fun r => r.station == i)

theorem Line.unreported_iff {l : Line} {me : Nat} {f : FrameNo} : l.unreported me f = true ↔
    ∃ i : Fin 8, i.val ≠ me ∧ l.present.getLsbD i = true ∧ ∀ r ∈ l.reports me f, r.station ≠ i.val := by
  simp only [Line.unreported, List.any_eq_true, List.mem_range, Bool.and_eq_true, bne_iff_ne, Bool.not_eq_true', List.any_eq_false,
    beq_iff_eq, Fin.exists_iff, and_assoc, exists_prop]

/-- The entries that the stations' blocks of a snapshot hold together. -/
def entriesOf (l : List SnapDone) : Nat := l.foldl (fun n r => if r.written then n + r.entries else n) 0

/-- A line snapshot that every station has reported ends: record, event 50, and its reports are forgotten (R360). -/
def State.lineSnapEnds (s : State) (d : Desc) : State :=
  let l := s.line.reports s.station d.snapF
  let t := (s.finish d 0 (wd d.snapF.toNat) (wd (entriesOf l)) s.frm.count).raise 50 (stationCode s.station) (wd d.snapF.toNat)
    (wd (writtenBits l))
  { t with line := { t.line with dones := t.line.dones.filter fun r => !(r.issuer == s.station && r.frame == d.snapF) } }

theorem State.lineSnapEnds_does (s : State) (d : Desc) : (s.lineSnapEnds d).rb Adr.EVT_PEND_HI 18 = true ∧
    (s.lineSnapEnds d).line =
      { s.line with dones := s.line.dones.filter fun r => !(r.issuer == s.station && r.frame == d.snapF) } := by
  refine ⟨State.rb_raise_self _ 50 .., ?_⟩
  rw [State.lineSnapEnds]
  dsimp only
  rw [(tells_raise ..).line, (within_finish (Within.refl true s) ..).line]

section

variable {s : State} {n : Nat} {d : Desc} (is : s.desc? n = some d) (op : d.op = 0xB) (effect : d.stage = .effect)
  (done : d.snapDone = true)
include is op effect done

theorem exec_snapshotComplete_device (device : u8 d.bytes 57 ≠ 1) : exec (.snapshotComplete n) s = .next (
    if frameLe s.frm.count (d.snapF + d.snapBy) then s
    else (s.finish d 0 (wd d.snapF.toNat) (wd d.snapN) s.frm.count).raise 50 (stationCode s.station) (wd d.snapF.toNat)
      (wd (if d.snapW then 2 ^ s.station else 0))) := by
  show execSnapshotComplete n s = _
  simp [execSnapshotComplete, is, op, effect, done, device]

theorem exec_snapshotComplete_line (line : u8 d.bytes 57 = 1) : exec (.snapshotComplete n) s = .next (
    if frameLt s.frm.count (d.snapF + d.snapBy + 2) then s
    else if s.line.unreported s.station d.snapF then s.finish d 8 54 0 s.frm.count else s.lineSnapEnds d) := by
  show execSnapshotComplete n s = _
  simp only [execSnapshotComplete, is, op, effect, done, line, ne_eq, not_true, or_self, if_false, if_true]
  rfl

end

/-- Settles O25: the capture frame as a SNAPSHOT takes effect, and the two ways in which it completes. -/
theorem snapshots : Obligations.Snapshots := by
  unfold Obligations.Snapshots
  refine ⟨fun s n d due device => ⟨fun unasked => ?_, fun ahead => ?_, fun asked passed => ?_⟩,
    fun s n d is op effect done device => ?_, fun s n d is op effect done line => ?_⟩
  · have free := snapshot_schedules due device fun c => c.1 unasked
    rwa [State.captureFrame, if_pos unasked] at free
  · have frame : s.captureFrame d = BitVec.ofNat 64 (u64 d.bytes 16) := by
      unfold State.captureFrame
      split
      next unasked => rw [unasked] at ahead ⊢; bv_omega
      next => rfl
    rw [← frame]
    exact snapshot_schedules due device fun c => absurd c.2 (Nat.not_lt.2 ahead)
  · exact (exec_snapshot due device).trans (congrArg _ (if_pos ⟨asked, passed⟩))
  · have runs := exec_snapshotComplete_device is op effect done device
    refine ⟨fun past => ?_, fun early => runs.trans (congrArg _ (if_pos early))⟩
    rw [past, if_neg Bool.false_ne_true] at runs
    exact ⟨runs, completes_of_exec runs (State.rb_raise_self _ 50 ..)⟩
  · have runs := exec_snapshotComplete_line is op effect done line
    refine ⟨fun early => runs.trans (congrArg _ (if_pos early)), fun late => ⟨fun told => ?_, fun i other present silent => ?_⟩⟩
    · have all : ¬ s.line.unreported s.station d.snapF = true := fun lost => by
        obtain ⟨i, other, present, silent⟩ := Line.unreported_iff.1 lost
        obtain ⟨r, reports, own⟩ := told i other present
        exact silent r reports own
      rw [late, if_neg Bool.false_ne_true, if_neg all] at runs
      exact completes_of_exec runs (s.lineSnapEnds_does d)
    · rw [late, if_neg Bool.false_ne_true, if_pos (Line.unreported_iff.2 ⟨i, other, present, silent⟩)] at runs
      exact runs

end Sys2Proof.Machine
end

section

namespace Sys2Proof.Machine

open Safety

/-! ### Taking a frame of the line (R344, R347) -/

theorem fld_wd {v hi : Nat} (top : hi < 32) (h : v < 2 ^ (hi + 1)) : fld (wd v) hi 0 = v := by
  have word : v < 2 ^ 32 := h.trans_le (Nat.pow_le_pow_right two_pos top)
  rw [fld, wd, BitVec.toNat_ofNat, Nat.mod_eq_of_lt word, pow_zero, Nat.div_one, Nat.sub_zero, Nat.mod_eq_of_lt h]

/-- A field of 16 bits at the foot of a register holds what is put there. -/
theorem State.rf_putReg_low (s : State) (a : Nat) {v : Nat} (h : v < 2 ^ 16) : (s.putReg a (bits 15 0) v).rf a 15 0 = v := by
  rw [State.rf, State.putReg, State.reg_setReg_self, fld_mergeW_full (by decide) (by decide), fld_wd (by decide) h]

/-- The failures of the check that LINE_PORTp_ERR tells of after one more (R347). -/
def State.checkCount (s : State) (p : Fin 2) : Nat := min (s.rf (Adr.LINE_PORT_ERR p) 15 0 + 1) 65535

/-- The state in which a failure of the check stands in its field. -/
def State.checkCounted (s : State) (p : Fin 2) : State := s.putReg (Adr.LINE_PORT_ERR p) (bits 15 0) (s.checkCount p * 2 ^ 0)

/-- A failure of the check is counted, and told where it is the first of its window. -/
theorem State.lineFailure_check_eq (s : State) (p : Fin 2) (origin : Nat) : s.lineFailure p 0 origin 1 =
    if (s.checkCounted p).line.chkSeen.getLsbD (3 * p.val + 0) then s.checkCounted p
    else ((s.checkCounted p).raise 54 (0x208 + p.val) (wd (0 + 256 * origin)) (wd (s.checkCount p))).modLine fun l =>
      { l with chkSeen := l.chkSeen ||| BitVec.ofNat 6 (2 ^ (3 * p.val + 0)) } := rfl

theorem State.lineFailure_check (s : State) (p : Fin 2) (origin : Nat) : LineMoves (s.checkCounted p) (s.lineFailure p 0 origin 1) ∧
    (∃ seen, (s.lineFailure p 0 origin 1).line = { s.line with chkSeen := seen }) ∧ (s.lineFailure p 0 origin 1).ax = s.ax := by
  rw [State.lineFailure_check_eq]
  split
  · exact ⟨.refl _, ⟨_, rfl⟩, rfl⟩
  · refine ⟨(State.raise_moves ..).trans (.modLine ..), ?_, ?_⟩
    · rw [State.modLine, (tells_raise ..).line]
      exact ⟨_, rfl⟩
    · rw [State.modLine, (tells_raise ..).ax]
      rfl

/-- What a frame that fails its check leaves of the state (R347). -/
theorem State.badFrame_does (s : State) (p : Fin 2) (origin : Nat) :
    let t := s.badFrame p origin
    t.line.peers = s.line.peers ∧ t.line.mode = s.line.mode ∧ t.line.tally = s.line.tally ∧
      t.rf (Adr.LINE_PORT_ERR p) 15 0 = min (s.rf (Adr.LINE_PORT_ERR p) 15 0 + 1) 65535 ∧ t.frm = s.frm ∧ t.ax = s.ax := by
  obtain ⟨moves, ⟨seen, line⟩, ax⟩ := s.lineFailure_check p origin
  have all : LineMoves (s.checkCounted p) (s.badFrame p origin) := moves.trans (.modLine ..)
  have apart : ∀ q : Fin 2, evReg (Adr.LINE_PORT_ERR q) = false := by decide
  have err : (s.badFrame p origin).rf (Adr.LINE_PORT_ERR p) 15 0 = min (s.rf (Adr.LINE_PORT_ERR p) 15 0 + 1) 65535 := by
    rw [State.rf, all.reg_eq (apart p), State.checkCounted, pow_zero, Nat.mul_one]
    exact s.rf_putReg_low _ (Nat.lt_succ_of_le (Nat.min_le_right ..))
  have rest : ∃ l, (s.badFrame p origin).line = l ∧ l.peers = s.line.peers ∧ l.mode = s.line.mode ∧ l.tally = s.line.tally := by
    unfold State.badFrame
    rw [State.modLine, line]
    split <;> exact ⟨_, rfl, rfl, rfl, rfl⟩
  obtain ⟨l, is, peers, mode, tally⟩ := rest
  exact ⟨is ▸ peers, is ▸ mode, is ▸ tally, err, all.frm, ax⟩

section

variable {s : State} (p : Fin 2) (type : Nat) {b : List Byte}

/-- A station that is off takes no frame. -/
theorem State.lineTake_off (off : s.line.mode = .off) : s.lineTake p type b = (s, none) := if_pos off

/-- The state in which a station's own frame has come back (R363). -/
def State.cameRound (s : State) (b : List Byte) : State :=
  s.modLine fun l => { l with round := l.round.map fun r => r || u64 b 4 == s.frm.count.toNat }

/-- A station's own frame is not forwarded, and shows that the ring is closed (R344, R363). -/
theorem State.lineTake_own (on : s.line.mode ≠ .off) (own : u8 b 1 % 8 = s.station) (ok : frameOk b = true) :
    s.lineTake p type b = (s.cameRound b, none) := by
  simp only [State.lineTake, on, own, ok, if_false, if_true]
  rfl

theorem State.forward_eqn (s : State) (p : Fin 2) (b : List Byte) : s.forward p b =
    { s with out := s.out ++ if s.portUp (1 - p) then [.lineFrame (1 - p) b] else [] } := by
  unfold State.forward
  split
  · rfl
  · rw [List.append_nil]

/-- A frame that fails its check is counted, and forwarded where it is another station's. -/
theorem State.lineTake_bad (on : s.line.mode ≠ .off) (bad : frameOk b = false) : ∃ out,
    s.lineTake p type b = (({ s with out := out } : State).badFrame p (u8 b 1 % 8), none) := by
  have fails : ¬ frameOk b = true := by rw [bad]; exact Bool.false_ne_true
  unfold State.lineTake
  rw [if_neg on]
  by_cases own : u8 b 1 % 8 = s.station
  · exact ⟨s.out, by rw [if_pos own, if_neg fails]⟩
  · rw [if_neg own, if_pos fails, State.forward_eqn]
    exact ⟨_, rfl⟩

/-- What a station knows of the sender of a frame as it accepts it, and whether the frame comes for the first time (R347). -/
def Line.heard (l : Line) (type : Nat) (b : List Byte) : Peer × Bool :=
  (l.peer (u8 b 1 % 8)).take (128 ≤ u8 b 1) type (frameOf b) (b.getD 2 0)

/-- The state in which a frame has been accepted: it has been forwarded, and its sender noted. -/
def State.accepts (s : State) (p : Fin 2) (type : Nat) (b : List Byte) : State :=
  { s with out := s.out ++ if s.portUp (1 - p) then [.lineFrame (1 - p) b] else [],
           line := { s.line with peers := s.line.peers.set (u8 b 1 % 8) (s.line.heard type b).1 } }

variable {type}

/-- A frame whose ALIVE follows the last, or is the first, is accepted without a further count (R347). -/
theorem State.lineTake_accepted (ok : Accepted s type b) : s.lineTake p type b = (s.accepts p type b, some (s.line.heard type b).2) := by
  obtain ⟨on, other, check, same, alive⟩ := ok
  have accepted : (s.forward p b).modLine (fun l => { l with peers := l.peers.set (u8 b 1 % 8) (s.line.heard type b).1 }) =
      s.accepts p type b := by rw [State.forward_eqn]; rfl
  have line : (s.forward p b).line = s.line := by rw [State.forward_eqn]
  unfold State.lineTake
  simp only [on, other, check, same, line, if_false, not_true, ne_eq]
  rw [← accepted]
  split
  · rfl
  next v was =>
    rw [was] at alive
    have next : (b.getD 2 0 - v).toNat = 1 := by simpa using alive
    simp only [next, one_ne_zero, if_false, if_true]
    rfl

end

end Sys2Proof.Machine
end

section

namespace Sys2Proof.Machine

open Safety

/-! ### The commands that take a frame (O54) -/

/-- Command `c` takes a frame of type `type` at port `p`, and where it is accepted does `g` after, told whether it came for the first time. -/
def Receives (c : Instr) (p : Fin 2) (type : Nat) (b : List Byte) (g : State → Bool → State) : Prop :=
  ∀ s, exec c s = .next ((s.lineTake p type b).2.elim (s.lineTake p type b).1 (g (s.lineTake p type b).1))

section

variable {c : Instr} {p : Fin 2} {type : Nat} {b : List Byte} {g : State → Bool → State} (h : Receives c p type b g) {s : State}
include h

/-- A frame that is not accepted does no more. -/
theorem Receives.ends {t : State} (taken : s.lineTake p type b = (t, none)) : exec c s = .next t := by
  rw [h s, taken]
  rfl

theorem Receives.accepted (ok : Accepted s type b) : exec c s = .next (g (s.accepts p type b) (s.line.heard type b).2) := by
  rw [h s, State.lineTake_accepted p ok]
  rfl

/-- A station that is off takes no frame, its own frame that comes back ends there, and one that fails its check is counted (R344, R347). -/
theorem Receives.unaccepted :
    (s.line.mode = .off → exec c s = .next s) ∧
    (s.line.mode ≠ .off → u8 b 1 % 8 = s.station → frameOk b = true → exec c s = .next (s.cameRound b)) ∧
    (s.line.mode ≠ .off → frameOk b = false → Completes c s fun t => t.line.peers = s.line.peers ∧ t.line.mode = s.line.mode ∧
      t.line.tally = s.line.tally ∧ t.rf (Adr.LINE_PORT_ERR p) 15 0 = min (s.rf (Adr.LINE_PORT_ERR p) 15 0 + 1) 65535 ∧ t.frm = s.frm ∧
      t.ax = s.ax) := by
  refine ⟨fun off => h.ends (State.lineTake_off p type off), fun on own ok => h.ends (State.lineTake_own p type on own ok), fun on bad => ?_⟩
  obtain ⟨out, taken⟩ := State.lineTake_bad p type on bad
  exact completes_of_exec (h.ends taken) (State.badFrame_does { s with out := out } p (u8 b 1 % 8))

end

/-! #### ARRIVE, SNAP_CMD and SNAP_DONE (R346, R357, R360) -/

/-- The arrivals that a frame brings, of the frame before the one in which it was sent. -/
def arrivalsIn (b : List Byte) : List LineArrival := arrivalsOf (u8 b 1 % 8) (frameOf b - 1) ((payload b).length / 8) (payload b)

/-- The arrivals of a frame that comes for the first time join the tally. -/
def State.arriveTaken (t : State) (b : List Byte) (first : Bool) : State :=
  if first then t.modLine fun l => { l with tally := l.tally ++ arrivalsIn b } else t

theorem receives_arrive (p : Fin 2) (b : List Byte) : Receives (.lineArriveReceive p b) p 2 b fun t => t.arriveTaken b := by
  intro s
  show execLineArriveReceive p b s = _
  unfold execLineArriveReceive
  rcases s.lineTake p 2 b with ⟨t, _ | _ | _⟩ <;> rfl

/-- A snapshot that a frame commands. -/
def snapOf (b : List Byte) : LineSnap := ⟨u8 b 1 % 8, BitVec.ofNat 64 (u64 (payload b) 0), axisMask (payload b) 8, false, 0⟩

/-- A joined station schedules a snapshot that it does not know. -/
def State.snapCmdTaken (t : State) (b : List Byte) : State :=
  if t.joined ∧ ¬ (t.line.snaps.any fun x => x.issuer == (snapOf b).issuer && x.frame == (snapOf b).frame) then
    t.modLine fun l => { l with snaps := l.snaps ++ [snapOf b] }
  else t

theorem receives_snapCmd (p : Fin 2) (b : List Byte) : Receives (.lineSnapCmdReceive p b) p 3 b fun t _ => t.snapCmdTaken b := by
  intro s
  show execLineSnapCmdReceive p b s = _
  unfold execLineSnapCmdReceive
  rcases s.lineTake p 3 b with ⟨t, _ | _⟩ <;> rfl

/-- The report that a frame brings. -/
def doneOf (b : List Byte) : SnapDone :=
  ⟨u8 (payload b) 8, BitVec.ofNat 64 (u64 (payload b) 0), u8 b 1 % 8, u8 (payload b) 9 == 1, u16 (payload b) 10⟩

/-- A report that has not come before joins the reports. -/
def State.snapDoneTaken (t : State) (b : List Byte) : State :=
  if t.line.dones.any fun x => x.issuer == (doneOf b).issuer && x.frame == (doneOf b).frame && x.station == (doneOf b).station then t
  else t.modLine fun l => { l with dones := l.dones ++ [doneOf b] }

theorem receives_snapDone (p : Fin 2) (b : List Byte) : Receives (.lineSnapDoneReceive p b) p 4 b fun t _ => t.snapDoneTaken b := by
  intro s
  show execLineSnapDoneReceive p b s = _
  unfold execLineSnapDoneReceive
  rcases s.lineTake p 4 b with ⟨t, _ | _⟩ <;> rfl

theorem lineArrive_does {s : State} (p : Fin 2) {b : List Byte} (ok : Accepted s 2 b) : Completes (.lineArriveReceive p b) s fun t =>
    t.out = s.out ++ (if s.portUp (1 - p) then [.lineFrame (1 - p) b] else []) ∧ t.regs = s.regs ∧ t.ax = s.ax ∧
      t.line.tally = s.line.tally ++ if (s.line.heard 2 b).2 then arrivalsIn b else [] := by
  refine completes_of_exec ((receives_arrive p b).accepted ok) ?_
  unfold State.arriveTaken
  split
  · exact ⟨rfl, rfl, rfl, rfl⟩
  · exact ⟨rfl, rfl, rfl, (List.append_nil _).symm⟩

theorem lineSnapCmd_does {s : State} (p : Fin 2) {b : List Byte} (ok : Accepted s 3 b) (joined : s.line.mode = .joined)
    (fresh : ∀ x ∈ s.line.snaps, ¬ (x.issuer = u8 b 1 % 8 ∧ x.frame = BitVec.ofNat 64 (u64 (payload b) 0))) :
    Completes (.lineSnapCmdReceive p b) s fun t => t.out = s.out ++ (if s.portUp (1 - p) then [.lineFrame (1 - p) b] else []) ∧
      t.regs = s.regs ∧ t.line.snaps = s.line.snaps ++ [snapOf b] := by
  refine completes_of_exec ((receives_snapCmd p b).accepted ok) ?_
  have unknown : ¬ ((s.accepts p 3 b).line.snaps.any fun x => x.issuer == (snapOf b).issuer && x.frame == (snapOf b).frame) = true := by
    simpa [snapOf, State.accepts] using fresh
  rw [State.snapCmdTaken, if_pos ⟨beq_iff_eq.2 joined, unknown⟩]
  exact ⟨rfl, rfl, rfl⟩

theorem lineSnapDone_does {s : State} (p : Fin 2) {b : List Byte} (ok : Accepted s 4 b)
    (fresh : ∀ r ∈ s.line.dones, ¬ (r.issuer = u8 (payload b) 8 ∧ r.frame = BitVec.ofNat 64 (u64 (payload b) 0) ∧
      r.station = u8 b 1 % 8)) :
    Completes (.lineSnapDoneReceive p b) s fun t => t.out = s.out ++ (if s.portUp (1 - p) then [.lineFrame (1 - p) b] else []) ∧
      t.regs = s.regs ∧ t.line.dones = s.line.dones ++ [doneOf b] := by
  refine completes_of_exec ((receives_snapDone p b).accepted ok) ?_
  have unknown : ¬ ((s.accepts p 4 b).line.dones.any fun x => x.issuer == (doneOf b).issuer && x.frame == (doneOf b).frame &&
      x.station == (doneOf b).station) = true := by
    simpa [doneOf, State.accepts, and_assoc] using fresh
  rw [State.snapDoneTaken, if_neg unknown]
  exact ⟨rfl, rfl, rfl⟩

/-! #### PING (R348, R351, R352) -/

/-- Station 0 that is joined answers a PING; another station measures by station 0's, where it is not joined. -/
def State.pingTaken (t : State) (p : Fin 2) (b : List Byte) (ping : PingIn) : State :=
  if t.station = 0 then (if t.joined then t.sendLine 6 (leBytes 4 ping.clk) else t)
  else if u8 b 1 % 8 = 0 ∧ t.line.mode ≠ .joined then t.measureDelay p ping.delayNs
  else t

theorem receives_ping (p : Fin 2) (b : List Byte) (ping : PingIn) :
    Receives (.linePingReceive p b ping) p 6 b fun t _ => t.pingTaken p b ping := by
  intro s
  show execLinePingReceive p b ping s = _
  unfold execLinePingReceive
  rcases s.lineTake p 6 b with ⟨t, _ | _⟩ <;> rfl

/-- The line as a delay of `ns` has been measured on port `p` in frame `fr` (R348, R352). -/
def Line.measures (l : Line) (p : Fin 2) (ns : Nat) (fr : FrameNo) : Line :=
  let begins : Bool := l.mode == .search || l.mode == .isolated
  let d := min ns 65535
  { l with delay0 := if p = 0 then d else l.delay0, delay1 := if p = 0 then l.delay1 else d,
           measured := l.measured ||| BitVec.ofNat 2 (2 ^ p.val), mode := if begins then .locking else l.mode,
           joinAt := if begins then some fr else l.joinAt }

/-- A measurement moves the line alone; on the port that the station locks on it locks, or that port serves for its next lock. -/
theorem State.measureDelay_eqn (s : State) (p : Fin 2) (ns : Nat) : ∃ err port locked trim,
    s.measureDelay p ns = { s with line := { s.line.measures p ns s.frm.count with
      err := err, port := port, locked := locked, trimNext := trim } } ∧ (p = (s.line.measures p ns s.frm.count).lockPort → port = p) := by
  unfold State.measureDelay
  extract_lets t
  split
  next near =>
    split
    · exact ⟨_, _, _, _, rfl, fun _ => rfl⟩
    · exact ⟨_, _, _, _, rfl, fun _ => rfl⟩
  next far => exact ⟨_, _, _, _, rfl, fun near => absurd near far⟩

/-- A frame that leaves by an open port counts one ALIVE of its direction (R344). -/
theorem State.sendDir_eqn (s : State) (dir : Fin 2) (type : Nat) (data : List Byte) : s.sendDir dir type data =
    { s with out := (s.sendDir dir type data).out,
             line := { s.line with tx0 := if dir = 0 then s.line.tx0 + BitVec.ofNat 8 (b2n (s.portUp 0)) else s.line.tx0,
                                   tx1 := if dir = 0 then s.line.tx1 else s.line.tx1 + BitVec.ofNat 8 (b2n (s.portUp 1)) } } := by
  have two : dir = 0 ∨ dir = 1 := by omega
  unfold State.sendDir
  rcases two with rfl | rfl
  · cases s.portUp 0
    · simp [b2n]
    · rfl
  · cases s.portUp 1
    · simp [b2n]
    · rfl

theorem State.sendLine_does (s : State) (type : Nat) (data : List Byte) : ∃ out, s.sendLine type data = { s with
    out := out, line := { s.line with tx0 := s.line.tx0 + BitVec.ofNat 8 (b2n (s.portUp 0)),
                                      tx1 := s.line.tx1 + BitVec.ofNat 8 (b2n (s.portUp 1)) } } := by
  refine ⟨(s.sendLine type data).out, ?_⟩
  unfold State.sendLine
  rw [State.sendDir_eqn _ 1, State.sendDir_eqn s 0]
  rfl

theorem linePing_measures {s : State} (p : Fin 2) {b : List Byte} (ns clk : Nat) (ok : Accepted s 6 b) (zero : u8 b 1 % 8 = 0) :
    Completes (.linePingReceive p b ⟨ns, clk⟩) s fun t =>
      t.out = s.out ++ (if s.portUp (1 - p) then [.lineFrame (1 - p) b] else []) ∧ t.regs = s.regs ∧
      if s.line.mode = .joined then t.line.mode = .joined ∧ t.line.measured = s.line.measured ∧ t.line.delay0 = s.line.delay0 ∧
        t.line.delay1 = s.line.delay1
      else t.line.measured = s.line.measured ||| BitVec.ofNat 2 (2 ^ p.val) ∧
        t.line.delay0 = (if p = 0 then min ns 65535 else s.line.delay0) ∧
        t.line.delay1 = (if p = 0 then s.line.delay1 else min ns 65535) ∧ (p = t.line.lockPort → t.line.port = p) ∧
        if s.line.mode = .search ∨ s.line.mode = .isolated then t.line.mode = .locking ∧ t.line.joinAt = some s.frm.count
        else t.line.mode = s.line.mode ∧ t.line.joinAt = s.line.joinAt := by
  refine completes_of_exec ((receives_ping p b ⟨ns, clk⟩).accepted ok) ?_
  obtain ⟨-, other, -⟩ := ok
  have follower : ¬ (s.accepts p 6 b).station = 0 := fun h => other (zero.trans h.symm)
  rw [State.pingTaken, if_neg follower]
  by_cases joined : s.line.mode = .joined
  · rw [if_neg fun c => c.2 joined, if_pos joined]
    exact ⟨rfl, rfl, joined, rfl, rfl, rfl⟩
  · rw [if_pos ⟨zero, joined⟩, if_neg joined]
    obtain ⟨err, port, locked, trim, measured, lock⟩ := (s.accepts p 6 b).measureDelay_eqn p ns
    rw [measured]
    refine ⟨rfl, rfl, rfl, rfl, rfl, lock, ?_⟩
    by_cases begins : s.line.mode = .search ∨ s.line.mode = .isolated
    · simp [Line.measures, State.accepts, begins]
    · simp [Line.measures, State.accepts, begins]

theorem linePing_answers {s : State} (p : Fin 2) {b : List Byte} (ns clk : Nat) (ok : Accepted s 6 b) (zero : s.station = 0)
    (joined : s.line.mode = .joined) : Completes (.linePingReceive p b ⟨ns, clk⟩) s fun t => t.regs = s.regs ∧
      t.line.tx0 = s.line.tx0 + BitVec.ofNat 8 (b2n (s.portUp 0)) ∧ t.line.tx1 = s.line.tx1 + BitVec.ofNat 8 (b2n (s.portUp 1)) ∧
      t.line.mode = .joined := by
  refine completes_of_exec ((receives_ping p b ⟨ns, clk⟩).accepted ok) ?_
  have station : (s.accepts p 6 b).station = 0 := zero
  rw [State.pingTaken, if_pos station, if_pos (show (s.accepts p 6 b).joined = true from beq_iff_eq.2 joined)]
  obtain ⟨out, sent⟩ := (s.accepts p 6 b).sendLine_does 6 (leBytes 4 clk)
  rw [sent]
  exact ⟨rfl, rfl, rfl, joined⟩

end Sys2Proof.Machine
end

section

namespace Sys2Proof.Machine

open Safety

/-! #### STATUS (R342, R346, R347, R350, R356) -/

/-- What a STATUS tells of its station stands with what is known of it. -/
def Peer.tells (q : Peer) (b : List Byte) : Peer :=
  { q with estop := u8 (payload b) 0 != 0, parked := u8 (payload b) 1 != 0, rate := u8 (payload b) 2, seen := some (frameOf b) }

/-- A STATUS is noted, and station 0's brings its rate (R350). -/
def State.statusNoted (t : State) (b : List Byte) : State :=
  let o := u8 b 1 % 8
  let u := t.modLine fun l => { l with peers := l.peers.set o ((t.line.peer o).tells b) }
  if o = 0 then u.followRate (Fin.ofNat 4 (u8 (Machine.payload b) 2)) else u

/-- Where this station is joined, a station that is heard is joined with it, at its place (R342, R363). -/
def State.joinedWith (t : State) (o : Nat) (pos : Fin 8) : State :=
  if t.joined then ((t.modLine fun l => { l with present := l.present ||| BitVec.ofNat 8 (2 ^ o) }).mapGains o pos).topology else t

/-- What an accepted STATUS brings. -/
def State.statusTaken (t : State) (f : StatusIn) : State :=
  let o := u8 f.bytes 1 % 8
  ((t.statusNoted f.bytes).joinedWith o f.pos).statusStop o (u8 (Machine.payload f.bytes) 0 != 0) (t.line.peer o).estop (frameOf f.bytes)

theorem receives_status (p : Fin 2) (f : StatusIn) : Receives (.lineStatusReceive p f) p 1 f.bytes fun t _ => t.statusTaken f := by
  intro s
  show execLineStatusReceive p f s = _
  unfold execLineStatusReceive
  rcases s.lineTake p 1 f.bytes with ⟨t, _ | _⟩ <;> rfl

/-- What a peer's update leaves alone is as it was, also where there is no such peer. -/
theorem peer_set_proj {β : Type} (g : Peer → β) (l : List Peer) (o : Nat) {q : Peer} (same : g q = g (l.getD o .reset)) :
    g ((l.set o q).getD o .reset) = g (l.getD o .reset) := by
  by_cases there : o < l.length
  · simpa [List.getD_eq_getElem?_getD, there] using same
  · rw [List.set_eq_of_length_le (Nat.not_lt.1 there)]

theorem Peer.takeStatus_stop (p : Peer) (west : Bool) (f : FrameNo) (a : Byte) :
    (p.takeStatus west f a).estop = p.estop ∧ (p.takeStatus west f a).stopAt = p.stopAt := by
  unfold Peer.takeStatus
  cases west <;> exact ⟨rfl, rfl⟩

/-- A STATUS that is accepted leaves the stop of its station, and its time, as they were known. -/
theorem Peer.take_status_stop (p : Peer) (west : Bool) (f : FrameNo) (a : Byte) :
    (p.take west 1 f a).1.estop = p.estop ∧ (p.take west 1 f a).1.stopAt = p.stopAt := by
  unfold Peer.take
  rw [if_pos rfl]
  cases west <;> exact Peer.takeStatus_stop ..

theorem State.accepts_stop (s : State) (p : Fin 2) (b : List Byte) :
    ((s.accepts p 1 b).line.peer (u8 b 1 % 8)).estop = (s.line.peer (u8 b 1 % 8)).estop ∧
    ((s.accepts p 1 b).line.peer (u8 b 1 % 8)).stopAt = (s.line.peer (u8 b 1 % 8)).stopAt := by
  obtain ⟨stop, time⟩ := (s.line.peer (u8 b 1 % 8)).take_status_stop (128 ≤ u8 b 1) (frameOf b) (b.getD 2 0)
  exact ⟨peer_set_proj Peer.estop _ _ stop, peer_set_proj Peer.stopAt _ _ time⟩

theorem State.statusNoted_line (t : State) (b : List Byte) : (t.statusNoted b).line =
    { t.line with peers := t.line.peers.set (u8 b 1 % 8) ((t.line.peer (u8 b 1 % 8)).tells b) } := by
  unfold State.statusNoted
  extract_lets o u
  split
  · exact followRate_line ..
  · rfl

theorem State.statusNoted_count (t : State) (b : List Byte) : (t.statusNoted b).frm.count = t.frm.count := by
  unfold State.statusNoted
  extract_lets o u
  split
  · exact followRate_count ..
  · rfl

/-- The line with station `o` joined, at place `pos` of the ring. -/
def Line.gains (l : Line) (o : Nat) (pos : Fin 8) : Line :=
  { l with present := l.present ||| BitVec.ofNat 8 (2 ^ o), map := (l.map.map fun q => if q = some o then none else q).set pos.val (some o) }

theorem State.joinedWith_does {t : State} (joined : t.line.mode = .joined) (o : Nat) (pos : Fin 8) :
    (t.joinedWith o pos).frm = t.frm ∧
    ∃ topo d, (t.joinedWith o pos).line = { t.line.gains o pos with topo := topo, topoD0 := d } := by
  unfold State.joinedWith
  rw [if_pos (show t.joined = true from beq_iff_eq.2 joined)]
  obtain ⟨d, line⟩ := ((t.modLine fun l => { l with present := l.present ||| BitVec.ofNat 8 (2 ^ o) }).mapGains o pos).topology_line
  exact ⟨(State.topology_moves _).frm, _, d, line⟩

/-- On a joined station the stop that a STATUS tells of is in force, or is not where it was or came before the STATUS (R356). -/
theorem State.statusStop_does {t : State} (joined : t.line.mode = .joined) {o : Nat} (range : o < 8) (stop before : Bool) (f : FrameNo) :
    (t.statusStop o stop before f).frm = t.frm ∧ (∃ e, (t.statusStop o stop before f).line = { t.line with estop := e }) ∧
    (stop = true → (t.statusStop o stop before f).line.estop.getLsbD o = true) ∧
    (stop = false → before = true ∨ frameLt (t.line.peer o).stopAt f = true →
      (t.statusStop o stop before f).line.estop.getLsbD o = false) := by
  have here : t.joined = true := beq_iff_eq.2 joined
  unfold State.statusStop
  rw [here]
  cases stop with
  | true =>
    refine ⟨rfl, ⟨_, rfl⟩, fun _ => ?_, fun off => nomatch off⟩
    show (t.line.estop ||| BitVec.ofNat 8 (2 ^ o)).getLsbD o = true
    rw [getLsbD_or_two_pow]
    simp [range]
  | false =>
    rw [if_neg Bool.false_ne_true]
    split
    next ends =>
      exact ⟨(t.dropEstop_moves o none).frm, ⟨_, t.dropEstop_line o none⟩, fun on => (nomatch on),
        fun _ _ => by rw [State.dropEstop_line]; exact Line.without_self ..⟩
    next stays => exact ⟨rfl, ⟨_, rfl⟩, fun on => (nomatch on), fun _ ends => absurd (ends.imp_right fun late => ⟨rfl, late⟩) stays⟩

theorem lineStatus_does {s : State} (p : Fin 2) {b : List Byte} (pos : Fin 8) (ok : Accepted s 1 b) (joined : s.line.mode = .joined) :
    let o := u8 b 1 % 8
    Completes (.lineStatusReceive p ⟨b, pos⟩) s fun t => t.line.mode = .joined ∧ t.line.present.getLsbD o = true ∧
      t.frm.count = s.frm.count ∧ t.line.map = (s.line.map.map fun q => if q = some o then none else q).set pos.val (some o) ∧
      (u8 (payload b) 0 ≠ 0 → t.line.estop.getLsbD o = true) ∧
      (u8 (payload b) 0 = 0 → (s.line.peer o).estop = true ∨ frameLt (s.line.peer o).stopAt (frameOf b) = true →
        t.line.estop.getLsbD o = false) := by
  intro o
  have range : o < 8 := Nat.mod_lt _ (by decide)
  refine completes_of_exec ((receives_status p ⟨b, pos⟩).accepted ok) ?_
  obtain ⟨stop, time⟩ := s.accepts_stop p b
  have noted := (s.accepts p 1 b).statusNoted_line b
  have count := (s.accepts p 1 b).statusNoted_count b
  obtain ⟨frm, topo, d, line⟩ := State.joinedWith_does (t := (s.accepts p 1 b).statusNoted b) (by rw [noted]; exact joined) o pos
  rw [noted] at line
  unfold State.statusTaken
  dsimp only
  rw [stop]
  generalize ((s.accepts p 1 b).statusNoted b).joinedWith (u8 b 1 % 8) pos = v at line frm
  have known : (v.line.peer o).stopAt = (s.line.peer o).stopAt := by
    rw [line]
    exact (peer_set_proj Peer.stopAt _ o (q := ((s.accepts p 1 b).line.peer o).tells b) rfl).trans time
  obtain ⟨same, ⟨e, final⟩, on, off⟩ :=
    State.statusStop_does (t := v) (by rw [line]; exact joined) range (u8 (payload b) 0 != 0) (s.line.peer o).estop (frameOf b)
  refine ⟨?_, ?_, ?_, ?_, fun stops => on (by simpa using stops), fun clear before => off (by simpa using clear) (known ▸ before)⟩
  · rw [final, line]
    exact joined
  · rw [final, line]
    show (s.line.present ||| BitVec.ofNat 8 (2 ^ o)).getLsbD o = true
    rw [getLsbD_or_two_pow]
    simp [range]
  · rw [same, frm, count]
    rfl
  · rw [final, line]
    rfl

end Sys2Proof.Machine
end

section

namespace Sys2Proof.Machine

open Safety

/-! #### RESET (R350, R351) -/

/-- The station at each ring position, as a RESET tells (R346). -/
def placesIn (b : List Byte) : List (Option Nat) := (List.range 8).map (placeOf (payload b))

/-- A RESET that comes again adds its stations, or shows a station that added itself that another has its number. -/
def State.resetAgain (t : State) (b : List Byte) (r : LineReset) : State :=
  let added := r.places.contains (some t.station)
  if t.station ≠ 0 ∧ added ∧ (List.range 8).any (fun i => i != t.line.pos && (placesIn b).getD i none == some t.station) then t.leftOut
  else
    let m := mergePlaces r.places (placesIn b)
    t.modLine fun l =>
      { l with reset := some { r with places := m, twin := r.twin || (!added && (placesIn b).contains (some t.station)) }, map := m }

/-- A follower's part in a line reset begins, in frame `fr` at the place that it finds (log 210). -/
def Line.resets (l : Line) (f : ResetIn) (station : Nat) (fr : FrameNo) : Line :=
  { l with mode := .locking, pos := f.pos.val, size := f.size.val, measured := 0, joinAt := none, map := placesIn f.bytes,
           reset := some ⟨fr, placesIn f.bytes, (placesIn f.bytes).contains (some station)⟩ }

/-- The first RESET from station 0: a follower that has or can take the rate begins its part. -/
def State.resetFirst (t : State) (f : ResetIn) : State :=
  if u8 f.bytes 1 % 8 ≠ 0 then t
  else if f.rate ≠ t.frm.rate ∧ ¬ (allFin 200).all (fun x => (t.ax.get x).isParked) then t.modLine fun l => { l with mode := .search }
  else
    let u := if f.rate = t.frm.rate then t else t.takeRate f.rate []
    u.modLine fun l => l.resets f t.station u.frm.count

/-- What an accepted RESET brings. -/
def State.resetTaken (t : State) (f : ResetIn) : State := t.line.reset.elim (t.resetFirst f) (t.resetAgain f.bytes)

theorem receives_reset (p : Fin 2) (f : ResetIn) : Receives (.lineResetReceive p f) p 5 f.bytes fun t _ => t.resetTaken f := by
  intro s
  show execLineResetReceive p f s = _
  unfold execLineResetReceive State.resetTaken
  rcases s.lineTake p 5 f.bytes with ⟨t, _ | _⟩
  · rfl
  · cases reset : t.line.reset with
    | none => simp only [reset]; rfl
    | some r => simp only [reset]; rfl

section

variable {s : State} (p : Fin 2) {b : List Byte} (pos : Fin 8) (size : Fin 9) (rate : Fin 4) (ok : Accepted s 5 b)
include ok

theorem lineReset_first (zero : u8 b 1 % 8 = 0) (idle : s.line.reset = none) :
    (rate = s.frm.rate → Completes (.lineResetReceive p ⟨b, pos, size, rate⟩) s fun t => t.line.mode = .locking ∧ t.line.pos = pos.val ∧
      t.line.size = size.val ∧ t.line.measured = 0 ∧ t.line.map = placesIn b ∧
      t.frm = s.frm ∧ t.regs = s.regs ∧ t.line.reset = some ⟨s.frm.count, placesIn b, (placesIn b).contains (some s.station)⟩) ∧
    (rate ≠ s.frm.rate → (∀ x : AxisId, (s.ax.get x).isParked = true) → Completes (.lineResetReceive p ⟨b, pos, size, rate⟩) s fun t =>
      t.line.mode = .locking ∧ t.frm = { s.frm with rate := rate } ∧ t.line.reset.isSome = true) ∧
    (rate ≠ s.frm.rate → (∃ x : AxisId, (s.ax.get x).isParked = false) → Completes (.lineResetReceive p ⟨b, pos, size, rate⟩) s fun t =>
      t.line.mode = .search ∧ t.line.reset = none ∧ t.frm = s.frm ∧ t.regs = s.regs) := by
  have runs : exec (.lineResetReceive p ⟨b, pos, size, rate⟩) s = .next ((s.accepts p 5 b).resetFirst ⟨b, pos, size, rate⟩) := by
    rw [(receives_reset p ⟨b, pos, size, rate⟩).accepted ok, State.resetTaken, show (s.accepts p 5 b).line.reset = none from idle]
    rfl
  rw [State.resetFirst, if_neg (not_not.2 zero)] at runs
  refine ⟨fun same => ?_, fun other parked => ?_, fun other moving => ?_⟩
  · rw [if_neg fun c => c.1 same, if_pos (show rate = (s.accepts p 5 b).frm.rate from same)] at runs
    exact completes_of_exec runs ⟨rfl, rfl, rfl, rfl, rfl, rfl, rfl, rfl⟩
  · rw [if_neg fun c => c.2 (List.all_eq_true.2 fun x _ => parked x), if_neg (show ¬ rate = (s.accepts p 5 b).frm.rate from other)] at runs
    exact completes_of_exec runs ⟨rfl, rfl, rfl⟩
  · obtain ⟨x, unparked⟩ := moving
    have some_moves : ¬ (allFin 200).all (fun x => ((s.accepts p 5 b).ax.get x).isParked) = true := fun all =>
      Bool.false_ne_true (unparked.symm.trans (List.all_eq_true.1 all x (mem_allFin x)))
    rw [if_pos ⟨other, some_moves⟩] at runs
    exact completes_of_exec runs ⟨rfl, idle, rfl, rfl⟩

theorem lineReset_again (r : LineReset) (runs : s.line.reset = some r) (new : r.places.contains (some s.station) = false) :
    Completes (.lineResetReceive p ⟨b, pos, size, rate⟩) s fun t => t.line.map = mergePlaces r.places (placesIn b) ∧ t.frm = s.frm ∧
      t.line.reset = some ⟨r.start, mergePlaces r.places (placesIn b), r.twin || (placesIn b).contains (some s.station)⟩ := by
  refine completes_of_exec ((receives_reset p ⟨b, pos, size, rate⟩).accepted ok) ?_
  have absent : r.places.contains (some (s.accepts p 5 b).station) = false := new
  rw [State.resetTaken, show (s.accepts p 5 b).line.reset = some r from runs, Option.elim_some, State.resetAgain]
  dsimp only
  rw [absent, if_neg fun c => Bool.false_ne_true c.2.1]
  exact ⟨rfl, rfl, rfl⟩

end

/-- Settles O54: the taking of a frame, the same for every type, and then what each type carries. -/
theorem lineFrames : Obligations.LineFrames := by
  unfold Obligations.LineFrames
  intro s p b ns clk pos size rate
  refine ⟨fun c among => ?_, lineArrive_does p, lineSnapCmd_does p, lineSnapDone_does p, linePing_measures p ns clk,
    linePing_answers p ns clk, lineStatus_does p pos, fun ok => lineReset_first p pos size rate ok,
    fun r ok => lineReset_again p pos size rate ok r⟩
  simp only [List.mem_cons, List.not_mem_nil, or_false] at among
  rcases among with rfl | rfl | rfl | rfl | rfl | rfl
  · exact (receives_status p ⟨b, pos⟩).unaccepted
  · exact (receives_arrive p b).unaccepted
  · exact (receives_snapCmd p b).unaccepted
  · exact (receives_snapDone p b).unaccepted
  · exact (receives_ping p b ⟨ns, clk⟩).unaccepted
  · exact (receives_reset p ⟨b, pos, size, rate⟩).unaccepted

end Sys2Proof.Machine
end

section
/-! SUPPORT. Writes that act: what the count of a write leaves alone. -/

namespace Sys2Proof.Machine

open Safety

/-- The count of a write takes nothing from its reach, where no ring owns the register. -/
theorem State.reaches_noted {s : State} {m : Master} {a k : Nat} (acts : Acts s m a k) (ring : ringOf a = none) (event : isEqReg a = false)
    (enable : (a == Adr.EVT_EN_LO || a == Adr.EVT_EN_HI) = false) : (s.noted m a).reaches m a k = true := by
  have reach := acts.2
  unfold State.reaches at reach ⊢
  rwa [State.noted_sys, State.mayWrite_congr s _ m ring event enable]

/-- An update of another part of the state leaves every bit of a register alone. -/
theorem State.rb_of_regs {s t : State} (h : t.regs = s.regs) (a i : Nat) : t.rb a i = s.rb a i := by
  rw [State.rb, State.reg_of_regs h, State.rb]

end Sys2Proof.Machine
end

section
/-! SUPPORT. The obligations of every step: the canonical form of the register file, and which commands stop. -/

namespace Sys2Proof.Machine

open Safety

/-! ### The canonical form (O3) -/

/-- Settles O3: an idle step changes nothing, and every command keeps the canonical form. -/
theorem canonicalKept : Obligations.CanonicalKept := by
  unfold Obligations.CanonicalKept
  intro s t canonical stepped
  cases queue : s.pending with
  | nil =>
    rw [step_nil queue] at stepped
    cases stepped
    exact canonical
  | cons c rest =>
    rw [step_cons queue] at stepped
    exact (kept_exec (z := false) (fun e => nomatch e) stepped).wf canonical

/-! ### Stops (O6) -/

/-- What a command ends in: it stops where it names an offset outside the block, and has a next state elsewhere. -/
def Stops (c : Instr) (s : State) : Prop :=
  (outside c = true ∧ exec c s = .fault .outsideBlock) ∨ (outside c = false ∧ ∃ t, exec c s = .next t)

/-- A read stops outside BAR0 and the BAR2 of its function (R44, R391). -/
theorem State.readAt_stops (s : State) (m : Master) (a : Nat) :
    ((!inBar a && !inBar2 m a) = true ∧ s.readAt m a = .fault .outsideBlock) ∨
      ((!inBar a && !inBar2 m a) = false ∧ ∃ t, s.readAt m a = .next t) := by
  unfold State.readAt
  by_cases bar : inBar a = true
  · exact .inr ⟨by rw [bar]; rfl, _, if_pos bar⟩
  · rw [if_neg bar]
    by_cases table : inBar2 m a = true
    · exact .inr ⟨by simp [table], _, if_pos table⟩
    · exact .inl ⟨by simp [bar, table], if_neg table⟩

theorem registerWrite_stops (s : State) (m : Master) (a : Nat) (be : BitVec 4) (w : Word) : Stops (.registerWrite m a be w) s := by
  by_cases bar : inBar a = true
  · exact .inr ⟨by simp [outside, bar], _, if_pos bar⟩
  · by_cases table : inBar2 m a = true
    · exact .inr ⟨by simp [outside, table], _, (if_neg bar).trans (if_pos table)⟩
    · exact .inl ⟨by simp [outside, bar, table], (if_neg bar).trans (if_neg table)⟩

theorem wlWordWrite_stops (s : State) (m : Master) (a : Nat) (be : BitVec 4) (w : Word) : Stops (.wlWordWrite m a be w) s := by
  by_cases bar : inBar a = true
  · exact .inr ⟨by simp [outside, bar], _, if_pos bar⟩
  · exact .inl ⟨by simp [outside, bar], if_neg bar⟩

theorem sramApertureRead_stops (s : State) (m : Master) (o : Nat) (e : EccResult) : Stops (.sramApertureRead m o e) s := by
  by_cases out : 0x100000 ≤ o
  · exact .inl ⟨decide_eq_true out, if_pos out⟩
  · exact .inr ⟨decide_eq_false out, _, if_neg out⟩

/-- Six commands name offsets; every other command ends in a next state. -/
theorem exec_stops (c : Instr) (s : State) : Stops c s := by
  cases c with
  | captureRead m a => exact s.readAt_stops m a
  | rcFieldRead m a => exact s.readAt_stops m a
  | resultRegisterRead m a => exact s.readAt_stops m a
  | registerWrite m a be w => exact registerWrite_stops s m a be w
  | wlWordWrite m a be w => exact wlWordWrite_stops s m a be w
  | sramApertureRead m o e => exact sramApertureRead_stops s m o e
  | _ => exact .inr ⟨rfl, _, rfl⟩

/-- Settles O6: a command that stops names an offset outside the block, and no command is refused. -/
theorem stopsOnlyOutsideTheBlock : Obligations.StopsOnlyOutsideTheBlock := by
  unfold Obligations.StopsOnlyOutsideTheBlock
  refine ⟨fun c s r refused => ?_, fun c s f => ?_⟩
  · rcases exec_stops c s with ⟨-, stops⟩ | ⟨-, t, ends⟩
    · exact nomatch stops.symm.trans refused
    · exact nomatch ends.symm.trans refused
  · rcases exec_stops c s with ⟨out, stops⟩ | ⟨inside, t, ends⟩
    · exact ⟨fun faults => ⟨Host.Outcome.fault.inj (faults.symm.trans stops), out⟩, fun ⟨same, _⟩ => same ▸ stops⟩
    · exact ⟨fun faults => (nomatch ends.symm.trans faults), fun ⟨_, out⟩ => (nomatch inside.symm.trans out)⟩

end Sys2Proof.Machine
end

section
/-! SUPPORT. The obligations of register accesses: reads with their captures and clears, writes, and locked words. -/

namespace Sys2Proof.Machine

open Safety

/-! ### Reads (O12) -/

/-- A read moves no other part of the state as it captures. -/
theorem State.captureFor_eqn (s : State) (m : Master) (a : Nat) : s.captureFor m a = { s with caps := (s.captureFor m a).caps } := by
  unfold State.captureFor
  dsimp only
  generalize (if isResLo a = true ∧ (s.capOf m a).isSome = true then [] else companions a) = cs
  split <;> rfl

/-- A read of a register that is not itself captured captures every companion as its master sees it (R401). -/
theorem State.capOf_captureFor_mem {s : State} {m : Master} {a b : Nat} (none : s.capOf m a = none) (mem : b ∈ companions a) :
    (s.captureFor m a).capOf m b = some (s.view m b) := by
  have some_companion : companions a ≠ [] := List.ne_nil_of_mem mem
  have kept : ((s.caps.filter fun c => !(c.master == m.code && (companions a).contains c.addr)).find?
      fun c => c.master == m.code && c.addr == b) = .none := by
    rw [List.find?_eq_none]
    intro c hc same
    have away := (List.mem_filter.1 hc).2
    rw [Bool.and_eq_true, beq_iff_eq, beq_iff_eq] at same
    rw [same.1, same.2, beq_self_eq_true, Bool.true_and, Bool.not_eq_true', List.contains_eq_mem, decide_eq_false_iff_not] at away
    exact away mem
  have taken : ((companions a).map fun b => (⟨m.code, b, s.view m b⟩ : Capture)).find? (fun c => c.master == m.code && c.addr == b) =
      some ⟨m.code, b, s.view m b⟩ := by
    generalize companions a = l at mem
    clear some_companion kept
    induction l with
    | nil => exact nomatch mem
    | cons x l ih =>
      by_cases same : x = b
      · simp [same]
      · rw [List.map_cons, List.find?_cons_of_neg (by simp [same])]
        exact ih ((List.mem_cons.1 mem).resolve_left (Ne.symm same))
  unfold State.captureFor
  dsimp only
  rw [none, if_neg (c := isResLo a = true ∧ _) (by simp), if_neg some_companion, State.capOf, List.find?_append, kept, taken]
  rfl

section

variable {s : State} {m : Master} {a : Nat} (on : s.sys.powered = true) (sees : s.maySee m a = true)
include on sees

/-- A plain read that its master may make (R393, R399, R401). -/
theorem State.readPlain_eq : s.readPlain m a =
    { if rcFor m a = 0 then s.captureFor m a else (s.captureFor m a).clrReg a (rcFor m a) with bus := (s.capOf m a).getD (s.view m a) } := by
  unfold State.readPlain
  rw [if_neg (by simp [on, sees])]

theorem State.readPlain_eqn : s.readPlain m a =
    { s with bus := (s.readPlain m a).bus, caps := (s.readPlain m a).caps, regs := (s.readPlain m a).regs } := by
  obtain ⟨c, captured⟩ : ∃ c, s.captureFor m a = { s with caps := c } := ⟨_, s.captureFor_eqn m a⟩
  rw [State.readPlain_eq on sees, captured]
  split <;> rfl

/-- A plain read clears the RC bits that its master may clear, and moves no other register (R399). -/
theorem State.reg_readPlain (b : Nat) :
    (s.readPlain m a).reg b = if b = a then s.reg a &&& ~~~(wd (rcFor m a)) else s.reg b := by
  have captured : ∀ b, (s.captureFor m a).reg b = s.reg b := State.reg_of_regs (by rw [State.captureFor_eqn])
  rw [State.readPlain_eq on sees]
  by_cases clears : rcFor m a = 0
  · rw [if_pos clears, clears, show ~~~(wd 0) = BitVec.allOnes 32 from rfl, BitVec.and_allOnes]
    refine (captured b).trans ?_
    split
    · next same => rw [same]
    · rfl
  · rw [if_neg clears]
    show ((s.captureFor m a).clrReg a (rcFor m a)).reg b = _
    by_cases same : b = a
    · rw [if_pos same, same, State.clrReg, State.reg_setReg_self, captured]
    · rw [if_neg same, State.clrReg, State.reg_setReg_other _ _ same, captured]

end

/-- Outside the SRAM aperture a read is a plain one (R391, R406). -/
theorem State.readReg_plain (s : State) (m : Master) {a : Nat} (plain : a < 0x200000 ∨ 0x300000 ≤ a) : s.readReg m a = s.readPlain m a :=
  if_neg (by omega)

/-- Settles O12: what the bus carries and the captures are the plain read's, and so is what it clears. -/
theorem registerReads : Obligations.RegisterReads := by
  unfold Obligations.RegisterReads
  intro s m a c among bar plain on sees
  have runs : exec c s = .next (s.readPlain m a) := by rw [exec_read s among bar, State.readReg_plain s m plain]
  obtain ⟨caps, bus⟩ := s.caps_readPlain m a on sees
  have regs := State.reg_readPlain on sees
  have others (b : Nat) (ne : b ≠ a) : (s.readPlain m a).reg b = s.reg b := by rw [regs, if_neg ne]
  refine ⟨fun none => completes_of_exec runs ⟨?_, ?_, others, fun b mem => ?_, State.readPlain_eqn on sees⟩,
    fun v held => completes_of_exec runs ⟨?_, others⟩⟩
  · rw [bus, none, Option.getD_none]
  · rw [regs, if_pos rfl]
  · rw [State.capOf, caps]
    exact State.capOf_captureFor_mem none mem
  · rw [bus, held, Option.getD_some]

/-! ### Writes (O14) -/

theorem rights_scratch : rights Adr.GCTL_SCRATCH = some (bits 31 0, 0, 0) := by decide +kernel

theorem rights_frmCfg : rights Adr.FRM_CFG = some (bits 5 3 + bits 1 0, bits 5 3 + bits 1 0, 0) := by decide +kernel

/-- GCTL_SCRATCH stores what is written, whoever writes it (R396). -/
theorem State.written_scratch (s : State) (m : Master) (w : Word) : s.written m Adr.GCTL_SCRATCH w = w := by
  refine BitVec.eq_of_getLsbD_eq fun i hi => ?_
  have full : ∀ i < 32, (wd (bits 31 0)).getLsbD i = true ∧ (wd (bits 31 0 - (bits 31 0 &&& 0))).getLsbD i = true := by decide +kernel
  exact s.written_bit m w rights_scratch hi (full i hi).1 (full i hi).2 fun v => rfl

/-- Where a register has no privileged field, no write of it is counted. -/
theorem State.notePrv_plain (s : State) (m : Master) {a : Nat} (plain : prvOf a = 0) : s.notePrv m a = s := by
  simp [State.notePrv, plain]

/-- A plain write that its master may make, where it is no violation. -/
theorem State.plainWrite_stored {s : State} {m : Master} {a rw prv w1c : Nat} (on : s.sys.powered = true) (may : s.mayWrite m a = true)
    (unnoted : s.notePrv m a = s) (row : rights a = some (rw, prv, w1c)) (w : Word) : s.plainWrite m a w = s.stored m a w := by
  rw [State.plainWrite, if_pos on, unnoted]
  dsimp only
  rw [if_pos may, State.storeWord_eq s m w row, State.stored]

theorem State.writeReg_scratch {s : State} (m : Master) (on : s.sys.powered = true) (w : Word) :
    s.writeReg m Adr.GCTL_SCRATCH w = s.plainWrite m Adr.GCTL_SCRATCH w := if_neg (by simp [on])

theorem State.writeReg_frmCfg {s : State} (m : Master) (on : s.sys.powered = true) (w : Word) :
    s.writeReg m Adr.FRM_CFG w = s.plainWrite m Adr.FRM_CFG w := if_neg (by simp [on])

/-- Without power no write of a word does anything. -/
theorem State.busWrite_off {s : State} (off : s.sys.powered = false) (m : Master) (a : Nat) (be : BitVec 4) (w : Word) :
    s.busWrite m a be w = s := by
  unfold State.busWrite State.writeReg
  rw [if_pos (c := ¬ s.sys.powered = true) (by simp [off]), if_neg (c := s.sys.powered = true ∧ m ≠ .spiOpen) (by simp [off]), ite_self]

/-- An application master's write of FRM_CFG is counted, and stores what the register holds (R396). -/
theorem State.plainWrite_frmCfg_pf1 {s : State} (on : s.sys.powered = true) (w : Word) :
    s.plainWrite .pf1 Adr.FRM_CFG w = (s.capture Adr.ACC_PRVV_INFO Adr.ACC_PRVV_ADDR .pf1 Adr.FRM_CFG).stored .pf1 Adr.FRM_CFG w ∧
      ∀ t : State, t.written .pf1 Adr.FRM_CFG w = t.reg Adr.FRM_CFG := by
  constructor
  · have noted : s.notePrv .pf1 Adr.FRM_CFG = s.capture Adr.ACC_PRVV_INFO Adr.ACC_PRVV_ADDR .pf1 Adr.FRM_CFG :=
      if_pos (by rw [prvOf_of_rights rights_frmCfg]; rfl)
    have may : s.mayWrite .pf1 Adr.FRM_CFG = true := State.mayWrite_of_plain s (by decide) (by decide) (by decide) (by decide)
    rw [State.plainWrite, if_pos on, noted]
    dsimp only
    rw [if_pos may, State.storeWord_eq _ _ w rights_frmCfg, State.stored]
  · intro t
    obtain ⟨r, found, same⟩ := Option.map_eq_some_iff.1 rights_frmCfg
    obtain ⟨rw_, prv, w1c⟩ : r.rw = bits 5 3 + bits 1 0 ∧ r.prv = bits 5 3 + bits 1 0 ∧ r.w1c = 0 := by simpa using same
    have none : bits 5 3 + bits 1 0 - ((bits 5 3 + bits 1 0) &&& (bits 5 3 + bits 1 0)) = 0 := by decide
    have kept (v x : Word) : mergeW v x 0 = v := by
      rw [mergeW, show wd 0 = 0#32 from rfl, BitVec.and_zero, BitVec.or_zero]
      exact BitVec.and_allOnes
    have all (v : Word) : v &&& ~~~(w &&& wd 0) = v := by
      rw [show wd 0 = 0#32 from rfl, BitVec.and_zero]
      exact BitVec.and_allOnes
    rw [State.written, State.storeWord, found]
    simp only [Master.admin, rw_, prv, w1c, none, kept, Nat.zero_and, Nat.sub_zero, all, Bool.false_eq_true, if_false]
    exact State.reg_setReg_self ..

/-- Settles O14, case by case of the byte enables, the power and the register. -/
theorem registerWrites : Obligations.RegisterWrites := by
  unfold Obligations.RegisterWrites
  intro s m w
  have whole (m : Master) (a : Nat) (bar : inBar a = true) : exec (.registerWrite m a 15 w) s = .next (s.writeReg m a w) := if_pos bar
  refine ⟨fun a be bar part on notOpen => ?_, fun a be bar off => ?_, fun on notOpen => ?_, fun on adm => ?_, fun on => ?_⟩
  · refine (if_pos bar).trans (congrArg Host.Outcome.next ?_)
    rw [State.busWrite, if_neg part, if_pos ⟨on, notOpen⟩, State.incReg]
  · refine (if_pos bar).trans (congrArg Host.Outcome.next ?_)
    exact State.busWrite_off off m a be w
  · refine completes_of_exec (whole m _ (by decide)) ?_
    have may := State.mayWrite_of_plain s notOpen (a := Adr.GCTL_SCRATCH) (by decide) (by decide) (by decide)
    rw [State.writeReg_scratch m on, State.plainWrite_stored on may (State.notePrv_plain s m (prvOf_of_rights rights_scratch)) rights_scratch]
    exact ⟨(s.reg_stored ..).trans (s.written_scratch m w), fun b ne => State.reg_setReg_other _ _ ne, rfl, rfl, rfl, rfl⟩
  · refine completes_of_exec (whole m _ (by decide)) ?_
    rw [State.writeReg_frmCfg m on, State.plainWrite_stored on (s.mayWrite_admin adm _) (s.notePrv_admin adm _) rights_frmCfg]
    have low : ∀ i < 1 + 1 - 0, (wd (bits 5 3 + bits 1 0)).getLsbD (0 + i) = true := by decide +kernel
    have high : ∀ i < 5 + 1 - 3, (wd (bits 5 3 + bits 1 0)).getLsbD (3 + i) = true := by decide +kernel
    have plain (v : Word) : normalise Adr.FRM_CFG v = v := rfl
    refine ⟨?_, ?_, rfl⟩
    · rw [State.rf, State.reg_stored, State.fld_written_admin w rights_frmCfg low (by decide) adm, plain, fld_mergeW_full low (by decide)]
    · rw [State.rf, State.reg_stored, State.fld_written_admin w rights_frmCfg high (by decide) adm, plain, fld_mergeW_full high (by decide)]
  · refine completes_of_exec (whole .pf1 _ (by decide)) ?_
    obtain ⟨stored, word⟩ := State.plainWrite_frmCfg_pf1 on w
    rw [State.writeReg_frmCfg .pf1 on, stored]
    constructor
    · rw [State.reg_stored, word]
      exact s.reg_capture_other _ _ (by decide) (by decide)
    · refine (congrArg (fld · 15 0) (State.reg_setReg_other _ _ (by decide))).trans ?_
      exact s.fld_capture _ _ (by decide)

/-! ### Locked words (O15) -/

/-- No WL word is a register of events or of the counts of violations. -/
theorem wl_apart {a : Nat} (wl : isWl a = true) : evReg a = false ∧
    a ∉ [Adr.ACC_LOCKV_INFO, Adr.ACC_LOCKV_ADDR, Adr.ACC_PRVV_INFO, Adr.ACC_PRVV_ADDR] ∧
    ¬ (0x200000 ≤ a ∧ a < 0x300000) := by
  have place : a = Adr.ACC_OPT ∨ (Adr.ACC_SPI_KEY 0 ≤ a ∧ a < 0x40020) := by simpa [isWl] using wl
  simp only [Adr.ACC_OPT, Adr.ACC_SPI_KEY] at place
  simp only [evReg, List.mem_cons, List.not_mem_nil, or_false, Adr.EVT_PEND_LO, Adr.EVT_PEND_HI, Adr.ACC_LOCKV_INFO, Adr.ACC_LOCKV_ADDR,
    Adr.ACC_PRVV_INFO, Adr.ACC_PRVV_ADDR, Bool.or_eq_false_iff, beq_eq_false_iff_ne, Bool.and_eq_false_iff, decide_eq_false_iff_not]
  omega

section

variable {s : State} {m : Master} {a : Nat} {w : Word} (on : s.sys.powered = true) (bar : inBar a = true) (wl : isWl a = true)
include on bar wl

/-- A whole-word write of a WL word. -/
theorem exec_wlWordWrite : exec (.wlWordWrite m a 15 w) s = .next (s.wlWrite m a w) := by
  refine (if_pos bar).trans (congrArg Host.Outcome.next ?_)
  obtain ⟨-, -, outside⟩ := wl_apart wl
  rw [if_pos wl, State.busWrite, if_pos rfl, State.writeReg, if_neg (by simp [on]), if_neg outside, if_pos wl]

/-- The first write by an admin master stores the word and locks it. -/
theorem wlWordWrite_locks (adm : m.admin = true) (free : s.acc.locked.contains a = false) :
    Completes (.wlWordWrite m a 15 w) s fun t => t.reg a = (if a = Adr.ACC_OPT then w &&& 3#32 else w) ∧
      t.acc = { s.acc with locked := s.acc.locked ++ [a] } ∧ ∀ b : Nat, b ≠ a → t.reg b = s.reg b := by
  refine completes_of_exec (exec_wlWordWrite on bar wl) ?_
  rw [State.wlWrite, if_neg (by simp [on, s.mayWrite_admin adm]), if_neg (by simp [adm]), free, if_neg Bool.false_ne_true]
  exact ⟨State.reg_setReg_self .., rfl, fun b ne => State.reg_setReg_other _ _ ne⟩

/-- A write of a locked word is counted, and told for the first one in a window. -/
theorem wlWordWrite_locked (adm : m.admin = true) (locked : s.acc.locked.contains a = true) :
    Completes (.wlWordWrite m a 15 w) s fun t => t.reg a = s.reg a ∧ t.acc.locked = s.acc.locked ∧
      fld (t.reg Adr.ACC_LOCKV_INFO) 15 0 = min (fld (s.reg Adr.ACC_LOCKV_INFO) 15 0 + 1) 65535 ∧
      t.acc.lockWin = s.acc.lockWin + 1 ∧ (s.acc.lockWin = 0 → t.rb Adr.EVT_PEND_HI 27 = true) := by
  refine completes_of_exec (exec_wlWordWrite on bar wl) ?_
  obtain ⟨noEvent, apart, -⟩ := wl_apart wl
  simp only [List.mem_cons, List.not_mem_nil, or_false, not_or] at apart
  obtain ⟨notInfo, notAddr, -, -⟩ := apart
  rw [State.wlWrite, if_neg (by simp [on, s.mayWrite_admin adm]), if_neg (by simp [adm]), if_pos locked]
  dsimp only
  have acc : (s.capture Adr.ACC_LOCKV_INFO Adr.ACC_LOCKV_ADDR m a).acc = s.acc := by rw [State.capture_eqn]
  have word := s.reg_capture_other (b := a) m a notInfo notAddr
  have count := s.fld_capture m a (show Adr.ACC_LOCKV_INFO ≠ Adr.ACC_LOCKV_ADDR by decide)
  generalize s.capture Adr.ACC_LOCKV_INFO Adr.ACC_LOCKV_ADDR m a = t at acc word count
  rw [acc]
  by_cases first : s.acc.lockWin = 0
  · rw [if_pos first]
    generalize hu : { t with acc := { s.acc with lockWin := s.acc.lockWin + 1 } } = u
    have uacc : u.acc = { s.acc with lockWin := s.acc.lockWin + 1 } := by rw [← hu]
    have ureg : ∀ b, u.reg b = t.reg b := State.reg_of_regs (by rw [← hu])
    have told := within_raise (.refl true u) 59 0x223 (wd a) (wd (m.code + 65536))
    rw [told.acc, told.reg rfl a noEvent, told.reg rfl _ (by decide), uacc, ureg, ureg]
    exact ⟨word, rfl, count, rfl, fun _ => u.rb_raise_self 59 ..⟩
  · rw [if_neg first]
    exact ⟨word, rfl, count, rfl, fun zero => absurd zero first⟩

end

/-- An application master's write of a WL word neither stores nor locks. -/
theorem wlWordWrite_pf1 {s : State} {a : Nat} {w : Word} (on : s.sys.powered = true) (bar : inBar a = true) (wl : isWl a = true) :
    Completes (.wlWordWrite .pf1 a 15 w) s fun t => t.reg a = s.reg a ∧ t.acc = s.acc := by
  refine completes_of_exec (exec_wlWordWrite on bar wl) ?_
  obtain ⟨-, apart, -⟩ := wl_apart wl
  simp only [List.mem_cons, List.not_mem_nil, or_false, not_or] at apart
  obtain ⟨-, -, notInfo, notAddr⟩ := apart
  unfold State.wlWrite
  split
  · exact ⟨rfl, rfl⟩
  · rw [if_pos (by decide)]
    exact ⟨s.reg_notePrv_other _ a notInfo notAddr, by rw [State.notePrv_eqn]⟩

/-- Settles O15: the first write, a write of a locked word, and an application master's. -/
theorem lockedWords : Obligations.LockedWords := by
  unfold Obligations.LockedWords
  exact fun s m a w on bar wl => ⟨wlWordWrite_locks on bar wl, wlWordWrite_locked on bar wl, fun app => app ▸ wlWordWrite_pf1 on bar wl⟩

end Sys2Proof.Machine
end

section
/-! SUPPORT. The obligation of the SRAM: the aperture, the errors that are met, and the restart of a core. -/

namespace Sys2Proof.Machine

open Safety

/-! ### The aperture (R405, R406) -/

theorem exec_sramApertureRead {s : State} {m : Master} {o : Nat} (inside : o < 0x100000) (e : EccResult) :
    exec (.sramApertureRead m o e) s = .next (s.apertureRead m o e) := if_neg (by omega)

theorem State.apertureRead_hidden {s : State} {m : Master} (o : Nat) (e : EccResult) (hidden : m ≠ .pf0 ∨ s.rb Adr.ACC_OPT 1 = false) :
    s.apertureRead m o e = { s with bus := 0 } := by
  refine if_pos (.inr (hidden.imp_right fun off => ?_))
  rw [off]
  exact Bool.false_ne_true

/-- What PF0 reads while APERTURE_EN is 1. -/
theorem State.apertureRead_shown {s : State} (on : s.sys.powered = true) (shown : s.rb Adr.ACC_OPT 1 = true) (o : Nat) :
    s.apertureRead .pf0 o .good = { (s.sramWord o).2 with bus := (s.sramWord o).1 } ∧
    (∀ y, s.apertureRead .pf0 o (.correctable y) = { (s.sramWord o).2.corrected .access o y with bus := (s.sramWord o).1 }) ∧
    ∀ y, s.apertureRead .pf0 o (.uncorrectable y) = { s.orReg Adr.ACC_ECC_STAT 4 with bus := 0xFFFFFFFF } := by
  have open_ : ¬ (¬ s.sys.powered = true ∨ Master.pf0 ≠ .pf0 ∨ ¬ s.rb Adr.ACC_OPT 1 = true) := by simp [on, shown]
  exact ⟨if_neg open_, fun y => if_neg open_, fun y => if_neg open_⟩

/-- Reading a word of the SRAM may draw a free value, and does nothing else. -/
theorem State.sramWord_eqn (s : State) (o : Nat) : ∃ n, (s.sramWord o).2 = { s with free := n } := by
  unfold State.sramWord
  split
  · exact ⟨_, rfl⟩
  · exact ⟨_, rfl⟩

/-! ### Corrected errors (R407) -/

/-- Finding the place of an error may draw a free value, and does nothing else. -/
theorem State.eccWord_eqn (s : State) (f : EccFinder) (o : Nat) : ∃ n, (s.eccWord f o).2.2 = { s with free := n } := by
  unfold State.eccWord
  split
  · exact ⟨_, rfl⟩
  · exact ⟨_, rfl⟩

/-- The state in which a corrected error is counted. -/
def State.ceCounted (s : State) : State :=
  { (s.incReg Adr.ACC_ECC_CECNT).orReg Adr.ACC_ECC_STAT 1 with acc := { s.acc with ceWin := s.acc.ceWin + 1 } }

theorem State.reg_ceCounted (s : State) (a : Nat) :
    s.ceCounted.reg a = ((s.incReg Adr.ACC_ECC_CECNT).orReg Adr.ACC_ECC_STAT 1).reg a := State.reg_of_regs rfl a

theorem State.ceCounted_keeps (s : State) :
    s.ceCounted.ax = s.ax ∧ s.ceCounted.ord = s.ord ∧ s.ceCounted.acc.ceWin = s.acc.ceWin + 1 := by
  simp only [State.ceCounted, State.orReg_ax, State.incReg_ax, State.orReg_ord, State.incReg_ord, and_self]

theorem State.corrected_eq (s : State) (f : EccFinder) (o : Nat) (y : Byte) :
    ∃ n u d0 d1, s.corrected f o y =
      if s.acc.ceWin = 0 then ({ s with free := n } : State).ceCounted.raise 56 u d0 d1 else ({ s with free := n } : State).ceCounted := by
  obtain ⟨n, drawn⟩ := s.eccWord_eqn f o
  refine ⟨n, eccUnit f, wd (eccPlace f o), wd (y.toNat + 256 * (s.eccWord f o).1 + 65536 * b2n (f == .scrubber) + 2 ^ 24), ?_⟩
  unfold State.corrected
  dsimp only
  rw [drawn]
  rfl

/-- A corrected error is counted, and told for the first one of a window (R407). -/
theorem State.corrected_does (s : State) (f : EccFinder) (o : Nat) (y : Byte) :
    (s.corrected f o y).reg Adr.ACC_ECC_CECNT = satInc (s.reg Adr.ACC_ECC_CECNT) ∧ (s.corrected f o y).rb Adr.ACC_ECC_STAT 0 = true ∧
      (s.corrected f o y).acc.ceWin = s.acc.ceWin + 1 ∧ (s.acc.ceWin = 0 → (s.corrected f o y).rb Adr.EVT_PEND_HI 24 = true) ∧
      (s.corrected f o y).ax = s.ax ∧ (s.corrected f o y).ord = s.ord := by
  obtain ⟨n, u, d0, d1, eq⟩ := s.corrected_eq f o y
  rw [eq]
  generalize hv : ({ s with free := n } : State) = v
  have counted : v.ceCounted.reg Adr.ACC_ECC_CECNT = satInc (v.reg Adr.ACC_ECC_CECNT) := by
    rw [State.reg_ceCounted, State.orReg, State.reg_setReg_other _ _ (by decide), State.incReg, State.reg_setReg_self]
  have stat : v.ceCounted.rb Adr.ACC_ECC_STAT 0 = true := by
    rw [State.rb, State.reg_ceCounted]
    exact State.rb_orReg_self _ _ (k := 0) (by decide)
  have parts : v.acc = s.acc ∧ v.ax = s.ax ∧ v.ord = s.ord ∧ v.reg Adr.ACC_ECC_CECNT = s.reg Adr.ACC_ECC_CECNT := by
    rw [← hv]; exact ⟨rfl, rfl, rfl, State.reg_of_regs rfl _⟩
  obtain ⟨acc, ax, ord, cecnt⟩ := parts
  obtain ⟨caxes, cord, window⟩ := v.ceCounted_keeps
  rw [cecnt] at counted
  rw [ax] at caxes
  rw [ord] at cord
  rw [acc] at window
  generalize v.ceCounted = t at counted stat window caxes cord
  split
  · have told := tells_raise t 56 u d0 d1
    have kept := within_raise (.refl true t) 56 u d0 d1
    refine ⟨(kept.reg rfl _ (by decide)).trans counted, ?_, ?_, fun _ => t.rb_raise_self 56 .., told.ax.trans caxes, told.ord.trans cord⟩
    · rw [State.rb, kept.reg rfl _ (by decide)]; exact stat
    · rw [told.acc]; exact window
  · next later => exact ⟨counted, stat, window, fun zero => absurd zero later, caxes, cord⟩

/-! ### Uncorrectable errors (R407) -/

/-- After event 57 and what goes with it: the registers beside those of events stand as in `s`, and the event is pending. -/
structure Struck (s t : State) : Prop where
  reg : ∀ a, evReg a = false → t.reg a = s.reg a
  pending : t.rb Adr.EVT_PEND_HI 25 = true

/-- The event told, behind what moves no register beside those of events. -/
theorem Struck.raise {s t : State} (same : ∀ a, evReg a = false → t.reg a = s.reg a) (u : Nat) (d0 d1 : Word) :
    Struck s (t.raise 57 u d0 d1) :=
  ⟨fun a plain => ((within_raise (.refl true t) ..).reg rfl a plain).trans (same a plain), t.rb_raise_self 57 ..⟩

/-- What follows moves no register beside those of events, and takes no pending bit back. -/
theorem Struck.within {s t u : State} (h : Struck s t) (w : Within true t u) : Struck s u :=
  ⟨fun a plain => (w.reg rfl a plain).trans (h.reg a plain), w.hi rfl 25 h.pending⟩

theorem Struck.of_regs {s t u : State} (h : Struck s t) (regs : u.regs = t.regs) : Struck s u :=
  ⟨fun a plain => (State.reg_of_regs regs a).trans (h.reg a plain), (congrArg (bitOf · 25) (State.reg_of_regs regs _)).trans h.pending⟩

theorem State.regs_loseRecord (s : State) (n : Nat) : (s.loseRecord n).regs = s.regs := by
  unfold State.loseRecord
  dsimp only
  split <;> rfl

/-- Finding the axis of a word may draw a free value, and does nothing else. -/
theorem State.axisOfWord_eqn (s : State) (o : Nat) : ∃ n, (s.axisOfWord o).2 = { s with free := n } := by
  unfold State.axisOfWord
  split
  · exact ⟨_, rfl⟩
  · exact ⟨_, rfl⟩

/-- The state in which an uncorrectable error is counted, with the offset `a`. -/
def State.eccCounted (s : State) (a : Nat) : State :=
  ((s.incReg Adr.ACC_ECC_UECNT).setReg Adr.ACC_ECC_ADDR (wd a)).orReg Adr.ACC_ECC_STAT 2

theorem State.eccCounted_does (s : State) (a : Nat) :
    (s.eccCounted a).reg Adr.ACC_ECC_UECNT = satInc (s.reg Adr.ACC_ECC_UECNT) ∧ (s.eccCounted a).reg Adr.ACC_ECC_ADDR = wd a ∧
      (s.eccCounted a).rb Adr.ACC_ECC_STAT 1 = true := by
  refine ⟨?_, ?_, State.rb_orReg_self _ _ (k := 1) (by decide)⟩
  · exact (State.reg_setReg_other _ _ (by decide)).trans ((State.reg_setReg_other _ _ (by decide)).trans (State.reg_setReg_self ..))
  · exact (State.reg_setReg_other _ _ (by decide)).trans (State.reg_setReg_self ..)

theorem State.eccCounted_keeps (s : State) (a : Nat) : (s.eccCounted a).ax = s.ax ∧ (s.eccCounted a).ord = s.ord := by
  simp only [State.eccCounted, State.orReg_ax, State.setReg_ax, State.incReg_ax, State.orReg_ord, State.setReg_ord, State.incReg_ord, and_self]

/-- An error on the word of a register takes no region's action; a read goes out poisoned (R407). -/
theorem State.uncorrectable_register {s : State} {f : EccFinder} (word : onRegister f = true) (o : Nat) (y : Byte) :
    ∃ n a u d0 d1, s.uncorrectable f o y = (let t := (({ s with free := n } : State).eccCounted a).raise 57 u d0 d1
      if f = .registerRead then t.emit .poisonedRead else t) := by
  obtain ⟨n, drawn⟩ := s.eccWord_eqn f o
  refine ⟨n, (s.eccWord f o).2.1, eccUnit f, wd (eccPlace f o),
    wd (y.toNat + 256 * (s.eccWord f o).1 + 65536 * b2n (f == .scrubber)), ?_⟩
  unfold State.uncorrectable
  dsimp only
  rw [drawn, if_pos word]
  rfl

/-- An error in the SRAM is counted with its offset, told, and its region's action taken (R407). -/
theorem State.uncorrectable_sram {s : State} {f : EccFinder} (sram : onRegister f = false) (o : Nat) (y : Byte) :
    Struck (s.eccCounted o) (s.uncorrectable f o y) := by
  have place : s.eccWord f o = (regionOf o, o, s) := if_neg (by rw [sram]; exact Bool.false_ne_true)
  unfold State.uncorrectable
  rw [place]
  dsimp only
  rw [if_neg (by rw [sram]; exact Bool.false_ne_true)]
  rw [show ((s.incReg Adr.ACC_ECC_UECNT).setReg Adr.ACC_ECC_ADDR (wd o)).orReg Adr.ACC_ECC_STAT 2 = s.eccCounted o from rfl]
  generalize s.eccCounted o = v
  have told (u : Nat) (d0 d1 : Word) : Struck v (v.raise 57 u d0 d1) := .raise (fun _ _ => rfl) ..
  have hit : Struck v (match s.descAt o with
      | some d => (v.raise 57 (eccUnit f) (wd (eccPlace f o)) (wd (y.toNat + 256 * regionOf o + 65536 * b2n (f == .scrubber)))).hitDesc d
      | none => v.raise 57 (eccUnit f) (wd (eccPlace f o)) (wd (y.toNat + 256 * regionOf o + 65536 * b2n (f == .scrubber)))) := by
    split
    · exact (told ..).within (within_hitDesc (.refl ..) _)
    · exact told ..
  split
  · exact hit
  · exact hit
  · exact (Struck.raise ((within_faultEnergised (.refl true v) _ 57).reg rfl) ..).within (within_reloadCard (.refl ..) _)
  · split
    · exact (told ..).within (within_modAx (.refl ..) _ _)
    · exact told ..
  · exact (told ..).of_regs rfl
  · exact (told ..).of_regs (State.regs_loseRecord ..)
  · exact told ..
  · obtain ⟨n, drawn⟩ := v.axisOfWord_eqn o
    have same (x : AxisId) (a : Nat) (plain : evReg a = false) : ((v.axisOfWord o).2.bridgeFaulted x 57).reg a = v.reg a :=
      ((within_bridgeFaulted (.refl true _) x 57).reg rfl a plain).trans (State.reg_of_regs (by rw [drawn]) a)
    split
    · next x t found =>
      rw [found] at same
      exact (Struck.raise (same x) ..).within (within_reloadAxis (.refl ..) x)
    · next t found =>
      rw [found] at drawn
      have regs : t.regs = v.regs := (congrArg State.regs drawn :)
      exact .raise (fun a _ => State.reg_of_regs regs a) ..

/-! ### The scrubber, and the other finders -/

/-- The offset at which an error is met: the scrubber's own position (R407). -/
def State.eccOffset (s : State) (f : EccFinder) (o : Nat) : Nat := if f = .scrubber then s.rf Adr.ACC_SCRUB_POS 19 0 else o

/-- The scrubber moves to the next word as it reads one. -/
def State.scrubbed (s : State) (f : EccFinder) : State :=
  if f = .scrubber then s.setReg Adr.ACC_SCRUB_POS (wd ((s.rf Adr.ACC_SCRUB_POS 19 0 + 4) % 2 ^ 20)) else s

theorem exec_scrubRead {s : State} (on : s.sys.powered = true) (f : EccFinder) (o : Fin 0x100000) :
    exec (.scrubRead f o .good) s = .next (s.scrubbed f) ∧
    (∀ y, exec (.scrubRead f o (.correctable y)) s = .next ((s.scrubbed f).corrected f (s.eccOffset f o) y)) ∧
    ∀ y, exec (.scrubRead f o (.uncorrectable y)) s = .next ((s.scrubbed f).uncorrectable f (s.eccOffset f o) y) := by
  have on : ¬ ¬ s.sys.powered = true := by simp [on]
  exact ⟨congrArg Host.Outcome.next (if_neg on), fun y => congrArg Host.Outcome.next (if_neg on),
    fun y => congrArg Host.Outcome.next (if_neg on)⟩

/-- The scrubber's step moves its position alone. -/
theorem State.scrubbed_keeps (s : State) (f : EccFinder) : (s.scrubbed f).ax = s.ax ∧ (s.scrubbed f).ord = s.ord ∧
    (s.scrubbed f).acc = s.acc ∧ ∀ a, a ≠ Adr.ACC_SCRUB_POS → (s.scrubbed f).reg a = s.reg a := by
  unfold State.scrubbed
  split
  · exact ⟨rfl, rfl, rfl, fun a ne => State.reg_setReg_other _ _ ne⟩
  · exact ⟨rfl, rfl, rfl, fun _ _ => rfl⟩

theorem scrubRead_corrects {s : State} (on : s.sys.powered = true) (f : EccFinder) (o : Fin 0x100000) (y : Byte) :
    Completes (.scrubRead f o (.correctable y)) s fun t => t.reg Adr.ACC_ECC_CECNT = satInc (s.reg Adr.ACC_ECC_CECNT) ∧
      t.rb Adr.ACC_ECC_STAT 0 = true ∧ t.acc.ceWin = s.acc.ceWin + 1 ∧ (s.acc.ceWin = 0 → t.rb Adr.EVT_PEND_HI 24 = true) ∧
      t.ax = s.ax ∧ t.ord = s.ord := by
  refine completes_of_exec ((exec_scrubRead on f o).2.1 y) ?_
  obtain ⟨ax, ord, acc, reg⟩ := s.scrubbed_keeps f
  have does := (s.scrubbed f).corrected_does f (s.eccOffset f o) y
  rwa [ax, ord, acc, reg _ (by decide)] at does

theorem scrubRead_strikes {s : State} (on : s.sys.powered = true) (f : EccFinder) (o : Fin 0x100000) (y : Byte) :
    Completes (.scrubRead f o (.uncorrectable y)) s fun t => t.reg Adr.ACC_ECC_UECNT = satInc (s.reg Adr.ACC_ECC_UECNT) ∧
      (onRegister f = false → t.reg Adr.ACC_ECC_ADDR = wd (if f = .scrubber then s.rf Adr.ACC_SCRUB_POS 19 0 else o.val)) ∧
      t.rb Adr.ACC_ECC_STAT 1 = true ∧ t.rb Adr.EVT_PEND_HI 25 = true ∧ (onRegister f = true → t.ax = s.ax ∧ t.ord = s.ord) ∧
      (f = .registerRead → t.out.getLast? = some .poisonedRead) := by
  refine completes_of_exec ((exec_scrubRead on f o).2.2 y) ?_
  obtain ⟨ax, ord, -, reg⟩ := s.scrubbed_keeps f
  by_cases word : onRegister f = true
  · obtain ⟨n, a, u, d0, d1, eq⟩ := (s.scrubbed f).uncorrectable_register word (s.eccOffset f o) y
    rw [eq]
    dsimp only
    generalize hv : ({ s.scrubbed f with free := n } : State) = v
    have parts : v.ax = s.ax ∧ v.ord = s.ord ∧ v.reg Adr.ACC_ECC_UECNT = s.reg Adr.ACC_ECC_UECNT := by
      rw [← hv]; exact ⟨ax, ord, (State.reg_of_regs rfl _).trans (reg _ (by decide))⟩
    obtain ⟨vax, vord, vreg⟩ := parts
    obtain ⟨count, -, stat⟩ := v.eccCounted_does a
    have told := tells_raise (v.eccCounted a) 57 u d0 d1
    have struck : Struck (v.eccCounted a) ((v.eccCounted a).raise 57 u d0 d1) := .raise (fun _ _ => rfl) ..
    obtain ⟨cax, cord⟩ := v.eccCounted_keeps a
    have tax := told.ax.trans (cax.trans vax)
    have tord := told.ord.trans (cord.trans vord)
    rw [← vreg, ← count]
    have notSram : ¬ onRegister f = false := by simp [word]
    generalize (v.eccCounted a).raise 57 u d0 d1 = t at struck tax tord
    have bit : t.rb Adr.ACC_ECC_STAT 1 = true := by rw [State.rb, struck.reg _ (by decide)]; exact stat
    have counts : t.reg Adr.ACC_ECC_UECNT = (v.eccCounted a).reg Adr.ACC_ECC_UECNT := struck.reg _ (by decide)
    split
    · refine ⟨(State.reg_of_regs rfl _).trans counts, fun sram => absurd sram notSram, ?_, ?_, fun _ => ⟨tax, tord⟩,
        fun _ => List.getLast?_concat⟩
      · rw [State.rb, State.reg_of_regs rfl]; exact bit
      · rw [State.rb, State.reg_of_regs rfl]; exact struck.pending
    · next other => exact ⟨counts, fun sram => absurd sram notSram, bit, struck.pending, fun _ => ⟨tax, tord⟩, fun read => absurd read other⟩
  · have sram : onRegister f = false := by simpa using word
    have struck := State.uncorrectable_sram (s := s.scrubbed f) sram (s.eccOffset f o) y
    obtain ⟨count, place, stat⟩ := (s.scrubbed f).eccCounted_does (s.eccOffset f o)
    refine ⟨?_, fun _ => (struck.reg _ (by decide)).trans place, ?_, struck.pending, fun reads => absurd reads word, fun read => ?_⟩
    · rw [struck.reg _ (by decide), count, reg _ (by decide)]
    · rw [State.rb, struck.reg _ (by decide)]; exact stat
    · rw [read] at word
      exact absurd rfl word

/-! ### The restart of a core (R407) -/

theorem coreRestart_does {s : State} {u : Fin 7} (waits : s.upd.restart.getLsbD u = true) :
    Completes (.coreRestart u) s fun t => t.upd.restart.getLsbD u = false ∧
      (∀ v : Fin 7, v ≠ u → t.upd.restart.getLsbD v = s.upd.restart.getLsbD v) ∧
      t.upd.coreVer = s.upd.coreVer.set u (s.upd.slot (s.upd.coreSlot.getLsbD u)).version ∧ t = { s with upd := t.upd } := by
  refine completes_of_exec (congrArg Host.Outcome.next (if_pos waits)) ⟨?_, fun v ne => ?_, rfl, rfl⟩
  · dsimp only
    rw [getLsbD_and_not_two_pow]
    simp
  · dsimp only
    rw [getLsbD_and_not_two_pow, decide_eq_false fun e => ne (Fin.ext e.symm)]
    simp

/-- Settles O16: who reads the aperture and what it then does, the errors by their kind, and the restart of a core. -/
theorem sramProtection : Obligations.SramProtection := by
  unfold Obligations.SramProtection
  intro s on
  refine ⟨fun m o e inside hidden => ?_, fun o y inside shown => ?_, fun o inside shown => ?_, fun o y inside shown => ?_, fun f o => ?_,
    scrubRead_corrects on, scrubRead_strikes on, fun u => coreRestart_does, fun u runs => ?_⟩
  · rw [exec_sramApertureRead inside, State.apertureRead_hidden o e hidden]
  · obtain ⟨-, -, bad⟩ := State.apertureRead_shown on shown o
    rw [exec_sramApertureRead inside, bad]
    rfl
  · refine completes_of_exec (exec_sramApertureRead inside _) ?_
    obtain ⟨good, -, -⟩ := State.apertureRead_shown on shown o
    obtain ⟨n, read⟩ := s.sramWord_eqn o
    rw [good, read]
    exact ⟨rfl, rfl, rfl, rfl, rfl⟩
  · refine completes_of_exec (exec_sramApertureRead inside _) ?_
    obtain ⟨-, corrected, -⟩ := State.apertureRead_shown on shown o
    obtain ⟨n, read⟩ := s.sramWord_eqn o
    obtain ⟨count, stat, -, -, ax, ord⟩ := (s.sramWord o).2.corrected_does .access o y
    rw [corrected]
    refine ⟨rfl, count.trans ?_, stat, ax.trans ?_, ord.trans ?_⟩
    · exact congrArg satInc (State.reg_of_regs (by rw [read]) _)
    · rw [read]
    · rw [read]
  · exact (exec_scrubRead on f o).1
  · exact congrArg Host.Outcome.next (if_neg (by rw [runs]; exact Bool.false_ne_true))

end Sys2Proof.Machine
end

section
/-! SUPPORT. The obligation of the service SPI port and of configuration parity. -/

namespace Sys2Proof.Machine

open Safety

/-! ### Transactions of the port (R397) -/

theorem State.powered_of_spiOn {s : State} (on : s.spiOn = true) : s.sys.powered = true := by
  rw [State.spiOn, Bool.and_eq_true] at on
  exact on.1

/-- A write transaction whose length or check is wrong is counted, and does nothing else. -/
theorem exec_spiWriteTransaction_bad {s : State} {b : List Byte} (on : s.spiOn = true) (write : u8 b 0 = 2)
    (bad : b.length ≠ 9 + 4 * spiCount b ∨ crc32c (b.take (b.length - 4)) ≠ wd (u32 b (b.length - 4))) :
    exec (.spiWriteTransaction b) s = .next (s.setReg Adr.ACC_SPI_ERR (satInc (s.reg Adr.ACC_SPI_ERR))) := by
  refine congrArg Host.Outcome.next ?_
  dsimp only
  rw [if_neg (by simp [on, write]), if_pos (bad.imp_right .inl), State.incReg]

/-- A good write transaction of one word. -/
theorem exec_spiWriteTransaction_word {s : State} {b : List Byte} (on : s.spiOn = true) (write : u8 b 0 = 2) (length : b.length = 13)
    (one : u8 b 4 = 1) (check : crc32c (b.take 9) = wd (u32 b 9)) (inside : spiAddr b < 0x400000) :
    exec (.spiWriteTransaction b) s = .next (s.writeReg s.spiMaster (spiAddr b) (wd (leNat ((b.drop 5).take 4)))) := by
  have count : spiCount b = 1 := by rw [spiCount, one]; rfl
  refine congrArg Host.Outcome.next ?_
  dsimp only
  rw [if_neg (by simp [on, write]), length, count, if_neg]
  · rfl
  · rintro (len | crc | out)
    · exact len rfl
    · exact crc check
    · omega

/-- An unauthorised SPI master stores nothing in GCTL_SCRATCH (R396, R398). -/
theorem State.writeReg_scratch_open {s : State} (on : s.sys.powered = true) (w : Word) : s.writeReg .spiOpen Adr.GCTL_SCRATCH w = s := by
  have barred : s.mayWrite .spiOpen Adr.GCTL_SCRATCH = false := rfl
  rw [State.writeReg_scratch _ on, State.plainWrite, if_pos on, State.notePrv_plain s _ (prvOf_of_rights rights_scratch), barred]
  exact if_neg Bool.false_ne_true

theorem State.writeReg_scratch_admin {s : State} {m : Master} (on : s.sys.powered = true) (adm : m.admin = true) (w : Word) :
    s.writeReg m Adr.GCTL_SCRATCH w = s.stored m Adr.GCTL_SCRATCH w := by
  rw [State.writeReg_scratch m on, State.plainWrite_stored on (s.mayWrite_admin adm _) (s.notePrv_admin adm _) rights_scratch]

theorem State.apertureRead_keeps (s : State) (m : Master) (o : Nat) :
    (s.apertureRead m o .good).ax = s.ax ∧ (s.apertureRead m o .good).out = s.out := by
  obtain ⟨n, read⟩ := s.sramWord_eqn o
  unfold State.apertureRead
  split
  · exact ⟨rfl, rfl⟩
  · dsimp only
    rw [read]
    exact ⟨rfl, rfl⟩

theorem State.readPlain_keeps (s : State) (m : Master) (a : Nat) : (s.readPlain m a).ax = s.ax ∧ (s.readPlain m a).out = s.out := by
  by_cases may : s.sys.powered = true ∧ s.maySee m a = true
  · obtain ⟨b, c, r, read⟩ : ∃ b c r, s.readPlain m a = { s with bus := b, caps := c, regs := r } :=
      ⟨_, _, _, State.readPlain_eqn may.1 may.2⟩
    rw [read]
    exact ⟨rfl, rfl⟩
  · unfold State.readPlain
    rw [if_pos (Classical.not_and_iff_not_or_not.1 may)]
    exact ⟨rfl, rfl⟩

/-- A read of a register sends nothing out and moves no axis. -/
theorem State.readReg_keeps (s : State) (m : Master) (a : Nat) : (s.readReg m a).ax = s.ax ∧ (s.readReg m a).out = s.out := by
  unfold State.readReg
  split
  · exact s.apertureRead_keeps ..
  · exact s.readPlain_keeps ..

/-- A read transaction of one word reads as the port's master, and sends the word out with its check. -/
theorem spiReadTransaction_does {s : State} {b : List Byte} (on : s.spiOn = true) (read : u8 b 0 = 0x0B) (length : 5 ≤ b.length)
    (one : u8 b 4 = 1) (inside : spiAddr b < 0x400000) :
    let u := s.readReg s.spiMaster (spiAddr b)
    Completes (.spiReadTransaction b) s fun t => t.regs = u.regs ∧ t.ax = s.ax ∧
      t.out = s.out ++ [.spi (leBytes 4 u.bus.toNat ++ leBytes 4 (crc32c (leBytes 4 u.bus.toNat)).toNat)] := by
  intro u
  have count : spiCount b = 1 := by rw [spiCount, one]; rfl
  have runs : exec (.spiReadTransaction b) s =
      .next (u.emit (.spi (leBytes 4 u.bus.toNat ++ [] ++ leBytes 4 (crc32c (leBytes 4 u.bus.toNat ++ [])).toNat))) := by
    refine congrArg Host.Outcome.next ?_
    dsimp only
    rw [if_neg, count, if_neg (by omega)]
    · rfl
    · rintro (off | other | short)
      · exact off on
      · exact other read
      · omega
  rw [List.append_nil] at runs
  obtain ⟨ax, out⟩ := s.readReg_keeps s.spiMaster (spiAddr b)
  exact completes_of_exec runs ⟨rfl, ax, congrArg (· ++ _) out⟩

/-! ### Admin rights (R398) -/

/-- Does a response match the challenge? -/
def State.spiMatches (s : State) (w : Word) : Bool :=
  s.keySet && !s.acc.blocked && s.spiAnswer == s.acc.respLo.toNat + 2 ^ 32 * w.toNat

/-- The access control after a response that matches (`ok`) or does not. -/
def Acc.answered (a : Acc) (ok : Bool) : Acc :=
  { a with chal := a.chal + 1, admin := a.admin || ok, fails := if ok then 0 else min 15 (a.fails + 1),
           blocked := a.blocked || decide (3 ≤ if ok then 0 else min 15 (a.fails + 1)) }

theorem exec_spiResponseWrite {s : State} {m : Master} (acts : Acts s m Adr.ACC_SPI_RESP_HI 0) (w : Word) :
    exec (.spiResponseWrite m w) s = .next { s with acc := s.acc.answered (s.spiMatches w) } :=
  congrArg Host.Outcome.next (if_neg (by rw [acts.2]; decide))

theorem spiResponseWrite_matches {s : State} {m : Master} {w : Word} (acts : Acts s m Adr.ACC_SPI_RESP_HI 0)
    (ok : s.spiMatches w = true) : Completes (.spiResponseWrite m w) s fun t =>
      t.acc = { s.acc with chal := s.acc.chal + 1, admin := true, fails := 0 } ∧ t = { s with acc := t.acc } := by
  refine completes_of_exec (exec_spiResponseWrite acts w) ⟨?_, rfl⟩
  rw [ok]
  simp [Acc.answered]

theorem spiResponseWrite_fails {s : State} {m : Master} {w : Word} (acts : Acts s m Adr.ACC_SPI_RESP_HI 0)
    (ok : s.spiMatches w = false) : Completes (.spiResponseWrite m w) s fun t =>
      t.acc.admin = s.acc.admin ∧ t.acc.fails = min 15 (s.acc.fails + 1) ∧ t.acc.chal = s.acc.chal + 1 ∧
      t.acc.blocked = (s.acc.blocked || decide (2 ≤ s.acc.fails)) ∧ t = { s with acc := t.acc } := by
  refine completes_of_exec (exec_spiResponseWrite acts w) ?_
  rw [ok]
  have third : (3 ≤ min 15 (s.acc.fails + 1)) ↔ 2 ≤ s.acc.fails := by omega
  exact ⟨Bool.or_false _, rfl, rfl, by simp [Acc.answered, third], rfl⟩

/-! ### Configuration parity (R408) -/

theorem State.faultOn_brakeFrom (s : State) (u : CarrierId) (y : AxisId) : (s.brakeFrom u).faultOn y = s.faultOn y := by
  unfold State.brakeFrom
  dsimp only
  split
  · rfl
  · refine (State.faultOn_of_ax rfl y).trans ((State.faultOn_forAll (fun t x => State.faultOn_modAx t x y rfl) _).trans ?_)
    exact State.faultOn_of_ax rfl y

/-- A unit that enters its safe state clears no fault (R228). -/
theorem State.faultOn_enterSafe (s : State) (u : CarrierId) (y : AxisId) : (s.enterSafe u).faultOn y = s.faultOn y :=
  (State.faultOn_forAll (fun t x => State.faultOn_bridgeFault t x y) _).trans
    ((State.faultOn_of_ax rfl y).trans (State.faultOn_brakeFrom s u y))

/-- A unit in its safe state with parity as a cause. -/
def State.paritySafe (s : State) (u : CarrierId) : State := (s.enterSafe u).modCu u fun c => { c with cParity := true }

theorem State.paritySafe_self (s : State) (u : CarrierId) :
    ((s.paritySafe u).cu.get u).safe = true ∧ ((s.paritySafe u).cu.get u).cParity = true := by
  obtain ⟨k, entered⟩ := s.cu_enterSafe_self u
  rw [State.paritySafe, State.cu_modCu_self, entered]
  exact ⟨rfl, rfl⟩

theorem State.paritySafe_keeps (s : State) (u v : CarrierId) (h : (s.cu.get v).safe = true ∧ (s.cu.get v).cParity = true) :
    ((s.paritySafe u).cu.get v).safe = true ∧ ((s.paritySafe u).cu.get v).cParity = true := by
  by_cases same : v = u
  · exact same ▸ s.paritySafe_self v
  · rw [State.paritySafe, State.cu_modCu_ne _ _ same]
    exact ⟨s.safe_enterSafe u v h.1, (State.cu_enterSafe_proj CUnit.cParity s u v (fun _ _ => rfl) fun _ _ => rfl).trans h.2⟩

theorem State.acc_paritySafe (s : State) (u : CarrierId) : (s.paritySafe u).acc = s.acc := by
  rw [State.paritySafe, State.modCu_acc, (within_enterSafe (z := true) s u).acc, State.modCu_acc, State.brakeFrom_eqn]

/-- The axes of the units are faulted, and then the units enter their safe state (R103, R408). -/
def State.parityActs (s : State) (us : List CarrierId) : State :=
  (s.forAll (us.flatMap axesOf) fun t x => t.faultAxis x 58).forAll us State.paritySafe

theorem State.parityActs_does (s : State) (us : List CarrierId) : (s.parityActs us).acc = s.acc ∧
    ∀ u ∈ us, (((s.parityActs us).cu.get u).safe = true ∧ ((s.parityActs us).cu.get u).cParity = true) ∧
      ∀ x ∈ axesOf u, ((s.parityActs us).faultOn x).isSome = true := by
  refine ⟨?_, fun u mem => ⟨?_, fun x on => ?_⟩⟩
  · refine (State.forAll_proj State.acc State.acc_paritySafe _).trans ?_
    exact State.forAll_proj State.acc (fun t x => (within_faultAxis (.refl true t) x 58).acc) s
  · exact State.forAll_reaches (fun u t => (t.cu.get u).safe = true ∧ (t.cu.get u).cParity = true) State.paritySafe_self
      State.paritySafe_keeps _ u mem
  · have kept := State.faultOn_forAll (l := us) (f := State.paritySafe) (y := x)
      (fun t u => (State.faultOn_of_ax rfl x).trans (t.faultOn_enterSafe u x)) (s.forAll (us.flatMap axesOf) fun t x => t.faultAxis x 58)
    rw [State.parityActs, kept]
    have faulted (t : State) (x : AxisId) : ((t.faultAxis x 58).faultOn x).isSome = true := (State.faultOn_faultAt ..).1
    refine State.forAll_reaches (fun x t => (t.faultOn x).isSome = true) faulted (fun t x y fault => ?_) s x
      (List.mem_flatMap.2 ⟨u, mem, on⟩)
    by_cases same : y = x
    · exact same ▸ faulted t y
    · rw [State.faultAxis, (State.faultOn_faultAt ..).2 y same]
      exact fault

/-- The address of the first failing register is captured (R408). -/
def State.parityShown (s : State) (a : Nat) : State :=
  if s.rb Adr.ACC_PAR_STAT 0 then s else (s.setReg Adr.ACC_PAR_ADDR (wd a)).orReg Adr.ACC_PAR_STAT 1

theorem State.parityShown_does (s : State) (a : Nat) : (s.parityShown a).rb Adr.ACC_PAR_STAT 0 = true ∧
    (s.parityShown a).acc = s.acc ∧ (s.parityShown a).ax = s.ax ∧ (s.parityShown a).cu = s.cu := by
  unfold State.parityShown
  split
  · next shown => exact ⟨shown, rfl, rfl, rfl⟩
  · exact ⟨State.rb_orReg_self _ _ (k := 0) (by decide), rfl, rfl, rfl⟩

/-- The failing register is remembered, with the units whose safe state it brings. -/
def Acc.failing (c : Acc) (a : Nat) (us : List CarrierId) : Acc :=
  { c with parity := c.parity ++ [a], parUnits := us.foldl (fun (m : BitVec 25) (u : CarrierId) => m ||| BitVec.ofNat 25 (2 ^ u.val)) c.parUnits }

/-- The state in which a failing configuration register has acted, before it is told. -/
def State.parityFailed (s : State) (a : Nat) : State :=
  let p := (s.parityActs (parityUnits a)).parityShown a
  { p with acc := p.acc.failing a (parityUnits a) }

/-- The UNIT of event 58 (R410): that of the one unit, or the module's. -/
def parityUnit (us : List CarrierId) : Nat :=
  match us with
  | [u] => unitCode u
  | _ => 0x220

/-- A configuration register outside the Weighbridge fails parity for the first time (R408). -/
theorem exec_configParityFail {s : State} {a : Nat} (on : s.sys.powered = true) (cfg : isCfg a = true) (below : a < 0x1A0000)
    (fresh : s.acc.parity.contains a = false) : exec (.configParityFail a) s = .next ((s.parityFailed a).raise 58
      (parityUnit (parityUnits a)) ((s.parityFailed a).reg Adr.ACC_PAR_ADDR) (wd (s.acc.parity.length + 1))) := by
  refine congrArg Host.Outcome.next ?_
  dsimp only
  rw [if_neg (by simp [on]), if_neg (by omega), if_neg (by simp only [cfg, fresh]; decide)]
  rfl

theorem State.parityFailed_does (s : State) (a : Nat) : (s.parityFailed a).acc = s.acc.failing a (parityUnits a) ∧
    (s.parityFailed a).rb Adr.ACC_PAR_STAT 0 = true ∧ ∀ u ∈ parityUnits a, ((s.parityFailed a).cu.get u).safe = true ∧
      ((s.parityFailed a).cu.get u).cParity = true ∧ ∀ x ∈ axesOf u, ((s.parityFailed a).faultOn x).isSome = true := by
  unfold State.parityFailed
  dsimp only
  generalize parityUnits a = us
  obtain ⟨acc, units⟩ := s.parityActs_does us
  generalize s.parityActs us = p at acc units
  obtain ⟨shown, sacc, sax, scu⟩ := p.parityShown_does a
  generalize p.parityShown a = q at shown sacc sax scu
  refine ⟨by rw [sacc, acc], ?_, fun u mem => ?_⟩
  · exact (State.rb_of_regs (s := q) rfl _ _).trans shown
  · obtain ⟨⟨safe, parity⟩, faults⟩ := units u mem
    rw [scu]
    exact ⟨safe, parity, fun x on => (congrArg Option.isSome (State.faultOn_of_ax sax x)).trans (faults x on)⟩

theorem configParityFail_does {s : State} {a : Nat} (on : s.sys.powered = true) (cfg : isCfg a = true) (below : a < 0x1A0000)
    (fresh : s.acc.parity.contains a = false) :
    Completes (.configParityFail a) s fun t => t.acc.parity = s.acc.parity ++ [a] ∧ t.rb Adr.ACC_PAR_STAT 0 = true ∧
      (∀ u ∈ parityUnits a, (t.cu.get u).safe = true ∧ (t.cu.get u).cParity = true ∧
        ∀ x ∈ axesOf u, (t.ax.get x).tt.faulted.isSome = true) ∧ t.rb Adr.EVT_PEND_HI 26 = true := by
  refine completes_of_exec (exec_configParityFail on cfg below fresh) ?_
  obtain ⟨acc, shown, units⟩ := s.parityFailed_does a
  generalize s.parityFailed a = v at acc shown units
  generalize parityUnit (parityUnits a) = unit
  have told := tells_raise v 58 unit (v.reg Adr.ACC_PAR_ADDR) (wd (s.acc.parity.length + 1))
  have kept := within_raise (.refl true v) 58 unit (v.reg Adr.ACC_PAR_ADDR) (wd (s.acc.parity.length + 1))
  refine ⟨by rw [told.acc, acc]; rfl, ?_, fun u mem => ?_, State.rb_raise_self _ 58 ..⟩
  · rw [State.rb, kept.reg rfl _ (by decide)]
    exact shown
  · rw [told.cu, told.ax]
    exact units u mem

/-- ERR written 1 ends the parity error where no register fails any more (R229, R408). -/
theorem State.parClear_does {s : State} {m : Master} (reach : s.reaches m Adr.ACC_PAR_STAT 1 = true) (good : s.acc.parity = []) :
    (s.parClear m).rb Adr.ACC_PAR_STAT 0 = false ∧ (s.parClear m).acc.parUnits = 0 ∧
      ∀ u : CarrierId, s.acc.parUnits.getLsbD u.val = true → ((s.parClear m).cu.get u).cParity = false := by
  unfold State.parClear
  rw [if_pos ⟨reach, good⟩]
  dsimp only
  generalize hl : List.filter _ _ = l
  have member (u : CarrierId) (held : s.acc.parUnits.getLsbD u.val = true) : u ∈ l := by
    rw [← hl]
    exact List.mem_filter.2 ⟨mem_allFin u, held⟩
  have once : l.Nodup := hl ▸ (List.nodup_finRange 25).filter _
  clear hl
  refine ⟨?_, ?_, fun u held => ?_⟩
  · have regs := State.forAll_proj State.regs (l := l) (f := fun v u => v.modCu u fun c => { c with cParity := false }) (fun _ _ => rfl)
      { s.clrReg Adr.ACC_PAR_STAT 1 with acc := { s.acc with parUnits := 0 } }
    rw [State.rb_of_regs (s := s.clrReg Adr.ACC_PAR_STAT 1) regs, State.rb, State.clrReg, State.reg_setReg_self]
    simp [bitOf, wd]
  · have acc := State.forAll_proj State.acc (l := l) (f := fun v u => v.modCu u fun c => { c with cParity := false }) (fun _ _ => rfl)
      { s.clrReg Adr.ACC_PAR_STAT 1 with acc := { s.acc with parUnits := 0 } }
    exact congrArg Acc.parUnits acc
  · rw [State.cu_forAll_modCu _ _ once, if_pos (member u held)]

theorem parErrClear_does {s : State} {m : Master} (acts : Acts s m Adr.ACC_PAR_STAT 1) : Completes (.parErrClear m) s fun t =>
    if s.acc.parity = [] then t.rb Adr.ACC_PAR_STAT 0 = false ∧ t.acc.parUnits = 0 ∧
      ∀ u : CarrierId, s.acc.parUnits.getLsbD u.val = true → (t.cu.get u).cParity = false
    else t.rb Adr.ACC_PAR_STAT 0 = s.rb Adr.ACC_PAR_STAT 0 ∧ t.cu = s.cu := by
  refine completes_of_exec (t := (s.noted m Adr.ACC_PAR_STAT).parClear m) rfl ?_
  have reach := State.reaches_noted acts (by decide) (by decide) (by decide)
  have word := s.reg_noted_other (b := Adr.ACC_PAR_STAT) m Adr.ACC_PAR_STAT (by decide) (by decide)
  have acc : (s.noted m Adr.ACC_PAR_STAT).acc = s.acc := by rw [State.noted_eqn]
  have cu := s.noted_cu m Adr.ACC_PAR_STAT
  generalize s.noted m Adr.ACC_PAR_STAT = v at reach word acc cu
  rw [← acc]
  split
  · next good => exact State.parClear_does reach good
  · next fails =>
    rw [State.parClear, if_neg fun both => fails both.2, State.rb, word]
    exact ⟨rfl, cu⟩

/-- Settles O58: the transactions, the admin rights, and parity. -/
theorem servicePort : Obligations.ServicePort := by
  unfold Obligations.ServicePort
  intro s b m w
  refine ⟨fun idle => ?_, fun idle => ?_, exec_spiWriteTransaction_bad,
    fun on write length one check scratch => ⟨fun barred => ?_, fun adm => ?_⟩,
    spiReadTransaction_does, fun acts => ⟨spiResponseWrite_matches acts, spiResponseWrite_fails acts⟩,
    fun acts => congrArg Host.Outcome.next (if_pos acts.2), rfl, rfl, fun a => configParityFail_does, fun a plain below => ?_, parErrClear_does⟩
  · exact congrArg Host.Outcome.next (if_pos (idle.imp_left fun off => by simp [off]))
  · exact congrArg Host.Outcome.next (if_pos (idle.imp (fun off => by simp [off]) .inl))
  · rw [exec_spiWriteTransaction_word on write length one check (by rw [scratch]; decide), State.spiMaster, barred, scratch]
    exact congrArg Host.Outcome.next (State.writeReg_scratch_open (State.powered_of_spiOn on) _)
  · refine completes_of_exec (exec_spiWriteTransaction_word on write length one check (by rw [scratch]; decide)) ?_
    rw [State.spiMaster, adm, scratch, if_pos rfl, State.writeReg_scratch_admin (State.powered_of_spiOn on) rfl]
    exact ⟨(s.reg_stored ..).trans (s.written_scratch _ _), fun a ne => State.reg_setReg_other _ _ ne, rfl⟩
  · refine congrArg Host.Outcome.next ?_
    dsimp only
    split
    · rfl
    · rw [if_neg (by omega), if_pos (.inl (by simp [plain]))]

end Sys2Proof.Machine
end

section
/-! SUPPORT. The obligation of CONSIST_SELECT and of the end of its read. -/

namespace Sys2Proof.Machine

open Safety

/-! ### CONSIST_SELECT (R433, R434) -/

theorem exec_consistSelect_waits {s : State} {n : Nat} (busy : ∃ e ∈ s.ord.descs, e.op = 0x11 ∧ e.stage = .effect) :
    exec (.consistSelect n) s = .next s := by
  obtain ⟨e, mem, op, stage⟩ := busy
  exact congrArg Host.Outcome.next (if_pos (List.any_eq_true.2 ⟨e, mem, by simp [op, stage]⟩))

/-- One that is due takes effect, where none is in effect. -/
theorem exec_consistSelect_takes {s : State} {n : Nat} {d : Desc} (due : Due s n 0x11 d)
    (free : ∀ e ∈ s.ord.descs, e.op = 0x11 → e.stage ≠ .effect) : exec (.consistSelect n) s = .next (onset s d) := by
  have none : ¬ (s.ord.descs.any fun e => e.op == 0x11 && e.stage == .effect) = true := by
    rw [List.any_eq_true]
    rintro ⟨e, mem, both⟩
    rw [Bool.and_eq_true, beq_iff_eq, beq_iff_eq] at both
    exact free e mem both.1 both.2
  refine congrArg Host.Outcome.next ((if_neg none).trans ?_)
  exact State.withEffect_of_due due (· == 0x11) rfl _

section

variable {s : State} {d : Desc} (op : d.op = 0x11) (open_ : d.out = none)
include op open_

/-- The tick of the frame of effect checks the units and their axes. -/
theorem State.tickAct_consist : s.tickAct d = s.consistEffect d := by
  unfold State.tickAct
  rw [op, open_]
  rfl

theorem State.tickAct_consist_unnamed (mask : u8 d.bytes 17 = 0 ∨ 128 ≤ u8 d.bytes 17) : s.tickAct d = s.later d 4 7 17 := by
  rw [State.tickAct_consist op open_, State.consistEffect]
  exact if_pos mask

theorem State.tickAct_consist_moving {x : AxisId} (some_ : 0 < u8 d.bytes 17) (seven : u8 d.bytes 17 < 128)
    (moves : s.notParked d.units = some x) : s.tickAct d = s.later d 5 17 (wd x.val) := by
  rw [State.tickAct_consist op open_, State.consistEffect]
  rw [if_neg (by omega), moves]

theorem State.tickAct_consist_reads (some_ : 0 < u8 d.bytes 17) (seven : u8 d.bytes 17 < 128) (rest : s.notParked d.units = none) :
    s.tickAct d = s.modDesc d.acc fun e => { e with slotEnd := d.eff + BitVec.ofNat 64 (s.slotFrames - 1) } := by
  rw [State.tickAct_consist op open_, State.consistEffect]
  rw [if_neg (by omega), rest]

end

/-! ### The end of the read (R434) -/

/-- Is the admission of descriptor `n`'s slot asked for? -/
def State.consistAsked (s : State) (n : Nat) : Bool :=
  s.frm.adm.any fun r => match r.kind with | .consist k => k == n | _ => false

theorem State.consistAsked_false {s : State} {n : Nat} (unasked : ∀ r ∈ s.frm.adm, r.kind ≠ .consist n) : s.consistAsked n = false := by
  rw [State.consistAsked, List.any_eq_false]
  intro r mem
  have other := unasked r mem
  cases kind : r.kind with
  | consist k =>
    rw [kind] at other
    exact fun same => other (congrArg AdmKind.consist (beq_iff_eq.1 same))
  | _ => exact Bool.false_ne_true

section

variable {s : State} {n : Nat} {d : Desc} (is : s.desc? n = some d) (op : d.op = 0x11) (stage : d.stage = .effect) (begun : d.begun = true)
  (open_ : d.out = none) (unasked : s.consistAsked n = false)
include is op stage begun open_ unasked

theorem exec_consistSlotReadEnd : exec (.consistSlotReadEnd n) s = .next (
    if frameLe d.slotEnd s.frm.count = false then s
    else (s.slotItems (u8 d.bytes 16)).elim (s.finish d 5 16 0 s.frm.count) fun _ => s.ask (.consist n) s.frm.count) := by
  refine congrArg Host.Outcome.next ?_
  rw [is]
  dsimp only
  by_cases early : frameLe d.slotEnd s.frm.count = false
  · rw [if_pos early, if_pos (by simp [early])]
  · rw [if_neg early, if_neg]
    · cases s.slotItems (u8 d.bytes 16) <;> rfl
    · rw [Bool.not_eq_false] at early
      rintro (other | left | waits | ended | late | asked)
      · exact other op
      · exact left stage
      · exact waits begun
      · rw [open_] at ended
        exact nomatch ended
      · exact late early
      · exact nomatch unasked.symm.trans asked

end

/-- Settles O36: what waits, the tick of the frame of effect, and the end of the read. -/
theorem consistSelects : Obligations.ConsistSelects := by
  unfold Obligations.ConsistSelects
  refine ⟨fun s n => exec_consistSelect_waits, fun s n d => exec_consistSelect_takes, fun s d op open_ => ⟨State.tickAct_consist_unnamed op open_,
    fun x => State.tickAct_consist_moving op open_, fun some_ seven rest => ?_⟩, fun s n d is op stage begun open_ none => ?_⟩
  · rw [State.tickAct_consist_reads op open_ some_ seven rest]
    refine ⟨fun e is => ?_, rfl⟩
    exact State.desc?_modDesc_self (d := e) is (fun _ => rfl)
  · have runs := exec_consistSlotReadEnd is op stage begun open_ (State.consistAsked_false none)
    refine ⟨fun early => ?_, fun ended empty => ?_, fun ended full => ?_⟩
    · rw [runs, if_pos early]
    · rw [runs, ended, if_neg (by decide), empty, Option.elim_none]
    · obtain ⟨l, items⟩ := Option.ne_none_iff_exists'.1 full
      rw [runs, ended, if_neg (by decide), items, Option.elim_some]

end Sys2Proof.Machine
end

section
/-! SUPPORT. The obligation of the seal, the installs and the signed records, with the rules about the audit log that it speaks of. -/

namespace Sys2Proof.Machine

open Safety

/-! ### The audit log (R385, R386) -/

/-- `t` is `s` with a new newest record in the log: nothing else of the Weighbridge moves but what is owed, and the event that tells of
the record moves event registers alone. -/
structure Appended (s t : State) (kind detail : Nat) : Prop where
  wb : ∃ log next owed, t.wb = { s.wb with log := log, logNext := next, owed := owed }
  newest : logged t kind detail = true
  ax : t.ax = s.ax
  sys : t.sys = s.sys
  reg : ∀ a, evReg a = false → t.reg a = s.reg a

/-- A log whose newest record has the kind and the detail. -/
theorem logged_of_log {t : State} {r : LogRec} {l : List LogRec} {kind detail : Nat} (log : t.wb.log = (r :: l).take 1024)
    (k : r.kind = BitVec.ofNat 8 kind) (d : r.detail = BitVec.ofNat 8 detail) : logged t kind detail = true := by
  rw [logged, log, List.take_succ_cons, List.head?_cons, Option.any_some, k, d, beq_self_eq_true, beq_self_eq_true]
  rfl

theorem State.auditEvent_tells (s : State) (d0 d1 : Word) : Tells s (s.auditEvent d0 d1) := tells_raise ..

theorem State.reg_auditEvent (s : State) (d0 d1 : Word) {a : Nat} (other : evReg a = false) : (s.auditEvent d0 d1).reg a = s.reg a :=
  (within_raise (.refl true s) ..).reg rfl a other

theorem State.appendLog_appended (s : State) (kind detail : Nat) (a b : Word) : Appended s (s.appendLog kind detail a b) kind detail := by
  unfold State.appendLog
  dsimp only
  split
  · have told (t : State) := t.auditEvent_tells (wd (kind + 256 * detail)) (wd s.wb.logNext)
    exact ⟨⟨_, _, _, (told _).wb⟩, logged_of_log (congrArg Wb.log (told _).wb) rfl rfl, (told _).ax, (told _).sys,
      fun _ other => (State.reg_auditEvent _ _ _ other).trans (State.reg_of_regs rfl _)⟩
  · exact ⟨⟨_, _, _, rfl⟩, logged_of_log rfl rfl rfl, rfl, rfl, fun a _ => State.reg_of_regs rfl a⟩

/-- What a field of the Weighbridge that the log does not hold reads after a record. -/
theorem Appended.field {β : Type} {s t : State} {kind detail : Nat} (h : Appended s t kind detail) (p : Wb → β)
    (apart : ∀ w log next owed, p { w with log := log, logNext := next, owed := owed } = p w) : p t.wb = p s.wb := by
  obtain ⟨log, next, owed, eqn⟩ := h.wb
  rw [eqn, apart]

/-! ### The seal and the installs (R381 to R384) -/

/-- An install that is refused is over, with its reason in the log and its package discarded. -/
structure Refused (s t : State) (reason : Nat) : Prop where
  inst : t.wb.inst = 0
  work : t.wb.work = none
  pkg : t.wb.pkg = none
  told : t.wb.reason = reason
  sb : t.wb.sb = s.wb.sb
  pad : t.wb.pad = s.wb.pad
  newest : logged t 2 reason = true

theorem State.refuseInstall_refused (s : State) (reason : Nat) : Refused s (s.refuseInstall reason) reason := by
  have appended := (s.modWb fun w => { w with pkg := none, work := none, inst := 0, reason := reason }).appendLog_appended 2 reason
    s.wb.ver ((s.wb.work.map fun p => p.version).getD 0)
  exact ⟨appended.field Wb.inst fun _ _ _ _ => rfl, appended.field Wb.work fun _ _ _ _ => rfl, appended.field Wb.pkg fun _ _ _ _ => rfl,
    appended.field Wb.reason fun _ _ _ _ => rfl, appended.field Wb.sb fun _ _ _ _ => rfl, appended.field Wb.pad fun _ _ _ _ => rfl,
    appended.newest⟩

/-- The change of the pad with its record, before an install ends by it. -/
def State.padRecorded (s : State) (b : Bool) : State := (s.modWb fun w => { w with pad := b }).appendLog 7 (b2n b) 0 0

theorem exec_sealPadChange {s : State} {b : Bool} (on : s.sys.powered = true) (changed : s.wb.pad ≠ b) :
    exec (.sealPadChange b) s = .next (
      if ¬ b ∧ ((s.padRecorded b).wb.inst = 1 ∨ (s.padRecorded b).wb.inst = 2) then (s.padRecorded b).refuseInstall 3 else s.padRecorded b) :=
  congrArg Host.Outcome.next (if_neg (by rintro (off | same); exacts [off on, changed same]))

theorem State.padRecorded_appended (s : State) (b : Bool) :
    Appended (s.modWb fun w => { w with pad := b }) (s.padRecorded b) 7 (b2n b) := State.appendLog_appended ..

theorem State.padRecorded_inst (s : State) (b : Bool) : (s.padRecorded b).wb.inst = s.wb.inst :=
  (s.padRecorded_appended b).field Wb.inst fun _ _ _ _ => rfl

theorem State.padRecorded_pad (s : State) (b : Bool) : (s.padRecorded b).wb.pad = b :=
  (s.padRecorded_appended b).field Wb.pad fun _ _ _ _ => rfl

theorem exec_sealPadChange_idle {s : State} {b : Bool} (on : s.sys.powered = true) (changed : s.wb.pad ≠ b) (idle : s.wb.inst = 0) :
    exec (.sealPadChange b) s = .next (s.padRecorded b) := by
  rw [exec_sealPadChange on changed, if_neg]
  rw [State.padRecorded_inst, idle]
  rintro ⟨-, h | h⟩ <;> exact nomatch h

theorem exec_sealPadChange_breaks {s : State} (on : s.sys.powered = true) (strapped : s.wb.pad = true) (runs : s.wb.inst = 1 ∨ s.wb.inst = 2) :
    exec (.sealPadChange false) s = .next ((s.padRecorded false).refuseInstall 3) := by
  rw [exec_sealPadChange on (by rw [strapped]; decide), if_pos]
  exact ⟨Bool.false_ne_true, by rwa [State.padRecorded_inst]⟩

/-! ### Commands of the Weighbridge's registers (R382, R383, R388) -/

theorem State.rb_wbIgnored (s : State) : s.wbIgnored.rb Adr.WB_STAT 14 = true := s.rb_orReg_self Adr.WB_STAT (k := 14) (by decide)

theorem exec_wbTblCommit {s : State} {m : Master} (acts : Acts s m Adr.WB_TBL_COMMIT 1) : exec (.wbTblCommit m) s = .next (
    if s.sys.sealedVariant then (s.noted m Adr.WB_TBL_COMMIT).wbIgnored
    else (s.noted m Adr.WB_TBL_COMMIT).modWb fun w => { w with tblGo := true }) := by
  refine congrArg Host.Outcome.next ?_
  rw [State.wbTblCommit, State.gate_of_reach acts]
  refine (if_neg (not_not_intro rfl)).trans ?_
  rw [State.noted_sys]

/-- A counted write of WB_CTL that acts still reaches its bits. -/
theorem State.reaches_wbCtl {s : State} {m : Master} {k : Nat} (acts : Acts s m Adr.WB_CTL k) :
    (s.noted m Adr.WB_CTL).reaches m Adr.WB_CTL k = true :=
  State.reaches_noted acts (by decide) (by decide) (by decide)

theorem State.noted_wb (s : State) (m : Master) (a : Nat) : (s.noted m a).wb = s.wb := by rw [State.noted_eqn]

theorem exec_wbInstall {s : State} {m : Master} (acts : Acts s m Adr.WB_CTL 8) : exec (.wbInstall m) s = .next (
    if s.wb.pad = true ∧ s.wb.inst = 0 then (s.noted m Adr.WB_CTL).modWb fun w => { w with inst := 1, work := w.pkg }
    else (s.noted m Adr.WB_CTL).wbIgnored) := by
  refine congrArg Host.Outcome.next ((if_neg (not_not_intro (State.reaches_wbCtl acts))).trans ?_)
  rw [State.noted_wb]
  by_cases free : s.wb.pad = true ∧ s.wb.inst = 0
  · rw [if_pos free, if_neg]
    rintro (bare | runs)
    · exact bare free.1
    · exact runs free.2
  · rw [if_neg free, if_pos]
    by_contra other
    rw [not_or, not_not, not_not] at other
    exact free other

/-- The request that WB_REQ, WB_REQ_ARG and the nonce hold. -/
def State.wbAsked (s : State) : WbReq :=
  ⟨s.rf Adr.WB_REQ 2 0, s.reg Adr.WB_REQ_ARG, (List.range 4).map fun n => s.reg (Adr.WB_NONCE n), wd s.frm.count.toNat⟩

theorem State.wbAsked_noted (s : State) (m : Master) : (s.noted m Adr.WB_CTL).wbAsked = s.wbAsked := by
  have nonce (n : Nat) (h : n < 4) : (s.noted m Adr.WB_CTL).reg (Adr.WB_NONCE n) = s.reg (Adr.WB_NONCE n) :=
    s.reg_noted_other m _ (by simp only [Adr.WB_NONCE, Adr.ACC_PRVV_INFO]; omega) (by simp only [Adr.WB_NONCE, Adr.ACC_PRVV_ADDR]; omega)
  unfold State.wbAsked
  rw [State.rf, State.reg_noted_other s m _ (by decide) (by decide), State.reg_noted_other s m _ (by decide) (by decide), State.noted_frm,
    List.map_congr_left fun n h => nonce n (List.mem_range.1 h)]
  rfl

/-- Is a request ignored: the Weighbridge is busy, or the request is out of range? -/
def State.ignoresReq (s : State) : Prop := s.wb.busy = true ∨ wbReqOk s.wbAsked.kind s.wbAsked.arg.toNat = false

theorem State.ignoresReq_noted (s : State) (m : Master) : (s.noted m Adr.WB_CTL).ignoresReq = s.ignoresReq := by
  rw [State.ignoresReq, State.wbAsked_noted, State.noted_wb, State.ignoresReq]

theorem State.wbReqGo_ignored {s : State} {m : Master} (reach : s.reaches m Adr.WB_CTL 2 = true) (ignored : s.ignoresReq) :
    s.wbReqGo m = s.orReg Adr.WB_STAT 0x2000 :=
  (if_neg (not_not_intro reach)).trans (if_pos (ignored.imp_right fun bad => Bool.not_eq_true _ |>.mpr bad))

theorem State.wbReqGo_taken {s : State} {m : Master} (reach : s.reaches m Adr.WB_CTL 2 = true) (takes : ¬ s.ignoresReq) :
    s.wbReqGo m = s.modWb fun w => { w with req := some s.wbAsked, taken := none } :=
  (if_neg (not_not_intro reach)).trans (if_neg fun refused => takes (refused.imp_right (Bool.not_eq_true _).mp))

theorem exec_wbReqGo_ignored {s : State} {m : Master} (acts : Acts s m Adr.WB_CTL 2) (ignored : s.ignoresReq) :
    exec (.wbReqGo m) s = .next ((s.noted m Adr.WB_CTL).orReg Adr.WB_STAT 0x2000) :=
  congrArg Host.Outcome.next (State.wbReqGo_ignored (State.reaches_wbCtl acts) (by rwa [State.ignoresReq_noted]))

theorem exec_wbReqGo_taken {s : State} {m : Master} (acts : Acts s m Adr.WB_CTL 2) (takes : ¬ s.ignoresReq) :
    exec (.wbReqGo m) s = .next ((s.noted m Adr.WB_CTL).modWb fun w => { w with req := some s.wbAsked, taken := none }) := by
  rw [← s.wbAsked_noted m]
  exact congrArg Host.Outcome.next (State.wbReqGo_taken (State.reaches_wbCtl acts) (by rwa [State.ignoresReq_noted]))

/-! ### The install's steps (R383, R384) -/

theorem exec_wbInstallVerifyDone {s : State} {g : Bool} (runs : s.wb.inst = 1) : exec (.wbInstallVerifyDone g) s = .next (
    match s.verifyReason g with
    | some r => s.refuseInstall r
    | none => s.modWb fun w => { w with inst := 2 }) :=
  congrArg Host.Outcome.next (if_neg (not_not_intro runs))

theorem exec_wbInstallWriteDone {s : State} (g : Bool) (runs : s.wb.inst = 2) : exec (.wbInstallWriteDone g) s = .next (
    if g then s.modWb fun w => { w with inst := 3 } else s.refuseInstall 5) :=
  congrArg Host.Outcome.next (if_neg (not_not_intro runs))

/-- The state with the package of COMMIT in force, before its record. -/
def State.committed (s : State) (q : WbPkg) : State :=
  let t := s.modSb fun b => { b with audit := b.audit + 1 }
  (if q.isTable then t.setTable (tableOf q.table) else t).modWb fun w => { w with inst := 4 }

theorem exec_wbInstallCommitDone {s : State} {q : WbPkg} (runs : s.wb.inst = 3) (work : s.wb.work = some q) :
    exec .wbInstallCommitDone s = .next ((s.committed q).appendLog 1 0 s.wb.ver q.version) := by
  refine congrArg Host.Outcome.next ((if_neg (not_not_intro runs)).trans ?_)
  rw [work]
  rfl

theorem State.committed_does (s : State) (q : WbPkg) : (s.committed q).wb.inst = 4 ∧ (s.committed q).wb.sb.audit = s.wb.sb.audit + 1 ∧
    (s.committed q).wb.table = if q.isTable then tableOf q.table else s.wb.table := by
  unfold State.committed
  dsimp only
  split <;> exact ⟨rfl, rfl, rfl⟩

theorem exec_wbInstallRestartDone {s : State} (runs : s.wb.inst = 4) : exec .wbInstallRestartDone s = .next (s.modWb Wb.restarted) :=
  congrArg Host.Outcome.next (if_pos runs)

theorem Wb.restarted_does {w : Wb} {q : WbPkg} (work : w.work = some q) : w.restarted =
    { w with ver := if q.isTable then w.ver else q.version, crc := if q.isTable then w.crc else q.crc, work := none, inst := 0 } := by
  rw [Wb.restarted, work]

/-! ### Signed records (R388, R390) -/

/-- WB_RECSTAT with a record ready. -/
def recStat (seq kind : Nat) : Word := wd (2 ^ 31 + seq * 2 ^ 23 + kind)

theorem recStat_toNat {seq kind : Nat} (s : seq < 256) (k : kind < 8) : (recStat seq kind).toNat = 2 ^ 31 + seq * 2 ^ 23 + kind := by
  rw [recStat, wd, BitVec.toNat_ofNat, Nat.mod_eq_of_lt (by omega)]

theorem recStat_fields {seq kind : Nat} (s : seq < 256) (k : kind < 8) :
    bitOf (recStat seq kind) 31 = true ∧ fld (recStat seq kind) 2 0 = kind ∧ fld (recStat seq kind) 30 23 = seq := by
  refine ⟨?_, ?_, ?_⟩
  · rw [bitOf, BitVec.getLsbD, recStat_toNat s k, Nat.testBit_eq_decide_div_mod_eq]
    exact decide_eq_true (by omega)
  · rw [fld, recStat_toNat s k]
    omega
  · rw [fld, recStat_toNat s k]
    omega

/-- The state with the record delivered, before WB_RECSTAT says so. -/
def State.delivered (s : State) (b : List Byte) : State :=
  (s.modSb fun b => { b with recSeq := b.recSeq + 1 }).modWb fun w => { w with req := none, taken := none, record := b }

theorem exec_wbRecordReady {s : State} {q : WbReq} {b : List Byte} (req : s.wb.req = some q) (taken : s.wb.taken = some b) :
    exec .wbRecordReady s =
      .next ((s.delivered b).setReg Adr.WB_RECSTAT (recStat ((s.rf Adr.WB_RECSTAT 30 23 + 1) % 256) q.kind)) := by
  refine congrArg Host.Outcome.next ?_
  rw [req, taken]
  rfl

theorem exec_wbRecordReady_idle {s : State} (req : s.wb.req = none) : exec .wbRecordReady s = .next s := by
  refine congrArg Host.Outcome.next ?_
  rw [req]

/-- Settles O57: the pad, the commands, the steps of an install, and the signed record. -/
theorem sealAndRecords : Obligations.SealAndRecords := by
  unfold Obligations.SealAndRecords
  refine fun s m => ⟨fun b => ⟨fun same => congrArg Host.Outcome.next (if_pos (.inr same)), fun on changed idle => ?_⟩,
    fun on strapped runs => ?_, fun acts => ?_, fun acts => ?_, fun g runs => ⟨fun good => ?_, fun r bad => ?_⟩,
    fun g other => congrArg Host.Outcome.next (if_pos other), fun runs => ⟨?_, ?_⟩, fun q runs work => ?_, fun q runs work => ?_,
    fun other => congrArg Host.Outcome.next (if_neg other), fun acts => ?_, fun q b req taken kind => ?_, exec_wbRecordReady_idle⟩
  · have appended := s.padRecorded_appended b
    exact completes_of_exec (exec_sealPadChange_idle on changed idle)
      ⟨s.padRecorded_pad b, appended.newest, (s.padRecorded_inst b).trans idle, appended.ax⟩
  · have refused := (s.padRecorded false).refuseInstall_refused 3
    exact completes_of_exec (exec_sealPadChange_breaks on strapped runs)
      ⟨refused.pad.trans (s.padRecorded_pad false), refused.inst, refused.work, refused.pkg, refused.told, refused.newest⟩
  · refine completes_of_exec (exec_wbTblCommit acts) ?_
    split
    · exact ⟨s.noted_ax .., s.noted_wb .., State.rb_wbIgnored _⟩
    · exact ⟨s.noted_ax .., by rw [State.modWb, State.noted_wb]⟩
  · refine completes_of_exec (exec_wbInstall acts) ?_
    split
    · exact ⟨s.noted_ax .., by rw [State.modWb, State.noted_wb]⟩
    · exact ⟨s.noted_ax .., s.noted_wb .., State.rb_wbIgnored _⟩
  · rw [exec_wbInstallVerifyDone runs, good]
  · have refused := s.refuseInstall_refused r
    refine completes_of_exec (exec_wbInstallVerifyDone runs) ?_
    rw [bad]
    exact ⟨refused.inst, refused.pkg, refused.told, refused.sb, refused.newest⟩
  · exact exec_wbInstallWriteDone true runs
  · have refused := s.refuseInstall_refused 5
    exact completes_of_exec (exec_wbInstallWriteDone false runs) ⟨refused.inst, refused.pkg, refused.told, refused.newest⟩
  · obtain ⟨inst, audit, table⟩ := s.committed_does q
    have appended := (s.committed q).appendLog_appended 1 0 s.wb.ver q.version
    exact completes_of_exec (exec_wbInstallCommitDone runs work) ⟨(appended.field Wb.inst fun _ _ _ _ => rfl).trans inst,
      (appended.field (fun w => w.sb.audit) fun _ _ _ _ => rfl).trans audit, (appended.field Wb.table fun _ _ _ _ => rfl).trans table,
      appended.newest⟩
  · refine completes_of_exec (exec_wbInstallRestartDone runs) ?_
    rw [State.modWb, Wb.restarted_does work]
    exact ⟨rfl, rfl, rfl, fun image => by rw [image]; exact ⟨rfl, rfl⟩, fun image => by rw [image]; exact ⟨rfl, rfl⟩, rfl⟩
  · by_cases ignored : s.wb.busy = true ∨ wbReqOk (s.rf Adr.WB_REQ 2 0) (s.reg Adr.WB_REQ_ARG).toNat = false
    · refine completes_of_exec (exec_wbReqGo_ignored acts ignored) ⟨s.noted_ax .., ?_⟩
      rw [if_pos ignored]
      exact ⟨s.noted_wb .., State.rb_orReg_self _ Adr.WB_STAT (k := 13) (by decide)⟩
    · refine completes_of_exec (exec_wbReqGo_taken acts ignored) ⟨s.noted_ax .., ?_⟩
      rw [if_neg ignored, State.modWb, State.noted_wb]
      rfl
  · obtain ⟨ready, kind_, seq⟩ := recStat_fields (seq := (s.rf Adr.WB_RECSTAT 30 23 + 1) % 256) (Nat.mod_lt _ (by decide)) kind
    refine completes_of_exec (exec_wbRecordReady req taken) ⟨rfl, rfl, rfl, ?_, ?_, ?_, rfl⟩
    · rw [State.rb, State.reg_setReg_self, ready]
    · rw [State.rf, State.reg_setReg_self, kind_]
    · rw [State.rf, State.reg_setReg_self, seq]

end Sys2Proof.Machine
end

section
/-! SUPPORT. The obligation of metering and standby: the samples, the clock, the contents, and the tamper inputs. -/

namespace Sys2Proof.Machine

open Safety

/-! ### A sample (R369, R370, R382) -/

/-- The domains after the first stand one bit higher. -/
theorem overBits_shift (l : List (Int × Nat)) (d : Nat) : overBits d l = 2 ^ d * overBits 0 l := by
  induction l generalizing d with
  | nil => rfl
  | cons x l ih =>
    rw [overBits, ih (d + 1), overBits, ih (0 + 1)]
    split <;> ring

theorem overBits_cons (x : Int × Nat) (l : List (Int × Nat)) : overBits 0 (x :: l) = 2 * overBits 0 l + b2n (decide (50000000 < x.1.natAbs)) := by
  rw [overBits, overBits_shift l (0 + 1)]
  by_cases past : 50000000 < x.1.natAbs <;> simp [past, b2n]
  omega

/-- The bit of a domain says whether its sample is over-range. -/
theorem testBit_overBits (l : List (Int × Nat)) (d : Nat) : (overBits 0 l).testBit d = l[d]?.any fun x => decide (50000000 < x.1.natAbs) := by
  induction l generalizing d with
  | nil => simp [overBits]
  | cons x l ih =>
    rw [overBits_cons]
    cases d with
    | zero => by_cases past : 50000000 < x.1.natAbs <;> simp [past, b2n, Nat.add_mod]
    | succ d =>
      rw [Nat.testBit_succ, List.getElem?_cons_succ, ← ih d]
      congr 1
      by_cases past : 50000000 < x.1.natAbs <;> simp [past, b2n]
      omega

/-- WB_DOM_STAT after a sample with the domains `past` over-range. -/
def State.overTold (s : State) (past : Nat) : State := (s.putReg Adr.WB_DOM_STAT 127 past).orReg Adr.WB_DOM_STAT (past * 65536)

theorem State.rb_overTold (s : State) (past : Nat) {d : Nat} (h : d < 7) : (s.overTold past).rb Adr.WB_DOM_STAT d = past.testBit d := by
  have low : (wd 127).getLsbD d = true := by interval_cases d <;> rfl
  have high : (past * 65536).testBit d = false := by
    rw [show 65536 = 2 ^ 16 from rfl, Nat.testBit_mul_two_pow, decide_eq_false (by omega), Bool.false_and]
  rw [State.overTold, State.rb, State.orReg, State.reg_setReg_self, State.putReg, State.reg_setReg_self, bitOf, BitVec.getLsbD_or,
    getLsbD_mergeW _ _ _ (by omega), low, if_pos rfl, wd, BitVec.getLsbD_ofNat, wd, BitVec.getLsbD_ofNat, high, decide_eq_true (by omega)]
  simp

theorem State.rb_modWb (s : State) (f : Wb → Wb) (a i : Nat) : (s.modWb f).rb a i = s.rb a i := State.rb_of_regs rfl ..

theorem State.takeRequest_moves (s : State) : ∃ x, s.takeRequest = s.modWb fun w => { w with taken := x } := by
  unfold State.takeRequest
  split
  · split
    · exact ⟨_, rfl⟩
    · exact ⟨s.wb.taken, rfl⟩
  · exact ⟨s.wb.taken, rfl⟩

/-- Domain `d`'s counters after the samples `l` by the shunts `rs`. -/
def energyTaken (l : List (Int × Nat)) (rs : List Nat) (d : Nat) (e : Energy) : Energy :=
  match l[d]? with
  | some (n, v) => e.take n v (rs.getD d 5000)
  | none => e

/-- The domains' counters after the samples `l`. -/
def State.metered (s : State) (l : List (Int × Nat)) : List Energy :=
  (List.range 7).map fun d => energyTaken l s.wb.table.rs d (s.wb.sb.energy.getD d ⟨0, 0, (0, 1), (0, 1)⟩)

/-- A sample's state before a request takes its values. -/
def State.sampled (s : State) (l : List (Int × Nat)) : State :=
  ((s.takeTable.modSb fun b => { b with energy := s.takeTable.metered l }).overTold (overBits 0 l)).modWb fun w =>
    { w with ran := w.ran || s.ax.toList.any fun a => a.cd.phase != .off }

theorem exec_wbEnergySample {s : State} (l : List (Int × Nat)) (on : s.sys.powered = true) :
    exec (.wbEnergySample l) s = .next (s.sampled l).takeRequest :=
  congrArg Host.Outcome.next (if_neg (not_not_intro on))

theorem State.takeTable_none {s : State} (none : s.wb.tblGo = false) : s.takeTable = s := by
  rw [State.takeTable, none]
  rfl

/-- The table that a sample installs, before its record. -/
def State.installed (s : State) : State := (s.setTable s.stagedTable).modWb fun w => { w with tblGo := false }

theorem State.takeTable_appended {s : State} (go : s.wb.tblGo = true) : Appended s.installed s.takeTable 6 0 := by
  rw [State.takeTable, if_pos go]
  exact State.appendLog_appended ..

theorem State.sampled_wb (s : State) (l : List (Int × Nat)) : ∃ r x, (s.sampled l).takeRequest.wb = { s.takeTable.wb with
    sb := { s.takeTable.wb.sb with energy := s.takeTable.metered l }, ran := r, taken := x } := by
  obtain ⟨x, taken⟩ := (s.sampled l).takeRequest_moves
  rw [taken]
  exact ⟨_, x, rfl⟩

theorem State.sampled_ax (s : State) (l : List (Int × Nat)) : (s.sampled l).takeRequest.ax = s.takeTable.ax := by
  obtain ⟨x, taken⟩ := (s.sampled l).takeRequest_moves
  rw [taken, State.modWb_ax, State.sampled, State.modWb_ax, State.overTold, State.orReg_ax, State.putReg_ax]
  rfl

theorem State.rb_sampled (s : State) (l : List (Int × Nat)) {d : Nat} (h : d < 7) :
    (s.sampled l).takeRequest.rb Adr.WB_DOM_STAT d = (overBits 0 l).testBit d := by
  obtain ⟨x, taken⟩ := (s.sampled l).takeRequest_moves
  rw [taken, State.rb_modWb, State.sampled, State.rb_modWb, State.rb_overTold _ _ h]

/-- What a sample with no commit leaves of the Weighbridge. -/
theorem State.sampled_does {s : State} (l : List (Int × Nat)) {d : Nat} {n : Int} {v : Nat} (none : s.wb.tblGo = false) (h : d < 7)
    (sample : l[d]? = some (n, v)) :
    (s.sampled l).takeRequest.wb.sb.energy.getD d ⟨0, 0, (0, 1), (0, 1)⟩ =
        (s.wb.sb.energy.getD d ⟨0, 0, (0, 1), (0, 1)⟩).take n v (s.wb.table.rs.getD d 5000) ∧
      (s.sampled l).takeRequest.rb Adr.WB_DOM_STAT d = decide (50000000 < n.natAbs) ∧ (s.sampled l).takeRequest.wb.table = s.wb.table ∧
      (s.sampled l).takeRequest.wb.log = s.wb.log ∧ (s.sampled l).takeRequest.ax = s.ax := by
  obtain ⟨r, x, wb⟩ := s.sampled_wb l
  rw [s.rb_sampled l h, s.sampled_ax, wb, State.takeTable_none none, testBit_overBits, sample, Option.any_some]
  refine ⟨?_, rfl, rfl, rfl, rfl⟩
  dsimp only
  rw [State.metered, List.getD_eq_getElem?_getD, List.getElem?_map, List.getElem?_range h, Option.map_some, Option.getD_some, energyTaken, sample]

theorem State.installed_tampDue {s : State} (on : s.sys.powered = true) (other : s.stagedTable.tampNorm ≠ s.wb.table.tampNorm) :
    s.installed.wb.tampDue = 131 :=
  (if_neg fun same => other same.2).trans (if_pos on)

/-- What a sample that installs the staged table leaves of the Weighbridge. -/
theorem State.sampled_installs {s : State} (l : List (Int × Nat)) (on : s.sys.powered = true) (go : s.wb.tblGo = true) :
    (s.sampled l).takeRequest.wb.table = s.stagedTable ∧ (s.sampled l).takeRequest.wb.tblGo = false ∧
      logged (s.sampled l).takeRequest 6 0 = true ∧
      (s.stagedTable.tampNorm ≠ s.wb.table.tampNorm → (s.sampled l).takeRequest.wb.tampDue = 131) := by
  obtain ⟨r, x, wb⟩ := s.sampled_wb l
  have appended := State.takeTable_appended go
  rw [logged, wb]
  exact ⟨appended.field Wb.table fun _ _ _ _ => rfl, appended.field Wb.tblGo fun _ _ _ _ => rfl, appended.newest,
    fun other => (appended.field Wb.tampDue fun _ _ _ _ => rfl).trans (State.installed_tampDue on other)⟩

/-! ### The checkpoint and the standby contents (R374 to R376) -/

theorem exec_wbCheckpoint {s : State} (on : s.sys.powered = true) : exec (.wbCheckpoint true) s = .next (
    if s.rb Adr.GCTL_PWR 0 then { s with wb := { s.wb with ckpt := s.wb.sb }, sys := { s.sys with prepCkpt := true } }
    else { s with wb := { s.wb with ckpt := s.wb.sb } }) :=
  congrArg Host.Outcome.next (if_pos ⟨on, rfl⟩)

theorem exec_vbatFall_off {s : State} (off : s.sys.powered = false) :
    exec .vbatFall s = .next (s.modWb fun w => { w with vbatLow := true }).loseStandby := by
  refine congrArg Host.Outcome.next (if_neg ?_)
  rw [off]
  exact Bool.false_ne_true

theorem exec_vbatFall_on {s : State} (on : s.sys.powered = true) : exec .vbatFall s = .next (s.modWb fun w => { w with vbatLow := true }) :=
  congrArg Host.Outcome.next (if_pos on)

/-- The loss of the contents clears the flags of the tamper inputs. -/
theorem State.rf_loseStandby (s : State) : s.loseStandby.rf Adr.WB_STAT 11 10 = 0 := by
  have zero : ∀ w : Word, fld (w &&& ~~~(wd 0xC00)) 11 10 = fld 0 11 10 := fun w => fld_congr fun i h => by
    rw [BitVec.getLsbD_and, show (~~~(wd 0xC00)).getLsbD (10 + i) = false by interval_cases i <;> rfl]
    simp
  rw [State.rf, State.loseStandby, State.clrReg, State.reg_setReg_self, zero]
  rfl

theorem Wb.powerDown_lostSb (w : Wb) : w.powerDown.lostSb = w.lostSb := by
  unfold Wb.powerDown Wb.restarted
  dsimp only
  split
  · split <;> rfl
  · rfl

/-- VAUX off: the module in reset, and the Weighbridge on its battery. -/
def State.onBattery (s : State) : State :=
  let t := s.inReset.setReg Adr.WB_STAT (s.reg Adr.WB_STAT &&& 0xC00#32)
  { t with wb := s.wb.powerDown, sys := { t.sys with powered := false } }

theorem exec_vauxFall {s : State} (on : s.sys.powered = true) :
    exec .vauxFall s = .next (if s.wb.vbatLow then s.onBattery.loseStandby else s.onBattery) :=
  congrArg Host.Outcome.next (if_neg (not_not_intro on))

/-- The contents as the check at power-up restores them, before its record. -/
def State.restored (s : State) : State :=
  s.modWb fun w => { w with sb := { w.ckpt with rtcValid := false, audit := max w.ckpt.audit w.logAudit }, lostSb := false }

theorem exec_wbStandbyCheck {s : State} (on : s.sys.powered = true) (first : s.wb.checked = false) :
    exec .wbStandbyCheck s = .next (
      if s.wb.lostSb then (s.restored.appendLog 4 0 0 0).modWb fun w => { w with checked := true }
      else s.modWb fun w => { w with checked := true }) := by
  refine congrArg Host.Outcome.next (if_neg ?_)
  rw [on, first]
  rintro (h | h)
  · exact h rfl
  · exact nomatch h

/-! ### The clock's setting and the copies (R377, R404) -/

/-- Does a sealed variant refuse the setting of the clock? -/
def State.rtcSealed (s : State) : Prop :=
  s.seal ≠ 0 ∧ s.wb.sb.rtcValid = true ∧ 300 * 32768 < ((s.reg64 Adr.WB_RTC_SET_LO : Int) - s.wb.sb.rtc).natAbs

theorem State.rtcSet_noted (s : State) (m : Master) : (s.noted m Adr.WB_CTL).reg64 Adr.WB_RTC_SET_LO = s.reg64 Adr.WB_RTC_SET_LO := by
  rw [State.reg64, State.reg_noted_other s m _ (by decide) (by decide), State.reg_noted_other s m _ (by decide) (by decide), State.reg64]

theorem State.seal_noted (s : State) (m : Master) (a : Nat) : (s.noted m a).seal = s.seal := by
  rw [State.noted_eqn]
  rfl

theorem State.rtcSealed_noted (s : State) (m : Master) : (s.noted m Adr.WB_CTL).rtcSealed = s.rtcSealed := by
  rw [State.rtcSealed, State.rtcSet_noted, State.seal_noted, State.noted_wb, State.rtcSealed]

theorem exec_wbRtcGo_refused {s : State} {m : Master} (acts : Acts s m Adr.WB_CTL 4) (refused : s.rtcSealed) :
    exec (.wbRtcGo m) s = .next ((s.noted m Adr.WB_CTL).orReg Adr.WB_STAT 0x8000) := by
  rw [← s.rtcSealed_noted m] at refused
  exact congrArg Host.Outcome.next ((if_neg (not_not_intro (State.reaches_wbCtl acts))).trans (if_pos refused))

theorem exec_wbRtcGo_taken {s : State} {m : Master} (acts : Acts s m Adr.WB_CTL 4) (takes : ¬ s.rtcSealed) :
    exec (.wbRtcGo m) s = .next ((s.noted m Adr.WB_CTL).modWb fun w => { w with rtcSet := some (s.reg64 Adr.WB_RTC_SET_LO) }) := by
  rw [← s.rtcSealed_noted m] at takes
  rw [← s.rtcSet_noted m]
  exact congrArg Host.Outcome.next ((if_neg (not_not_intro (State.reaches_wbCtl acts))).trans (if_neg takes))

theorem exec_wbSnap {s : State} {m : Master} (acts : Acts s m Adr.WB_CTL 1) :
    exec (.wbSnap m) s = .next ((s.noted m Adr.WB_CTL).modWb fun w => { w with snap := true }) :=
  congrArg Host.Outcome.next (if_pos (State.reaches_wbCtl acts))

/-! ### The tamper inputs (R378, R379) -/

theorem getLsbD_withBit (v : BitVec 2) (i j : Fin 2) (b : Bool) :
    (withBit v i b).getLsbD j.val = if i = j then b else v.getLsbD j.val := by
  revert v i j b
  decide

/-- The counts of both inputs after a change of input `i`. -/
def tampCounted (b : Standby) (i : Fin 2) : Standby :=
  if i = 0 then { b with tamp0 := min (b.tamp0 + 1) 65535 } else { b with tamp1 := min (b.tamp1 + 1) 65535 }

/-- The Weighbridge after a change of input `i`, with the changes since its last record and the clock of that record. -/
def Wb.tampered (w : Wb) (i : Fin 2) (away : Bool) (n : Nat) (r : Option Nat) : Wb :=
  if i = 0 then { w with away := withBit w.away i away, since0 := n, rec0 := r }
  else { w with away := withBit w.away i away, since1 := n, rec1 := r }

/-- A change of input `i` that registers, before its record. -/
def State.tampered (s : State) (i : Fin 2) (away : Bool) (n : Nat) (r : Option Nat) : State :=
  ((s.modSb fun b => tampCounted b i).orReg Adr.WB_STAT (2 ^ (10 + i.val))).modWb fun w => w.tampered i away n r

/-- Does a change of input `i` follow its last record within a minute? -/
def Wb.tampSoon (w : Wb) (i : Fin 2) : Bool :=
  (if i = 0 then w.rec0 else w.rec1).any fun c => decide (c ≤ w.sb.rtc) && decide (w.sb.rtc < c + minute)

/-- A change that registers either follows a record closely, or brings one of its own. -/
theorem State.tamper_changes {s : State} {i : Fin 2} {away : Bool} (on : s.wb.table.tampEn.getLsbD i = true)
    (other : s.wb.away.getLsbD i ≠ away) :
    (∃ n r, s.tamper i away = s.tampered i away n r) ∨ ∃ r detail a b, s.tamper i away = (s.tampered i away 0 r).appendLog 3 detail a b := by
  have changes : ¬ (¬ s.wb.table.tampEn.getLsbD i = true ∨ s.wb.away.getLsbD i = away) := by
    rintro (off | same)
    · exact off on
    · exact other same
  by_cases soon : s.wb.tampSoon i = true
  · exact .inl ⟨_, _, (if_neg changes).trans (if_pos soon)⟩
  · exact .inr ⟨_, _, _, _, (if_neg changes).trans (if_neg soon)⟩

theorem State.tamper_stays {s : State} {i : Fin 2} {away : Bool} (h : s.wb.table.tampEn.getLsbD i = false ∨ s.wb.away.getLsbD i = away) :
    s.tamper i away = s :=
  if_pos (h.imp_left fun off => by rw [off]; exact Bool.false_ne_true)

/-- What a change of input `i` that registers does. -/
structure Tampered (s t : State) (i : Fin 2) (away : Bool) : Prop where
  away : t.wb.away = withBit s.wb.away i away
  level : t.wb.level = s.wb.level
  table : t.wb.table = s.wb.table
  due : t.wb.tampDue = s.wb.tampDue
  counts : (t.wb.sb.tamp0, t.wb.sb.tamp1) = ((tampCounted s.wb.sb i).tamp0, (tampCounted s.wb.sb i).tamp1)
  stat : t.rb Adr.WB_STAT (10 + i.val) = true
  ax : t.ax = s.ax

theorem State.tampered_does (s : State) (i : Fin 2) (away : Bool) (n : Nat) (r : Option Nat) : Tampered s (s.tampered i away n r) i away := by
  have stat : (s.tampered i away n r).rb Adr.WB_STAT (10 + i.val) = true := by
    rw [State.tampered, State.rb_modWb, State.rb_orReg_self _ _ (by omega)]
  have ax : (s.tampered i away n r).ax = s.ax := by rw [State.tampered, State.modWb_ax, State.orReg_ax]; rfl
  have wb : (s.tampered i away n r).wb = ({ s.wb with sb := tampCounted s.wb.sb i } : Wb).tampered i away n r := rfl
  refine ⟨?_, ?_, ?_, ?_, ?_, stat, ax⟩ <;> rw [wb, Wb.tampered] <;> split <;> rfl

theorem State.tamper_does {s : State} {i : Fin 2} {away : Bool} (on : s.wb.table.tampEn.getLsbD i = true)
    (other : s.wb.away.getLsbD i ≠ away) : Tampered s (s.tamper i away) i away := by
  rcases State.tamper_changes on other with ⟨n, r, same⟩ | ⟨r, detail, a, b, recorded⟩
  · rw [same]
    exact s.tampered_does i away n r
  · have does := s.tampered_does i away 0 r
    have appended := (s.tampered i away 0 r).appendLog_appended 3 detail a b
    rw [recorded]
    refine ⟨(appended.field Wb.away fun _ _ _ _ => rfl).trans does.away, (appended.field Wb.level fun _ _ _ _ => rfl).trans does.level,
      (appended.field Wb.table fun _ _ _ _ => rfl).trans does.table, (appended.field Wb.tampDue fun _ _ _ _ => rfl).trans does.due,
      (appended.field (fun w => (w.sb.tamp0, w.sb.tamp1)) fun _ _ _ _ => rfl).trans does.counts, ?_, appended.ax.trans does.ax⟩
    rw [State.rb, appended.reg _ (by decide)]
    exact does.stat

/-- What a judgement of an input leaves, whether it registers a change or not. -/
theorem State.tamper_keeps (s : State) (i : Fin 2) (away : Bool) : (s.tamper i away).wb.level = s.wb.level ∧
    (s.tamper i away).wb.table = s.wb.table ∧ (s.tamper i away).wb.tampDue = s.wb.tampDue ∧
    (s.wb.table.tampEn.getLsbD i = true → (s.tamper i away).wb.away.getLsbD i = away) ∧
    ∀ j ≠ i, (s.tamper i away).wb.away.getLsbD j.val = s.wb.away.getLsbD j.val := by
  by_cases stays : s.wb.table.tampEn.getLsbD i = false ∨ s.wb.away.getLsbD i = away
  · rw [State.tamper_stays stays]
    refine ⟨rfl, rfl, rfl, fun on => stays.resolve_left ?_, fun _ _ => rfl⟩
    rw [on]
    decide
  · rw [not_or, Bool.not_eq_false] at stays
    have does := State.tamper_does stays.1 stays.2
    refine ⟨does.level, does.table, does.due, fun _ => ?_, fun j apart => ?_⟩
    · rw [does.away, getLsbD_withBit, if_pos rfl]
    · rw [does.away, getLsbD_withBit, if_neg apart.symm]

/-! ### An edge of the slow clock (R377, R378, R404) -/

/-- An edge that does not end the four samples brings their end nearer, and does nothing else. -/
theorem State.tamperEdge_nearer {s : State} (h : s.wb.tampDue ≠ 1) : ∃ n, s.tamperEdge = s.modWb fun w => { w with tampDue := n } := by
  unfold State.tamperEdge
  dsimp only
  split
  · exact ⟨s.wb.tampDue, rfl⟩
  · exact ⟨s.wb.tampDue - 1, rfl⟩

/-- Input `i` away from its normal level, by the levels and the table of `s`. -/
def State.tampAway (s : State) (i : Fin 2) : Bool := s.wb.level.getLsbD i != s.wb.table.tampNorm.getLsbD i

theorem State.tamperEdge_judges {s : State} (kept : s.wb.lostSb = false) (due : s.wb.tampDue = 1) : s.tamperEdge =
    (s.modWb fun w => { w with tampDue := w.tampDue - 1 }).forAll (allFin 2) fun u i => u.tamper i (s.tampAway i) := by
  unfold State.tamperEdge
  dsimp only
  rw [if_neg (by rw [due, kept]; decide), if_neg (not_not_intro due)]
  rfl

/-- The edge that ends the four samples judges every input that is enabled. -/
theorem State.tamperEdge_does {s : State} (kept : s.wb.lostSb = false) (due : s.wb.tampDue = 1) : s.tamperEdge.wb.tampDue = 0 ∧
    ∀ i : Fin 2, s.wb.table.tampEn.getLsbD i = true → s.tamperEdge.wb.away.getLsbD i = s.tampAway i := by
  rw [State.tamperEdge_judges kept due]
  refine ⟨?_, fun i on => ?_⟩
  · rw [State.forAll_proj (fun t => t.wb.tampDue) fun t i => (t.tamper_keeps i _).2.2.1]
    exact congrArg (· - 1) due
  · refine State.forAll_reaches (fun (i : Fin 2) t => t.wb.table.tampEn.getLsbD i = true → t.wb.away.getLsbD i = s.tampAway i)
      (fun t i => ?_) (fun t i j before => ?_) _ i (mem_allFin i) ?_
    · obtain ⟨-, table, -, judged, -⟩ := t.tamper_keeps i (s.tampAway i)
      rw [table]
      exact judged
    · obtain ⟨-, table, -, judged, others⟩ := t.tamper_keeps i (s.tampAway i)
      rw [table]
      by_cases same : j = i
      · subst same
        exact judged
      · rw [others j same]
        exact before
    · rw [State.forAll_proj (fun t => t.wb.table) fun t i => (t.tamper_keeps i _).2.1]
      exact on

/-- The clock at an edge: its setting, or one more. -/
def State.clocked (s : State) : State :=
  match s.wb.rtcSet with
  | some v => ((s.modSb fun b => { b with rtc := v, rtcValid := true }).modWb fun w => { w with rtcSet := none }).appendLog 5 0
      (wd (s.wb.sb.rtc / 32768)) (wd (v / 32768))
  | none => s.modSb fun b => { b with rtc := (b.rtc + 1) % 2 ^ 64 }

/-- The copies at an edge. -/
def Wb.copied (w : Wb) : Wb := if w.snap then { w with copy := w.sb, snap := false, hold := true } else if w.hold then w else { w with copy := w.sb }

theorem exec_wbSlowClockEdge {s : State} (on : s.sys.powered = true) : exec .wbSlowClockEdge s = .next (s.clocked.tamperEdge.modWb Wb.copied) :=
  congrArg Host.Outcome.next (if_neg (not_not_intro on))

theorem exec_wbSlowClockEdge_off {s : State} (off : s.sys.powered = false) (kept : s.wb.lostSb = false) :
    exec .wbSlowClockEdge s = .next (s.modSb fun b => { b with rtc := (b.rtc + 1) % 2 ^ 64 }).tamperEdge :=
  congrArg Host.Outcome.next ((if_pos (by rw [off]; exact Bool.false_ne_true)).trans (if_neg (by rw [kept]; exact Bool.false_ne_true)))

theorem State.clocked_counts {s : State} (none : s.wb.rtcSet = none) : s.clocked = s.modSb fun b => { b with rtc := (b.rtc + 1) % 2 ^ 64 } := by
  rw [State.clocked, none]

/-- The state with its setting of the clock taken, before the record. -/
def State.clockSet (s : State) (v : Nat) : State :=
  (s.modSb fun b => { b with rtc := v, rtcValid := true }).modWb fun w => { w with rtcSet := none }

theorem State.clocked_appended {s : State} {v : Nat} (set : s.wb.rtcSet = some v) : Appended (s.clockSet v) s.clocked 5 0 := by
  rw [State.clocked, set]
  exact State.appendLog_appended ..

/-- The clock leaves what the tamper inputs are judged by. -/
theorem State.clocked_keeps (s : State) : s.clocked.wb.lostSb = s.wb.lostSb ∧ s.clocked.wb.tampDue = s.wb.tampDue ∧
    s.clocked.wb.table = s.wb.table ∧ s.clocked.tampAway = s.tampAway := by
  cases set : s.wb.rtcSet with
  | none =>
    rw [State.clocked_counts set]
    exact ⟨rfl, rfl, rfl, rfl⟩
  | some v =>
    have appended := State.clocked_appended set
    have level := appended.field Wb.level fun _ _ _ _ => rfl
    have table := appended.field Wb.table fun _ _ _ _ => rfl
    refine ⟨appended.field Wb.lostSb fun _ _ _ _ => rfl, appended.field Wb.tampDue fun _ _ _ _ => rfl, table, ?_⟩
    funext i
    rw [State.tampAway, level, table]
    rfl

/-- The copies move at an edge, unless they hold and no SNAP waits; nothing else of the Weighbridge does. -/
theorem Wb.copied_moves (w : Wb) : ∃ c h n, w.copied = { w with copy := c, hold := h, snap := n } := by
  unfold Wb.copied
  split
  · exact ⟨_, _, _, rfl⟩
  · split
    · exact ⟨w.copy, w.hold, w.snap, rfl⟩
    · exact ⟨_, w.hold, w.snap, rfl⟩

theorem Wb.copied_does (w : Wb) : w.copied.copy = (if w.snap = false ∧ w.hold = true then w.copy else w.sb) ∧
    w.copied.hold = (w.snap || w.hold) ∧ w.copied.snap = false := by
  unfold Wb.copied
  cases snap : w.snap <;> cases hold : w.hold <;> simp [snap, hold]

/-- An edge with no setting and no judgement. -/
theorem State.edge_counts {s : State} (unset : s.wb.rtcSet = none) (h : s.wb.tampDue ≠ 1) : ∃ n, s.clocked.tamperEdge =
    s.modWb fun w => { w with sb := { w.sb with rtc := (w.sb.rtc + 1) % 2 ^ 64 }, tampDue := n } := by
  rw [State.clocked_counts unset]
  obtain ⟨n, edge⟩ := State.tamperEdge_nearer (s := s.modSb fun b => { b with rtc := (b.rtc + 1) % 2 ^ 64 }) h
  exact ⟨n, edge⟩

theorem exec_tamperChange {s : State} (i : Fin 2) (away : Bool) (kept : s.wb.lostSb = false) : exec (.tamperChange i away) s = .next
    ((s.modWb fun w => { w with level := withBit w.level i (away != w.table.tampNorm.getLsbD i) }).tamper i away) := by
  refine congrArg Host.Outcome.next ((if_neg ?_).trans (if_neg ?_))
  · rw [kept]
    exact fun h => nomatch h.2
  · rw [kept]
    exact Bool.false_ne_true

theorem tampCounted_does (b : Standby) (i : Fin 2) {t0 t1 : Nat} (h : (t0, t1) = ((tampCounted b i).tamp0, (tampCounted b i).tamp1)) :
    if i = 0 then t0 = min (b.tamp0 + 1) 65535 ∧ t1 = b.tamp1 else t1 = min (b.tamp1 + 1) 65535 ∧ t0 = b.tamp0 := by
  obtain ⟨h0, h1⟩ := Prod.mk.inj h
  rw [h0, h1, tampCounted]
  split <;> exact ⟨rfl, rfl⟩

/-- Settles O56: samples, seconds, checkpoints, the contents, the clock, and the tamper inputs. -/
theorem metering : Obligations.Metering := by
  unfold Obligations.Metering
  refine fun s => ⟨fun off => ?_, fun l d n v on none h _ sample => completes_of_exec (exec_wbEnergySample l on) (s.sampled_does l none h sample),
    fun l on go => completes_of_exec (exec_wbEnergySample l on) (s.sampled_installs l on go), fun on => ?_,
    fun on => ⟨congrArg Host.Outcome.next (if_neg fun h => nomatch h.2), ?_⟩, exec_vbatFall_on,
    fun off => completes_of_exec (exec_vbatFall_off off) ⟨rfl, rfl, rfl, State.rf_loseStandby _, rfl⟩, fun on => ?_,
    fun on first => ⟨fun kept => ?_, fun lost => ?_⟩, fun m acts => ⟨fun bare => ?_, fun sealed valid far => ?_⟩, fun on unset due => ?_,
    fun kept due => ?_, fun v on set due => ?_, fun m acts => ?_, rfl,
    fun i away => ⟨fun off lost => ?_, fun kept still => ?_, fun kept en other => ?_⟩⟩
  · refine ⟨fun l => congrArg Host.Outcome.next (if_pos ?_), congrArg Host.Outcome.next (if_neg ?_),
      fun f => congrArg Host.Outcome.next (if_neg ?_)⟩
    · rw [off]
      decide
    · rw [off]
      decide
    · rw [off]
      exact fun h => nomatch h.1
  · exact ⟨_, congrArg Host.Outcome.next (if_pos on), rfl, rfl, rfl, rfl, rfl⟩
  · refine completes_of_exec (exec_wbCheckpoint on) ?_
    split
    · exact ⟨rfl, rfl, fun _ => rfl, rfl⟩
    next idle => exact ⟨rfl, rfl, fun asked => absurd asked idle, rfl⟩
  · refine completes_of_exec (exec_vauxFall on) ?_
    cases low : s.wb.vbatLow with
    | true => rfl
    | false => exact s.wb.powerDown_lostSb
  · rw [exec_wbStandbyCheck on first, kept]
    rfl
  · have appended := s.restored.appendLog_appended 4 0 0 0
    refine completes_of_exec ((exec_wbStandbyCheck on first).trans (congrArg Host.Outcome.next (if_pos lost))) ⟨rfl, ?_, ?_, appended.newest⟩
    · exact appended.field Wb.lostSb fun _ _ _ _ => rfl
    · exact appended.field Wb.sb fun _ _ _ _ => rfl
  · refine completes_of_exec (exec_wbRtcGo_taken acts fun refused => refused.1 bare) ?_
    rw [State.modWb, State.noted_wb]
  · exact completes_of_exec (exec_wbRtcGo_refused acts ⟨sealed, valid, far⟩)
      ⟨s.noted_wb .., State.rb_orReg_self _ Adr.WB_STAT (k := 15) (by decide)⟩
  · obtain ⟨n, edge⟩ := State.edge_counts unset due
    obtain ⟨copy, hold, snap⟩ := s.clocked.tamperEdge.wb.copied_does
    obtain ⟨c, h, p, moves⟩ := s.clocked.tamperEdge.wb.copied_moves
    refine completes_of_exec (exec_wbSlowClockEdge on) ⟨?_, ?_, ?_, snap, ?_⟩
    · rw [State.modWb, moves, edge]
      rfl
    · refine copy.trans ?_
      rw [State.modWb, moves, edge]
      rfl
    · refine hold.trans ?_
      rw [edge]
      rfl
    · rw [edge]
      rfl
  · cases on : s.sys.powered with
    | false =>
      exact completes_of_exec (exec_wbSlowClockEdge_off on kept)
        (State.tamperEdge_does (s := s.modSb fun b => { b with rtc := (b.rtc + 1) % 2 ^ 64 }) kept due)
    | true =>
      obtain ⟨lost, left, table, judged⟩ := s.clocked_keeps
      obtain ⟨ended, away⟩ := State.tamperEdge_does (lost.trans kept) (left.trans due)
      obtain ⟨c, h, p, moves⟩ := s.clocked.tamperEdge.wb.copied_moves
      refine completes_of_exec (exec_wbSlowClockEdge on) ?_
      rw [State.modWb, moves]
      rw [table, judged] at away
      exact ⟨ended, away⟩
  · obtain ⟨lost, left, table, judged⟩ := s.clocked_keeps
    have appended := State.clocked_appended set
    obtain ⟨n, edge⟩ := State.tamperEdge_nearer (left.trans_ne due)
    obtain ⟨c, h, p, moves⟩ := s.clocked.tamperEdge.wb.copied_moves
    refine completes_of_exec (exec_wbSlowClockEdge on) ?_
    rw [logged, State.modWb, moves, edge]
    exact ⟨appended.field (fun w => w.sb.rtc) fun _ _ _ _ => rfl, appended.field (fun w => w.sb.rtcValid) fun _ _ _ _ => rfl,
      appended.field Wb.rtcSet fun _ _ _ _ => rfl, appended.newest⟩
  · refine completes_of_exec (exec_wbSnap acts) ⟨?_, s.noted_ax ..⟩
    rw [State.modWb, State.noted_wb]
  · exact congrArg Host.Outcome.next (if_pos ⟨by rw [off]; exact Bool.false_ne_true, lost⟩)
  · rw [exec_tamperChange i away kept]
    exact congrArg Host.Outcome.next (State.tamper_stays still)
  · have does := State.tamper_does (s := s.modWb fun w => { w with level := withBit w.level i (away != w.table.tampNorm.getLsbD i) }) en other
    refine completes_of_exec (exec_tamperChange i away kept) ⟨?_, ?_, does.stat, tampCounted_does _ i does.counts, does.ax⟩
    · rw [does.level]
      exact (getLsbD_withBit _ i i _).trans (if_pos rfl)
    · rw [does.away, getLsbD_withBit, if_pos rfl]

end Sys2Proof.Machine
end

section
/-! SUPPORT. What the load of a Consist leaves alone at the boot. -/

namespace Sys2Proof.Machine

open Safety

/-! ### The boot's outcome -/

/-- What a boot decides: the slot that runs, the lock, and the end of the sweep of the comparators. -/
def State.bootView (s : State) : (Bool × Bool × Bool) × Bool × Option (Nat × Nat) :=
  ((s.sys.booted, s.sys.fallback, s.sys.bootSlot), s.frm.lock, s.cmp.sweep)

theorem Within.bootView {z : Bool} {s t : State} (h : Within z s t) : t.bootView = s.bootView := by
  rw [State.bootView, h.sys, h.frm, h.cmp, State.bootView]

theorem Tells.bootView {s t : State} (h : Tells s t) : t.bootView = s.bootView := by
  rw [h.eqn]
  rfl

theorem Supplied.bootView {s t : State} (h : Supplied s t) : t.bootView = s.bootView := by
  rw [State.bootView, h.tells.sys, h.frm, h.sweep, State.bootView]

theorem TripMoves.bootView {s t : State} (h : TripMoves s t) : t.bootView = s.bootView := h.within.bootView

/-- Registers alone move. -/
theorem State.bootView_of_regs {s t : State} (h : t = { s with regs := t.regs }) : t.bootView = s.bootView := by
  rw [h]
  rfl

theorem State.putReg_bootView (s : State) (a k v : Nat) : (s.putReg a k v).bootView = s.bootView := rfl

theorem State.clrReg_bootView (s : State) (a k : Nat) : (s.clrReg a k).bootView = s.bootView := rfl

theorem State.modCu_bootView (s : State) (u : CarrierId) (f : CUnit → CUnit) : (s.modCu u f).bootView = s.bootView := rfl

theorem State.bootView_ite {s t u : State} {p : Prop} [Decidable p] (h : t.bootView = s.bootView) (k : u.bootView = s.bootView) :
    (if p then t else u).bootView = s.bootView := by
  split
  · exact h
  · exact k

/-! ### The check of a comparator (R318) -/

theorem State.coilTrip_bootView (s : State) (u : CarrierId) (c : Fin 16) (t : Nat) (clk : Word) (same : Bool) :
    (s.coilTrip u c t clk same).bootView = s.bootView := by
  have stuck : (s.stuck u c).bootView = s.bootView := State.bootView_ite rfl rfl
  cases again : (s.cu.get u).tripped.getLsbD c
  · exact ((State.coilTrip_first again t clk same).bootView.trans (State.keepHighs_moves (s.stuck u c) same (coilOf u c).1).bootView).trans stuck
  · rw [State.coilTrip_again again, stuck]

theorem State.recheckSide_bootView (s : State) (u : CarrierId) (c : Fin 16) (hi : Bool) : (s.recheckSide u c hi).bootView = s.bootView := by
  unfold State.recheckSide
  by_cases side : (s.cu.get u).sideSet c hi = true
  · rw [show s.coilSide u c hi = none from if_pos side]
  · rw [show s.coilSide u c hi = some (s.sided u c hi) from if_neg side]
    exact State.coilTrip_bootView ..

theorem State.vmLoRegister_bootView (s : State) (d : DomainId) : (s.vmLoRegister d).bootView = s.bootView := by
  cases side : s.cmp.vmLo.getLsbD d
  · rw [State.vmLoRegister_clear side, (State.domainFaulted_within ..).bootView]
    rfl
  · rw [State.vmLoRegister_stands side]

theorem State.vmHiRegister_bootView (s : State) (d : DomainId) : (s.vmHiRegister d).bootView = s.bootView := by
  cases side : s.cmp.vmHi.getLsbD d
  · rw [State.vmHiRegister_clear side, (tells_raise ..).bootView, (supplied_supplies _).bootView]
    rfl
  · rw [State.vmHiRegister_stands side]

theorem State.ovRegister_bootView (s : State) (u : CarrierId) : (s.ovRegister u).bootView = s.bootView := by
  have marked : (s.ovMarked u).bootView = s.bootView := by
    unfold State.ovMarked
    split <;> rfl
  cases side : (s.cu.get u).ov
  · rw [State.ovRegister_clear side]
    have supplied := (supplied_supplies (s.ovMarked u)).bootView.trans marked
    exact State.bootView_ite supplied ((tells_raise ..).bootView.trans supplied)
  · rw [State.ovRegister_stands side]

theorem State.railLoRegister_bootView (s : State) (r : Fin 13) : (s.railLoRegister r).bootView = s.bootView := by
  cases side : s.cmp.railLo.getLsbD r
  · exact (State.railLoRegister_within side).bootView
  · rw [State.railLoRegister_stands side]

theorem State.railHiRegister_bootView (s : State) (r : Fin 13) : (s.railHiRegister r).bootView = s.bootView := by
  cases side : s.cmp.railHi.getLsbD r
  · exact (State.railHiRegister_tells side).2.bootView
  · rw [State.railHiRegister_stands side]

/-- The check of the side below its threshold and then of the one above it keeps what each of them keeps. -/
theorem State.bootView_sides {s : State} {lo hi : State → State} (low : ∀ t, (lo t).bootView = t.bootView)
    (high : ∀ t, (hi t).bootView = t.bootView) (p q : Prop) [Decidable p] [Decidable q] :
    (if q then hi (if p then lo s else s) else if p then lo s else s).bootView = s.bootView := by
  have first : (if p then lo s else s).bootView = s.bootView := State.bootView_ite (low s) rfl
  exact State.bootView_ite ((high _).trans first) first

theorem State.recheck_bootView (s : State) (id : Nat) : (s.recheck id).bootView = s.bootView := by
  unfold State.recheck
  refine State.bootView_ite rfl (State.bootView_ite ?_ (State.bootView_ite ?_ (State.bootView_ite ?_ ?_)))
  · exact State.bootView_sides (fun t => t.recheckSide_bootView (Fin.ofNat 25 (id / 16)) (Fin.ofNat 16 id) false)
      (fun t => t.recheckSide_bootView (Fin.ofNat 25 (id / 16)) (Fin.ofNat 16 id) true) _ _
  · exact State.bootView_sides (fun t => t.vmLoRegister_bootView (Fin.ofNat 7 (id - 400)))
      (fun t => t.vmHiRegister_bootView (Fin.ofNat 7 (id - 400))) _ _
  · exact State.bootView_ite (s.ovRegister_bootView _) rfl
  · exact State.bootView_sides (fun t => t.railLoRegister_bootView (Fin.ofNat 13 (id - 432)))
      (fun t => t.railHiRegister_bootView (Fin.ofNat 13 (id - 432))) _ _

/-! ### Taking a Consist (R430, R434) -/

theorem State.storeWord_bootView (s : State) (m : Master) (a : Nat) (w : Word) : (s.storeWord m a w).bootView = s.bootView := by
  unfold State.storeWord
  split <;> rfl

theorem State.plainWrite_bootView (s : State) (m : Master) (a : Nat) (w : Word) : (s.plainWrite m a w).bootView = s.bootView := by
  have noted := State.bootView_of_regs (s.notePrv_eqn m a)
  exact State.bootView_ite (State.bootView_ite ((State.storeWord_bootView ..).trans noted) noted) rfl

theorem State.takeReg_bootView (s : State) (l : Items) (a : Nat) : (s.takeReg l a).bootView = s.bootView := by
  have stored := s.storeWord_bootView .supervisor a (consistWordAt l a)
  unfold State.takeReg
  refine State.bootView_ite stored ?_
  split
  · exact (State.recheck_bootView ..).trans stored
  · exact stored

theorem State.fbTaken_bootView (s o : State) (c : Fin 24) : (s.fbTaken o c).bootView = s.bootView := by
  unfold State.fbTaken
  dsimp only
  split <;> split <;> split <;> rfl

theorem State.prbCfgWrite_bootView (s : State) (m : Master) (q : Fin 16) (w : Word) : (s.prbCfgWrite m q w).bootView = s.bootView := by
  have written := s.plainWrite_bootView m (Adr.PRB_CFG q) w
  exact State.bootView_ite written written

theorem State.emuDrive_bootView (s : State) (e : Fin 4) (k : Nat) (lines : BitVec 2) (z : Bool) :
    (s.emuDrive e k lines z).bootView = s.bootView :=
  State.bootView_ite rfl rfl

theorem State.gate_bootView (s : State) (m : Master) (a k : Nat) : (s.gate m a k).1.bootView = s.bootView := by
  unfold State.gate
  split
  · exact State.bootView_of_regs (s.notePrv_eqn m a)
  · rfl

theorem State.emuCfgWrite_bootView (s : State) (m : Master) (e : Fin 4) (w : Word) : (s.emuCfgWrite m e w).bootView = s.bootView := by
  have gated := s.gate_bootView m (Adr.EMU_CFG e) 0xFFFFFF
  have stored (v : Word) := (State.storeWord_bootView (s.gate m (Adr.EMU_CFG e) 0xFFFFFF).1 m (Adr.EMU_CFG e) v).trans gated
  have told : (if fld w 1 0 = 3 then (((s.gate m (Adr.EMU_CFG e) 0xFFFFFF).1.storeWord m (Adr.EMU_CFG e) w).orReg (Adr.EMU_STAT e) 4)
      else (s.gate m (Adr.EMU_CFG e) 0xFFFFFF).1.storeWord m (Adr.EMU_CFG e) w).bootView = s.bootView :=
    State.bootView_ite (stored w) (stored w)
  refine State.bootView_ite gated (State.bootView_ite gated (State.bootView_ite ?_ (State.bootView_ite ?_ ?_)))
  · exact (State.emuDrive_bootView ..).trans (stored _)
  · exact (State.emuDrive_bootView ..).trans told
  · exact State.bootView_ite told ((State.emuDrive_bootView ..).trans told)

theorem State.takeDevice_bootView (s : State) (l : Items) : (s.takeDevice l).bootView = s.bootView := by
  unfold State.takeDevice
  extract_lets s1 s2 s3 s4 s5 s6
  have cards : s1.bootView = s.bootView := State.forAll_proj State.bootView (fun t c => (within_takeCardHalf (z := true) (.refl _ t) l c).bootView) s
  have regs : s2.bootView = s1.bootView := State.forAll_proj State.bootView (fun t a => t.takeReg_bootView l a) s1
  have chans : s3.bootView = s2.bootView := State.forAll_proj State.bootView (fun t c => t.fbTaken_bootView s c) s2
  have probes : s4.bootView = s3.bootView := State.forAll_proj State.bootView (fun t q => t.prbCfgWrite_bootView ..) s3
  have outputs : s5.bootView = s4.bootView := State.forAll_proj State.bootView
    (fun t e => State.bootView_ite rfl ((State.emuCfgWrite_bootView ..).trans (t.clrReg_bootView ..))) s4
  have slack : s6.bootView = s5.bootView := s5.storeWord_bootView ..
  refine (s6.putReg_bootView ..).trans ?_
  exact ((((slack.trans outputs).trans probes).trans chans).trans regs).trans cards

theorem State.takeOfs_bootView (s : State) (l : Items) (units : List DomainId) (rate : Fin 4) : (s.takeOfs l units rate).bootView = s.bootView := by
  have regs : (s.forAll (List.range 3) fun t n =>
      t.putReg (Adr.FRM_BAYOFS n) (ofsMask units n) (consistWordAt l (Adr.FRM_BAYOFS n)).toNat).bootView = s.bootView :=
    State.forAll_proj State.bootView (fun t n => t.putReg_bootView ..) s
  exact State.bootView_ite (p := units.contains 6 = true) regs regs

/-- A Consist that comes into force leaves what the boot has decided. -/
theorem State.takeConsist_bootView (s : State) (l : Items) (slot : Nat) (units : List DomainId) (dev : Bool) :
    (s.takeConsist l slot units dev).bootView = s.bootView := by
  unfold State.takeConsist
  extract_lets s1 s2 s3 s4 f
  have ofs : s1.bootView = s.bootView := s.takeOfs_bootView ..
  have device : s2.bootView = s.bootView := State.bootView_ite ((s1.takeDevice_bootView l).trans ofs) ofs
  have regs : s3.bootView = s2.bootView := State.forAll_proj State.bootView
    (fun t d => State.forAll_proj State.bootView (fun t a => t.takeReg_bootView l a) t) s2
  have axes : s4.bootView = s3.bootView := State.forAll_proj State.bootView
    (fun t d => State.forAll_proj State.bootView (fun t x => (within_takeAxis (z := true) (.refl _ t) l x).bootView) t) s3
  exact (axes.trans regs).trans device

theorem State.loadConsist_bootView (s : State) : s.loadConsist.bootView = s.bootView := by
  unfold State.loadConsist
  dsimp only
  split
  · rfl
  · refine State.bootView_ite ?_ rfl
    exact (State.forAll_proj State.bootView (fun t u => t.modCu_bootView u _) _).trans (State.takeConsist_bootView ..)

theorem State.firstCals_bootView (s : State) : s.firstCals.bootView = s.bootView :=
  State.forAll_proj State.bootView (fun t u => t.modCu_bootView u _) s

end Sys2Proof.Machine
end

section
/-! SUPPORT. The obligation of power, reset and the boot. -/

namespace Sys2Proof.Machine

open Safety

/-! ### Reset (R416, R420) -/

/-- Every axis of the module in reset is off. -/
theorem State.reset_phase (x : AxisId) : (State.reset.ax.get x).cd.phase = .off := by
  have fresh : State.reset.ax.get x = .reset (decide (192 ≤ x.val)) := vector_get_ofFn ..
  rw [fresh]
  rfl

/-- VAUX back: the module after its power-on reset. -/
def State.risen (s : State) (c : BitVec 2) : State :=
  { s.inReset.setReg Adr.WB_STAT (s.reg Adr.WB_STAT &&& 0xC00#32) with
    frm := { s.inReset.frm with src := s.frm.src }, sys := { s.inReset.sys with powered := true }, wb := { s.wb with vbatLow := false }
    cmp := { s.inReset.cmp with sweep := some (432, 0) } }.sampleCfgsel c

theorem State.risen_ax (s : State) (c : BitVec 2) : (s.risen c).ax = State.reset.ax := rfl

theorem exec_vauxRise {s : State} {c : BitVec 2} (off : s.sys.powered = false) : exec (.vauxRise c) s = .next (s.risen c) :=
  congrArg Host.Outcome.next (if_neg (by rw [off]; exact Bool.false_ne_true))

theorem Wb.powerDown_does (w : Wb) : w.powerDown.sb = w.sb ∧ w.powerDown.log = w.log ∧ w.powerDown.req = none ∧ w.powerDown.reason = 0 ∧
    w.powerDown.pad = false := by
  unfold Wb.powerDown Wb.restarted
  dsimp only
  split
  · split <;> exact ⟨rfl, rfl, rfl, rfl, rfl⟩
  · exact ⟨rfl, rfl, rfl, rfl, rfl⟩

theorem State.onBattery_does (s : State) : s.onBattery.sys.powered = false ∧ s.onBattery.frm = { Frm.reset with src := s.rb Adr.FRM_CLK 0 } ∧
    s.onBattery.wb = s.wb.powerDown ∧ s.onBattery.ax = State.reset.ax := ⟨rfl, rfl, rfl, rfl⟩

/-- The loss of the contents leaves the rest of the module, and of the Weighbridge what the tamper watch does not hold. -/
theorem State.loseStandby_keeps (s : State) : s.loseStandby.sys = s.sys ∧ s.loseStandby.frm = s.frm ∧ s.loseStandby.ax = s.ax ∧
    (s.loseStandby.wb.sb, s.loseStandby.wb.log, s.loseStandby.wb.req, s.loseStandby.wb.reason, s.loseStandby.wb.pad) =
      (s.wb.sb, s.wb.log, s.wb.req, s.wb.reason, s.wb.pad) := ⟨rfl, rfl, rfl, rfl⟩

/-- The fall of VAUX, whether or not the contents are lost with it. -/
theorem exec_vauxFall_does {s : State} (on : s.sys.powered = true) : Completes .vauxFall s fun t => t.sys.powered = false ∧
    t.frm = { Frm.reset with src := s.rb Adr.FRM_CLK 0 } ∧ t.wb.sb = s.wb.sb ∧ t.wb.log = s.wb.log ∧ t.wb.req = none ∧ t.wb.reason = 0 ∧
    t.wb.pad = false ∧ ∀ x : AxisId, (t.ax.get x).cd.phase = .off := by
  obtain ⟨off, frm, wb, ax⟩ := s.onBattery_does
  obtain ⟨sb, log, req, reason, pad⟩ := s.wb.powerDown_does
  rw [← wb] at sb log req reason pad
  have phase (x : AxisId) : (s.onBattery.ax.get x).cd.phase = .off := by rw [ax]; exact State.reset_phase x
  refine completes_of_exec (exec_vauxFall on) ?_
  split
  · obtain ⟨sys', frm', ax', wb'⟩ := s.onBattery.loseStandby_keeps
    simp only [Prod.mk.injEq] at wb'
    obtain ⟨sb', log', req', reason', pad'⟩ := wb'
    rw [sys', frm', ax', sb', log', req', reason', pad']
    exact ⟨off, frm, sb, log, req, reason, pad, phase⟩
  · exact ⟨off, frm, sb, log, req, reason, pad, phase⟩

/-- The registers of the Weighbridge. -/
def inWeigh (a : Nat) : Bool := decide (0x1A0000 ≤ a) && decide (a < 0x1B0000)

/-- A filter by offset keeps the word of an offset that it lets pass. -/
theorem rfGet_filter (p : Nat → Bool) {a : Nat} (pass : p a = true) (l : List (Nat × Word)) : rfGet (l.filter fun e => p e.1) a = rfGet l a := by
  have same : (fun e : Nat × Word => decide (p e.1 = true ∧ (e.1 == a) = true)) = fun e => e.1 == a := by
    funext e
    by_cases here : e.1 = a <;> simp [here, pass]
  rw [rfGet, rfGet, List.find?_filter, same]

theorem State.softReset_regs (s : State) : s.softReset.regs = s.regs.filter fun e => inWeigh e.1 := rfl

theorem State.reg_softReset (s : State) {a : Nat} (lo : 0x1A0000 ≤ a) (hi : a < 0x1B0000) : s.softReset.reg a = s.reg a := by
  rw [State.reg, State.softReset_regs, rfGet_filter inWeigh (by rw [inWeigh, decide_eq_true lo, decide_eq_true hi]; rfl), State.reg]

theorem State.softReset_ax (s : State) : s.softReset.ax = State.reset.ax := rfl

theorem prvOf_reset : prvOf Adr.GCTL_RESET &&& 0xFFFF0001 ≠ 0 := by decide +kernel

theorem exec_softwareReset {s : State} {m : Master} (w : Word) (acts : Acts s m Adr.GCTL_RESET 0xFFFF0001) :
    exec (.softwareReset m w) s = .next (if fld w 31 16 = 0x5A5A ∧ bitOf w 0 then s.softReset else s) := by
  refine congrArg Host.Outcome.next ?_
  rw [State.resetWrite, State.gate_of_reach acts, s.noted_admin (admin_of_acts acts prvOf_reset)]
  by_cases key : fld w 31 16 = 0x5A5A ∧ bitOf w 0
  · exact (if_pos ⟨rfl, key⟩).trans (if_pos key).symm
  · exact (if_neg fun h => key h.2).trans (if_neg key).symm

/-! ### The boot (R417, R437) -/

/-- Is the image of slot `k` loaded, its check good? -/
def State.imageOk (s : State) (a b k : Bool) : Bool := (if k then b else a) && (s.upd.slot k).good

/-- The module as the boot finds it: the sweep of the rails is over, and the lock may be set. -/
def State.bootsOn (s : State) : State := { s with cmp := { s.cmp with sweep := none } }.pllLocks

theorem exec_bootImageLoaded {s : State} (a b : Bool) (on : s.sys.powered = true) (first : s.sys.booted = false) :
    exec (.bootImageLoaded a b) s = .next (
      if s.imageOk a b s.upd.boot then (s.bootsOn.bootFrom s.upd.boot).loadConsist.firstCals
      else if s.imageOk a b (!s.upd.boot) then (s.bootsOn.bootFrom (!s.upd.boot)).loadConsist.firstCals
      else s.bootsOn.haltCores) := by
  refine congrArg Host.Outcome.next (if_neg ?_)
  rw [on, first]
  decide

/-- A boot from the slot that comes first with a good image. -/
theorem exec_bootImageLoaded_boots {s : State} {a b k : Bool} (on : s.sys.powered = true) (first : s.sys.booted = false)
    (good : s.imageOk a b k = true) (turn : k = s.upd.boot ∨ s.imageOk a b s.upd.boot = false) :
    exec (.bootImageLoaded a b) s = .next (s.bootsOn.bootFrom k).loadConsist.firstCals := by
  rw [exec_bootImageLoaded a b on first]
  by_cases own : k = s.upd.boot
  · rw [← own, if_pos good]
  · have other : k = !s.upd.boot := by rw [Bool.eq_not]; exact own
    rw [if_neg (by rw [turn.resolve_left own]; decide), ← other, if_pos good]

/-- A boot with no good image. -/
theorem exec_bootImageLoaded_halts {s : State} {a b : Bool} (on : s.sys.powered = true) (first : s.sys.booted = false)
    (one : s.imageOk a b true = false) (zero : s.imageOk a b false = false) :
    exec (.bootImageLoaded a b) s = .next s.bootsOn.haltCores := by
  have bad (k : Bool) : ¬ s.imageOk a b k = true := by
    cases k
    · rw [zero]; decide
    · rw [one]; decide
  rw [exec_bootImageLoaded a b on first, if_neg (bad _), if_neg (bad _)]

theorem State.bootFrom_bootView (s : State) (k : Bool) : (s.bootsOn.bootFrom k).loadConsist.firstCals.bootView =
    ((true, k != s.upd.boot, k), s.frm.lock || s.frm.outage.isNone, none) := by
  rw [State.firstCals_bootView, State.loadConsist_bootView]
  rfl

theorem State.sys_enterSafe (s : State) (u : CarrierId) : (s.enterSafe u).sys = s.sys := by
  rw [(within_enterSafe (z := true) s u).sys, State.modCu_sys, State.brakeFrom_eqn]

/-- Every unit halts: the rest of the module stays, and each unit is in its safe state by the halt. -/
theorem State.everyUnitHalted_does (s : State) :
    let t := s.forAll (allFin 25) fun t u => (t.enterSafe u).modCu u fun c => { c with cHalt := true }
    t.sys = s.sys ∧ t.frm = s.frm ∧ t.upd = s.upd ∧ ∀ u : CarrierId, (t.cu.get u).safe = true ∧ (t.cu.get u).cHalt = true := by
  refine ⟨?_, State.frm_everyUnitSafe .., ?_, fun u => ⟨?_, ?_⟩⟩
  · exact State.forAll_proj State.sys (fun t u => (State.modCu_sys ..).trans (t.sys_enterSafe u)) s
  · exact State.forAll_proj State.upd (fun t u => (State.modCu_upd ..).trans (t.upd_enterSafe u)) s
  · refine State.forAll_reaches (fun u t => (t.cu.get u).safe = true) (fun t u => ?_) (fun t u v safe => ?_) s u (mem_allFin u)
    · obtain ⟨k, self⟩ := t.cu_enterSafe_self u
      rw [State.cu_modCu_self, self]
    · rw [State.cu_modCu_proj CUnit.safe (t.enterSafe u) u v fun _ => by rfl]
      exact t.safe_enterSafe u v safe
  · exact State.cu_everyUnitSafe _ CUnit.cHalt _ (fun _ => rfl) (fun _ _ => rfl) (fun _ _ => rfl) u

/-- The cores marked halted, before their units enter the safe state. -/
def State.allHalted (s : State) : State := { s with upd := { s.upd with halted := 0x3F7F } }

theorem State.allHalted_does (s : State) : s.allHalted.sys = s.sys ∧ s.allHalted.frm = s.frm ∧ s.allHalted.upd.halted = 0x3F7F#14 :=
  ⟨rfl, rfl, rfl⟩

theorem State.haltCores_eq (s : State) :
    s.haltCores = s.allHalted.forAll (allFin 25) fun t u => (t.enterSafe u).modCu u fun c => { c with cHalt := true } := rfl

theorem State.haltCores_does (s : State) : s.haltCores.sys = s.sys ∧ s.haltCores.frm = s.frm ∧ s.haltCores.upd.halted = 0x3F7F#14 ∧
    ∀ u : CarrierId, (s.haltCores.cu.get u).safe = true ∧ (s.haltCores.cu.get u).cHalt = true := by
  obtain ⟨sys, frm, upd, units⟩ := s.allHalted.everyUnitHalted_does
  obtain ⟨marked, frm', halted⟩ := s.allHalted_does
  rw [State.haltCores_eq]
  exact ⟨sys.trans marked, frm.trans frm', (congrArg Upd.halted upd).trans halted, units⟩

/-! ### Taking the module down (R441) -/

theorem exec_pwrPrep {s : State} {m : Master} (acts : Acts s m Adr.GCTL_PWR 1) :
    exec (.pwrPrep m) s = .next ((s.noted m Adr.GCTL_PWR).orReg Adr.GCTL_PWR 1) := by
  refine congrArg Host.Outcome.next ?_
  rw [State.pwrWrite, State.gate_of_reach acts]
  rfl

/-- The preparation withdrawn. -/
def State.withdrawn (s : State) : State :=
  { s.clrReg Adr.GCTL_PWR 1 with sys := { s.sys with done := false, prepCkpt := false } }

theorem exec_pwrPrepWithdraw {s : State} {m : Master} (acts : Acts s m Adr.GCTL_PWR 1) :
    exec (.pwrPrepWithdraw m) s = .next (s.noted m Adr.GCTL_PWR).withdrawn := by
  refine congrArg Host.Outcome.next ?_
  rw [State.pwrWrite, State.gate_of_reach acts]
  rfl

theorem State.rb_withdrawn (s : State) : s.withdrawn.rb Adr.GCTL_PWR 0 = false := by
  have regs : s.withdrawn.rb Adr.GCTL_PWR 0 = (s.clrReg Adr.GCTL_PWR 1).rb Adr.GCTL_PWR 0 := State.rb_of_regs rfl ..
  rw [regs, State.rb, State.clrReg, State.reg_setReg_self, bitOf, BitVec.getLsbD_and]
  simp [wd]

theorem exec_pwrDone {s : State} (on : s.sys.powered = true) (prep : s.rb Adr.GCTL_PWR 0 = true) (ckpt : s.sys.prepCkpt = true)
    (rest : ∀ x : AxisId, (s.ax.get x).tt.mode = .parked ∨ (s.ax.get x).tt.mode = .disabled) :
    exec .pwrDone s = .next { s with sys := { s.sys with done := true } } := by
  refine congrArg Host.Outcome.next (if_pos ⟨on, prep, ?_, ckpt⟩)
  rw [List.all_eq_true]
  intro a mem
  obtain ⟨i, lt, at_⟩ := List.getElem_of_mem mem
  have axis : s.ax.get ⟨i, by simpa using lt⟩ = a := by rw [← at_]; rfl
  rw [← axis]
  rcases rest ⟨i, by simpa using lt⟩ with parked | disabled
  · rw [parked]; rfl
  · rw [disabled]; rfl

/-- Settles O59: the supplies, the reset, the boot, and the preparation for power-down. -/
theorem powerAndBoot : Obligations.PowerAndBoot := by
  unfold Obligations.PowerAndBoot
  refine fun s m w c => ⟨fun on => congrArg Host.Outcome.next (if_pos on), fun off => congrArg Host.Outcome.next (if_pos ?_), fun off => ?_,
    exec_vauxFall_does, fun acts => ⟨fun key bit => ?_, fun bare => ?_⟩,
    fun a b on first => ⟨fun k good turn => ?_, fun one zero => ?_⟩, fun a b idle => congrArg Host.Outcome.next (if_pos ?_),
    fun acts => ⟨?_, ?_⟩, exec_pwrDone, fun none => congrArg Host.Outcome.next (if_neg ?_)⟩
  · rw [off]
    decide
  · refine completes_of_exec (exec_vauxRise off) ⟨rfl, rfl, rfl, rfl, rfl, rfl, rfl, rfl, fun x => ?_⟩
    rw [s.risen_ax]
    exact State.reset_phase x
  · refine completes_of_exec ((exec_softwareReset w acts).trans (congrArg Host.Outcome.next (if_pos ⟨key, bit⟩)))
      ⟨?_, rfl, rfl, rfl, rfl, rfl, rfl, rfl, rfl, fun x => ?_, fun a lo hi => s.reg_softReset lo hi⟩
    · rfl
    · rw [s.softReset_ax]
      exact State.reset_phase x
  · rw [exec_softwareReset w acts, if_neg]
    rintro ⟨key, bit⟩
    rcases bare with other | clear
    · exact other key
    · rw [clear] at bit
      exact nomatch bit
  · have view := s.bootFrom_bootView k
    exact completes_of_exec (exec_bootImageLoaded_boots on first good turn) ⟨congrArg (fun v => v.1.1) view, congrArg (fun v => v.2.1) view,
      congrArg (fun v => v.1.2.2) view, congrArg (fun v => v.1.2.1) view, congrArg (fun v => v.2.2) view⟩
  · obtain ⟨sys, frm, halted, units⟩ := s.bootsOn.haltCores_does
    exact completes_of_exec (exec_bootImageLoaded_halts on first one zero) ⟨by rw [sys]; exact first, halted, by rw [frm]; rfl, units⟩
  · rcases idle with off | booted
    · exact .inl (by rw [off]; decide)
    · exact .inr booted
  · refine completes_of_exec (exec_pwrPrep acts) ⟨State.rb_orReg_self _ _ (k := 0) (by decide), ?_⟩
    rw [State.noted_eqn]
    rfl
  · refine completes_of_exec (exec_pwrPrepWithdraw acts) ⟨State.rb_withdrawn _, ?_, s.noted_ax .., s.noted_wb ..⟩
    rw [State.withdrawn, State.noted_sys]
  · rw [none]
    exact fun h => nomatch h.2.2.2

end Sys2Proof.Machine
end

section
/-! SUPPORT. Calibration: its end, its passes, and the write that begins one. -/

namespace Sys2Proof.Machine

open Safety

/-! ### The registers of the constants (R206, R264) -/

theorem calAdr_inj {u : CarrierId} {c d : Nat} (same : calAdr u c = calAdr u d) : c = d := by
  unfold calAdr at same
  split at same
  · simp only [Adr.BAY_CAL] at same
    omega
  · simp only [Adr.HVY_CAL] at same
    omega

theorem evReg_calAdr (u : CarrierId) (c : Nat) : evReg (calAdr u c) = false := by
  have high : 0x100000 ≤ calAdr u c := by
    unfold calAdr
    split
    · simp only [Adr.BAY_CAL]; omega
    · simp only [Adr.HVY_CAL]; omega
  simp only [evReg, Bool.or_eq_false_iff, beq_eq_false_iff_ne, ne_eq, Bool.and_eq_false_iff, decide_eq_false_iff_not, Adr.EVT_PEND_LO,
    Adr.EVT_PEND_HI]
  omega

/-! ### What follows a calibration (R417, R427, R428) -/

/-- The next calibration begins: the pass in progress and the calibrations of the units move, and nothing else. -/
structure CalMoves (s t : State) : Prop where
  eqn : t = { s with upd := { s.upd with pass := t.upd.pass, calFails := t.upd.calFails }, cu := t.cu }
  ok : ∀ v : CarrierId, (t.cu.get v).calOk = (s.cu.get v).calOk

theorem CalMoves.refl (s : State) : CalMoves s s := ⟨rfl, fun _ => rfl⟩

theorem CalMoves.trans {s t u : State} (h : CalMoves s t) (k : CalMoves t u) : CalMoves s u :=
  ⟨by rw [k.eqn, h.eqn], fun v => (k.ok v).trans (h.ok v)⟩

theorem CalMoves.regs {s t : State} (h : CalMoves s t) : t.regs = s.regs := by rw [h.eqn]
theorem CalMoves.ax {s t : State} (h : CalMoves s t) : t.ax = s.ax := by rw [h.eqn]
theorem CalMoves.passFrom {s t : State} (h : CalMoves s t) : t.upd.passFrom = s.upd.passFrom := by rw [h.eqn]

theorem CalMoves.pass (s : State) (p : Option CalPass) (n : Nat) : CalMoves s { s with upd := { s.upd with pass := p, calFails := n } } :=
  ⟨rfl, fun _ => rfl⟩

theorem CalMoves.begins (s : State) (u : CarrierId) (f : Option FrameNo) : CalMoves s (s.modCu u fun c => { c with cal := f }) :=
  ⟨rfl, fun v => State.cu_modCu_proj CUnit.calOk s u v fun _ => rfl⟩

theorem State.calNext_moves (s : State) : CalMoves s s.calNext := by
  unfold State.calNext
  split
  · exact .refl s
  · split
    · exact .refl s
    · split
      · exact .pass ..
      · split
        · exact .refl s
        · exact (CalMoves.pass s _ s.upd.calFails).trans (.begins ..)

theorem State.chainCal_moves (s : State) (u : CarrierId) : CalMoves s (s.chainCal u) := by
  unfold State.chainCal
  split
  · exact .begins ..
  · exact .refl s

/-- The unit's calibration is over, before the event that tells so. -/
def State.calEnded (s : State) (u : CarrierId) (ok : Bool) : State := s.modCu u fun c => { c with cal := none, calOk := c.calOk || ok }

/-- What follows the event: the next unit of the pass, or of the tile. -/
def State.calFollows (s : State) (u : CarrierId) (ok : Bool) : State :=
  match s.upd.pass with
  | some p =>
    if p.cur = some u then { s with upd := { s.upd with pass := some { p with cur := none, fails := p.fails + b2n (!ok) } } }.calNext
    else s.chainCal u
  | none => s.chainCal u

theorem State.calFollows_moves (s : State) (u : CarrierId) (ok : Bool) : CalMoves s (s.calFollows u ok) := by
  unfold State.calFollows
  split
  · split
    · exact (CalMoves.pass s _ s.upd.calFails).trans (State.calNext_moves _)
    · exact s.chainCal_moves u
  · exact s.chainCal_moves u

theorem State.calDone_eq (s : State) (u : CarrierId) (ok : Bool) (n : Nat) : s.calDone u ok n =
    ((s.calEnded u ok).raise 62 (unitCode u) (wd (b2n (!ok) + 256 * if u.val < 24 then 1 else 2)) (wd n)).calFollows u ok := rfl

/-- The end of a calibration keeps or earns the unit's good mark, and tells with event 62. -/
theorem State.calDone_does (s : State) (u : CarrierId) (ok : Bool) (n : Nat) :
    ((s.calDone u ok n).cu.get u).calOk = ((s.cu.get u).calOk || ok) ∧ (s.calDone u ok n).rb Adr.EVT_PEND_HI 30 = true ∧
      ∀ a, evReg a = false → (s.calDone u ok n).reg a = s.reg a := by
  rw [State.calDone_eq]
  have moves := State.calFollows_moves ((s.calEnded u ok).raise 62 (unitCode u) (wd (b2n (!ok) + 256 * if u.val < 24 then 1 else 2)) (wd n)) u ok
  refine ⟨?_, ?_, fun a other => ?_⟩
  · rw [moves.ok, (tells_raise ..).cu, State.calEnded, State.cu_modCu_self]
  · rw [State.rb_of_regs moves.regs]
    exact State.rb_raise_hi _ (e := 62) (by decide) ..
  · rw [State.reg_of_regs moves.regs, (within_raise (.refl true _) ..).reg rfl a other]
    exact State.reg_of_regs rfl a

/-! ### The end of a calibration (R426) -/

theorem calPair_fits {z : Nat × Nat} {g : Nat} {o : Int} (pair : calPair z = some (g, o)) : g < 65536 := by
  unfold calPair at pair
  split at pair
  · exact nomatch pair
  · dsimp only at pair
    split at pair
    next fits =>
      obtain ⟨rfl, -⟩ := Prod.mk.inj (Option.some.inj pair)
      omega
    · exact nomatch pair

/-- The constants of a channel are stored in its register. -/
def State.calStored (s : State) (u : CarrierId) (c : Nat) (pair : Option (Nat × Int)) : State :=
  match pair with
  | some (g, o) => s.putReg (calAdr u c) (bits 31 16 + bits 11 0) (g * 65536 + (BitVec.ofInt 12 o).toNat)
  | none => s

theorem gainBits : ∀ i < 31 + 1 - 16, (wd (bits 31 16 + bits 11 0)).getLsbD (16 + i) = true := by decide +kernel

theorem State.rf_calStored (s : State) (u : CarrierId) (c : Nat) {g : Nat} {o : Int} (fits : g < 65536) :
    (s.calStored u c (some (g, o))).rf (calAdr u c) 31 16 = g := by
  have low := (BitVec.ofInt 12 o).isLt
  rw [State.calStored, State.rf, State.putReg, State.reg_setReg_self, fld_mergeW_full gainBits (by decide), fld, wd, BitVec.toNat_ofNat]
  omega

theorem State.reg_calStored (s : State) {u : CarrierId} {c d : Nat} (pair : Option (Nat × Int)) (apart : d ≠ c) :
    (s.calStored u c pair).reg (calAdr u d) = s.reg (calAdr u d) := by
  unfold State.calStored
  split
  · exact State.reg_setReg_other _ _ fun same => apart (calAdr_inj same)
  · rfl

/-- The pair that channel `c`'s sums give. -/
def calOf (zr : List (Nat × Nat)) (c : Nat) : Option (Nat × Int) := (zr[c]?).bind calPair

/-- The state with the constants of all channels stored. -/
def State.calAll (s : State) (u : CarrierId) (zr : List (Nat × Nat)) : State :=
  s.forAll ((List.range 16).map fun c => (zr[c]?).bind calPair).zipIdx fun t e => t.calStored u e.2 e.1

theorem State.calAll_eq (s : State) (u : CarrierId) (zr : List (Nat × Nat)) :
    s.calAll u zr = s.forAll (List.range 16) fun t c => t.calStored u c (calOf zr c) := by
  have results : ((List.range 16).map fun c => (zr[c]?).bind calPair).zipIdx = (List.range 16).map fun c => (calOf zr c, c) := rfl
  rw [State.calAll, results, State.forAll, List.foldl_map, State.forAll]

/-- Every channel's register holds its gain. -/
theorem State.rf_calAll (s : State) (u : CarrierId) (zr : List (Nat × Nat)) {c : Nat} (h : c < 16) {g : Nat} {o : Int}
    (pair : calOf zr c = some (g, o)) (fits : g < 65536) : (s.calAll u zr).rf (calAdr u c) 31 16 = g := by
  rw [State.calAll_eq]
  refine State.forAll_at (I := fun _ => True) (Q := fun t => t.rf (calAdr u c) 31 16 = g) (a := c) (fun _ _ _ _ => trivial) (fun t _ => ?_)
    (fun t d apart held => ?_) (List.mem_range.2 h) List.nodup_range trivial
  · rw [pair, t.rf_calStored u c fits]
  · rw [State.rf, t.reg_calStored _ apart.symm]
    exact held

theorem calCount_all {zr : List (Nat × Nat)} (good : ∀ c < 16, (calOf zr c).isSome = true) :
    (((List.range 16).map fun c => calOf zr c).filter Option.isSome).length = 16 := by
  rw [List.filter_eq_self.2]
  · rfl
  · intro r mem
    obtain ⟨c, lt, rfl⟩ := List.mem_map.1 mem
    exact good c (List.mem_range.1 lt)

section

variable {s : State} {u : CarrierId} {f : FrameNo} (zr : List (Nat × Nat)) (runs : (s.cu.get u).cal = some f)
include runs

theorem exec_bayCalibrationEnd_good (there : s.carriers = true) (late : 80 ≤ s.since f) (good : ∀ c < 16, (calOf zr c).isSome = true) :
    exec (.bayCalibrationEnd u zr true) s =
      .next (((s.calAll u zr).modCu u fun c => { c with ofsFr := List.replicate 16 0 }).calDone u true
        (((List.range 16).map fun c => calOf zr c).filter Option.isSome).length) := by
  have count := calCount_all good
  refine congrArg Host.Outcome.next ?_
  rw [runs]
  refine (if_neg ?_).trans (if_pos ⟨count, rfl⟩)
  rintro (gone | early)
  · exact gone there
  · omega

theorem exec_bayCalibrationEnd_bad (there : s.carriers = true) (late : 80 ≤ s.since f) :
    exec (.bayCalibrationEnd u zr false) s =
      .next (s.calDone u false (((List.range 16).map fun c => calOf zr c).filter Option.isSome).length) := by
  refine congrArg Host.Outcome.next ?_
  rw [runs]
  refine (if_neg ?_).trans (if_neg fun h => nomatch h.2)
  rintro (gone | early)
  · exact gone there
  · omega

end

/-! ### Passes (R428) -/

/-- A pass that starts runs. -/
theorem State.startPass_runs (s : State) : s.startPass.upd.pass.isSome = true := by
  unfold State.startPass
  split
  next runs => exact runs
  · unfold State.calNext
    dsimp only
    split
    · rfl
    · rw [if_neg (by decide)]
      split <;> rfl

theorem State.startPass_moves (s : State) : CalMoves s s.startPass := by
  unfold State.startPass
  split
  · exact .refl s
  · exact (CalMoves.pass s _ s.upd.calFails).trans (State.calNext_moves _)

section

variable {s : State} (on : s.sys.powered = true) (started : s.frm.started = true) (set : s.rf Adr.UPD_CAL_CFG 15 0 ≠ 0)
include on started set

theorem exec_calibrationPassStart_due (due : s.rf Adr.UPD_CAL_CFG 15 0 * s.hz ≤ s.since s.upd.passFrom) :
    exec .calibrationPassStart s = .next { s with upd := { s.upd with passFrom := s.frm.count } }.startPass :=
  congrArg Host.Outcome.next (if_pos ⟨on, started, set, due⟩)

end

/-! ### The write that begins a pass -/

theorem rights_calCfg : rights Adr.UPD_CAL_CFG = some (bits 15 0, bits 31 31 + bits 15 0, 0) := by decide +kernel

theorem intBits : ∀ i < 15 + 1 - 0, (wd (bits 15 0)).getLsbD (0 + i) = true := by decide +kernel

theorem normalise_calCfg (w : Word) : normalise Adr.UPD_CAL_CFG w = w := rfl

/-- A write that acts is one by an admin master, stored as it is written. -/
theorem State.plainWrite_privileged {s : State} {m : Master} {a rw prv w1c k : Nat} (acts : Acts s m a k) (row : rights a = some (rw, prv, w1c))
    (reach : prv &&& k ≠ 0) (w : Word) : m.admin = true ∧ s.plainWrite m a w = s.stored m a w := by
  obtain ⟨adm, -, -⟩ := State.gate_of_privileged acts row reach
  exact ⟨adm, State.plainWrite_stored acts.1 (s.mayWrite_admin adm a) (s.notePrv_admin adm a) row w⟩

theorem exec_updCalGo {s : State} {m : Master} (w : Word) (acts : Acts s m Adr.UPD_CAL_CFG (bits 31 31)) : exec (.updCalGo m w) s =
    .next (if bitOf w 31 then (s.stored m Adr.UPD_CAL_CFG w).startPass else s.stored m Adr.UPD_CAL_CFG w) := by
  obtain ⟨adm, stored⟩ := State.plainWrite_privileged acts rights_calCfg (by decide) w
  refine congrArg Host.Outcome.next ?_
  rw [State.calCfgWrite, stored, acts.2]
  by_cases go : bitOf w 31 = true
  · exact (if_pos ⟨go, rfl⟩).trans (if_pos go).symm
  · exact (if_neg fun h => go h.1).trans (if_neg go).symm

theorem State.rf_calCfg {s : State} {m : Master} (adm : m.admin = true) (w : Word) :
    (s.stored m Adr.UPD_CAL_CFG w).rf Adr.UPD_CAL_CFG 15 0 = fld w 15 0 := by
  rw [State.rf, State.reg_stored, State.fld_written_admin w rights_calCfg intBits (by decide) adm, normalise_calCfg,
    fld_mergeW_full intBits (by decide)]

theorem exec_updCalGo_does {s : State} {m : Master} (w : Word) (acts : Acts s m Adr.UPD_CAL_CFG (bits 31 31)) :
    Completes (.updCalGo m w) s fun t => t.rf Adr.UPD_CAL_CFG 15 0 = fld w 15 0 ∧ t.ax = s.ax ∧
      if bitOf w 31 then t.upd.pass.isSome = true else t.upd = s.upd := by
  obtain ⟨adm, -⟩ := State.plainWrite_privileged acts rights_calCfg (by decide) w
  have moves := (s.stored m Adr.UPD_CAL_CFG w).startPass_moves
  refine completes_of_exec (exec_updCalGo w acts) ?_
  split
  · exact ⟨by rw [State.rf, State.reg_of_regs moves.regs]; exact State.rf_calCfg adm w, moves.ax, State.startPass_runs _⟩
  · exact ⟨State.rf_calCfg adm w, rfl, rfl⟩

end Sys2Proof.Machine
end

section
/-! SUPPORT. The obligation of calibration and updates: the flash, the switch of the cores, and the clauses of calibration. -/

namespace Sys2Proof.Machine

open Safety

/-! ### UPD_CTL (R431, R435) -/

theorem rights_updCtl : rights Adr.UPD_CTL = some (bits 13 12 + bits 10 8, bits 13 12 + bits 10 8 + bits 1 0, 0) := by decide +kernel

theorem targetBits : ∀ i < 10 + 1 - 8, (wd (bits 13 12 + bits 10 8)).getLsbD (8 + i) = true := by decide +kernel

theorem slotBits : ∀ i < 13 + 1 - 12, (wd (bits 13 12 + bits 10 8)).getLsbD (12 + i) = true := by decide +kernel

theorem normalise_updCtl (w : Word) : normalise Adr.UPD_CTL w = if 3 ≤ fld w 10 8 then putFld w (bits 10 8) 8 0 else w := rfl

/-- A target that there is, and its slot, are stored as they are written. -/
theorem State.fields_updCtl {s : State} {m : Master} (adm : m.admin = true) (w : Word) (target : fld w 10 8 < 3) :
    (s.stored m Adr.UPD_CTL w).rf Adr.UPD_CTL 10 8 = fld w 10 8 ∧ (s.stored m Adr.UPD_CTL w).rf Adr.UPD_CTL 13 12 = fld w 13 12 := by
  have plain : normalise Adr.UPD_CTL (mergeW (s.reg Adr.UPD_CTL) w (bits 13 12 + bits 10 8)) =
      mergeW (s.reg Adr.UPD_CTL) w (bits 13 12 + bits 10 8) := by
    rw [normalise_updCtl, if_neg]
    rw [fld_mergeW_full targetBits (by decide)]
    omega
  refine ⟨?_, ?_⟩
  · rw [State.rf, State.reg_stored, State.fld_written_admin w rights_updCtl targetBits (by decide) adm, plain,
      fld_mergeW_full targetBits (by decide)]
  · rw [State.rf, State.reg_stored, State.fld_written_admin w rights_updCtl slotBits (by decide) adm, plain,
      fld_mergeW_full slotBits (by decide)]

/-- A write of UPD_CTL leaves the other registers. -/
theorem State.reg_stored_other (s : State) (m : Master) {a b : Nat} (w : Word) (other : b ≠ a) : (s.stored m a w).reg b = s.reg b :=
  State.reg_setReg_other _ _ other

section

variable {s : State} {m : Master} {w : Word} (acts : Acts s m Adr.UPD_CTL 3)
include acts

theorem State.updCtlWrite_acts : m.admin = true ∧ s.plainWrite m Adr.UPD_CTL w = s.stored m Adr.UPD_CTL w ∧ s.updCtlWrite m w =
    if bitOf w 0 then (if bitOf w 1 then (s.stored m Adr.UPD_CTL w).updCapture else s.stored m Adr.UPD_CTL w).updGo
    else if bitOf w 1 then (s.stored m Adr.UPD_CTL w).updCapture else s.stored m Adr.UPD_CTL w := by
  obtain ⟨adm, stored⟩ := State.plainWrite_privileged acts rights_updCtl (by decide) w
  refine ⟨adm, stored, ?_⟩
  rw [State.updCtlWrite, stored]
  exact if_neg (not_not_intro acts.2)

theorem exec_updCapture (capture : bitOf w 1 = true) (still : bitOf w 0 = false) :
    exec (.updCapture m w) s = .next (s.stored m Adr.UPD_CTL w).updCapture := by
  obtain ⟨-, -, write⟩ := State.updCtlWrite_acts (w := w) acts
  refine congrArg Host.Outcome.next (write.trans ?_)
  rw [if_neg (by rw [still]; decide), if_pos capture]

theorem exec_updGo (still : bitOf w 1 = false) (go : bitOf w 0 = true) : exec (.updGo m w) s = .next (s.stored m Adr.UPD_CTL w).updGo := by
  obtain ⟨-, -, write⟩ := State.updCtlWrite_acts (w := w) acts
  refine congrArg Host.Outcome.next (write.trans ?_)
  rw [if_pos go, if_neg (by rw [still]; decide)]

end

theorem State.updGo_busy {s : State} (busy : s.upd.state ∈ [1, 2, 3]) : s.updGo = s.orReg Adr.UPD_STAT (2 ^ 17) := by
  refine if_pos ?_
  simp only [List.mem_cons, List.not_mem_nil, or_false] at busy
  omega

theorem State.updGo_busy_does {s : State} (busy : s.upd.state ∈ [1, 2, 3]) : s.updGo.upd = s.upd ∧ s.updGo.out = s.out ∧
    s.updGo.rb Adr.UPD_STAT 17 = true := by
  rw [State.updGo_busy busy, State.orReg_upd, State.orReg_out]
  exact ⟨rfl, rfl, State.rb_orReg_self _ _ (k := 17) (by decide)⟩

theorem State.updGo_begins {s : State} (free : s.upd.state = 0 ∨ s.upd.state = 4 ∨ s.upd.state = 5)
    (whole : s.rf Adr.UPD_CTL 10 8 ≠ 0 ∨ s.mixedCores = false) : s.updGo =
    { s with upd := { s.upd with state := 1, job := some (s.rf Adr.UPD_CTL 10 8, s.rf Adr.UPD_CTL 13 12) } }.emit
      (.dmaRead 0 (s.reg64 Adr.UPD_SRC_LO) (s.rf Adr.UPD_LEN 21 0)) := by
  refine (if_neg (by omega)).trans (if_neg ?_)
  rintro ⟨image, mixed⟩
  rcases whole with other | same
  · exact other image
  · rw [same] at mixed
    exact nomatch mixed

/-! ### The end of a write (R431, R435, R438) -/

theorem Upd.putSlot_does (u : Upd) (f : FwSlot) : (u.putSlot f).slot (!u.boot) = f ∧ (u.putSlot f).slot u.boot = u.slot u.boot ∧
    (u.putSlot f).boot = u.boot ∧ (u.putSlot f).consists = u.consists ∧ (u.putSlot f).state = u.state ∧ (u.putSlot f).job = u.job := by
  cases boot : u.boot <;> simp [Upd.putSlot, Upd.slot, boot]

theorem State.stageEvent_tells (s : State) (u stage reason : Nat) (v : Word) : Tells s (s.stageEvent u stage reason v) := tells_raise ..

theorem State.rb_stageEvent (s : State) (u stage reason : Nat) (v : Word) : (s.stageEvent u stage reason v).rb Adr.EVT_PEND_HI 29 = true :=
  State.rb_raise_hi _ (e := 61) (by decide) ..

section

variable {s : State} {g k : Nat} (job : s.upd.job = some (g, k))
include job

theorem exec_updWriteDone_image (v : Word) (l fmts : List Nat) (image : g = 0) : exec (.updWriteDone (.image v l fmts)) s =
    .next ({ s with upd := ({ s.upd with state := 4, job := none } : Upd).putSlot ⟨v, l, fmts, true⟩ }.stageEvent 6 1 0 v) := by
  refine congrArg Host.Outcome.next ?_
  rw [job]
  exact if_pos image

theorem exec_updWriteDone_consist (l : List ConsistItem) (good : Bool) (consist : g = 1) : exec (.updWriteDone (.consist l good)) s =
    .next { s with upd := { s.upd with state := 4, job := none, consists := s.upd.consists.set k (if good then some l else none) } } := by
  refine congrArg Host.Outcome.next ?_
  rw [job]
  exact if_pos consist

theorem exec_updWriteDone_failed (n : Nat) (v : Word) : exec (.updWriteDone (.failed n v)) s =
    .next ((s.spoilt g k n).writeFailed g n (if n = 5 then none else some v)) := by
  refine congrArg Host.Outcome.next ?_
  rw [job]

end

/-- What a failed write may spoil: the slot that was written, and nothing else. -/
theorem State.spoilt_does (s : State) (g k n : Nat) : (s.spoilt g k n).wb = s.wb ∧
    (s.spoilt g k n).upd.slot s.upd.boot = s.upd.slot s.upd.boot ∧ (g ≠ 1 ∨ n ≠ 4 → (s.spoilt g k n).upd.consists = s.upd.consists) ∧
    ∀ i, i ≠ k → (s.spoilt g k n).upd.consists.getD i none = s.upd.consists.getD i none := by
  unfold State.spoilt
  split
  · obtain ⟨-, boot, -, consists, -, -⟩ := s.upd.putSlot_does ⟨0, [], [], false⟩
    exact ⟨rfl, boot, fun _ => consists, fun i _ => congrArg (·.getD i none) consists⟩
  · split
    next consist =>
      dsimp only
      split
      · refine ⟨rfl, rfl, fun other => ?_, fun i apart => ?_⟩
        · rcases other with other | other
          · exact absurd consist.1 other
          · exact absurd consist.2 other
        · change (s.upd.consists.set k none).getD i none = _
          rw [List.getD_eq_getElem?_getD, List.getElem?_set_ne apart.symm, ← List.getD_eq_getElem?_getD]
      · exact ⟨rfl, rfl, fun _ => rfl, fun _ _ => rfl⟩
    · exact ⟨rfl, rfl, fun _ => rfl, fun _ _ => rfl⟩

/-- A write that fails leaves its reason, and of an image tells so. -/
theorem State.writeFailed_does (s : State) (g n : Nat) (v : Option Word) :
    (s.writeFailed g n v).upd = { s.upd with state := 5, reason := n, job := none } ∧ (s.writeFailed g n v).wb = s.wb ∧
      (g = 0 → (s.writeFailed g n v).rb Adr.EVT_PEND_HI 29 = true) := by
  unfold State.writeFailed
  dsimp only
  split
  next other => exact ⟨rfl, rfl, fun image => absurd image other⟩
  · split
    · exact ⟨(State.stageEvent_tells ..).upd, (State.stageEvent_tells ..).wb, fun _ => State.rb_stageEvent ..⟩
    · exact ⟨(State.stageEvent_tells ..).upd, (State.stageEvent_tells ..).wb, fun _ => State.rb_stageEvent ..⟩

/-! ### The switch of the cores (R436, R438) -/

theorem rights_switch : rights Adr.UPD_SWITCH = some (bits 6 0, bits 31 31 + bits 6 0, 0) := by decide +kernel

theorem maskBits : ∀ i < 6 + 1 - 0, (wd (bits 6 0)).getLsbD (0 + i) = true := by decide +kernel

theorem normalise_switch (w : Word) : normalise Adr.UPD_SWITCH w = w := rfl

theorem State.rf_switch {s : State} {m : Master} (adm : m.admin = true) (w : Word) :
    (s.stored m Adr.UPD_SWITCH w).rf Adr.UPD_SWITCH 6 0 = fld w 6 0 := by
  rw [State.rf, State.reg_stored, State.fld_written_admin w rights_switch maskBits (by decide) adm, normalise_switch,
    fld_mergeW_full maskBits (by decide)]

theorem exec_updSwitchGo {s : State} {m : Master} {w : Word} (acts : Acts s m Adr.UPD_SWITCH (bits 31 31)) (booted : s.sys.booted = true)
    (free : s.upd.switching = none) (named : fld w 6 0 ≠ 0) (go : bitOf w 31 = true) : exec (.updSwitchGo m w) s = .next (
      if (s.upd.slot (!s.upd.boot)).good = true then
        { s.stored m Adr.UPD_SWITCH w with upd := { s.upd with switching := some (BitVec.ofNat 7 (fld w 6 0)) } }
      else s.stored m Adr.UPD_SWITCH w) := by
  obtain ⟨adm, stored⟩ := State.plainWrite_privileged acts rights_switch (by decide) w
  have some_ : BitVec.ofNat 7 (fld w 6 0) ≠ 0 := by
    intro zero
    have value := congrArg BitVec.toNat zero
    have small : fld w 6 0 < 128 := Nat.mod_lt _ (by decide)
    rw [BitVec.toNat_ofNat, Nat.mod_eq_of_lt small] at value
    exact named value
  refine congrArg Host.Outcome.next ?_
  rw [State.switchWrite, stored, State.rf_switch adm, acts.2]
  by_cases good : (s.upd.slot (!s.upd.boot)).good = true
  · refine (if_pos ⟨go, rfl, booted, some_, ?_, good⟩).trans (if_pos good).symm
    exact Option.isNone_iff_eq_none.2 free
  · exact (if_neg fun h => good h.2.2.2.2.2).trans (if_neg good).symm

/-- The event of the bank of core `u`, which the check of the copy in `s` judges. -/
def State.bankTold (s : State) (f : FwSlot) (good : BitVec 7) (t : State) (u : Fin 7) : State :=
  match s.copyFails f good u with
  | none => t.stageEvent u 0 0 f.version
  | some r => t.stageEvent u 4 r f.version

/-- The events of the banks that have been copied. -/
def State.banksTold (s : State) (f : FwSlot) (good k : BitVec 7) : State := s.forAll (coresOf k) (s.bankTold f good)

/-- What a core tells of its bank is an event, whatever it tells. -/
theorem State.bankTold_eq (s t : State) (f : FwSlot) (good : BitVec 7) (u : Fin 7) :
    ∃ stage r, s.bankTold f good t u = t.stageEvent u stage r f.version := by
  unfold State.bankTold
  split
  · exact ⟨0, 0, rfl⟩
  next r _ => exact ⟨4, r, rfl⟩

/-- Every core that is named tells, and nothing else happens. -/
theorem State.banksTold_tells (s : State) (f : FwSlot) (good k : BitVec 7) : Tells s (s.banksTold f good k) := by
  refine State.forAll_keeps (fun t => Tells s t) (fun t u told => ?_) (.refl s)
  obtain ⟨stage, r, same⟩ := s.bankTold_eq t f good u
  rw [same]
  exact told.trans (State.stageEvent_tells ..)

theorem State.rb_banksTold (s : State) (f : FwSlot) (good : BitVec 7) {k : BitVec 7} {u : Fin 7} (named : u ∈ coresOf k) :
    (s.banksTold f good k).rb Adr.EVT_PEND_HI 29 = true := by
  refine State.forAll_reaches (fun _ t => t.rb Adr.EVT_PEND_HI 29 = true) (fun t u => ?_) (fun t u _ _ => ?_) s u named
  all_goals
    obtain ⟨stage, r, same⟩ := s.bankTold_eq t f good u
    rw [same]
    exact State.rb_stageEvent ..

section

variable {s : State} {k : BitVec 7} (good : BitVec 7) (runs : s.upd.switching = some k) (unasked : s.switchAsked = false)
include runs unasked

theorem exec_updBankCopyDone_asks (fine : (coresOf k).filterMap (s.copyFails (s.upd.slot (!s.upd.boot)) good) = []) :
    exec (.updBankCopyDone good) s = .next ((s.banksTold (s.upd.slot (!s.upd.boot)) good k).ask
      (.firmware k (s.upd.slot (!s.upd.boot)).costs) (s.banksTold (s.upd.slot (!s.upd.boot)) good k).frm.count) := by
  refine congrArg Host.Outcome.next ?_
  rw [runs]
  refine (if_neg (by rw [unasked]; exact Bool.false_ne_true)).trans ?_
  dsimp only
  rw [fine]
  rfl

theorem exec_updBankCopyDone_ends {r : Nat} {l : List Nat} (bad : (coresOf k).filterMap (s.copyFails (s.upd.slot (!s.upd.boot)) good) = r :: l) :
    exec (.updBankCopyDone good) s = .next { s.banksTold (s.upd.slot (!s.upd.boot)) good k with
      upd := { (s.banksTold (s.upd.slot (!s.upd.boot)) good k).upd with switching := none, reason := r } } := by
  refine congrArg Host.Outcome.next ?_
  rw [runs]
  refine (if_neg (by rw [unasked]; exact Bool.false_ne_true)).trans ?_
  dsimp only
  rw [bad]
  rfl

end

/-- Settles O60: the end of a calibration, the passes, the writes of the flash, and the switch of the cores. -/
theorem calibrationAndUpdates : Obligations.CalibrationAndUpdates := by
  unfold Obligations.CalibrationAndUpdates
  refine fun s m w => ⟨fun u zr g => ⟨fun none => ?_, fun f runs there late => ⟨fun good all => ?_, fun bad => ?_⟩⟩,
    fun on started set => ⟨fun early => ?_, fun due idle => ?_, fun due runs => ?_⟩, exec_updCalGo_does w,
    fun acts => ⟨fun capture still consist => ?_, fun still go free target whole => ?_, fun still go busy => ?_⟩, fun r none => ?_,
    fun k v l g job => ?_, fun k l g job => exec_updWriteDone_consist job l g rfl, fun g k n v job => ?_,
    fun acts booted free named go => ?_, fun g none => ?_, fun g k runs unasked => ⟨fun fine => ?_, fun r bad => ?_⟩⟩
  · refine congrArg Host.Outcome.next ?_
    rw [none]
  · subst good
    obtain ⟨ok, told, regs⟩ := ((s.calAll u zr).modCu u fun c => { c with ofsFr := List.replicate 16 0 }).calDone_does u true
      (((List.range 16).map fun c => calOf zr c).filter Option.isSome).length
    refine completes_of_exec (exec_bayCalibrationEnd_good zr runs there late all) ⟨ok.trans (Bool.or_true _), told, fun c z e lt sums pair => ?_⟩
    have own : calOf zr c = some (e.1, e.2) := by rw [calOf, sums]; exact pair
    rw [State.rf, regs _ (evReg_calAdr u c)]
    exact (congrArg (fld · 31 16) (State.reg_of_regs rfl _)).trans (s.rf_calAll u zr lt own (calPair_fits pair))
  · subst bad
    obtain ⟨ok, told, regs⟩ := s.calDone_does u false (((List.range 16).map fun c => calOf zr c).filter Option.isSome).length
    exact completes_of_exec (exec_bayCalibrationEnd_bad zr runs there late)
      ⟨ok.trans (Bool.or_false _), told, fun c _ => regs _ (evReg_calAdr u c)⟩
  · exact congrArg Host.Outcome.next (if_neg fun h => Nat.not_le.2 early h.2.2.2)
  · have moves := State.startPass_moves { s with upd := { s.upd with passFrom := s.frm.count } }
    exact completes_of_exec (exec_calibrationPassStart_due on started set due) ⟨State.startPass_runs _, moves.passFrom, moves.regs, moves.ax⟩
  · rw [exec_calibrationPassStart_due on started set due]
    exact congrArg Host.Outcome.next (if_pos runs)
  · obtain ⟨adm, stored, -⟩ := State.updCtlWrite_acts (w := w) acts
    obtain ⟨target, slot⟩ := State.fields_updCtl (s := s) adm w (by omega)
    refine completes_of_exec (exec_updCapture acts capture still) ?_
    rw [stored, State.updCapture, if_pos (target.trans consist), slot]
    rfl
  · obtain ⟨adm, -, -⟩ := State.updCtlWrite_acts (w := w) acts
    obtain ⟨tgt, slot⟩ := State.fields_updCtl (s := s) adm w target
    refine completes_of_exec (exec_updGo acts still go) ?_
    rw [State.updGo_begins (s := s.stored m Adr.UPD_CTL w) free (by rw [tgt]; exact whole), tgt, slot, State.reg64, State.rf,
      s.reg_stored_other m w (by decide), s.reg_stored_other m w (by decide), s.reg_stored_other m w (by decide)]
    exact ⟨rfl, rfl⟩
  · exact completes_of_exec (exec_updGo acts still go) (State.updGo_busy_does (s := s.stored m Adr.UPD_CTL w) busy)
  · refine congrArg Host.Outcome.next ?_
    rw [none]
  · obtain ⟨other, own, boot, -, state, idle⟩ := ({ s.upd with state := 4, job := none } : Upd).putSlot_does ⟨v, l, g, true⟩
    refine completes_of_exec (exec_updWriteDone_image job v l g rfl) ?_
    rw [(State.stageEvent_tells ..).upd]
    exact ⟨state, idle, other, own, boot, State.rb_stageEvent ..⟩
  · obtain ⟨wb, slot, consists, others⟩ := s.spoilt_does g k n
    obtain ⟨upd, kept, told⟩ := (s.spoilt g k n).writeFailed_does g n (if n = 5 then none else some v)
    refine completes_of_exec (exec_updWriteDone_failed job n v) ?_
    rw [upd]
    exact ⟨rfl, rfl, rfl, slot, kept.trans wb, consists, others, told⟩
  · refine completes_of_exec (exec_updSwitchGo acts booted free named go) ?_
    split
    · exact ⟨rfl, rfl⟩
    · exact ⟨rfl, rfl⟩
  · refine congrArg Host.Outcome.next ?_
    rw [none]
  · have told := s.banksTold_tells (s.upd.slot (!s.upd.boot)) g k
    refine completes_of_exec (exec_updBankCopyDone_asks g runs unasked fine) ⟨told.upd, ?_⟩
    rw [State.frm_ask_congr told.frm, told.frm]
  · obtain ⟨l, list⟩ := List.head?_eq_some_iff.1 bad
    have told := s.banksTold_tells (s.upd.slot (!s.upd.boot)) g k
    have fails : r ∈ (coresOf k).filterMap (s.copyFails (s.upd.slot (!s.upd.boot)) g) := by rw [list]; exact List.mem_cons_self
    obtain ⟨u, named, -⟩ := List.mem_filterMap.1 fails
    exact completes_of_exec (exec_updBankCopyDone_ends g runs unasked list)
      ⟨rfl, rfl, told.frm, (State.rb_of_regs rfl _ _).trans (s.rb_banksTold (s.upd.slot (!s.upd.boot)) g named)⟩

end Sys2Proof.Machine
end
